-- ==== Sys2Proof/Word.lean ====
section
/-!
DEFINITION. The word types of the ZPL5124 model and the sparse table type.
A `Tab` is a list of (key, value) pairs with rising keys; a key that is not listed reads as a default that the
reader of the table names. The operations over it stand in Sys2Proof/Machine/Ops.lean.
-/

namespace Sys2Proof

/-- A byte of a record or buffer. -/
abbrev Byte := BitVec 8

/-- A 32-bit register word (14 Set-up Register Map). -/
abbrev Word := BitVec 32

/-- A 64-bit value: device time (R8), tags, counters. -/
abbrev Word64 := BitVec 64

/-- Sparse data by number: ports, herds, rings, sources, registers. -/
abbrev Tab (α : Type) := List (Nat × α)

/-- One field of a structure the device writes: byte offset, size in bytes, value (little-endian, R9). -/
abbrev Fld := Nat × Nat × Nat

end Sys2Proof
end

