-- ==== Sys2Proof/Config.lean ====
section
/-!
DEFINITION. What one unit or implementation fixes, and the free values: what the spec leaves open while the device
goes on. A free value has no body; a statement about it holds for every value.
-/

namespace Sys2Proof.Config

/-- FREE VALUE. The n-th draw from the entropy source: nonce (R100), SEED (R103), CAPS generation (R123), challenge
(R502). The spec fixes none of these values. Log 5. -/
opaque entropy : Nat → BitVec 128

/-- FREE VALUE. The n-th value that the spec leaves open for a result the device writes and goes on: what a receiver
or an engine computes by arithmetic the spec does not give. Log 5. -/
opaque freeValue : Nat → Nat

/-- SHA3-256 (R466, R509), as an uninterpreted function of the fields digested. Log 13. -/
opaque sha3 : List Fld → BitVec 256

/-- The unit's identity public key (R496, R508), as a number of 1,312 bytes. Log 13. -/
opaque publicKey : Nat

/-- SHA3-256 of the unit's identity public key, the BIND_HASH of R465 and R501. -/
def identityHash : BitVec 256 := sha3 [(0, 1312, publicKey)]

/-- The unit's DEVICE_TAG (R104): bits [38:0] of the digest of its identity public key. -/
def deviceTag : BitVec 39 := identityHash.setWidth 39

/-- SHA3-256 of Zolovia's root public key (R495), read in SEC_ROOT_HASH. Log 13. -/
opaque rootHash : BitVec 256

/-- Revision ID of the function, which the spec does not give beside its class code (R266). Log 12. -/
opaque revision : BitVec 8

/-- The unit's ML-DSA-44 signing (R496, R508) of a report digest, as an uninterpreted function. Log 13. -/
opaque sign : List Fld → Nat

/-- FREE VALUE. RS symbol i of a codeword that IEEE 802.3 fixes and the spec only names (R167, R168): 0 the Local Fault
sequence, 1 error control blocks. Log 5. -/
opaque stdSymbol : Nat → Nat → BitVec 10

/-! The receiver's arithmetic, where the spec gives widths and no rule of rounding (R61, R63, R65, R71, R80, R94). -/

/-- FREE VALUE. What a result that does not fit its width of Table 3 of Echo, Crosstalk and Equalisation becomes:
width, exact value. Log 54. -/
opaque overflow : Nat → Int → Int

/-- FREE VALUE. The 128-point transform of a block (R61), as the device's 6-bit mantissas and 4-bit exponent round it:
exponent and the 65 bins. Log 54. -/
opaque transform : List Int → Nat × List (Int × Int)

/-- FREE VALUE. The inverse transform of summed bins, scaled by the coefficients' binary point: 64 estimates (R63).
Log 54. -/
opaque inverse : List (Int × Int) → List Int

/-- FREE VALUE. The fixed 8-tap interpolator for the second sample of a symbol, over the estimates of the symbols 3
before to 4 after it (R63). Log 54. -/
opaque interpolate : List Int → Int

/-- FREE VALUE. The 64-phase, 8-tap resampler of a bundle slot: phase, eight reference symbols (R71). Log 54. -/
opaque resample : Nat → List Int → Int

/-- FREE VALUE. A partition's coefficients with their time-domain tail zeroed (R80). Log 54. -/
opaque constrain : List (Int × Int) → List (Int × Int)

/-- FREE VALUE. A corrected sample after a digital gain that is not 0 dB: gain in 0.1 dB, sample (R74). Log 54. -/
opaque gain : Int → Int → Int

/-- FREE VALUE. Binary points of the held coefficients of cancellers and equalisers against their update (R65, R80).
Log 54. -/
opaque cancellerPoint : Nat
opaque equaliserPoint : Nat

/-- FREE VALUE. Gains of the second-order timing loop's two branches (R94): what the detectors and the loop's damping
make of the bandwidth of Table 7. Log 54. -/
opaque loopGain : Int
opaque loopGain2 : Int

/-- FREE VALUE. The bit that closes a page of Clause 73 behind its 48 (R98): device uptime, the page. Log 58. -/
opaque pageBit : Nat → BitVec 48 → Bool

/-- FREE VALUE. Weights of the observation path's half-band filters (R248), which the spec does not give: those at the
odd offsets 1, 3, … 13 from the middle, by number, in units of 2^−16. Log 32. -/
opaque halfBand : Nat → Int

/-! What a passive diagnostic's arithmetic makes of held coefficients, with the front end's response removed (R235, R236). -/

/-- FREE VALUE. Γ in 0.0001 at a round-trip delay in ps: line mode code, echo coefficients, delay. Log 31. -/
opaque reflection : Nat → List (Nat × BitVec 32) → Nat → Int

/-- FREE VALUE. The residual noise floor relative to the pulse in 0.1 dB, from echo coefficients. Log 31. -/
opaque noiseFloor : List (Nat × BitVec 32) → Int

/-- FREE VALUE. Insertion loss at f_k in 0.1 dB: line mode code, FFE taps, analog and digital gain, k. Log 31. -/
opaque lineLoss : Nat → List (Nat × BitVec 32) → Nat → Int → Nat → Nat

/-- FREE VALUE. NEXT loss at f_k in 0.1 dB in one direction: line mode code, the NEXT canceller's coefficients, k. Log
31. -/
opaque nextLoss : Nat → List (Nat × BitVec 32) → Nat → Nat

/-! What the spec takes from IEEE 802.3 by name (R158, R166, R194). -/

/-- FREE VALUE. Bit n of SSPRQ, which IEEE 802.3 Clause 120 defines (R194). Log 59. -/
opaque ssprq : Nat → Bool

/-- FREE VALUE. The RS(544,514) line codeword of a group's 80 blocks, transcoded (R158): line mode code, HOST_FEC_25,
the corrected symbols or blocks the group came in. Log 59. -/
opaque lineCode : Nat → Nat → List (BitVec 10) → List (BitVec 10)

/-- FREE VALUE. A codeword's worth of host-out on a segmented port (R156, R158): line mode code, HOST_FEC_25, its
number in the stream, which places the alignment markers, the kind of its blocks (0 as on the line, 1 idle, 2 LPI, 3
error), its symbols on the line. Log 59. -/
opaque hostCode : Nat → Nat → Nat → Nat → List (BitVec 10) → List (BitVec 10)

/-- FREE VALUE. The idle or LPI codeword that a pass-through port rebuilds (R166, R216): whether LPI, its number in the
stream, the codeword delivered before it. Log 59. -/
opaque idleCode : Bool → Nat → List (BitVec 10) → List (BitVec 10)

end Sys2Proof.Config
end

