-- ==== Sys2Proof/Syntax.lean ====
section
/-!
DEFINITION. The commands of the ZPL5124: one constructor of `Instr` per row of spec/opcode_table.json, with the
operands of a host command (its descriptor's fields) or of an event (what the receiver, the timer, the sensor, the
partner or the pin delivered). The values an analog part or a signature engine determines are operands: log 3.
-/

namespace Sys2Proof

/-- A port number (R2). -/
abbrev PortId := Fin 512
/-- A herd number (R2). -/
abbrev HerdId := Fin 64
/-- A line die number (R2). -/
abbrev DieId := Fin 8
/-- A ring number (R270). -/
abbrev RingId := Fin 16384
/-- A pair index A to D (R4). -/
abbrev PairId := Fin 4
/-- A DDR5 channel (R141). -/
abbrev ChanId := Fin 2

/-- What the ring engine keeps of a dispatched command's descriptor (R287): where its completion goes. -/
structure Cmd where
  ring     : RingId
  index    : BitVec 16
  tag      : BitVec 64
  opcode   : BitVec 16
  target   : BitVec 16
  flags    : BitVec 16
  dataRing : BitVec 16
  params   : List Byte
  deriving DecidableEq, Repr

/-- The object a descriptor's TARGET names (R287). -/
inductive Target where
  | port (p : PortId)
  | herd (h : HerdId)
  | hub
  deriving DecidableEq, Repr

/-- A command descriptor as the ring engine reads it from host memory (R287). `params` are the 48 PARAMS bytes. -/
structure CmdDesc where
  opcode   : BitVec 16
  flags    : BitVec 16
  target   : BitVec 16
  dataRing : BitVec 16
  tag      : BitVec 64
  params   : List Byte
  deriving DecidableEq, Repr

/-- A data descriptor (R294); `rsvdZero` says that its reserved bytes are 0. -/
structure DataDesc where
  addr     : BitVec 64
  length   : BitVec 32
  flags    : BitVec 16
  tag      : BitVec 64
  rsvdZero : Bool
  deriving DecidableEq, Repr

/-- The key a CTX command names (R318). -/
structure CtxKey where
  partner : BitVec 48
  sig     : BitVec 32
  deriving DecidableEq, Repr

/-- A Clause 73 base page (R100): selector, echoed nonce, transmitted nonce, next-page bit. -/
structure BasePage where
  selector : BitVec 5
  echoed   : BitVec 5
  nonce    : BitVec 5
  ack      : Bool
  np       : Bool
  deriving DecidableEq, Repr

/-- A next page (R103, Table 2): the OUI message page, an unformatted page, a null page. -/
inductive NextPage where
  /-- Message page: message code, U[23:0] OUI and U[31:24] message number. -/
  | message (code : BitVec 11) (u : BitVec 32)
  /-- Unformatted page n of the offer: D[10:0] and U[31:0]. -/
  | unformatted (n : Fin 6) (d : BitVec 11) (u : BitVec 32)
  /-- Null message page. -/
  | null
  deriving DecidableEq, Repr

/-- The RS decoder's verdict on one codeword (R157, R158, R229): corrected symbols with the bits that change, by RS
symbol number, or uncorrectable. -/
inductive Verdict where
  | ok (corrected : List (Fin 544 × BitVec 10))
  | uncorrectable
  deriving DecidableEq, Repr

/-- What a codeword carries, after descrambling (R164, R204): frame data, idle only, LPI only, an alignment marker. -/
inductive CwKind where
  | data
  | idle
  | lpi
  | marker
  deriving DecidableEq, Repr

/-- A slot's time on the line as the front end delivers it (R46): the ADC samples of the four pairs, two per symbol
(R63); the verdict and kind of the codeword it carries if it is one; each pair's gain setting: in T1 and T2 the analog
gain in 0.5 dB steps, in service the digital trim in 0.1 dB (R74). -/
structure RxSlot where
  samples : List (List (BitVec 8))
  verdict : Verdict
  kind    : CwKind
  agc     : List (BitVec 8)
  deriving DecidableEq, Repr

/-- What a read of a context returns (R138, R140, R141, R153): whether its CRC and its directory entry's hold, and the
header fields that the device compares. -/
structure CtxRead where
  crcOk   : Bool
  dirOk   : Bool
  magic   : BitVec 32
  format  : BitVec 16
  port    : BitVec 16
  partner : BitVec 48
  sig     : BitVec 32
  deriving DecidableEq, Repr

/-- A host-in codeword or, without host FEC, a group of 80 blocks (R157, R158): the decoder's verdict, what it carries,
its symbols as received, and the measured offset of the host-in codeword rate in 0.1 ppm (R161). -/
structure HostCw where
  verdict : Verdict
  kind    : CwKind
  symbols : List (BitVec 10)
  ppm     : BitVec 16
  deriving DecidableEq, Repr

/-- A request in a training frame (R183, R184). -/
inductive TapReq where
  | hold
  | inc (tap : Fin 4)
  | dec (tap : Fin 4)
  | preset (n : Fin 3)
  | minus3
  | pam2
  | precode (on : Bool)
  deriving DecidableEq, Repr

/-- The partner's answer to a request (R183, R184). -/
inductive TapStatus where
  | notUpdated
  | updated
  | atLimit
  | notSupported
  deriving DecidableEq, Repr

/-- A training frame as received (R183): its checks, its request, whether the partner signals receiver ready, its
status field; and the slicer SNR in 0.1 dB over the 1,048,576 symbols since an acknowledged request, once they are
over (R185). -/
structure TrainFrame where
  checksOk : Bool
  req      : TapReq
  ready    : Bool
  status   : TapStatus
  snr      : Option Int
  deriving DecidableEq, Repr

/-- The findings of one pair of a diagnostic (R235, R239, R241): the energy heard in 0.1 dBm; what pulses bring to
other pairs, as (pair, round-trip delay in ps, level in 0.1 dB); the local extremes of its reflections, as (round-trip
delay in ps, Γ in 0.001); its residual noise floor relative to the pulse in 0.1 dB; its loss table. -/
structure PairFinding where
  energy     : Int
  cross      : List (PairId × Nat × Int)
  events     : List (Nat × Int)
  noiseFloor : Int
  il         : List Nat
  deriving DecidableEq, Repr

/-- The findings of a diagnostic on four pairs: pair findings, NEXT tables and profile. -/
structure DiagFinding where
  pairs   : List PairFinding
  next    : List (List Nat)
  profile : List (List Int)
  deriving DecidableEq, Repr

/-- Which mirror block is meant (R342). -/
inductive MirrorObj where
  | hub
  | gens
  | herd (h : HerdId)
  | port (p : PortId)
  deriving DecidableEq, Repr

/-- A line mode (Table 1 of Channel Contexts gives the codes 0 to 4 in this order). -/
inductive LineMode where
  | l100
  | l100s
  | l100x
  | l50
  | l25
  deriving DecidableEq, Repr

/-- An image's 4,096-byte header (R465) as a number, byte 0 lowest; SHA3-256 of its PUBKEY, whether its SIGNATURE
holds, and its header digest (R466), as the security engine finds them. -/
structure ImageHeader where
  raw     : Nat
  keyHash : BitVec 256
  sigOk   : Bool
  digest  : BitVec 256
  deriving DecidableEq, Repr

/-- An object given to FW.STAGE over data-out buffers (R474): its header, whether its body matches BODY_DIGEST. -/
structure ImageObj where
  header   : ImageHeader
  digestOk : Bool
  deriving DecidableEq, Repr

/-- The 3,988 bytes of a token (R501) as a number, byte 0 lowest; SHA3-256 of its PUBKEY and whether its SIGNATURE
holds. -/
structure Token where
  raw     : Nat
  keyHash : BitVec 256
  sigOk   : Bool
  deriving DecidableEq, Repr

/-- A PLL or monitor of Table 5 of Clocks, by its SEL and UNIT codes (R410). -/
structure PllId where
  sel  : Fin 16
  unit : Fin 64
  deriving DecidableEq, Repr

/-- A sequenced clock domain (R400): the hub core or a herd's DSP. -/
inductive Domain where
  | hubCore
  | herdDsp (h : HerdId)
  deriving DecidableEq, Repr

/-- A supply rail in the order of Table 4 of Events, Faults and Reactions: VDD_CORE, VDD_ANA, VDD_HV, VDD_HL,
VDDQ_DDR, VDD_IO, VDD_AON (0 to 6), then VDD_DSP0 to VDD_DSP7 (7 to 14). -/
abbrev RailId := Fin 15

/-- The three causes of a fixed reaction (R395). -/
inductive FixedCause where
  | refclk
  | junction
  | supply (r : RailId)
  deriving DecidableEq, Repr

/-- A failure that memory BIST found (R455, R456): the unit (a herd, or 0xFFFF for the hub), the memory, the word and
the bit; whether it fits the memory's spares and passed when it was tested again. -/
structure MemFail where
  unit : BitVec 16
  mem  : BitVec 16
  addr : BitVec 32
  bit  : BitVec 16
  fits : Bool
  deriving DecidableEq, Repr

/-- What a self-test step found (R455, R458): failing partitions and memory failures. -/
structure BistOutcome where
  logicFail : BitVec 16
  memFails  : List MemFail
  deriving DecidableEq, Repr

/-- How a boot step ended (R517): `repairsBad` names the entries of the repair table whose CRC fails (R456); `post`
carries what a part of the power-on self-test found, with the herd that failed or 0xFFFF for the hub. -/
inductive BootOutcome where
  | ok
  | imageBad
  | settingsBad
  | otpBad
  | repairsBad (l : List Nat)
  | post (b : BistOutcome) (herd : BitVec 16)
  | identityBad
  | entropyBad
  | ddrBad (c : ChanId)
  deriving DecidableEq, Repr

/-- The descriptors that host memory holds for a ring when its doorbell is written (R282, R284), as the bytes of each:
64 of a command descriptor, 32 of a data descriptor (R270). -/
structure Handed where
  ring  : RingId
  descs : List (List Byte)
  deriving DecidableEq, Repr

/-- A chain frame's own checks (R476, R478). -/
structure ChainCheck where
  crcOk : Bool
  seq   : BitVec 16
  deriving DecidableEq, Repr

/-- A frame carried by one I3C private write in Ibex (R492). -/
inductive IbexFrame where
  | header (c : ChainCheck) (h : ImageHeader)
  | body (c : ChainCheck) (offset : BitVec 32) (bytes : Nat)
  | fin (c : ChainCheck) (sent : BitVec 32) (digestOk : Bool)
  | activate (t : BitVec 64)
  | confirm
  | enterIbex (tag : BitVec 32)
  deriving DecidableEq, Repr

/-- A register of the function's configuration space, which PCIe places (R266, R267): the identity, the class code,
BAR n, and the settings that R266 bounds: payload and read request sizes as PCIe's codes, ASPM L1, 10-bit tags. -/
inductive CfgReg where
  | id
  | classCode
  | bar (n : Fin 6)
  | payload
  | readRequest
  | aspm
  | tags10
  deriving DecidableEq, Repr

/-- A host access without a row of its own (R266, R267, R286, R421): configuration requests, reads of BAR2 and BAR4. -/
inductive HostAccess where
  | configRead (r : CfgReg)
  | configWrite (r : CfgReg) (val : BitVec 32)
  | doorbellRead (r : RingId) (off : Fin 4)
  | bar4Read (word : Fin 16384)
  deriving DecidableEq, Repr

/-- What a write to the MSI-X table or capability changes (R302). -/
inductive MsixChange where
  | vectorMask (v : Fin 2048) (masked : Bool)
  | vectorMessage (v : Fin 2048) (addr : BitVec 64) (data : BitVec 32)
  | functionMask (masked : Bool)
  | enable (on : Bool)
  deriving DecidableEq, Repr

/-- A JTAG TAP operation (R505). -/
inductive JtagOp where
  | mandatory (ir : BitVec 8)
  | idcode
  | ac (ir : BitVec 8)
  | hubScan
  | lineScan (h : HerdId)
  | herdDebug (h : HerdId)
  | productionTest (ir : BitVec 8)
  | reset
  deriving DecidableEq, Repr

/-- The commands of spec/opcode_table.json. -/
inductive Instr where
  -- PORT and HERD commands (R313)
  | portConfig (c : Cmd) (p : PortId) (count : BitVec 8) (entries : List (BitVec 16 × BitVec 32))
  | portCommit (c : Cmd) (t : Target)
  | portEnable (c : Cmd) (p : PortId)
  | portDisable (c : Cmd) (p : PortId)
  | portRestart (c : Cmd) (p : PortId)
  | portTrain (c : Cmd) (p : PortId)
  | portLoopbackOff (c : Cmd) (p : PortId)
  | portLoopbackDigital (c : Cmd) (p : PortId)
  | portLoopbackRemote (c : Cmd) (p : PortId)
  | herdMode (c : Cmd) (h : HerdId) (modeSet : BitVec 8)
  | herdTiming (c : Cmd) (h : HerdId) (policy : BitVec 8)
  -- CTX commands (R150, R318)
  | ctxSave (c : Cmd) (p : PortId) (paired : BitVec 8)
  | ctxLoad (c : Cmd) (p : PortId) (k : CtxKey) (read : CtxRead)
  | ctxPin (c : Cmd) (p : PortId) (k : CtxKey)
  | ctxUnpin (c : Cmd) (p : PortId) (k : CtxKey)
  | ctxEvict (c : Cmd) (p : PortId) (k : CtxKey)
  | ctxList (c : Cmd) (t : Target)
  -- DIAG commands (R319)
  | diagPassive (c : Cmd) (p : PortId) (profile : BitVec 8)
  | diagChamois (c : Cmd) (p : PortId) (skipSweep profile : BitVec 8)
  -- OBS commands (R320)
  | obsSelect (c : Cmd) (h : HerdId) (source decim : BitVec 8)
  | obsLoadBank (c : Cmd) (h : HerdId) (bank : BitVec 8) (taps : BitVec 16) (data : List Byte)
  | obsSwap (c : Cmd) (h : HerdId) (fadeLen : BitVec 16)
  | obsStart (c : Cmd) (h : HerdId) (mode : BitVec 8) (count : BitVec 32) (startTime : BitVec 64)
  | obsStop (c : Cmd) (h : HerdId)
  -- CAL, BIST and STAT commands (R322, R323)
  | calRun (c : Cmd) (t : Target) (tasks : BitVec 8)
  | bistRun (c : Cmd) (h : HerdId)
  | statRead (c : Cmd) (t : Target)
  | statSnapshot (c : Cmd) (count : BitVec 8) (ranges : List (BitVec 16 × BitVec 16))
  -- LPI and LANE commands (R326)
  | lpiConfig (c : Cmd) (p : PortId) (enable autoIdle events : BitVec 8) (timer : BitVec 32)
  | lanePrbs (c : Cmd) (p : PortId) (apply gen chk inject burstLen periodK live : BitVec 8)
  | laneTrain (c : Cmd) (p : PortId)
  | laneLoopbackOff (c : Cmd) (p : PortId)
  | laneLoopbackNear (c : Cmd) (p : PortId)
  | laneLoopbackFar (c : Cmd) (p : PortId)
  -- PWR and FLT commands (R327, R328)
  | pwrStateSleep (c : Cmd)
  | pwrStateDeepSleep (c : Cmd)
  | pwrStateOff (c : Cmd)
  | pwrLevel (c : Cmd) (die floor : BitVec 8)
  | fltArm (c : Cmd) (source : BitVec 16) (base pin : BitVec 8) (n : BitVec 16) (w : BitVec 32)
  | fltAck (c : Cmd) (record : BitVec 32) (all : BitVec 8)
  | fltReadLog (c : Cmd) (log : BitVec 8) (first count : BitVec 32) (bad : List Nat) (ecc : List (BitVec 32))
  -- FW, SEC and TIME commands (R329, R330)
  | fwStage (c : Cmd) (img : ImageObj)
  | fwActivateSchedule (c : Cmd) (actTime : BitVec 64) (badKinds : List (Fin 3))
  | fwActivateConfirm (c : Cmd)
  | fwActivateCancel (c : Cmd)
  | fwFallback (c : Cmd) (actTime : BitVec 64)
  | fwStatus (c : Cmd)
  | secAttest (c : Cmd) (nonce : BitVec 256)
  | secDebugUnlock (c : Cmd) (tok : Token)
  | timeSet (c : Cmd) (value : BitVec 64) (atSync : BitVec 8)
  | timeAdjustJump (c : Cmd) (step : BitVec 32)
  | timeAdjustSlew (c : Cmd) (step : BitVec 32)
  -- rings, vectors, function (11)
  | doorbellWrite (addr : BitVec 18) (bytes : List Byte) (work : List Handed)
  | ringDispatch (r : RingId)
  | ringEnable (r : RingId)
  | ringDisable (r : RingId)
  | ringDrainDone (r : RingId)
  | ringDmaFault (r : RingId)
  | dataBufferDmaFault (r : RingId)
  | vectorHoldoffExpiry (v : Fin 2048)
  | functionLevelReset
  | pcieHotReset
  -- register accesses (00, 13, 14)
  | registerWrite (off : BitVec 26) (val : BitVec 32)
  | reg64LowRead (off : BitVec 26)
  | reg64LowWrite (off : BitVec 26) (val : BitVec 32)
  | reg64HighWrite (off : BitVec 26) (val : BitVec 32)
  | bar0BadAccess (off : BitVec 26) (write : Bool)
  | blockAccessRefused (off : BitVec 26) (write : Bool)
  | gateAccessTimeout (off : BitVec 26) (write : Bool)
  | mirrorEnable (val : BitVec 32)
  | mirrorMeasuredUpdate (o : MirrorObj)
  | mirrorWriteError (addr : BitVec 64)
  | fmcStart (val : BitVec 32)
  | fmcWindowEnd (count : BitVec 24)
  | padRelease
  | fltInjectEvent (source : BitVec 16)
  | fltInjectPair (source : BitVec 16)
  -- event delivery and die-to-die links (01, 15)
  | eventDelivery (h : Option HerdId)
  | eventCoalesceExpiry (source : Fin 8448) (kind : Fin 4)
  | d2dTrainingLost (d : DieId)
  | d2dRetrainAttempt (d : DieId) (ok : Bool)
  | herdTimeCorrection (h : HerdId)
  -- negotiation, Springbok, Tahr (04)
  | negBreakLinkExpiry (p : PortId)
  | negAttemptExpiry (p : PortId)
  | basePageReceived (p : PortId) (page : BasePage)
  | nextPageReceived (p : PortId) (page : NextPage) (reads : List (CtxKey × CtxRead))
  | dmeReceived (p : PortId)
  | springbokStartInstant (p : PortId) (read : CtxRead)
  | springbokCheckPass (p : PortId)
  | springbokCheckExpiry (p : PortId)
  | infofieldReceived (p : PortId) (bits : BitVec 128)
  | infofieldRetryExpiry (p : PortId)
  | t0CalibrationDone (p : PortId)
  | t0Burst (p : PortId)
  | t0SlaveReply (p : PortId)
  | t0DetectTimeout (p : PortId)
  | trainWordAccepted (p : PortId) (copy1 copy2 : BitVec 32)
  | t1WindowStart (p : PortId)
  | t2CriteriaMet (p : PortId)
  | t2ConvergenceTimeout (p : PortId)
  | t3CapsTimeout (p : PortId)
  | superframeLockChange (p : PortId) (pair : PairId) (gained : Bool) (failed : Nat)
  | markerLockChange (p : PortId) (errs skews : List Nat)
  | timingLockChange (p : PortId) (rms peak : Nat)
  | signalDetectChange (p : PortId) (pair : PairId)
  | signalLossExpiry (p : PortId)
  | timingLossExpiry (p : PortId)
  | frameLossExpiry (p : PortId)
  -- line slots and the gearbox (02, 06)
  | lineSlotReceived (p : PortId) (slot : RxSlot)
  | lineSlotTransmit (p : PortId)
  | hostCodewordReceived (p : PortId) (cw : HostCw)
  | hostinCwLockChange (p : PortId) (gained : Bool)
  -- adaptation, bundle surveys, wander guard (03)
  | bundleSurveyDone (p : PortId) (pair : PairId) (couplings : List (Fin 2048 × Int))
  | bundleResurveyExpiry (p : PortId)
  | adaptAcqTimeout (p : PortId)
  | adaptFineEntry (p : PortId) (pair : PairId)
  | wanderSnapshot (p : PortId)
  | wanderCheck (p : PortId)
  -- herd timing (02)
  | handoverTrigger (h : HerdId)
  | handoverDone (h : HerdId)
  | holdoverTimeout (h : HerdId)
  -- host lanes (07)
  | blindTimeout (p : PortId)
  | laneLockAcquired (p : PortId) (rms levels : Nat) (snr : Int)
  | laneLockHoldExpiry (p : PortId)
  | laneLockLost (p : PortId) (rms : Nat) (snr : Int) (errs : Nat)
  | detectProbe (p : PortId) (found : Bool)
  | trainingFrameReceived (p : PortId) (f : TrainFrame)
  | trainLockMet (p : PortId) (rms levels : Nat) (snr : Int) (errs : Nat)
  | laneReadyDone (p : PortId)
  | fallbackLimitExpiry (p : PortId)
  -- low-power idle (08)
  | autoIdleTimerExpiry (p : PortId)
  | lpiRefreshInstant (p : PortId)
  | lpiRefreshEnd (p : PortId) (locks4us : Bool)
  | lpiRefreshExtendExpiry (p : PortId)
  | lpiPartnerSignalExpiry (p : PortId)
  | lpiFirstCodewordInstant (p : PortId)
  -- monitoring and diagnostics (09)
  | marginCompare (p : PortId)
  | histogramPeriodEnd (p : PortId)
  | counterPersist
  | eyeMeasure (p : PortId) (upper middle lower width : BitVec 16)
  | diagPassiveDone (p : PortId)
  | chamoisStepEnd (p : PortId) (f : DiagFinding)
  | chamoisSweepGrant (h : HerdId)
  | chamoisResultDelivery (p : PortId)
  -- observation path (10)
  | obsScheduledStart (h : HerdId)
  -- `adc`: what the four ADCs of the source's port have sampled since, where no line slot has brought it (R246, R247)
  | obsSettlingDone (h : HerdId) (adc : List (List (BitVec 8)))
  | obsFadeDone (h : HerdId) (adc : List (List (BitVec 8)))
  | obsBufferComplete (h : HerdId) (adc : List (List (BitVec 8)))
  | obsCountDone (h : HerdId) (adc : List (List (BitVec 8)))
  -- contexts and DDR5 (05, 15)
  | ctxSaveCheck (p : PortId)
  | ctxPeriodicSave (p : PortId)
  | ctxSaveVisible (p : PortId)
  | ddrTrainingDone (c : ChanId) (gib : BitVec 6)
  | ddrChannelFailure (c : ChanId) (cause : BitVec 8)
  | ddrEccCorrected (c : ChanId) (count : BitVec 32)
  -- faults and reactions (15)
  | faultRaised (faults : List (BitVec 16 × BitVec 32))
  | dualRailFault (source : BitVec 16)
  | reactionComplete
  | shadowWindowExpiry
  | fixedReaction (cause : FixedCause)
  | fixedCauseEnded
  | supplyWindowExit (r : RailId) (mv : BitVec 16)
  | supplyWindowReentry (r : RailId) (mv : BitVec 16)
  | portTemperatureRead (p : PortId) (t : BitVec 16)
  | dieTemperatureRead (d : Fin 9) (t : BitVec 16)
  -- clocks (16)
  | pllLockWindow (u : PllId) (inWindow : Bool)
  | pllNoEdge (u : PllId)
  | pllReacquire (u : PllId)
  | domainSwitch (d : Domain) (toPll : Bool)
  | switchEdgeTimeout (d : Domain)
  | refclkMissing
  | refclkReturn
  -- power (17)
  | sequencerStepEnd (d : DieId)
  | idleTimerExpiry
  | hostActivity (a : HostAccess)
  | sleepTimerExpiry
  | deepTimerExpiry
  | powerEntryDone
  | wakeNAssert
  | sidebandAddressMatch (addr : BitVec 7)
  | wakeRestoreDone (failMask : BitVec 4) (reads : List (PortId × CtxKey × CtxRead))
  -- calibration and self-test (18)
  | calMarkerCountExpiry (p : PortId)
  | dieFullRunEnd (d : DieId)
  | calUnitDone (p : PortId)
  | bistStepDone (h : HerdId) (o : BistOutcome) (reads : List (PortId × CtxKey × CtxRead))
  | bistRecordDelivery (h : HerdId)
  -- firmware and the Wesal chain (19)
  | fwProgramDone (ok : Bool)
  | fwStageBufferTimeout
  | chainReceiverLock (downstream valid : Bool) (run : Nat)
  | chainHeader (k : ChainCheck) (hdr : ImageHeader)
  | chainHeaderChecked
  | chainBody (k : ChainCheck) (offset : BitVec 32) (bytes : Nat)
  | chainEnd (k : ChainCheck) (sent : BitVec 32) (digestOk : Bool)
  | chainActivate (k : ChainCheck) (actTime : BitVec 64) (badKinds : List (Fin 3))
  | chainConfirm (k : ChainCheck)
  | enterIbex (tag : BitVec 32)
  | chainSessionTimeout
  | ibexI3cFrame (f : IbexFrame)
  | sidebandStatusRead
  | syncInEdge (rising : Bool)
  | fwActivationStart
  | fwHubPhaseDone (tagOk : Bool)
  | fwHerdSlot (h : HerdId)
  | fwHerdRestartDone (h : HerdId)
  | fwConfirmExpiry
  -- time, snapshots, LEDs, entropy (12, 13, 14, 20)
  | timeSlewDone
  | timeSetSyncTimeout
  | statSnapshotCapture
  | ledFrame
  | entropyRetry (healthy : Bool)
  -- reset and boot (21)
  | porstAssert
  | porstRelease (bootSrc : BitVec 2) (chainEnd testEn : Bool)
  | sysrstAssert
  | bootStepDone (o : BootOutcome)
  | bootFailTimeout
  | sysrstRelease
  -- the remaining rows
  | avsStatusAlert (r : RailId) (regFault : Bool)
  | otpWriteComplete
  | hubPhaseManagementDown
  | activationRestartTimeout
  | faultCauseEnded (source : BitVec 16)
  | busMasterEnableChange (on : Bool)
  | msixMaskChange (m : MsixChange)
  | checkerLock (p : PortId) (bits : List Bool)
  | periodicInjection (p : PortId)
  | jtagInstruction (op : JtagOp)
  deriving DecidableEq, Repr

end Sys2Proof
end

