-- ==== Sys2Proof/Machine/State.lean ====
section
/-!
DEFINITION. The state of the ZPL5124 as plain data, its stops, and the state after reset. Each field names the rule
that gives it. A `Tab` lists only what differs from the default its docstring names.
-/

namespace Sys2Proof.Machine

/-- The model's stops by fault. No command of the table faults in the present model: every row has an effect in the
spec. -/
inductive Fault where
  /-- Raised by nobody at present; it stands for an access to an object the spec says does not exist. SAFE: a stop. -/
  | noSuchObject
  deriving DecidableEq, Repr

/-- The model's stops by refusal. -/
inductive Refusal where
  /-- A command whose meaning is not written yet, rejected by name in Dispatch.lean. SAFE: a stop. -/
  | notModelled (mnemonic : String)
  deriving DecidableEq, Repr

/-- Four like things, one per pair A to D (R4). -/
structure Quad (α : Type) where
  a : α
  b : α
  c : α
  d : α
  deriving DecidableEq, Repr

/-- Three like things, one per image kind: hub, herd, DDR5 training (R463). -/
structure Tri (α : Type) where
  hub  : α
  herd : α
  ddr  : α
  deriving DecidableEq, Repr

/-- PORT_STATE (R97, Table 1), in the order of its codes 0 to 10. -/
inductive PortSt where
  | disabled
  | negotiate
  | hold
  | springbok
  | t0
  | t1
  | t2
  | t3
  | up
  | test
  | safe
  deriving DecidableEq, Repr

/-- Timing role (R52, R108). -/
inductive Role where
  | master
  | slave
  deriving DecidableEq, Repr

/-- Host-lane state (R179, Table 2), in the order of its codes 0 to 7. -/
inductive LaneSt where
  | idle
  | blind
  | detect
  | train
  | lock
  | ready
  | active
  | hold
  deriving DecidableEq, Repr

/-- LPI state (R202, Table 2), in the order of its codes 0 to 5. -/
inductive LpiSt where
  | active
  | request
  | quiet
  | refresh
  | wake
  | blocked
  deriving DecidableEq, Repr

/-- LOOP_STATE (Table 6 of Staging, Commit and the Status Mirror), codes 0 to 5. -/
inductive LoopSt where
  | none
  | near
  | far
  | digital
  | remote
  | looping
  deriving DecidableEq, Repr

/-- DIAG_STATE (same table), codes 0 to 3. -/
inductive DiagSt where
  | none
  | passive
  | chamois
  | waiting
  deriving DecidableEq, Repr

/-- Herd timing state (R55, Table 9), codes 0 to 4. -/
inductive TimingSt where
  | perPort
  | trunkMaster
  | trunkSlave
  | handover
  | holdover
  deriving DecidableEq, Repr

/-- HERD_STATE (Table 7 of Staging, Commit and the Status Mirror), codes 0 to 3; a herd whose self-test failed is in
herd safe state until a reset (R460). -/
inductive HerdSt where
  | normal
  | selfTest
  | safe
  | fwRestart
  | failed
  deriving DecidableEq, Repr

/-- Observation path state (R255, Table 2), codes 0 to 4. -/
inductive ObsSt where
  | stopped
  | settling
  | running
  | fading
  | chamois
  deriving DecidableEq, Repr

/-- Ring state (R276, Table 12a), codes 0 to 3. -/
inductive RingSt where
  | disabled
  | active
  | draining
  | error
  deriving DecidableEq, Repr

/-- An armed or fixed reaction's scope (R388, SCOPE). -/
inductive Scope where
  | port (p : PortId)
  | herd (h : HerdId)
  | die (d : DieId)
  | device
  | none
  deriving DecidableEq, Repr

/-- Device state (R420, Table 3) with the entries, restores and boot steps that lie between. -/
inductive DevSt where
  | run
  | idle
  | sleep
  | deepSleep
  | off
  /-- Entry to Sleep (2), Deep Sleep (3) or Off (4), from PWR codes (R424, R426, R427). -/
  | entering (target : Fin 5)
  /-- Restore from Sleep (2), Deep Sleep (3) or Off (4) (R432, R435). -/
  | restoring (source : Fin 5)
  /-- PORST_N low. -/
  | inPorst
  /-- SYSRST_N low. -/
  | inSysrst
  /-- Boot step of Table 3 of Power-Up, Reset and Boot in progress; `sys` after SYSRST_N. -/
  | boot (step : Nat) (sys : Bool)
  /-- Failed power-on self-test (R523). -/
  | postHold
  /-- ROM recovery (R491). -/
  | ibex
  deriving DecidableEq, Repr

/-- A completion record (R292), without its PHASE. -/
structure Completion where
  opcode : BitVec 16
  status : BitVec 8
  kind   : BitVec 3
  ring   : RingId
  index  : BitVec 16
  tag    : BitVec 64
  result : BitVec 64
  time   : BitVec 64
  deriving DecidableEq, Repr

/-- An event record (R296), without its PHASE; `overrun` is set when it is written (R299). -/
structure Event where
  source  : Nat
  conseq  : Bool
  gen     : BitVec 32
  time    : BitVec 64
  payload : List Fld
  /-- The buffer that the record names, by its ring and index: its completion is written first (R300). -/
  names   : Option (RingId × BitVec 16)
  deriving DecidableEq, Repr

/-- What the device puts on its outputs, in the order it does so (R300, R343). Log 2. -/
inductive Bus where
  /-- A completion record at an index of a completion ring, with its PHASE and its address (R270). -/
  | completion (cq : RingId) (index : BitVec 16) (phase : Bool) (addr : BitVec 64) (r : Completion)
  /-- An event record at an index of an event ring, with its PHASE, its OVERRUN and its address. -/
  | event (ring : RingId) (index : BitVec 16) (phase overrun : Bool) (addr : BitVec 64) (e : Event)
  /-- A read of a descriptor from ring memory: its address and size (R270). -/
  | fetch (addr : BitVec 64) (size : Nat)
  /-- The three ordered writes of a mirror block (R343): SEQ odd, the rest, SEQ even. -/
  | mirrorOdd (addr : BitVec 64) (seq : BitVec 32)
  | mirrorBody (addr : BitVec 64) (fields : List Fld)
  | mirrorEven (addr : BitVec 64) (seq : BitVec 32)
  /-- A result written to a data-in buffer. -/
  | data (addr : BitVec 64) (fields : List Fld)
  /-- An MSI-X message: its vector, and the address and data of the vector's table entry (R302). -/
  | msix (vector : Nat) (addr : BitVec 64) (data : BitVec 32)
  /-- The answer to a BAR0 or sideband read. -/
  | readData (value : BitVec 32)
  | sideband (bytes : List Byte)
  /-- An access answered as Unsupported Request (R268). -/
  | unsupported (write : Bool)
  /-- A configuration request completed with Request Retry Status (R518). -/
  | retry
  /-- A pulse or signal a port puts on its line pairs: kind of signal and its word. -/
  | line (p : PortId) (what : String) (word : BitVec 128)
  /-- One slot's time of a port's line: the DAC samples of pairs A to D, two per symbol (R39, R40, R116). -/
  | slot (p : PortId) (samples : Quad (List Int))
  /-- A stretch of the pattern generator's output on host-out, as levels (R194, R195). -/
  | pattern (p : PortId) (levels : List Int)
  /-- A page on pair A (R98 to R103): its 48 bits, D0 in bit 0, and the DAC codes of its half cells. -/
  | page (p : PortId) (bits : BitVec 48) (codes : List Int)
  /-- A write to the context store: channel, offset, size, fields (R141, R142). -/
  | store (c : ChanId) (addr size : Nat) (fields : List Fld)
  /-- A codeword's worth of stream on a host lane (R157, R166, R168). -/
  | hostOut (p : PortId) (what : String) (symbols : List (BitVec 10))
  /-- A training-frame answer or request on a host lane (R183). -/
  | lane (p : PortId) (what : String) (word : BitVec 32)
  /-- A frame forwarded on CHN_OUT (R477). -/
  | chain (what : String) (word : BitVec 256)
  /-- An image programmed at an offset of the xSPI flash, by its header digest (R464, R473). -/
  | flash (addr : Nat) (digest : BitVec 256)
  /-- A Voltage write on AVSBus in mV (R416). -/
  | avs (rail : Nat) (mv : Nat)
  /-- An LED frame (R368). -/
  | led (bits : List Bool)
  /-- TDO behaviour of a JTAG operation (R505). -/
  | jtag (what : String)
  deriving DecidableEq, Repr

/-- Device time and what changes it (R8, R330, R331, R361). -/
structure TimeSt where
  now       : BitVec 64
  slewLeft  : Int
  slewPhase : Nat
  /-- Picoseconds of the counter's clock that make no whole step yet, and of counted steps that make no whole ns
  (R412). -/
  acc       : Nat
  frac      : Nat
  syncCount : BitVec 32
  syncLast  : BitVec 64
  /-- The value of `mono` at the last accepted SYNC_IN edge (R482). -/
  syncMono  : Option Nat
  deriving DecidableEq, Repr

/-- HUB_ACCESS_STATUS and HUB_ACCESS_ADDR (R357). -/
structure Access where
  err      : Bool
  cause    : BitVec 3
  overflow : Bool
  addr     : BitVec 26
  write    : Bool
  deriving DecidableEq, Repr

/-- One PLL's judgement (R409). `retuning` marks an unlocked state that the device ordered, by a retune, a power-down
or a start: its relock posts nothing (R408, R410). -/
structure Pll where
  locked   : Bool
  good     : Nat
  retuning : Bool
  deriving DecidableEq, Repr

/-- A switch of a sequenced domain (R404, R407): where the domain is, a running switch, a waiting request. -/
structure Switch where
  onPll   : Bool
  running : Option Bool
  waiting : Option Bool
  deriving DecidableEq, Repr

/-- Clock state (14 Table 5, R400 to R413). -/
structure Clk where
  refclkOk   : Bool
  lastDomain : BitVec 8
  lastLost   : BitVec 8
  lastIndet  : Bool
  fmcCount   : BitVec 24
  fmcDone    : Bool
  fmcRunning : Bool
  /-- By 64 × SEL + UNIT; unlisted: locked. -/
  plls       : Tab Pll
  /-- By DOMAIN code; unlisted: on its PLL, no switch. -/
  switches   : Tab Switch
  deriving DecidableEq, Repr

/-- A supply rail (R414 to R416): out of its window, and below it; its AVSBus target in mV; the target that its last
move left, and `mono` 40 µs after that move's last write (R415). -/
structure Rail where
  out    : Bool
  low    : Bool
  mv     : Nat
  old    : Nat
  settle : Nat
  deriving DecidableEq, Repr

/-- A line die (R401, R417 to R419, R448, R449). Levels are 0 for P0 to 3 for P3. -/
structure Die where
  level    : Nat
  target   : Nat
  /-- The level that the running sequencer step reaches, and the level before the whole change (R417, R418). -/
  step     : Option Nat
  start    : Nat
  floor    : Option Nat
  d2dUp    : Bool
  temp     : BitVec 16
  calTemp  : BitVec 16
  calRun   : Option (BitVec 8)
  calCount : BitVec 32
  calTime  : BitVec 64
  deriving DecidableEq, Repr

/-- A DDR5 channel (R143, R144, R376). -/
structure Ddr where
  trained     : Bool
  gib         : BitVec 6
  /-- Capacity of the memory that is fitted, as the channel's training finds it. -/
  size        : BitVec 6
  selfRefresh : Bool
  failed      : Bool
  eccCount    : BitVec 32
  deriving DecidableEq, Repr

/-- 64 symbols of transmit reference (R62) and their transform (R61): 6-bit mantissas of 65 bins, one 4-bit exponent
(R65, Table 3). -/
structure RefBlock where
  symbols : List (BitVec 6)
  exp     : BitVec 4
  bins    : List (BitVec 6 × BitVec 6)
  deriving DecidableEq, Repr

/-- A bundle slot of a pair (R66 to R72). `coupling` is none for an aggressor whose coupling the newest survey recorded
as absent (R66). `phase` is the resampler's, in 2^-16 of its 64 phases (R71), `blocks` the newest blocks that the
slot transforms itself on the resampled path, newest first. -/
structure Slot where
  aggressor : Nat
  coupling  : Option Int
  level     : Nat
  resampled : Bool
  phase     : Int
  blocks    : List RefBlock
  deriving DecidableEq, Repr

/-- A symbol's slicer error (8 bits, Table 3), decided level, and whether it is a pilot symbol (R40, R76). -/
structure SymErr where
  err   : BitVec 8
  level : Int
  pilot : Bool
  deriving DecidableEq, Repr

/-- What the equaliser makes of one symbol (R75, R76). -/
structure Dec where
  y   : Int
  sym : SymErr
  deriving DecidableEq, Repr

/-- What a pair's signal processing holds beside its coefficients (R59 to R81). -/
structure PairDsp where
  /-- Reference symbols of the block being gathered, after those of the block before it, oldest first (R61, R62). -/
  gather : List (BitVec 6)
  /-- Transformed blocks that have not yet reached the line (R64), oldest first. -/
  ahead  : List RefBlock
  /-- The last transformed blocks that have, newest first (R61): 16, and those whose errors are still to come. -/
  hist   : List RefBlock
  /-- Blocks estimated and not yet used to adapt. -/
  lag    : Nat
  /-- Estimates of the symbols to come, oldest first (R63). -/
  est    : List (BitVec 12)
  /-- The FFE's delay line at T/2, newest first (R75), and the level that the DFE feeds back (R79). -/
  line   : List (BitVec 6)
  last   : Int
  /-- Symbols whose block of 64 is not full, oldest first, and the symbol before the first of them (R94). -/
  errs   : List SymErr
  before : Option SymErr
  /-- The newest 64 decisions, oldest first, over which the pair is deskewed (R43). -/
  recent : List Dec
  /-- Blocks adapted, for the rotations of R80. -/
  rot    : Nat
  /-- Squared slicer errors summed over each block of 64 symbols, newest first, 2,048 of them (R76, R225). -/
  sq     : List Nat
  /-- The decided levels of the running 4,096-symbol window and its symbols (R84). -/
  seen   : BitVec 4
  seenN  : Nat
  /-- Slicer SNR of the newest 131,072-symbol windows over 100 ms, newest first (R82), and blocks of the running one. -/
  means  : List Int
  meanN  : Nat
  /-- Slicer SNR of the newest four intervals of 1 ms, newest first (R122); squared errors and blocks of the running
  one. -/
  ms     : List Int
  msSq   : Nat
  msN    : Nat
  deriving DecidableEq, Repr

/-- One pair's adaptation, measurements and trims (R59 to R85, R225, R229, 14 Table 12). -/
structure Pair where
  canLevel   : Nat
  eqLevel    : Nat
  freeze     : BitVec 5
  snr        : BitVec 16
  snrMin     : BitVec 16
  margin     : BitVec 16
  marginMin  : BitVec 16
  slots      : List (Option Slot)
  /-- Held coefficients and trims by byte offset in the pair section of a context (Table 2 of Channel Contexts);
  unlisted: 0. -/
  coef       : Tab (BitVec 32)
  /-- Steps of 0.5 dB from 0 to 36, and a signed count of 0.1 dB within ±20 (R74). -/
  analogGain : BitVec 8
  digitalGain : BitVec 8
  /-- The receive interpolator's phase in 2^-22 UI: its top 6 bits are the 1/64 UI it resolves (R94); the deskew in
  symbols (R43). -/
  phase      : BitVec 22
  deskew     : BitVec 7
  /-- The far-end component (R127): squares of its samples summed over the symbols of the block that runs, and over
  the newest four blocks of 64 symbols, newest first. -/
  farSum     : Nat
  farN       : Nat
  far        : List Nat
  dsp        : PairDsp
  nearMiss   : BitVec 64
  bitErrors  : BitVec 64
  calCount   : BitVec 32
  calTime    : BitVec 64
  deriving DecidableEq, Repr

/-- What a port loads from a context or a snapshot: gains, coefficients and slots of four pairs, each pair's margin. -/
structure Coefs where
  pairs : Quad (Tab (BitVec 32))
  gains : Quad (BitVec 8)
  again : Quad (BitVec 8)
  slots : Quad (List (Option Slot))
  marg  : Quad (BitVec 16)
  deriving DecidableEq, Repr

/-- A channel context (R136 to R142, Table 1 and Table 3a of Channel Contexts): its header, its port section, its pair
sections (`coefs`), and where the directory keeps it. -/
structure Ctx where
  magic     : BitVec 32
  format    : BitVec 16
  port      : BitVec 16
  entry     : Nat
  slot      : Nat
  partner   : BitVec 48
  sig       : BitVec 32
  gen       : BitVec 32
  mode      : LineMode
  fec       : BitVec 8
  role      : Role
  cause     : BitVec 8
  saveCount : BitVec 32
  saveTime  : BitVec 64
  lastUse   : BitVec 64
  pinned    : Bool
  dieTemp   : BitVec 16
  herdIf    : BitVec 16
  freqWord  : BitVec 32
  phases    : Quad (BitVec 22)
  deskews   : Quad (BitVec 7)
  coefs     : Coefs
  deriving DecidableEq, Repr

/-- The directory and slots of one port in the context store (R141). -/
structure CtxDir where
  entries  : List Ctx
  freeSlot : Nat
  deriving DecidableEq, Repr

/-- A negotiation attempt (R98 to R111): the port's draws and what the partner has sent. -/
structure Neg where
  open_     : Bool
  basePages : Bool
  nonce     : BitVec 5
  seed      : BitVec 32
  gotBase   : Bool
  gotOffer  : Bool
  version   : BitVec 8
  tag       : BitVec 39
  port      : BitVec 9
  modes     : BitVec 5
  modeFixed : Bool
  fecs      : BitVec 2
  rolePref  : BitVec 2
  roleFixed : Bool
  pSeed     : BitVec 32
  ctxValid  : Bool
  pSig      : BitVec 32
  pGen      : BitVec 32
  /-- The partner's transmitted nonce, which this end's base pages echo (R99, R100). -/
  pNonce    : BitVec 5
  /-- This end's own offer, loaded as R105 says: modes and whether they are the resolved one, role, context. -/
  myModes   : BitVec 5
  myModeFixed : Bool
  myFecs    : BitVec 2
  myRole    : BitVec 2
  myFixed   : Bool
  offer     : Option Ctx
  /-- The next page of R103 that this end is sending. -/
  page      : Nat
  deriving DecidableEq, Repr

/-- Start-up of a port after negotiation (R112 to R124). -/
structure Start where
  calibrated : Bool
  locked     : Bool
  /-- The T1 window that runs, the window that carried LAST (0: none yet), TRACKING of the partner's last word. -/
  window     : Nat
  lastAt     : Nat
  tracking   : Bool
  /-- TRACKING of the partner and own convergence at the end of each window, newest first (R121). -/
  history    : List (Bool × Bool)
  /-- The residual of each pair's cancellers at the end of the last own window, as sum of squares and symbols, and the
  slicer SNR at the end of the last partner window (R82, Table 6). -/
  ownRes     : Quad (Option (Nat × Nat))
  eqRes      : Quad (Option Int)
  checkPass  : Bool
  capsSent   : Bool
  capsGot    : Bool
  /-- The matched context of a Springbok start (R110). -/
  ctx        : Option Ctx
  deriving DecidableEq, Repr

/-- Alignment and signal of a port's receiver (R42, R96, R127). -/
structure Locks where
  frame  : Quad Bool
  marker : Bool
  /-- Consecutive alignment-marker periods with the marker missing (R42). -/
  missed : Nat
  timing : Bool
  signal : Quad Bool
  deriving DecidableEq, Repr

/-- An InfoField message (R47, Table 7), with the command that caused it (R50). -/
structure Msg where
  type    : BitVec 8
  payload : BitVec 64
  cmd     : Option Cmd
  deriving DecidableEq, Repr

/-- InfoField sender and receiver (R47 to R50). -/
structure Info where
  seq     : BitVec 8
  ackSeq  : BitVec 8
  current : Option Msg
  queue   : List Msg
  /-- The partner's newest HERD_TIMING: lead port position and whether its trunk is formed. -/
  timing  : Option (BitVec 3 × Bool)
  /-- Bits [127:32] of the master's and the slave's CAPS of this link (R124). -/
  myCaps  : BitVec 96
  hisCaps : BitVec 96
  deriving DecidableEq, Repr

/-- The partner's CAPS (Table 7 of The Usrubry Line Format). -/
structure Caps where
  version : BitVec 8
  lpi     : Bool
  loop    : Bool
  wakeNs  : BitVec 16
  gen     : BitVec 32
  deriving DecidableEq, Repr

/-- Line transmitter and receiver registers (R37, R41, R205, R216). -/
structure LineIo where
  on        : Bool
  scr       : Quad (BitVec 58)
  prbs      : Quad (BitVec 11)
  /-- Symbols sent since the alignment-marker period began, modulo the period. -/
  slotNo    : Nat
  descr     : Quad (BitVec 58)
  /-- Slots received since the partner's alignment-marker period began, modulo the period (R42, R206). -/
  rxSlot    : Nat
  /-- Symbols received on a pair since the last background step of the ADC interleave (R443). -/
  adcSyms   : Nat
  sleepTx   : Nat
  sleepRx   : Nat
  alertLeft : Nat
  infoLeft  : Nat
  /-- The InfoField that the pilot channel sends from superframe 128q on (R49). -/
  pilot     : BitVec 128
  /-- The training signal under way (R116): its TRAIN_WORD and the symbols still to send. -/
  train     : Option (BitVec 32 × Nat)
  /-- The wake that runs ends with the port's own ALERT run, or with the partner's (R214). -/
  wakeGo    : Bool
  wakeRx    : Bool
  lastCwLpi : Bool
  rxSleeping : Bool
  deriving DecidableEq, Repr

/-- Buffers of the data path (R161, R163, R167, R170 to R173). -/
structure DataPath where
  /-- Codewords of the elastic stage (R161), or block groups of the host-to-line rate adapter (R163), oldest first. -/
  elastic   : List HostCw
  /-- Block groups of a segmented port's wake buffer behind the adapter, oldest first (R173). -/
  wake      : List HostCw
  /-- Line codewords that the looping end has to return, oldest first (R200). -/
  looped    : List HostCw
  /-- The line-to-host rate adapter of a segmented port, oldest first (R163), and the time by which the line has run
  ahead of host-out in 2^-22 UI. -/
  toHost    : List HostCw
  outPhase  : Int
  /-- Codewords delivered on host-out, and the symbols of the last (R158, R166). -/
  outNo     : Nat
  lastOut   : List (BitVec 10)
  cwLock    : Bool
  hostPpm   : BitVec 16
  lpiRun    : Nat
  idleTimer : Bool
  /-- Uncorrectable marks of the newest 4,096 line codewords, newest first (R132). -/
  uncorr    : List Bool
  deriving DecidableEq, Repr

/-- Line LPI of a port (R202 to R221). -/
structure Lpi where
  st        : LpiSt
  trigger   : BitVec 8
  /-- Slicer SNR of each pair before the first QUIET of this LPI period (R209). -/
  preSnr    : List Int
  extended  : Bool
  /-- A refresh instant has passed and the partner's signal has not come; the refresh check has passed while the master
  still sends (R208 to R210). -/
  due       : Bool
  passed    : Bool
  /-- `mono` at the last LPI_ENTER occurrence and at the last entry to QUIET. -/
  lastEnter : Nat
  quietFrom : Nat
  /-- `mono` at the last entry to WAKE. -/
  wakeFrom  : Nat
  deriving DecidableEq, Repr

/-- The LPI.CONFIG values (R220). -/
structure LpiCfg where
  enable   : Bool
  autoIdle : Bool
  events   : Bool
  timer    : BitVec 32
  deriving DecidableEq, Repr

/-- The device's requests of its partner's transmitter (R185): the tap it is on in the order pre1, post1, pre2, main, or
none while it waits for the preset; the direction; SNR of the last judgement and at the start of the round, in 0.1 dB;
whether the request is acknowledged; whether it has stopped. -/
structure Seek where
  tap   : Option (Fin 4)
  up    : Bool
  last  : Int
  round : Int
  /-- The request under way takes back a step that lost SNR. -/
  back  : Bool
  acked : Bool
  done  : Bool
  deriving DecidableEq, Repr

/-- The pattern checker (R195): bits still to seed, generator register, error-free bits since, the newest 1,024
comparisons, whether the running PAM-4 symbol's first bit is an error. -/
structure Checker where
  need : Nat
  reg  : BitVec 31
  run  : Nat
  win  : List Bool
  sym  : Bool
  deriving DecidableEq, Repr

/-- A host lane (R177 to R197, 14 Table 12). -/
structure Lane where
  st       : LaneSt
  retries  : BitVec 8
  mode     : LineMode
  locked   : Bool
  /-- pre2, pre1, main, post1 in signed steps of 0.025 (R184). -/
  taps     : Quad (BitVec 8)
  ctle     : BitVec 6
  /-- What else the receiver has adapted (R182, R189, R191): 24 FFE taps, the DFE tap, the recovered frequency. Log
  60. -/
  ffe      : List (BitVec 8)
  dfe      : BitVec 8
  cdr      : BitVec 16
  /-- LANE_FALLBACK_AUTO, LANE_RETRY_LIMIT and LANE_LOCK_SNR as the state they govern took them (R193). -/
  auto     : Bool
  limit    : Nat
  lockSnr  : Nat
  seek     : Option Seek
  preRx    : Bool
  preTx    : Bool
  partReady : Bool
  /-- The partner's request for precoding of this transmitter in the present training (R186). -/
  preReq   : Option Bool
  /-- The running blind start followed a lock loss (R188). -/
  fromLoss : Bool
  gen      : BitVec 8
  /-- The generator's register, or its place in SSPRQ (R194); bits still to invert (R196). -/
  genReg   : BitVec 31
  flips    : Nat
  chk      : BitVec 8
  chkr     : Checker
  chkLock  : Bool
  periodic : Option (BitVec 8)
  live     : Bool
  polTx    : Bool
  polRx    : Bool
  eye      : Quad (BitVec 16)
  /-- Host-out's offset from the host-lane PLL in 0.1 ppm when it last changed what it follows, and `mono` then
  (R190). -/
  slewFrom : Int
  slewAt   : Nat
  deriving DecidableEq, Repr

/-- The wander guard (R87 to R92). -/
structure Wander where
  snap      : Option Coefs
  /-- `mono` at the newest snapshot (R88). -/
  snapAt    : Nat
  reverts   : Nat
  /-- `mono` at the newest reverts, newest first, and the end of WANDER_HOLDOFF. -/
  recent    : List Nat
  suspended : Bool
  heldUntil : Nat
  deriving DecidableEq, Repr

/-- MARGIN_LOW tracking (R227). -/
structure MarginLow where
  below     : Nat
  above     : Nat
  armed     : Bool
  crossings : Nat
  wasBelow  : Bool
  deriving DecidableEq, Repr

/-- A data-in buffer a command has taken: its ring, its index in that ring, its descriptor. -/
structure Taken where
  ring  : RingId
  index : BitVec 16
  desc  : DataDesc
  deriving DecidableEq, Repr

/-- A running or kept diagnostic (R234 to R245). -/
structure Diag where
  st        : DiagSt
  /-- Chamois step of Table 8, 1 to 6. -/
  step      : Nat
  skip      : Bool
  profile   : Bool
  auto      : Bool
  frozen    : Bool
  buf       : Option Taken
  start     : BitVec 64
  startMono : Nat
  /-- `mono` at the start of the running step; latest end of the test in µs from its start (R239, R240). -/
  stepMono  : Nat
  limit     : Nat
  endState  : PortSt
  order     : Nat
  /-- CABLE_NS_PER_M, BOARD_DELAY_PS and REFL_THRESHOLD as the diagnostic began with them (R228). -/
  cable     : Nat
  board     : Nat
  thr       : Nat
  /-- The line mode at its start, the coefficients of a passive capture (R234), pairs whose TDR has ended in step 2. -/
  mode      : LineMode
  coefs     : Option Coefs
  tdr       : Nat
  kept      : Option (List Fld)
  keptEvent : List Fld
  found     : Option DiagFinding
  deriving DecidableEq, Repr

/-- A foreground calibration run on a port (R451 to R454). -/
structure CalRun where
  tasks     : BitVec 8
  done      : BitVec 8
  inLpi     : Bool
  unitsLeft : Nat
  /-- The quiet that runs, by `mono` at its start, and the units that have ended in it (R223). -/
  quiet     : Nat
  quietUnits : Nat
  start     : BitVec 64
  startMono : Nat
  endState  : PortSt
  deriving DecidableEq, Repr

/-- A context save that has captured and is not yet visible (R142, R145, R146). -/
structure Save where
  cause   : BitVec 8
  ctx     : Ctx
  cmd     : Option Cmd
  paired  : Bool
  deriving DecidableEq, Repr

/-- A port (R97 and the rules its fields name). -/
structure Port where
  st          : PortSt
  startPath   : BitVec 8
  attempts    : Nat
  lastAbort   : BitVec 8
  lastDown    : BitVec 8
  role        : Option Role
  partner     : BitVec 48
  sig         : BitVec 32
  linkGen     : BitVec 32
  cfgGen      : BitVec 32
  partnerSeen : Bool
  partnerPage : Bool
  trainNext   : Bool
  back        : PortSt
  upTime      : BitVec 64
  stTime      : BitVec 64
  /-- `mono` at the end of negotiation (LINK_UP payload) and at the last LINK_UP. -/
  negEnd      : Nat
  /-- The herd's count of completed negotiations at this port's (R53). -/
  negSeq      : Nat
  upMono      : Nat
  live        : Tab (BitVec 32)
  shadow      : Tab (BitVec 32)
  att         : Tab (BitVec 32)
  /-- Parameter IDs staged since the last commit (R334), and the hold of R434. -/
  staged      : List Nat
  mustCommit  : Bool
  lpiCfg      : LpiCfg
  mode        : LineMode
  fec         : BitVec 8
  neg         : Neg
  start       : Start
  lock        : Locks
  info        : Info
  caps        : Option Caps
  line        : LineIo
  dp          : DataPath
  lpi         : Lpi
  pairs       : Quad Pair
  freqWord    : BitVec 32
  wander      : Wander
  /-- Bundle surveys under way, by pair (R67): true for one at the port's own start. -/
  survey      : Quad (Option Bool)
  mlow        : MarginLow
  lane        : Lane
  loop        : LoopSt
  diag        : Diag
  calRot      : Nat
  /-- Alignment-marker periods accumulated since the last step of the rotation (R445). -/
  calMarks    : Nat
  cal         : Option CalRun
  save        : Option Save
  lastSave    : Option (BitVec 64)
  /-- The link's FIRST save has been taken; a PERIODIC and a PARTNER save that wait (R144, R145). -/
  firstSaved  : Bool
  saveHeld    : Bool
  partnerHeld : Bool
  /-- Counters of the statistics block by offset (Table 4 of Link Monitoring); unlisted: 0. -/
  stats       : Tab (BitVec 64)
  /-- Persistent counters by offset (R231); unlisted: 0. -/
  pers        : Tab (BitVec 64)
  /-- Bits compared and bit errors, uncorrectables of the running histogram period (R230). -/
  period      : Nat × Nat × Nat
  frozenCopy  : Option (List Fld)
  temp        : BitVec 16
  hot         : Bool
  active      : Bool
  deriving DecidableEq, Repr

/-- A coefficient bank of the observation filter (R250): coefficient i is entry i. -/
structure Bank where
  taps   : Nat
  coeffs : List (BitVec 18)
  deriving DecidableEq, Repr

/-- An OBS command that waits for a fade (R260, R321). -/
inductive ObsWait where
  | select (c : Cmd) (source decim : BitVec 8)
  | stop (c : Cmd)
  | start (c : Cmd) (mode : BitVec 8) (count : BitVec 32) (startTime : BitVec 64)
  deriving DecidableEq, Repr

/-- One half-band filter of the decimation chain (R248): its last 31 inputs, newest first, and whether its next input
is the second of a pair, on which it puts out a sample. -/
structure HalfBand where
  line   : List Int
  second : Bool
  deriving DecidableEq, Repr

/-- A delivered sample that waits in the capture buffer (R250, R262), with what a header takes from its buffer's first
sample (Table 4): its value and whether it saturated; the bank selected, the fade position and length, FIRST_TIME, the
source, decimation and mode; the samples suppressed and dropped and the step since the sample before it. -/
structure ObsOut where
  val     : Int
  clip    : Bool
  bank    : Bool
  fade    : Option (Nat × Nat)
  time    : BitVec 64
  source  : Nat
  decim   : Nat
  mode    : LineMode
  supp    : Nat
  drop    : Nat
  stepped : Bool
  deriving DecidableEq, Repr

/-- A stop whose last buffer waits for a buffer of the ring (R263): its cause, the settings it stopped with. -/
structure ObsEnd where
  cause  : Nat
  source : Nat
  decim  : Nat
  mode   : LineMode
  deriving DecidableEq, Repr

/-- A herd's observation path (R246 to R265). -/
structure Obs where
  st        : ObsSt
  source    : Nat
  decim     : Nat
  sel       : Bool
  bank0     : Bank
  bank1     : Bank
  /-- Outputs still to suppress in SETTLING; the length of the newest fade and how many of its outputs are gone. -/
  settle    : Nat
  fadeLen   : Nat
  fadeGone  : Nat
  /-- The decimation chain's filters, the first one first, and the FIR's delay line of 384 samples, newest first. -/
  chain     : List HalfBand
  line      : List Int
  /-- OBS_SUPPRESSED and OBS_DROPPED; samples dropped since OBS.START. -/
  suppressed : BitVec 64
  dropped   : BitVec 64
  droppedRun : Nat
  mode      : BitVec 8
  count     : Nat
  ring      : BitVec 16
  seq       : BitVec 32
  /-- Samples delivered since the last OBS.START. -/
  sent      : Nat
  /-- The 256 KiB capture buffer, oldest first, and the buffer taken for its head. -/
  held      : List ObsOut
  buf       : Option Taken
  /-- Since the last sample that entered the capture buffer. -/
  supp      : Nat
  drop      : Nat
  stepped   : Bool
  /-- Inside the previous buffer, after its first sample. -/
  suppBuf   : Nat
  dropBuf   : Nat
  stepBuf   : Bool
  /-- Scheduled starts: START_TIME, MODE, COUNT, ring. -/
  sched     : List (BitVec 64 × BitVec 8 × BitVec 32 × BitVec 16)
  final     : Option ObsEnd
  /-- The OBS.STOP commands that wait for the last buffer. -/
  stoppers  : List Cmd
  waits     : List ObsWait
  sweeps    : List PortId
  deriving DecidableEq, Repr

/-- An in-field self-test of a herd (R458 to R461). -/
structure BistRun where
  step      : Nat
  start     : BitVec 64
  startMono : Nat
  saved     : Bool
  logicFail : BitVec 16
  memFails  : List (BitVec 16 × BitVec 32 × BitVec 16 × BitVec 8)
  repairs   : Nat
  dieTemp   : BitVec 16
  deriving DecidableEq, Repr

/-- What a herd record in the context store holds (R155, R373). -/
structure HerdRec where
  resolved : Option LineMode
  policy   : Bool
  states   : List PortSt
  deriving DecidableEq, Repr

/-- A herd commit that waits for the sequencer (R26, R339): the MODE_SET, policy and port sets it makes live. -/
structure Commit where
  cmd     : Cmd
  modeSet : BitVec 5
  policy  : Bool
  sets    : List (Tab (BitVec 32))
  /-- The IDs staged for each of the eight ports. -/
  staged  : List (List Nat)
  deriving DecidableEq, Repr

/-- A herd (01, R54, R55, R106, R333). `policy` is true for PER_PORT. -/
structure Herd where
  modeSet   : BitVec 5
  policy    : Bool
  shModeSet : BitVec 5
  shPolicy  : Bool
  /-- Something has been staged for the herd since its last commit (R334). -/
  staged    : Bool
  resolved  : Option LineMode
  pllMode   : LineMode
  /-- The mode that the PLL still runs until a retune has its DSP domain on the bypass (R408). -/
  pllOld    : Option LineMode
  cfgGen    : BitVec 32
  timing    : TimingSt
  lead      : Option (Fin 8)
  /-- Frequency word of the slave trunk's common loop (R55), in the unit of Port.freqWord. -/
  loopFreq  : BitVec 32
  /-- Negotiations that the herd's ports have completed (R53). -/
  negSeq    : Nat
  handovers : BitVec 32
  trunk     : Option (BitVec 45 × Role)
  st        : HerdSt
  commit    : Option Commit
  image     : BitVec 32
  imageDig  : BitVec 256
  obs       : Obs
  test      : Option BistRun
  herdRec   : Option HerdRec
  waitRec   : Option (List Fld)
  queue     : List Cmd
  diagSeq   : Nat
  timeSkew  : Int
  /-- Ports that a mode or timing commit restarted and that have not finished start-up since (R28). -/
  restart   : List PortId
  /-- `mono` until which the collector ignores the herd's pairs after a self-test (R379). -/
  deaf      : Nat
  deriving DecidableEq, Repr

/-- A ring (R270 to R295, R543). -/
structure Ring where
  st       : RingSt
  armed    : Bool
  phase    : Bool
  dev      : BitVec 16
  host     : BitVec 16
  errCause : BitVec 8
  overrun  : Bool
  /-- Posted command descriptors not yet dispatched, oldest first. -/
  cmds     : List CmdDesc
  /-- Posted data descriptors not yet taken, oldest first. -/
  bufs     : List DataDesc
  /-- The dispatched command that has not completed (R289). -/
  running  : Option Cmd
  /-- The head of `cmds` has been fetched and is held; `entry` says that its completion entry is reserved (R543). -/
  fetched  : Bool
  entry    : Bool
  /-- Buffers taken and not yet completed. -/
  taken    : List Taken
  /-- Completions waiting for an entry of this completion ring (R291), oldest first. -/
  backlog  : List Completion
  reserved : Nat
  /-- A DMA fault meets the next buffer that is taken and used up in one command (R295). Log 34. -/
  dmaBad   : Bool
  deriving DecidableEq, Repr

/-- An MSI-X vector (R302 to R304). -/
structure Vec where
  masked   : Bool
  pending  : Bool
  /-- Message Address and Message Data of the table entry. -/
  addr     : BitVec 64
  data     : BitVec 32
  rings    : List RingId
  holdoff  : Bool
  deriving DecidableEq, Repr

/-- An event buffer (R31, R299), oldest first. -/
structure EvBuf where
  recs      : List Event
  collapsed : Bool
  deriving DecidableEq, Repr

/-- A rate-limit interval of one source and kind (R544): the latest held occurrence and the count since the previous
record. -/
structure Interval where
  open_ : Bool
  held  : Option Event
  count : Nat
  deriving DecidableEq, Repr

/-- A snapshot that waits for its capture (R348, R350). -/
structure Snap where
  cmd   : Cmd
  ports : List PortId
  buf   : Taken
  time  : BitVec 64
  deriving DecidableEq, Repr

/-- What the host sets in configuration space (R266, R267): the three BARs, Max Payload Size and Max Read Request Size
by PCIe's codes, ASPM L1, 10-bit tags. -/
structure PciCfg where
  bar0        : BitVec 32
  bar2        : BitVec 32
  bar4        : BitVec 32
  payload     : BitVec 3
  readRequest : BitVec 3
  aspm        : Bool
  tags10      : Bool
  deriving DecidableEq, Repr

/-- The host interface: rings, vectors, event sources, mirror, snapshots, outputs (11, 13). -/
structure Io where
  /-- Unlisted: DISABLED. -/
  rings      : Tab Ring
  /-- Unlisted: masked, nothing pending. -/
  vecs       : Tab Vec
  msixEnable : Bool
  fnMask     : Bool
  busMaster  : Bool
  cfg        : PciCfg
  /-- GENERATION by source (R297); unlisted: 0. -/
  gens       : Tab (BitVec 32)
  /-- By 4 × source + kind; unlisted: no open interval. -/
  srcs       : Tab Interval
  /-- By herd; unlisted: empty. -/
  herdBuf    : Tab EvBuf
  hubBuf     : EvBuf
  /-- Commands dispatched to the hub and not completed (R290). -/
  hubQueue   : List Cmd
  /-- The ring whose command each herd controller, and under 64 the hub, took last (R290); unlisted: none. -/
  rota       : Tab Nat
  /-- Doorbells latched while management is down (R286): the last word and the descriptors posted. -/
  latched    : Tab (BitVec 32 × List (List Byte))
  /-- SEQ by block number; unlisted: 0. -/
  seqs       : Tab (BitVec 32)
  /-- STALE by die (R347). -/
  stale      : Tab Bool
  /-- By block number, the last state the hub knew of a stale block, from TIME on (R347). -/
  known      : Tab (List Fld)
  /-- By herd, the records that had reached the hub when the die's link was lost (R21); unlisted: none. -/
  inHub      : Tab (List Event)
  dmaErr     : Bool
  epoch      : BitVec 32
  lastEpoch  : BitVec 32
  snaps      : List Snap
  bus        : List Bus
  deriving DecidableEq, Repr

/-- The settings of a fault source (R380). -/
structure FltCfg where
  base : BitVec 2
  pin  : Bool
  n    : BitVec 16
  w    : BitVec 32
  deriving DecidableEq, Repr

/-- A fault record (R388, Table 5), with its TIME, its PIN and the cycle it belongs to. -/
structure FltRec where
  record   : BitVec 32
  source   : BitVec 16
  cls      : BitVec 8
  level    : BitVec 8
  conseq   : Bool
  promoted : Bool
  escalated : Bool
  first    : Bool
  acked    : Bool
  fixed    : Bool
  network  : Bool
  deferred : Bool
  subsumed : Bool
  injected : Bool
  pin      : Bool
  reaction : BitVec 8
  scope    : Scope
  count    : BitVec 16
  link     : BitVec 32
  detail   : BitVec 32
  time     : BitVec 64
  deriving DecidableEq, Repr

/-- An open shadow window (R385, R386). -/
structure Shadow where
  scope  : Scope
  record : BitVec 32
  /-- `mono` at its end. -/
  ends   : Nat
  deriving DecidableEq, Repr

/-- A safe state in force and the records it depends on (R393). -/
structure SafeState where
  scope   : Scope
  records : List (BitVec 32)
  deriving DecidableEq, Repr

/-- The fault collector (15). -/
structure Flt where
  /-- Settings set by FLT.ARM; unlisted: Table 4 of Events, Faults and Reactions. -/
  cfg       : Tab (Option FltCfg)
  /-- Sources whose pair is raised; unlisted: clear. -/
  raised    : Tab Bool
  /-- Sources whose pair shows equal levels. -/
  network   : Tab Bool
  /-- Times of the counted faults of a source, newest first (R381). -/
  times     : Tab (List (BitVec 64))
  next      : BitVec 32
  /-- Newest first, at most 4,096. -/
  volatile  : List FltRec
  /-- Newest first, at most 16,384. -/
  persist   : List FltRec
  /-- Records ever written to the persistent log: the newest has number `logged` − 1 there, and 64 numbers from a
  multiple of 64 are a block (R510). -/
  logged    : Nat
  first     : Option (FltRec × List (BitVec 32))
  shadows   : List Shadow
  running   : Option Shadow
  runCode   : BitVec 8
  deferred  : List (Shadow × BitVec 8)
  safe      : List SafeState
  fixedHold : Bool
  /-- The asynchronous latch (R395): causes, with the device time, the DETAIL and the record number of each. -/
  latch     : List (FixedCause × BitVec 64 × BitVec 32 × BitVec 32)
  ended     : Bool
  fixedRecs : List (BitVec 32)
  /-- REFCLK_LOST, by the time of the loss and its record, until the hub's event ring is enabled again (R413). -/
  owed      : Option (BitVec 64 × BitVec 32)
  deriving DecidableEq, Repr

/-- What the device keeps of an image (R463 to R466). -/
structure Img where
  version   : BitVec 32
  svn       : BitVec 32
  digest    : BitVec 256
  ifVersion : BitVec 16
  ifMin     : BitVec 16
  ifMax     : BitVec 16
  setFormat : BitVec 16
  setRead   : BitVec 16
  confirmS  : BitVec 16
  raise     : Bool
  chain     : Bool
  deriving DecidableEq, Repr

/-- An open update session (R470): its source, 1 PCIe, 2 chain, 3 sideband; the body bytes received; SEQ of the last
frame; whether the staging slot is being programmed (R473); whether an equal image is staged, so that nothing is
programmed (R471). -/
structure Session where
  source  : BitVec 8
  header  : ImageHeader
  got     : Nat
  seq     : BitVec 16
  cmd     : Option Cmd
  program : Bool
  same    : Bool
  deriving DecidableEq, Repr

/-- An FW.STAGE that takes data-out buffers (R474): its object and the bytes it has read. -/
structure Stage where
  cmd  : Cmd
  ring : RingId
  obj  : ImageObj
  got  : Nat
  deriving DecidableEq, Repr

/-- A settings generation (R486): persistent counters by port, self-test records by herd, the format. -/
structure Settings where
  pers   : Tab (Tab (BitVec 64))
  bist   : Tab (List Fld)
  format : BitVec 16
  deriving DecidableEq, Repr

/-- SEQ_STATE of FW.STATUS (R494), codes 0 to 5. -/
inductive SeqSt where
  | idle
  | staged
  | scheduled
  | running
  | awaiting
  | falling
  deriving DecidableEq, Repr

/-- Firmware (19). Slots: false A, true B. -/
structure Fw where
  slot      : Bool
  prevValid : Bool
  rejected  : Bool
  running   : Tri Img
  staged    : Tri (Option Img)
  /-- The set in the slot not running, as far as no staging has erased it (R472, R487). -/
  previous  : Tri (Option Img)
  floors    : Tri (BitVec 32)
  rises     : Tri Nat
  session   : Option Session
  stages    : List Stage
  /-- Data-out rings whose buffers up to the next LAST go back unread (R474). -/
  dropping  : List RingId
  lastRef   : BitVec 8
  seq       : SeqSt
  /-- The schedule is a fallback's. -/
  fallback  : Bool
  /-- ACT_TIME of a schedule, T of a running sequence. -/
  startT    : BitVec 64
  /-- The set a running sequence leads to, and whether its hub phase is still to end. -/
  target    : Tri Img
  hubPhase  : Bool
  herdsNew  : BitVec 64
  deferred  : List HerdId
  /-- End of the confirmation window, 0 with no window open; `expired`: it ended outside Run (R487). -/
  deadline  : BitVec 64
  expired   : Bool
  /-- A restart out of Ibex has activated a set: the window opens at Run (R493). -/
  openAtRun : Bool
  chainIgn  : Bool
  format    : BitVec 16
  prevPers  : Option Settings
  setReset  : Bool
  bootFails : BitVec 4
  ibex      : Bool
  ibexCause : BitVec 2
  ibexStaged : Bool
  /-- The restart under way enters Ibex (R491). -/
  toIbex    : Bool
  mgmtDown  : Bool
  inLock    : Bool
  outLock   : Bool
  /-- A HEADER frame held for its checks, and whether the frames of the image now on the chain are forwarded (R477). -/
  chainHdr  : Option (ChainCheck × ImageHeader)
  chainFwd  : Bool
  /-- The slot that a reset during the sequence boots (R489), the FW_FALLBACK that such a boot owes, the DDR5 training
  image that has not run yet (R483). -/
  safeSlot  : Bool
  fellBack  : Bool
  ddrNew    : Bool
  deriving DecidableEq, Repr

/-- An OTP write in progress (R499, R504). -/
inductive OtpWrite where
  | owner (hash : BitVec 256)
  | lifecycle (dest : BitVec 2)
  deriving DecidableEq, Repr

/-- Security state and OTP (20). -/
structure Sec where
  lifecycle  : BitVec 2
  owner      : Option (BitVec 256)
  keyProg    : Bool
  seedProg   : Bool
  seedGone   : Bool
  ready      : Bool
  factory    : Bool
  unlocked   : Bool
  scope      : BitVec 3
  challenge  : BitVec 128
  reports    : BitVec 32
  otp        : Option OtpWrite
  jtag       : Option JtagOp
  deriving DecidableEq, Repr

/-- An entry of the soft repair table (R456): the unit, the memory, the word and the bit that a spare replaces. -/
structure Repair where
  unit : BitVec 16
  mem  : BitVec 16
  addr : BitVec 32
  bit  : BitVec 16
  deriving DecidableEq, Repr

/-- What MRAM keeps besides the fault log and the boot record: repair table, self-test records, counters. -/
structure Nv where
  /-- The soft repair table (R456), at most 4,096 entries. -/
  repairs  : List Repair
  bist     : Tab (List Fld)
  postRec  : Option (List Fld)
  /-- HERD of the POST hold status (R523). -/
  postHerd : BitVec 16
  /-- Persistent counters as last written (R231), by port. -/
  pers     : Tab (Tab (BitVec 64))
  deriving DecidableEq, Repr

/-- Power (17). -/
structure Pwr where
  st       : DevSt
  /-- A Sleep or Off entry accepted and waiting for its conditions (R423). -/
  pending  : Option (Fin 5)
  /-- A wake source latched during an entry (R431). -/
  latched  : Option (BitVec 4)
  /-- PWR_WAKE_SOURCE (R363, R428): SOURCE, REPLAYED, FROM. -/
  wake     : BitVec 4
  replayed : Bool
  fromSt   : Fin 5
  padsHeld : Bool
  retFail  : BitVec 4
  /-- DEEP_MS counts since the entry to Sleep (R363, R420). -/
  deepCnt  : Bool
  /-- Sleep has been reached and not been left to Run: the line dies' blocks are off (R424, R425). -/
  dark     : Bool
  /-- `mono` until which the collector ignores the pairs of blocks that were powered again (R379). -/
  deaf     : Nat
  /-- The same for the sources of the hub core, gated in Idle, and of the hub die (R379, R421). -/
  hubDeaf  : Nat
  /-- The sideband address in force: a written ADDR waits for the next STOP (R367). -/
  sideAddr : BitVec 7
  /-- The power-on self-test under way: what its parts have found so far (R457, R461). -/
  post     : Option BistRun
  deriving DecidableEq, Repr

/-- Straps sampled at PORST_N (R514). -/
structure Straps where
  bootSrc  : BitVec 2
  chainEnd : Bool
  testEn   : Bool
  deriving DecidableEq, Repr

/-- A command that waits for an outcome outside its target's own record (R312). -/
inductive Wait where
  /-- Paired CTX.SAVE waiting for the partner's acknowledgement; `visible` once its own save is visible. -/
  | paired (p : PortId) (c : Cmd) (visible acked : Bool)
  /-- PORT.LOOPBACK waiting for the acknowledgement of its LOOP_SET. -/
  | loop (p : PortId) (c : Cmd) (on : Bool)
  /-- PWR.LEVEL waiting for its die. -/
  | level (d : DieId) (c : Cmd)
  /-- TIME.SET with AT_SYNC. -/
  | sync (c : Cmd) (value : BitVec 64)
  deriving DecidableEq, Repr

/-- The state of the block. -/
structure State where
  /-- The queue of commands that are waiting, first in first out. -/
  pending : List Instr
  time    : TimeSt
  /-- Nanoseconds run by the model; the model's own. Log 4. -/
  mono    : Nat
  /-- Argument of the free values; the model's own. Log 5. -/
  fresh   : Nat
  /-- RW, RWS registers by BAR0 offset; unlisted: the register's reset value (Ops.regReset). -/
  regs    : Tab (BitVec 32)
  /-- R12 latches by low-word offset; unlisted: 0. -/
  latches : Tab (BitVec 32)
  /-- R13 held low word with its offset. -/
  heldLow : Option (BitVec 26 × BitVec 32)
  access  : Access
  straps  : Straps
  clk     : Clk
  pwr     : Pwr
  /-- By RailId; unlisted: Rail.reset. -/
  rails   : Tab Rail
  /-- Unlisted: P0, link up. -/
  dies    : Tab Die
  hubTemp : BitVec 16
  /-- Unlisted: trained. -/
  ddr     : Tab Ddr
  /-- By port; unlisted: an empty directory. -/
  store   : Tab CtxDir
  /-- Unlisted: Port.reset. -/
  ports   : Tab Port
  /-- Unlisted: Herd.reset. -/
  herds   : Tab Herd
  io      : Io
  waits   : List Wait
  flt     : Flt
  fw      : Fw
  sec     : Sec
  nv      : Nv
  deriving DecidableEq, Repr

/-- Four equal things. -/
def Quad.all {α : Type} (x : α) : Quad α := ⟨x, x, x, x⟩

/-- A ring after reset: DISABLED (R276). -/
def Ring.reset : Ring :=
  { st := .disabled, armed := false, phase := false, dev := 0, host := 0, errCause := 0, overrun := false,
    cmds := [], bufs := [], running := none, fetched := false, entry := false, taken := [],
    backlog := [], reserved := 0, dmaBad := false }

/-- An MSI-X table entry after reset, as PCIe has it: masked. Log 12. -/
def Vec.reset : Vec := { masked := true, pending := false, addr := 0, data := 0, rings := [], holdoff := false }

/-- An empty event buffer. -/
def EvBuf.empty : EvBuf := { recs := [], collapsed := false }

/-- No open rate-limit interval. -/
def Interval.none : Interval := { open_ := false, held := .none, count := 0 }

/-- No reference, no estimate, no error yet. -/
def PairDsp.reset : PairDsp :=
  { gather := [], ahead := [], hist := [], lag := 0, est := [], line := [], last := 0, errs := [], before := none,
    recent := [], rot := 0, sq := [],
    seen := 0, seenN := 0, means := [], meanN := 0, ms := [], msSq := 0, msN := 0 }

/-- A pair before its port's first start (R85: levels and causes 0; R226, R232: no SNR and margin). Log 8. -/
def Pair.reset : Pair :=
  { canLevel := 0, eqLevel := 0, freeze := 0, snr := 0x8000, snrMin := 0x8000, margin := 0x8000,
    marginMin := 0x8000, slots := [none, none, none, none, none, none], coef := [], analogGain := 0,
    digitalGain := 0, phase := 0, deskew := 0, farSum := 0, farN := 0, far := [], dsp := PairDsp.reset, nearMiss := 0,
    bitErrors := 0, calCount := 0, calTime := 0 }

/-- No negotiation attempt. -/
def Neg.none : Neg :=
  { open_ := false, basePages := false, nonce := 0, seed := 0, gotBase := false, gotOffer := false, version := 0,
    tag := 0, port := 0, modes := 0, modeFixed := false, fecs := 0, rolePref := 0, roleFixed := false, pSeed := 0,
    ctxValid := false, pSig := 0, pGen := 0, pNonce := 0, myModes := 0, myModeFixed := false, myFecs := 0,
    myRole := 0, myFixed := false, offer := .none, page := 0 }

/-- No start-up. -/
def Start.none : Start :=
  { calibrated := false, locked := false, window := 0, lastAt := 0, tracking := false, history := [],
    ownRes := Quad.all .none, eqRes := Quad.all .none, checkPass := false, capsSent := false, capsGot := false,
    ctx := .none }

/-- No alignment and no signal. -/
def Locks.none : Locks :=
  { frame := Quad.all false, marker := false, missed := 0, timing := false, signal := Quad.all false }

/-- The InfoField channel at the start of a link (R50): SEQ 0 and ACK_SEQ 0. -/
def Info.fresh : Info :=
  { seq := 0, ackSeq := 0, current := none, queue := [], timing := none, myCaps := 0, hisCaps := 0 }

/-- Scrambler seeds (R37, Table 2 of The Usrubry Line Format). -/
def pairSeeds : Quad (BitVec 58) :=
  ⟨0x02D1C3A596B4E781, 0x01784E9D2B3F605C, 0x03A60F1BD5C27948, 0x0095B7E24C1AD36F⟩

/-- Pilot PRBS11 seeds (R41, Table 4). -/
def prbsSeeds : Quad (BitVec 11) := ⟨0x7FF, 0x4A5, 0x35A, 0x1E3⟩

/-- The line registers of a port that does not transmit. The scrambler is loaded when the transmitter starts. -/
def LineIo.off : LineIo :=
  { on := false, scr := pairSeeds, prbs := prbsSeeds, slotNo := 0, descr := Quad.all 0, rxSlot := 0, adcSyms := 0,
    sleepTx := 0, sleepRx := 0,
    alertLeft := 0, infoLeft := 0, pilot := 0, train := none, wakeGo := false, wakeRx := false, lastCwLpi := false,
    rxSleeping := false }

/-- Empty data-path buffers. -/
def DataPath.empty : DataPath :=
  { elastic := [], wake := [], looped := [], toHost := [], outPhase := 0, outNo := 0, lastOut := [], cwLock := false,
    hostPpm := 0, lpiRun := 0, idleTimer := false, uncorr := [] }

/-- LPI ACTIVE (R202). -/
def Lpi.reset : Lpi :=
  { st := .active, trigger := 0, preSnr := [], extended := false, due := false, passed := false, lastEnter := 0,
    quietFrom := 0, wakeFrom := 0 }

/-- LPI.CONFIG defaults (R220, Table 3). -/
def LpiCfg.default : LpiCfg := { enable := true, autoIdle := true, events := true, timer := 50 }

/-- Transmitter taps of preset 2 (R184, R371): 0, −4, +34, −2 steps. -/
def tapsPreset2 : Quad (BitVec 8) := ⟨0x00, 0xFC, 0x22, 0xFE⟩

/-- The receiver's FFE before it adapts: the main tap at position 4 alone (R182). DESIGN CHOICE, log 60. -/
def ffeStart : List (BitVec 8) := (List.range 24).map fun k => if k = 3 then 64 else 0

/-- A checker that does not run. -/
def Checker.idle : Checker := { need := 0, reg := 0, run := 0, win := [], sym := false }

/-- A host lane at Run after a reset (R520): BLIND at 100GAUI-1, preset 2, no eye (R233). -/
def Lane.reset : Lane :=
  { st := .blind, retries := 0, mode := .l100, locked := false, taps := tapsPreset2, ctle := 0,
    ffe := ffeStart, dfe := 0, cdr := 0, auto := true, limit := 0, lockSnr := 170, seek := none,
    preRx := false, preTx := false, partReady := false, preReq := none, fromLoss := false, gen := 0, genReg := 0,
    flips := 0,
    chk := 0, chkr := Checker.idle, chkLock := false, periodic := none,
    live := false, polTx := false, polRx := false, eye := Quad.all 0xFFFF, slewFrom := 0, slewAt := 0 }

/-- No snapshot (R88). -/
def Wander.reset : Wander :=
  { snap := none, snapAt := 0, reverts := 0, recent := [], suspended := false, heldUntil := 0 }

/-- MARGIN_LOW armed (R227). -/
def MarginLow.reset : MarginLow := { below := 0, above := 0, armed := true, crossings := 0, wasBelow := false }

/-- No diagnostic. -/
def Diag.none : Diag :=
  { st := .none, step := 0, skip := false, profile := false, auto := false, frozen := false, buf := .none, start := 0,
    startMono := 0, stepMono := 0, limit := 0, endState := .disabled, order := 0, cable := 480, board := 0, thr := 30,
    mode := .l100, coefs := .none, tdr := 0,
    kept := .none, keptEvent := [], found := .none }

/-- A port at Run after a reset (R520): DISABLED, defaults in both parameter sets (R333). -/
def Port.reset : Port :=
  { st := .disabled, startPath := 0, attempts := 0, lastAbort := 0, lastDown := 0, role := none, partner := 0,
    sig := 0, linkGen := 0, cfgGen := 0, partnerSeen := false, partnerPage := false, trainNext := false,
    back := .disabled, upTime := 0, stTime := 0, negEnd := 0, negSeq := 0, upMono := 0, live := [],
    shadow := [], att := [], staged := [], mustCommit := false, lpiCfg := LpiCfg.default, mode := .l100, fec := 0,
    neg := Neg.none,
    start := Start.none, lock := Locks.none, info := Info.fresh, caps := none, line := LineIo.off,
    dp := DataPath.empty, lpi := Lpi.reset, pairs := Quad.all Pair.reset, freqWord := 0, wander := Wander.reset,
    survey := Quad.all none,
    mlow := MarginLow.reset, lane := Lane.reset, loop := .none, diag := Diag.none, calRot := 0, calMarks := 0,
    cal := none,
    save := none, lastSave := none, firstSaved := false, saveHeld := false, partnerHeld := false, stats := [],
    pers := [], period := (0, 0, 0),
    frozenCopy := none, temp := 0, hot := false, active := false }

/-- A bank after reset (R251): one coefficient of +1.0. -/
def Bank.reset : Bank := { taps := 1, coeffs := [0x10000] }

/-- The observation path after reset (R251). -/
def Obs.reset : Obs :=
  { st := .stopped, source := 0, decim := 6, sel := false, bank0 := Bank.reset, bank1 := Bank.reset, settle := 0,
    fadeLen := 0, fadeGone := 0, chain := [], line := [], suppressed := 0, dropped := 0, droppedRun := 0, mode := 0,
    count := 0, ring := 0xFFFF, seq := 0, sent := 0, held := [], buf := none, supp := 0, drop := 0, stepped := false,
    suppBuf := 0, dropBuf := 0, stepBuf := false, sched := [], final := none, stoppers := [], waits := [],
    sweeps := [] }

/-- Image version that every image of a unit starts with in State.reset. DESIGN CHOICE, log 11. -/
def firstVersion : BitVec 32 := 0x00010000

/-- A herd at Run after a reset (R520): MODE_SET L100 alone, policy AUTO, resolved mode L100 (R106). -/
def Herd.reset : Herd :=
  { modeSet := 1, policy := false, shModeSet := 1, shPolicy := false, staged := false, resolved := some .l100,
    pllMode := .l100, pllOld := none,
    cfgGen := 0, timing := .perPort, lead := none, loopFreq := 0, negSeq := 0, handovers := 0, trunk := none,
    st := .normal, commit := none,
    image := firstVersion, imageDig := 0, obs := Obs.reset, test := none, herdRec := none, waitRec := none,
    queue := [], diagSeq := 0, timeSkew := 0, restart := [], deaf := 0 }

/-- A line die at Run after a reset (R520): P0; its link is up and its boot calibration run is done. Log 6, 8. -/
def Die.reset : Die :=
  { level := 0, target := 0, step := none, start := 0, floor := none, d2dUp := true, temp := 0, calTemp := 0,
    calRun := none, calCount := 1, calTime := 0 }

/-- A DDR5 channel at Run after a reset: trained; 16 GiB is a DESIGN CHOICE, log 6. -/
def Ddr.reset : Ddr := { trained := true, gib := 16, size := 16, selfRefresh := false, failed := false, eccCount := 0 }

/-- A rail in its window at its power-up target (R416): 800 mV on VDD_CORE, 750 mV on VDD_DSPd; the board sets the
other rails. -/
def Rail.reset (r : RailId) : Rail :=
  { out := false, low := false, mv := if r.val = 0 then 800 else if 7 ≤ r.val then 750 else 0, old := 0, settle := 0 }

/-- A PLL judged locked. -/
def Pll.up : Pll := { locked := true, good := 3, retuning := false }

/-- A domain on its PLL. -/
def Switch.onPll0 : Switch := { onPll := true, running := none, waiting := none }

/-- An image of State.reset. DESIGN CHOICE, log 11. -/
def Img.first : Img :=
  { version := firstVersion, svn := 0, digest := 0, ifVersion := 1, ifMin := 1, ifMax := 1, setFormat := 1,
    setRead := 1, confirmS := 60, raise := false, chain := false }

/-- Configuration space after a fundamental reset, as PCIe has it: BARs 0, 128-byte payloads, 512-byte read requests.
Log 12. -/
def PciCfg.reset : PciCfg :=
  { bar0 := 0, bar2 := 0, bar4 := 0, payload := 0, readRequest := 2, aspm := false, tags10 := false }

/-- Host interface after reset. The boot's own events have advanced three generations (R520): DDR_TRAINED twice,
BIST_DONE once and CAL_DIE_DONE eight times. Log 6. -/
def Io.reset : Io :=
  { rings := [], vecs := [], msixEnable := false, fnMask := false, busMaster := false,
    cfg := PciCfg.reset, gens := [(8240, 2), (8264, 1), (8266, 8)], srcs := [], herdBuf := [], hubBuf := EvBuf.empty,
    hubQueue := [], rota := [], latched := [], seqs := [],
    stale := [], known := [], inHub := [], dmaErr := false, epoch := 0, lastEpoch := 0, snaps := [], bus := [] }

/-- The collector after PORST_N: nothing raised, logs empty. Log 10. -/
def Flt.reset : Flt :=
  { cfg := [], raised := [], network := [], times := [], next := 1, volatile := [], persist := [], logged := 0,
    first := none,
    shadows := [], running := none, runCode := 0, deferred := [], safe := [], fixedHold := false, latch := [],
    ended := false, fixedRecs := [], owed := none }

/-- Firmware state of State.reset: slot A runs, nothing staged. Log 11. -/
def Fw.reset : Fw :=
  { slot := false, prevValid := false, rejected := false, running := ⟨Img.first, Img.first, Img.first⟩,
    staged := ⟨none, none, none⟩, previous := ⟨none, none, none⟩, floors := ⟨0, 0, 0⟩, rises := ⟨0, 0, 0⟩,
    session := none, stages := [], dropping := [], lastRef := 0, seq := .idle, fallback := false, startT := 0,
    target := ⟨Img.first, Img.first, Img.first⟩, hubPhase := false, herdsNew := 0, deferred := [], deadline := 0,
    expired := false, openAtRun := false, chainIgn := false, format := 1, prevPers := none, setReset := false,
    bootFails := 0, ibex := false, ibexCause := 0, ibexStaged := false, toIbex := false, mgmtDown := false,
    inLock := false, outLock := false, chainHdr := none, chainFwd := false, safeSlot := false, fellBack := false,
    ddrNew := false }

/-- Security state of State.reset: a Deployed unit with its identity key (log 13); the challenge is a free value. -/
def Sec.reset : Sec :=
  { lifecycle := 1, owner := none, keyProg := true, seedProg := true, seedGone := false, ready := true,
    factory := false, unlocked := false, scope := 0, challenge := Config.entropy 0, reports := 0, otp := none,
    jtag := none }

/-- The block right after reset, at Run as R520 describes it: every port DISABLED, every herd at L100 with policy
AUTO, every die at P0, every host lane in BLIND, every ring DISABLED. Log 6. -/
def State.reset : State :=
  { pending := [],
    time := { now := 0, slewLeft := 0, slewPhase := 0, acc := 0, frac := 0, syncCount := 0, syncLast := 0,
              syncMono := none },
    mono := 0, fresh := 1, regs := [], latches := [], heldLow := none,
    access := { err := false, cause := 0, overflow := false, addr := 0, write := false },
    straps := { bootSrc := 0, chainEnd := false, testEn := false },
    clk := { refclkOk := true, lastDomain := 0, lastLost := 0, lastIndet := false, fmcCount := 0, fmcDone := false,
             fmcRunning := false, plls := [], switches := [] },
    pwr := { st := .run, pending := none, latched := none, wake := 0, replayed := false, fromSt := 0,
             padsHeld := false, retFail := 0, deepCnt := false, dark := false, deaf := 0, hubDeaf := 0, post := none,
             sideAddr := 0x4A },
    rails := [], dies := [], hubTemp := 0, ddr := [], store := [], ports := [], herds := [], io := Io.reset,
    waits := [], flt := Flt.reset, fw := Fw.reset, sec := Sec.reset,
    nv := { repairs := [], bist := [], postRec := none, postHerd := 0, pers := [] } }

end Sys2Proof.Machine
end

