-- ==== Sys2Proof/Machine/Ops.lean ====
section
/-!
DEFINITION. The named operations over the state: sparse tables, accessors of ports, herds, dies, rings, vectors and
fault sources, the codes of the spec's enumerations, scheduling data (device time, free values) and the numbering of
objects (R2 to R5).
-/

namespace Sys2Proof.Machine

/-! ### Sparse tables -/

/-- The value a table holds for a number, or the default. -/
def tabGet {α : Type} (d : α) : Tab α → Nat → α
  | [], _ => d
  | (j, v) :: t, k => if k < j then d else if k = j then v else tabGet d t k

/-- A table with one number's value replaced. -/
def tabSet {α : Type} : Tab α → Nat → α → Tab α
  | [], k, v => [(k, v)]
  | (j, w) :: t, k, v =>
    if k < j then (k, v) :: (j, w) :: t else if k = j then (k, v) :: t else (j, w) :: tabSet t k v

/-- A table with one number's value changed by a function. -/
def tabMod {α : Type} (d : α) (t : Tab α) (k : Nat) (f : α → α) : Tab α := tabSet t k (f (tabGet d t k))

/-! ### Four pairs and three image kinds -/

/-- The entry of pair i (R4: A to D are 0 to 3). -/
def quadGet {α : Type} (q : Quad α) (i : PairId) : α :=
  match i with
  | 0 => q.a
  | 1 => q.b
  | 2 => q.c
  | 3 => q.d

/-- Four pairs with the entry of pair i replaced. -/
def quadSet {α : Type} (q : Quad α) (i : PairId) (x : α) : Quad α :=
  match i with
  | 0 => { q with a := x }
  | 1 => { q with b := x }
  | 2 => { q with c := x }
  | 3 => { q with d := x }

/-- A function applied to each pair's entry. -/
def quadMap {α β : Type} (f : α → β) (q : Quad α) : Quad β := ⟨f q.a, f q.b, f q.c, f q.d⟩

/-- The four entries in ascending pair order. -/
def quadList {α : Type} (q : Quad α) : List α := [q.a, q.b, q.c, q.d]

/-- Two quads joined entry by entry. -/
def quadZip {α β γ : Type} (f : α → β → γ) (q : Quad α) (r : Quad β) : Quad γ :=
  ⟨f q.a r.a, f q.b r.b, f q.c r.c, f q.d r.d⟩

/-- The first four entries of a list as pairs A to D, `d` where the list is short. -/
def quadOf {α : Type} (d : α) (l : List α) : Quad α := ⟨l.getD 0 d, l.getD 1 d, l.getD 2 d, l.getD 3 d⟩

/-- The entry of image kind k (R463: 0 hub, 1 herd, 2 DDR5 training). -/
def triGet {α : Type} (t : Tri α) (k : Fin 3) : α :=
  match k with
  | 0 => t.hub
  | 1 => t.herd
  | 2 => t.ddr

/-- Three kinds with the entry of kind k replaced. -/
def triSet {α : Type} (t : Tri α) (k : Fin 3) (x : α) : Tri α :=
  match k with
  | 0 => { t with hub := x }
  | 1 => { t with herd := x }
  | 2 => { t with ddr := x }

/-- A function applied to each kind's entry. -/
def triMap {α β : Type} (f : α → β) (t : Tri α) : Tri β := ⟨f t.hub, f t.herd, f t.ddr⟩

/-! ### Numbering (R2 to R5) -/

/-- The herd of a port (R2). -/
def herdOf (p : PortId) : HerdId := ⟨p.val / 8, by omega⟩

/-- The line die of a port (R2). -/
def dieOf (p : PortId) : DieId := ⟨p.val / 64, by omega⟩

/-- The line die of a herd (R2). -/
def dieOfHerd (h : HerdId) : DieId := ⟨h.val / 8, by omega⟩

/-- Port k of a herd (R2). -/
def portOf (h : HerdId) (k : Fin 8) : PortId := ⟨8 * h.val + k.val, by omega⟩

/-- The eight ports of a herd in ascending order. -/
def portsOf (h : HerdId) : List PortId := (List.finRange 8).map (portOf h)

/-- Herd k of a die (R2). -/
def herdOfDie (d : DieId) (k : Fin 8) : HerdId := ⟨8 * d.val + k.val, by omega⟩

/-- The eight herds of a die in ascending order. -/
def herdsOf (d : DieId) : List HerdId := (List.finRange 8).map (herdOfDie d)

/-- All herds in ascending order. -/
def allHerds : List HerdId := List.finRange 64

/-- All ports in ascending order. -/
def allPorts : List PortId := allHerds.flatMap portsOf

/-- The DDR5 channel that holds a port's contexts (R141). -/
def chanOf (p : PortId) : ChanId := ⟨p.val / 256, by omega⟩

/-- The DDR5 channel that holds a herd's record (R141). -/
def chanOfHerd (h : HerdId) : ChanId := ⟨h.val / 32, by omega⟩

/-- Event source n of a port (R5). -/
def portSrc (p : PortId) (n : Nat) : Nat := 16 * p.val + n

/-- Global event source g (R5). -/
def globalSrc (g : Nat) : Nat := 8192 + g

/-! ### Codes of the spec's enumerations -/

/-- PORT_STATE codes (R97, Table 1). -/
def portCode : PortSt → Nat
  | .disabled => 0
  | .negotiate => 1
  | .hold => 2
  | .springbok => 3
  | .t0 => 4
  | .t1 => 5
  | .t2 => 6
  | .t3 => 7
  | .up => 8
  | .test => 9
  | .safe => 10

/-- LANE_STATE codes (R179, Table 2). -/
def laneCode : LaneSt → Nat
  | .idle => 0
  | .blind => 1
  | .detect => 2
  | .train => 3
  | .lock => 4
  | .ready => 5
  | .active => 6
  | .hold => 7

/-- LPI_STATE codes (R202, Table 2). -/
def lpiCode : LpiSt → Nat
  | .active => 0
  | .request => 1
  | .quiet => 2
  | .refresh => 3
  | .wake => 4
  | .blocked => 5

/-- LOOP_STATE codes. -/
def loopCode : LoopSt → Nat
  | .none => 0
  | .near => 1
  | .far => 2
  | .digital => 3
  | .remote => 4
  | .looping => 5

/-- DIAG_STATE codes. -/
def diagCode : DiagSt → Nat
  | .none => 0
  | .passive => 1
  | .chamois => 2
  | .waiting => 3

/-- TIMING_STATE codes (R55). -/
def timingCode : TimingSt → Nat
  | .perPort => 0
  | .trunkMaster => 1
  | .trunkSlave => 2
  | .handover => 3
  | .holdover => 4

/-- HERD_STATE codes; a herd that failed its self-test is in herd safe state (R460). -/
def herdCode : HerdSt → Nat
  | .normal => 0
  | .selfTest => 1
  | .safe => 2
  | .fwRestart => 3
  | .failed => 2

/-- OBS_STATE codes (R255). -/
def obsCode : ObsSt → Nat
  | .stopped => 0
  | .settling => 1
  | .running => 2
  | .fading => 3
  | .chamois => 4

/-- RING_STATE codes (Table 10 of Rings, Doorbells and Interrupts). -/
def ringCode : RingSt → Nat
  | .disabled => 0
  | .active => 1
  | .draining => 2
  | .error => 3

/-- LINE_MODE codes (Table 1 of Channel Contexts). -/
def modeCode : LineMode → Nat
  | .l100 => 0
  | .l100s => 1
  | .l100x => 2
  | .l50 => 3
  | .l25 => 4

/-- SEQ_STATE codes (R494). -/
def seqCode : SeqSt → Nat
  | .idle => 0
  | .staged => 1
  | .scheduled => 2
  | .running => 3
  | .awaiting => 4
  | .falling => 5

/-- ROLE codes: 0 master, 1 slave, 0xFF none. -/
def roleCode : Option Role → Nat
  | some .master => 0
  | some .slave => 1
  | none => 0xFF

/-- SCOPE codes (R388, Table 5). -/
def scopeCode : Scope → Nat
  | .port p => p.val
  | .herd h => 0x4000 + h.val
  | .die d => 0x6000 + d.val
  | .device => 0x7FFF
  | .none => 0xFFFF

/-- The scope that a SCOPE field names. -/
def scopeOf (n : Nat) : Scope :=
  if h : n < 512 then .port ⟨n, h⟩
  else if h : 0x4000 ≤ n ∧ n < 0x4040 then .herd ⟨n - 0x4000, by omega⟩
  else if h : 0x6000 ≤ n ∧ n < 0x6008 then .die ⟨n - 0x6000, by omega⟩
  else if n = 0x7FFF then .device
  else .none

/-- A Boolean as a bit. -/
def bit (b : Bool) : Nat := if b then 1 else 0

/-- The device-time difference in whole µs. -/
def usBetween (a b : BitVec 64) : Nat := (b - a).toNat / 1000

/-- A signed 16-bit field's value. -/
def signed16 (x : BitVec 16) : Int := x.toInt

/-- All line modes in the order of R106. -/
def allModes : List LineMode := [.l100, .l100s, .l100x, .l50, .l25]

/-- Whether a MODE_SET or MODE_OFFER holds a mode (bits 0 to 4 in the order of R106). -/
def modeIn (set : BitVec 5) (m : LineMode) : Bool := set.getLsbD (modeCode m)

/-- The first mode of a set in the order of R106. -/
def firstMode (set : BitVec 5) : Option LineMode := allModes.find? (modeIn set)

/-- The mode of a MODE_SET with one bit set (R106). -/
def singleMode (set : BitVec 5) : Option LineMode :=
  match allModes.filter (modeIn set) with
  | [m] => some m
  | _ => none

/-- The lowest performance level that allows a mode (R417, Table 2): 0 for P0 to 3 for P3. -/
def modeLevel : LineMode → Nat
  | .l100 => 0
  | .l100x => 0
  | .l100s => 1
  | .l50 => 2
  | .l25 => 3

/-- Host-lane rate class of a mode (R177): modes of equal class share a rate. -/
def laneRate : LineMode → Nat
  | .l100 => 0
  | .l100s => 0
  | .l100x => 0
  | .l50 => 1
  | .l25 => 2

/-- Whether a port is in SPRINGBOK or T0 to T3. -/
def isTraining : PortSt → Bool
  | .springbok => true
  | .t0 => true
  | .t1 => true
  | .t2 => true
  | .t3 => true
  | _ => false

/-! ### Accessors -/

def getPort (s : State) (p : PortId) : Port := tabGet Port.reset s.ports p.val
def setPort (s : State) (p : PortId) (x : Port) : State := { s with ports := tabSet s.ports p.val x }
def modPort (s : State) (p : PortId) (f : Port → Port) : State := setPort s p (f (getPort s p))

def getHerd (s : State) (h : HerdId) : Herd := tabGet Herd.reset s.herds h.val
def setHerd (s : State) (h : HerdId) (x : Herd) : State := { s with herds := tabSet s.herds h.val x }
def modHerd (s : State) (h : HerdId) (f : Herd → Herd) : State := setHerd s h (f (getHerd s h))

def getDie (s : State) (d : DieId) : Die := tabGet Die.reset s.dies d.val
def setDie (s : State) (d : DieId) (x : Die) : State := { s with dies := tabSet s.dies d.val x }
def modDie (s : State) (d : DieId) (f : Die → Die) : State := setDie s d (f (getDie s d))

def getDdr (s : State) (c : ChanId) : Ddr := tabGet Ddr.reset s.ddr c.val
def setDdr (s : State) (c : ChanId) (x : Ddr) : State := { s with ddr := tabSet s.ddr c.val x }

def getRail (s : State) (r : RailId) : Rail := tabGet (Rail.reset r) s.rails r.val
def setRail (s : State) (r : RailId) (x : Rail) : State := { s with rails := tabSet s.rails r.val x }

/-- An empty directory: the spare slot 24 is free (R141). Log 9. -/
def emptyDir : CtxDir := { entries := [], freeSlot := 24 }

def getDir (s : State) (p : PortId) : CtxDir := tabGet emptyDir s.store p.val
def setDir (s : State) (p : PortId) (x : CtxDir) : State := { s with store := tabSet s.store p.val x }

def getRing (s : State) (r : RingId) : Ring := tabGet Ring.reset s.io.rings r.val
def setRing (s : State) (r : RingId) (x : Ring) : State :=
  { s with io := { s.io with rings := tabSet s.io.rings r.val x } }
def modRing (s : State) (r : RingId) (f : Ring → Ring) : State := setRing s r (f (getRing s r))

def getVec (s : State) (v : Nat) : Vec := tabGet Vec.reset s.io.vecs v
def setVec (s : State) (v : Nat) (x : Vec) : State :=
  { s with io := { s.io with vecs := tabSet s.io.vecs v x } }

def getPll (s : State) (u : PllId) : Pll := tabGet Pll.up s.clk.plls (64 * u.sel.val + u.unit.val)
def setPll (s : State) (u : PllId) (x : Pll) : State :=
  { s with clk := { s.clk with plls := tabSet s.clk.plls (64 * u.sel.val + u.unit.val) x } }

/-- The mode whose family and divider a herd's PLL runs (R24, R408). -/
def pllRuns (x : Herd) : LineMode := x.pllOld.getD x.pllMode

/-- DOMAIN code (Table 5 of Set-up Register Map): 0x00 hub core, 0x10 + h herd h DSP. -/
def domainCode : Domain → Nat
  | .hubCore => 0
  | .herdDsp h => 0x10 + h.val

def getSwitch (s : State) (d : Domain) : Switch := tabGet Switch.onPll0 s.clk.switches (domainCode d)
def setSwitch (s : State) (d : Domain) (x : Switch) : State :=
  { s with clk := { s.clk with switches := tabSet s.clk.switches (domainCode d) x } }

/-- SEL codes of Table 6 of Set-up Register Map. -/
def pllRoot : PllId := ⟨1, 0⟩
def pllMonitor : PllId := ⟨2, 0⟩
def pllPcie : PllId := ⟨4, 0⟩
def pllDdr (c : ChanId) : PllId := if c = 0 then ⟨5, 0⟩ else ⟨6, 0⟩
def pllHerd (h : HerdId) : PllId := ⟨8, h⟩
def pllLane (h : HerdId) : PllId := ⟨10, h⟩
def pllUcie (d : DieId) : PllId := ⟨11, ⟨d.val, by omega⟩⟩

/-- Puts one thing on the device's outputs (log 2). -/
def emit (s : State) (b : Bus) : State := { s with io := { s.io with bus := b :: s.io.bus } }

/-- Applies an operation to each of a list, in order. -/
def forEach {α : Type} (l : List α) (f : State → α → State) (s : State) : State := l.foldl f s

/-- The next draw of the entropy source (log 5), and the state that has drawn it. -/
def draw (s : State) : BitVec 128 × State := (Config.entropy s.fresh, { s with fresh := s.fresh + 1 })

/-- The next free value (log 5). -/
def freeNat (s : State) : Nat × State := (Config.freeValue s.fresh, { s with fresh := s.fresh + 1 })

/-- Device time (R8). -/
def now (s : State) : BitVec 64 := s.time.now

/-- A herd controller's copy of device time (R32). -/
def herdNow (s : State) (h : HerdId) : BitVec 64 := s.time.now + BitVec.ofInt 64 (getHerd s h).timeSkew

/-- A counter of the statistics block, by its offset (R232). -/
def statGet (x : Port) (off : Nat) : BitVec 64 := tabGet 0 x.stats off

/-- Adds to a counter, modulo 2^64 (R231). -/
def statAdd (x : Port) (off n : Nat) : Port :=
  { x with stats := tabSet x.stats off (statGet x off + BitVec.ofNat 64 n) }

/-- A persistent counter (R231). -/
def persGet (x : Port) (off : Nat) : BitVec 64 := tabGet 0 x.pers off

/-- Adds to a persistent counter. -/
def persAdd (x : Port) (off n : Nat) : Port :=
  { x with pers := tabSet x.pers off (persGet x off + BitVec.ofNat 64 n) }

/-- The little-endian bytes of a value (R9). -/
def leBytes : Nat → Nat → List Byte
  | 0, _ => []
  | n + 1, v => BitVec.ofNat 8 v :: leBytes n (v / 256)

/-- The value of little-endian bytes (R9). -/
def leNat : List Byte → Nat
  | [] => 0
  | b :: l => b.toNat + 256 * leNat l

/-- The 32-bit little-endian words of a list of bytes (R9); a part of a word at the end is none. -/
def leWords : List Byte → List (BitVec 32)
  | a :: b :: c :: d :: l => BitVec.ofNat 32 (leNat [a, b, c, d]) :: leWords l
  | _ => []

/-- Puts bytes into a list of bytes at an offset. -/
def putBytes (l : List Byte) (off : Nat) (b : List Byte) : List Byte :=
  l.take off ++ b ++ l.drop (off + b.length)

/-- The bytes of a structure of `size` bytes with the given fields; bytes not listed are 0. -/
def fieldBytes (size : Nat) (fs : List Fld) : List Byte :=
  fs.foldl (fun l f => putBytes l f.1 (leBytes f.2.1 f.2.2)) (List.replicate size 0)

/-- One step of the reflected CRC-32C (R47) over a byte. -/
def crcByte (crc : BitVec 32) (b : Byte) : BitVec 32 :=
  (List.range 8).foldl
    (fun c _ => if c.getLsbD 0 then (c >>> 1) ^^^ 0x82F63B78#32 else c >>> 1) (crc ^^^ b.setWidth 32)

/-- CRC-32C with the parameters of R47: reflected 0x1EDC6F41, initial and final XOR all ones. -/
def crc32c (bytes : List Byte) : BitVec 32 := ~~~ (bytes.foldl crcByte 0xFFFFFFFF#32)

/-- The bytes of a bit vector, most significant byte first (R47). -/
def beBytes (n : Nat) (v : Nat) : List Byte := (leBytes n v).reverse

/-- Slot time in ns of a mode, times 10 (Table 1 of The Usrubry Line Format). -/
def slotTime10 : LineMode → Nat
  | .l100 => 512
  | .l100s => 512
  | .l100x => 512
  | .l50 => 1024
  | .l25 => 2048

/-- Whether the hub core runs: not in reset, boot, POST hold, Off, Deep Sleep, with REFCLK present (R412) and no
internal scan that shifts it (R506). In Sleep and in the restore from it, it runs on the bypass (R425). -/
def hubRuns (s : State) : Bool :=
  s.clk.refclkOk && s.sec.jtag != some .hubScan &&
    match s.pwr.st with
    | .run => true
    | .idle => true
    | .sleep => true
    | .entering _ => true
    | .restoring x => x == 2
    | .ibex => true
    | _ => false

/-- Whether the device serves traffic: Run or Idle. -/
def inService (s : State) : Bool :=
  match s.pwr.st with
  | .run => true
  | .idle => true
  | _ => false

/-- Whether the line dies are powered and their herds run. -/
def herdsRun (s : State) : Bool :=
  s.clk.refclkOk && !s.flt.fixedHold &&
    match s.pwr.st with
    | .run => true
    | .idle => true
    | .entering _ => true
    | _ => false

/-- Whether a port's line symbol clocks run: its herd PLL is locked (R410). -/
def lineClocked (s : State) (p : PortId) : Bool := herdsRun s && (getPll s (pllHerd (herdOf p))).locked

/-- Whether the context store is available to a port or herd of a channel (R144). -/
def storeUp (s : State) (c : ChanId) : Bool :=
  (getDdr s c).trained && !(getDdr s c).selfRefresh && !(getDdr s c).failed && !s.fw.mgmtDown

end Sys2Proof.Machine
end

