-- ==== Sys2Proof/WellFormed.lean ====
section
/-!
DEFINITION. Which terms of `Instr` stand for something a sender can send: a host command carries its row's OPCODE,
names its row's target, and its operands are its PARAMS read little-endian (R9); what a descriptor, a slot, a codeword or
an engine delivers has the size the spec gives it. The meanings are total; these checks are for the sender.
-/

namespace Sys2Proof

/-- TARGET of an object (R287, Table 13). -/
def targetCode : Target → BitVec 16
  | .port p => BitVec.ofNat 16 p.val
  | .herd h => BitVec.ofNat 16 (0x4000 + h.val)
  | .hub => 0x7FFF

/-- OPCODE and TARGET of the rows that are host commands (R305). -/
def hostRow : Instr → Option (Cmd × Nat × Target)
  | .portConfig c p _ _ => some (c, 0x0101, .port p)
  | .portCommit c t => some (c, 0x0102, t)
  | .portEnable c p => some (c, 0x0103, .port p)
  | .portDisable c p => some (c, 0x0104, .port p)
  | .portTrain c p => some (c, 0x0105, .port p)
  | .portRestart c p => some (c, 0x0106, .port p)
  | .portLoopbackOff c p => some (c, 0x0107, .port p)
  | .portLoopbackDigital c p => some (c, 0x0107, .port p)
  | .portLoopbackRemote c p => some (c, 0x0107, .port p)
  | .herdMode c h _ => some (c, 0x0201, .herd h)
  | .herdTiming c h _ => some (c, 0x0202, .herd h)
  | .ctxSave c p _ => some (c, 0x0301, .port p)
  | .ctxLoad c p _ _ => some (c, 0x0302, .port p)
  | .ctxPin c p _ => some (c, 0x0303, .port p)
  | .ctxUnpin c p _ => some (c, 0x0304, .port p)
  | .ctxEvict c p _ => some (c, 0x0305, .port p)
  | .ctxList c t => some (c, 0x0306, t)
  | .diagPassive c p _ => some (c, 0x0401, .port p)
  | .diagChamois c p _ _ => some (c, 0x0402, .port p)
  | .obsSelect c h _ _ => some (c, 0x0501, .herd h)
  | .obsLoadBank c h _ _ _ => some (c, 0x0502, .herd h)
  | .obsSwap c h _ => some (c, 0x0503, .herd h)
  | .obsStart c h _ _ _ => some (c, 0x0504, .herd h)
  | .obsStop c h => some (c, 0x0505, .herd h)
  | .calRun c t _ => some (c, 0x0601, t)
  | .bistRun c h => some (c, 0x0701, .herd h)
  | .statRead c t => some (c, 0x0801, t)
  | .statSnapshot c _ _ => some (c, 0x0802, .hub)
  | .lpiConfig c p _ _ _ _ => some (c, 0x0901, .port p)
  | .lanePrbs c p _ _ _ _ _ _ _ => some (c, 0x0A01, .port p)
  | .laneTrain c p => some (c, 0x0A02, .port p)
  | .laneLoopbackOff c p => some (c, 0x0A03, .port p)
  | .laneLoopbackNear c p => some (c, 0x0A03, .port p)
  | .laneLoopbackFar c p => some (c, 0x0A03, .port p)
  | .pwrStateSleep c => some (c, 0x0B01, .hub)
  | .pwrStateDeepSleep c => some (c, 0x0B01, .hub)
  | .pwrStateOff c => some (c, 0x0B01, .hub)
  | .pwrLevel c _ _ => some (c, 0x0B02, .hub)
  | .fltArm c _ _ _ _ _ => some (c, 0x0C01, .hub)
  | .fltAck c _ _ => some (c, 0x0C02, .hub)
  | .fltReadLog c _ _ _ _ _ => some (c, 0x0C03, .hub)
  | .fwStage c _ => some (c, 0x0D01, .hub)
  | .fwActivateSchedule c _ _ => some (c, 0x0D02, .hub)
  | .fwActivateConfirm c => some (c, 0x0D02, .hub)
  | .fwActivateCancel c => some (c, 0x0D02, .hub)
  | .fwFallback c _ => some (c, 0x0D03, .hub)
  | .fwStatus c => some (c, 0x0D04, .hub)
  | .secAttest c _ => some (c, 0x0E01, .hub)
  | .secDebugUnlock c _ => some (c, 0x0E02, .hub)
  | .timeSet c _ _ => some (c, 0x0F01, .hub)
  | .timeAdjustJump c _ => some (c, 0x0F02, .hub)
  | .timeAdjustSlew c _ => some (c, 0x0F02, .hub)
  | _ => none

/-- The fields of PARAMS that a host command's operands are: offset, size, value (Tables 4 to 12 of Command
Reference). -/
def rowParams : Instr → List Fld
  | .portConfig _ _ n es =>
    (0, 1, n.toNat) :: es.zipIdx.flatMap fun e => [(8 + 8 * e.2, 2, e.1.1.toNat), (12 + 8 * e.2, 4, e.1.2.toNat)]
  | .portLoopbackDigital _ _ => [(0, 1, 1)]
  | .portLoopbackRemote _ _ => [(0, 1, 2)]
  | .herdMode _ _ m => [(0, 1, m.toNat)]
  | .herdTiming _ _ n => [(0, 1, n.toNat)]
  | .ctxSave _ _ n => [(0, 1, n.toNat)]
  | .ctxLoad _ _ k _ => [(0, 6, k.partner.toNat), (8, 4, k.sig.toNat)]
  | .ctxPin _ _ k => [(0, 6, k.partner.toNat), (8, 4, k.sig.toNat)]
  | .ctxUnpin _ _ k => [(0, 6, k.partner.toNat), (8, 4, k.sig.toNat)]
  | .ctxEvict _ _ k => [(0, 6, k.partner.toNat), (8, 4, k.sig.toNat)]
  | .diagPassive _ _ n => [(0, 1, n.toNat)]
  | .diagChamois _ _ a b => [(0, 1, a.toNat), (1, 1, b.toNat)]
  | .obsSelect _ _ a b => [(0, 1, a.toNat), (1, 1, b.toNat)]
  | .obsLoadBank _ _ a n _ => [(0, 1, a.toNat), (2, 2, n.toNat)]
  | .obsSwap _ _ n => [(0, 2, n.toNat)]
  | .obsStart _ _ m n t => [(0, 1, m.toNat), (4, 4, n.toNat), (8, 8, t.toNat)]
  | .calRun _ _ n => [(0, 1, n.toNat)]
  | .statSnapshot _ n rs =>
    (0, 1, n.toNat) :: rs.zipIdx.flatMap fun e => [(4 + 4 * e.2, 2, e.1.1.toNat), (6 + 4 * e.2, 2, e.1.2.toNat)]
  | .lpiConfig _ _ a b d t => [(0, 1, a.toNat), (1, 1, b.toNat), (2, 1, d.toNat), (4, 4, t.toNat)]
  | .lanePrbs _ _ a g k i l m v =>
    [(0, 1, a.toNat), (1, 1, g.toNat), (2, 1, k.toNat), (3, 1, i.toNat), (4, 1, l.toNat), (5, 1, m.toNat),
        (6, 1, v.toNat)]
  | .laneLoopbackNear _ _ => [(0, 1, 1)]
  | .laneLoopbackFar _ _ => [(0, 1, 2)]
  | .pwrStateSleep _ => [(0, 1, 2)]
  | .pwrStateDeepSleep _ => [(0, 1, 3)]
  | .pwrStateOff _ => [(0, 1, 4)]
  | .pwrLevel _ a b => [(0, 1, a.toNat), (1, 1, b.toNat)]
  | .fltArm _ a b d n w => [(0, 2, a.toNat), (2, 1, b.toNat), (3, 1, d.toNat), (4, 2, n.toNat), (8, 4, w.toNat)]
  | .fltAck _ r a => [(0, 4, r.toNat), (4, 1, a.toNat)]
  | .fltReadLog _ l f n _ _ => [(0, 1, l.toNat), (4, 4, f.toNat), (8, 4, n.toNat)]
  | .fwActivateSchedule _ t _ => [(8, 8, t.toNat)]
  | .fwActivateConfirm _ => [(0, 1, 1)]
  | .fwActivateCancel _ => [(0, 1, 2)]
  | .fwFallback _ t => [(8, 8, t.toNat)]
  | .secAttest _ n => [(0, 32, n.toNat)]
  | .timeSet _ v a => [(0, 8, v.toNat), (8, 1, a.toNat)]
  | .timeAdjustJump _ n => [(0, 4, n.toNat), (4, 1, 1)]
  | .timeAdjustSlew _ n => [(0, 4, n.toNat)]
  | _ => []

/-- A host command carries its OPCODE, its TARGET, and its operands in PARAMS. -/
def commandOk (i : Instr) : Bool :=
  match hostRow i with
  | some (c, code, t) =>
    c.opcode == BitVec.ofNat 16 code && c.target == targetCode t && c.params == Machine.fieldBytes 48 (rowParams i)
  | none => true

/-- A line slot has samples and codes of four pairs (R4). -/
def slotOk (s : RxSlot) : Bool := s.samples.length == 4 && s.agc.length == 4

/-- A diagnostic finds four pairs (R235). -/
def findingOk (f : DiagFinding) : Bool := f.pairs.length == 4

/-- A header of 4,096 bytes, a token of 3,988 (R465, R501). -/
def headerOk (h : ImageHeader) : Bool := h.raw >>> 32768 == 0

/-- The lists that a row's operands hold have the lengths of their formats. -/
def shapeOk : Instr → Bool
  | .portConfig _ _ _ entries => entries.length == 5
  | .statSnapshot _ _ ranges => ranges.length == 10
  | .doorbellWrite _ _ work => work.all fun w => w.descs.all fun d => d.length == 64 || d.length == 32
  | .lineSlotReceived _ slot => slotOk slot
  | .chamoisStepEnd _ f => findingOk f
  | .fwStage _ img => headerOk img.header
  | .chainHeader _ h => headerOk h
  | .ibexI3cFrame (.header _ h) => headerOk h
  | .secDebugUnlock _ tok => tok.raw >>> 31904 == 0
  | .chainBody _ _ bytes => decide (1 ≤ bytes) && decide (bytes ≤ 4092)
  | _ => true

/-- A term that a sender can send. -/
def wellFormed (i : Instr) : Bool := commandOk i && shapeOk i

end Sys2Proof
end

