-- ==== Sys2Proof/Machine/Operands.lean ====
section
/-!
DEFINITION. The operand forms: status codes (R308), the PORT.CONFIG parameters with their defaults and ranges (R315),
the opcode table of the ring engine's checks (R305 to R307, R288), the registers' fields, ranges and reset values
(R353 to R371), and the bit fields of words that commands carry.
-/

namespace Sys2Proof.Machine

/-! ### Status codes (R308, Table 1) -/

def stOk : BitVec 8 := 0x00
def stBusyTest : BitVec 8 := 0x01
def stBusyTraining : BitVec 8 := 0x02
def stRefused : BitVec 8 := 0x03
def stFadeBusy : BitVec 8 := 0x04
def stBankRunning : BitVec 8 := 0x05
def stNoPartner : BitVec 8 := 0x06
def stBlockOff : BitVec 8 := 0x07
def stBadParam : BitVec 8 := 0x08
def stSuperseded : BitVec 8 := 0x09
def stAuthFail : BitVec 8 := 0x0A
def stTimeout : BitVec 8 := 0x0B
def stNotSupported : BitVec 8 := 0x0C
def stContextMiss : BitVec 8 := 0x0D
def stNoResource : BitVec 8 := 0x0E
def stSessionBusy : BitVec 8 := 0x0F
def stImageRefused : BitVec 8 := 0x10

/-- RESULT of ST_BAD_PARAM for a descriptor field (R309). -/
def resField (off : Nat) : BitVec 64 := BitVec.ofNat 64 off

/-- RESULT of ST_BAD_PARAM for a staged parameter of a port commit (R309, R336). -/
def resParam (id : Nat) : BitVec 64 := BitVec.ofNat 64 (0xFFFF + id * 0x10000)

/-- RESULT of ST_BAD_PARAM for a staged parameter in a herd commit: port number and bit 48 (R336). -/
def resParamPort (id : Nat) (p : PortId) : BitVec 64 :=
  BitVec.ofNat 64 (0xFFFF + id * 0x10000 + p.val * 0x100000000 + 0x1000000000000)

/-- RESULT of ST_BAD_PARAM for a data-out word (R309). -/
def resWord (i : Nat) : BitVec 64 := BitVec.ofNat 64 (0xFFFE + i * 0x100000000)

/-- RESULT of ST_BAD_PARAM for a data-in buffer that is too small (R309). -/
def resSmall (need : Nat) : BitVec 64 := BitVec.ofNat 64 (0xFFFD + need * 0x100000000)

/-! ### PORT.CONFIG parameters (R315, Table 3) -/

/-- The parameter IDs in ascending order. -/
def paramIds : List Nat :=
  [0x01, 0x02, 0x03, 0x04, 0x05, 0x06, 0x07, 0x08, 0x10, 0x11, 0x12, 0x13, 0x14, 0x15, 0x16, 0x17, 0x20, 0x21, 0x22,
   0x30, 0x31, 0x32, 0x33, 0x34, 0x35, 0x36, 0x37, 0x38, 0x40, 0x41, 0x42, 0x43]

/-- Defaults (R134, R75, R84, R67, Table 10 of Echo, Crosstalk and Equalisation, R145, R156, R51, R193, R200, R228). -/
def paramDefault (id : Nat) : BitVec 32 :=
  match id with
  | 0x01 => 8
  | 0x02 => 1
  | 0x05 => 3
  | 0x06 => 1
  | 0x07 => 30
  | 0x08 => 2048
  | 0x10 => 8
  | 0x11 => 130
  | 0x12 => 10
  | 0x13 => 1
  | 0x14 => BitVec.ofInt 32 (-240)
  | 0x15 => 10
  | 0x16 => 1000
  | 0x17 => 1000
  | 0x20 => 10
  | 0x21 => 1
  | 0x22 => 900
  | 0x31 => 2
  | 0x32 => 2
  | 0x35 => 170
  | 0x36 => 1
  | 0x40 => 20
  | 0x41 => 480
  | 0x43 => 30
  | _ => 0

/-- A value from lo to hi on a step counted from lo. -/
def inStep (v lo hi step : Nat) : Bool := decide (lo ≤ v) && decide (v ≤ hi) && decide ((v - lo) % step = 0)

/-- Ranges and steps of the parameters (the rules of `paramDefault`; R314: a value off its step is out of range). -/
def paramOk (id : Nat) (value : BitVec 32) : Bool :=
  let v := value.toNat
  match id with
  | 0x01 => inStep v 0 255 1
  | 0x02 => inStep v 0 1 1
  | 0x03 => inStep v 0 1 1
  | 0x04 => inStep v 0 2 1
  | 0x05 => inStep v 1 3 1
  | 0x06 => inStep v 0 1 1
  | 0x07 => inStep v 10 80 5
  | 0x08 => inStep v 64 4096 1
  | 0x10 => inStep v 4 16 1
  | 0x11 => inStep v 100 180 5
  | 0x12 => inStep v 0 600 1
  | 0x13 => inStep v 0 1 1
  | 0x14 => decide (-400 ≤ value.toInt) && decide (value.toInt ≤ -60) && decide (value.toInt % 10 = 0)
  | 0x15 => inStep v 5 60 5
  | 0x16 => inStep v 100 60000 1
  | 0x17 => inStep v 100 60000 1
  | 0x20 => inStep v 0 1440 1
  | 0x21 => inStep v 0 1 1
  | 0x22 => inStep v 700 1000 25
  | 0x30 => inStep v 0 1 1
  | 0x31 => inStep v 1 3 1
  | 0x32 => inStep v 1 3 1
  | 0x33 => inStep v 0 1 1
  | 0x34 => inStep v 0 1 1
  | 0x35 => inStep v 120 220 5
  | 0x36 => inStep v 0 1 1
  | 0x37 => inStep v 0 255 1
  | 0x38 => inStep v 0 1 1
  | 0x40 => inStep v 0 100 5
  | 0x41 => inStep v 400 600 1
  | 0x42 => inStep v 0 2000 1
  | 0x43 => inStep v 10 200 1
  | _ => false

/-- A parameter's value in a set: a listed value, else its default (R333). -/
def paramGet (set : Tab (BitVec 32)) (id : Nat) : BitVec 32 := tabGet (paramDefault id) set id

/-- A live parameter of a port as a number. -/
def livePar (x : Port) (id : Nat) : Nat := (paramGet x.live id).toNat

/-- A parameter that takes effect from the next negotiation attempt (R134): its value at the attempt's start. -/
def attPar (x : Port) (id : Nat) : Nat := (paramGet x.att id).toNat

/-- MODE_SET contains only L25. -/
def onlyL25 (modes : BitVec 5) : Bool := modes == 0x10

/-- The first parameter of a set, in ascending ID, that fails its range or a check of R335 against a MODE_SET;
`lane25` says that the lane itself runs 25GAUI (R193). -/
def firstBadParam (set : Tab (BitVec 32)) (modes : BitVec 5) (lane25 : Bool) : Option Nat :=
  paramIds.find? fun id =>
    !paramOk id (paramGet set id) ||
    (onlyL25 modes && decide (id = 0x05) && !(paramGet set id).getLsbD 1) ||
    ((onlyL25 modes || lane25) && (decide (id = 0x33) || decide (id = 0x34)) && paramGet set id == 1)

/-- Two parameter sets have the same values. -/
def sameSet (a b : Tab (BitVec 32)) : Bool := paramIds.all fun id => paramGet a id == paramGet b id

/-! ### The opcode table of the ring engine -/

/-- What data a command uses (R288, check 4). -/
inductive DataKind where
  | none
  | dataIn
  | dataOut
  deriving DecidableEq, Repr

/-- A row of the command tables: object kinds it takes, PARAMS bytes it uses as (offset, length), data, FORCE. -/
structure OpInfo where
  port  : Bool
  herd  : Bool
  hub   : Bool
  used  : List (Nat × Nat)
  data  : DataKind
  force : Bool
  deriving DecidableEq, Repr

/-- A command that takes a port. -/
def opPort (used : List (Nat × Nat)) : OpInfo :=
  { port := true, herd := false, hub := false, used := used, data := .none, force := false }

/-- A command that takes a herd. -/
def opHerd (used : List (Nat × Nat)) : OpInfo :=
  { port := false, herd := true, hub := false, used := used, data := .none, force := false }

/-- A command that takes the hub. -/
def opHub (used : List (Nat × Nat)) : OpInfo :=
  { port := false, herd := false, hub := true, used := used, data := .none, force := false }

/-- The PARAMS bytes of a CTX key (R318). -/
def keyBytes : List (Nat × Nat) := [(0, 6), (8, 4)]

/-- Tables 4 to 15 of Command Reference by OPCODE (R305). -/
def opInfo (code : Nat) : Option OpInfo :=
  match code with
  | 0x0101 => some (opPort [(0, 1), (8, 2), (12, 4), (16, 2), (20, 4), (24, 2), (28, 4), (32, 2), (36, 4), (40, 2),
      (44, 4)])
  | 0x0102 => some { opPort [] with herd := true }
  | 0x0103 => some (opPort [])
  | 0x0104 => some (opPort [])
  | 0x0105 => some { opPort [] with force := true }
  | 0x0106 => some (opPort [])
  | 0x0107 => some (opPort [(0, 1)])
  | 0x0201 => some (opHerd [(0, 1)])
  | 0x0202 => some (opHerd [(0, 1)])
  | 0x0301 => some (opPort [(0, 1)])
  | 0x0302 => some (opPort keyBytes)
  | 0x0303 => some (opPort keyBytes)
  | 0x0304 => some (opPort keyBytes)
  | 0x0305 => some (opPort keyBytes)
  | 0x0306 => some { opPort [] with hub := true, data := .dataIn }
  | 0x0401 => some { opPort [(0, 1)] with data := .dataIn }
  | 0x0402 => some { opPort [(0, 2)] with data := .dataIn, force := true }
  | 0x0501 => some (opHerd [(0, 2)])
  | 0x0502 => some { opHerd [(0, 1), (2, 2)] with data := .dataOut }
  | 0x0503 => some (opHerd [(0, 2)])
  | 0x0504 => some { opHerd [(0, 1), (4, 4), (8, 8)] with data := .dataIn }
  | 0x0505 => some (opHerd [])
  | 0x0601 => some { opPort [(0, 1)] with herd := true, force := true }
  | 0x0701 => some { opHerd [] with force := true }
  | 0x0801 => some { opPort [] with herd := true, hub := true, data := .dataIn }
  | 0x0802 => some { opHub [(0, 1), (4, 40)] with data := .dataIn }
  | 0x0901 => some (opPort [(0, 3), (4, 4)])
  | 0x0A01 => some (opPort [(0, 7)])
  | 0x0A02 => some (opPort [])
  | 0x0A03 => some (opPort [(0, 1)])
  | 0x0B01 => some (opHub [(0, 1)])
  | 0x0B02 => some (opHub [(0, 2)])
  | 0x0C01 => some (opHub [(0, 6), (8, 4)])
  | 0x0C02 => some (opHub [(0, 5)])
  | 0x0C03 => some { opHub [(0, 1), (4, 8)] with data := .dataIn }
  | 0x0D01 => some { opHub [] with data := .dataOut }
  | 0x0D02 => some (opHub [(0, 1), (8, 8)])
  | 0x0D03 => some (opHub [(8, 8)])
  | 0x0D04 => some { opHub [] with data := .dataIn }
  | 0x0E01 => some { opHub [(0, 32)] with data := .dataIn }
  | 0x0E02 => some { opHub [] with data := .dataOut }
  | 0x0F01 => some (opHub [(0, 9)])
  | 0x0F02 => some (opHub [(0, 5)])
  | _ => none

/-- Whether PARAMS byte i is used by a row. -/
def usedByte (used : List (Nat × Nat)) (i : Nat) : Bool :=
  used.any fun r => decide (r.1 ≤ i) && decide (i < r.1 + r.2)

/-- The descriptor offset of the first unused PARAMS byte that is not 0 (R306). -/
def firstUnused (used : List (Nat × Nat)) (params : List Byte) : Option Nat :=
  ((List.range 48).find? fun i => !usedByte used i && params.getD i 0 != 0).map (0x10 + ·)

/-- PARAMS byte i as a number. -/
def paramByte (d : CmdDesc) (i : Nat) : Nat := (d.params.getD i 0).toNat

/-- The object a TARGET field names (R287, Table 13). -/
def targetOf (t : BitVec 16) : Option Target :=
  if h : t.toNat < 0x200 then some (.port ⟨t.toNat, by omega⟩)
  else if h : 0x4000 ≤ t.toNat ∧ t.toNat < 0x4040 then some (.herd ⟨t.toNat - 0x4000, by omega⟩)
  else if t == 0x7FFF then some .hub
  else none

/-- Whether an opcode takes a target's object kind. -/
def takesTarget (o : OpInfo) : Target → Bool
  | .port _ => o.port
  | .herd _ => o.herd
  | .hub => o.hub

/-- The herd whose controller runs a target's commands (R23). -/
def targetHerd : Target → Option HerdId
  | .port p => some (herdOf p)
  | .herd h => some h
  | .hub => none

/-- OPCODEs whose rows are split by a field that must lie in a range (R310 check 3): its PARAMS offset, its least and
its greatest value. -/
def modeRange (code : Nat) : Option (Nat × Nat × Nat) :=
  match code with
  | 0x0107 => some (0, 0, 2)
  | 0x0A03 => some (0, 0, 2)
  | 0x0B01 => some (0, 2, 4)
  | 0x0D02 => some (0, 0, 2)
  | 0x0F02 => some (4, 0, 1)
  | _ => none

/-! ### Registers (R353 to R371) -/

/-- Where a BAR0 offset lies (R353, Table 1). -/
inductive RegLoc where
  | hub (o : Nat)
  | ring (r : RingId) (o : Nat)
  | vec (v : Fin 2048)
  | herd (h : HerdId) (o : Nat)
  | port (p : PortId) (o : Nat)
  | none
  deriving DecidableEq, Repr

/-- The region of a BAR0 offset. -/
def regLoc (off : Nat) : RegLoc :=
  if off < 0x800 then .hub off
  else if h : 0x400000 ≤ off ∧ off < 0x500000 then
    .ring ⟨(off - 0x400000) / 64, by omega⟩ ((off - 0x400000) % 64)
  else if h : 0x500000 ≤ off ∧ off < 0x502000 then .vec ⟨(off - 0x500000) / 4, by omega⟩
  else if h : 0x800000 ≤ off ∧ off < 0x840000 then
    .herd ⟨(off - 0x800000) / 0x1000, by omega⟩ ((off - 0x800000) % 0x1000)
  else if h : 0x2000000 ≤ off ∧ off < 0x4000000 then
    .port ⟨(off - 0x2000000) / 0x10000, by omega⟩ ((off - 0x2000000) % 0x10000)
  else .none

/-- BAR0 offset of a register of a ring's window (R274). -/
def ringOff (r : RingId) (o : Nat) : Nat := 0x400000 + 64 * r.val + o

/-- BAR0 offset of RING_VEC_MOD of a vector (R304). -/
def vecOff (v : Nat) : Nat := 0x500000 + 4 * v

/-- BAR0 offset of a register of a herd block (R353). -/
def herdOff (h : HerdId) (o : Nat) : Nat := 0x800000 + 0x1000 * h.val + o

/-- BAR0 offset of a register of a port block (R353). -/
def portOff (p : PortId) (o : Nat) : Nat := 0x2000000 + 0x10000 * p.val + o

/-- Reset value of the RW and RWS fields of a register (Tables 3 to 12, Tables 5 to 9 and 18 of Rings). -/
def regReset (off : Nat) : BitVec 32 :=
  match regLoc off with
  | .hub 0x03C => 8
  | .hub 0x108 => 1
  | .hub 0x208 => 0x04000000
  | .hub 0x400 => 1000
  | .hub 0x418 => 100
  | .hub 0x500 => 0xD0
  | .hub 0x504 => 0xD0
  | .hub 0x508 => 0xD0
  | .hub 0x50C => 0xD0
  | .hub 0x510 => 0xD0
  | .hub 0x514 => 0xD0
  | .hub 0x518 => 0xD0
  | .hub 0x51C => 0xD0
  | .hub 0x520 => 0x0320C832
  | .hub 0x700 => 0x14A
  | .hub 0x704 => 0x1430
  | .hub 0x708 => 3
  | .ring _ 0x08 => 0x30
  | .vec _ => 0x10000
  | _ => 0

/-- The RW and RWS bits of a register; 0 where it has none. 64-bit registers have their own rows (R13). -/
def regMask (off : Nat) : BitVec 32 :=
  match regLoc off with
  | .hub 0x020 => 0xFFFFFFFF
  | .hub 0x024 => 0xFFFFFFFF
  | .hub 0x028 => 0xFFFFFFFF
  | .hub 0x02C => 0xFFFFFFFF
  | .hub 0x03C => 0x1F
  | .hub 0x108 => 0x3
  | .hub 0x208 => 0xFFFF03FF
  | .hub 0x300 => 0xFFFFF000
  | .hub 0x304 => 0xFFFFFFFF
  | .hub 0x308 => 1
  | .hub 0x400 => 0xFFFFF
  | .hub 0x404 => 0xFFFFFFFF
  | .hub 0x408 => 0xFFFFFFFF
  | .hub 0x418 => 0xFF
  | .hub 0x500 => 0xFF
  | .hub 0x504 => 0xFF
  | .hub 0x508 => 0xFF
  | .hub 0x50C => 0xFF
  | .hub 0x510 => 0xFF
  | .hub 0x514 => 0xFF
  | .hub 0x518 => 0xFF
  | .hub 0x51C => 0xFF
  | .hub 0x520 => 0x3FFFFFFF
  | .hub 0x700 => 0x37F
  | .hub 0x704 => 0x3FFF1
  | .hub 0x708 => 0x3
  | .ring _ 0x00 => 0xFFFFF000
  | .ring _ 0x04 => 0xFFFFFFFF
  | .ring _ 0x08 => 0x7FFFF
  | .ring _ 0x0C => 0x07FF3FFF
  | .ring _ 0x10 => 1
  | .vec _ => 0x03FF03FF
  | .port _ 0x0100 => 3
  | _ => 0

/-- A bit field of a word. -/
def fld (v : BitVec 32) (lo width : Nat) : Nat := (v.toNat >>> lo) % 2 ^ width

/-- Whether every field of a write lies in its stated range (R355). -/
def regOk (off : Nat) (v : BitVec 32) : Bool :=
  match regLoc off with
  | .hub 0x03C => inStep (fld v 0 5) 2 20 1
  | .hub 0x208 => decide (1 ≤ fld v 16 16) && !(decide (fld v 0 4 = 11) && decide (7 < fld v 4 6))
  | .hub 0x400 => decide (fld v 0 20 = 0) || inStep (fld v 0 20) 10 1000000 1
  | .hub 0x404 => decide (v = 0) || inStep v.toNat 100 86400000 1
  | .hub 0x408 => decide (v = 0) || inStep v.toNat 100 86400000 1
  | .hub 0x418 => inStep (fld v 0 8) 70 110 1
  | .hub 0x700 => inStep (fld v 0 7) 8 0x77 1
  | .hub 0x704 => inStep (fld v 4 4) 2 9 1 && inStep (fld v 8 8) 10 255 1
  | .ring _ 0x08 => decide (fld v 0 3 ≤ 4) && inStep (fld v 3 5) 6 16 1 && decide (fld v 8 2 ≤ 2)
  | _ => true

/-- Registers whose fields are RWS: they keep their value through SYSRST_N (R10, R359). -/
def regSticky (off : Nat) : Bool :=
  (decide (0x020 ≤ off) && decide (off ≤ 0x02C)) || (decide (0x500 ≤ off) && decide (off ≤ 0x520))

/-- Registers of retention bank 0 (R372, Table 13). -/
def bank0Regs : List Nat := [0x400, 0x404, 0x408, 0x418, 0x108, 0x03C, 0x704, 0x708, 0x020, 0x024, 0x028, 0x02C]

/-- Registers of retention bank 3. -/
def bank3Regs : List Nat := [0x500, 0x504, 0x508, 0x50C, 0x510, 0x514, 0x518, 0x51C, 0x520]

/-- The stored value of a register's RW and RWS fields. -/
def regVal (s : State) (off : Nat) : BitVec 32 := tabGet (regReset off) s.regs off

/-- Stores a register's RW and RWS fields; reserved and read-only bits are not stored (R11). -/
def regStore (s : State) (off : Nat) (v : BitVec 32) : State :=
  { s with regs := tabSet s.regs off (v &&& regMask off) }

/-- A 64-bit register pair's value (R12). -/
def reg64 (s : State) (off : Nat) : BitVec 64 := (regVal s (off + 4)) ++ (regVal s off)

/-! ### Ring settings (Tables 5 to 8 of Rings, Doorbells and Interrupts) -/

def ringType (s : State) (r : RingId) : Nat := fld (regVal s (ringOff r 0x08)) 0 3
def ringLog2 (s : State) (r : RingId) : Nat := fld (regVal s (ringOff r 0x08)) 3 5
def ringSize (s : State) (r : RingId) : Nat := 2 ^ ringLog2 s r
def ringBindKind (s : State) (r : RingId) : Nat := fld (regVal s (ringOff r 0x08)) 8 2
def ringBindId (s : State) (r : RingId) : Nat := fld (regVal s (ringOff r 0x08)) 10 9
def ringCq (s : State) (r : RingId) : RingId :=
  ⟨fld (regVal s (ringOff r 0x0C)) 0 14, Nat.mod_lt _ (by decide)⟩
def ringVector (s : State) (r : RingId) : Nat := fld (regVal s (ringOff r 0x0C)) 16 11
def ringBase (s : State) (r : RingId) : BitVec 64 := reg64 s (ringOff r 0)

/-- Size of a ring's entries in bytes (R270, Table 2). -/
def entrySize (s : State) (r : RingId) : Nat := if ringType s r = 0 then 64 else 32

/-- Address of an entry of a ring: its memory is contiguous from BASE (R270). -/
def entryAddr (s : State) (r : RingId) (index : BitVec 16) : BitVec 64 :=
  ringBase s r + BitVec.ofNat 64 (entrySize s r * index.toNat)

/-! ### Descriptors (R9, R287, R294) -/

/-- A little-endian field of a structure's bytes, as a number; bytes past the end are 0 (R9). -/
def byteField (b : List Byte) (off size : Nat) : Nat := leNat ((List.range size).map fun i => b.getD (off + i) 0)

/-- A command descriptor from its 64 bytes (Table 13). -/
def cmdDescOf (b : List Byte) : CmdDesc :=
  { opcode := BitVec.ofNat 16 (byteField b 0x00 2), flags := BitVec.ofNat 16 (byteField b 0x02 2),
    target := BitVec.ofNat 16 (byteField b 0x04 2), dataRing := BitVec.ofNat 16 (byteField b 0x06 2),
    tag := BitVec.ofNat 64 (byteField b 0x08 8), params := (List.range 48).map fun i => b.getD (0x10 + i) 0 }

/-- A data descriptor from its 32 bytes (Table 16). -/
def dataDescOf (b : List Byte) : DataDesc :=
  { addr := BitVec.ofNat 64 (byteField b 0x00 8), length := BitVec.ofNat 32 (byteField b 0x08 4),
    flags := BitVec.ofNat 16 (byteField b 0x0C 2), tag := BitVec.ofNat 64 (byteField b 0x10 8),
    rsvdZero := byteField b 0x0E 2 == 0 && byteField b 0x18 8 == 0 }

/-- The binding of an object: BIND_KIND and BIND_ID (R272). -/
def bindOf : Target → Nat × Nat
  | .hub => (0, 0)
  | .herd h => (1, h.val)
  | .port p => (2, p.val)

/-- Whether a ring is bound to an object. -/
def boundTo (s : State) (r : RingId) (t : Target) : Bool :=
  ringBindKind s r == (bindOf t).1 && ringBindId s r == (bindOf t).2

/-- Whether a command ring's binding carries a target (R272, Table 3). -/
def carries (s : State) (r : RingId) (t : Target) : Bool :=
  match ringBindKind s r, t with
  | 0, _ => true
  | 1, .herd h => ringBindId s r == h.val
  | 1, .port p => ringBindId s r == (herdOf p).val
  | 2, .port p => ringBindId s r == p.val
  | _, _ => false

/-- The ACTIVE ring of a type bound to an object, if there is one (R273 allows at most one of types 2 and 3). -/
def activeRing (s : State) (type : Nat) (t : Target) : Option RingId :=
  (s.io.rings.find? fun e =>
    if h : e.1 < 16384 then
      e.2.st == .active && ringType s ⟨e.1, h⟩ == type && boundTo s ⟨e.1, h⟩ t
    else false).bind fun e => if h : e.1 < 16384 then some ⟨e.1, h⟩ else none

/-- The data ring a command uses: DATA_RING, or for 0xFFFF the target's data-in ring (R287), if it is an ACTIVE ring
of the type needed (R288, check 4). -/
def dataRingOf (s : State) (c : Cmd) (t : Target) (type : Nat) : Option RingId :=
  if c.dataRing == 0xFFFF then (if type = 3 then activeRing s 3 t else none)
  else if h : c.dataRing.toNat < 16384 then
    if (getRing s ⟨c.dataRing.toNat, h⟩).st == .active && ringType s ⟨c.dataRing.toNat, h⟩ == type
    then some ⟨c.dataRing.toNat, h⟩ else none
  else none

/-! ### Words that commands and receivers carry -/

/-- FORCE, FLAGS bit 0 (R307). -/
def forced (c : Cmd) : Bool := c.flags.getLsbD 0

/-- A bit field of a wide word as a number. -/
def wfld {w : Nat} (v : BitVec w) (lo width : Nat) : Nat := (v.toNat >>> lo) % 2 ^ width

end Sys2Proof.Machine
end

