-- ==== Sys2Proof/Machine/Flags.lean ====
section
/-!
DEFINITION. Flag words and the layouts of what the device writes: completion, event and fault records, mirror blocks
(R292, R296, R388, R342 and their tables). Multi-byte fields are little-endian (R9).
-/

namespace Sys2Proof.Machine

/-- The µs left of a span of `total` µs that began at a moment of the model's run, at least 1. -/
def usLeft (s : State) (startMono total : Nat) : Nat := max 1 (total - (s.mono - startMono) / 1000)

/-- The 35 ms of an in-field self-test (R458), in µs. -/
def testUs : Nat := 35000

/-- µs of self-test left in a herd; 0 outside self-test (R310, TEST_REMAINING). -/
def testLeft (s : State) (h : HerdId) : Nat :=
  match (getHerd s h).test with
  | some t => if (getHerd s h).st == .selfTest then usLeft s t.startMono testUs else 0
  | none => 0

/-! ### Margins and flags of blocks -/

/-- Smallest of four margins, as signed numbers (R226: the port margin). -/
def lowestMargin (q : Quad (BitVec 16)) : BitVec 16 :=
  (quadList q).foldl (fun m x => if x.toInt < m.toInt then x else m) q.a

/-- A pair's margin as the mirror reports it: 0x8000 while the port is not in UP (R226). -/
def pairMargin (x : Port) (i : PairId) : BitVec 16 :=
  if x.st == .up then (quadGet x.pairs i).margin else 0x8000

/-- The port margin as the mirror reports it (R226). -/
def portMargin (x : Port) : BitVec 16 :=
  if x.st == .up then lowestMargin (quadMap (·.margin) x.pairs) else 0x8000

/-- ADAPT_LEVEL of a pair: the lower of its cancellers' and its equalisers' level (R82). -/
def adaptLevel (q : Pair) : Nat := min q.canLevel q.eqLevel

/-- Port states in which a pair's adaptation fields are live (R85): SPRINGBOK, T1 to T3, UP. -/
def adapts (x : Port) : Bool :=
  match x.st with
  | .springbok => true
  | .t1 => true
  | .t2 => true
  | .t3 => true
  | .up => true
  | _ => false

/-- FREEZE_CAUSE of a pair (R84, Table 9): LEVEL_DIVERSITY and SLICER_ERROR as judged, LPI_QUIET, FW_ACTIVATION and
TRAINING_WINDOW (Table 8: in T1 a part of each pair is always frozen) from the port's and herd's state. -/
def freezeBits (s : State) (p : PortId) (q : Pair) : BitVec 5 :=
  let x := getPort s p
  (q.freeze &&& 0x06) ||| BitVec.ofNat 5
    (bit (x.lpi.st == .quiet) + 8 * bit ((getHerd s (herdOf p)).st == .fwRestart) + 16 * bit (x.st == .t1))

/-- SHADOW_PENDING of a port (R334). -/
def portPending (x : Port) : Bool := !sameSet x.shadow x.live

/-- SHADOW_PENDING of a herd (R334). -/
def herdPending (x : Herd) : Bool := x.shModeSet != x.modeSet || x.shPolicy != x.policy

/-- Whether a port is under in-field self-test or in a self-test's end states, so that its block shows TEST. -/
def testing (s : State) (h : HerdId) : Bool := (getHerd s h).st == .selfTest

/-! ### Records -/

/-- A completion record (R292, Table 15). KIND: 1 COMMAND, 2 DATA_IN, 3 DATA_OUT. -/
def completionFields (r : Completion) (phase : Bool) : List Fld :=
  [(0x00, 2, r.opcode.toNat), (0x02, 1, r.status.toNat), (0x03, 1, bit phase + 2 * r.kind.toNat), (0x04, 2, r.ring.val),
   (0x06, 2, r.index.toNat), (0x08, 8, r.tag.toNat), (0x10, 8, r.result.toNat), (0x18, 8, r.time.toNat)]

/-- An event record (R296, Table 17). -/
def eventFields (e : Event) (phase overrun : Bool) : List Fld :=
  [(0x00, 2, e.source), (0x02, 1, bit phase + 2 * bit overrun + 4 * bit e.conseq), (0x04, 4, e.gen.toNat),
   (0x08, 8, e.time.toNat)] ++ e.payload.map fun f => (0x10 + f.1, f.2.1, f.2.2)

/-- FLAGS of a fault record (R388, Table 5); bit 5 is the state of the cause when the log is read. -/
def fltFlags (r : FltRec) (holds : Bool) : Nat :=
  bit r.conseq + 2 * bit r.promoted + 4 * bit r.escalated + 8 * bit r.first + 16 * bit r.acked + 32 * bit holds +
  64 * bit r.fixed + 128 * bit r.network + 256 * bit r.deferred + 512 * bit r.subsumed + 1024 * bit r.injected +
  2048 * bit r.pin

/-- A fault record (R388, Table 5) at an offset of a result. -/
def fltFields (base : Nat) (r : FltRec) (holds : Bool) : List Fld :=
  [(base, 4, r.record.toNat), (base + 4, 2, r.source.toNat), (base + 6, 1, r.cls.toNat), (base + 7, 1, r.level.toNat),
   (base + 8, 2, fltFlags r holds), (base + 10, 1, r.reaction.toNat), (base + 12, 2, scopeCode r.scope),
   (base + 14, 2, r.count.toNat), (base + 16, 4, r.link.toNat), (base + 20, 4, r.detail.toNat),
   (base + 24, 8, r.time.toNat)]

/-- An unacknowledged record; one at L0 is acknowledged as it is written (R382). -/
def unacked (r : FltRec) : Bool := !r.acked

/-- Whether the hub SRAM holds the volatile log (R389): Deep Sleep and Off take its power. Log 38. -/
def logHeld (s : State) : Bool :=
  match s.pwr.st with
  | .deepSleep => false
  | .off => false
  | .restoring n => n == 2
  | _ => true

/-- FAULT_N is driven low while an unacknowledged record has PIN set, and from a fixed reaction on until its record is
written (R395, R397), and in POST hold (R523). -/
def faultPin (s : State) : Bool :=
  (logHeld s && s.flt.volatile.any fun r => unacked r && r.pin) || !s.flt.latch.isEmpty || s.pwr.st == .postHold

/-- Records not yet acknowledged. -/
def unackedCount (s : State) : Nat := (s.flt.volatile.filter unacked).length

/-! ### Register words -/

/-- RING_STATE (Table 10 of Rings, Doorbells and Interrupts). -/
def ringStateWord (x : Ring) : Nat :=
  ringCode x.st + 4 * bit x.armed + 8 * bit x.phase + 0x100 * x.errCause.toNat

/-- Whether a herd's blocks show a fixed reaction's hold (R545). -/
def heldByFixed (s : State) : Bool := s.flt.fixedHold

/-- PORT_STATE as blocks and registers show it: 10 (SAFE) during a fixed reaction's hold (R545). -/
def shownPort (s : State) (p : PortId) : Nat :=
  if heldByFixed s then 10 else portCode (getPort s p).st

/-- A port as its blocks show it: neither UP nor adapting during a fixed reaction's hold (R85, R202, R226, R545). -/
def shownX (s : State) (p : PortId) : Port :=
  if heldByFixed s then { getPort s p with st := .safe, lpi := Lpi.reset } else getPort s p

/-- LANE_STATE as blocks and registers show it: electrical idle during a fixed reaction's hold (R395). -/
def shownLane (s : State) (p : PortId) : Nat :=
  if heldByFixed s then 0 else laneCode (getPort s p).lane.st

/-- HERD_STATE as blocks and registers show it. -/
def shownHerd (s : State) (h : HerdId) : Nat :=
  if heldByFixed s then 2 else herdCode (getHerd s h).st

/-- LEAD_PORT: 0xFF outside TRUNK_SLAVE and HANDOVER (R55). -/
def leadCode (x : Herd) : Nat :=
  match x.timing, x.lead with
  | .trunkSlave, some k => k.val
  | .handover, some k => k.val
  | _, _ => 0xFF

/-- RESOLVED_MODE: 0xFF while unresolved (R106). -/
def resolvedCode (x : Herd) : Nat :=
  match x.resolved with
  | some m => modeCode m
  | none => 0xFF

/-! ### Mirror blocks -/

/-- The parameter that EVENT_GEN and the mirror show of a source's GENERATION (R351). -/
def genOf (s : State) (src : Nat) : BitVec 32 := tabGet 0 s.io.gens src

/-- ADC rate of a line mode in 5 kS/s (Table 1 of The Usrubry Line Format). -/
def adcRate : LineMode → Nat
  | .l100 => 5312500
  | .l100s => 5312500
  | .l100x => 5625000
  | .l50 => 2656250
  | .l25 => 1328125

/-- FADE_REMAINING (R258). -/
def fadeLeft (x : Herd) : Nat := if x.obs.st == .fading then x.obs.fadeLen - x.obs.fadeGone else 0

/-- A port block without its header (Table 6 of Staging, Commit and the Status Mirror). -/
def portBlock (s : State) (p : PortId) : List Fld :=
  let x := shownX s p
  let up := x.st == .up
  [(0x10, 2, p.val), (0x12, 1, shownPort s p), (0x13, 1, x.startPath.toNat), (0x14, 1, x.attempts % 256),
   (0x15, 1, x.lastAbort.toNat), (0x16, 1, x.lastDown.toNat), (0x17, 1, roleCode x.role),
   (0x18, 1, if up then modeCode x.mode else 0xFF), (0x19, 1, if up then x.fec.toNat else 0xFF),
   (0x1A, 1, shownLane s p), (0x1B, 1, lpiCode x.lpi.st), (0x1C, 1, loopCode x.loop),
   (0x1D, 1, diagCode x.diag.st), (0x1E, 1, bit x.partnerSeen + 2 * bit (portPending x)), (0x1F, 1,
       x.lane.retries.toNat),
   (0x20, 8, x.partner.toNat), (0x28, 4, if up then x.sig.toNat else 0), (0x2C, 4, x.linkGen.toNat),
   (0x30, 4, x.cfgGen.toNat), (0x34, 4, (persGet x 0xC8).toNat % 2 ^ 32),
   (0x38, 2, if x.fec = 0 then x.dp.hostPpm.toNat else 0), (0x3A, 2, (portMargin x).toNat),
   (0x3C, 2, (pairMargin x 0).toNat), (0x3E, 2, (pairMargin x 1).toNat), (0x40, 2, (pairMargin x 2).toNat),
   (0x42, 2, (pairMargin x 3).toNat)] ++
  (List.finRange 4).map (fun i => (0x44 + i.val, 1, if adapts x then adaptLevel (quadGet x.pairs i) else 0)) ++
  (List.finRange 4).map (fun i =>
    (0x48 + i.val, 1, if adapts x then (freezeBits s p (quadGet x.pairs i)).toNat else 0)) ++
  [(0x50, 8, x.upTime.toNat), (0x58, 8, x.stTime.toNat)] ++
  (List.range 16).map (fun n => (0xC0 + 4 * n, 4, (genOf s (portSrc p n)).toNat))

/-- TRUNK_PARTNER: DEVICE_TAG in [38:0], partner herd in [45:40] (Table 7 of Staging, Commit and the Status Mirror). -/
def trunkCode (x : Herd) : Nat :=
  match x.trunk with
  | some (t, _) => t.toNat % 2 ^ 39 + (t.toNat / 2 ^ 39) * 2 ^ 40
  | none => 0

/-- A herd block without its header (Table 7). -/
def herdBlock (s : State) (h : HerdId) : List Fld :=
  let x := getHerd s h
  [(0x10, 1, h.val), (0x11, 1, resolvedCode x), (0x12, 1, x.modeSet.toNat), (0x13, 1, bit x.policy),
   (0x14, 1, timingCode x.timing), (0x15, 1, leadCode x), (0x16, 1, shownHerd s h),
   (0x17, 1, (getDie s (dieOfHerd h)).level), (0x18, 4, x.handovers.toNat), (0x1C, 4, x.cfgGen.toNat),
   (0x20, 4, x.image.toNat), (0x24, 4, testLeft s h), (0x28, 1, obsCode x.obs.st), (0x29, 1, x.obs.source),
   (0x2A, 1, x.obs.decim), (0x2B, 1, bit x.obs.sel), (0x2C, 2, fadeLeft x), (0x2E, 1, bit (herdPending x)),
   (0x30, 8, x.obs.suppressed.toNat), (0x38, 8, x.obs.dropped.toNat), (0x40, 8, trunkCode x)]

/-- POWER_STATE: 0 Run, 1 Idle (Table 8). -/
def powerCode (s : State) : Nat := if s.pwr.st == .idle then 1 else 0

/-- D2D_UP, one bit per die. -/
def d2dBits (s : State) : Nat :=
  (List.finRange 8).foldl (fun n d => n + bit (getDie s d).d2dUp * 2 ^ d.val) 0

/-- Bit c: DDR5 channel c is trained and in service. -/
def ddrBits (s : State) : Nat :=
  (List.finRange 2).foldl (fun n c => n + bit (storeUp s c) * 2 ^ c.val) 0

/-- The hub block without its header (Table 8). -/
def hubBlock (s : State) : List Fld :=
  [(0x10, 1, powerCode s), (0x11, 1, d2dBits s), (0x12, 1, ddrBits s), (0x13, 1, bit (faultPin s)),
   (0x14, 4, s.io.lastEpoch.toNat), (0x18, 4, s.fw.running.hub.version.toNat), (0x1C, 4, unackedCount s)] ++
  (List.finRange 8).map (fun d => (0x20 + d.val, 1, (getDie s d).level)) ++
  (List.finRange 8).map (fun d => (0x28 + 2 * d.val, 2, (getDie s d).temp.toNat)) ++ [(0x38, 2, s.hubTemp.toNat)]

/-- The global generation block without its header (Table 4). -/
def gensBlock (s : State) : List Fld :=
  (s.io.gens.filter fun e => decide (8192 ≤ e.1)).map fun e => (0x10 + 4 * (e.1 - 8192), 4, e.2.toNat)

/-- Number of a block in the mirror area: hub 0, generations 1, herds from 2, ports from 66. -/
def blockNo : MirrorObj → Nat
  | .hub => 0
  | .gens => 1
  | .herd h => 2 + h.val
  | .port p => 66 + p.val

/-- Offset of a block in the mirror area (Table 4). -/
def blockOff : MirrorObj → Nat
  | .hub => 0
  | .gens => 0x800
  | .herd h => 0x1000 + 0x100 * h.val
  | .port p => 0x8000 + 0x100 * p.val

/-- KIND of a block (Table 5). -/
def blockKind : MirrorObj → Nat
  | .hub => 0
  | .herd _ => 1
  | .port _ => 2
  | .gens => 3

/-- The die whose link loss makes a block stale (R347). -/
def blockDie : MirrorObj → Option DieId
  | .herd h => some (dieOfHerd h)
  | .port p => some (dieOf p)
  | _ => none

/-- Whether a block carries STALE = 1 (R347). -/
def isStale (s : State) (o : MirrorObj) : Bool :=
  match blockDie o with
  | some d => tabGet false s.io.stale d.val
  | none => false

/-- The EVENT_GEN entry of a source in its object's block (Table 6, Table 4). -/
def genEntry (src : Nat) (g : BitVec 32) : Fld :=
  if src < 8192 then (0xC0 + 4 * (src % 16), 4, g.toNat) else (0x10 + 4 * (src - 8192), 4, g.toNat)

/-- The TIME and the body of a block's present state. -/
def liveFields (s : State) (o : MirrorObj) : List Fld :=
  (8, 8, (now s).toNat) ::
    match o with
    | .hub => hubBlock s
    | .gens => gensBlock s
    | .herd h => herdBlock s h
    | .port p => portBlock s p

/-- Fields with one entry replaced. -/
def putFld (l : List Fld) (f : Fld) : List Fld := (l.filter fun e => e.1 != f.1) ++ [f]

/-- The fields of a block after SEQ: the rest of its header (Table 5) and its body. A stale block shows STALE and the
last state the hub knew (R347). -/
def blockFields (s : State) (o : MirrorObj) : List Fld :=
  if isStale s o then
    [(4, 1, blockKind o), (5, 1, 1), (6, 2, 1)] ++ tabGet [] s.io.known (blockNo o)
  else [(4, 1, blockKind o), (5, 1, 0), (6, 2, 1)] ++ liveFields s o

end Sys2Proof.Machine
end

