-- ==== Sys2Proof/Machine/Dsp.lean ====
section
/-!
DEFINITION. What each pair's receiver computes (03, R59 to R81, R84, R94): transmit references and their transforms,
canceller estimates and their subtraction, FFE, DFE and slicer, the L100X inner decoder, adaptation, SNR windows and the
timing loop. Scales of the fixed-point numbers, and the values that the spec's widths leave open: log 54.
-/

namespace Sys2Proof.Machine

/-! ### Widths (R65, Table 3) -/

/-- A result at a width of Table 3: itself where it fits, else a free value. -/
def narrow (w : Nat) (x : Int) : BitVec w :=
  if (BitVec.ofInt w x).toInt = x then BitVec.ofInt w x else BitVec.ofInt w (Config.overflow w x)

/-- A held 20-bit coefficient, sign-extended to 32 bits (Table 2 of Channel Contexts). -/
def held (x : Int) : BitVec 32 := (narrow 20 x).signExtend 32

/-- The 8 bits through which a held coefficient is applied (R65). -/
def applied (h : Int) : Int := h / 4096

/-- A coefficient of a pair section, by its byte offset. -/
def coefGet (t : Tab (BitVec 32)) (off : Nat) : Int := (tabGet 0 t off).toInt

/-! ### Decibels -/

/-- Whether num/den is at least n tenths of a dB, as a power ratio. -/
def atLeastDb (num den : Nat) (n : Int) : Bool :=
  if 0 ≤ n then decide (10 ^ n.toNat * den ^ 100 ≤ num ^ 100) else decide (den ^ 100 ≤ num ^ 100 * 10 ^ (-n).toNat)

/-- Bisection for the last tenth of a dB that a ratio reaches, from `lo`, which it does, to below `lo + 2^fuel`. -/
def dbSearch (num den : Nat) : Nat → Int → Int
  | 0, lo => lo
  | k + 1, lo => dbSearch num den k (if atLeastDb num den (lo + 2 ^ k) then lo + 2 ^ k else lo)

/-- A power ratio in whole tenths of a dB, rounded down, from −102.4 to +102.3 dB. Log 54. -/
def powerDb (num den : Nat) : Int := if num = 0 then -1024 else dbSearch num den 11 (-1024)

/-! ### Geometry of the pair section (Table 2 of Channel Contexts; R59, R60, Table 1) -/

/-- Cancellers of a pair: echo, NEXT of the three other pairs in ascending order, six bundle slots. -/
inductive Canceller where
  | echo
  | next (k : Fin 3)
  | slot (k : Fin 6)
  deriving DecidableEq, Repr

/-- Partitions of 64 symbols that a canceller has: its span (R60). -/
def partitions (m : LineMode) : Canceller → Nat
  | .echo => if m = .l100s then 8 else 16
  | .next _ => 4
  | .slot _ => 2

/-- Byte offset of a canceller's coefficients; 520 bytes per partition, 8 per bin. -/
def cancellerBase : Canceller → Nat
  | .echo => 0
  | .next k => 0x2080 + 2080 * k.val
  | .slot k => 0x38E0 + 1040 * k.val

/-- Number of a canceller's first partition among the 40 of a pair. -/
def firstPartition : Canceller → Nat
  | .echo => 0
  | .next k => 16 + 4 * k.val
  | .slot k => 28 + 2 * k.val

/-- Offsets of partition exponents, FFE taps, the DFE coefficient, FFE_MAIN_TAP and the smoothed reference power. -/
def expBase : Nat := 0x5140
def ffeBase : Nat := 0x51C0
def dfeOff : Nat := 0x5240
def mainTapOff : Nat := 0x5244
def powerBase : Nat := 0x5280

/-- The cancellers of a pair in order of their partitions. -/
def cancellers : List Canceller :=
  [.echo] ++ (List.finRange 3).map .next ++ (List.finRange 6).map .slot

/-- The other pair that NEXT canceller k of pair i removes. -/
def nextPair (i : PairId) (k : Fin 3) : PairId := if k.val < i.val then ⟨k.val, by omega⟩ else ⟨k.val + 1, by omega⟩

/-- Canceller span in 0.1 ns (R60, Table 2): its symbols at the mode's symbol rate, rounded to the nearest. -/
def spanTenthNs (m : LineMode) (c : Canceller) : Nat :=
  let kbd := match m with
    | .l100 => 13281250
    | .l100s => 13281250
    | .l100x => 14062500
    | .l50 => 6640625
    | .l25 => 3320312
  (64 * partitions m c * 10000000 + kbd / 2) / kbd

/-! ### Transmit reference (R61, R62, R64) -/

/-- A symbol's reference: its DAC code divided by 4 (R62). -/
def refOf (code : Int) : BitVec 6 := narrow 6 (code / 4)

/-- The transform of a block, after the block before it (overlap-save, R61). -/
def refBlock (before now_ : List (BitVec 6)) : RefBlock :=
  let l := before ++ now_
  if l.all (· == 0) then { symbols := now_, exp := 0, bins := List.replicate 65 (0, 0) }
  else
    let t := Config.transform (l.map (·.toInt))
    { symbols := now_, exp := BitVec.ofNat 4 t.1,
      bins := (List.range 65).map fun k => (narrow 6 (t.2.getD k (0, 0)).1, narrow 6 (t.2.getD k (0, 0)).2) }

/-- Whole blocks leave what has been gathered; `n` bounds them. -/
def gatherBlocks : Nat → PairDsp → PairDsp
  | 0, d => d
  | n + 1, d =>
    if 128 ≤ d.gather.length then
      gatherBlocks n { d with gather := d.gather.drop 64
                              ahead := d.ahead ++ [refBlock (d.gather.take 64) ((d.gather.drop 64).take 64)] }
    else d

/-- A block in which the pair sends nothing. -/
def quietBlock : RefBlock := { symbols := List.replicate 64 0, exp := 0, bins := List.replicate 65 (0, 0) }

/-- The next block reaches the line: the last 16 are kept, with those whose errors are still to come (R61). -/
def advance (d : PairDsp) : PairDsp :=
  { d with ahead := d.ahead.drop 1, hist := (d.ahead.headD quietBlock :: d.hist).take (16 + d.lag) }

/-- Blocks that no received symbol has called for reach the line all the same, beyond two slots' worth. -/
def overtake : Nat → PairDsp → PairDsp
  | 0, d => d
  | n + 1, d => if 24 < d.ahead.length then overtake n (advance d) else d

/-- Transmitted symbols enter the reference (R61, R62): each block of 64 is transformed once. -/
def pushRef (d : PairDsp) (codes : List Int) : PairDsp :=
  let g := if d.gather.isEmpty then List.replicate 64 0 else d.gather
  let n := codes.length / 64 + 1
  overtake n (gatherBlocks n { d with gather := g ++ codes.map refOf })

/-! ### Estimates (R59, R63, R65, R69, R71) -/

/-- A mantissa with its block exponent. -/
def binVal (b : RefBlock) (k : Nat) : Int × Int :=
  let v := b.bins.getD k (0, 0)
  (v.1.toInt * 2 ^ b.exp.toNat, v.2.toInt * 2 ^ b.exp.toNat)

/-- A partition of a canceller with the reference block it multiplies: offset of its coefficients, its number, block. -/
structure Term where
  base  : Nat
  part  : Nat
  block : RefBlock
  deriving DecidableEq, Repr

/-- The partitions of a canceller over its reference, newest block first. -/
def termsOf (m : LineMode) (c : Canceller) (blocks : List RefBlock) : List Term :=
  (List.range (partitions m c)).map fun k =>
    { base := cancellerBase c + 520 * k, part := firstPartition c + k, block := blocks.getD k quietBlock }

/-- The coefficients of one partition that are not 0. -/
def partCoefs (t : Tab (BitVec 32)) (base : Nat) : Tab (BitVec 32) :=
  t.filter fun e => decide (base ≤ e.1) && decide (e.1 < base + 520)

/-- Adds a partition's product in one bin to the accumulators (22 bits per part). -/
def addBin (t : Tab (BitVec 32)) (k : Nat) (acc : Int × Int) (x : Term) : Int × Int :=
  let wr := applied (coefGet t (x.base + 8 * k))
  let wi := applied (coefGet t (x.base + 8 * k + 4))
  let e := (tabGet 0 t (expBase + x.part)).toNat % 16
  let v := binVal x.block k
  (acc.1 + (wr * v.1 - wi * v.2) * 2 ^ e, acc.2 + (wr * v.2 + wi * v.1) * 2 ^ e)

/-- One block of estimate: the products of all partitions added bin by bin, one inverse transform (R59, R63). -/
def estimate (t : Tab (BitVec 32)) (terms : List Term) : List (BitVec 12) :=
  let terms := terms.filter fun x => !(partCoefs t x.base).isEmpty
  let bins := (List.range 65).map fun k =>
    let a := terms.foldl (addBin t k) (0, 0)
    ((narrow 22 a.1).toInt, (narrow 22 a.2).toInt)
  if bins.all fun b => b.1 = 0 && b.2 = 0 then List.replicate 64 0
  else
    let l := Config.inverse bins
    (List.range 64).map fun n => narrow 12 (l.getD n 0)

/-- Reference symbols of a block on the resampled path: 8 symbols around each, at the resampler's phase (R71). -/
def resampled (phase : Int) (before now_ : List (BitVec 6)) : List (BitVec 6) :=
  let l := (before ++ now_).map (·.toInt)
  (List.range 64).map fun n =>
    let w := (l.drop (57 + n)).take 8
    if w.all (· = 0) then 0 else narrow 6 (Config.resample ((phase / 65536) % 64).toNat w)

/-- A slot after the aggressor's next block (R71): on the resampled path its own transform, the phase advanced by the
difference of the two ports' frequency words. -/
def slotAdvance (v : Slot) (aggr : List RefBlock) (freqDiff : Int) : Slot :=
  if v.resampled then
    let phase := (v.phase + freqDiff) % (64 * 65536)
    let now_ := resampled phase ((aggr.getD 1 quietBlock).symbols) ((aggr.getD 0 quietBlock).symbols)
    { v with phase := phase, blocks := (refBlock ((v.blocks.headD quietBlock).symbols) now_ :: v.blocks).take 4 }
  else v

/-- The reference of a slot: the aggressor's shared transforms at full depth, its own on the resampled path (R61,
R71). -/
def slotBlocks (v : Slot) (aggr : List RefBlock) : List RefBlock := if v.resampled then v.blocks else aggr

/-! ### FFE, DFE and slicer (R74 to R76, R79) -/

/-- ±1 on the normalised scale in units of the FFE accumulator. DESIGN CHOICE, log 54. -/
def levelUnit : Int := 1024

/-- A corrected sample in 6 bits after the digital gain (R65, R74). -/
def corrected (gain : BitVec 8) (adc : BitVec 8) (est : Int) : BitVec 6 :=
  let x := adc.toInt - est
  if gain = 0 then narrow 6 x else narrow 6 (Config.gain gain.toInt x)

/-- The second sample's estimate (R63), from those of the symbols around it. -/
def secondEstimate (w : List (BitVec 12)) : Int :=
  if w.all (· == 0) then 0 else (narrow 12 (Config.interpolate (w.map (·.toInt)))).toInt

/-- The level that the slicer decides (R76): thresholds 0 and ±2. -/
def slice (y : Int) : Int :=
  if y < -2 * levelUnit then -3 else if y < 0 then -1 else if y < 2 * levelUnit then 1 else 3

/-- The bits of a level (R39, Table 3), first bit first. -/
def levelBits (l : Int) : List Bool :=
  if l = -3 then [false, false] else if l = -1 then [false, true] else if l = 1 then [true, true] else [true, false]

/-- A pilot's offset on the normalised scale: 4 of 16 codes (R40). A receiver with superframe lock knows which symbols
are pilots and takes the offset's sign from the residual. Log 54. -/
def lessPilot (pilot : Bool) (r : Int) : Int :=
  if pilot then (if 0 ≤ r then r - levelUnit / 4 else r + levelUnit / 4) else r

/-- The equaliser's state while it runs through a slot: held FFE taps by number, held DFE coefficient, delay line, level
fed back, symbols done. -/
structure EqState where
  taps : Tab Int
  dfe  : Int
  line : List (BitVec 6)
  last : Int
  n    : Nat
  deriving DecidableEq, Repr

/-- How the equaliser adapts: binary logarithm of 1/μ (Table 7), one update every so many symbols (Tables 4 and 6). -/
structure EqMode where
  adapt : Bool
  shift : Nat
  every : Nat
  main  : Nat
  deriving DecidableEq, Repr

/-- One held coefficient after an LMS step on the slicer error (R80). -/
def lmsTap (m : EqMode) (h err x : Int) : Int :=
  (narrow 20 (h + err * x * 2 ^ Config.equaliserPoint / 2 ^ m.shift)).toInt

/-- The DFE coefficient within 0.75 of the main tap (R75). -/
def dfeBound (main h : Int) : Int := max (-(3 * main.natAbs / 4 : Int)) (min (3 * main.natAbs / 4 : Int) h)

/-- FFE and DFE after one symbol's error (R80). -/
def eqAdapt (m : EqMode) (e : EqState) (err : Int) (line : List (BitVec 6)) (before : Int) : EqState :=
  if m.adapt && decide (e.n % m.every = 0) && decide (err ≠ 0) then
    let taps := (List.range 32).foldl (fun t j => tabSet t j (lmsTap m (tabGet 0 t j) err (line.getD j 0).toInt)) e.taps
    { e with taps := taps, dfe := dfeBound (tabGet 0 taps m.main) (lmsTap m e.dfe (-err) (8 * before)) }
  else e

/-- One symbol through FFE, DFE and slicer (R75, R76, R79): two corrected samples enter the delay line. -/
def eqSymbol (m : EqMode) (pilot : Bool) (a b : BitVec 6) (e : EqState) : Dec × EqState :=
  let line := (b :: a :: e.line).take 32
  let ffe := (narrow 18 (e.taps.foldl (fun s t => s + applied t.2 * (line.getD t.1 0).toInt) 0)).toInt
  let y := ffe - applied e.dfe * 8 * e.last
  let l := slice y
  let err := narrow 8 (lessPilot pilot (y - l * levelUnit) / 8)
  let e' := eqAdapt m e err.toInt line e.last
  ({ y := y, sym := { err := err, level := l, pilot := pilot } }, { e' with line := line, last := l, n := e.n + 1 })

/-- A run of symbols, two samples each, with their pilot flags. -/
def eqRun (m : EqMode) : List (BitVec 6 × BitVec 6 × Bool) → EqState → List Dec × EqState
  | [], e => ([], e)
  | x :: l, e =>
    let t := eqSymbol m x.2.2 x.1 x.2.1 e
    let u := eqRun m l t.2
    (t.1 :: u.1, u.2)

/-! ### The L100X inner decoder (R77, R78) -/

/-- c(0) to c(135): the integers from 3 upward that are no power of two (R38). -/
def columns : List Nat := (List.range 145).filter fun n => decide (3 ≤ n) && !([4, 8, 16, 32, 64, 128].contains n)

/-- The column value of bit i of a 144-bit block: c(i) of a data bit, 2^k of check bit Pk (R38). -/
def columnOf (i : Nat) : Nat := if i < 136 then columns.getD i 0 else 2 ^ (i - 136)

/-- A hard bit with its 4-bit reliability: the equaliser output's distance from its threshold, in sixteenths of a level
spacing's half (R77, Table 3). Log 54. -/
def reliability (dist : Int) : Nat := min 15 (dist.natAbs * 16 / levelUnit.toNat)

/-- The two bits of a symbol with their reliabilities (R77 step 1). -/
def softBits (d : Dec) : List (Bool × Nat) :=
  let b := levelBits d.sym.level
  let near := if d.y < 0 then d.y + 2 * levelUnit else d.y - 2 * levelUnit
  [(b.getD 0 false, reliability d.y), (b.getD 1 false, reliability near)]

/-- The three least reliable bits of a block, the lower index winning a tie (R77 step 2). -/
def leastReliable : Nat → List (Nat × Nat) → List Nat
  | 0, _ => []
  | n + 1, l =>
    match l.foldl (fun m e => match m with
        | none => some e
        | some f => if e.2 < f.2 then some e else m) (none : Option (Nat × Nat)) with
    | none => []
    | some e => e.1 :: leastReliable n (l.filter fun f => f.1 != e.1)

/-- The syndrome of a block. -/
def syndrome (bits : List Bool) : Nat :=
  bits.zipIdx.foldl (fun s e => if e.1 then s ^^^ columnOf e.2 else s) 0

/-- A block with bit i inverted. -/
def flipBit (bits : List Bool) (i : Nat) : List Bool := bits.set i (!bits.getD i false)

/-- Hard decoding of a pattern (R77 step 3): the corrected block, none when the syndrome names no bit. -/
def hardDecode (bits : List Bool) : Option (List Bool) :=
  let z := syndrome bits
  if z = 0 then some bits
  else ((List.range 144).find? fun i => columnOf i = z).map (flipBit bits)

/-- Test pattern t of the eight (R77): bit k of t inverts the k-th least reliable of the three positions. DESIGN
CHOICE, log 54. -/
def testPattern (bits : List Bool) (pos : List Nat) (t : Nat) : List Bool :=
  (pos.zipIdx.filter fun e => t.testBit e.2).foldl (fun b e => flipBit b e.1) bits

/-- The sum of reliabilities where a candidate differs from the hard decisions (R77 step 4). -/
def candidateCost (soft : List (Bool × Nat)) (cand : List Bool) : Nat :=
  ((soft.zip cand).map fun e => if e.1.1 != e.2 then e.1.2 else 0).sum

/-- The verdict on an inner block: its 136 data bits, whether a bit was corrected, whether no candidate was valid. -/
structure InnerBlock where
  data : List Bool
  good : Bool
  fixed : Bool
  deriving DecidableEq, Repr

/-- One block through the decoder (R77, R78). -/
def innerDecode (soft : List (Bool × Nat)) : InnerBlock :=
  let bits := soft.map (·.1)
  let pos := leastReliable 3 (soft.zipIdx.map fun e => (e.2, e.1.2))
  let cands := (List.range 8).filterMap fun t => hardDecode (testPattern bits pos t)
  match cands.foldl (fun m c => match m with
      | none => some (candidateCost soft c, c)
      | some b => if candidateCost soft c < b.1 then some (candidateCost soft c, c) else m)
      (none : Option (Nat × List Bool)) with
  | none => { data := bits.take 136, good := false, fixed := false }
  | some b => { data := b.2.take 136, good := true, fixed := b.2 != bits }

/-- A slot's ten blocks of 144 bits (R38, R77). -/
def innerRun : Nat → List (Bool × Nat) → List InnerBlock
  | 0, _ => []
  | n + 1, l => innerDecode (l.take 144) :: innerRun n (l.drop 144)

/-! ### Canceller adaptation (R80, R81) -/

/-- −log2 of the canceller step size by level (Table 7). -/
def cancellerShift : Nat → Nat
  | 0 => 6
  | 1 => 9
  | _ => 12

/-- −log2 of the FFE and DFE step size by level (Table 7). -/
def equaliserShift : Nat → Nat
  | 0 => 8
  | 1 => 11
  | _ => 14

/-- Symbols between updates of FFE and DFE (Tables 4 and 6). -/
def equaliserEvery (level : Nat) : Nat := if level = 0 then 2 else 4

/-- Partitions of a pair in a mode, and how many of them a block updates in TRACKING and FINE (Table 4). -/
def partTotal (m : LineMode) : Nat := if m = .l100s then 32 else 40
def partsPerBlock (m : LineMode) : Nat := if m = .l100s then 4 else 8

/-- A partition's place in the rotation: L100S has no echo partitions 8 to 15. -/
def partPlace (m : LineMode) (part : Nat) : Nat := if m = .l100s && decide (8 ≤ part) then part - 8 else part

/-- Whether a block updates a partition (Tables 4 and 6): every partition every second block in ACQUISITION, a rotation
of 8, or 4 in L100S, otherwise. -/
def updates (m : LineMode) (level rot part : Nat) : Bool :=
  if level = 0 then rot % 2 = 0
  else
    let n := partTotal m / partsPerBlock m
    partPlace m part / partsPerBlock m = rot % n

/-- Whether a block constrains a partition (Tables 4 and 6): 2 per block in ACQUISITION, else 1, every 4th block in
L100S. -/
def constrains (m : LineMode) (level rot part : Nat) : Bool :=
  let q := partPlace m part
  let n := partTotal m
  if level = 0 then q = 2 * rot % n || q = (2 * rot + 1) % n
  else if m = .l100s then rot % 4 = 0 && q = rot / 4 % n
  else q = rot % n

/-- The smoothed reference power after a block: weight 2^−5 (R80). -/
def powerNext (t : Tab (BitVec 32)) (b : RefBlock) : Tab (BitVec 32) :=
  (List.range 65).foldl (fun t k =>
    let v := binVal b k
    let old := (tabGet 0 t (powerBase + 4 * k)).toNat
    let new_ : Int := old + (v.1 * v.1 + v.2 * v.2 - (old : Int)) / 32
    if new_ = old then t else tabSet t (powerBase + 4 * k) (narrow 32 new_)) t

/-- A partition after an update: bin k moves by μ · conj(X) · E / P (R80). -/
def lmsBin (shift : Nat) (p : Nat) (x e : Int × Int) (h : Int) (imag : Bool) : Int :=
  let num := if imag then x.1 * e.2 - x.2 * e.1 else x.1 * e.1 + x.2 * e.2
  h + num * 2 ^ Config.cancellerPoint / ((max 1 p : Nat) * 2 ^ shift : Int)

/-- Replaces a partition's 130 coefficients. -/
def putPart (t : Tab (BitVec 32)) (base : Nat) (w : List (Int × Int)) : Tab (BitVec 32) :=
  let keep := fun e : Nat × BitVec 32 => e.2 != 0
  (t.filter fun e => decide (e.1 < base)) ++
    ((List.range 65).flatMap fun k =>
      [(base + 8 * k, held (w.getD k (0, 0)).1), (base + 8 * k + 4, held (w.getD k (0, 0)).2)]).filter keep ++
    (t.filter fun e => decide (base + 520 ≤ e.1))

/-- One partition of the update of a block. Its 4-bit exponent (R65) is never written: who sets it the spec does not
say. DESIGN CHOICE, log 54. -/
def lmsPart (m : LineMode) (level rot : Nat) (power : Tab (BitVec 32)) (err : RefBlock) (t : Tab (BitVec 32)) (x : Term) :
    Tab (BitVec 32) :=
  let up := updates m level rot x.part
  let con := constrains m level rot x.part
  if !(up || con) then t
  else
    let w := (List.range 65).map fun k =>
      let h := (coefGet t (x.base + 8 * k), coefGet t (x.base + 8 * k + 4))
      if up then
        let p := (tabGet 0 power (powerBase + 4 * k)).toNat
        (lmsBin (cancellerShift level) p (binVal x.block k) (binVal err k) h.1 false,
         lmsBin (cancellerShift level) p (binVal x.block k) (binVal err k) h.2 true)
      else h
    if w.all fun c => c.1 = 0 && c.2 = 0 then putPart t x.base []
    else putPart t x.base (if con then Config.constrain w else w)

/-- The canceller error of a symbol (R81): the slicer error scaled by the inverse of the FFE main tap; 0 while the
applied tap is 0. DESIGN CHOICE, log 54. -/
def scaledError (main : Int) (e : BitVec 8) : Int := if applied main = 0 then 0 else e.toInt * 8 / applied main

/-- The transformed error of a block (R80): 64 zeros, then the errors at the 6 bits of a transmit reference, since
Table 3 gives no width. DESIGN CHOICE, log 54. -/
def errBlock (l : List Int) : RefBlock := refBlock (List.replicate 64 0) (l.map (narrow 6))

/-! ### SNR windows (R76, R225) -/

/-- Slicer SNR in 0.1 dB from a sum of squared errors over n symbols (R76): 10·log10(5 / mean squared error); 100.0 dB
where every error is 0. DESIGN CHOICE, log 54. -/
def slicerSnr (sq n : Nat) : Int := if sq = 0 then 1000 else powerDb (5 * n * 16384) sq

/-- Slicer SNR over the last n blocks of 64 symbols; none before there are as many. -/
def windowSnr (d : PairDsp) (n : Nat) : Option Int :=
  if d.sq.length < n then none else some (slicerSnr (d.sq.take n).sum (64 * n))

/-- 131,072-symbol windows in 100 ms (R82). -/
def windowsPer100ms : LineMode → Nat
  | .l100 => 10132
  | .l100s => 10132
  | .l100x => 10728
  | .l50 => 5066
  | .l25 => 2533

/-- The running mean of the slicer SNR (R82). -/
def meanSnr (d : PairDsp) : Option Int :=
  if d.means.isEmpty then none else some (d.means.sum / d.means.length)

/-- Position of a level in a set of seen levels. -/
def levelBit (l : Int) : Nat := ((l + 3) / 2).toNat

/-- The windows start anew. -/
def clearWindows (d : PairDsp) : PairDsp :=
  { d with sq := [], seen := 0, seenN := 0, means := [], meanN := 0, ms := [], msSq := 0, msN := 0 }

/-- LEVEL_DIVERSITY after a symbol (R84): judged when a window of 4,096 symbols ends. -/
def diversity (d : PairDsp) (freeze : Bool) (l : Int) : PairDsp × Bool :=
  let seen := d.seen ||| BitVec.ofNat 4 (2 ^ levelBit l)
  if d.seenN + 1 < 4096 then ({ d with seen := seen, seenN := d.seenN + 1 }, freeze)
  else ({ d with seen := 0, seenN := 0 }, seen != 15)

/-- Blocks of 64 symbols in 1 ms, rounded up (R122). -/
def blocksPerMs : LineMode → Nat
  | .l100 => 207520
  | .l100s => 207520
  | .l100x => 219727
  | .l50 => 103760
  | .l25 => 51880

/-- The 1 ms intervals after a block (R122). -/
def pushMs (m : LineMode) (d : PairDsp) (sq : Nat) : PairDsp :=
  if d.msN + 1 < blocksPerMs m then { d with msSq := d.msSq + sq, msN := d.msN + 1 }
  else { d with msSq := 0, msN := 0, ms := (slicerSnr (d.msSq + sq) (64 * (d.msN + 1)) :: d.ms).take 4 }

/-- A block's squared errors enter the windows. -/
def pushSq (m : LineMode) (d : PairDsp) (sq : Nat) : PairDsp :=
  let d := pushMs m { d with sq := (sq :: d.sq).take 2048, meanN := d.meanN + 1 } sq
  if d.meanN < 2048 then d
  else { d with meanN := 0, means := (slicerSnr d.sq.sum (64 * d.sq.length) :: d.means).take (windowsPer100ms m) }

/-! ### Timing recovery (R94 to R96) -/

/-- The decision-directed Mueller–Müller detector over a block. -/
def muellerMuller : List SymErr → Int
  | a :: b :: l => b.err.toInt * a.level - a.err.toInt * b.level + muellerMuller (b :: l)
  | _ => 0

/-- The timing loop's bandwidth in kHz at L100 by level (Table 7), which scales with the symbol rate. -/
def loopKHz : Nat → Int
  | 0 => 8000
  | 1 => 1000
  | _ => 250

/-- The second-order loop (R94, Table 7) at a level, from the detector's output: the move of the phase in 1/64 UI and
of the frequency word. The first goes with the bandwidth per block, 64 · 8 MHz / 13.28125 GBd in ACQUISITION, the
second with its square, and so the same per block in every mode. The two gains are free values. Log 54. -/
def timingLoop (level : Nat) (det : Int) : Int × Int :=
  let b := 64 * loopKHz level
  (det * Config.loopGain * b / 13281250, det * Config.loopGain2 * b * b / (13281250 * 13281250))

/-- The pilot-aided detector: the same product at the pilots alone, against the symbol before. -/
def pilotDetector : List SymErr → Int
  | a :: b :: l => (if b.pilot then b.err.toInt * a.level - a.err.toInt * b.level else 0) + pilotDetector (b :: l)
  | _ => 0

/-- ±200 ppm as a frequency word: 2^-22 UI per 64-symbol block (R52). Log 54. -/
def freqMax : Int := 53687

/-- A frequency word within the pull-in range (R52). -/
def clampFreq (x : Int) : Int := max (-freqMax) (min freqMax x)

/-- A phase step of at most 1/64 UI (R96). -/
def clampStep (x : Int) : Int := max (-65536) (min 65536 x)

end Sys2Proof.Machine
end

