-- ==== Sys2Proof/Machine/Format.lean ====
section
/-!
DEFINITION. The Usrubry line to the bit (02, R34 to R47): from a slot's content to DAC samples, the training signal of
Tahr (R116), and from decided bits back to ordered sets, InfoFields and RS symbols.
-/

namespace Sys2Proof.Machine

/-! ### From a slot's content to DAC codes (R36 to R41, R45) -/

/-- The bits of an RS symbol in line order, b0 first (R36). -/
def symBits (x : BitVec 10) : List Bool := (List.range 10).map x.getLsbD

/-- A word's bits, most significant first (R45, R47). -/
def msbBits {w : Nat} (x : BitVec w) : List Bool := (List.range w).map fun i => x.getLsbD (w - 1 - i)

/-- A pair's share of a slot's RS symbols: symbol j goes to pair j mod 4 (R36). -/
def pairShare (syms : List (BitVec 10)) (i : PairId) : List Bool :=
  (syms.zipIdx.filter fun e => e.2 % 4 == i.val).flatMap fun e => symBits e.1

/-- A list repeated n times. -/
def rep (n : Nat) (l : List Bool) : List Bool := (List.replicate n l).flatten

/-- The ordered sets and their codes (R45, Table 5). -/
def codeIdle : BitVec 16 := 0x4D2B
def codeSleep : BitVec 16 := 0xB1E6
def codeAlert : BitVec 16 := 0x6A95
def codeInfo : BitVec 16 := 0x9C74

/-- What a transmit slot carries. -/
inductive TxKind where
  | ordered (code : BitVec 16)
  | info
  | cw (symbols : List (BitVec 10))
  deriving DecidableEq, Repr

/-- The 1,360 bits of a slot on a pair before scrambling (R36, R45). -/
def slotBits (info : BitVec 128) (k : TxKind) (i : PairId) : List Bool :=
  match k with
  | .ordered c => rep 85 (msbBits c)
  | .info => rep 5 (msbBits codeInfo) ++ rep 10 (msbBits info)
  | .cw l => pairShare l i

/-- The scrambler x^58 + x^39 + 1 (R37): bit 0 of the register is s(−1). -/
def scramble : List Bool → BitVec 58 → List Bool × BitVec 58
  | [], r => ([], r)
  | d :: l, r =>
    let b := d ^^ r.getLsbD 38 ^^ r.getLsbD 57
    let t := scramble l ((r <<< 1) ||| BitVec.ofNat 58 (bit b))
    (b :: t.1, t.2)

/-- Check bit Pk of a block: the XOR of the data bits whose column value has bit k set (R38). -/
def checkBit (data : List Bool) (k : Nat) : Bool :=
  (data.zip columns).foldl (fun a e => a ^^ (e.1 && e.2.testBit k)) false

/-- Data blocks of 136 bits with their check bits P0 to P7 (R38). -/
def innerBlocks : Nat → List Bool → List Bool
  | 0, _ => []
  | n + 1, l =>
    let d := l.take 136
    d ++ (List.range 8).map (checkBit d) ++ innerBlocks n (l.drop 136)

/-- The Gray map to DAC codes, first bit most significant (R39, Table 3). -/
def dacCode (b1 b2 : Bool) : Int :=
  match b1, b2 with
  | false, false => -48
  | false, true => -16
  | true, true => 16
  | true, false => 48

/-- Bits in pairs as DAC codes (R39). -/
def dacCodes : List Bool → List Int
  | a :: b :: l => dacCode a b :: dacCodes l
  | _ => []

/-- DAC samples: each symbol lasts two, driven with the same code (R39). -/
def dacSamples (codes : List Int) : List Int := codes.flatMap fun c => [c, c]

/-- Symbols per pair per slot (Table 1 of The Usrubry Line Format). -/
def slotSymbols : LineMode → Nat
  | .l100x => 720
  | _ => 680

/-- Pilots per superframe and slots per superframe (R41). -/
def superPilots : LineMode → Nat
  | .l100x => 45
  | _ => 85

def superSlots : LineMode → Nat
  | .l100x => 16
  | _ => 32

/-- The markers of the four pairs (Table 4). -/
def markers : Quad (BitVec 32) := ⟨0xD3A61E5B, 0xA59CE2D1, 0xC63B58AE, 0x9E5AB1C3⟩

/-- PRBS11 x^11 + x^9 + 1 (R41), its register kept as the scrambler's is: the next bit. -/
def prbsBit (r : BitVec 11) : Bool := r.getLsbD 8 ^^ r.getLsbD 10

/-- Offsets of the pilots among symbols from symbol index `at_` on (R40, R41): `frame` gives the sign of a superframe's
frame pilot, `msg` its message bit. -/
def pilots (m : LineMode) (frame msg : Nat → Bool) (at_ : Nat) : List Int → BitVec 11 → List Int × BitVec 11
  | [], r => ([], r)
  | c :: l, r =>
    if at_ % 256 ≠ 0 then
      let t := pilots m frame msg (at_ + 1) l r
      (c :: t.1, t.2)
    else
      let k := at_ / 256
      let sf := k / superPilots m
      if k % superPilots m = 0 then
        let t := pilots m frame msg (at_ + 1) l r
        ((c + (if frame sf then -4 else 4)) :: t.1, t.2)
      else
        let b := prbsBit r
        let t := pilots m frame msg (at_ + 1) l ((r <<< 1) ||| BitVec.ofNat 11 (bit b))
        ((c + (if b ^^ msg sf then -4 else 4)) :: t.1, t.2)

/-- Sign of the frame pilot of superframe s of an alignment-marker period (R41). -/
def frameSign (marker : BitVec 32) (sf : Nat) : Bool := decide (sf < 32) && marker.getLsbD (31 - sf)

/-- One pair of one slot: DAC codes and the scrambler and pilot registers after it. -/
def pairSlot (m : LineMode) (marker : BitVec 32) (msg : Nat → Bool) (slotNo : Nat) (bits : List Bool)
    (scr : BitVec 58) (prbs : BitVec 11) : List Int × BitVec 58 × BitVec 11 :=
  let t := scramble bits scr
  let l := match m with
    | .l100x => innerBlocks 10 t.1
    | _ => t.1
  let u := pilots m (frameSign marker) msg (slotNo * slotSymbols m) (dacCodes l) prbs
  (u.1, t.2, u.2)

/-- n symbols of the training signal on a pair, from symbol `at_` of its burst or window on (R116): the scrambler's
output for all-zero input, pilots, the marker on every frame pilot, TRAIN_WORD as message bits. -/
def trainPair (m : LineMode) (marker word : BitVec 32) (at_ n : Nat) (scr : BitVec 58) (prbs : BitVec 11) :
    List Int × BitVec 58 × BitVec 11 :=
  let t := scramble (List.replicate (2 * n) false) scr
  let u := pilots m (fun sf => marker.getLsbD (31 - sf % 32)) (fun sf => word.getLsbD (31 - sf % 32)) at_ (dacCodes t.1)
    prbs
  (u.1, t.2, u.2)

/-- Symbol rate in symbols per 10 ms (Table 1: half the ADC rate). -/
def symbolsPer10ms : LineMode → Nat
  | .l100 => 132812500
  | .l100s => 132812500
  | .l100x => 140625000
  | .l50 => 66406250
  | .l25 => 33203125

/-- Whole symbols in a number of µs. -/
def symbolsIn (m : LineMode) (us : Nat) : Nat := symbolsPer10ms m * us / 10000

/-! ### From decided bits back (R36, R37, R46) -/

/-- The descrambler (R37): bit 0 of the register is s(n − 1). -/
def descramble : List Bool → BitVec 58 → List Bool × BitVec 58
  | [], r => ([], r)
  | b :: l, r =>
    let t := descramble l ((r <<< 1) ||| BitVec.ofNat 58 (bit b))
    ((b ^^ r.getLsbD 38 ^^ r.getLsbD 57) :: t.1, t.2)

/-- Bits as a number, first bit most significant. -/
def bitsNat (l : List Bool) : Nat := l.foldl (fun n b => 2 * n + bit b) 0

/-- The five leading code words of a pair (R46). -/
def leadWords (bits : List Bool) : List (BitVec 16) :=
  (List.range 5).map fun k => BitVec.ofNat 16 (bitsNat ((bits.drop (16 * k)).take 16))

/-- The class of a slot (R46): the code that at least 16 of the 20 leading words equal; none for a codeword. -/
def slotClass (lead : List (BitVec 16)) : Option (BitVec 16) :=
  [codeIdle, codeSleep, codeAlert, codeInfo].find? fun c => decide (16 ≤ (lead.take 20).count c)

/-- The InfoField copies of a pair's share of an INFO slot (R45). -/
def infoCopies (bits : List Bool) : List (List Bool) :=
  (List.range 10).map fun k => (bits.drop (80 + 128 * k)).take 128

/-- The InfoField of an INFO slot, each bit by majority over the 40 copies (R46); `tie` decides a bit of which 20 copies
hold 1. -/
def majority (copies : List (List Bool)) (tie : Nat) : BitVec 128 :=
  BitVec.ofNat 128 (bitsNat ((List.range 128).map fun i =>
    let n := copies.countP fun c => c.getD i false
    decide (20 < n) || (decide (n = 20) && tie.testBit i)))

/-- RS symbol j from the pairs' shares (R36). -/
def rsSymbol (share : PairId → List Bool) (j : Nat) : BitVec 10 :=
  let i : PairId := ⟨j % 4, Nat.mod_lt _ (by decide)⟩
  let l := (share i).drop (10 * (j / 4))
  BitVec.ofNat 10 ((List.range 10).foldl (fun n k => n + bit (l.getD k false) * 2 ^ k) 0)

/-- The 544 RS symbols of a slot. -/
def rsSymbols (share : PairId → List Bool) : List (BitVec 10) := (List.range 544).map (rsSymbol share)

/-- Bits in which two lists differ. -/
def bitDiff (a b : List Bool) : Nat := (a.zip b).countP fun e => e.1 != e.2

end Sys2Proof.Machine
end

