-- ==== Sys2Proof/Machine/Pattern.lean ====
section
/-!
DEFINITION. The host lane's pattern generator and checker to the bit (07, R194 to R196). Bits come in stretches of 5,440,
a codeword's time at the PAM-4 rates: log 60.
-/

namespace Sys2Proof.Machine

/-- Length of a pattern's polynomial (Table 7 of Host Lanes, by the codes of LANE.PRBS); SSPRQ has none. -/
def patternLength (code : BitVec 8) : Nat :=
  match code.toNat with
  | 1 => 7
  | 2 => 9
  | 3 => 13
  | 4 => 15
  | 5 => 31
  | _ => 0

/-- The next bit of a pattern from the bits before it, the newest in bit 0 (Table 7); SSPRQ by its place. -/
def patternBit (code : BitVec 8) (r : BitVec 31) : Bool :=
  match code.toNat with
  | 1 => r.getLsbD 6 ^^ r.getLsbD 5
  | 2 => r.getLsbD 8 ^^ r.getLsbD 4
  | 3 => r.getLsbD 12 ^^ r.getLsbD 11 ^^ r.getLsbD 1 ^^ r.getLsbD 0
  | 4 => r.getLsbD 14 ^^ r.getLsbD 13
  | 5 => r.getLsbD 30 ^^ r.getLsbD 27
  | _ => Config.ssprq r.toNat

/-- The register after a bit; that of SSPRQ counts the bits of its pattern, 65,535 symbols. -/
def patternShift (code : BitVec 8) (r : BitVec 31) (b : Bool) : BitVec 31 :=
  if code.toNat = 6 then BitVec.ofNat 31 ((r.toNat + 1) % 131070) else (r <<< 1) ||| BitVec.ofNat 31 (bit b)

/-- n bits of a pattern and the register after them. -/
def patternRun (code : BitVec 8) : Nat → BitVec 31 → List Bool × BitVec 31
  | 0, r => ([], r)
  | n + 1, r =>
    let b := patternBit code r
    let t := patternRun code n (patternShift code r b)
    (b :: t.1, t.2)

/-- Bits with the first n inverted (R196). -/
def invertFirst (n : Nat) (l : List Bool) : List Bool := (l.take n).map (!·) ++ l.drop n

/-- Bits as levels (R194): pairs Gray-mapped as R39 maps line symbols, one bit per symbol at 25GAUI. -/
def grayLevels : List Bool → List Int
  | a :: b :: l => dacCode a b / 16 :: grayLevels l
  | _ => []

def patternLevels (nrz : Bool) (l : List Bool) : List Int :=
  if nrz then l.map fun b => if b then 1 else -1 else grayLevels l

/-- A checker that begins to seed itself (R195); SSPRQ is found at once at a place of its own, a free value. -/
def Checker.start (code : BitVec 8) (place : Nat) : Checker :=
  { need := patternLength code, reg := BitVec.ofNat 31 (if code.toNat = 6 then place % 131070 else 0), run := 0,
    win := [],
    sym := false }

/-- What a checker has counted: bits compared, bit errors, PAM-4 symbol errors, reseeds. -/
structure Tally where
  bits  : Nat
  errs  : Nat
  syms  : Nat
  seeds : Nat
  deriving DecidableEq, Repr

/-- One received bit (R195): the checker seeds itself, declares lock after 1,024 further bits without error, reseeds
when more than 128 of the newest 1,024 bits are errors; it counts while it is locked, the error that makes it reseed
too. `first` marks the first bit of a PAM-4 symbol. -/
def checkBit1 (code : BitVec 8) (place : Nat) (first b : Bool) (t : Checker × Bool × Tally) : Checker × Bool × Tally :=
  let c := t.1
  if c.need ≠ 0 then ({ c with need := c.need - 1, reg := patternShift code c.reg b, sym := false }, t.2.1, t.2.2)
  else
    let want := patternBit code c.reg
    let err := want != b
    let win := (err :: c.win).take 1024
    let y := t.2.2
    let y := if t.2.1 then
        { y with bits := y.bits + 1, errs := y.errs + bit err
                 syms := if first then y.syms else y.syms + bit (c.sym || err) }
      else y
    if 128 < win.count true then (Checker.start code place, false, { y with seeds := y.seeds + 1 })
    else
      let run := if err then 0 else c.run + 1
      ({ c with reg := patternShift code c.reg want, run := run, win := win, sym := first && err },
       t.2.1 || decide (1024 ≤ run), y)

/-- A stretch of received bits, of whole PAM-4 symbols. -/
def checkRun (code : BitVec 8) (place : Nat) (l : List Bool) (c : Checker) (locked : Bool) : Checker × Bool × Tally :=
  l.zipIdx.foldl (fun t e => checkBit1 code place (e.2 % 2 == 0) e.1 t) (c, locked, ⟨0, 0, 0, 0⟩)

end Sys2Proof.Machine
end

