-- ==== Sys2Proof/Machine/Receiver.lean ====
section
/-!
DEFINITION. A port's receiver over a run of samples (03, R59 to R96): block by block it estimates what its four pairs
have to remove, subtracts it, equalises, decides, adapts and recovers timing. Log 54.
-/

namespace Sys2Proof.Machine

/-- The port of an aggressor, by its line pair number (R4, R66). -/
def aggrPort (h : HerdId) (a : Nat) : PortId := portOf h ⟨a / 4 % 8, Nat.mod_lt _ (by decide)⟩

/-- Whether a port's transmitter sends: not off, quiet in LPI or held in safe state (R69). -/
def sends (x : Port) : Bool :=
  ((x.line.on && !(x.st == .up && x.lpi.st == .quiet)) || x.line.train.isSome) && x.st != .safe

/-- What a bundle slot takes from its aggressor: whether it sends, its transforms, its smoothed reference power, its
port's frequency word. -/
structure Aggr where
  on    : Bool
  hist  : List RefBlock
  power : Tab (BitVec 32)
  freq  : Int
  deriving DecidableEq, Repr

/-- The aggressor of a line pair number in a herd. -/
def aggrOf (s : State) (h : HerdId) (a : Nat) : Aggr :=
  let x := getPort s (aggrPort h a)
  let q := quadGet x.pairs ⟨a % 4, Nat.mod_lt _ (by decide)⟩
  { on := sends x, hist := q.dsp.hist, power := q.coef, freq := x.freqWord.toInt }

/-- Which signal a port receives (R83, Table 8): its own T1 window, a partner window, full duplex. -/
inductive RxPhase where
  | own
  | partner
  | duplex
  deriving DecidableEq, Repr

/-- Whether the T1 window that runs is the port's own (R120). -/
def ownWindow (x : Port) : Bool := (x.role == some .master) == (x.start.window % 2 == 1)

/-- The phase in which a port receives; none while its receiver computes nothing. A slave that has sent its T0 reply
adapts on the master's window 1 before it leaves T0 (R118). -/
def rxPhase (x : Port) : Option RxPhase :=
  match x.st with
  | .t0 => if x.role == some .slave && x.start.locked then some .partner else none
  | .t1 => some (if ownWindow x then .own else .partner)
  | .t2 => some .duplex
  | .t3 => some .duplex
  | .springbok => if x.line.on then some .duplex else none
  | .up => some .duplex
  | _ => none

/-- What drives a port's frequency (R52, R55, R95): nothing on a master, its own loop, the common loop that it leads or
follows. -/
inductive FreqRole where
  | master
  | own
  | lead
  | follow
  deriving DecidableEq, Repr

def freqRole (s : State) (p : PortId) : FreqRole :=
  let y := getHerd s (herdOf p)
  if (getPort s p).role != some .slave then .master
  else match y.timing with
    | .trunkSlave => if y.lead == some ⟨p.val % 8, Nat.mod_lt _ (by decide)⟩ then .lead else .follow
    | .handover => .follow
    | .holdover => .follow
    | _ => .own

/-- What a run of samples needs beside the port: whether it is in an LPI quiet period, mode, phase, frequency role,
the aggressors, the freeze causes that do not depend on the samples, SNR_FREEZE. -/
structure RxEnv where
  quiet : Bool
  mode  : LineMode
  phase : RxPhase
  freq  : FreqRole
  aggr  : Nat → Aggr
  held  : Bool
  thr   : Int

def rxEnv (s : State) (p : PortId) (ph : RxPhase) : RxEnv :=
  let x := getPort s p
  { quiet := x.st == .up && x.lpi.st == .quiet, mode := x.mode, phase := ph, freq := freqRole s p,
    aggr := aggrOf s (herdOf p),
    held := (x.st == .up && x.lpi.st == .quiet) || (getHerd s (herdOf p)).st == .fwRestart,
    thr := Int.ofNat (livePar x 0x11) }

/-- Whether a pair's adaptation is frozen by a cause other than the training window (R84). -/
def pairHeld (e : RxEnv) (q : Pair) : Bool := e.held || q.freeze &&& 0x06 != 0

/-! ### One block of estimate (R59, R61, R63, R69, R71) -/

/-- The partitions of pair i with the references they multiply, `d` blocks back; an aggressor whose transmitter is off
contributes nothing (R69). `ahead` blocks of this run are still to come, by which an aggressor's store is ahead. -/
def pairTerms (e : RxEnv) (ps : Quad Pair) (i : PairId) (d ahead : Nat) : List Term :=
  cancellers.flatMap fun c =>
    match c with
    | .echo => termsOf e.mode c ((quadGet ps i).dsp.hist.drop d)
    | .next k => termsOf e.mode c ((quadGet ps (nextPair i k)).dsp.hist.drop d)
    | .slot k =>
      match (quadGet ps i).slots.getD k.val none with
      | none => []
      | some v =>
        let a := e.aggr v.aggressor
        if a.on then termsOf e.mode c ((slotBlocks v (a.hist.drop ahead)).drop d) else []

/-- The next block reaches the line on a pair: transform store, reference power, resampled slots. -/
def pairAdvance (e : RxEnv) (freq : Int) (ahead : Nat) (q : Pair) : Pair :=
  let d := advance q.dsp
  { q with
    dsp := { d with lag := d.lag + 1 }
    coef := powerNext q.coef (d.hist.headD quietBlock)
    slots := q.slots.map fun o => o.map fun v =>
      let a := e.aggr v.aggressor
      if a.on then slotAdvance v (a.hist.drop ahead) (a.freq - freq) else v }

/-- One block of estimates of the four pairs (R59, R61). -/
def estBlock (e : RxEnv) (freq : Int) (ahead : Nat) (ps : Quad Pair) : Quad Pair :=
  let ps := quadMap (pairAdvance e freq ahead) ps
  let f := fun i =>
    let q := quadGet ps i
    { q with dsp := { q.dsp with
        est := (if q.dsp.est.isEmpty then [0, 0, 0] else q.dsp.est) ++ estimate q.coef (pairTerms e ps i 0 ahead) } }
  ⟨f 0, f 1, f 2, f 3⟩

/-- Estimates until they reach n symbols and four beyond; three before are kept (R63). -/
def estFill (e : RxEnv) (freq : Int) (ahead n : Nat) : Nat → Quad Pair → Quad Pair
  | 0, ps => ps
  | k + 1, ps =>
    if ps.a.dsp.est.length < n + 7 then estFill e freq ahead n k (estBlock e freq ahead ps) else ps

/-! ### A run within one block (R63, R74 to R76, R79, R81) -/

/-- The corrected sample pairs of n symbols (R63). -/
def correct (q : Pair) (adc : List (BitVec 8)) (n : Nat) : List (BitVec 6 × BitVec 6) :=
  (List.range n).map fun j =>
    let w := q.dsp.est.drop j
    (corrected q.digitalGain (adc.getD (2 * j) 0) (w.getD 3 0).toInt,
     corrected q.digitalGain (adc.getD (2 * j + 1) 0) (secondEstimate (w.take 8)))

/-- The equaliser's part of a pair's coefficients. -/
def eqState (q : Pair) : EqState :=
  { taps := (List.range 32).foldl (fun t j => tabSet t j (coefGet q.coef (ffeBase + 4 * j))) []
    dfe := coefGet q.coef dfeOff, line := q.dsp.line, last := q.dsp.last, n := q.dsp.errs.length }

/-- Stores an equaliser's coefficients. -/
def putEq (t : Tab (BitVec 32)) (x : EqState) : Tab (BitVec 32) :=
  tabSet ((List.range 32).foldl (fun t j => tabSet t (ffeBase + 4 * j) (held (tabGet 0 x.taps j))) t) dfeOff (held x.dfe)

/-- How a pair's equaliser adapts now (R83, R84). -/
def eqMode (e : RxEnv) (q : Pair) : EqMode :=
  { adapt := e.phase != .own && !pairHeld e q, shift := equaliserShift q.eqLevel, every := equaliserEvery q.eqLevel,
    main := (tabGet 0 q.coef mainTapOff).toNat % 32 }

/-- Symbols of the far-end component, two samples each, into the sums of signal detect (R127). -/
def farSymbols : List (Int × Int) → Pair → Pair
  | [], q => q
  | e :: l, q =>
    let sum := q.farSum + e.1.natAbs ^ 2 + e.2.natAbs ^ 2
    farSymbols l
      (if q.farN + 1 < 64 then { q with farSum := sum, farN := q.farN + 1 }
       else { q with farSum := 0, farN := 0, far := (sum :: q.far).take 4 })

/-- The far-end component of n symbols (R127): the ADC samples less the summed estimates. -/
def farSamples (q : Pair) (adc : List (BitVec 8)) (n : Nat) : List (Int × Int) :=
  (List.range n).map fun j =>
    let w := q.dsp.est.drop j
    ((adc.getD (2 * j) 0).toInt - (w.getD 3 0).toInt, (adc.getD (2 * j + 1) 0).toInt - secondEstimate (w.take 8))

/-- The far-end component of a pair whose receiver estimates nothing (R127): the ADC samples. -/
def farQuiet (adc : List (BitVec 8)) (q : Pair) : Pair :=
  farSymbols ((List.range (adc.length / 2)).map fun j => ((adc.getD (2 * j) 0).toInt, (adc.getD (2 * j + 1) 0).toInt)) q

/-- Whether a block's rms of the far-end component is at least a number of mV (R127). Of the ADC's 256 codes one is
1,000/256 mV (full scale 1,000 mVppd, Electrical, Thermal and Package). -/
def farAtLeast (sum mv : Nat) : Bool := decide (128 * (256 * mv) ^ 2 ≤ sum * 1000000)

/-- A run of n symbols through one pair: its pair after it and its decisions. In the port's own window the error is the
corrected sample itself (R81). -/
def pairRun (e : RxEnv) (pilot : Nat → Bool) (n : Nat) (adc : List (BitVec 8)) (q : Pair) : Pair × List Dec :=
  let l := correct q adc n
  let m := eqMode e q
  let t := eqRun m (l.zipIdx.map fun x => (x.1.1, x.1.2, pilot x.2)) (eqState q)
  let errs := match e.phase with
    | .own => l.map fun c => { err := c.1.signExtend 8, level := 0, pilot := false }
    | _ => t.1.map (·.sym)
  ({ farSymbols (farSamples q adc n) q with
      coef := if m.adapt then putEq q.coef t.2 else q.coef
      nearMiss := q.nearMiss + BitVec.ofNat 64 (if e.phase == .own || e.quiet then
          0 else t.1.countP fun d => decide (96 < d.sym.err.toInt.natAbs))
      dsp := { q.dsp with est := q.dsp.est.drop n, line := t.2.line, last := t.2.last, errs := q.dsp.errs ++ errs,
                            recent := (q.dsp.recent ++ t.1).drop (q.dsp.recent.length + t.1.length - 64) } },
   t.1)

/-! ### The end of a block (R76, R80 to R84, R94 to R96) -/

/-- The level that a canceller of a pair adapts at. -/
def cancellerLevel (q : Pair) : Canceller → Nat
  | .slot k => ((q.slots.getD k.val none).map (·.level)).getD 0
  | _ => q.canLevel

/-- Whether a canceller adapts (R69, R83, Table 8): bundle slots in every window, the others not in a partner's. -/
def cancellerAdapts (e : RxEnv) (q : Pair) (c : Canceller) : Bool :=
  !pairHeld e q &&
    match c with
    | .slot _ => true
    | _ => e.phase != .partner

/-- The smoothed reference power that normalises a canceller (R80); of a resampled slot the aggressor's own. DESIGN
CHOICE, log 54. -/
def powerOf (e : RxEnv) (ps : Quad Pair) (i : PairId) : Canceller → Tab (BitVec 32)
  | .echo => (quadGet ps i).coef
  | .next k => (quadGet ps (nextPair i k)).coef
  | .slot k => (((quadGet ps i).slots.getD k.val none).map fun v => (e.aggr v.aggressor).power).getD []

/-- The canceller that a partition belongs to. -/
def cancellerOf (part : Nat) : Canceller :=
  if part < 16 then .echo
  else if h : part < 28 then .next ⟨(part - 16) / 4, by omega⟩
  else .slot ⟨(part - 28) / 2 % 6, Nat.mod_lt _ (by decide)⟩

/-- A pair's cancellers after the errors of a block (R80, R81); the references are those of the oldest block whose
errors were to come. -/
def adaptPair (e : RxEnv) (ps : Quad Pair) (i : PairId) (ahead : Nat) (blk : List SymErr) : Tab (BitVec 32) :=
  let q := quadGet ps i
  let main := coefGet q.coef (ffeBase + 4 * ((tabGet 0 q.coef mainTapOff).toNat % 32))
  let err := errBlock (blk.map fun x => if e.phase == .own then x.err.toInt else scaledError main x.err)
  (pairTerms e ps i (q.dsp.lag - 1) ahead).foldl (fun t x =>
    let c := cancellerOf x.part
    if cancellerAdapts e q c then lmsPart e.mode (cancellerLevel q c) q.dsp.rot (powerOf e ps i c) err t x
        else t) q.coef

/-- The freeze causes that the samples decide, after a block (R84, Table 9). -/
def freezeNext (e : RxEnv) (div : Bool) (d : PairDsp) (f : BitVec 5) : BitVec 5 :=
  let slic := match windowSnr d 16 with
    | some v => if v < e.thr then true
      else f.getLsbD 2 && !((windowSnr d 64).map fun v => decide (e.thr + 10 ≤ v)).getD false
    | none => f.getLsbD 2
  BitVec.ofNat 5 (2 * bit div + 4 * bit slic)

/-- SNR_REF in 0.1 dB (Table 1 of Link Monitoring). -/
def snrRef : LineMode → Int
  | .l100x => 140
  | _ => 165

/-- A pair's SNR and margin after a block (R225, R226), and its level: FINE falls to TRACKING at 1 dB below the mean of
100 ms (R82), unless frozen (R84). -/
def pairJudge (e : RxEnv) (q : Pair) : Pair :=
  match e.phase, windowSnr q.dsp 2048 with
  | .duplex, some v =>
    let low := fun (m w : BitVec 16) => if m = 0x8000 ∨ w.toInt < m.toInt then w else m
    let snr := BitVec.ofInt 16 v
    let marg := BitVec.ofInt 16 (v - snrRef e.mode)
    let q := { q with snr := snr, snrMin := low q.snrMin snr, margin := marg, marginMin := low q.marginMin marg }
    match meanSnr q.dsp with
    | some m =>
      if v ≤ m - 10 && !pairHeld e q then
        { q with canLevel := min q.canLevel 1, eqLevel := min q.eqLevel 1
                 slots := q.slots.map fun o => o.map fun w =>
                   if (e.aggr w.aggressor).on then { w with level := min w.level 1 } else w }
      else q
    | none => q
  | _, _ => q

/-- A pair at the end of a block: its windows, its freeze causes, its cancellers, its margin; in an LPI quiet period
windows, causes and margin stand (R226). -/
def pairBlockEnd (e : RxEnv) (ps : Quad Pair) (i : PairId) (ahead : Nat) : Pair :=
  let q := quadGet ps i
  let blk := q.dsp.errs.take 64
  let d := if e.quiet then q.dsp else pushSq e.mode q.dsp ((blk.map fun x => x.err.toInt.natAbs ^ 2).sum)
  let d := { d with errs := d.errs.drop 64, before := blk.getLast?, lag := d.lag - 1, rot := d.rot + 1 }
  let q := { q with coef := adaptPair e ps i ahead blk }
  if e.phase == .own || e.quiet then { q with dsp := d }
  else
    let v := blk.foldl (fun t x => diversity t.1 t.2 x.level) (d, q.freeze.getLsbD 1)
    pairJudge e { q with dsp := v.1, freeze := freezeNext e v.2 v.1 q.freeze }

/-- The detector output of a block (R94): pilots after marker lock, decisions while no pair is frozen. None holds the
phase. -/
def detector (e : RxEnv) (marker : Bool) (ps : Quad Pair) : Option Int :=
  let blk := fun (q : Pair) => q.dsp.before.toList ++ q.dsp.errs.take 64
  let mm := ((quadList ps).map fun q => muellerMuller (blk q)).sum
  let pil := if marker then ((quadList ps).map fun q => pilotDetector (blk q)).sum else 0
  if (quadList ps).any (pairHeld e) then (if marker then some pil else none) else some (mm + pil)

/-- The timing loop after a block (R52, R55, R94 to R96): a master's phase moves by at most 1/64 UI and its frequency
not at all; a slave that neither drives its own nor leads the common loop tracks phase only. -/
def timingBlock (e : RxEnv) (marker : Bool) (before : Quad Pair) (x : Port) : Port :=
  match e.phase, detector e marker before with
  | .own, _ => x
  | _, none => x
  | _, some det =>
    let held := (quadList before).any (pairHeld e)
    let level := (quadList before).foldl (fun n q => min n q.eqLevel) 2
    let t := timingLoop level det
    let freq := x.freqWord.toInt
    let free := !held && (e.freq == .own || e.freq == .lead)
    let freq' := if free then clampFreq (freq + t.2) else freq
    let step := if e.freq == .master then clampStep (65536 * t.1) else freq' + 65536 * t.1
    { x with freqWord := BitVec.ofInt 32 freq'
             pairs := quadMap (fun q => { q with phase := q.phase + BitVec.ofInt 22 step }) x.pairs }

/-- The end of a block on the four pairs. -/
def blockEnd (e : RxEnv) (ahead : Nat) (x : Port) : Port :=
  let ps := x.pairs
  timingBlock e x.lock.marker ps { x with pairs := ⟨pairBlockEnd e ps 0 ahead, pairBlockEnd e ps 1 ahead,
      pairBlockEnd e ps 2 ahead, pairBlockEnd e ps 3 ahead⟩ }

/-! ### A run of samples -/

/-- Runs of at most one block each: `done` symbols of the first block are already in. -/
def runLengths : Nat → Nat → Nat → List Nat
  | 0, _, _ => []
  | k + 1, before, n =>
    if n = 0 then []
    else
      let m := min n (64 - before % 64)
      m :: runLengths k (before + m) (n - m)

/-- One run within a block on the four pairs: the port after it, the decisions of each pair. `at_` is the run's first
symbol. -/
def runStep (e : RxEnv) (pilot : Nat → Bool) (adc : Quad (List (BitVec 8))) (at_ n ahead : Nat) (x : Port) :
    Port × Quad (List Dec) :=
  let ps := estFill e x.freqWord.toInt ahead n 2 x.pairs
  let f := fun i => pairRun e (fun k => pilot (at_ + k + (quadGet ps i).deskew.toNat)) n ((quadGet adc i).drop (2 * at_)) (quadGet ps i)
  let a := f 0
  let b := f 1
  let c := f 2
  let d := f 3
  let y := { x with pairs := ⟨a.1, b.1, c.1, d.1⟩ }
  (if y.pairs.a.dsp.errs.length < 64 then y else blockEnd e ahead y, ⟨a.2, b.2, c.2, d.2⟩)

/-- The runs of a stretch of samples in order. -/
def runAll (e : RxEnv) (pilot : Nat → Bool) (adc : Quad (List (BitVec 8))) : List Nat → Nat → Port →
    Port × Quad (List Dec)
  | [], _, x => (x, Quad.all [])
  | n :: l, at_, x =>
    let t := runStep e pilot adc at_ n l.length x
    let u := runAll e pilot adc l (at_ + n) t.1
    (u.1, quadZip (· ++ ·) t.2 u.2)

/-- A port's receiver over the samples of a stretch: the port after it and the decisions of each pair. -/
def receiveRun (s : State) (p : PortId) (ph : RxPhase) (pilot : Nat → Bool) (adc : Quad (List (BitVec 8))) (n : Nat) :
    Port × Quad (List Dec) :=
  let e := rxEnv s p ph
  let x := getPort s p
  let x := match e.freq with
    | .follow => { x with freqWord := (getHerd s (herdOf p)).loopFreq }
    | _ => x
  runAll e pilot adc (runLengths (n / 64 + 2) x.pairs.a.dsp.errs.length n) 0 x

end Sys2Proof.Machine
end

