-- ==== Sys2Proof/Machine/Rings.lean ====
section
/-!
DEFINITION. What the hub writes and how: mirror blocks (R341 to R347), events and their buffers (R297 to R299, R31,
R544), completions and buffer completions (R291 to R295), interrupts (R302 to R304), and the ring engine's parts that
every command shares.
-/

namespace Sys2Proof.Machine

/-- Whether the hub can write to host memory: it runs, management is up, Bus Master Enable is set (R286, R346). -/
def canWrite (s : State) : Bool := hubRuns s && !s.fw.mgmtDown && s.io.busMaster

/-! ### The status mirror -/

/-- HUB_MIRROR_CTRL.ENABLE. -/
def mirrorEnabled (s : State) : Bool := (regVal s 0x308).getLsbD 0

/-- Whether mirror blocks are written: none of the four cases of R346 holds. -/
def mirrorOn (s : State) : Bool :=
  mirrorEnabled s && canWrite s &&
    match s.pwr.st with
    | .run => true
    | .idle => true
    | .entering _ => !s.pwr.dark
    | _ => false

/-- Writes one block in its three ordered steps (R343). -/
def mirrorPut (s : State) (o : MirrorObj) : State :=
  let addr := reg64 s 0x300 + BitVec.ofNat 64 (blockOff o)
  let seq := tabGet 0 s.io.seqs (blockNo o)
  { s with io := { s.io with
      seqs := tabSet s.io.seqs (blockNo o) (seq + 2)
      bus := .mirrorEven addr (seq + 2) :: .mirrorBody addr (blockFields s o) :: .mirrorOdd addr (seq + 1) ::
        s.io.bus } }

/-- Rewrites a block, if the mirror is written (R345, R346). -/
def mirrorWrite (s : State) (o : MirrorObj) : State := if mirrorOn s then mirrorPut s o else s

/-- A stale block takes the generation of a record that the hub delivers (R347). -/
def knowGen (s : State) (o : MirrorObj) (src : Nat) (g : BitVec 32) : State :=
  if isStale s o then
    { s with io := { s.io with
        known := tabSet s.io.known (blockNo o) (putFld (tabGet [] s.io.known (blockNo o)) (genEntry src g)) } }
  else s

/-- Rewrites a block before an event record of a source (R345, R347). -/
def mirrorEvent (s : State) (o : MirrorObj) (src : Nat) (g : BitVec 32) : State := mirrorWrite (knowGen s o src g) o

/-- Every block of the mirror area (R342). -/
def allBlocks : List MirrorObj :=
  [.hub, .gens] ++ allHerds.map .herd ++ allPorts.map .port

/-- Writes every block (R341, R346). -/
def mirrorAll (s : State) : State := forEach allBlocks mirrorWrite s

/-- The blocks of a herd and its ports. -/
def herdBlocks (h : HerdId) : List MirrorObj := .herd h :: (portsOf h).map .port

/-- The blocks of a die's herds and ports (R347). -/
def dieBlocks (d : DieId) : List MirrorObj := (herdsOf d).flatMap herdBlocks

/-- The blocks a port's change shows in. -/
def portBlocks (p : PortId) : List MirrorObj := [.herd (herdOf p), .port p]

/-! ### Interrupts (R302 to R304) -/

/-- Unconsumed records of a device-written ring. -/
def unconsumed (s : State) (r : RingId) : Nat :=
  let x := getRing s r
  (x.dev.toNat + ringSize s r - x.host.toNat) % ringSize s r

/-- Sends a vector's message, subject to masking (R302): pending while masked; none while MSI-X is disabled. -/
def msixSend (s : State) (v : Nat) : State :=
  if s.io.msixEnable then
    if (getVec s v).masked || s.io.fnMask || !canWrite s then setVec s v { getVec s v with pending := true }
    else emit s (.msix v (getVec s v).addr (getVec s v).data)
  else s

/-- COUNT of a vector; 0 acts as 1 (Table 18). -/
def vecCount (s : State) (v : Nat) : Nat := max 1 (fld (regVal s (vecOff v)) 16 10)

/-- HOLDOFF of a vector in µs. -/
def vecHoldoff (s : State) (v : Nat) : Nat := fld (regVal s (vecOff v)) 0 10

/-- A vector's message is sent when the unconsumed records of the rings requesting it reach COUNT (R304). -/
def vecCheck (s : State) (v : Nat) : State :=
  let x := getVec s v
  if x.rings.isEmpty then s
  else if vecCount s v ≤ (x.rings.map (unconsumed s)).sum then
    msixSend (setVec s v { x with rings := [], holdoff := false }) v
  else setVec s v { x with holdoff := decide (vecHoldoff s v ≠ 0) }

/-- An armed ring that holds an unconsumed record requests its vector and is disarmed (R303). -/
def ringRequest (s : State) (r : RingId) : State :=
  let x := getRing s r
  let v := ringVector s r
  if x.armed && decide (unconsumed s r ≠ 0) then
    let s := setRing s r { x with armed := false }
    let y := getVec s v
    vecCheck (setVec s v { y with rings := if y.rings.contains r then y.rings else y.rings ++ [r] }) v
  else if (getVec s v).rings.contains r then vecCheck s v
  else s

/-! ### Device-written rings -/

/-- Free entries of a device-written ring (R271). -/
def freeEntries (s : State) (r : RingId) : Nat := ringSize s r - 1 - unconsumed s r

/-- The device's index after one more record. -/
def advDev (s : State) (r : RingId) (x : Ring) : Ring :=
  let n := (x.dev.toNat + 1) % ringSize s r
  { x with dev := BitVec.ofNat 16 n, phase := if n = 0 then !x.phase else x.phase }

/-- Writes a completion record at the device's index (R292, R293) and requests the interrupt. -/
def putRecord (s : State) (q : RingId) (rec : Completion) : State :=
  let x := getRing s q
  let s := emit s (.completion q x.dev x.phase (entryAddr s q x.dev) rec)
  ringRequest (setRing s q (advDev s q x)) q

/-- Whether a completion ring still writes records (R276, R281). -/
def writesRecords (x : Ring) : Bool := x.st == .active || x.st == .draining

/-- Writes an unreserved completion, or keeps it until an entry frees: a completion is never dropped (R291). -/
def putCompletion (s : State) (q : RingId) (rec : Completion) : State :=
  let x := getRing s q
  if canWrite s && writesRecords x && x.backlog.isEmpty && decide (x.reserved < freeEntries s q) then putRecord s q rec
  else setRing s q { x with backlog := x.backlog ++ [rec] }

/-- Writes the completion of a dispatched command into the entry reserved for it (R291). -/
def putReserved (s : State) (q : RingId) (rec : Completion) : State :=
  let x := getRing s q
  let s := setRing s q { x with reserved := x.reserved - 1 }
  if canWrite s && writesRecords x && decide (0 < freeEntries s q) then putRecord s q rec
  else setRing s q { getRing s q with backlog := x.backlog ++ [rec] }

/-- Writes waiting completions while entries are free; what is left waits on. -/
def flushList : List Completion → State → RingId → State × List Completion
  | [], s, _ => (s, [])
  | rec :: l, s, q =>
    if canWrite s && writesRecords (getRing s q) && decide ((getRing s q).reserved < freeEntries s q) then
      flushList l (putRecord s q rec) q
    else (s, rec :: l)

/-- Writes the completions that wait for entries of a completion ring (R291). -/
def flushBacklog (s : State) (q : RingId) : State :=
  let l := (getRing s q).backlog
  let r := flushList l s q
  if l.isEmpty then s else setRing r.1 q { getRing r.1 q with backlog := r.2 }

/-- Flushes every completion ring that holds waiting completions. -/
def flushAll (s : State) : State :=
  s.io.rings.foldl (fun t e => if h : e.1 < 16384 then flushBacklog t ⟨e.1, h⟩ else t) s

/-- A completion record of a command (R292). -/
def cmdRecord (s : State) (opcode : Nat) (c : Cmd) (status : BitVec 8) (result : BitVec 64) : Completion :=
  { opcode := BitVec.ofNat 16 opcode, status := status, kind := 1, ring := c.ring, index := c.index, tag := c.tag,
    result := result, time := now s }

/-- A buffer completion (R295): KIND 2 DATA_IN or 3 DATA_OUT, bytes in RESULT[31:0]. -/
def bufRecord (s : State) (kind : BitVec 3) (k : Taken) (status : BitVec 8) (bytes : Nat) : Completion :=
  { opcode := 0, status := status, kind := kind, ring := k.ring, index := k.index, tag := k.desc.tag,
    result := BitVec.ofNat 64 bytes, time := now s }

/-- Takes a command out of its target's queue (R290). -/
def dequeue (s : State) (c : Cmd) : State :=
  match (targetOf c.target).bind targetHerd with
  | some h =>
    if (getHerd s h).queue.contains c then modHerd s h fun x => { x with queue := x.queue.erase c } else s
  | none =>
    if s.io.hubQueue.contains c then { s with io := { s.io with hubQueue := s.io.hubQueue.erase c } } else s

/-- Completes a dispatched command: the changed blocks are rewritten before its record (R345), the record goes into
its reserved entry, its ring may dispatch again (R289). A command that its ring no longer runs, after a Function Level
Reset, has no record (R269). -/
def complete (s : State) (opcode : Nat) (c : Cmd) (changed : List MirrorObj) (status : BitVec 8)
    (result : BitVec 64) : State :=
  let s := dequeue s c
  if (getRing s c.ring).running == some c then
    let s := forEach changed mirrorWrite s
    let s := modRing s c.ring fun x => { x with running := none }
    putReserved s (ringCq s c.ring) (cmdRecord s opcode c status result)
  else forEach changed mirrorWrite s

/-- Completes a command with ST_OK and a RESULT. -/
def completeOk (s : State) (opcode : Nat) (c : Cmd) (changed : List MirrorObj) (result : Nat) : State :=
  complete s opcode c changed stOk (BitVec.ofNat 64 result)

/-- Completes a command with a status that changes nothing (R310). -/
def reject (s : State) (opcode : Nat) (c : Cmd) (status : BitVec 8) (result : BitVec 64) : State :=
  complete s opcode c [] status result

/-! ### Events -/

/-- Whether a port lies in a scope (R386). -/
def coversPort (sc : Scope) (p : PortId) : Bool :=
  match sc with
  | .port q => p == q
  | .herd h => herdOf p == h
  | .die d => dieOf p == d
  | .device => true
  | .none => false

/-- The port of a port event's source. -/
def srcPort (src : Nat) : Option PortId := if h : src < 8192 then some ⟨src / 16, by omega⟩ else none

/-- Whether a scope covers a herd's events: it quiets one of the herd's ports (R386). -/
def coversHerd (sc : Scope) (h : HerdId) : Bool := (portsOf h).any (coversPort sc)

/-- Whether a port is quieted by a safe state in force. -/
def safeCovers (s : State) (p : PortId) : Bool := s.flt.safe.any fun x => coversPort x.scope p

/-- CONSEQUENTIAL of a port event: an open shadow window covers its port (R385). -/
def conseqOf (s : State) (src : Nat) : Bool :=
  match srcPort src with
  | some p => s.flt.shadows.any fun w => coversPort w.scope p
  | none => false

/-- A payload's field at an offset, 0 where it has none. -/
def payAt (payload : List Fld) (off : Nat) : Nat := ((payload.find? fun f => f.1 == off).map fun f => f.2.2).getD 0

/-- The herd that a global event is about, as its payload names it (R376, Table 2): collapsed event buffers, a herd's
self-test, an image in a herd, the herd and host-lane PLLs, a herd's DSP domain. DEDUCED, log 18. -/
def eventHerd (g : Nat) (payload : List Fld) : Option HerdId :=
  let herd := fun (n : Nat) => if h : n < 64 then some (⟨n, h⟩ : HerdId) else none
  match g with
  | 1 => if payAt payload 0 = 8 ∨ payAt payload 0 = 10 then herd (payAt payload 1) else none
  | 2 => if payAt payload 0 = 8 ∨ payAt payload 0 = 10 then herd (payAt payload 1) else none
  | 3 => if 0x10 ≤ payAt payload 0 then herd (payAt payload 0 - 0x10) else none
  | 35 => herd (payAt payload 0)
  | 72 => herd (payAt payload 0)
  | 81 => herd (payAt payload 1)
  | _ => none

/-- CONSEQUENTIAL of a herd event: an open shadow window covers its herd (R385). -/
def conseqHerd (s : State) (g : Nat) (payload : List Fld) : Bool :=
  (eventHerd g payload).any fun h => s.flt.shadows.any fun w => coversHerd w.scope h

/-- The routing order of an event (R298). -/
def route (src : Nat) : List Target :=
  match srcPort src with
  | some p => [.port p, .herd (herdOf p), .hub]
  | none => [.hub]

/-- The first ACTIVE event ring of the routing order (R298). -/
def eventRing (s : State) (src : Nat) : Option RingId := (route src).findSome? (activeRing s 2)

/-- Keeps the newest record of each source (R31). -/
def newestOnly (l : List Event) : List Event :=
  (l.foldr (fun e acc => if acc.any (fun x => x.source == e.source) then acc else e :: acc) [])

/-- Puts a record into a buffer of a capacity (R31, R299). -/
def bufPush (b : EvBuf) (cap : Nat) (e : Event) : EvBuf :=
  if b.collapsed || decide (cap ≤ b.recs.length) then
    { recs := newestOnly (b.recs ++ [e]), collapsed := true }
  else { b with recs := b.recs ++ [e] }

def getHerdBuf (s : State) (h : HerdId) : EvBuf := tabGet EvBuf.empty s.io.herdBuf h.val
def setHerdBuf (s : State) (h : HerdId) (b : EvBuf) : State :=
  { s with io := { s.io with herdBuf := tabSet s.io.herdBuf h.val b } }

/-- Whether the hub takes a herd's records: it runs, management is up, the die's link is up (R20, R31). -/
def hubListens (s : State) (h : HerdId) : Bool :=
  hubRuns s && !s.fw.mgmtDown && (getDie s (dieOfHerd h)).d2dUp

/-- The rings that records discarded from a buffer were bound for show OVERRUN in their next record (R299). -/
def markLost (s : State) (old new : EvBuf) : State :=
  forEach (old.recs.filter fun e => !new.recs.contains e)
    (fun t e => match eventRing t e.source with
      | some r => modRing t r fun x => { x with overrun := true }
      | none => t) s

/-- Puts a global event's record into the hub buffer; without an ACTIVE ring it is not delivered (R298, R299). -/
def pushGlobal (s : State) (e : Event) : State :=
  if (eventRing s e.source).isNone && !s.fw.mgmtDown then s
  else
    let n := bufPush s.io.hubBuf 1024 e
    markLost { s with io := { s.io with hubBuf := n } } s.io.hubBuf n

/-- Advances a source's GENERATION: every occurrence does (R297). -/
def bumpGen (s : State) (src : Nat) : State :=
  { s with io := { s.io with gens := tabSet s.io.gens src (genOf s src + 1) } }

/-- Whether the hub itself raises a source's events: the global ones, and each port's ACCESS_ERROR (R347, R357). -/
def hubRaised (src : Nat) : Bool := decide (8192 ≤ src) || src % 16 == 15

/-- A record of an occurrence whose GENERATION has been advanced. -/
def mkEvent (s : State) (src : Nat) (conseq : Bool) (payload : List Fld) : Event :=
  { source := src, conseq := conseq, gen := genOf s src,
    time := if hubRaised src then now s else (srcPort src).elim (now s) fun p => herdNow s (herdOf p),
    payload := payload, names := none }

/-- Posts a global event (R376). -/
def postGlobal (s : State) (g : Nat) (payload : List Fld) : State :=
  let s := bumpGen s (globalSrc g)
  pushGlobal s (mkEvent s (globalSrc g) (conseqHerd s g payload) payload)

/-- Puts a port event's record into its herd's buffer (R31); the hub posts HERD_EVENTS_COLLAPSED when it collapses. -/
def pushPort (s : State) (p : PortId) (e : Event) : State :=
  let h := herdOf p
  let b := getHerdBuf s h
  let n := bufPush b 4096 e
  if (eventRing s e.source).isNone && hubListens s h then s
  else
    let s := markLost (setHerdBuf s h n) b n
    if n.collapsed && !b.collapsed then postGlobal s 35 [(0, 1, h.val)] else s

/-- Puts a record into the buffer of its source: its herd's, or the hub's for what the hub raises. -/
def pushEvent (s : State) (e : Event) : State :=
  if hubRaised e.source then pushGlobal s e
  else match srcPort e.source with
    | some p => pushPort s p e
    | none => pushGlobal s e

/-- Posts a port event (R374). -/
def postPort (s : State) (p : PortId) (n : Nat) (payload : List Fld) : State :=
  let src := portSrc p n
  let s := bumpGen s src
  pushPort s p (mkEvent s src (conseqOf s src) payload)

/-- Posts a port event whose payload names a buffer (R300). -/
def postNaming (s : State) (p : PortId) (n : Nat) (payload : List Fld) (k : Option Taken) : State :=
  let src := portSrc p n
  let s := bumpGen s src
  pushPort s p { mkEvent s src (conseqOf s src) payload with names := k.map fun b => (b.ring, b.index) }

/-- Whether the completion of the buffer that a record names still waits for an entry (R300 order 4). -/
def buffersWait (s : State) (e : Event) : Bool :=
  e.names.any fun n => (getRing s (ringCq s n.1)).backlog.any fun c => c.ring == n.1 && c.index == n.2 && c.kind == 2

def getInterval (s : State) (key : Nat) : Interval := tabGet Interval.none s.io.srcs key
def setInterval (s : State) (key : Nat) (i : Interval) : State :=
  { s with io := { s.io with srcs := tabSet s.io.srcs key i } }

/-- The payload with its count field, if the event carries one, as (offset, size). -/
def withCount (payload : List Fld) (at_ : Option Nat) (n : Nat) : List Fld :=
  match at_ with
  | some off => payload ++ [(off, 4, n % 2 ^ 32)]
  | none => payload

/-- Posts an event that is limited to one record per interval, by R544: outside an interval at once, inside it as the
latest occurrence of the record that ends the interval. `n` is what this occurrence adds to the count at `at_`; `k` is a
buffer that the payload names (R300). -/
def postLimitedNaming (s : State) (src kind : Nat) (payload : List Fld) (at_ : Option Nat) (n : Nat)
    (k : Option Taken) : State :=
  let key := 4 * src + kind
  let s := bumpGen s src
  let i := getInterval s key
  let e := fun (m : Nat) =>
    { mkEvent s src (conseqOf s src) (withCount payload at_ m) with names := k.map fun b => (b.ring, b.index) }
  if i.open_ then setInterval s key { i with held := some (e (i.count + n)), count := i.count + n }
  else pushEvent (setInterval s key { open_ := true, held := none, count := 0 }) (e (i.count + n))

/-- An occurrence of a limited event that is not posted: the next record's number counts it (R221). -/
def countLimited (s : State) (src kind : Nat) : State :=
  let key := 4 * src + kind
  let i := getInterval s key
  setInterval s key { i with count := i.count + 1 }

/-- Posts a limited event that names no buffer. -/
def postLimited (s : State) (src kind : Nat) (payload : List Fld) (at_ : Option Nat) (n : Nat) : State :=
  postLimitedNaming s src kind payload at_ n none

/-- The herd and port blocks that a global event is about: its herd's, and those that a reaction's or a release's
SCOPE covers (R345, R376). -/
def eventBlocks (e : Event) : List MirrorObj :=
  let g := e.source - 8192
  let all := fun (sc : Scope) =>
    (allHerds.filter (coversHerd sc)).map MirrorObj.herd ++ (allPorts.filter (coversPort sc)).map MirrorObj.port
  if g = 33 ∨ g = 34 then all (scopeOf (payAt e.payload 2)) else ((eventHerd g e.payload).map MirrorObj.herd).toList

/-- Writes an event record to its ring, its object's blocks first (R345), with OVERRUN when records bound for the ring
were discarded (R299). -/
def putEvent (s : State) (r : RingId) (e : Event) : State :=
  let s := match srcPort e.source with
    | some p => mirrorEvent (mirrorWrite s (.herd (herdOf p))) (.port p) e.source e.gen
    | none => mirrorEvent (forEach (.hub :: eventBlocks e) mirrorWrite s) .gens e.source e.gen
  let x := getRing s r
  let s := emit s (.event r x.dev x.phase x.overrun (entryAddr s r x.dev) e)
  ringRequest (setRing s r { advDev s r x with overrun := false }) r

/-! ### Data buffers (R294, R295) -/

/-- Whether a data descriptor keeps Table 16: alignment, LENGTH, FLAGS and reserved bytes. -/
def descOk (isIn : Bool) (d : DataDesc) : Bool :=
  d.rsvdZero && decide (64 ≤ d.length.toNat) && decide (d.length.toNat ≤ 16777216) &&
    (if isIn then d.flags == 0 && decide (d.addr.toNat % 64 = 0)
     else (d.flags == 0 || d.flags == 1) && decide (d.addr.toNat % 4 = 0))

/-- Takes the head of a data ring's descriptors. -/
def popBuf (s : State) (r : RingId) (d : DataDesc) (rest : List DataDesc) : Taken × State :=
  let x := getRing s r
  ({ ring := r, index := x.dev, desc := d },
   setRing s r { x with bufs := rest, dev := BitVec.ofNat 16 ((x.dev.toNat + 1) % ringSize s r) })

/-- A buffer completion on the data ring's CQ. -/
def completeBuf (s : State) (kind : BitVec 3) (k : Taken) (status : BitVec 8) (bytes : Nat) : State :=
  putCompletion s (ringCq s k.ring) (bufRecord s kind k status bytes)

/-- Completes the descriptors at a data ring's head that break Table 16 with ST_BAD_PARAM and 0 bytes (R294). -/
def skipBad (isIn : Bool) (r : RingId) : List DataDesc → State → State
  | [], s => s
  | d :: rest, s =>
    if descOk isIn d then s
    else
      let t := popBuf s r d rest
      skipBad isIn r rest (completeBuf t.2 (if isIn then 2 else 3) t.1 stBadParam 0)

/-- What a data ring's descriptors are for: true on a data-in ring. -/
def isInRing (s : State) (r : RingId) : Bool := ringType s r == 3

/-- The descriptors at a data ring's head that break Table 16 complete at once, and the ring moves on (R294). A bad
descriptor behind a good one waits for it: a ring is consumed in its order (R295, log 17). -/
def cleanHead (s : State) (r : RingId) : State := skipBad (isInRing s r) r (getRing s r).bufs s

/-- What taking a buffer answers: the state, the buffer, or the status and RESULT that refuse the command. -/
structure Take where
  st     : State
  got    : Option Taken
  status : BitVec 8
  result : BitVec 64

/-- Takes the buffer at the head of a data-in ring for a result of `need` bytes (R295): ST_NO_RESOURCE with none
posted, ST_BAD_PARAM with the descriptor left in place when it is too small. -/
def takeBuf (s : State) (ring : Option RingId) (need : Nat) : Take :=
  match ring with
  | none => { st := s, got := none, status := stNoResource, result := 0 }
  | some r =>
    let s := cleanHead s r
    match (getRing s r).bufs with
    | [] => { st := s, got := none, status := stNoResource, result := 0 }
    | d :: rest =>
      if d.length.toNat < need then { st := s, got := none, status := stBadParam, result := resSmall need }
      else
        let t := popBuf s r d rest
        { st := cleanHead (modRing t.2 r fun x => { x with taken := x.taken ++ [t.1] }) r, got := some t.1,
          status := stOk, result := 0 }

/-- Removes a buffer from its ring's taken ones. -/
def untake (s : State) (k : Taken) : State := modRing s k.ring fun x => { x with taken := x.taken.erase k }

/-- Writes a result to a taken buffer and completes the buffer (R295, R300 order 4). After a Function Level Reset the
buffer is gone and its completion is discarded (R269). -/
def finishIn (s : State) (k : Taken) (bytes : Nat) (fs : List Fld) : State :=
  if (getRing s k.ring).taken.contains k then
    completeBuf (emit (untake s k) (.data k.desc.addr fs)) 2 k stOk bytes
  else s

/-- Returns the descriptors at a data-in ring's head that are shorter than a kept result, with ST_BAD_PARAM and 0 bytes
(R238): the result goes to the first buffer that is long enough, before any command takes one. DEDUCED, log 34. -/
def returnShort (need : Nat) (r : RingId) : List DataDesc → State → State
  | [], s => s
  | d :: rest, s =>
    if descOk true d && decide (need ≤ d.length.toNat) then s
    else
      let t := popBuf s r d rest
      returnShort need r rest (completeBuf t.2 2 t.1 stBadParam 0)

/-- A kept result of a port's automatic Chamois goes to the first buffer of 1,280 bytes on its data-in ring; DIAG_DONE
is posted again with the buffer's address (R238). -/
def deliverKept (s : State) (r : RingId) (p : PortId) : State :=
  let g := (getPort s p).diag
  match g.kept with
  | none => s
  | some fs =>
    let k := takeBuf (returnShort 1280 r (getRing s r).bufs s) (some r) 1280
    match k.got with
    | none => k.st
    | some b =>
      let s := finishIn k.st b 1280 fs
      let s := modPort s p fun y => { y with diag := { y.diag with kept := none, keptEvent := [] } }
      postNaming s p 9 ((g.keptEvent.filter fun f => f.1 != 8) ++ [(8, 8, b.desc.addr.toNat)]) (some b)

/-- Takes a buffer for a result: a kept result of the ring's port comes before any command's (R238). -/
def takeIn (s : State) (ring : Option RingId) (need : Nat) : Take :=
  match ring with
  | some r =>
    if h : ringBindKind s r = 2 ∧ ringType s r = 3 ∧ ringBindId s r < 512 then
      takeBuf (deliverKept s r ⟨ringBindId s r, h.2.2⟩) ring need
    else takeBuf s ring need
  | none => takeBuf s ring need

/-- Completes a taken buffer with a status and no byte, if a Function Level Reset has not discarded it. -/
def dropIn (s : State) (k : Taken) (status : BitVec 8) : State :=
  if (getRing s k.ring).taken.contains k then completeBuf (untake s k) 2 k status 0 else s

/-- Takes one data-out buffer and completes it once it is read; a DMA fault fails the command with ST_TIMEOUT (R295). -/
def takeOut (s : State) (ring : Option RingId) : Take :=
  match ring with
  | none => { st := s, got := none, status := stNoResource, result := 0 }
  | some r =>
    let s := cleanHead s r
    match (getRing s r).bufs with
    | [] => { st := s, got := none, status := stNoResource, result := 0 }
    | d :: rest =>
      let t := popBuf s r d rest
      let u := modRing t.2 r fun x => { x with dmaBad := false }
      if (getRing s r).dmaBad then
        { st := cleanHead (completeBuf u 3 t.1 stTimeout 0) r, got := none, status := stTimeout, result := 0 }
      else
        { st := cleanHead (completeBuf u 3 t.1 stOk d.length.toNat) r, got := some t.1, status := stOk, result := 0 }

/-- A command that writes a result of `bytes` at once to a buffer of at least `need`: takes the buffer, writes,
completes with ST_OK and a RESULT, or with ST_TIMEOUT where a DMA fault meets the buffer (R295). `changed` are the
blocks it changed. -/
def answerWith (s : State) (opcode : Nat) (c : Cmd) (t : Target) (need bytes : Nat) (fs : List Fld) (result : Nat)
    (changed : List MirrorObj) : State :=
  let k := takeIn s (dataRingOf s c t 3) need
  match k.got with
  | none => complete k.st opcode c changed k.status k.result
  | some b =>
    if (getRing k.st b.ring).dmaBad then
      complete (dropIn (modRing k.st b.ring fun x => { x with dmaBad := false }) b stTimeout) opcode c changed stTimeout 0
    else completeOk (finishIn k.st b bytes fs) opcode c changed result

/-- A command that writes one result at once and changes no block. -/
def answerIn (s : State) (opcode : Nat) (c : Cmd) (t : Target) (need : Nat) (fs : List Fld) (result : Nat) : State :=
  answerWith s opcode c t need need fs result []

end Sys2Proof.Machine
end

