-- ==== Sys2Proof/Machine/PortOps.lean ====
section
/-!
DEFINITION. What moves a port between its states, shared by commands, receivers and reactions: negotiation attempts,
aborts and the attempt count (R128 to R130), entering and leaving UP (R97, R132, R133), the host lane's part (R179), the
end of a diagnostic (R239, R243 to R245) and of a foreground calibration (R453, R454), herd timing (R53 to R56).
-/

namespace Sys2Proof.Machine

/-! ### InfoField messages (R47 to R50) -/

/-- Starts the next message when none is pending (R50): its SEQ is one above the last. -/
def infoNext (i : Info) : Info :=
  match i.current, i.queue with
  | none, m :: q => { i with current := some m, queue := q, seq := i.seq + 1 }
  | _, _ => i

/-- Queues a message; it starts when the previous one is acknowledged or has timed out (R50). -/
def sendInfo (s : State) (p : PortId) (type : BitVec 8) (payload : BitVec 64) (cmd : Option Cmd) : State :=
  modPort s p fun x => { x with info := infoNext { x.info with
    queue := x.info.queue ++ [{ type := type, payload := payload, cmd := cmd }] } }

/-- Bits [127:32] of the InfoField a port sends (R47, Table 6): NULL repeats the last SEQ. -/
def infoHead (i : Info) : BitVec 96 :=
  match i.current with
  | some m => m.type ++ i.seq ++ i.ackSeq ++ (0 : BitVec 8) ++ m.payload
  | none => (0 : BitVec 8) ++ i.seq ++ i.ackSeq ++ (0 : BitVec 8) ++ (0 : BitVec 64)

/-- The whole InfoField with its CRC over the 12 bytes of bits [127:32] (R47). -/
def infoField (i : Info) : BitVec 128 := infoHead i ++ crc32c (beBytes 12 (infoHead i).toNat)

/-! ### Whether LPI is allowed (R202, R203) -/

/-- Bits [54] and [63:32] of the port's own CAPS (R203, R200, Table 7 of The Usrubry Line Format). -/
def capsWakeNs : LineMode → Nat
  | .l100 => 2400
  | .l100s => 2400
  | .l100x => 2509
  | .l50 => 3175
  | .l25 => 4096

/-- Timing lock and superframe lock on all four pairs. -/
def locksHeld (x : Port) : Bool := x.lock.timing && (quadList x.lock.frame).all id

/-- LPI is not allowed on a link (R203). -/
def lpiBlocked (x : Port) : Bool :=
  (match x.caps with
    | some c => !c.lpi || decide (capsWakeNs x.mode < c.wakeNs.toNat)
    | none => true) || x.loop == .remote || x.loop == .looping

/-- LPI_STATE follows whether LPI is allowed, from and to normal service (R202). -/
def lpiAllow (x : Port) : Port :=
  if x.st == .up then
    match x.lpi.st with
    | .active => if lpiBlocked x then { x with lpi := { x.lpi with st := .blocked } } else x
    | .request => if lpiBlocked x then { x with lpi := { x.lpi with st := .blocked } } else x
    | .blocked => if lpiBlocked x then x else { x with lpi := { x.lpi with st := .active } }
    | _ => x
  else x

/-! ### Performance levels and domain switches (R401, R404 to R408, R417 to R419) -/

/-- The level that a MODE_SET needs: that of its fastest mode. -/
def setLevel (set : BitVec 5) : Nat :=
  (allModes.filter (modeIn set)).foldl (fun n m => min n (modeLevel m)) 3

/-- The lowest level that a herd's resolved or committed mode allows (R417), with the one a waiting commit needs. -/
def herdNeed (x : Herd) : Nat :=
  let n := match x.resolved with
    | some m => modeLevel m
    | none => setLevel x.modeSet
  match x.commit with
  | some k => if k.modeSet == x.modeSet then n else min n (setLevel k.modeSet)
  | none => n

/-- The level a die needs: the fastest its herds need, or its floor if that is faster (R417). -/
def dieNeed (s : State) (d : DieId) : Nat :=
  let n := (herdsOf d).foldl (fun n h => min n (herdNeed (getHerd s h))) 3
  match (getDie s d).floor with
  | some f => min n f
  | none => n

/-- The level whose clock a die surely runs: a lowering step moves the dividers first, a raising one last (R418). -/
def runLevel (x : Die) : Nat := max x.level (x.step.getD x.level)

/-- VDD_DSPd of a level in mV (Table 2 of Power States). -/
def levelMv : Nat → Nat
  | 0 => 750
  | 1 => 700
  | 2 => 640
  | _ => 600

/-- The rail of a die's DSP supply. -/
def dspRail (d : DieId) : RailId := ⟨7 + d.val, by omega⟩

/-- The next level on the way to a target (R418). -/
def nextLevel (level target : Nat) : Nat := if target < level then level - 1 else level + 1

/-- AVSBus rail select: d for VDD_DSPd, 8 for VDD_CORE (R416). -/
def railSel (r : RailId) : Nat := if 7 ≤ r.val then r.val - 7 else 8

/-- Part i of n on the way from one voltage to another. -/
def rampMv (a b i n : Nat) : Nat := if a ≤ b then a + (b - a) * i / n else a - (a - b) * i / n

/-- Equal writes of at most 60 mV, 40 µs apart, that bring a rail to a target (R416); the union of both targets' windows
holds until 40 µs after the last (R415). -/
def railTo (s : State) (r : RailId) (mv : Nat) : State :=
  let x := getRail s r
  let n := max 1 ((max x.mv mv - min x.mv mv + 59) / 60)
  let s := forEach (List.range n) (fun t i => emit t (.avs (railSel r) (rampMv x.mv mv (i + 1) n))) s
  setRail s r { x with mv := mv, old := x.mv, settle := s.mono + 40000 * n }

/-- Begins a sequencer step: the voltage is written (R416, R418). -/
def stepBegin (s : State) (d : DieId) (n : Nat) : State :=
  railTo (setDie s d { getDie s d with step := some n }) (dspRail d) (levelMv n)

/-- The sequencer heads for the level the die needs; a request during a step waits for its end (R419). -/
def retarget (s : State) (d : DieId) : State :=
  let n := dieNeed s d
  let x := getDie s d
  if x.step.isSome then setDie s d { x with target := n }
  else if n = x.level || !inService s then setDie s d { x with target := n }
  else stepBegin (setDie s d { x with target := n, start := x.level }) d (nextLevel x.level n)

/-- A PLL or monitor of Table 5, by the codes of Table 6 of Set-up Register Map. -/
inductive PllKind where
  | root
  | monitor
  | pcie
  | ddr (c : ChanId)
  | herd (h : HerdId)
  | lane (h : HerdId)
  | ucie (d : DieId)
  deriving DecidableEq, Repr

/-- The judged clock that SEL and UNIT name; UNIT is ignored where Table 6 has one clock (Table 5 of the map). -/
def pllKind (u : PllId) : Option PllKind :=
  match u.sel.val with
  | 1 => some .root
  | 2 => some .monitor
  | 4 => some .pcie
  | 5 => some (.ddr 0)
  | 6 => some (.ddr 1)
  | 8 => some (.herd u.unit)
  | 10 => some (.lane u.unit)
  | 11 => if h : u.unit.val < 8 then some (.ucie ⟨u.unit.val, h⟩) else none
  | _ => none

/-- The identifier of a judged clock, with UNIT 0 where there is one. -/
def pllId : PllKind → PllId
  | .root => pllRoot
  | .monitor => pllMonitor
  | .pcie => pllPcie
  | .ddr c => pllDdr c
  | .herd h => pllHerd h
  | .lane h => pllLane h
  | .ucie d => pllUcie d

/-- Every judged clock. -/
def allPlls : List PllKind :=
  [.root, .monitor, .pcie, .ddr 0, .ddr 1] ++ allHerds.map .herd ++ allHerds.map .lane ++ (List.finRange 8).map .ucie

/-- The clocks of the line dies (R517 step 8). -/
def linePlls : List PllKind := allHerds.map .herd ++ allHerds.map .lane ++ (List.finRange 8).map .ucie

/-- The device starts or stops a PLL: it is unlocked without a loss; one that had lost lock has still to regain it
(R410). -/
def pllStop (s : State) (k : PllKind) : State :=
  let x := getPll s (pllId k)
  setPll s (pllId k) { locked := false, good := 0, retuning := x.locked || x.retuning }

/-- Starts or stops PLLs. -/
def pllsOff (s : State) (l : List PllKind) : State := forEach l pllStop s

/-- Every herd DSP domain. -/
def dspDomains : List Domain := allHerds.map .herdDsp

/-- Whether the hub die's clocks can run: not in Deep Sleep, Off or PORST_N. -/
def hubPowered (s : State) : Bool :=
  match s.pwr.st with
  | .deepSleep => false
  | .off => false
  | .inPorst => false
  | _ => true

/-- Whether the line dies are powered: not before step 8 of the boot, not in POST hold and Ibex (R491, R517, R523). -/
def linePowered (s : State) : Bool :=
  hubPowered s &&
    match s.pwr.st with
    | .inSysrst => false
    | .boot n _ => decide (8 ≤ n)
    | .postHold => false
    | .ibex => false
    | _ => true

/-- Whether the herd and host-lane PLLs are on: Sleep has them off (Table 4a of Power States). -/
def lineClocks (s : State) : Bool :=
  linePowered s &&
    match s.pwr.st with
    | .sleep => false
    | .entering _ => !s.pwr.dark
    | _ => true

/-- The PLL that a sequenced domain runs from (R400). -/
def domainPll : Domain → PllId
  | .hubCore => pllRoot
  | .herdDsp h => pllHerd h

/-- Requests a switch of a sequenced domain (R405, R407). -/
def requestSwitch (s : State) (d : Domain) (toPll : Bool) : State :=
  let w := getSwitch s d
  if w.running.isSome then setSwitch s d { w with waiting := some toPll }
  else if w.onPll == toPll then s
  else if toPll && !(getPll s (domainPll d)).locked then s
  else setSwitch s d { w with running := some toPll }

/-- A retuned herd PLL moves once its domain is on the bypass (R408); it relocks without PLL_LOCKED unless it had lost
lock before (R410). -/
def movePll (s : State) (h : HerdId) : State :=
  if (getHerd s h).pllOld.isSome then pllStop (modHerd s h fun x => { x with pllOld := none }) (.herd h) else s

/-- What a domain's arrival on the bypass lets happen. -/
def moveDomain (s : State) (d : Domain) : State :=
  match d with
  | .herdDsp h => movePll s h
  | .hubCore => s

/-- A switch has completed: the request that waited for it starts (R407). -/
def switchNext (s : State) (d : Domain) (onPll : Bool) : State :=
  let w := getSwitch s d
  let s := setSwitch s d { onPll := onPll, running := none, waiting := none }
  let s := if onPll then s else moveDomain s d
  match w.waiting with
  | some t => requestSwitch s d t
  | none => s

/-- A normal switch completes (R404): LOST 10. -/
def switchDone (s : State) (d : Domain) (toPll : Bool) : State :=
  switchNext { s with clk := { s.clk with lastDomain := BitVec.ofNat 8 (domainCode d), lastLost := 10,
                                          lastIndet := false } } d toPll

/-- A domain is brought to a source by the switches this takes: a running one completes first, and one to the source
that the domain is on is none (R404, R407). -/
def switchNow (s : State) (d : Domain) (toPll : Bool) : State :=
  let w := getSwitch s d
  let s := setSwitch s d { w with waiting := none }
  let s := match w.running with
    | some t => switchDone s d t
    | none => s
  if (getSwitch s d).onPll == toPll then s else switchDone s d toPll

/-- The herd PLL moves to a mode's family and divider (R24); another family is a retune over the bypass (R408). -/
def setPllMode (s : State) (h : HerdId) (m : LineMode) : State :=
  let old := pllRuns (getHerd s h)
  let s := modHerd s h fun x => { x with pllMode := m, pllOld := none }
  if (old == .l100x) == (m == .l100x) then s
  else
    let s := requestSwitch (modHerd s h fun x => { x with pllOld := some old }) (.herdDsp h) false
    let w := getSwitch s (.herdDsp h)
    if !w.onPll && w.running.isNone then movePll s h else s

/-- Divider, times 10, of a herd's DSP clock at a level (R401, Table 2 of Clocks). -/
def dspDivider : Nat → Nat
  | 0 => 100
  | 1 => 125
  | 2 => 200
  | _ => 400

/-- Frequency of a herd PLL in units of REFCLK (R24, R399). -/
def pllTimes (x : Herd) : Nat := if pllRuns x == .l100x then 90 else 85

/-- A herd's DSP clock in Hz (R399, R401): REFCLK on the bypass, else its PLL over the divider of its die's level. -/
def dspHz (s : State) (h : HerdId) : Nat :=
  if (getSwitch s (.herdDsp h)).onPll then
    156250000 * pllTimes (getHerd s h) * 10 / dspDivider (getDie s (dieOfHerd h)).level
  else 156250000

/-! ### Host lanes -/

/-- The taps of a preset (R184, Table 4), in steps of 0.025. -/
def presetTaps (n : Nat) : Quad (BitVec 8) :=
  match n with
  | 1 => ⟨0x00, 0x00, 0x28, 0x00⟩
  | 3 => ⟨0x01, 0xFA, 0x1E, 0xFD⟩
  | _ => tapsPreset2

/-- A lane's receiver adapts from its start; a blind start or a fall-back takes the parameters that govern it (R193). -/
def laneFresh (s : State) (p : PortId) (l : Lane) : Lane :=
  let x := getPort s p
  { l with ctle := 0, ffe := ffeStart, dfe := 0, cdr := 0, seek := none,
           auto := livePar x 0x36 == 1, limit := livePar x 0x37, lockSnr := livePar x 0x35 }

/-- A lane enters BLIND with the taps it holds (R179, R184); LANE_POLARITY takes effect (R371). -/
def laneBlind (s : State) (p : PortId) (l : Lane) : Lane :=
  { laneFresh s p l with
    st := .blind, locked := false, partReady := false, preReq := none, fromLoss := false,
    polTx := (regVal s (portOff p 0x100)).getLsbD 0, polRx := (regVal s (portOff p 0x100)).getLsbD 1 }

/-- A lane that lost lock enters BLIND with its receiver's state as the starting point (R191). -/
def laneRelock (s : State) (p : PortId) (l : Lane) : Lane :=
  { laneBlind s p l with ctle := l.ctle, ffe := l.ffe, dfe := l.dfe, cdr := l.cdr, fromLoss := true }

/-! ### The host-out clock (R160, R190) -/

/-- A port's line frequency against REFCLK in 0.1 ppm. -/
def linePpm (x : Port) : Int := x.freqWord.toInt * 10000000 / 268435456

/-- What host-out's clock follows: the line on a pass-through port in UP, else the host-lane PLL (R190). -/
def followsLine (x : Port) : Bool := x.st == .up && x.fec == 0

/-- A value on its way to another, at most `step` from where it was. -/
def toward (from_ to_ : Int) (step : Nat) : Int :=
  if from_ ≤ to_ then min to_ (from_ + step) else max to_ (from_ - step)

/-- Host-out's offset from the host-lane PLL in 0.1 ppm: it slews at 10 ppm per µs (R190). -/
def hostOffset (s : State) (x : Port) : Int :=
  toward x.lane.slewFrom (if followsLine x then linePpm x else 0) ((s.mono - x.lane.slewAt) / 10)

/-- A port as its host-out begins to follow something else. -/
def slewMark (s : State) (x : Port) : Port :=
  { x with lane := { x.lane with slewFrom := hostOffset s x, slewAt := s.mono } }

/-- A lane enters IDLE: electrical idle, receiver off (R179). A fall-back or rate change is not involved. -/
def laneIdle (l : Lane) : Lane := { l with st := .idle, locked := false, partReady := false }

/-- Whether a herd's lanes may leave IDLE: pads released, host-lane PLL locked, no fixed hold (R179, R410, R436). -/
def lanesMay (s : State) (h : HerdId) : Bool :=
  !s.pwr.padsHeld && (getPll s (pllLane h)).locked && herdsRun s

/-- A lane's rate follows its herd's mode when the line side starts at it (R178): at a changed rate the transmitter
loads LANE_TX_PRESET, the lane enters BLIND and a host loopback ends (R184, R199). -/
def laneRateTo (s : State) (p : PortId) (m : LineMode) : State :=
  modPort s p fun x =>
    if laneRate x.lane.mode = laneRate m then { x with lane := { x.lane with mode := m } }
    else
      { x with lane := laneBlind s p { x.lane with mode := m, taps := presetTaps (livePar x 0x31) },
               loop := if x.loop == .near || x.loop == .far then .none else x.loop }

/-! ### Port state -/

/-- A pair whose receiver has nothing to compute; coefficients, slots and levels stay. -/
def pairQuiet (q : Pair) : Pair := { q with dsp := PairDsp.reset }

/-- Line pairs quiet: driver off, 100 Ω termination held (R97). -/
def lineQuiet (x : Port) : Port :=
  { x with line := LineIo.off, pairs := quadMap pairQuiet x.pairs, lock := Locks.none, survey := Quad.all none,
           info := { Info.fresh with myCaps := x.info.myCaps }, caps := none,
           lpi := Lpi.reset,
           loop := if x.loop == .remote || x.loop == .looping then .none else x.loop }

/-- Whether a port runs its herd's mode: SPRINGBOK, T0 to T3 or UP (R106). -/
def holdsMode (x : Port) : Bool := isTraining x.st || x.st == .up

/-- Ports of a herd that hold its mode. -/
def modeHeld (s : State) (h : HerdId) : Bool := (portsOf h).any fun q => holdsMode (getPort s q)

/-- A herd committed with a set of modes loses its resolved mode once no port holds it (R106, R24). A safe-state
reaction starts no level change by it (R419). -/
def releaseMode (s : State) (h : HerdId) (reaction : Bool) : State :=
  let x := getHerd s h
  if (singleMode x.modeSet).isNone && x.resolved.isSome && !modeHeld s h then
    let s := setHerd s h { x with resolved := none }
    if reaction then s else retarget s (dieOfHerd h)
  else s

/-- Changes PORT_STATE; the host lane idles in TEST and SAFE and starts blind on leaving them (R179); PARTNER_SEEN
clears on leaving HOLD (R131). -/
def setSt (s : State) (p : PortId) (st : PortSt) : State :=
  let x := getPort s p
  let out := st == .test || st == .safe
  let was := x.st == .test || x.st == .safe
  let lane := if out then laneIdle x.lane
    else if was && lanesMay s (herdOf p) then laneBlind s p x.lane else x.lane
  let s := setPort s p
    { x with st := st, stTime := if x.st == st then x.stTime else now s, lane := lane,
             partnerSeen := x.partnerSeen && st == .hold }
  let s := if st == .negotiate || isTraining st then s
    else modHerd s (herdOf p) fun y => { y with restart := y.restart.filter (· != p) }
  releaseMode s (herdOf p) (st == .safe)

/-- A draw for a new attempt: nonce and SEED (R100, R103). -/
def drawNeg (s : State) : Neg × State :=
  let d := draw s
  ({ Neg.none with open_ := true, nonce := d.1.setWidth 5, seed := (d.1 >>> 32).setWidth 32 }, d.2)

/-- Begins a negotiation attempt: 70 ms of break_link_timer, the start-up parameters taken (R101, R134). -/
def newAttempt (s : State) (p : PortId) : State :=
  let d := drawNeg s
  let s := setSt d.2 p .negotiate
  modPort s p fun x =>
    { lineQuiet x with att := x.live, neg := d.1, start := Start.none, sig := 0, role := none, partner := 0 }

/-- Enters NEGOTIATE without an attempt, for as long as a test, a run or Sleep lasts. -/
def waitNegotiate (s : State) (p : PortId) : State :=
  modPort (setSt s p .negotiate) p fun x => { lineQuiet x with neg := Neg.none, start := Start.none }

/-- The attempt count returns to 0 (R129). -/
def clearAttempts (s : State) (p : PortId) : State :=
  modPort s p fun x => { x with attempts := 0, partnerPage := false }

/-- Counts one attempt (R129); a move out of training belongs to an attempt with a partner page (R130). -/
def countAttempt (s : State) (p : PortId) (seen : Bool) : State :=
  modPort s p fun x => { x with attempts := x.attempts + 1, partnerPage := x.partnerPage || seen }

/-- Whether the count has reached NEG_ATTEMPTS (R130; 0 means no limit). -/
def exhausted (x : Port) : Bool := decide (attPar x 0x01 ≠ 0) && decide (attPar x 0x01 ≤ x.attempts)

/-- TRAINING_ABORTED (R128, R374). An attempt number above 255 shows modulo 256: DESIGN CHOICE, log 57. -/
def postAbort (s : State) (p : PortId) (cause : Nat) (at_ : PortSt) (attempt : Nat) (entered : PortSt) : State :=
  let s := modPort s p fun x => { x with lastAbort := BitVec.ofNat 8 cause }
  postPort s p 2 [(0, 1, cause), (1, 1, portCode at_), (2, 1, attempt % 256), (3, 1, portCode entered)]

/-! ### Histogram periods (R230) and die calibration triggers (R449) -/

/-- Histogram bin of a period: bits compared, bit errors, uncorrectables; none for BER_SPARSE (R230, Table 3). -/
def histBin (bits errs unc : Nat) : Option Nat :=
  if unc ≠ 0 then some 15
  else if bits < 5570560 then none
  else if errs = 0 then some 0
  else some (((List.range 13).map (fun k => 14 - k)).find? (fun k =>
    decide (bits ^ 2 ≤ errs ^ 2 * 10 ^ (18 - k))) |>.getD 1)

/-- Closes a histogram period (R230). -/
def histClose (x : Port) : Port :=
  let y := { x with period := (0, 0, 0) }
  match histBin x.period.1 x.period.2.1 x.period.2.2 with
  | some k => statAdd y (0x100 + 8 * k) 1
  | none => statAdd y 0x180 1

/-- Adds the time of a quiet period that ends to LPI_QUIET_NS (Table 4 of Link Monitoring). -/
def quietClose (s : State) (x : Port) : Port :=
  if x.lpi.st == .quiet then statAdd x 0x98 (s.mono - x.lpi.quietFrom) else x

/-- Whether a die's temperature differs from its calibration temperature by more than HUB_TCAL_DELTA (R449). -/
def dieDrifted (s : State) (d : DieId) : Bool :=
  let x := getDie s d
  decide (8 * fld (regVal s 0x03C) 0 5 < (x.temp.toInt - x.calTemp.toInt).natAbs)

/-- A trigger point of a die's full calibration run (R449): nothing while a run is under way. -/
def dieTrigger (s : State) (d : DieId) : State :=
  if dieDrifted s d && (getDie s d).calRun.isNone then setDie s d { getDie s d with calRun := some 0 } else s

/-! ### Diagnostics: results and their end -/

/-- The live coefficients, gains, slots and margins of a port (R93). -/
def liveCoefs (x : Port) : Coefs :=
  { pairs := quadMap (·.coef) x.pairs, gains := quadMap (·.digitalGain) x.pairs,
    again := quadMap (·.analogGain) x.pairs, slots := quadMap (·.slots) x.pairs,
    marg := quadMap (·.margin) x.pairs }

/-- Echo span of a mode in ps (Table 2 of Echo, Crosstalk and Equalisation). -/
def echoSpanPs : LineMode → Nat
  | .l100 => 77101
  | .l100s => 38550
  | .l100x => 72817
  | .l50 => 154202
  | .l25 => 308404

/-- PROFILE_BINS: 4,000 for Chamois, the echo span at the configured delay for passive (R244). -/
def profileBins (m : LineMode) (cable : Nat) (chamois : Bool) : Nat :=
  if chamois then 4000 else echoSpanPs m * 10 / (2 * cable)

/-- Result size in bytes at a CABLE_NS_PER_M (R244). -/
def resultSize (m : LineMode) (cable : Nat) (chamois profile : Bool) : Nat :=
  if profile then 1280 + 8 * profileBins m cable chamois else 1280

/-- Result size of a diagnostic that begins now. -/
def diagSize (x : Port) (chamois profile : Bool) : Nat := resultSize x.mode (livePar x 0x41) chamois profile

/-- FAR_END_ACTIVE of a pair (R239): energy above −40 dBm. -/
def farActive (f : PairFinding) : Bool := decide (-400 < f.energy)

/-- The pair that a pulse reaches at −6 dB or stronger, and the round-trip delay (R241). -/
def crossOf (f : PairFinding) : Option (PairId × Nat) :=
  (f.cross.find? fun e => decide (-60 ≤ e.2.2)).map fun e => (e.1, e.2.1)

/-- The distance in cm of a round-trip delay in ps, at the settings a diagnostic began with (R235). -/
def distCm (g : Diag) (t : Nat) : Nat := (t - 2 * g.board) * 10 / (2 * g.cable)

/-- Reflection events in ascending distance. -/
def insertEvent (e : Nat × Int) : List (Nat × Int) → List (Nat × Int)
  | [] => [e]
  | d :: l => if e.1 ≤ d.1 then e :: d :: l else d :: insertEvent e l

/-- The reflection events of a pair, ordered by distance: in a passive result those of at least REFL_THRESHOLD (R235).
-/
def eventsOf (g : Diag) (chamois : Bool) (f : PairFinding) : List (Nat × Int) :=
  (f.events.filter fun e => chamois || decide (g.thr ≤ e.2.natAbs)).foldr insertEvent []

/-- RESULT of a pair and the round-trip delay of the event that decided it (R241, Table 9); 5 cm is where class 5
looks. -/
def pairClass (g : Diag) (f : PairFinding) : Nat × Option Nat :=
  let l := eventsOf g true f
  if farActive f && decide (-300 < f.noiseFloor) then (7, none)
  else match l.find? (fun e => decide (600 ≤ e.2) && decide (distCm g e.1 ≤ 5)) with
    | some e => (5, some e.1)
    | none =>
      match crossOf f with
      | some c => (3, some c.2)
      | none =>
        match l.find? (fun e => decide (e.2 ≤ -600)) with
        | some e => (2, some e.1)
        | none =>
          match l.find? (fun e => decide (600 ≤ e.2)) with
          | some e => (1, some e.1)
          | none => if l.dropLast.any (fun e => decide (g.thr ≤ e.2.natAbs)) then (4, none) else (0, none)

/-- RESULT of a pair and the delay that decided it: a passive run classes no pair, RESULT is 0 (Table 11). -/
def resultOf (g : Diag) (chamois : Bool) (f : PairFinding) : Nat × Option Nat :=
  if chamois then pairClass g f else (0, none)

/-- The round-trip delay that LENGTH and DELAY_PS stand for (R241): the fault of classes 1 to 3, else the last event
of |Γ| 0.010 or more. -/
def lengthAt (g : Diag) (chamois : Bool) (f : PairFinding) : Option Nat :=
  let c := resultOf g chamois f
  if 1 ≤ c.1 ∧ c.1 ≤ 3 then c.2
  else ((eventsOf g true f).filter fun e => decide (10 ≤ e.2.natAbs)).getLast?.map (·.1)

/-- LENGTH of a pair in cm, 0xFFFF unknown (R241). -/
def pairLength (g : Diag) (chamois : Bool) (f : PairFinding) : Nat :=
  ((lengthAt g chamois f).map (distCm g)).getD 0xFFFF

/-- DELAY_PS: the one-way delay over LENGTH, 0 where that is unknown (R241). DEDUCED, log 31. -/
def pairDelay (g : Diag) (chamois : Bool) (f : PairFinding) : Nat :=
  ((lengthAt g chamois f).map fun t => (t - 2 * g.board) / 2).getD 0

/-- Type of a reflection event (Table 11). -/
def eventType (f : PairFinding) (e : Nat × Int) : Nat × Nat :=
  match (crossOf f).filter fun c => e.1 == c.2 with
  | some c => (5, c.1.val)
  | none => (if 600 ≤ e.2 then 3 else if e.2 ≤ -600 then 4 else if 0 ≤ e.2 then 1 else 2, 0xFF)

/-- A signed value as its 16-bit code. -/
def code16 (v : Int) : Nat := (BitVec.ofInt 16 v).toNat

/-- Whether a Chamois loss sweep is valid for a pair (R242). -/
def ilValid (g : Diag) (f : PairFinding) : Bool :=
  ((eventsOf g true f).getLast?.map fun e => decide (600 ≤ e.2.natAbs)).getD false

/-- A pair section (Table 11). `tested` is false for a pair whose TDR did not run, `swept` says that the loss sweep
completed. -/
def pairSection (base : Nat) (g : Diag) (chamois tested swept : Bool) (f : PairFinding) : List Fld :=
  if !tested then
    [(base, 1, 6), (base + 1, 1, 0xFF), (base + 4, 2, 0xFFFF), (base + 6, 2, 0xFFFF)] ++
      (List.range 16).map fun k => (base + 0x10 + 2 * k, 2, 0xFFFF)
  else
    let c := resultOf g chamois f
    let cross := if c.1 = 3 then ((crossOf f).map fun q => q.1.val).getD 0xFF else 0xFF
    let l := (eventsOf g chamois f).take 16
    [(base, 1, c.1), (base + 1, 1, cross), (base + 2, 1, l.length), (base + 4, 2, (c.2.map (distCm g)).getD 0xFFFF),
     (base + 6, 2, pairLength g chamois f), (base + 8, 4, pairDelay g chamois f), (base + 0x0C, 2,
         code16 f.noiseFloor)] ++
    ((List.range 16).map fun k =>
      (base + 0x10 + 2 * k, 2, if swept && (!chamois || ilValid g f) then f.il.getD k 0xFFFF else 0xFFFF)) ++
    (l.zipIdx.flatMap fun e =>
      let t := eventType f e.1
      [(base + 0x30 + 8 * e.2, 2, distCm g e.1.1), (base + 0x32 + 8 * e.2, 2, code16 e.1.2),
          (base + 0x34 + 8 * e.2, 1, t.1),
       (base + 0x35 + 8 * e.2, 1, t.2)])

/-- A pair without findings. -/
def noFinding : PairFinding := { energy := -1000, cross := [], events := [], noiseFloor := 0, il := [] }

/-- A NEXT loss as reported: 50.0 dB where it is above (R236, R242), 0xFFFF not measured. -/
def nextShown (n : Nat) : Nat := if n = 0xFFFF then n else min n 500

/-- Lengths in ascending order. -/
def insertSorted (n : Nat) : List Nat → List Nat
  | [] => [n]
  | m :: l => if n ≤ m then n :: m :: l else m :: insertSorted n l

/-- Median of lengths; between two middle values half a centimetre rounds as the free bit says. 0xFFFF when none. -/
def median (l : List Nat) (free : Nat) : Nat :=
  let s := l.foldr insertSorted []
  if s.isEmpty then 0xFFFF
  else if s.length % 2 = 1 then s.getD (s.length / 2) 0xFFFF
  else (s.getD (s.length / 2 - 1) 0 + s.getD (s.length / 2) 0 + free % 2) / 2

/-! What a passive diagnostic computes from the coefficients of its capture (R235, R236). -/

/-- A pair's coefficients whose offset lies in a range of its section. -/
def coefRange (t : Tab (BitVec 32)) (from_ to_ : Nat) : Tab (BitVec 32) :=
  t.filter fun e => decide (from_ ≤ e.1) && decide (e.1 < to_)

/-- The round-trip delay in ps of a profile's bin, the least that R235's conversion puts there. -/
def binDelay (g : Diag) (d : Nat) : Nat := 2 * g.board + (2 * g.cable * d + 9) / 10

/-- A pair's reflection profile (R235): Γ in 0.0001 at each centimetre of the echo span, from its echo coefficients. -/
def passiveProfile (g : Diag) (t : Tab (BitVec 32)) : List Int :=
  (List.range (profileBins g.mode g.cable false)).map fun d =>
    Config.reflection (modeCode g.mode) (coefRange t 0 0x2080) (binDelay g d)

/-- Whether a profile has a local extreme in a bin; of equal neighbours the first. -/
def isExtreme (l : List Int) (d : Nat) : Bool :=
  let v := l.getD d 0
  let up := fun (a b : Int) => decide (a < b)
  let before := if d = 0 then none else l[d - 1]?
  let after := l[d + 1]?
  ((before.map (up · v)).getD true && (after.map fun b => !up v b).getD true) ||
    ((before.map (up v ·)).getD true && (after.map fun b => !up b v).getD true)

/-- The local extremes of a profile, as (round-trip delay in ps, Γ in 0.001), by distance (R235). -/
def passiveEvents (g : Diag) (l : List Int) : List (Nat × Int) :=
  l.zipIdx.filterMap fun e =>
    if isExtreme l e.2 then some (binDelay g e.2, Int.tdiv e.1 10) else none

/-- The coefficients of the NEXT canceller of pair i that removes pair j (R4, R59). -/
def nextCoefs (c : Coefs) (i j : PairId) : Tab (BitVec 32) :=
  let k := if j.val < i.val then j.val else j.val - 1
  coefRange (quadGet c.pairs i) (0x2080 + 2080 * k) (0x2080 + 2080 * (k + 1))

/-- NEXT loss of a pair combination at f_k in 0.1 dB, the two directions averaged (R236). -/
def passiveNext (m : LineMode) (c : Coefs) (i j : PairId) (k : Nat) : Nat :=
  (Config.nextLoss (modeCode m) (nextCoefs c i j) k + Config.nextLoss (modeCode m) (nextCoefs c j i) k) / 2

/-- The six pair combinations of Table 10 in order. -/
def combinations : List (PairId × PairId) := [(0, 1), (0, 2), (0, 3), (1, 2), (1, 3), (2, 3)]

/-- What a passive diagnostic finds (R235, R236). -/
def passiveFinding (g : Diag) (c : Coefs) : DiagFinding :=
  let prof := (List.finRange 4).map fun i => passiveProfile g (quadGet c.pairs i)
  { pairs := (List.finRange 4).map fun i =>
      let t := quadGet c.pairs i
      { energy := -1000, cross := [], events := passiveEvents g (prof.getD i.val [])
        noiseFloor := Config.noiseFloor (coefRange t 0 0x2080)
        il := (List.range 16).map fun k =>
          Config.lineLoss (modeCode g.mode) (coefRange t 0x51C0 0x5240) (quadGet c.again i).toNat (quadGet c.gains i).toInt (k + 1) }
    next := combinations.map fun e => (List.range 16).map fun k => passiveNext g.mode c e.1 e.2 (k + 1)
    profile := prof }

/-- The four pair findings of a diagnostic. -/
def findingsOf (f : Option DiagFinding) : List PairFinding :=
  (List.range 4).map fun i => ((f.map fun g => g.pairs.getD i noFinding)).getD noFinding

/-- A diagnostic's result (R244, Table 10): `tested` pairs, completed sweeps, and the LENGTH of the port. -/
def diagFields (s : State) (p : PortId) (chamois : Bool) (status tested : Nat) (nextDone ilDone : Bool)
    (f : Option DiagFinding) (length : Nat) : List Fld :=
  let x := getPort s p
  let g := x.diag
  let bins := if x.diag.profile then profileBins g.mode g.cable chamois else 0
  let l := findingsOf f
  let far := chamois && l.any farActive
  [(0x000, 2, p.val), (0x002, 1, if chamois then 2 else 1), (0x003, 1, status),
   (0x004, 2, bit x.diag.frozen + 2 * bit (chamois && x.diag.skip) + 4 * bit far + 8 * bit x.diag.profile),
   (0x006, 1, modeCode g.mode), (0x008, 8, x.diag.start.toNat), (0x010, 8, (now s).toNat), (0x018, 2, g.cable),
   (0x01A, 2, g.board), (0x01C, 2, length), (0x020, 4, resultSize g.mode g.cable chamois g.profile), (0x024, 2,
       bins)] ++
  (l.zipIdx.flatMap fun e =>
    pairSection (0x40 + 0x100 * e.2) g chamois (decide (e.2 < tested)) (!chamois || ilDone) e.1) ++
  ((List.range 6).flatMap fun c => (List.range 16).map fun k =>
    (0x440 + 32 * c + 2 * k, 2,
      if !chamois || nextDone then nextShown (((f.map fun d => (d.next.getD c []).getD k 0xFFFF)).getD 0xFFFF)
          else 0xFFFF)) ++
  (if x.diag.profile then
    (List.range 4).flatMap fun i => (((f.map fun d => d.profile.getD i [])).getD []).zipIdx.map fun e =>
      (0x500 + 2 * (bins * i + e.2), 2, code16 e.1)
   else [])

/-- RESULT codes of the four pairs. -/
def diagCodes (x : Port) (chamois : Bool) (tested : Nat) (f : Option DiagFinding) : List Nat :=
  (findingsOf f).zipIdx.map fun e =>
    if e.2 < tested then (resultOf x.diag chamois e.1).1 else 6

/-- Port LENGTH: the median of the LENGTH values of pairs with RESULT 0 or 4 (Table 10). -/
def portLength (x : Port) (chamois : Bool) (tested : Nat) (f : Option DiagFinding) (free : Nat) : Nat :=
  median (((findingsOf f).zipIdx.filter fun e =>
      decide (e.2 < tested) && (let c := (resultOf x.diag chamois e.1).1; c == 0 || c == 4)).map
    fun e => pairLength x.diag chamois e.1) free

/-- DIAG_DONE (R245, R374). -/
def diagDone (kind status : Nat) (codes : List Nat) (length : Nat) (addr : BitVec 64) : List Fld :=
  [(0, 1, kind), (1, 1, status), (2, 1, codes.getD 0 6), (3, 1, codes.getD 1 6), (4, 1, codes.getD 2 6),
   (5, 1, codes.getD 3 6), (6, 2, length), (8, 8, addr.toNat)]

/-- The sweeps' queue of a herd without a port (R240); the path is free again when its holder leaves and no other
sweep waits (R255, Table 2). -/
def dropSweep (s : State) (p : PortId) : State :=
  modHerd s (herdOf p) fun x =>
    let l := x.obs.sweeps.filter (· != p)
    let waits := l.any fun q => (getPort s q).diag.st == .waiting
    { x with obs := { x.obs with
        sweeps := l,
        st := if x.obs.st == .chamois && x.obs.sweeps.head? == some p && !waits then .stopped else x.obs.st } }

/-- Pairs whose TDR has completed (R239): all from step 3 on. -/
def pairsTested (x : Port) : Nat := if x.diag.step ≤ 1 then 0 else if x.diag.step = 2 then x.diag.tdr else 4

/-- Whether a Chamois runs or waits on a port. -/
def chamoisRuns (x : Port) : Bool := x.diag.st == .chamois || x.diag.st == .waiting

/-- Where a port goes after a Chamois or a foreground run: back to its state, or a new attempt (R237, R451). -/
def returnTo (s : State) (p : PortId) (st : PortSt) : State :=
  match st with
  | .negotiate => newAttempt s p
  | .disabled => setSt s p .disabled
  | .hold => setSt s p .hold
  | _ => setSt s p st

/-- Ends a Chamois or passive computation with its result (R239 step 6, R243): the result goes to its buffer, or is
kept (R238), then DIAG_DONE is posted. `full` says that every step completed. -/
def diagEnd (s : State) (p : PortId) (chamois full : Bool) (f : Option DiagFinding) : State :=
  let x := getPort s p
  let tested := if full || !chamois then 4 else pairsTested x
  let skip := x.diag.skip
  let nextDone := !skip && (full || decide (4 ≤ x.diag.step))
  let ilDone := !skip && (full || decide (5 ≤ x.diag.step))
  let d := freeNat s
  let s := d.2
  let len := portLength x chamois tested f d.1
  let codes := diagCodes x chamois tested f
  let status := if full then 0 else 1
  let fs := diagFields s p chamois status tested nextDone ilDone f len
  let kind := if chamois then 2 else 1
  let s := dropSweep s p
  match x.diag.buf with
  | some k =>
    let s := finishIn s k (resultSize x.diag.mode x.diag.cable chamois x.diag.profile) fs
    let s := modPort s p fun y => { y with diag := { Diag.none with kept := y.diag.kept,
                                                                    keptEvent := y.diag.keptEvent } }
    postPort s p 9 (diagDone kind status codes len k.desc.addr)
  | none =>
    let ev := diagDone kind status codes len 0
    let s := modPort s p fun y => { y with diag := { Diag.none with kept := some fs, keptEvent := ev } }
    postPort s p 9 ev

/-- A passive computation ends with its result (R234 to R236). -/
def endPassive (s : State) (p : PortId) : State :=
  let g := (getPort s p).diag
  if g.st == .passive then diagEnd s p false true (g.coefs.map (passiveFinding g)) else s

/-- Ends a running Chamois early, if one runs (R243). -/
def endChamois (s : State) (p : PortId) : State :=
  if chamoisRuns (getPort s p) then diagEnd s p true false (getPort s p).diag.found else s

/-- Whether OBS.START holds a herd's path (R237). -/
def obsHeld (x : Herd) : Bool := x.obs.st == .settling || x.obs.st == .running || x.obs.st == .fading

/-- Begins a Chamois on a port whose line is its own (R237 to R240). -/
def startChamois (s : State) (p : PortId) (skip profile auto : Bool) (buf : Option Taken) (endState : PortSt) : State :=
  let h := herdOf p
  let ahead := (getHerd s h).obs.sweeps.length
  let limit := if skip then 36000 else 80000 + 44000 * ahead
  let s := modPort s p fun x =>
    { x with diag :=
        { x.diag with st := .chamois, step := 1, skip := skip, profile := profile, auto := auto, frozen := false,
                      cable := livePar x 0x41, board := livePar x 0x42, thr := livePar x 0x43, buf := buf,
                      start := now s, startMono := s.mono, stepMono := s.mono, limit := limit, tdr := 0,
                      mode := x.mode, coefs := none, endState := endState, order := (getHerd s h).diagSeq,
                      found := none } }
  modHerd s h fun x =>
    { x with diagSeq := x.diagSeq + 1,
             obs := { x.obs with sweeps := if skip then x.obs.sweeps else x.obs.sweeps ++ [p] } }

/-- The automatic run on entry to HOLD (R131, R238); a passive result still being computed is written first (R234). -/
def autoChamois (s : State) (p : PortId) : State :=
  let s := if attPar (getPort s p) 0x03 = 1 then endPassive s p else s
  let x := getPort s p
  if attPar x 0x03 = 1 && !chamoisRuns x then
    let ring := activeRing s 3 (.port p)
    let k := takeIn s ring 1280
    let s := match k.got with
      | some _ => k.st
      | none =>
        match ring with
        | none => k.st
        | some r =>
          match (getRing k.st r).bufs with
          | [] => k.st
          | d :: rest =>
            let t := popBuf k.st r d rest
            completeBuf t.2 2 t.1 stBadParam 0
    startChamois s p (obsHeld (getHerd s (herdOf p))) false true k.got .hold
  else s

/-- Enters HOLD from attempts exhausted or from LINK_DOWN with RELINK = 0 (R97, R131). -/
def enterHold (s : State) (p : PortId) : State :=
  let s := setSt s p .hold
  autoChamois (modPort s p fun x => { lineQuiet x with neg := Neg.none, start := Start.none }) p

/-! ### Foreground calibration -/

/-- CAL_DONE (R454, R374). -/
def calDone (s : State) (p : PortId) (status : Nat) : State :=
  match (getPort s p).cal with
  | some r =>
    let s := modPort s p fun x => { x with cal := none }
    postPort s p 12 [(0, 1, r.done.toNat), (1, 1, status), (2, 1, 0x0F), (4, 4, (s.mono - r.startMono) / 1000)]
  | none => s

/-- Ends a foreground run early, if one runs (R453). -/
def endCal (s : State) (p : PortId) : State := if (getPort s p).cal.isSome then calDone s p 1 else s

/-! ### Aborts and leaving UP -/

/-- Adds to a persistent counter of a port. -/
def countPers (s : State) (p : PortId) (off : Nat) : State := modPort s p fun x => persAdd x off 1

/-- The record of exhausted attempts, and HOLD (R130). -/
def exhaust (s : State) (p : PortId) (at_ : PortSt) (attempt : Nat) : State :=
  let cause := if (getPort s p).partnerPage then 0x03 else 0x02
  enterHold (postAbort s p cause at_ attempt .hold) p

/-- A counted abort or failed attempt that leads to NEGOTIATE, or to HOLD when the count reaches NEG_ATTEMPTS (R128 to
R130). `cause` is the record it posts, if any; `seen` says that a partner page belongs to the attempt. -/
def countedFail (s : State) (p : PortId) (cause : Option Nat) (seen : Bool) : State :=
  let x := getPort s p
  let s := countAttempt s p seen
  let full := exhausted (getPort s p)
  let entered := if full then .hold else .negotiate
  let s := match cause with
    | some c => postAbort s p c x.st (x.attempts + 1) entered
    | none => s
  if full then exhaust s p x.st (x.attempts + 1) else newAttempt s p

/-- A port leaves T0 for NEGOTIATE on received DME: counted, no record of its own (R119, R129). -/
def dmeRestart (s : State) (p : PortId) : State := countedFail s p none true

/-- An abort that does not count: TRAINING_ABORTED and the state entered; the caller goes on there (R128). -/
def abortTo (s : State) (p : PortId) (cause : Nat) (entered : PortSt) : State :=
  let x := getPort s p
  let s := postAbort s p cause x.st (x.attempts + 1) entered
  modPort s p fun y => { lineQuiet y with start := Start.none }

/-- A live handover of a slave trunk's common loop begins (R55, R56). -/
def handoverStart (s : State) (h : HerdId) : State :=
  modHerd s h fun x =>
    if x.timing == .trunkSlave || x.timing == .handover then { x with timing := .handover } else x

/-- Commands waiting for the partner over the InfoField complete with ST_NO_PARTNER and the LINK_DOWN cause (R312). -/
def failWaits (s : State) (p : PortId) (cause : Nat) : State :=
  let mine := s.waits.filter fun w => match w with
    | .paired q _ _ _ => q == p
    | .loop q _ _ => q == p
    | _ => false
  let s := { s with waits := s.waits.filter fun w => match w with
    | .paired q _ _ _ => q != p
    | .loop q _ _ => q != p
    | _ => true }
  forEach mine (fun s w => match w with
    | .paired _ c _ _ => reject s 0x0301 c stNoPartner (BitVec.ofNat 64 cause)
    | .loop _ c _ => reject s 0x0107 c stNoPartner (BitVec.ofNat 64 cause)
    | _ => s) s

/-- Bytes of a group of 80 blocks. -/
def groupBytes : Nat := 640

/-- A port leaves UP for a state: LINK_DOWN with its cause (R97, R132, R374). -/
def leaveUp (s : State) (p : PortId) (cause : Nat) (next : PortSt) : State :=
  let x := getPort s p
  let pay := [(0, 1, cause), (1, 1, portCode next), (2, 2, (portMargin x).toNat), (8, 8, (s.mono - x.upMono) / 1000)]
  let s := setPort s p
    { lineQuiet (histClose (quietClose s (statAdd (persAdd (slewMark s x) 0xB8 1) 0x80 (groupBytes * x.dp.wake.length)))) with
        dp := { x.dp with elastic := [], wake := [], looped := [], toHost := [] },
        lastDown := BitVec.ofNat 8 cause, wander := Wander.reset, lastSave := none, firstSaved := false,
        saveHeld := false,
        partnerHeld := false, sig := 0 }
  let s := setSt s p next
  let s := if (getHerd s (herdOf p)).lead == some ⟨p.val % 8, Nat.mod_lt _ (by decide)⟩ then handoverStart s (herdOf p)
    else s
  let s := if (x.cal.map (·.inLpi)).getD false then endCal s p else s
  failWaits (postPort s p 1 pay) p cause

/-- LINK_DOWN with a cause of 0x01 to 0x05, and where RELINK leads (R133). -/
def linkDown (s : State) (p : PortId) (cause : Nat) : State :=
  let x := getPort s p
  if x.st == .up then
    if attPar x 0x02 = 1 then newAttempt (clearAttempts (leaveUp s p cause .negotiate) p) p
    else enterHold (leaveUp s p cause .hold) p
  else s

/-- A port goes to T0, Tahr (R97, R118); a PARTNER_LOST abort keeps the front-end calibration (R126). -/
def enterT0 (s : State) (p : PortId) (keepCal newStart : Bool) : State :=
  let s := setSt s p .t0
  let s := if newStart then countPers s p 0xD0 else s
  let s := dieTrigger s (dieOf p)
  modPort s p fun x =>
    { lineQuiet x with startPath := 2, trainNext := false,
                       start := { Start.none with calibrated := keepCal } }

/-- A Springbok start falls back to T0 without an event; SPRINGBOK_FALLBACKS rises by 1 (R114, R154). -/
def springbokFallback (s : State) (p : PortId) : State := enterT0 (countPers s p 0xC8) p false true

/-! ### Herd timing (R53 to R55) -/

/-- The partner of a port as herd timing sees it: DEVICE_TAG and partner herd (R104). -/
def partnerHerd (x : Port) : BitVec 45 :=
  (x.partner >>> 9).setWidth 39 |>.setWidth 45 |>.or (((x.partner &&& 0x1FF) >>> 3).setWidth 45 <<< 39)

/-- The lowest-numbered port of a herd that is up and locked (R55): timing lock, superframe lock and signal detect on
every pair. -/
def nextLead (s : State) (h : HerdId) : Option (Fin 8) :=
  (List.finRange 8).find? fun k =>
    let x := getPort s (portOf h k)
    x.st == .up && x.lock.timing && (quadList x.lock.frame).all id && (quadList x.lock.signal).all id

/-- Whether all eight ports of a herd are up with one partner herd and one role (R54). -/
def trunkForms (s : State) (h : HerdId) : Bool :=
  let ps := (portsOf h).map (getPort s)
  match ps with
  | [] => false
  | x :: _ =>
    !(getHerd s h).policy && ps.all fun y =>
      y.st == .up && partnerHerd y == partnerHerd x && y.role == x.role

/-- Whether two ports' clocks are locked, so that a slot between them runs at full depth (R70): both timing masters, or
both in a herd in TRUNK_SLAVE; a handover does not change the relation (R72). -/
def fullDepth (s : State) (p q : PortId) : Bool :=
  ((getPort s p).role == some .master && (getPort s q).role == some .master) ||
    match (getHerd s (herdOf p)).timing with
    | .trunkSlave => true
    | .handover => true
    | _ => false

/-- The other ports of its herd survey when a port starts transmitting in T1 or Springbok (R67). -/
def surveyOthers (s : State) (p : PortId) : State :=
  forEach ((portsOf (herdOf p)).filter (· != p)) (fun t q => modPort t q fun x =>
    if adapts x then { x with survey := quadMap (fun o => some (o.getD false)) x.survey } else x) s

/-- Surveys begin when a port starts T1 or Springbok (R67): its own, and its herd's other ports'. -/
def surveyStart (s : State) (p : PortId) : State :=
  surveyOthers (modPort s p fun x => { x with survey := Quad.all (some true) }) p

/-- A slot whose clock relation has changed changes path and drops to TRACKING if it was in FINE (R72). While an end of
the relation has no role, at an attempt, the slot keeps its path: its aggressor does not send (R69). -/
def repathSlot (s : State) (p : PortId) (v : Slot) : Slot :=
  let r := !fullDepth s p (aggrPort (herdOf p) v.aggressor)
  if v.resampled == r || (getPort s p).role.isNone || (getPort s (aggrPort (herdOf p) v.aggressor)).role.isNone then v
  else { v with resampled := r, blocks := [], level := min v.level 1 }

/-- Every slot of a port follows its clock relation (R70). -/
def repathPort (s : State) (p : PortId) : State :=
  modPort s p fun x =>
    { x with pairs := quadMap (fun q => { q with slots := q.slots.map fun o => o.map (repathSlot s p) }) x.pairs }

/-- Every slot of a herd follows its clock relation (R72). -/
def repath (s : State) (h : HerdId) : State := forEach (portsOf h) repathPort s

/-- A herd tells the partner of each port that is up who leads and whether its trunk is formed (HERD_TIMING, Table 7
of The Usrubry Line Format). The spec does not say when it is sent: DESIGN CHOICE, log 57. -/
def tellTiming (s : State) (h : HerdId) : State :=
  let y := getHerd s h
  let pay : BitVec 64 := BitVec.ofNat 64 ((y.lead.map (·.val)).getD 0 + 256 * bit y.trunk.isSome)
  forEach (portsOf h) (fun s q => if (getPort s q).st == .up then sendInfo s q 0x30 pay none else s) s

/-- A herd in PER_PORT whose trunk condition holds forms its trunk (R54, R55), in which its first port's role is that
of all. The first lead: DESIGN CHOICE, log 57. -/
def formTrunk (s : State) (h : HerdId) : State :=
  let x := getPort s (portOf h 0)
  let y := getHerd s h
  if y.timing == .perPort && trunkForms s h then
    match x.role with
    | some .master => tellTiming (setHerd s h { y with timing := .trunkMaster,
                                                       trunk := some (partnerHerd x, .master) }) h
    | _ =>
      let l := nextLead s h
      tellTiming (setHerd s h { y with timing := .trunkSlave, lead := l, trunk := some (partnerHerd x, .slave)
                                       loopFreq := (getPort s (portOf h (l.getD 0))).freqWord }) h
  else s

/-- Herd timing after a port has come up (R54, R55). The loss of the lead into HOLDOVER and HANDOVER_COUNT at each:
DESIGN CHOICE, log 57. -/
def timingUp (s : State) (p : PortId) : State :=
  let h := herdOf p
  let x := getPort s p
  let y := getHerd s h
  let k : Fin 8 := ⟨p.val % 8, Nat.mod_lt _ (by decide)⟩
  match y.timing with
  | .perPort => formTrunk s h
  | .holdover =>
    if (y.trunk.map (·.1)) == some (partnerHerd x) then
      tellTiming (setHerd s h { y with timing := .trunkSlave, lead := some k, handovers := y.handovers + 1 }) h
    else setHerd s h { y with timing := .perPort, lead := none, trunk := none }
  | _ =>
    if (y.trunk.map (·.1)) == some (partnerHerd x) then
      if (y.lead.map fun l => decide (k.val < l.val)).getD false then handoverStart s h else s
    else setHerd s h { y with timing := .perPort, lead := none, trunk := none }

/-- A trunk dissolves (R54). -/
def dissolve (s : State) (h : HerdId) : State :=
  repath (modHerd s h fun y => { y with timing := .perPort, lead := none, trunk := none }) h

/-! ### Entering UP -/

/-- An idle group as the device makes it. -/
def idleGroup : HostCw := { verdict := .ok [], kind := .idle, symbols := [], ppm := 0 }

/-- The fill the elastic stage or the rate adapter starts from: one codeword (R161), or two (R163). -/
def centred (x : Port) : List HostCw := if x.fec = 0 then [idleGroup] else [idleGroup, idleGroup]


/-- A port enters UP (R97): LINK_UP, the counts, the elastic stage centred (R161), MARGIN_LOW re-armed, with its
crossings counted on (R227). -/
def enterUp (s : State) (p : PortId) (sig gen : BitVec 32) : State :=
  let s := setSt (modPort s p (slewMark s)) p .up
  let x := getPort s p
  let y := { persAdd x 0xB0 1 with
    attempts := 0, partnerPage := false, sig := sig, linkGen := gen, upTime := now s, upMono := s.mono,
    lastSave := none, firstSaved := false, saveHeld := false, partnerHeld := false, wander := Wander.reset,
    mlow := { MarginLow.reset with crossings := x.mlow.crossings }, period := (0, 0, 0),
    dp := { DataPath.empty with cwLock := x.dp.cwLock, hostPpm := x.dp.hostPpm, elastic := centred x,
                                toHost := if x.fec = 0 then [] else centred x },
    pairs := quadMap (fun q => { q with snrMin := q.snr, marginMin := q.margin,
                                        dsp := { q.dsp with means := [], meanN := 0 } }) x.pairs,
    lpi := Lpi.reset, start := { x.start with ctx := none } }
  let s := setPort s p y
  let s := postPort s p 0
    [(0, 1, x.startPath.toNat), (1, 1, modeCode x.mode), (2, 1, x.fec.toNat), (3, 1, roleCode x.role % 256),
     (4, 4, sig.toNat), (8, 4, gen.toNat), (12, 4, (s.mono - x.negEnd) / 1000)]
  repath (timingUp s p) (herdOf p)

/-! ### Safe state of a port (R391, R393) -/

/-- The state a port returns to when its safe state ends: DISABLED or HOLD, else NEGOTIATE (R393). -/
def backOf (x : Port) : PortSt :=
  let st := if x.st == .safe || x.st == .test then x.back else
    if chamoisRuns x then x.diag.endState else (x.cal.map (·.endState)).getD x.st
  match st with
  | .disabled => .disabled
  | .hold => .hold
  | _ => .negotiate

/-- A reaction quiets a port: SAFE, with LINK_DOWN or TRAINING_ABORTED of cause SAFE_STATE when it was up or training
(R391, R392). A Chamois and a foreground run end (R243, R453), as does a passive computation's port. -/
def enterSafe (s : State) (p : PortId) : State :=
  let back := backOf (getPort s p)
  let s := endCal (endChamois s p) p
  let x := getPort s p
  let s := if x.st == .up then leaveUp s p 0x08 .safe
    else if isTraining x.st then setSt (abortTo s p 0x0D .safe) p .safe
    else setSt s p .safe
  modPort s p fun y => { lineQuiet y with back := back, neg := Neg.none, start := Start.none,
                                          loop := if y.loop == .digital then .none else y.loop }

/-- A port leaves SAFE or TEST (R393, R155): to DISABLED or HOLD, else to NEGOTIATE with an attempt count of 0. -/
def releasePort (s : State) (p : PortId) : State :=
  let x := getPort s p
  match x.back with
  | .disabled => setSt s p .disabled
  | .hold => setSt s p .hold
  | _ => newAttempt (clearAttempts s p) p

end Sys2Proof.Machine
end

