-- ==== Sys2Proof/Machine/Observe.lean ====
section
/-!
DEFINITION. The observation path of a herd (10 The Observation Path and Its Filter, R246 to R265): its commands and
events, with the checks that every port and herd command meets at its target (R310).
-/

namespace Sys2Proof.Machine

/-! ### Checks 1 and 2 of R310 -/

/-- ST_BUSY_TEST with the remaining self-test time (R459). -/
def busyTest (s : State) (h : HerdId) : BitVec 8 × BitVec 64 := (stBusyTest, BitVec.ofNat 64 (testLeft s h))

/-- Whether a herd safe-state reaction runs on a herd (R28): from the cycle that raised the fault. -/
def herdReacts (s : State) (h : HerdId) : Bool :=
  s.flt.running.any fun w => match w.scope with
    | .port _ => false
    | sc => coversPort sc (portOf h 0)

/-- Whether a herd is in herd safe state or its reaction runs, or held by a fixed reaction (R545). -/
def herdIsSafe (s : State) (h : HerdId) : Bool :=
  heldByFixed s || herdReacts s h || (getHerd s h).st == .safe || (getHerd s h).st == .failed

/-- Checks 1 and 2 of a herd target (R310): self-test, safe state. -/
def herdGate (s : State) (h : HerdId) : Option (BitVec 8 × BitVec 64) :=
  if (getHerd s h).st == .selfTest then some (busyTest s h)
  else if herdIsSafe s h then some (stRefused, 0xFF)
  else none

/-- ST_REFUSED_STATE with PORT_STATE (R308). -/
def refusedPort (s : State) (p : PortId) : BitVec 8 × BitVec 64 := (stRefused, BitVec.ofNat 64 (shownPort s p))

/-- Checks 1 and 2 of a port target (R310); a port that a reaction took out of a self-test meets the reaction (R28). -/
def portGate (s : State) (p : PortId) : Option (BitVec 8 × BitVec 64) :=
  if (getHerd s (herdOf p)).st == .selfTest then some (busyTest s (herdOf p))
  else if herdIsSafe s (herdOf p) || (getPort s p).st == .safe || (getPort s p).st == .test ||
      (s.flt.running.any fun w => coversPort w.scope p) then
    some (refusedPort s p)
  else none

/-! ### Whose turn it is at a herd controller (R23, R28, R339) -/

/-- The command that a fade holds (R260). -/
def obsCmd : ObsWait → Cmd
  | .select c _ _ => c
  | .stop c => c
  | .start c _ _ _ => c

/-- The command that a wait completes (R312). -/
def waitCmd : Wait → Cmd
  | .paired _ c _ _ => c
  | .loop _ c _ => c
  | .level _ c => c
  | .sync c _ => c

/-- Whether a command of a herd has passed the checks of its target and waits for an outcome (R312). -/
def parked (s : State) (h : HerdId) (c : Cmd) : Bool :=
  s.waits.any (fun w => waitCmd w == c) || (getHerd s h).obs.waits.any (fun w => obsCmd w == c) ||
    (getHerd s h).obs.stoppers.contains c || (portsOf h).any fun p => (getPort s p).save.any fun x => x.cmd == some c

/-- Whether two commands of a herd share a commit point: those of one port, and the herd's with each (R23). -/
def sharePoint (c d : Cmd) : Bool :=
  c.target == d.target || (match targetOf c.target, targetOf d.target with
    | some (.herd _), _ => true
    | _, some (.herd _) => true
    | _, _ => false)

/-- Whether no command that reached a herd controller before this one is still to be executed at its commit point. -/
def isNext (s : State) (h : HerdId) (c : Cmd) : Bool :=
  ((getHerd s h).queue.takeWhile (· != c)).all fun d => parked s h d || !sharePoint c d

/-- Whether a herd controller takes a command now (R23): not while it restarts (R28), not while a herd commit waits
(R339), not again while the command itself waits, and in the order of arrival. Until then the command waits. -/
def myTurn (s : State) (c : Cmd) : Bool :=
  match (targetOf c.target).bind targetHerd with
  | none => true
  | some h =>
    (getHerd s h).st != .fwRestart && (getHerd s h).commit.isNone && !parked s h c && isNext s h c

/-- BIST.RUN is checked at once while a herd commit waits (R339). -/
def testTurn (s : State) (c : Cmd) : Bool :=
  match (targetOf c.target).bind targetHerd with
  | none => true
  | some h => (getHerd s h).st != .fwRestart && ((getHerd s h).commit.isSome || isNext s h c)

/-- Whether a herd controller executes commands: it is powered and not held in reset. -/
def herdServes (s : State) : Bool := inService s

/-! ### The path -/

/-- Group delay of the decimation chain, output samples (R249, Table 1). -/
def groupDelay : Nat → Nat
  | 2 => 12
  | 3 => 14
  | _ => 15

/-- Maximum TAPS behind a decimation (R249, Table 1). -/
def maxTaps : Nat → Nat
  | 2 => 24
  | 3 => 48
  | 4 => 96
  | 5 => 192
  | _ => 384

/-- The selected bank. -/
def selBank (o : Obs) : Bank := if o.sel then o.bank1 else o.bank0

/-- The bank that is not selected. -/
def otherBank (o : Obs) : Bank := if o.sel then o.bank0 else o.bank1

/-- A half-band filter's weight in units of 2^−16 at a distance from its middle (R248): one half in the middle, 0 at
the even distances; those at the odd ones add up to one half, which makes the gain at 0 Hz one. The seven at 1 to 13
are free values. -/
def halfWeight (d : Nat) : Int :=
  if d = 0 then 32768
  else if d % 2 = 0 then 0
  else if d < 15 then Config.halfBand (d / 2)
  else 16384 - ((List.range 7).map Config.halfBand).sum

/-- To 16 bits with saturation. -/
def clip16 (v : Int) : Int := max (-32768) (min 32767 v)

/-- A half-band filter's output (R248), rounded to 16 bits. A half rounds up: DEDUCED, log 32. -/
def halfOut (line : List Int) : Int :=
  clip16 (((line.zipIdx.map fun e => halfWeight (if e.2 ≤ 15 then 15 - e.2 else e.2 - 15) * e.1).sum + 32768) / 65536)

/-- A code enters the chain (R248): each filter passes every second output to the next, the last one's is the chain's.
-/
def chainPush : List HalfBand → Int → List HalfBand × Option Int
  | [], v => ([], some v)
  | f :: l, v =>
    let line := (v :: f.line).take 31
    if f.second then
      let r := chainPush l (halfOut line)
      ({ line := line, second := false } :: r.1, r.2)
    else ({ line := line, second := true } :: l, none)

/-- The chain's DECIM filters; those not used before hold zeros. -/
def chainOf (o : Obs) : List HalfBand :=
  (List.range o.decim).map fun i => o.chain.getD i { line := [], second := false }

/-- Coefficient i times the input i output samples back, in units of 2^−16 (R250). -/
def firSum (coeffs : List (BitVec 18)) (line : List Int) : Int := ((coeffs.zip line).map fun e => e.1.toInt * e.2).sum

/-- The filter's output to 16 bits with saturation at ±32,767, and whether it saturates (R250). A half rounds up:
DEDUCED, log 32. -/
def firRound (num : Int) (den : Nat) : Int × Bool :=
  let v := (2 * num + den) / (2 * den)
  if 32767 < v then (32767, true) else if v < -32767 then (-32767, true) else (v, false)

/-- An output sample (R250, R258): the selected bank's, in a fade the mix of the other's and its. -/
def firOut (o : Obs) : Int × Bool :=
  let new := firSum (selBank o).coeffs o.line
  if o.st == .fading then
    firRound (firSum (otherBank o).coeffs o.line * (o.fadeLen - o.fadeGone : Nat) + new * o.fadeGone) (65536 * o.fadeLen)
  else firRound new 65536

/-- The delivered samples' bytes in a buffer (R262). -/
def sampleFields (l : List ObsOut) : List Fld :=
  l.zipIdx.map fun e => (0x40 + 2 * e.2, 2, (BitVec.ofInt 16 e.1.val).toNat)

/-- How many of the samples are saturated (Table 4). -/
def clippedOf (l : List ObsOut) : Nat := (l.filter (·.clip)).length

/-- Samples that the 256 KiB capture buffer holds (R261). -/
def captureRoom : Nat := 131072

/-- A delivered sample enters the capture buffer, or is dropped where that is full (R262). A BLOCK takes COUNT samples
(R261). -/
def obsDeliver (o : Obs) (mode : LineMode) (t : BitVec 64) : Obs :=
  let y := firOut o
  if o.mode == 0 && decide (o.count ≤ o.sent) then o
  else if captureRoom ≤ o.held.length then
    { o with sent := o.sent + 1, dropped := o.dropped + 1, droppedRun := o.droppedRun + 1, drop := o.drop + 1 }
  else
    let x : ObsOut :=
      { val := y.1, clip := y.2, bank := o.sel, fade := if o.st == .fading then some (o.fadeGone, o.fadeLen) else none,
        time := t, source := o.source, decim := o.decim, mode := mode, supp := o.supp, drop := o.drop,
        stepped := o.stepped }
    { o with sent := o.sent + 1, held := o.held ++ [x], supp := 0, drop := 0, stepped := false }

/-- An output of the chain reaches the filter (Table 2): suppressed in SETTLING, until the count is reached (R256),
delivered in RUNNING and FADING; the last output of a fade ends it (R258). -/
def obsSample (o : Obs) (mode : LineMode) (t : BitVec 64) (v : Int) : Obs :=
  let o := { o with line := (v :: o.line).take 384 }
  match o.st with
  | .settling =>
    { o with settle := o.settle - 1, supp := o.supp + 1, suppressed := o.suppressed + 1
             st := if o.settle ≤ 1 then .running else .settling }
  | .running => obsDeliver o mode t
  | .fading =>
    let o := obsDeliver o mode t
    { o with fadeGone := o.fadeGone + 1, st := if o.fadeLen ≤ o.fadeGone + 1 then .running else .fading }
  | _ => o

/-- A code of the source's enters the chain (R246, R248): an 8-bit code x as 256 x. `t` is FIRST_TIME of the output it
may complete: its own device time less the chain's group delay of 15 (D − 1) codes (Table 4). -/
def obsTake (o : Obs) (mode : LineMode) (t : BitVec 64) (code : Int) : Obs :=
  let r := chainPush (chainOf o) (256 * code)
  match r.2 with
  | some v => obsSample { o with chain := r.1 } mode t v
  | none => { o with chain := r.1 }

/-- The port that owns a source's pair (R246). -/
def sourcePort (h : HerdId) (src : Nat) : PortId := portOf h ⟨(src % 32) / 4 % 8, Nat.mod_lt _ (by decide)⟩

def getObs (s : State) (h : HerdId) : Obs := (getHerd s h).obs
def setObs (s : State) (h : HerdId) (o : Obs) : State := modHerd s h fun x => { x with obs := o }

/-- Whether the path filters: SETTLING or RUNNING. -/
def obsRuns (o : Obs) : Bool := o.st == .settling || o.st == .running

/-- A step (R256): the settling count starts again; what a broken count had suppressed stays counted. -/
def obsStep (o : Obs) : Obs :=
  { o with st := .settling, settle := (selBank o).taps + groupDelay o.decim, stepped := true }

/-- µs until the last waiting Chamois sweep of a herd ends (R240, R265): the test's limit less its analysis. -/
def sweepLeft (s : State) (h : HerdId) : Nat :=
  (getObs s h).sweeps.foldl (fun n p =>
    let d := (getPort s p).diag
    max n (d.limit - 10000 - (s.mono - d.startMono) / 1000)) 1

/-- Whether Chamois holds or waits for the path (R265). -/
def sweepsHold (s : State) (h : HerdId) : Bool := !(getObs s h).sweeps.isEmpty

/-- The gate of OBS.SELECT, OBS.START and OBS.SWAP (R265). -/
def obsGate (s : State) (h : HerdId) : Option (BitVec 8 × BitVec 64) :=
  match herdGate s h with
  | some r => some r
  | none => if sweepsHold s h then some (stBusyTest, BitVec.ofNat 64 (sweepLeft s h)) else none

/-- A capture buffer's header (R262, Table 4) over its samples. What lies between the first sample of the previous
buffer and the first of this one counts in this header: DEDUCED, log 35. Without a sample the settings are those of
the stop, and FIRST_TIME is `noTime`. -/
def captureHeader (s : State) (h : HerdId) (l : List ObsOut) (noTime : BitVec 64) (last : Option ObsEnd) : List Fld :=
  let x := getHerd s h
  let o := x.obs
  let e := last.getD { cause := 0, source := o.source, decim := o.decim, mode := pllRuns x }
  let b := l.head?.getD
    { val := 0, clip := false, bank := o.sel, fade := none, time := noTime, source := e.source, decim := e.decim,
      mode := e.mode, supp := o.supp, drop := o.drop, stepped := o.stepped }
  let fade := b.fade.getD (0xFFFF, 0)
  let drop := o.dropBuf + b.drop
  [(0x00, 2, h.val), (0x02, 1, b.source), (0x03, 1, b.decim), (0x04, 4, o.seq.toNat), (0x08, 8, b.time.toNat),
   (0x10, 4, l.length), (0x14, 4, o.suppBuf + b.supp), (0x18, 4, drop), (0x1C, 2, min 0xFFFF (clippedOf l)),
   (0x1E, 1, bit b.bank),
   (0x1F, 1, bit (decide (drop ≠ 0)) + 2 * bit last.isSome + 4 * bit (o.stepBuf || b.stepped)), (0x20, 2, fade.1),
   (0x22, 2, fade.2), (0x24, 1, modeCode b.mode), (0x25, 1, if last.isSome then e.cause else 0)]

/-- CAPTURE_READY of a buffer, at most one per 100 µs (R264), against the port of its source. -/
def captureReady (s : State) (h : HerdId) (source : Nat) (k : Taken) : State :=
  postLimitedNaming s (portSrc (sourcePort h source) 13) 0
    [(0, 1, 0), (1, 1, source), (8, 8, (getObs s h).droppedRun)] (some 4) 1 (some k)

/-- CAPTURE_READY of a stop, always posted (R264), with what an interval still held. -/
def captureStopped (s : State) (h : HerdId) (e : ObsEnd) (k : Option Taken) : State :=
  let p := sourcePort h e.source
  let key := 4 * portSrc p 13
  let n := (getInterval s key).count + bit k.isSome
  let s := setInterval s key { open_ := true, held := none, count := 0 }
  postNaming s p 13 [(0, 1, e.cause), (1, 1, e.source), (4, 4, n), (8, 8, (getObs s h).droppedRun)] k

/-- The data-in ring a capture fills. -/
def captureRing (o : Obs) : Option RingId :=
  if h : o.ring.toNat < 16384 then some ⟨o.ring.toNat, h⟩ else none

/-- Whether a capture's ring can still offer a buffer. -/
def captureLives (s : State) (o : Obs) : Bool :=
  match captureRing o with
  | some r => (getRing s r).st == .active || (getRing s r).st == .draining
  | none => false

/-- The capture takes a buffer of at least 4 KiB from its ring, if that offers one and the hub can take the data
(R262, R295). It holds the buffer until that is finished (R280). -/
def captureTake (s : State) (h : HerdId) : State :=
  let o := getObs s h
  match o.buf, captureRing o with
  | none, some r =>
    if hubListens s h && captureLives s o then
      let k := takeIn s (some r) 4096
      setObs k.st h { getObs k.st h with buf := k.got }
    else s
  | _, _ => s

/-- Samples that fit into a buffer behind its header (R262). -/
def sampleRoom (b : Taken) : Nat := (b.desc.length.toNat - 64) / 2

/-- Writes the first `n` held samples to the buffer taken (R262). -/
def captureWrite (s : State) (h : HerdId) (b : Taken) (n : Nat) (noTime : BitVec 64) (last : Option ObsEnd) : State :=
  let o := getObs s h
  let l := o.held.take n
  let s := finishIn s b (64 + 2 * l.length) (captureHeader s h l noTime last ++ sampleFields l)
  setObs s h
    { o with held := o.held.drop n, buf := none, seq := o.seq + 1, suppBuf := (l.tail.map (·.supp)).sum,
             dropBuf := (l.tail.map (·.drop)).sum, stepBuf := l.tail.any (·.stepped) }

/-- Full buffers are written while the ring offers them (R262): of a BLOCK once COUNT samples have been captured
(R261). -/
def captureFill : Nat → HerdId → State → State
  | 0, _, s => s
  | n + 1, h, s =>
    let s := captureTake s h
    let o := getObs s h
    match o.buf with
    | some b =>
      if hubListens s h && decide (sampleRoom b ≤ o.held.length) && !(o.mode == 0 && decide (o.sent < o.count)) then
        let source := ((o.held.head?).map (·.source)).getD o.source
        captureFill n h (captureReady (captureWrite s h b (sampleRoom b) 0 none) h source b)
      else s
    | none => s

/-- A stop is complete: the OBS.STOP commands that waited for the last buffer complete (R263, R320). -/
def stopDone (s : State) (h : HerdId) : State :=
  let o := getObs s h
  let s := setObs s h { o with final := none, stoppers := [], held := [], supp := 0, drop := 0, stepped := false,
                               suppBuf := 0, dropBuf := 0, stepBuf := false }
  forEach o.stoppers (fun s c => completeOk s 0x0505 c [.herd h] 0) s

/-- A stopped path writes the samples it holds, the final buffer marked LAST with the cause, and posts CAPTURE_READY
(R263). It waits for a buffer while its ring may offer one. Without a sample FIRST_TIME is a free value. -/
def captureEnd : Nat → HerdId → ObsEnd → State → State
  | 0, _, _, s => s
  | n + 1, h, e, s =>
    let s := captureTake s h
    let o := getObs s h
    match o.buf with
    | some b =>
      if !hubListens s h then s
      else if o.held.length ≤ sampleRoom b then
        let d := freeNat s
        let s := captureWrite d.2 h b o.held.length (BitVec.ofNat 64 d.1) (some e)
        stopDone (captureStopped s h e (some b)) h
      else
        let source := ((o.held.head?).map (·.source)).getD o.source
        captureEnd n h e (captureReady (captureWrite s h b (sampleRoom b) 0 none) h source b)
    | none => if captureLives s o then s else stopDone (captureStopped s h e none) h

/-- The buffers that the held samples can fill, each of 4 KiB at least, and the last one. -/
def captureSteps (o : Obs) : Nat := o.held.length / 2016 + 2

/-- What the path holds goes to its buffers (R262, R263). -/
def captureDrain (s : State) (h : HerdId) : State :=
  let o := getObs s h
  match o.final with
  | some e => captureEnd (captureSteps o) h e s
  | none => captureFill (captureSteps o) h s

/-- Stops a path that runs (R263). -/
def obsStopWith (s : State) (h : HerdId) (cause : Nat) : State :=
  let x := getHerd s h
  if obsHeld x then
    let o := x.obs
    let e : ObsEnd := { cause := cause, source := o.source, decim := o.decim, mode := pllRuns x }
    captureDrain (setObs s h { o with st := .stopped, final := some e }) h
  else s

/-- Commands that wait for a fade complete with ST_SUPERSEDED when a stop cause ends it (R312). -/
def dropObsWaits (s : State) (h : HerdId) : State :=
  let w := (getObs s h).waits
  let s := setObs s h { getObs s h with waits := [] }
  forEach w (fun s x => match x with
    | .select c _ _ => reject s 0x0501 c stSuperseded 0
    | .stop c => reject s 0x0505 c stSuperseded 0
    | .start c _ _ _ => reject s 0x0504 c stSuperseded 0) s

/-- A stop cause of Table 5 that is the herd's: it does not wait for a fade (R260). -/
def obsCut (s : State) (h : HerdId) (cause : Nat) : State := dropObsWaits (obsStopWith s h cause) h

/-- The path's settings after a self-test (R251, R263): Chamois sweeps have ended. A last buffer that waits keeps its
samples. -/
def obsSelfTest (s : State) (h : HerdId) : State :=
  let s := obsCut s h 0x04
  let o := getObs s h
  setObs s h { o with st := .stopped, source := 0, decim := 6, sel := false, bank0 := Bank.reset, bank1 := Bank.reset,
                      settle := 0, fadeLen := 0, fadeGone := 0, chain := [], line := [], sched := [] }

/-! ### OBS commands -/

/-- OBS.SELECT's action (R247, R254, R256, R257): its checks on the path, then the settings. -/
def doSelect (s : State) (h : HerdId) (c : Cmd) (source decim : Nat) : State :=
  let o := getObs s h
  if (getPort s (sourcePort h source)).st == .safe then reject s 0x0501 c stRefused 0xFF
  else if obsRuns o && decide (maxTaps decim < (selBank o).taps) then reject s 0x0501 c stBadParam (resField 0x11)
  else
    let changed := o.source != source || o.decim != decim
    let o' := { o with source := source, decim := decim }
    completeOk (setObs s h (if changed && obsRuns o then obsStep o' else o')) 0x0501 c [.herd h] 0

/-- OBS.STOP's action (R263). -/
def doStop (s : State) (h : HerdId) (c : Cmd) : State :=
  let s := obsStopWith s h 0x01
  let o := getObs s h
  if o.final.isSome then setObs s h { o with stoppers := o.stoppers ++ [c] } else completeOk s 0x0505 c [.herd h] 0

/-- A last buffer that still waits when the path starts again is not written. DESIGN CHOICE, log 63. -/
def dropLast (s : State) (h : HerdId) : State :=
  match (getObs s h).final with
  | some e => stopDone (captureStopped s h e none) h
  | none => s

/-- OBS.START's action at its start (R256, R261, R321): a step of a running path goes on with its buffers. -/
def doStart (s : State) (h : HerdId) (mode : BitVec 8) (count : BitVec 32) (ring : BitVec 16) : State :=
  let s := dropLast s h
  let o := getObs s h
  let o := if obsRuns o then { o with mode := mode, count := count.toNat, sent := 0 }
    else { o with mode := mode, count := count.toNat, ring := ring, seq := 0, droppedRun := 0, sent := 0 }
  setObs s h (obsStep o)

/-- Puts a start into a herd's schedule; one for a time that has a start replaces it (R321). -/
def putSched (t : BitVec 64) (mode : BitVec 8) (count : BitVec 32) (ring : BitVec 16) :
    List (BitVec 64 × BitVec 8 × BitVec 32 × BitVec 16) → List (BitVec 64 × BitVec 8 × BitVec 32 × BitVec 16)
  | [] => [(t, mode, count, ring)]
  | e :: l =>
    if e.1 = t then (t, mode, count, ring) :: l
    else if t.toNat < e.1.toNat then (t, mode, count, ring) :: e :: l
    else e :: putSched t mode count ring l

/-- What OBS.START meets at the path (R254, R261), in the order of its row: the status and RESULT of a refusal, or the
ring. Which field a bank with too many taps names is a free value. -/
def startCheck (s : State) (h : HerdId) (c : Cmd) (mode : BitVec 8) : BitVec 64 ⊕ RingId :=
  let o := getObs s h
  if maxTaps o.decim < (selBank o).taps then .inl (resField ((freeNat s).1 % 65536))
  else if mode = 1 && decide (200000 * 2 ^ o.decim < adcRate (pllRuns (getHerd s h))) then .inl (resField 0x10)
  else
    match dataRingOf s c (.herd h) 3 with
    | none => .inl (resField 0x06)
    | some r => if obsRuns o && o.ring != BitVec.ofNat 16 r.val then .inl (resField 0x06) else .inr r

/-- OBS.START once no fade runs; a START_TIME that passed while it waited starts at once. -/
def finishStart (s : State) (h : HerdId) (c : Cmd) (mode : BitVec 8) (count : BitVec 32) (t : BitVec 64) : State :=
  match startCheck s h c mode with
  | .inl r => reject { s with fresh := s.fresh + 1 } 0x0504 c stBadParam r
  | .inr r =>
    let ring := BitVec.ofNat 16 r.val
    let s := if t.toNat ≤ (now s).toNat then doStart s h mode count ring
      else setObs s h { getObs s h with sched := putSched t mode count ring (getObs s h).sched }
    completeOk s 0x0504 c [.herd h] 0

/-- Acts on a command that waited for a fade (R260, R321). -/
def obsWaited (h : HerdId) (s : State) (w : ObsWait) : State :=
  match w with
  | .select c source decim => doSelect s h c source.toNat decim.toNat
  | .stop c => doStop s h c
  | .start c mode count t => finishStart s h c mode count t

/-- The commands that waited for a fade act in order. -/
def runObsWaits (s : State) (h : HerdId) : State :=
  let o := getObs s h
  forEach o.waits (obsWaited h) (setObs s h { o with waits := [] })

/-- The source's port enters SAFE alone (R263): the path stops. The herd, which is the target of its commands, enters
neither safe state nor self-test, so those that waited for the fade act (R260, R312). -/
def obsPortSafe (s : State) (h : HerdId) : State := runObsWaits (obsStopWith s h 0x03) h

/-- A HERD.MODE commit changes the ADC rate: the path stops with MODE_CHANGE (R263). -/
def obsModeChange (s : State) (h : HerdId) : State := runObsWaits (obsStopWith s h 0x05) h

/-- OBS.SELECT (R247, R254, R256, R257, R260). -/
def execObsSelect (c : Cmd) (h : HerdId) (source decim : BitVec 8) (s : State) : Host.Outcome State Fault Refusal :=
  .next <|
    if !myTurn s c then s
    else
      match obsGate s h with
      | some r => reject s 0x0501 c r.1 r.2
      | none =>
        let o := getObs s h
        if 63 < source.toNat then reject s 0x0501 c stBadParam (resField 0x10)
        else if decim.toNat < 2 || 8 < decim.toNat then reject s 0x0501 c stBadParam (resField 0x11)
        else if (getPort s (sourcePort h source.toNat)).st == .safe then reject s 0x0501 c stRefused 0xFF
        else if obsHeld (getHerd s h) && decide (maxTaps decim.toNat < (selBank o).taps) then
          reject s 0x0501 c stBadParam (resField 0x11)
        else if o.st == .fading then setObs s h { o with waits := o.waits ++ [.select c source decim] }
        else doSelect s h c source.toNat decim.toNat

/-- The first word that is not the sign extension of an 18-bit value, or that the buffer does not hold (R253). -/
def badWord (taps have_ : Nat) (words : List (BitVec 32)) : Option Nat :=
  (List.range taps).find? fun i =>
    decide (have_ ≤ i) || match words[i]? with
      | some w => !(decide (-131072 ≤ w.toInt) && decide (w.toInt ≤ 131071))
      | none => true

/-- OBS.LOAD_BANK (R250, R252, R253): all or nothing. -/
def execObsLoadBank (c : Cmd) (h : HerdId) (bank : BitVec 8) (taps : BitVec 16) (data : List Byte) (s : State) :
    Host.Outcome State Fault Refusal :=
  .next <|
    let words := leWords data
    if !myTurn s c then s
    else
      match herdGate s h with
      | some r => reject s 0x0502 c r.1 r.2
      | none =>
        let o := getObs s h
        if 1 < bank.toNat then reject s 0x0502 c stBadParam (resField 0x10)
        else if taps = 0 || 384 < taps.toNat then reject s 0x0502 c stBadParam (resField 0x12)
        else if o.st == .fading || o.sel == decide (bank.toNat = 1) then
          reject s 0x0502 c stBankRunning (BitVec.ofNat 64 (bit o.sel))
        else
          let k := takeOut s (dataRingOf s c (.herd h) 4)
          match k.got with
          | none => reject k.st 0x0502 c k.status k.result
          | some b =>
            match badWord taps.toNat (b.desc.length.toNat / 4) words with
            | some i => reject k.st 0x0502 c stBadParam (resWord i)
            | none =>
              let n : Bank := { taps := taps.toNat, coeffs := (words.take taps.toNat).map (·.setWidth 18) }
              let o := getObs k.st h
              let o := if bank.toNat = 1 then { o with bank1 := n } else { o with bank0 := n }
              completeOk (setObs k.st h o) 0x0502 c [.herd h] 0

/-- OBS.SWAP (R254, R257 to R259). -/
def execObsSwap (c : Cmd) (h : HerdId) (fadeLen : BitVec 16) (s : State) : Host.Outcome State Fault Refusal :=
  .next <|
    if !myTurn s c then s
    else
      match obsGate s h with
      | some r => reject s 0x0503 c r.1 r.2
      | none =>
        let o := getObs s h
        let n := fadeLen.toNat
        if n ≠ 0 && (n < 16 || 1024 < n) then reject s 0x0503 c stBadParam (resField 0x10)
        else if o.st == .fading then reject s 0x0503 c stFadeBusy (BitVec.ofNat 64 (fadeLeft (getHerd s h)))
        else if obsRuns o && decide (maxTaps o.decim < (otherBank o).taps) then
          let d := freeNat s
          reject d.2 0x0503 c stBadParam (resField (d.1 % 65536))
        else
          let o' := { o with sel := !o.sel }
          let sel := 256 * bit o'.sel
          if o.st == .running && n ≠ 0 then
            completeOk (setObs s h { o' with st := .fading, fadeLen := n, fadeGone := 0 }) 0x0503 c [.herd h] sel
          else if obsRuns o then completeOk (setObs s h (obsStep o')) 0x0503 c [.herd h] (sel + bit (decide (n ≠ 0)))
          else completeOk (setObs s h o') 0x0503 c [.herd h] sel

/-- OBS.START (R254, R261, R321). -/
def execObsStart (c : Cmd) (h : HerdId) (mode : BitVec 8) (count : BitVec 32) (startTime : BitVec 64) (s : State) :
    Host.Outcome State Fault Refusal :=
  .next <|
    if !myTurn s c then s
    else
      match obsGate s h with
      | some r => reject s 0x0504 c r.1 r.2
      | none =>
        let o := getObs s h
        if 1 < mode.toNat then reject s 0x0504 c stBadParam (resField 0x10)
        else if mode = 0 && (count = 0 || 131072 < count.toNat) then reject s 0x0504 c stBadParam (resField 0x14)
        else if startTime ≠ 0 && decide (startTime.toNat < (now s).toNat) then
          reject s 0x0504 c stBadParam (resField 0x18)
        else if o.st == .fading then
          match startCheck s h c mode with
          | .inl r => reject { s with fresh := s.fresh + 1 } 0x0504 c stBadParam r
          | .inr _ => setObs s h { o with waits := o.waits ++ [.start c mode count startTime] }
        else finishStart s h c mode count startTime

/-- OBS.STOP (R260, R263, R265). -/
def execObsStop (c : Cmd) (h : HerdId) (s : State) : Host.Outcome State Fault Refusal :=
  .next <|
    if !myTurn s c then s
    else
      match herdGate s h with
      | some r => reject s 0x0505 c r.1 r.2
      | none =>
        let o := getObs s h
        if sweepsHold s h then completeOk s 0x0505 c [] 0
        else if o.st == .fading then setObs s h { o with waits := o.waits ++ [.stop c] }
        else doStop s h c

/-! ### Samples of the source (R246, R247) -/

/-- Codes of the source's pair enter the chain, the newest at the present (R246): at the end of a fade the waiting
commands act (R260). Which codes come after such a command's step is the order of their times. -/
def obsFeed (h : HerdId) : List Int → State → State
  | [], s => s
  | v :: l, s =>
    let x := getHerd s h
    let o := x.obs
    if obsHeld x then
      let late := (l.length + 15 * (2 ^ o.decim - 1)) * 200000 / adcRate (pllRuns x)
      let t := herdNow s h - BitVec.ofNat 64 late
      let o' := obsTake o (pllRuns x) t v
      let s := setObs s h o'
      obsFeed h l (if o.st == .fading && o'.st == .running then runObsWaits s h else s)
    else s

/-- Whether a port's stream of one kind, ADC or transmit, is the source that a running path takes. -/
def obsTakes (s : State) (p : PortId) (tx : Bool) : Bool :=
  let x := getHerd s (herdOf p)
  obsHeld x && sourcePort (herdOf p) x.obs.source == p && decide (32 ≤ x.obs.source) == tx

/-- The pair of a source (R246). -/
def sourcePair (s : State) (p : PortId) : Nat := (getObs s (herdOf p)).source % 4

/-- ADC samples of a port's four pairs reach the path that takes one of them. -/
def obsRx (s : State) (p : PortId) (adc : List (List (BitVec 8))) : State :=
  if obsTakes s p false then
    captureTake (obsFeed (herdOf p) ((adc.getD (sourcePair s p) []).map BitVec.toInt) s) (herdOf p)
  else s

/-- What a port drives on its pairs reaches the path that takes one of them: each DAC sample as twice its code (R246).
-/
def obsTx (s : State) (p : PortId) (dac : Quad (List Int)) : State :=
  if obsTakes s p true then
    let l := quadGet dac ⟨sourcePair s p, Nat.mod_lt _ (by decide)⟩
    captureTake (obsFeed (herdOf p) (l.map (2 * ·)) s) (herdOf p)
  else s

/-- What no line slot has brought (R247): ADC samples as given; of the transmit stream of a quiet pair, zeros for as
long. -/
def obsGap (s : State) (h : HerdId) (adc : List (List (BitVec 8))) : State :=
  let p := sourcePort h (getObs s h).source
  if 32 ≤ (getObs s h).source then
    if sends (getPort s p) then s else obsTx s p (Quad.all (List.replicate (adc.getD (sourcePair s p) []).length 0))
  else obsRx s p adc

/-! ### Events of the path -/

/-- Starts whose time has been reached act, in the order of their times (R261, R332). A path that Chamois or a test
holds, or whose settings break R254 by then, does not start; in a fade they wait. -/
def obsDue (s : State) (h : HerdId) : State :=
  let o := getObs s h
  if o.st == .fading then s
  else
    let due := o.sched.filter fun e => decide (e.1.toNat ≤ (now s).toNat)
    let s := setObs s h { o with sched := o.sched.filter fun e => !decide (e.1.toNat ≤ (now s).toNat) }
    forEach due (fun s e =>
      let o := getObs s h
      if (obsGate s h).isSome || decide (maxTaps o.decim < (selBank o).taps) then s
      else doStart s h e.2.1 e.2.2.1 e.2.2.2) s

def execObsScheduledStart (h : HerdId) (s : State) : Host.Outcome State Fault Refusal :=
  .next (if herdsRun s then obsDue s h else s)

/-- The settling count is reached with these samples: RUNNING; what it counted was suppressed (R256). -/
def execObsSettlingDone (h : HerdId) (adc : List (List (BitVec 8))) (s : State) : Host.Outcome State Fault Refusal :=
  .next (if herdsRun s then obsGap s h adc else s)

/-- A cross-fade ends with these samples: RUNNING on the new bank, then the waiting commands act in order (R258,
R260). -/
def execObsFadeDone (h : HerdId) (adc : List (List (BitVec 8))) (s : State) : Host.Outcome State Fault Refusal :=
  .next (if herdsRun s then obsDue (obsGap s h adc) h else s)

/-- A buffer of samples is full, or a buffer has come for the last one of a stopped path (R262 to R264). -/
def execObsBufferComplete (h : HerdId) (adc : List (List (BitVec 8))) (s : State) : Host.Outcome State Fault Refusal :=
  .next <| if !s.clk.refclkOk then s else captureDrain (obsGap s h adc) h

/-- A BLOCK capture has COUNT samples: it drains and stops with COUNT_DONE (R261, R263). -/
def execObsCountDone (h : HerdId) (adc : List (List (BitVec 8))) (s : State) : Host.Outcome State Fault Refusal :=
  .next <|
    if !herdsRun s then s else
    let s := obsGap s h adc
    let o := getObs s h
    if obsHeld (getHerd s h) && o.mode == 0 && decide (o.count ≤ o.sent) then runObsWaits (obsStopWith s h 0x02) h
    else s

end Sys2Proof.Machine
end

