-- ==== Sys2Proof/Machine/Contexts.lean ====
section
/-!
DEFINITION. Channel contexts (05 Channel Contexts, R136 to R155): capture, the store's directories, the CTX commands,
the save triggers and DDR5 channels.
-/

namespace Sys2Proof.Machine

/-! ### Capture and load -/

/-- A bundle slot as a context keeps it: one in ACQUISITION is stored as not valid (R139). -/
def savedSlot (o : Option Slot) : Option Slot :=
  match o with
  | some v => if v.level = 0 then none else some v
  | none => none

/-- Byte offset of a bundle slot's coefficients in a pair section and its length (Table 2 of Channel Contexts). -/
def slotBase (k : Nat) : Nat := 0x38E0 + 1040 * k
def slotLen : Nat := 1040

/-- Whether a coefficient belongs to bundle slot k. -/
def inSlot (k off : Nat) : Bool := decide (slotBase k ≤ off) && decide (off < slotBase k + slotLen)

/-- A slot's coefficients set to zero (R68, R139). -/
def zeroSlot (t : Tab (BitVec 32)) (k : Nat) : Tab (BitVec 32) := t.filter fun e => !inSlot k e.1

/-- Echo partitions 8 to 15 are 0 in L100S (Table 2). -/
def zeroUpperEcho (mode : LineMode) (t : Tab (BitVec 32)) : Tab (BitVec 32) :=
  if mode == .l100s then t.filter fun e => !(decide (4160 ≤ e.1) && decide (e.1 < 8320)) else t

/-- A pair's coefficients as a context keeps them (R138, R139). -/
def savedCoefs (mode : LineMode) (q : Pair) : Tab (BitVec 32) :=
  (List.range 6).foldl (fun t k => if (savedSlot (q.slots.getD k none)).isNone then zeroSlot t k else t)
    (zeroUpperEcho mode q.coef)

/-- Interface version of the image that a herd runs (R138): during a sequence, the new one's on a herd that has
restarted. -/
def herdIf (s : State) (h : HerdId) : BitVec 16 :=
  if (s.fw.seq == .running || s.fw.seq == .falling) && (getHerd s h).imageDig == s.fw.target.herd.digest then
    s.fw.target.herd.ifVersion
  else s.fw.running.herd.ifVersion

/-- A pair's part of a set of coefficients; the pair and its slots go to TRACKING (R82, Table 6). -/
def loadPair (c : Coefs) (i : PairId) (q : Pair) : Pair :=
  { q with coef := quadGet c.pairs i, digitalGain := quadGet c.gains i,
           slots := (quadGet c.slots i).map fun o => o.map fun v => { v with level := 1 },
           canLevel := 1, eqLevel := 1 }

/-- Loads coefficients, digital gain and bundle slots at one block boundary; every pair goes to TRACKING (R90, R150),
and each slot runs on the path of its clock relation (R70). -/
def loadCoefs (s : State) (p : PortId) (c : Coefs) : State :=
  repathPort (modPort s p fun x =>
    { x with pairs := ⟨loadPair c 0 x.pairs.a, loadPair c 1 x.pairs.b, loadPair c 2 x.pairs.c,
        loadPair c 3 x.pairs.d⟩ }) p

/-- The context format that the herd image of B0 writes (R138, R140), and MAGIC. -/
def ctxFormat : BitVec 16 := 1
def ctxMagic : BitVec 32 := 0x58435A31

/-- A port's live set as a context (R138, R142); a slot in ACQUISITION is stored with zero coefficients (R139). -/
def captureCtx (s : State) (p : PortId) (cause : Nat) : Ctx :=
  let x := getPort s p
  { magic := ctxMagic, format := ctxFormat, port := BitVec.ofNat 16 p.val, entry := 0, slot := 0,
    partner := x.partner, sig := x.sig, gen := x.linkGen, mode := x.mode, fec := x.fec,
    role := x.role.getD .slave, cause := BitVec.ofNat 8 cause, saveCount := 1, saveTime := now s, lastUse := now s,
    pinned := false, dieTemp := (getDie s (dieOf p)).temp, herdIf := herdIf s (herdOf p),
    freqWord := x.freqWord, phases := quadMap (·.phase) x.pairs, deskews := quadMap (·.deskew) x.pairs,
    coefs := { liveCoefs x with pairs := quadMap (savedCoefs x.mode) x.pairs,
                                slots := quadMap (fun q => q.slots.map savedSlot) x.pairs } }

/-- The port section at 0x1000, in words of 4 bytes: the frequency word, then five words of each pair. Log 56. -/
def portSection (c : Ctx) : List Fld :=
  (0x1000, 4, c.freqWord.toNat) :: (List.finRange 4).flatMap fun i =>
    [(0x1004 + 20 * i.val, 4, (quadGet c.phases i).toNat), (0x1008 + 20 * i.val, 4, (quadGet c.deskews i).toNat),
     (0x100C + 20 * i.val, 4, (quadGet c.coefs.again i).toNat), (0x1010 + 20 * i.val, 4,
         (quadGet c.coefs.gains i).toNat),
     (0x1014 + 20 * i.val, 4, (quadGet c.coefs.marg i).toNat)]

/-- The bundle slot table of a pair (Table 2): 8 bytes per slot. Log 56. -/
def slotTable (base : Nat) (l : List (Option Slot)) : List Fld :=
  l.zipIdx.flatMap fun e => match e.1 with
    | some v => [(base + 8 * e.2, 4, v.aggressor), (base + 8 * e.2 + 4, 1, 1), (base + 8 * e.2 + 5, 1, bit v.resampled),
                 (base + 8 * e.2 + 6, 1, v.level)]
    | none => []

/-- A pair section (Table 2); partition exponents take a byte each, everything else four. -/
def ctxPairSection (base : Nat) (t : Tab (BitVec 32)) (slots : List (Option Slot)) : List Fld :=
  (t.map fun e => (base + e.1, if expBase ≤ e.1 ∧ e.1 < expBase + 40 then 1 else 4, e.2.toNat)) ++
    slotTable (base + 0x5180) slots

/-- The context before its CRC (R138, Table 1); bytes not listed are 0. -/
def ctxFields (c : Ctx) : List Fld :=
  [(0x00, 4, c.magic.toNat), (0x04, 2, c.format.toNat), (0x06, 2, c.port.toNat), (0x08, 6, c.partner.toNat),
   (0x10, 4, c.sig.toNat), (0x14, 4, c.gen.toNat), (0x18, 1, modeCode c.mode), (0x19, 1, c.fec.toNat),
   (0x1A, 1, roleCode (some c.role)), (0x1B, 1, c.cause.toNat), (0x1C, 4, c.saveCount.toNat), (0x20, 8,
       c.saveTime.toNat),
   (0x28, 2, c.dieTemp.toNat), (0x2A, 2, c.herdIf.toNat)] ++ portSection c ++
  (List.finRange 4).flatMap fun i => ctxPairSection (0x2000 + 0x9000 * i.val) (quadGet c.coefs.pairs i) (quadGet c.coefs.slots i)

/-- CONTEXT size and its CRC-32C over bytes 0x0_0000 to 0x2_7FFB (R138). -/
def ctxSize : Nat := 0x28000
def ctxCrc (c : Ctx) : BitVec 32 := crc32c (fieldBytes 0x27FFC (ctxFields c))

/-- Where the store keeps a port's slot k, 24 being its spare, its herd's record and its directory (R141, Table 3a). -/
def slotAddr (p : PortId) (k : Nat) : Nat :=
  if k < 24 then (24 * (p.val % 256) + k) * ctxSize else 0x3C000000 + p.val % 256 * ctxSize
def herdRecAddr (h : HerdId) : Nat := 0x3E800000 + 0x1000 * (h.val % 32)
def dirAddr (p : PortId) (entry : Nat) : Nat := 0x3E820000 + 0x400 * (p.val % 256) + 32 * entry

/-- A herd record (R155): the resolved mode, the timing policy and each port's PORT_STATE, at places of the model's
choice. DESIGN CHOICE, log 56. -/
def herdRecFields (r : HerdRec) : List Fld :=
  [(0, 1, (r.resolved.map modeCode).getD 0xFF), (1, 1, bit r.policy)] ++ r.states.zipIdx.map fun e => (2 + e.2, 1,
      portCode e.1)

/-- A directory entry before its own CRC-32C (R140, R141). Log 56. -/
def dirFields (c : Ctx) : List Fld :=
  [(0, 4, c.magic.toNat), (4, 2, c.port.toNat), (6, 1, c.slot), (7, 1, 1 + 2 * bit c.pinned), (8, 6, c.partner.toNat),
   (16, 4, c.sig.toNat), (20, 8, c.lastUse.toNat)]
def dirCrc (c : Ctx) : BitVec 32 := crc32c (fieldBytes 28 (dirFields c))

/-- A save's writes (R142): the slot with the CRC last, then the directory entry. -/
def storeSave (s : State) (p : PortId) (c : Ctx) : State :=
  emit (emit s (.store (chanOf p) (slotAddr p c.slot) ctxSize (ctxFields c ++ [(0x27FFC, 4, (ctxCrc c).toNat)])))
    (.store (chanOf p) (dirAddr p c.entry) 32 (dirFields c ++ [(28, 4, (dirCrc c).toNat)]))

/-- A herd record is written to its place in the context store (R141, R155, R424), if that is there. -/
def storeHerdRec (s : State) (h : HerdId) (r : HerdRec) : State :=
  if storeUp s (chanOfHerd h) then
    emit (modHerd s h fun x => { x with herdRec := some r }) (.store (chanOfHerd h) (herdRecAddr h) 0x1000 (herdRecFields r))
  else s

/-! ### Directories -/

/-- Whether a context has a key (R136). -/
def keyIs (k : CtxKey) (c : Ctx) : Bool := c.partner == k.partner && c.sig == k.sig

/-- The context of a port under a key. -/
def findCtx (s : State) (p : PortId) (k : CtxKey) : Option Ctx := (getDir s p).entries.find? (keyIs k)

/-- The lowest number below a bound that a list does not hold. -/
def lowestFree (bound : Nat) (used : List Nat) : Nat := ((List.range bound).find? fun n => !used.contains n).getD bound

/-- Entries in ascending order of their number. -/
def insertEntry (c : Ctx) : List Ctx → List Ctx
  | [] => [c]
  | d :: l => if c.entry ≤ d.entry then c :: d :: l else d :: insertEntry c l

/-- The context a save evicts: the least recently used one that is not pinned (R148); of several used at one time,
which the spec does not order, the lowest entry. DESIGN CHOICE, log 9. -/
def evictable (l : List Ctx) : Option Ctx :=
  (l.filter fun c => !c.pinned).foldl (fun m c => match m with
    | none => some c
    | some d => if c.lastUse.toNat < d.lastUse.toNat then some c else m) none

/-- Puts a saved context into a directory (R142, R148, R149): the directory and the evicted context. Which entry
number a new context takes (the lowest free one of 24, or the evicted context's) and which slot counts as the free one
where several are (the lowest of 25) the spec leaves open. DESIGN CHOICE, log 9. -/
def dirPut (d : CtxDir) (c : Ctx) : CtxDir × Option Ctx :=
  match d.entries.find? (keyIs { partner := c.partner, sig := c.sig }) with
  | some e =>
    let n := { c with entry := e.entry, slot := d.freeSlot, pinned := e.pinned, saveCount := e.saveCount + 1 }
    ({ entries := insertEntry n (d.entries.filter fun x => x.entry != e.entry), freeSlot := e.slot }, none)
  | none =>
    if 24 ≤ d.entries.length then
      match evictable d.entries with
      | some e =>
        let n := { c with entry := e.entry, slot := d.freeSlot }
        ({ entries := insertEntry n (d.entries.filter fun x => x.entry != e.entry), freeSlot := e.slot }, some e)
      | none => (d, none)
    else
      let n := { c with entry := lowestFree 24 (d.entries.map (·.entry)), slot := d.freeSlot }
      let l := insertEntry n d.entries
      ({ entries := l, freeSlot := lowestFree 25 (l.map (·.slot)) }, none)

/-- Removes a context from a directory; its slot may be used again. -/
def dirDrop (d : CtxDir) (c : Ctx) : CtxDir := { d with entries := d.entries.filter fun x => x.entry != c.entry }

/-- Changes one context of a port. -/
def modCtx (s : State) (p : PortId) (c : Ctx) (f : Ctx → Ctx) : State :=
  let d := getDir s p
  setDir s p { d with entries := d.entries.map fun x => if x.entry == c.entry then f x else x }

/-- A context that fails its check is removed and CONTEXT_BAD is posted (R153): 1 CRC, 2 FORMAT, 3 HEADER. -/
def dropBad (s : State) (p : PortId) (c : Ctx) (cause : Nat) : State :=
  postGlobal (setDir s p (dirDrop (getDir s p) c)) 51
    [(0, 2, p.val), (2, 6, c.partner.toNat), (8, 4, c.sig.toNat), (12, 1, cause)]

/-- The cause for which a read of a context finds it damaged, 0 for none (R140, R141, R153). -/
def readCause (p : PortId) (e : Ctx) (r : CtxRead) : Nat :=
  if !r.dirOk then 3
  else if !r.crcOk then 1
  else if r.format != ctxFormat then 2
  else if r.magic != ctxMagic || r.port != BitVec.ofNat 16 p.val || r.partner != e.partner || r.sig != e.sig then 3
  else 0

/-- What a read of a context that is not damaged returns. -/
def cleanRead (p : PortId) (e : Ctx) : CtxRead :=
  { crcOk := true, dirOk := true, magic := ctxMagic, format := ctxFormat, port := BitVec.ofNat 16 p.val,
    partner := e.partner, sig := e.sig }

/-- A read of a context: without damage, or the context is removed (R153). -/
def checkRead (s : State) (p : PortId) (e : Ctx) (r : CtxRead) : State × Bool :=
  if readCause p e r = 0 then (s, true) else (dropBad s p e (readCause p e r), false)

/-- Reads of named contexts, in order; a key that the port does not hold reads nothing. -/
def checkReads (reads : List (PortId × CtxKey × CtxRead)) (s : State) : State :=
  reads.foldl (fun s r => match findCtx s r.1 r.2.1 with
    | some e => (checkRead s r.1 e r.2.2).1
    | none => s) s

/-! ### Saves -/

/-- A paired CTX.SAVE's wait, if it still waits. -/
def pairedOf (s : State) (c : Cmd) : Option Wait :=
  s.waits.find? fun w => match w with
    | .paired _ d _ _ => d == c
    | _ => false

/-- Takes a paired CTX.SAVE out of the waits. -/
def unpair (s : State) (c : Cmd) : State :=
  { s with waits := s.waits.filter fun w => match w with
      | .paired _ d _ _ => d != c
      | _ => true }

/-- A paired CTX.SAVE's own save is visible, or its request is acknowledged; with both it completes (R150). -/
def pairedStep (s : State) (c : Cmd) (visible acked : Bool) : State :=
  match pairedOf s c with
  | some (.paired p _ v a) =>
    if (v || visible) && (a || acked) then completeOk (unpair s c) 0x0301 c (portBlocks p) (getPort s p).linkGen.toNat
    else { s with waits := s.waits.map fun w => match w with
        | .paired q d x y => if d == c then .paired q d (x || visible) (y || acked) else w
        | _ => w }
  | _ => s

/-- A paired CTX.SAVE that still waits completes with a status. -/
def pairedFail (s : State) (c : Cmd) (status : BitVec 8) : State :=
  if (pairedOf s c).isSome then reject (unpair s c) 0x0301 c status 0 else s

/-- What waits on a save that could not become visible: the next check takes a FIRST, PERIODIC or PARTNER save again
when the store returns (R144, R145). -/
def holdSave (x : Port) (cause : BitVec 8) : Port :=
  { x with saveHeld := x.saveHeld || cause == 2, partnerHeld := x.partnerHeld || cause == 4 }

/-- A captured save becomes visible at its directory burst (R142, R146): CONTEXT_SAVED, and its command completes. With
the store gone the earlier context stands and a CTX.SAVE completes with ST_NO_RESOURCE (R150). -/
def saveVisible (s : State) (p : PortId) : State :=
  match (getPort s p).save with
  | none => s
  | some v =>
    let s := modPort s p fun x => { x with save := none }
    if storeUp s (chanOf p) then
      let d := dirPut (getDir s p) v.ctx
      let s := setDir s p d.1
      let s := match findCtx s p { partner := v.ctx.partner, sig := v.ctx.sig } with
        | some e => storeSave s p e
        | none => s
      let s := modPort s p fun x =>
        if x.st == .up && x.sig == v.ctx.sig then
          { x with lastSave := some (now s), saveHeld := false, firstSaved := x.firstSaved || v.cause == 1 }
        else x
      let s := postPort s p 8
        [(0, 1, v.cause.toNat), (1, 1, bit d.2.isSome), (4, 4, v.ctx.sig.toNat), (8, 4, v.ctx.gen.toNat),
         (12, 4, (d.2.map fun e => e.sig.toNat).getD 0)]
      match v.cmd with
      | some c => if v.paired then pairedStep s c true false else completeOk s 0x0301 c (portBlocks p) v.ctx.gen.toNat
      | none => s
    else
      let s := modPort s p fun x => holdSave x v.cause
      match v.cmd with
      | some c => if v.paired then pairedFail s c stNoResource else reject s 0x0301 c stNoResource 0
      | none => s

/-- Captures a port's live set (R142). A save in progress becomes visible first (R152). -/
def beginSave (s : State) (p : PortId) (cause : Nat) (cmd : Option Cmd) (paired : Bool) : State :=
  let s := saveVisible s p
  modPort s p fun x =>
    { x with save := some { cause := BitVec.ofNat 8 cause, ctx := captureCtx s p cause, cmd := cmd, paired := paired } }

/-- The condition of a FIRST or PERIODIC capture (R145, Table 3). -/
def saveClean (x : Port) : Bool :=
  (quadList x.pairs).all fun q => decide (1 ≤ adaptLevel q) && !q.freeze.getLsbD 1 && !q.freeze.getLsbD 2

/-- The context a port offers (R109): of its partner, mode and FEC mode, the most recently used one. -/
def bestCtx (s : State) (p : PortId) (partner : BitVec 48) (mode : LineMode) (fec : BitVec 8) : Option Ctx :=
  ((getDir s p).entries.filter fun c => c.partner == partner && c.mode == mode && c.fec == fec).foldl
    (fun m c => match m with
      | none => some c
      | some d => if d.lastUse.toNat < c.lastUse.toNat then some c else m) none

/-! ### CTX commands (R150, R318) -/

/-- CTX.SAVE. -/
def execCtxSave (c : Cmd) (p : PortId) (paired : BitVec 8) (s : State) : Host.Outcome State Fault Refusal :=
  .next <|
    if !myTurn s c then s
    else
      match portGate s p with
      | some r => reject s 0x0301 c r.1 r.2
      | none =>
        if 1 < paired.toNat then reject s 0x0301 c stBadParam (resField 0x10)
        else if (getPort s p).st != .up then reject s 0x0301 c (refusedPort s p).1 (refusedPort s p).2
        else if !storeUp s (chanOf p) then reject s 0x0301 c stNoResource 0
        else if paired = 1 then
          let s := beginSave s p 3 (some c) true
          sendInfo { s with waits := s.waits ++ [.paired p c false false] } p 0x20 ((getPort s p).linkGen.setWidth 64) (some c)
        else beginSave s p 3 (some c) false

/-- The checks every keyed CTX command makes from ST_NO_RESOURCE on (R150): a refusal, or the context. A save in
progress is settled first (R152). -/
def ctxNamed (s : State) (p : PortId) (k : CtxKey) : (BitVec 8 × BitVec 64) ⊕ Ctx :=
  if !storeUp s (chanOf p) then .inl (stNoResource, 0)
  else match findCtx s p k with
    | none => .inl (stContextMiss, 0)
    | some x => .inr x

/-- CTX.LOAD. -/
def execCtxLoad (c : Cmd) (p : PortId) (k : CtxKey) (read : CtxRead) (s : State) : Host.Outcome State Fault Refusal :=
  .next <|
    if !myTurn s c then s
    else
      match portGate s p with
      | some r => reject s 0x0302 c r.1 r.2
      | none =>
        let x := getPort s p
        if isTraining x.st || (x.st == .up && !(x.partner == k.partner && x.sig == k.sig)) then
          reject s 0x0302 c (refusedPort s p).1 (refusedPort s p).2
        else
          let s := saveVisible s p
          match ctxNamed s p k with
          | .inl r => reject s 0x0302 c r.1 r.2
          | .inr e =>
            let t := checkRead s p e read
            let s := t.1
            if !t.2 then reject s 0x0302 c stContextMiss 0
            else if x.st == .up then
              if e.mode != x.mode || e.fec != x.fec then
                reject s 0x0302 c (refusedPort s p).1 (refusedPort s p).2
              else
                let s := loadCoefs s p e.coefs
                completeOk (modCtx s p e fun d => { d with lastUse := now s }) 0x0302 c (portBlocks p) 0
            else completeOk (modCtx s p e fun d => { d with lastUse := now s }) 0x0302 c [] 0

/-- CTX.PIN: ST_NO_RESOURCE with 8 pinned; a pinned context stays pinned. -/
def execCtxPin (c : Cmd) (p : PortId) (k : CtxKey) (s : State) : Host.Outcome State Fault Refusal :=
  .next <|
    if !myTurn s c then s
    else
      match portGate s p with
      | some r => reject s 0x0303 c r.1 r.2
      | none =>
        let s := saveVisible s p
        match ctxNamed s p k with
        | .inl r => reject s 0x0303 c r.1 r.2
        | .inr e =>
          if !e.pinned && decide (8 ≤ ((getDir s p).entries.filter (·.pinned)).length) then
            reject s 0x0303 c stNoResource 0
          else completeOk (modCtx s p e fun d => { d with pinned := true }) 0x0303 c [] 0

/-- CTX.UNPIN. -/
def execCtxUnpin (c : Cmd) (p : PortId) (k : CtxKey) (s : State) : Host.Outcome State Fault Refusal :=
  .next <|
    if !myTurn s c then s
    else
      match portGate s p with
      | some r => reject s 0x0304 c r.1 r.2
      | none =>
        let s := saveVisible s p
        match ctxNamed s p k with
        | .inl r => reject s 0x0304 c r.1 r.2
        | .inr e => completeOk (modCtx s p e fun d => { d with pinned := false }) 0x0304 c [] 0

/-- CTX.EVICT: ST_REFUSED_STATE when pinned. -/
def execCtxEvict (c : Cmd) (p : PortId) (k : CtxKey) (s : State) : Host.Outcome State Fault Refusal :=
  .next <|
    if !myTurn s c then s
    else
      match portGate s p with
      | some r => reject s 0x0305 c r.1 r.2
      | none =>
        let s := saveVisible s p
        match ctxNamed s p k with
        | .inl r => reject s 0x0305 c r.1 r.2
        | .inr e =>
          if e.pinned then reject s 0x0305 c (refusedPort s p).1 (refusedPort s p).2
          else completeOk (setDir s p (dirDrop (getDir s p) e)) 0x0305 c [] 0

/-- A CTX.LIST record (R151, Table 5) at an offset. -/
def ctxRecord (s : State) (p : PortId) (base : Nat) (e : Ctx) : List Fld :=
  let x := getPort s p
  let cur := x.st == .up && x.partner == e.partner && x.sig == e.sig
  [(base, 2, p.val), (base + 2, 1, e.entry), (base + 3, 1, bit e.pinned + 2 * bit cur), (base + 4, 1, modeCode e.mode),
   (base + 5, 1, e.fec.toNat), (base + 6, 1, roleCode (some e.role)), (base + 8, 6, e.partner.toNat),
   (base + 16, 4, e.sig.toNat), (base + 20, 4, e.gen.toNat), (base + 24, 8, e.lastUse.toNat)]

/-- Every context of some ports, in order. -/
def ctxAll (s : State) (ps : List PortId) : List (PortId × Ctx) :=
  ps.flatMap fun p => (getDir s p).entries.map fun e => (p, e)

/-- CTX.LIST (R144, R150, R151). -/
def execCtxList (c : Cmd) (t : Target) (s : State) : Host.Outcome State Fault Refusal :=
  .next <|
    if !myTurn s c then s
    else
      let write := fun (s : State) (ps : List PortId) =>
        let l := ctxAll s ps
        answerIn s 0x0306 c t (32 * l.length) (l.zipIdx.flatMap fun e => ctxRecord s e.1.1 (32 * e.2) e.1.2) l.length
      match t with
      | .port p =>
        match portGate s p with
        | some r => reject s 0x0306 c r.1 r.2
        | none => if storeUp s (chanOf p) then write (saveVisible s p) [p] else reject s 0x0306 c stNoResource 0
      | _ =>
        if !storeUp s 0 && !storeUp s 1 then reject s 0x0306 c stNoResource 0
        else write s (allPorts.filter fun p => storeUp s (chanOf p))

/-! ### Save triggers -/

/-- Whether a port's herd controller can take an automatic save now: none is under way, the store is there (R144), the
controller does not restart (R484). -/
def saveReady (s : State) (p : PortId) : Bool :=
  let x := getPort s p
  x.st == .up && x.save.isNone && storeUp s (chanOf p) && herdsRun s && (getHerd s (herdOf p)).st != .fwRestart

/-- The 10 ms check (R145): a PARTNER save that waited for the store (R144) has no condition but UP; the FIRST save,
and a PERIODIC one that waited, take a clean moment. -/
def execCtxSaveCheck (p : PortId) (s : State) : Host.Outcome State Fault Refusal :=
  .next <| if !herdsRun s then s else
    let x := getPort s p
    if !saveReady s p then s
    else if x.partnerHeld then beginSave (modPort s p fun y => { y with partnerHeld := false }) p 4 none false
    else if !saveClean x then s
    else if !x.firstSaved && decide (1000000000 ≤ s.mono - x.upMono) then beginSave s p 1 none false
    else if x.saveHeld && decide (livePar x 0x20 ≠ 0) then
      beginSave (modPort s p fun y => { y with saveHeld := false }) p 2 none false
    else s

/-- CTX_SAVE_INTERVAL after the link's last save (R145): captures, or waits for a clean moment and, while the herd
controller restarts, for its end (R484). -/
def execCtxPeriodicSave (p : PortId) (s : State) : Host.Outcome State Fault Refusal :=
  .next <|
    let x := getPort s p
    if x.st == .up && x.lastSave.isSome && decide (livePar x 0x20 ≠ 0) && herdsRun s then
      if saveReady s p && saveClean x then beginSave s p 2 none false
      else modPort s p fun y => { y with saveHeld := true }
    else s

/-- A save's directory burst is written (R146). -/
def execCtxSaveVisible (p : PortId) (s : State) : Host.Outcome State Fault Refusal :=
  .next (if herdsRun s then saveVisible s p else s)

/-! ### DDR5 channels (R143, R144, R376) -/

/-- The ports a channel holds (R141). -/
def inChan (c : ChanId) (p : Nat) : Bool := decide (p / 256 = c.val)

/-- Empties a channel's half of the store (R143). -/
def emptyHalf (s : State) (c : ChanId) : State :=
  { s with
    store := s.store.filter fun e => !inChan c e.1
    herds := s.herds.map fun e => if inChan c (8 * e.1) then (e.1, { e.2 with herdRec := none }) else e }

/-- A channel enters service with an empty half (R143). -/
def execDdrTrainingDone (c : ChanId) (gib : BitVec 6) (s : State) : Host.Outcome State Fault Refusal :=
  .next <| if !s.clk.refclkOk then s else
    let s := emptyHalf s c
    let s := setDdr s c { getDdr s c with trained := true, gib := gib, size := gib, failed := false,
                                          selfRefresh := false }
    postGlobal s 48 [(0, 1, c.val), (1, 1, gib.toNat)]

/-- A channel leaves service and loses its half; a save not yet visible is lost with it (R142, R143). -/
def ddrFail (s : State) (c : ChanId) (cause : Nat) : State :=
  let s := setDdr s c { getDdr s c with trained := false, failed := true }
  let s := emptyHalf s c
  let s := s.ports.foldl (fun t e => if h : e.1 < 512 then
      (if inChan c e.1 then saveVisible t ⟨e.1, h⟩ else t) else t) s
  postGlobal s 49 [(0, 1, c.val), (1, 1, cause)]

def execDdrChannelFailure (c : ChanId) (cause : BitVec 8) (s : State) : Host.Outcome State Fault Refusal :=
  .next <| if !s.clk.refclkOk then s else ddrFail s c cause.toNat

/-- Corrected DDR5 errors, at most one record per 1 s from the source (R376, R544). -/
def execDdrEccCorrected (c : ChanId) (count : BitVec 32) (s : State) : Host.Outcome State Fault Refusal :=
  .next <| if !s.clk.refclkOk then s else
    let s := setDdr s c { getDdr s c with eccCount := (getDdr s c).eccCount + count }
    postLimited s (globalSrc 50) 0 [(0, 1, c.val)] (some 4) count.toNat

end Sys2Proof.Machine
end

