-- ==== Sys2Proof/Machine/Monitor.lean ====
section
/-!
DEFINITION. Monitoring (09 Link Monitoring and Cable Diagnostics, R225 to R233), statistics blocks, STAT commands and
snapshots (R232, R323 to R325, R348 to R350).
-/

namespace Sys2Proof.Machine

/-- Offsets of the plain counters of the statistics block (Table 4 of Link Monitoring). -/
def statOffsets : List Nat :=
  [0x010, 0x018, 0x020, 0x028, 0x030, 0x038, 0x040, 0x048, 0x050, 0x058, 0x060, 0x068, 0x070, 0x078, 0x080, 0x088,
   0x090, 0x0A0, 0x180, 0x210, 0x218, 0x220, 0x228, 0x230] ++ (List.range 16).map fun k => 0x100 + 8 * k

/-- Offsets of the persistent counters (R231). -/
def persOffsets : List Nat := [0x0A8, 0x0B0, 0x0B8, 0x0C0, 0x0C8, 0x0D0, 0x0D8]

/-- A pair section (Table 5 of Link Monitoring). -/
def pairStats (s : State) (p : PortId) (base : Nat) (q : Pair) : List Fld :=
  let x := shownX s p
  let v := fun (w : BitVec 16) => if x.st == .up then w.toNat else 0x8000
  [(base, 2, v q.snr), (base + 2, 2, v q.snrMin), (base + 4, 2, v q.margin), (base + 6, 2, v q.marginMin),
   (base + 8, 8, q.nearMiss.toNat), (base + 0x10, 8, q.bitErrors.toNat), (base + 0x18, 1,
       if adapts x then adaptLevel q else 0),
   (base + 0x19, 1, if adapts x then (freezeBits s p q).toNat else 0)]

/-- A port's live statistics block of 640 bytes (R232), captured at a device time. -/
def liveBlock (s : State) (p : PortId) (t : BitVec 64) : List Fld :=
  let x := getPort s p
  let y := quietClose s x
  let nrz := x.lane.mode == .l25
  let eye := if x.lane.st == .active then
      { x.lane.eye with a := if nrz then 0 else x.lane.eye.a, c := if nrz then 0 else x.lane.eye.c }
    else Quad.all 0xFFFF
  [(0, 2, p.val), (2, 2, 1), (8, 8, t.toNat)] ++ statOffsets.map (fun o => (o, 8, (statGet x o).toNat)) ++
  [(0x098, 8, (statGet y 0x98).toNat)] ++ persOffsets.map (fun o => (o, 8, (persGet x o).toNat)) ++
  pairStats s p 0x190 x.pairs.a ++ pairStats s p 0x1B0 x.pairs.b ++ pairStats s p 0x1D0 x.pairs.c ++
  pairStats s p 0x1F0 x.pairs.d ++
  [(0x238, 2, eye.a.toNat), (0x23A, 2, eye.b.toNat), (0x23C, 2, eye.c.toNat), (0x23E, 2, eye.d.toNat)]

/-- The block STAT returns: the copy of R324 while the port's herd is under self-test, else the live one. -/
def statBlock (s : State) (p : PortId) (t : BitVec 64) : List Fld :=
  if (getHerd s (herdOf p)).st == .selfTest then ((getPort s p).frozenCopy).getD (liveBlock s p t)
  else liveBlock s p t

/-- Fields shifted by an offset. -/
def shiftFlds (n : Nat) (l : List Fld) : List Fld := l.map fun f => (f.1 + n, f.2.1, f.2.2)

/-- The blocks of some ports from an offset on. -/
def statBlocks (s : State) (base : Nat) (ps : List PortId) (t : BitVec 64) : List Fld :=
  ps.zipIdx.flatMap fun e => shiftFlds (base + 640 * e.2) (statBlock s e.1 t)

/-- Whether the die-to-die link of every port's line die is up (R311, R350). -/
def diesUp (s : State) (ps : List PortId) : Bool := ps.all fun p => (getDie s (dieOf p)).d2dUp

/-- The ports a target names. -/
def targetPorts : Target → List PortId
  | .port p => [p]
  | .herd h => portsOf h
  | .hub => allPorts

/-- STAT.READ (R323, R324): each block has its own boundary (R352). -/
def execStatRead (c : Cmd) (t : Target) (s : State) : Host.Outcome State Fault Refusal :=
  .next <|
    if !myTurn s c then s
    else
      let ps := targetPorts t
      if !diesUp s ps then reject s 0x0801 c stTimeout 0
      else answerIn s 0x0801 c t (640 * ps.length) (statBlocks s 0 ps (now s)) ps.length

/-- The descriptor offset of the first range field that fails check 3 (R323, R309): FIRST when it is above LAST or
above 511, else LAST above 511. -/
def badRange (l : List (BitVec 16 × BitVec 16)) : Option Nat :=
  (l.zipIdx.find? fun e => decide (e.1.2.toNat < e.1.1.toNat) || decide (511 < e.1.2.toNat)).map fun e =>
    0x14 + 4 * e.2 + (if e.1.1.toNat ≤ 511 ∧ 511 < e.1.2.toNat then 2 else 0)

/-- The ports of a snapshot, ascending, once each (R323). -/
def snapPorts (count : Nat) (ranges : List (BitVec 16 × BitVec 16)) : List PortId :=
  if count = 0 then allPorts
  else allPorts.filter fun p => (ranges.take count).any fun r => decide (r.1.toNat ≤ p.val) &&
      decide (p.val ≤ r.2.toNat)

/-- STAT.SNAPSHOT (R323, R348, R350): accepted snapshots wait for their capture times, one at a time. -/
def execStatSnapshot (c : Cmd) (count : BitVec 8) (ranges : List (BitVec 16 × BitVec 16)) (s : State) :
    Host.Outcome State Fault Refusal :=
  .next <|
    if 10 < count.toNat then reject s 0x0802 c stBadParam (resField 0x10)
    else match badRange (ranges.take count.toNat) with
      | some i => reject s 0x0802 c stBadParam (resField i)
      | none =>
        let ps := snapPorts count.toNat ranges
        if !diesUp s ps then reject s 0x0802 c stTimeout 0
        else
          let k := takeIn s (dataRingOf s c .hub 3) (64 + 640 * ps.length)
          match k.got with
          | none => reject k.st 0x0802 c k.status k.result
          | some b =>
            let s := k.st
            { s with io := { s.io with
                epoch := s.io.epoch + 1
                snaps := s.io.snaps ++ [{ cmd := c, ports := ps, buf := b, time := now s + 20000 }] } }

/-- The bit mask of herds under test among some ports (R325). -/
def testMask (s : State) (ps : List PortId) : Nat :=
  allHerds.foldl (fun n h =>
    n + bit ((getHerd s h).st == .selfTest && ps.any (fun p => herdOf p == h)) * 2 ^ h.val) 0

/-- A port's capture time (R348, R349): its first codeword boundary, at most one slot time after T; in an LPI quiet
period or without a transmitter that sends, at T to within one cycle of its herd's DSP clock. Where in that range is a
free value of its own for the snapshot's i-th port. -/
def captureAt (s : State) (t : BitVec 64) (p : PortId) (i : Nat) : BitVec 64 :=
  let x := getPort s p
  let range := if sends x && x.lpi.st != .quiet then slotTime10 x.mode / 10 else 1000000000 / dspHz s (herdOf p)
  t + BitVec.ofNat 64 (Config.freeValue (s.fresh + i) % (range + 1))

/-- A snapshot is captured and written, its header of 64 bytes before the ports' blocks; LAST_EPOCH is its number
(R349, R350). -/
def snapWrite (s : State) (n : Snap) (epoch : Nat) : State :=
  let blocks := n.ports.zipIdx.flatMap fun e =>
    shiftFlds (64 + 640 * e.2) (statBlock s e.1 (captureAt s n.time e.1 e.2))
  let s := { s with fresh := s.fresh + n.ports.length }
  let head : List Fld := [(0, 4, epoch), (4, 2, n.ports.length), (6, 2, 1), (8, 8, n.time.toNat),
    (0x10, 8, testMask s n.ports)]
  let s := finishIn s n.buf (64 + 640 * n.ports.length) (head ++ blocks)
  let s := { s with io := { s.io with lastEpoch := BitVec.ofNat 32 epoch } }
  completeOk s 0x0802 n.cmd [.hub] epoch

/-- The capture time of the oldest snapshot is reached (R348, R350): header and blocks are written, LAST_EPOCH changes,
then the completion. A die whose link has gone meanwhile ends it with ST_TIMEOUT (R311). -/
def execStatSnapshotCapture (s : State) : Host.Outcome State Fault Refusal :=
  .next <| if !s.clk.refclkOk then s else
    match s.io.snaps with
    | [] => s
    | n :: rest =>
      if (now s).toNat < n.time.toNat then s
      else
        let epoch := s.io.epoch.toNat - rest.length
        let s := { s with io := { s.io with snaps := rest } }
        if !diesUp s n.ports then
          let s := { s with io := { s.io with epoch := s.io.epoch - 1 } }
          reject (dropIn s n.buf stTimeout) 0x0802 n.cmd stTimeout 0
        else snapWrite s n epoch

/-! ### Margins, histogram, counters, eyes -/

/-- The mask of pairs whose margin is below a threshold. -/
def lowMask (x : Port) (thr : Int) : Nat :=
  (List.finRange 4).foldl (fun n i => n + bit (decide ((quadGet x.pairs i).margin.toInt < thr)) * 2 ^ i.val) 0

/-- One comparison of a port margin with the threshold (R227): consecutive counts, crossings, re-arming. -/
def mlowNext (l : MarginLow) (m thr : Int) : MarginLow :=
  { below := if m < thr then l.below + 1 else 0
    above := if thr + 5 ≤ m then l.above + 1 else 0
    armed := l.armed || (decide (thr + 5 ≤ m) && decide (99 ≤ l.above))
    crossings := if m < thr && !l.wasBelow then l.crossings + 1 else l.crossings
    wasBelow := decide (m < thr) }

/-- The 1 ms comparison of the port margin with MARGIN_LOW_THRESHOLD (R227); 0.0 turns it off (Table 2). -/
def execMarginCompare (p : PortId) (s : State) : Host.Outcome State Fault Refusal :=
  .next <|
    let x := getPort s p
    let thr := livePar x 0x40
    let low := lowestMargin (quadMap (·.margin) x.pairs)
    let l := mlowNext x.mlow low.toInt (Int.ofNat thr)
    if x.st == .up && x.lpi.st != .quiet && thr != 0 && herdsRun s then
      if l.armed && Nat.ble 4 l.below then
        let s := setPort s p { x with mlow := { l with armed := false, crossings := 0 } }
        postLimited s (portSrc p 3) 0 [(0, 1, lowMask x (Int.ofNat thr)), (2, 2, low.toNat)] (some 4) l.crossings
      else setPort s p { x with mlow := l }
    else s

/-- An alignment-marker period ends (R230). -/
def execHistogramPeriodEnd (p : PortId) (s : State) : Host.Outcome State Fault Refusal :=
  .next <| if herdsRun s && (getPort s p).st == .up then modPort s p histClose else s

/-- Writes the persistent counters of every port to MRAM (R231). -/
def persistAll (s : State) : State :=
  { s with nv := { s.nv with pers := s.ports.map fun e => (e.1, e.2.pers) } }

/-- The 60 s write of the persistent counters (R231). -/
def execCounterPersist (s : State) : Host.Outcome State Fault Refusal :=
  .next <| if !s.clk.refclkOk then s else persistAll s

/-- A lane measures its eyes (R233); at 25GAUI the outer heights read 0. -/
def execEyeMeasure (p : PortId) (upper middle lower width : BitVec 16) (s : State) :
    Host.Outcome State Fault Refusal :=
  .next <|
    if !herdsRun s then s else
    let x := getPort s p
    if x.lane.st == .active then
      let nrz := x.lane.mode == .l25
      setPort s p { x with lane := { x.lane with
        eye := ⟨if nrz then 0 else upper, middle, if nrz then 0 else lower, width⟩ } }
    else s

end Sys2Proof.Machine
end

