-- ==== Sys2Proof/Machine/Diagnose.lean ====
section
/-!
DEFINITION. Cable diagnostics (R234 to R245): DIAG.PASSIVE, Chamois, its steps and the delivery of kept results.
-/

namespace Sys2Proof.Machine

/-- µs until a diagnostic's latest end, at least 1 (R234, R237). -/
def diagLeft (s : State) (x : Port) : Nat := usLeft s x.diag.startMono x.diag.limit

/-- ST_BUSY_TEST with the remaining time of a running diagnostic. -/
def busyDiag (s : State) (x : Port) : BitVec 8 × BitVec 64 := (stBusyTest, BitVec.ofNat 64 (diagLeft s x))

/-- Whether a freeze cause holds on any pair (R84). -/
def anyFreeze (s : State) (p : PortId) : Bool := (quadList (getPort s p).pairs).any fun q => freezeBits s p q != 0

/-- DIAG.PASSIVE (R234, R310): completes at the capture, which reads the held coefficients of all four pairs. -/
def execDiagPassive (c : Cmd) (p : PortId) (profile : BitVec 8) (s : State) : Host.Outcome State Fault Refusal :=
  .next <|
    if !myTurn s c then s
    else
      match portGate s p with
      | some r => reject s 0x0401 c r.1 r.2
      | none =>
        let x := getPort s p
        if chamoisRuns x then reject s 0x0401 c (busyDiag s x).1 (busyDiag s x).2
        else if 1 < profile.toNat then reject s 0x0401 c stBadParam (resField 0x10)
        else if x.st != .up then reject s 0x0401 c (refusedPort s p).1 (refusedPort s p).2
        else if x.diag.st != .none then reject s 0x0401 c (busyDiag s x).1 (busyDiag s x).2
        else
          let size := diagSize x false (profile == 1)
          let k := takeIn s (dataRingOf s c (.port p) 3) size
          match k.got with
          | none => reject k.st 0x0401 c k.status k.result
          | some b =>
            let s := modPort k.st p fun y =>
              { y with diag := { y.diag with st := .passive, step := 0, skip := false, profile := profile == 1,
                                             frozen := anyFreeze k.st p, buf := some b, start := now k.st,
                                             startMono := k.st.mono, limit := 20000, endState := .up,
                                             mode := x.mode, coefs := some (liveCoefs x),
                                             cable := livePar x 0x41, board := livePar x 0x42, thr := livePar x 0x43 } }
            completeOk s 0x0401 c (portBlocks p) size

/-- The passive computation ends (R234 to R236). -/
def execDiagPassiveDone (p : PortId) (s : State) : Host.Outcome State Fault Refusal :=
  .next (if herdsRun s then endPassive s p else s)

/-- A port leaves its state for a Chamois (R237, Table 7). -/
def chamoisLeave (s : State) (p : PortId) (st : PortSt) : State :=
  if st == .up then clearAttempts (waitNegotiate (leaveUp s p 0x06 .negotiate) p) p
  else if isTraining st then clearAttempts (waitNegotiate (abortTo s p 0x0B .negotiate) p) p
  else if st == .negotiate then waitNegotiate s p
  else s

/-- DIAG.CHAMOIS (R237, R310, Table 7). -/
def execDiagChamois (c : Cmd) (p : PortId) (skipSweep profile : BitVec 8) (s : State) :
    Host.Outcome State Fault Refusal :=
  .next <|
    if !myTurn s c then s
    else
      match portGate s p with
      | some r => reject s 0x0402 c r.1 r.2
      | none =>
        let x := getPort s p
        let h := herdOf p
        let skip := skipSweep == 1
        if chamoisRuns x then reject s 0x0402 c (busyDiag s x).1 (busyDiag s x).2
        else if 1 < skipSweep.toNat then reject s 0x0402 c stBadParam (resField 0x10)
        else if 1 < profile.toNat then reject s 0x0402 c stBadParam (resField 0x11)
        else if x.diag.st != .none then reject s 0x0402 c (busyDiag s x).1 (busyDiag s x).2
        else if isTraining x.st && !forced c then reject s 0x0402 c stBusyTraining 0
        else if x.st == .up && !forced c then reject s 0x0402 c (refusedPort s p).1 (refusedPort s p).2
        else if x.loop == .digital then reject s 0x0402 c (refusedPort s p).1 (refusedPort s p).2
        else if !skip && obsHeld (getHerd s h) then reject s 0x0402 c stNoResource 0
        else
          let k := takeIn s (dataRingOf s c (.port p) 3) (diagSize x true (profile == 1))
          match k.got with
          | none => reject k.st 0x0402 c k.status k.result
          | some b =>
            let s := chamoisLeave k.st p x.st
            let endState := if x.st == .disabled || x.st == .hold then x.st else .negotiate
            let s := startChamois s p skip (profile == 1) false (some b) endState
            completeOk s 0x0402 c (portBlocks p) (getPort s p).diag.limit

/-- The end of a Chamois, and where the port goes (R237, R239). -/
def chamoisFinish (s : State) (p : PortId) (f : DiagFinding) : State :=
  let st := (getPort s p).diag.endState
  let s := diagEnd s p true true (some f)
  if st == .negotiate && (getPort s p).st == .negotiate then newAttempt s p else s

/-- The port that holds a herd's path for its sweeps: the head of the order (R240). -/
def sweepHead (s : State) (p : PortId) : Bool := (getObs s (herdOf p)).sweeps.head? == some p

/-- A port takes the path for its sweeps (R240, R255). -/
def takePath (s : State) (p : PortId) : State :=
  let h := herdOf p
  let s := modPort s p fun x => { x with diag := { x.diag with st := .chamois, step := 3, stepMono := s.mono } }
  setObs s h { getObs s h with st := .chamois }

/-- A Chamois step ends (R239, Table 8): listen, the TDR of one pair after another, NEXT sweep, loss sweep, analysis.
`f` is what the test has found so far. -/
def execChamoisStepEnd (p : PortId) (f : DiagFinding) (s : State) : Host.Outcome State Fault Refusal :=
  .next <|
    if !herdsRun s then s else
    let x := getPort s p
    if x.diag.st == .chamois then
      let to_ := fun (s : State) (n : Nat) =>
        modPort s p fun y => { y with diag := { y.diag with step := n, stepMono := s.mono, found := some f } }
      match x.diag.step with
      | 1 => to_ s 2
      | 2 =>
        if x.diag.tdr < 3 then modPort s p fun y => { y with diag := { y.diag with tdr := y.diag.tdr + 1, found := some f } }
        else if x.diag.skip then to_ s 5
        else
          let s := modPort s p fun y => { y with diag := { y.diag with found := some f } }
          if sweepHead s p && !obsHeld (getHerd s (herdOf p)) then takePath s p
          else modPort s p fun y => { y with diag := { y.diag with st := .waiting, step := 3, stepMono := s.mono } }
      | 3 => to_ s 4
      | 4 => to_ (dropSweep s p) 5
      | _ => chamoisFinish s p f
    else s

/-- A waiting Chamois gets the observation path (R240). -/
def execChamoisSweepGrant (h : HerdId) (s : State) : Host.Outcome State Fault Refusal :=
  .next <|
    if !herdsRun s then s else
    match (getObs s h).sweeps with
    | p :: _ => if (getPort s p).diag.st == .waiting && herdOf p == h then takePath s p else s
    | [] => s

/-- A kept automatic result goes to a buffer of at least 1,280 bytes that is now posted (R238). -/
def execChamoisResultDelivery (p : PortId) (s : State) : Host.Outcome State Fault Refusal :=
  .next <| if !s.clk.refclkOk then s else
    match activeRing s 3 (.port p) with
    | some r => deliverKept s r p
    | none => s

end Sys2Proof.Machine
end

