-- ==== Sys2Proof/Machine/SelfTest.lean ====
section
/-!
DEFINITION. Calibration and self-test (18, R442 to R462): background steps, foreground runs, a die's full run, the
in-field self-test of a herd and its record.
-/

namespace Sys2Proof.Machine

/-! ### Calibration steps -/

/-- A calibration step on a pair counts in PORT_CAL_COUNT and PORT_CAL_TIME (R447). -/
def calStep (t : BitVec 64) (q : Pair) : Pair := { q with calCount := q.calCount + 1, calTime := t }

/-- Where a pair's trims of a task stand in its section of a context (R447): the 1,024 bytes at 0x5400 hold the four
tasks' in the order of Table 1, at places of the model's choice. DESIGN CHOICE, log 56. -/
def trimOff (k : Nat) : Nat := 0x5400 + 0x100 * k

/-- A background step moves a task's trim by at most one code (R443); which way is measured, hence free. The
references of the last task are the port's, not a pair's. -/
def trimMove (k n : Nat) (q : Pair) : Pair :=
  if 3 < k then q
  else { q with coef := tabSet q.coef (trimOff k) (tabGet 0 q.coef (trimOff k) + BitVec.ofNat 32 (n % 3) - 1) }

/-- A task that is calibrated through writes its trim as measured. -/
def trimSet (k n : Nat) (q : Pair) : Pair :=
  if 3 < k then q else { q with coef := tabSet q.coef (trimOff k) (BitVec.ofNat 32 n) }

/-- The numbers of pairs A to D. -/
def quadIx : Quad Nat := ⟨0, 1, 2, 3⟩

/-- Whether a pair's background calibration pauses: frozen with LEVEL_DIVERSITY or SLICER_ERROR (R446). -/
def calPaused (q : Pair) : Bool := q.freeze.getLsbD 1 || q.freeze.getLsbD 2

/-- The task a foreground run is at: the lowest one ordered and not done (R452, Table 3). -/
def calTask (r : CalRun) : Option (Fin 5) :=
  (List.finRange 5).find? fun k => r.tasks.getLsbD k.val && !r.done.getLsbD k.val

/-- Work of a task in units of 200 µs (R452, Table 3, typical times). -/
def calUnits : Fin 5 → Nat
  | 0 => 35
  | 1 => 45
  | 2 => 15
  | 3 => 55
  | 4 => 10

/-- Longest work of a task in µs (Table 3). -/
def calMaxUs : Fin 5 → Nat
  | 0 => 9000
  | 1 => 12000
  | 2 => 4000
  | 3 => 15000
  | 4 => 3000

/-- Remaining work time of a foreground run in µs, at least 1 (R451). -/
def calLeft (s : State) (r : CalRun) : Nat :=
  let all := ((List.finRange 5).filter fun k => r.tasks.getLsbD k.val).map calMaxUs
  if r.inLpi then max 1 (200 * r.unitsLeft) else usLeft s r.startMono all.sum

/-- A background step of a task on the four pairs (R443, R446): a pair pauses while a judged freeze holds, and the
task that a foreground run is at pauses. -/
def taskStep (s : State) (p : PortId) (task : Nat) : State :=
  let d := freeNat s
  let x := getPort s p
  let busy := (x.cal.bind calTask).map (·.val) == some task
  let step := fun i q => if calPaused q || busy then q else trimMove task (d.1 / 3 ^ i) (calStep (now s) q)
  setPort d.2 p { x with pairs := quadZip step quadIx x.pairs }

/-- One step of the next task in rotation, tasks 1 to 4 of Table 3 (R443); the accumulation of marker slots restarts
(R445). -/
def calGap (s : State) (p : PortId) : State :=
  modPort (taskStep s p ((getPort s p).calRot % 4 + 1)) p fun x => { x with calRot := (x.calRot + 1) % 4, calMarks := 0 }

/-- Marker periods whose slots make one step (R445). -/
def calPeriods : LineMode → Nat
  | .l50 => 112
  | .l25 => 56
  | _ => 224

/-- Whether background calibration runs on a port (R443, R446): in T1 to T3 and UP, not while its controller restarts.
-/
def calRuns (s : State) (p : PortId) : Bool :=
  let st := (getPort s p).st
  (st == .t1 || st == .t2 || st == .t3 || st == .up) && herdsRun s && (getHerd s (herdOf p)).st != .fwRestart

/-- A slot's symbols serve the ADC interleave's background calibration: one update per 2^20 symbols (R443, Table 1).
With the last slot of a marker period, its marker slots are accumulated (R445). -/
def adcGap (s : State) (p : PortId) : State :=
  let x := getPort s p
  if !calRuns s p || x.lpi.st == .quiet then s
  else
    let n := x.line.adcSyms + slotSymbols x.mode
    let s := setPort s p { x with line := { x.line with adcSyms := n % 2 ^ 20 }
                                  calMarks := if x.line.rxSlot = 16383 then x.calMarks + 1 else x.calMarks }
    if 2 ^ 20 ≤ n then taskStep s p 0 else s

/-- Alignment-marker accumulation completes and one step of the next task in rotation is taken (R445). -/
def execCalMarkerCountExpiry (p : PortId) (s : State) : Host.Outcome State Fault Refusal :=
  .next (if calRuns s p && decide (calPeriods (getPort s p).mode ≤ (getPort s p).calMarks) then calGap s p else s)

/-! ### CAL.RUN (R322, R451 to R454) -/

/-- ST_BUSY_TEST of a port's Chamois (R243). -/
def calBusy (s : State) (p : PortId) : Option (BitVec 8 × BitVec 64) :=
  if chamoisRuns (getPort s p) then some (busyDiag s (getPort s p)) else none

/-- What CAL.RUN meets at its target before its TASKS is looked at (R310): checks 1 and 2, with a Chamois on a covered
port (R243). -/
def calGate (s : State) (t : Target) : Option (BitVec 8 × BitVec 64) :=
  match t with
  | .port p => portGate s p <|> calBusy s p
  | .herd h => herdGate s h <|> (portsOf h).findSome? (calBusy s)
  | .hub => none

/-- What a covered port answers to CAL.RUN (R451, Table 2): a refusal or none. -/
def calRefuses (s : State) (p : PortId) (force : Bool) : Option (BitVec 8 × BitVec 64) :=
  let x := getPort s p
  match portGate s p with
  | some r => some r
  | none =>
    if x.diag.st != .none then some (busyDiag s x)
    else match x.cal with
      | some r => some (stBusyTest, BitVec.ofNat 64 (calLeft s r))
      | none =>
        if isTraining x.st then some (stBusyTraining, 0)
        else if x.st == .up && !force && (x.lpi.st == .active || x.lpi.st == .blocked) then some (refusedPort s p)
        else if x.loop == .digital then some (refusedPort s p)
        else none

/-- A covered port begins its run (R451, Table 2). -/
def calBegin (tasks : BitVec 8) (s : State) (p : PortId) : State :=
  let x := getPort s p
  let inLpi := x.st == .up && !(x.lpi.st == .active || x.lpi.st == .blocked)
  let s := if x.st == .up && !inLpi then clearAttempts (waitNegotiate (leaveUp s p 0x06 .negotiate) p) p
    else if x.st == .negotiate then waitNegotiate s p
    else s
  let endState := if x.st == .disabled || x.st == .hold then x.st else if inLpi then .up else .negotiate
  let r : CalRun := { tasks := tasks, done := 0, inLpi := inLpi, unitsLeft := 0, quiet := 0, quietUnits := 0,
                      start := now s, startMono := s.mono,
                      endState := endState }
  modPort s p fun y => { y with cal := some { r with unitsLeft := (calTask r).elim 0 calUnits } }

/-- CAL.RUN. On a herd, TASKS 0 or bit 4 also starts the die's full run (R449). -/
def execCalRun (c : Cmd) (t : Target) (tasks : BitVec 8) (s : State) : Host.Outcome State Fault Refusal :=
  .next <|
    if !myTurn s c then s
    else
      let ps := match t with
        | .port p => [p]
        | .herd h => portsOf h
        | .hub => []
      let isHerd := match t with
        | .herd _ => true
        | _ => false
      let fix := fun (r : BitVec 8 × BitVec 64) => if isHerd && r.1 == stRefused then (stRefused,
          (0xFF : BitVec 64)) else r
      match calGate s t with
      | some r => reject s 0x0601 c (fix r).1 (fix r).2
      | none =>
        if 0x1F < tasks.toNat then reject s 0x0601 c stBadParam (resField 0x10)
        else match ps.findSome? fun p => calRefuses s p (forced c) with
        | some r => reject s 0x0601 c (fix r).1 (fix r).2
        | none =>
          let all := if tasks = 0 then 0x1F else tasks
          let s := forEach ps (calBegin all) s
          let s := match t with
            | .herd h =>
              let d := dieOfHerd h
              if all.getLsbD 4 && (getDie s d).calRun.isNone then setDie s d { getDie s d with calRun := some 1 } else s
            | _ => s
          completeOk s 0x0601 c (ps.flatMap portBlocks) 0

/-- The end of a foreground run (R451, R454). -/
def calFinish (s : State) (p : PortId) (r : CalRun) : State :=
  let s := calDone s p 0
  if r.endState == .negotiate && (getPort s p).st == .negotiate then newAttempt s p else s

/-- Units that have ended in the quiet that runs. -/
def unitsHere (x : Port) (r : CalRun) : Nat := if r.quiet = x.lpi.quietFrom then r.quietUnits else 0

/-- A unit ends within the limits of R223 and R452: units of 200 µs take at most 1.8 ms of a quiet of 2.1 ms, and the
last ends 100 µs or more before the refresh instant. -/
def unitFits (s : State) (x : Port) (r : CalRun) : Bool :=
  decide (unitsHere x r < 9) && decide (s.mono + 100000 ≤ x.lpi.quietFrom + 2100000)

/-- A run with one more unit of the quiet that runs. -/
def unitCounted (x : Port) (r : CalRun) : CalRun := { r with quiet := x.lpi.quietFrom, quietUnits := unitsHere x r + 1 }

/-- A task of a foreground run, or a 200 µs unit of a run in LPI, ends (R452): a unit counts only in QUIET. -/
def execCalUnitDone (p : PortId) (s : State) : Host.Outcome State Fault Refusal :=
  .next <|
    if !herdsRun s then s else
    let x := getPort s p
    match x.cal with
    | none => s
    | some r =>
      match calTask r with
      | none => calFinish s p r
      | some k =>
        if r.inLpi && x.lpi.st != .quiet then s
        else if r.inLpi && !unitFits s x r then s
        else if r.inLpi && decide (1 < r.unitsLeft) then
          setPort s p { x with cal := some { unitCounted x r with unitsLeft := r.unitsLeft - 1 } }
        else
          let r := unitCounted x r
          let r := { r with done := r.done ||| BitVec.ofNat 8 (2 ^ k.val) }
          let d := freeNat s
          let step := fun i q => trimSet k.val (d.1 / 2 ^ (32 * i)) (calStep (now s) q)
          let s := setPort d.2 p
            { x with pairs := quadZip step quadIx x.pairs,
                     cal := some { r with unitsLeft := (calTask r).elim 0 calUnits } }
          if (calTask r).isNone then calFinish s p r else s

/-! ### A die's full run (R447 to R449) -/

/-- A full calibration run of a die ends (R448, R449). -/
def dieRunEnd (s : State) (d : DieId) : State :=
  let x := getDie s d
  match x.calRun with
  | some trig =>
    let s := setDie s d { x with calRun := none, calTemp := x.temp, calCount := x.calCount + 1, calTime := now s }
    postGlobal s 74 [(0, 1, d.val), (1, 1, trig.toNat), (2, 2, x.temp.toNat)]
  | none => s

def execDieFullRunEnd (d : DieId) (s : State) : Host.Outcome State Fault Refusal :=
  .next <| if !(s.clk.refclkOk && linePowered s) then s else dieRunEnd s d

/-- A die's temperature reading (R448); the ninth is the hub die. -/
def execDieTemperatureRead (d : Fin 9) (t : BitVec 16) (s : State) : Host.Outcome State Fault Refusal :=
  .next <|
    if h : d.val < 8 then
      if s.clk.refclkOk && linePowered s then setDie s ⟨d.val, h⟩ { getDie s ⟨d.val, h⟩ with temp := t } else s
    else if s.clk.refclkOk && hubPowered s then { s with hubTemp := t } else s

/-- A port's front-end temperature reading (R375): PORT_THERMAL at WARN_C and at WARN_C − 5 °C. -/
def execPortTemperatureRead (p : PortId) (t : BitVec 16) (s : State) : Host.Outcome State Fault Refusal :=
  .next <| if !herdsRun s then s else
    let x := getPort s p
    let warn := fld (regVal s 0x418) 0 8
    let w : Int := 8 * (warn : Int)
    let pay := fun (k : Nat) => [(0, 1, k), (2, 2, t.toNat), (4, 2, warn)]
    if !x.hot && decide (w ≤ t.toInt) then
      postLimited (setPort s p { x with temp := t, hot := true }) (portSrc p 14) 1 (pay 1) none 1
    else if x.hot && decide (t.toInt ≤ w - 40) then
      postLimited (setPort s p { x with temp := t, hot := false }) (portSrc p 14) 0 (pay 0) none 1
    else setPort s p { x with temp := t }

/-! ### In-field self-test (R458 to R462) -/

/-- A failing memory that no repair covers (Table 6: type 2 or 3). -/
def unrepaired (m : BitVec 16 × BitVec 32 × BitVec 16 × BitVec 8) : Bool := m.2.2.2 == 2 || m.2.2.2 == 3

/-- Failures in MEM_ID order (R461). -/
def insertFail (m : MemFail) : List MemFail → List MemFail
  | [] => [m]
  | n :: l => if m.mem.toNat < n.mem.toNat then m :: n :: l else n :: insertFail m l

/-- Soft repair (R456): a failure that fits its spares takes an entry of the table and is repaired (type 1); one that
does not is unrepairable (2), and so is one that needs a new entry while the table is full (3). Answers the table and,
for each failure, its record entry. -/
def repairAll (tab : List Repair) : List MemFail → List Repair × List (BitVec 16 × BitVec 32 × BitVec 16 × BitVec 8)
  | [] => (tab, [])
  | f :: l =>
    let e : Repair := { unit := f.unit, mem := f.mem, addr := f.addr, bit := f.bit }
    let kind : BitVec 8 := if !f.fits then 2 else if !tab.contains e && decide (4096 ≤ tab.length) then 3 else 1
    let t := repairAll (if kind = 1 && !tab.contains e then tab ++ [e] else tab) l
    (t.1, (f.mem, f.addr, f.bit, kind) :: t.2)

/-- A test's memory findings: repairs enter the table, whose change MEM_REPAIR tells (R456). -/
def bistMemory (s : State) (t : BistRun) (fails : List MemFail) : State × BistRun :=
  let r := repairAll s.nv.repairs (fails.foldl (fun a m => insertFail m a) [])
  let n := r.1.length - s.nv.repairs.length
  let t := { t with memFails := t.memFails ++ r.2, repairs := t.repairs + n }
  let s := { s with nv := { s.nv with repairs := r.1 } }
  (if n ≠ 0 then postGlobal s 73 [(0, 2, r.1.length)] else s, t)

/-- Record entries in MEM_ID order. -/
def insertMem (m : BitVec 16 × BitVec 32 × BitVec 16 × BitVec 8) :
    List (BitVec 16 × BitVec 32 × BitVec 16 × BitVec 8) → List (BitVec 16 × BitVec 32 × BitVec 16 × BitVec 8)
  | [] => [m]
  | n :: l => if m.1.toNat < n.1.toNat then m :: n :: l else n :: insertMem m l

/-- RESULT of a self-test (R461, Table 6). Of a test with both kinds of failure the spec does not say which code it
carries: a free choice of the two. -/
def bistResult (t : BistRun) (free : Nat) : Nat :=
  let mem := t.memFails.any unrepaired
  if t.logicFail ≠ 0 && mem then 2 + free % 2
  else if t.logicFail ≠ 0 then 2
  else if mem then 3
  else if t.repairs ≠ 0 then 1
  else 0

/-- A self-test record of 320 bytes (R461, Table 6). -/
def bistRecord (unit result durUs held : Nat) (t : BistRun) : List Fld :=
  let l := (t.memFails.foldl (fun a m => insertMem m a) []).take 16
  [(0, 2, unit), (2, 1, result), (3, 1, l.length), (4, 4, durUs), (8, 8, t.start.toNat), (0x10, 2, t.logicFail.toNat),
   (0x12, 2, t.repairs), (0x14, 2, held), (0x16, 2, t.dieTemp.toNat)] ++
  l.zipIdx.flatMap fun e =>
    let b := 0x40 + 16 * e.2
    [(b, 2, e.1.1.toNat), (b + 2, 4, e.1.2.1.toNat), (b + 6, 2, e.1.2.2.1.toNat), (b + 8, 1, e.1.2.2.2.toNat)]

/-- Writes a self-test record to the next buffer of the herd's data-in ring; shorter ones come back (R461). -/
def bistDeliver (r : RingId) (fs : List Fld) : List DataDesc → State → State × Bool
  | [], s => (s, false)
  | d :: rest, s =>
    let t := popBuf s r d rest
    if descOk true d && decide (320 ≤ d.length.toNat) then
      (finishIn (modRing t.2 r fun x => { x with taken := x.taken ++ [t.1] }) t.1 320 fs, true)
    else bistDeliver r fs rest (completeBuf t.2 2 t.1 stBadParam 0)

/-- Writes a herd's waiting record if its data-in ring offers a buffer. -/
def bistTryDeliver (s : State) (h : HerdId) : State :=
  match (getHerd s h).waitRec, activeRing s 3 (.herd h) with
  | some fs, some r =>
    let t := bistDeliver r fs (getRing s r).bufs s
    if t.2 then modHerd t.1 h fun x => { x with waitRec := none } else t.1
  | _, _ => s

/-- A waiting self-test record meets a newly posted buffer (R461). -/
def execBistRecordDelivery (h : HerdId) (s : State) : Host.Outcome State Fault Refusal :=
  .next <| if !s.clk.refclkOk then s else bistTryDeliver s h

/-- The result of a test (R460, R461): the record is written or waits, then BIST_DONE. -/
def bistReport (s : State) (h : HerdId) (t : BistRun) (result : Nat) : State :=
  let dur := (s.mono - t.startMono) / 1000
  let fs := bistRecord h.val result dur s.nv.repairs.length t
  let s := { s with nv := { s.nv with bist := tabSet s.nv.bist h.val fs } }
  let s := bistTryDeliver (modHerd s h fun x => { x with waitRec := some fs }) h
  postGlobal s 72 [(0, 2, h.val), (2, 1, if result ≤ 1 then 0 else 1), (4, 4, dur)]

/-- A port leaves service for a self-test: TEST, its lane idle (R458, step 1). -/
def enterTest (s : State) (p : PortId) : State :=
  let back := backOf (getPort s p)
  let s := endCal (endChamois s p) p
  let x := getPort s p
  let s := if x.st == .up then leaveUp s p 0x09 .test
    else if isTraining x.st then setSt (abortTo s p 0x0E .test) p .test
    else setSt s p .test
  modPort s p fun y => { lineQuiet y with back := back, neg := Neg.none, start := Start.none,
                                          loop := if y.loop == .digital then .none else y.loop }

/-- The herd shadow window that a reaction or an accepted BIST.RUN opens (R385); 0 µs opens none. -/
def herdShadowUs (s : State) : Nat := fld (regVal s 0x520) 10 10

/-- A waiting herd commit ends with ST_SUPERSEDED: nothing is applied, what was staged stays staged (R339). -/
def dropCommit (s : State) (h : HerdId) : State :=
  match (getHerd s h).commit with
  | some k =>
    let s := modHerd s h fun x => { x with commit := none, staged := true }
    let s := forEach (portsOf h).zipIdx (fun s e => modPort s e.1 fun x =>
      { x with staged := k.staged.getD e.2 [] ++ x.staged.filter fun i => !(k.staged.getD e.2 []).contains i }) s
    reject s 0x0102 k.cmd stSuperseded 0
  | none => s

/-- Another herd under in-field self-test, if there is one (R322). -/
def testedHerd (s : State) : Option HerdId := allHerds.find? fun h => (getHerd s h).st == .selfTest

/-- Whether a mode or timing commit of a herd waits for the sequencer (R339) or still has ports in start-up (R28). -/
def commitRuns (s : State) (h : HerdId) : Bool :=
  (getHerd s h).commit.isSome || (getHerd s h).restart.any fun p => (getPort s p).st == .negotiate ||
      isTraining (getPort s p).st

/-- BIST.RUN (R28, R322, R458 step 1). -/
def execBistRun (c : Cmd) (h : HerdId) (s : State) : Host.Outcome State Fault Refusal :=
  .next <|
    if !testTurn s c then s
    else
      match herdGate s h with
      | some r => reject s 0x0701 c r.1 r.2
      | none =>
        let ps := portsOf h
        let up := ps.any fun p => (getPort s p).st == .up
        let busy := ps.any fun p => holdsMode (getPort s p)
        match testedHerd s with
        | some g => reject s 0x0701 c (busyTest s g).1 (busyTest s g).2
        | none =>
          if commitRuns s h && !forced c then reject s 0x0701 c stBusyTraining 0
          else if busy && !forced c then reject s 0x0701 c stRefused 0xFF
          else if up && !storeUp s (chanOfHerd h) then reject s 0x0701 c stNoResource 0
          else
            let states := ps.map fun p => (getPort s p).st
            let x := getHerd s h
            let s := retarget (dropCommit s h) (dieOfHerd h)
            let s := if herdShadowUs s = 0 then s else
              { s with flt := { s.flt with shadows := s.flt.shadows ++
                [{ scope := .herd h, record := 0, ends := s.mono + 1000 * herdShadowUs s }] } }
            let s := forEach ps (fun s p => if (getPort s p).st == .up then beginSave s p 5 none false else s) s
            let s := forEach ps enterTest s
            let s := obsSelfTest s h
            let run : BistRun := { step := 2, start := now s, startMono := s.mono, saved := up, logicFail := 0,
                                   memFails := [], repairs := 0, dieTemp := 0 }
            let s := modHerd s h fun y => { y with st := .selfTest, test := some run }
            let s := storeHerdRec s h { resolved := x.resolved, policy := x.policy, states := states }
            let s := forEach ps (fun s p => modPort s p fun y => { y with frozenCopy := some (liveBlock s p (now s)) }) s
            completeOk s 0x0701 c (herdBlocks h) 0

/-- 64 collector cycles of 25.6 ns in ns, rounded up (R378, R379). -/
def deafNs : Nat := 1639

/-- The end of a self-test (R155, R460): ports released, or herd safe state until a reset. A port that a safe state
still holds goes back to it (R393). -/
def bistFinish (s : State) (h : HerdId) (t : BistRun) : State :=
  let d := freeNat s
  let result := bistResult t d.1
  let s := bistReport d.2 h t result
  let s := modHerd s h fun x =>
    { x with test := none, st := if result ≤ 1 then .normal else .failed }
  let s := forEach (portsOf h) (fun s p => modPort s p fun y => { y with frozenCopy := none }) s
  forEach (portsOf h) (fun s p => if result ≤ 1 && !safeCovers s p then releasePort s p else setSt s p .safe) s

/-- A safe-state reaction ends a test at once (R462): nothing restored; a save not yet visible is lost. -/
def bistAbort (s : State) (h : HerdId) : State :=
  match (getHerd s h).test with
  | some t =>
    if (getHerd s h).st == .selfTest then
      let s := bistReport s h t 4
      let s := modHerd s h fun x => { x with test := none, st := .safe, deaf := s.mono + deafNs }
      forEach (portsOf h) (fun s p => modPort s p fun y => { y with save := none, frozenCopy := none }) s
    else s
  | none => s

/-- Offsets of the words of a pair's coefficient memory, as a context lays them out (Table 2 of Channel Contexts): echo,
pair NEXT and bundle coefficients, partition exponents, FFE, DFE with its main tap, P_k. -/
def coefWords : List Nat :=
  (List.range 5200).map (4 * ·) ++ (List.range 40).map (expBase + ·) ++ (List.range 32).map (0x51C0 + 4 * ·) ++
    [0x5240, 0x5244] ++ (List.range 65).map (0x5280 + 4 * ·)

/-- What memory BIST leaves in a pair's coefficient memory (R155): free values, each of the word's own from a number
on. -/
def scrambled (n : Nat) (q : Pair) : Pair :=
  { q with coef := coefWords.foldl (fun t o => tabSet t o (BitVec.ofNat 32 (Config.freeValue (n + o)))) q.coef }

/-- Memory BIST overwrites the coefficient memory of a herd's pairs (R155). -/
def overwriteCoefs (s : State) (h : HerdId) : State :=
  let n := s.fresh
  let t := forEach (portsOf h) (fun s p => modPort s p fun x =>
    { x with pairs := quadZip (fun i q => scrambled (n + 0x6000 * (4 * (p.val % 8) + i)) q) quadIx x.pairs }) s
  { t with fresh := n + 0x6000 * 32 }

/-- A step of a self-test ends (R458, Table 5). The last one's restore reads the herd's contexts, and a damaged one is
removed (R153). -/
def execBistStepDone (h : HerdId) (o : BistOutcome) (reads : List (PortId × CtxKey × CtxRead)) (s : State) :
    Host.Outcome State Fault Refusal :=
  .next <| if !herdsRun s then s else
    match (getHerd s h).test with
    | none => s
    | some t =>
      let to_ := fun (s : State) (t : BistRun) => modHerd s h fun x => { x with test := some t }
      if (getHerd s h).st != .selfTest then s
      else match t.step with
        | 2 => to_ (forEach (portsOf h) saveVisible s) { t with step := 3 }
        | 3 => to_ s { t with step := 4, logicFail := o.logicFail }
        | 4 =>
          let t := { t with step := 5, dieTemp := (getDie s (dieOfHerd h)).temp }
          let r := bistMemory s t (o.memFails.filter fun m => m.unit.toNat == h.val)
          to_ (overwriteCoefs r.1 h) r.2
        | 5 =>
          let d := dieOfHerd h
          let s := modHerd s h fun x => { x with deaf := s.mono + deafNs }
          if dieDrifted s d && (getDie s d).calRun.isNone then
            to_ (setDie s d { getDie s d with calRun := some 0 }) { t with step := 6 }
          else to_ s { t with step := 7 }
        | 6 => to_ (dieRunEnd s (dieOfHerd h)) { t with step := 7 }
        | _ => bistFinish (checkReads (reads.filter fun r => herdOf r.1 == h) s) h t

end Sys2Proof.Machine
end

