-- ==== Sys2Proof/Machine/ResetOps.lean ====
section
/-!
DEFINITION. What PORST_N and SYSRST_N reset (R516, Table 2), shared with the restarts that act as SYSRST_N does: a boot
failure, a fixed reaction's end, ENTER_IBEX (R396, R491, R519).
-/

namespace Sys2Proof.Machine

/-- What a pair keeps through SYSRST_N: the calibration steps counted since PORST_N (R371). -/
def keepPair (q : Pair) : Pair := { Pair.reset with calCount := q.calCount, calTime := q.calTime }

/-- A port through SYSRST_N: reset, with its persistent counters (R231) and its temperature sensor. -/
def keepPort (x : Port) : Port :=
  { Port.reset with pers := x.pers, temp := x.temp, pairs := quadMap keepPair x.pairs }

/-- A herd through SYSRST_N: reset; the totals since PORST_N and the running image stay (R516, Table 7 of Staging). -/
def keepHerd (image : Img) (x : Herd) : Herd :=
  { Herd.reset with image := image.version, imageDig := image.digest,
                    obs := { Obs.reset with suppressed := x.obs.suppressed, dropped := x.obs.dropped } }

/-- A die through SYSRST_N: P0, no floor, its link down until it is retrained; temperatures and run counts stay. -/
def keepDie (x : Die) : Die :=
  { x with level := 0, target := 0, step := none, start := 0, floor := none, d2dUp := false, calRun := none }

/-- All eight dies with a function applied. -/
def mapDies (s : State) (f : Die → Die) : Tab Die := (List.finRange 8).map fun d => (d.val, f (getDie s d))

/-- All 64 herds with a function applied. -/
def mapHerds (s : State) (f : Herd → Herd) : Tab Herd := allHerds.map fun h => (h.val, f (getHerd s h))

/-- The host interface of a reset: rings, vectors, mirror state and generations at their reset values (R297, R516);
EPOCH counts on from PORST_N (R325). -/
def resetIo (s : State) : Io :=
  { Io.reset with gens := [], epoch := s.io.epoch, lastEpoch := s.io.lastEpoch, bus := s.io.bus }

/-- The collector through SYSRST_N: logs, FLT_FIRST_FAULT and FLT.ARM settings stay, the fixed latch clears (R516). -/
def keepFlt (f : Flt) : Flt :=
  { f with shadows := [], running := none, runCode := 0, deferred := [], safe := [], fixedHold := false, latch := [],
           ended := false, fixedRecs := [], owed := none }

/-- SEQ_STATE with nothing scheduled: staged when any kind is (R494). -/
def restSeq (f : Fw) : SeqSt :=
  if f.staged.hub.isSome || f.staged.herd.isSome || f.staged.ddr.isSome then .staged else .idle

/-- Whether a confirmation window is open (R487). -/
def windowOpen (f : Fw) : Bool := f.deadline != 0

/-- Firmware state through a reset: sessions, sequences and schedules end; slots, floors and MRAM records stay. -/
def keepFw (f : Fw) : Fw :=
  { f with session := none, stages := [], dropping := [], seq := restSeq f, fallback := false, startT := 0,
           hubPhase := false, herdsNew := 0, deferred := [], deadline := 0, expired := false, openAtRun := false,
           mgmtDown := false, inLock := false, outLock := false, chainHdr := none, chainFwd := false, ibex := false,
           ibexCause := 0, ibexStaged := false, toIbex := false }

/-- A settings generation comes into use (R486, R488). -/
def loadSettings (s : State) (g : Settings) : State :=
  { s with nv := { s.nv with pers := g.pers, bist := g.bist }
           ports := s.ports.map fun e => (e.1, { e.2 with pers := tabGet [] g.pers e.1 })
           fw := { s.fw with format := g.format, prevPers := none } }

/-- Settings reset to defaults (R486): counters and self-test records empty, SETTINGS_RESET with the format that was. -/
def settingsReset (s : State) (old : BitVec 16) : State :=
  let s := { s with nv := { s.nv with pers := [], bist := [] }, fw := { s.fw with setReset := true }
                    ports := s.ports.map fun e => (e.1, { e.2 with pers := [] }) }
  postGlobal s 84 [(0, 2, old.toNat), (2, 2, s.fw.format.toNat)]

/-- The set and the slot that a sequence, or an open window, falls back to. -/
def safeSet (f : Fw) : Tri Img :=
  if f.seq == .falling then f.target
  else ⟨f.previous.hub.getD f.running.hub, f.previous.herd.getD f.running.herd, f.previous.ddr.getD f.running.ddr⟩

/-- A reset while an activation or fallback sequence runs or waits for confirmation (R489): the previous set boots, the
previous settings come back (R488), FW_FALLBACK is owed, the slot left is rejected. -/
def fwRevert (s : State) : State :=
  let f := s.fw
  if f.seq == .running || f.seq == .falling || windowOpen f then
    let s := (f.prevPers.map (loadSettings s)).getD s
    { s with
      fw := { s.fw with
        slot := f.safeSlot, prevValid := false, rejected := true, fellBack := true
        ddrNew := f.ddrNew && f.running.ddr == (safeSet f).ddr
        running := safeSet f, previous := triMap some f.running, staged := ⟨none, none, none⟩ } }
  else s

/-- The line dies are powered anew (R517 step 8): their PLLs start, their DSP domains stand on the bypass. The hub's
clocks go on as they are: SYSRST_N keeps the root PLL running (R516). -/
def lineRestart (s : State) : State :=
  let s := pllsOff s linePlls
  dspDomains.foldl (fun s d => setSwitch s d { onPll := false, running := none, waiting := none }) s

/-- SYSRST_N, and every restart that acts as it does (R516, R359, R143): the device stands in `st`. -/
def sysReset (s : State) (st : DevSt) : State :=
  let s := lineRestart (fwRevert s)
  { s with
    time := { s.time with slewLeft := 0, slewPhase := 0 }
    regs := s.regs.filter fun e => regSticky e.1
    latches := [], heldLow := none
    access := { err := false, cause := 0, overflow := false, addr := 0, write := false }
    clk := { s.clk with fmcCount := 0, fmcDone := false, fmcRunning := false }
    pwr := { s.pwr with st := st, pending := none, latched := none, padsHeld := false, retFail := 0,
                        deepCnt := false, dark := false, post := none, sideAddr := 0x4A }
    dies := mapDies s keepDie
    ddr := (List.finRange 2).map fun c => (c.val,
        { getDdr s c with trained := false, gib := 0, selfRefresh := false, failed := false })
    store := []
    ports := s.ports.map fun e => (e.1, keepPort e.2)
    herds := mapHerds s (keepHerd s.fw.running.herd)
    io := resetIo s
    waits := []
    flt := keepFlt s.flt
    fw := keepFw s.fw
    sec := { s.sec with unlocked := false, scope := 0, ready := false, otp := none, jtag := none } }

/-- Every PLL as the device starts it. -/
def pllsAtStart : Tab Pll :=
  (allPlls.map pllId).foldl (fun t u => tabSet t (64 * u.sel.val + u.unit.val) { locked := false, good := 0, retuning := true }) []

/-- Every sequenced domain on the REFCLK bypass. -/
def allOnBypass : Tab Switch :=
  (Domain.hubCore :: dspDomains).map fun d => (domainCode d, { onPll := false, running := none, waiting := none })

/-- PORST_N (R516): straps, time and everything but MRAM and OTP at reset values; persistent counters come back from
their MRAM copy (R231). -/
def porReset (s : State) : State :=
  let t := sysReset s .inPorst
  { t with
    time := State.reset.time, regs := []
    clk := { State.reset.clk with refclkOk := s.clk.refclkOk, plls := pllsAtStart, switches := allOnBypass }
    pwr := { State.reset.pwr with st := .inPorst }
    dies := mapDies s fun x => { keepDie x with calTemp := 0, calCount := 0, calTime := 0 }
    ports := t.nv.pers.map fun e => (e.1, { Port.reset with pers := e.2 })
    herds := mapHerds t fun x => { Herd.reset with image := x.image, imageDig := x.imageDig }
    io := { Io.reset with gens := [], bus := s.io.bus }
    flt := { Flt.reset with next := s.flt.next, persist := s.flt.persist, logged := s.flt.logged,
                            raised := s.flt.raised,
                            network := s.flt.network }
    sec := { t.sec with factory := false, reports := 0 } }

end Sys2Proof.Machine
end

