-- ==== Sys2Proof/Machine/Faults.lean ====
section
/-!
DEFINITION. The fault collector (15 Events, Faults and Reactions, R377 to R398): sources and their settings, levels,
records, shadows, armed and fixed reactions, safe states and their release.
-/

namespace Sys2Proof.Machine

/-! ### Sources (R377, Tables 3 and 4) -/

/-- The unit a fault source belongs to. -/
inductive FltUnit where
  | port (p : PortId)
  | herd (h : HerdId)
  | die (d : DieId)
  | hub
  deriving DecidableEq, Repr

/-- A source's class and the defaults of Table 4: base level, N, W in µs, fixed reaction, whether its cause holds. -/
structure FltDef where
  cls   : Nat
  base  : Nat
  n     : Nat
  w     : Nat
  fixed : Bool
  holds : Bool
  deriving DecidableEq, Repr

/-- The unit of a source number; none for a reserved number. -/
def fltUnit (src : Nat) : Option FltUnit :=
  if h : src < 0x800 then (if src % 4 = 3 then none else some (.port ⟨src / 4, by omega⟩))
  else if h : 0x800 ≤ src ∧ src < 0x900 then some (.herd ⟨(src - 0x800) / 4, by omega⟩)
  else if h : 0x900 ≤ src ∧ src < 0x940 then
    (if 4 < (src - 0x900) % 8 then none else some (.die ⟨(src - 0x900) / 8, by omega⟩))
  else if [0xA00, 0xA01, 0xA02, 0xA03, 0xA04, 0xA05, 0xA06, 0xA10, 0xA11, 0xA12, 0xA13, 0xA14, 0xA15, 0xA16, 0xA20,
      0xA21, 0xA30, 0xA31, 0xA33, 0xA34, 0xA35, 0xA37, 0xA50, 0xA51, 0xA60, 0xA61, 0xA62, 0xA63, 0xA70, 0xA71, 0xA72,
      0xA73].contains src then some .hub
  else none

/-- A row of Table 4. -/
def fltRow (cls base n w : Nat) (holds : Bool) : FltDef :=
  { cls := cls, base := base, n := n, w := w * 1000000, fixed := false, holds := holds }

/-- Table 4. A source without N and W cannot be promoted by counting: its N is 0. -/
def fltDef (src : Nat) : FltDef :=
  if src < 0x800 then
    match src % 4 with
    | 0 => fltRow 5 0 64 1 false
    | 1 => fltRow 3 1 4 10 false
    | _ => fltRow 0 1 8 1 true
  else if src < 0x900 then
    match src % 4 with
    | 0 => fltRow 6 2 0 0 false
    | 2 => fltRow 3 1 4 60 false
    | _ => fltRow 1 2 0 0 true
  else if src < 0x940 then
    match src % 8 with
    | 0 => { fltRow 0 3 0 0 true with fixed := true }
    | 1 => fltRow 2 1 3 60 true
    | 2 => fltRow 6 1 3 10 true
    | 3 => fltRow 3 0 100 1 false
    | _ => fltRow 1 2 0 0 true
  else match src with
    | 0xA02 => { fltRow 0 3 0 0 true with fixed := true }
    | 0xA10 => { fltRow 1 3 0 0 true with fixed := true }
    | 0xA11 => fltRow 1 2 0 0 true
    | 0xA12 => fltRow 1 1 3 1 true
    | 0xA13 => fltRow 1 1 3 1 true
    | 0xA14 => fltRow 1 1 3 1 true
    | 0xA15 => fltRow 1 1 3 1 true
    | 0xA16 => fltRow 1 0 8 1 false
    | 0xA20 => fltRow 2 1 3 60 true
    | 0xA21 => { fltRow 2 3 0 0 true with fixed := true }
    | 0xA30 => fltRow 3 1 8 1 false
    | 0xA31 => fltRow 3 1 8 1 false
    | 0xA33 => fltRow 3 1 4 60 false
    | 0xA34 => fltRow 3 2 0 0 false
    | 0xA35 => fltRow 3 1 4 1 false
    | 0xA37 => fltRow 3 3 0 0 false
    | 0xA50 => fltRow 5 1 8 1 false
    | 0xA51 => fltRow 5 0 64 1 false
    | 0xA60 => fltRow 6 2 0 0 false
    | 0xA61 => fltRow 6 2 0 0 false
    | 0xA62 => fltRow 6 1 3 3600 false
    | 0xA63 => fltRow 6 1 3 3600 false
    | 0xA70 => fltRow 7 1 3 3600 false
    | 0xA71 => fltRow 7 1 3 3600 false
    | 0xA72 => fltRow 7 3 0 0 false
    | 0xA73 => fltRow 7 1 3 60 true
    | _ => fltRow 0 2 3 1 true

/-- A source's settings: base level, PIN, N, W in µs (R380); Table 4 with PIN = 1 until FLT.ARM changes them. A fixed
source keeps L3 and PIN. -/
def fltCfg (s : State) (src : Nat) : Nat × Bool × Nat × Nat :=
  let d := fltDef src
  match tabGet none s.flt.cfg src with
  | some c => if d.fixed then (3, true, 0, 0) else (c.base.toNat, c.pin, c.n.toNat, c.w.toNat)
  | none => (d.base, true, d.n, d.w)

/-- Whether a window's scope covers a unit's sources: the ports it quiets, their herds and their line dies (R386). -/
def coversUnit (sc : Scope) (u : FltUnit) : Bool :=
  match sc, u with
  | .device, _ => true
  | .none, _ => false
  | sc, .port p => coversPort sc p
  | .port q, .herd h => herdOf q == h
  | .herd g, .herd h => g == h
  | .die d, .herd h => dieOfHerd h == d
  | .port q, .die d => dieOf q == d
  | .herd g, .die d => dieOfHerd g == d
  | .die e, .die d => e == d
  | _, .hub => false

/-- Whether the collector ignores a unit's sources (R379): powered down on purpose, or a herd under self-test
until its step 5 is done, and 64 collector cycles more. -/
def fltIgnored (s : State) (u : FltUnit) : Bool :=
  let off := decide (s.mono < s.pwr.deaf) || (!inService s && (match s.pwr.st with
    | .entering _ => s.pwr.dark
    | _ => true))
  let tested := fun (h : HerdId) => decide (s.mono < (getHerd s h).deaf) ||
    ((getHerd s h).st == .selfTest && (getHerd s h).test.any fun t => decide (t.step ≤ 5))
  match u with
  | .hub => false
  | .die _ => off
  | .herd h => off || tested h
  | .port p => off || tested (herdOf p)

/-- Hub sources of the PLLs that Sleep powers down (Table 4a of Power States, R379). -/
def sleepSource (src : Nat) : Bool := src == 0xA11 || src == 0xA13 || src == 0xA14

/-- Sources of the hub core itself, which Idle gates (R421, R379): its SRAM, its ring and mirror engines, its watchdog
and exceptions. DEDUCED, log 37. -/
def coreSource (src : Nat) : Bool := [0xA34, 0xA51, 0xA60, 0xA61].contains src

/-- Whether the collector ignores a hub source (R379): of the gated hub core in Idle; in Sleep the PLLs that are off; in
Deep Sleep everything but the comparators, as the hub die is off; for 64 cycles more once each is powered again; every
source while the collector itself is off or in reset. -/
def hubIgnored (s : State) (src : Nat) : Bool :=
  match s.pwr.st with
  | .off => true
  | .inPorst => true
  | .deepSleep => decide (0xA10 < src)
  | .sleep => sleepSource src
  | .entering _ => s.pwr.dark && sleepSource src
  | .restoring n =>
    if n = 2 then sleepSource src else decide (s.mono < s.pwr.hubDeaf) && decide (0xA10 < src)
  | .idle => coreSource src
  | _ => (decide (s.mono < s.pwr.deaf) && sleepSource src) || (decide (s.mono < s.pwr.hubDeaf) && coreSource src)

/-- Table 6: the ports an armed reaction quiets, by its code and the fault's unit. -/
def reactScope (code : Nat) (u : FltUnit) : Scope :=
  match code, u with
  | 0, _ => .none
  | 1, .port p => .port p
  | 1, .herd h => .herd h
  | 1, .die d => .die d
  | 1, .hub => .device
  | 2, .port p => .herd (herdOf p)
  | 2, .herd h => .herd h
  | 2, .die d => .die d
  | 2, .hub => .device
  | _, _ => .device

/-- The reaction armed for a class and level (R364). -/
def armed (s : State) (cls level : Nat) : Nat := fld (regVal s (0x500 + 4 * cls)) (2 * level) 2

/-- The shadow window of a scope in µs (R364, R385). -/
def shadowUs (s : State) (sc : Scope) : Nat :=
  match sc with
  | .port _ => fld (regVal s 0x520) 0 10
  | .herd _ => fld (regVal s 0x520) 10 10
  | .die _ => fld (regVal s 0x520) 10 10
  | _ => fld (regVal s 0x520) 20 10

/-- Whether a record's cause still holds: its source's pair is raised, or shows equal levels for a C4 record. -/
def causeHolds (s : State) (r : FltRec) : Bool :=
  if r.network then tabGet false s.flt.network r.source.toNat else tabGet false s.flt.raised r.source.toNat

/-! ### Raising faults (R381 to R385) -/

/-- A fault as a collector cycle takes it. -/
structure Raise where
  source   : Nat
  detail   : BitVec 32
  injected : Bool
  network  : Bool
  deriving DecidableEq, Repr

/-- Whether a raise counts: a defined source, not ignored, not already held by its cause, not fixed (R378 to R381). -/
def raises (s : State) (r : Raise) : Bool :=
  match fltUnit r.source with
  | none => false
  | some u =>
    !fltIgnored s u && !hubIgnored s r.source &&
    (if r.network then !tabGet false s.flt.network r.source
     else !(fltDef r.source).fixed && !tabGet false s.flt.raised r.source && !tabGet false s.flt.network r.source)

/-- Faults of a source within its last W, among the times kept of it (R381). -/
def countIn (s : State) (src w : Nat) : Nat :=
  ((tabGet [] s.flt.times src).filter fun t => decide (s.mono - t.toNat ≤ 1000 * w)).length

/-- The record of a raised fault before FIRST, DEFERRED and SUBSUMED are known (R381, R388). `before` is the volatile
log as the cycle began. -/
def mkRecord (s : State) (before : List FltRec) (shadows : List Shadow) (r : Raise) : FltRec :=
  let d := fltDef r.source
  let c := fltCfg s r.source
  let u := (fltUnit r.source).getD .hub
  let cls := if r.network then 4 else d.cls
  let sh := shadows.find? fun w => coversUnit w.scope u
  let conseq := sh.isSome
  let base := if r.network then 2 else c.1
  let count := countIn s r.source c.2.2.2 + (if conseq then 0 else 1)
  let promoted := !conseq && decide (base < 2) && decide (c.2.2.1 ≠ 0) && decide (c.2.2.1 ≤ count)
  let l1 := if promoted then 2 else base
  let escal := !conseq && decide (l1 < 3) && (before.any fun q => q.cls.toNat == cls && unacked q && !q.conseq)
  let level := if escal then l1 + 1 else l1
  let code := if conseq then 0 else armed s cls level
  { record := s.flt.next, source := BitVec.ofNat 16 r.source, cls := BitVec.ofNat 8 cls, level := BitVec.ofNat 8 level,
    conseq := conseq, promoted := promoted, escalated := escal, first := false, acked := decide (level = 0),
    fixed := false, network := r.network, deferred := false, subsumed := false, injected := r.injected, pin := c.2.1,
    reaction := BitVec.ofNat 8 code, scope := reactScope code u, count := BitVec.ofNat 16 (min 0xFFFF count),
    link := (sh.map (·.record)).getD 0, detail := r.detail, time := now s }

/-- Posts FAULT_RECORD for a record (R374, R385, R389). -/
def postRecord (s : State) (r : FltRec) : State :=
  let s := bumpGen s (globalSrc 32)
  pushGlobal s (mkEvent s (globalSrc 32) r.conseq
    [(0, 4, r.record.toNat), (4, 2, r.source.toNat), (6, 1, r.cls.toNat), (7, 1, r.level.toNat),
     (8, 2, fltFlags r (causeHolds s r)), (10, 1, r.reaction.toNat), (12, 4, r.link.toNat)])

/-- A record in a log, newest RECORD first. A fixed reaction's record takes its number when the cause acts. -/
def insertRec (r : FltRec) : List FltRec → List FltRec
  | [] => [r]
  | q :: l => if q.record.toNat < r.record.toNat then r :: q :: l else q :: insertRec r l

/-- What the persistent log keeps (R389): the newest 16,384 records, and every fixed reaction's. -/
def persistKeep (l : List FltRec) : List FltRec := l.take 16384 ++ (l.drop 16384).filter (·.fixed)

/-- The next record number is taken (R388). -/
def nextRecord (s : State) : State := { s with flt := { s.flt with next := s.flt.next + 1 } }

/-- Puts a record into the logs (R389): the volatile log, and the persistent one at L1 or above. `put` says where. -/
def logRecord (put : FltRec → List FltRec → List FltRec) (s : State) (r : FltRec) : State :=
  { s with flt := { s.flt with
      volatile := (put r s.flt.volatile).take 4096
      persist := if r.level = 0 && !r.fixed then s.flt.persist else persistKeep (put r s.flt.persist)
      logged := if r.level = 0 && !r.fixed then s.flt.logged else s.flt.logged + 1 } }

/-- Changes a record in both logs. -/
def modRecord (s : State) (n : BitVec 32) (f : FltRec → FltRec) : State :=
  { s with flt := { s.flt with
      volatile := s.flt.volatile.map fun r => if r.record == n then f r else r
      persist := s.flt.persist.map fun r => if r.record == n then f r else r } }

/-- A record joins the safe state that holds another record (R385: SUBSUMED). -/
def joinSafe (old new : BitVec 32) (x : SafeState) : SafeState :=
  if x.records.contains old then { x with records := x.records ++ [new] } else x

/-- The herds a scope quiets as herds. -/
def scopeHerds (sc : Scope) : List HerdId :=
  match sc with
  | .herd h => [h]
  | .die d => herdsOf d
  | .device => allHerds
  | _ => []

/-- A safe-state reaction abandons a herd's lower operations at once (R28): its test, its waiting commit, its restart,
which waits for the release (R484). -/
def abandonHerd (s : State) (h : HerdId) : State :=
  let s := dropCommit (bistAbort s h) h
  if (getHerd s h).st == .fwRestart then
    modHerd { s with fw := { s.fw with deferred := s.fw.deferred ++ [h] } } h fun x => { x with st := .safe }
  else s

/-- The shadow window of a reaction that a record triggers now (R385). -/
def shadowOf (s : State) (sc : Scope) (record : BitVec 32) : Shadow :=
  { scope := sc, record := record, ends := s.mono + 1000 * shadowUs s sc }

/-- A shadow window opens (R385); 0 µs opens none. -/
def openShadow (s : State) (w : Shadow) : State :=
  if w.ends = s.mono then s else { s with flt := { s.flt with shadows := s.flt.shadows ++ [w] } }

/-- A reaction that a record calls for starts, waits as DEFERRED, or is SUBSUMED by a device-wide one (R385, R387), a
fixed reaction's hold among them (R545). Answers the record as written. -/
def react (s : State) (r : FltRec) : FltRec × State :=
  if r.reaction = 0 then (r, s)
  else if s.flt.fixedHold then ({ r with subsumed := true, reaction := 0, scope := .none }, s)
  else
    let v := shadowOf s r.scope r.record
    let hold := fun (s : State) =>
      { s with flt := { s.flt with safe := s.flt.safe ++ [{ scope := r.scope, records := [r.record] }] } }
    match s.flt.running with
    | none =>
      (r, forEach (scopeHerds r.scope) abandonHerd
        (hold (openShadow { s with flt := { s.flt with running := some v, runCode := r.reaction } } v)))
    | some w =>
      if w.scope == .device then
        ({ r with subsumed := true, reaction := 0, scope := .none },
         { s with flt := { s.flt with safe := s.flt.safe.map (joinSafe w.record r.record) } })
      else
        ({ r with deferred := true },
         hold (openShadow { s with flt := { s.flt with deferred := s.flt.deferred ++ [(v, r.reaction)] } } v))

/-- One fault of a collector cycle: counted, levelled, reacted to and logged. -/
def raiseOne (before : List FltRec) (shadows : List Shadow) (s : State) (r : Raise) : State :=
  let rec_ := mkRecord s before shadows r
  let d := fltDef r.source
  let s := { s with flt := { s.flt with
      raised := if d.holds && !r.network && !r.injected then tabSet s.flt.raised r.source true else s.flt.raised
      network := if r.network && !r.injected then tabSet s.flt.network r.source true else s.flt.network
      times := if rec_.conseq then s.flt.times
        else tabSet s.flt.times r.source ((BitVec.ofNat 64 s.mono :: tabGet [] s.flt.times r.source).take 65535) } }
  let t := react s rec_
  logRecord List.cons (nextRecord t.2) t.1

/-- Ascending by source (R383). -/
def insertRaise (r : Raise) : List Raise → List Raise
  | [] => [r]
  | q :: l => if r.source < q.source then r :: q :: l else q :: insertRaise r l

/-- The cycle's first fault: highest level, on a tie the lowest source (R384). -/
def firstOf (l : List FltRec) : Option FltRec :=
  l.foldl (fun m r => if r.conseq then m else match m with
    | none => some r
    | some q => if q.level.toNat < r.level.toNat then some r else m) none

/-- VALID clears when every record of the first fault's cycle has been acknowledged (R384). -/
def firstClear (s : State) : State :=
  match s.flt.first with
  | some (_, l) =>
    if (l.all fun n => !(s.flt.volatile.any fun r => r.record == n && unacked r)) then
      { s with flt := { s.flt with first := none } } else s
  | none => s

/-- The newest n records, in the order of their numbers. -/
def newest (s : State) (n : Nat) : List FltRec := (s.flt.volatile.take n).reverse

/-- Holds the first fault of a cycle with these records in FLT_FIRST_FAULT and marks its record (R384). -/
def firstSet (s : State) (l : List FltRec) : State :=
  if s.flt.first.isSome then s
  else
    match firstOf l with
    | none => s
    | some r =>
      let s := modRecord s r.record fun q => { q with first := true }
      firstClear { s with flt := { s.flt with first := some ({ r with first := true }, l.map (·.record)) } }

/-- One collector cycle (R381 to R387): FAULT_RECORD is posted once the FLAGS are known, FIRST among them (R384);
without REFCLK the collector stands still (R412). -/
def collect (s : State) (l : List Raise) : State :=
  if !s.clk.refclkOk then s
  else
  let l := (l.filter (raises s)).foldl (fun a r => if a.any (fun q => q.source == r.source) then
      a else insertRaise r a) []
  let t := forEach l (raiseOne s.flt.volatile s.flt.shadows) s
  let t := firstSet t (newest t l.length)
  forEach (newest t l.length) postRecord t

/-- A fault that another part of the device raises on its own. -/
def raiseFault (s : State) (src : Nat) (detail : Nat) : State :=
  collect s [{ source := src, detail := BitVec.ofNat 32 detail, injected := false, network := false }]

/-- A cause ends: the source's pair returns to clear (R381). -/
def clearCause (s : State) (src : Nat) : State :=
  if tabGet false s.flt.raised src then { s with flt := { s.flt with raised := tabSet s.flt.raised src false } } else s

/-! ### Safe states (R391 to R394) -/

/-- Whether a herd safe state holds a herd. -/
def herdSafeCovers (s : State) (h : HerdId) : Bool :=
  s.flt.safe.any fun x => match x.scope with
    | .port _ => false
    | sc => coversUnit sc (.herd h)

/-- A herd enters herd safe state (R391). -/
def enterHerdSafe (s : State) (h : HerdId) : State :=
  let s := obsCut (abandonHerd s h) h 0x03
  let s := forEach (portsOf h) (fun s p => if (getPort s p).st == .safe then s else enterSafe s p) s
  modHerd s h fun x => { x with st := if x.st == .failed then .failed else .safe }

/-- Quiets a scope (R391). -/
def quietScope (s : State) (sc : Scope) : State :=
  match sc with
  | .port p =>
    let s := if sourcePort (herdOf p) (getObs s (herdOf p)).source == p then obsPortSafe s (herdOf p) else s
    if (getPort s p).st == .safe then s else enterSafe s p
  | sc => forEach (scopeHerds sc) enterHerdSafe s

/-- The ports of a scope. -/
def scopePorts (sc : Scope) : List PortId :=
  match sc with
  | .port p => [p]
  | sc => (scopeHerds sc).flatMap portsOf

/-- Whether a safe state's records are all acknowledged. A record no log holds any more counts as acknowledged. -/
def allAcked (s : State) (x : SafeState) : Bool :=
  x.records.all fun n => !(s.flt.volatile.any fun r => r.record == n && unacked r)

/-- Whether a safe state's reaction is still running or deferred. -/
def stillReacting (s : State) (x : SafeState) : Bool :=
  (s.flt.running.map fun w => x.records.contains w.record).getD false ||
    s.flt.deferred.any fun w => x.records.contains w.1.record

/-- A herd leaves herd safe state: to normal, or to the restart that an activation sequence deferred (R484). -/
def herdUnsafe (s : State) (h : HerdId) : State :=
  if s.fw.deferred.contains h then
    modHerd { s with fw := { s.fw with deferred := s.fw.deferred.erase h } } h fun y => { y with st := .fwRestart }
  else modHerd s h fun y => { y with st := .normal }

/-- Ends one safe state (R393): its ports that no other safe state covers leave SAFE, its herds return to normal, its
dies meet a calibration trigger (R449), SAFE_RELEASED is posted. The ports of a herd that restarts wait (R484). -/
def releaseOne (last : BitVec 32) (s : State) (x : SafeState) : State :=
  let s := { s with flt := { s.flt with safe := s.flt.safe.erase x } }
  let hs := scopeHerds x.scope
  let s := forEach hs (fun s h => if herdSafeCovers s h || (getHerd s h).st != .safe then s
    else dieTrigger (herdUnsafe s h) (dieOfHerd h)) s
  let s := forEach (scopePorts x.scope) (fun s p =>
    if safeCovers s p || (getHerd s (herdOf p)).st == .failed || (getHerd s (herdOf p)).st == .fwRestart ||
        (getPort s p).st != .safe then s
    else releasePort s p) s
  postGlobal s 34 [(2, 2, scopeCode x.scope), (4, 4, last.toNat)]

/-- The safe states whose records have all been acknowledged. -/
def endingSafe (s : State) : List SafeState := s.flt.safe.filter fun x => allAcked s x && !stillReacting s x

/-- Ends every safe state whose records have all been acknowledged (R393); a fixed reaction's hold lets none end
(R545). -/
def releaseSafe (s : State) (last : BitVec 32) : State :=
  if s.flt.fixedHold then s else forEach (endingSafe s) (releaseOne last) s

/-- An armed reaction completes (R392): its ports are quiet, REACTION_DONE is posted, the next deferred one starts. -/
def reactionComplete (s : State) : State :=
  match s.flt.running with
  | none => s
  | some w =>
    let s := quietScope s w.scope
    let s := postGlobal s 33 [(0, 1, s.flt.runCode.toNat), (2, 2, scopeCode w.scope), (4, 4, w.record.toNat)]
    let s := match s.flt.deferred with
      | d :: rest => forEach (scopeHerds d.1.scope) abandonHerd
          { s with flt := { s.flt with running := some d.1, runCode := d.2, deferred := rest } }
      | [] => { s with flt := { s.flt with running := none, runCode := 0 } }
    releaseSafe s w.record

/-! ### Fixed reactions (R395, R396, R545) -/

/-- The source of a fixed cause. -/
def fixedSource : FixedCause → Nat
  | .refclk => 0xA10
  | .junction => 0xA21
  | .supply r => if r.val < 7 then 0xA00 + r.val else 0x900 + 8 * (r.val - 7)

/-- FIXED_CAUSE of a source: 1 REFCLK loss, 2 junction trip, 3 supply window (R364). -/
def fixedCode (src : Nat) : Nat := if src = 0xA10 then 1 else if src = 0xA21 then 2 else 3

/-- The record of a latched fixed cause (R396): L3, FIXED, REACTION 4. -/
def fixedRecord (s : State) (c : FixedCause) (t : BitVec 64) (detail n : BitVec 32) : FltRec :=
  let src := fixedSource c
  { record := n, source := BitVec.ofNat 16 src, cls := BitVec.ofNat 8 (fltDef src).cls, level := 3,
    conseq := false, promoted := false, escalated := false, first := false, acked := false, fixed := true,
    network := false, deferred := false, subsumed := false, injected := false, pin := true, reaction := 4,
    scope := .device, count := BitVec.ofNat 16 (min 0xFFFF (countIn s src 0 + 1)), link := 0, detail := detail,
    time := t }

/-- REFCLK_LOST (R376). The restart of the PCIe link has disabled every ring (R413): without an ACTIVE event ring of
the hub it waits for one (R413's example, step 8). DEDUCED, log 39. -/
def postRefclk (s : State) (t : BitVec 64) (n : BitVec 32) : State :=
  if (eventRing s (globalSrc 0)).isSome then postGlobal s 0 [(0, 8, t.toNat), (8, 4, n.toNat)]
  else { s with flt := { s.flt with owed := some (t, n) } }

/-- An owed REFCLK_LOST is posted once the hub has an ACTIVE event ring. -/
def payOwed (s : State) : State :=
  match s.flt.owed with
  | some (t, n) =>
    if (eventRing s (globalSrc 0)).isSome then postRefclk { s with flt := { s.flt with owed := none } } t n else s
  | none => s

/-- Writes one latched record, posts FAULT_RECORD, REFCLK_LOST when that was the cause, and REACTION_DONE (R545). -/
def writeFixed (s : State) (e : FixedCause × BitVec 64 × BitVec 32 × BitVec 32) : State :=
  let r := fixedRecord s e.1 e.2.1 e.2.2.1 e.2.2.2
  let s := logRecord insertRec s r
  let s := { s with flt := { s.flt with fixedRecs := s.flt.fixedRecs ++ [r.record] } }
  let s := firstSet s [r]
  let s := forEach (s.flt.volatile.filter fun q => q.record == r.record) postRecord s
  let s := if e.1 == .refclk then postRefclk s e.2.1 r.record else s
  postGlobal s 33 [(0, 1, 4), (2, 2, 0x7FFF), (4, 4, r.record.toNat)]

/-- What a held herd controller has forgotten: the commands that waited at it. -/
def forgetWaits (s : State) : State :=
  { s with
    waits := s.waits.filter fun w => (targetOf (waitCmd w).target).all fun t => (targetHerd t).isNone
    herds := s.herds.map fun e => (e.1, { e.2 with
      commit := none, restart := [], obs := { e.2.obs with waits := [], stoppers := [] } })
    ports := s.ports.map fun e => (e.1, { e.2 with save := e.2.save.map fun v => { v with cmd := none } }) }

/-- Completes a command for a herd or a port during the hold (R545, R308). -/
def refuseHeld (s : State) (c : Cmd) : State :=
  match targetOf c.target with
  | some (.port _) => reject s c.opcode.toNat c stRefused 10
  | some (.herd _) => reject s c.opcode.toNat c stRefused 0xFF
  | _ => s

/-- Once the hub runs, the latched records are written (R396), the blocks show the hold and the commands that had
reached herd controllers complete with ST_REFUSED_STATE (R545). -/
def flushFixed (s : State) : State :=
  if hubRuns s && !s.fw.mgmtDown && !s.flt.latch.isEmpty then
    let l := s.flt.latch
    let s := forEach l writeFixed s
    let s := forgetWaits { s with flt := { s.flt with latch := [] } }
    mirrorAll (forEach (s.io.rings.filterMap fun e => e.2.running) refuseHeld s)
  else s

/-- A fixed cause acts (R395): line pairs quiet, lanes in electrical idle, herd controllers in reset, the cause
latched, FAULT_N low. It takes its record number now, which its window's LINK names (R385). -/
def fixedStart (s : State) (c : FixedCause) (detail : Nat) : State :=
  let s := { s with
    ports := s.ports.map fun e => (e.1, { e.2 with line := LineIo.off, lock := Locks.none, lane := laneIdle e.2.lane })
    flt := { s.flt with fixedHold := true, ended := false
                        latch := s.flt.latch ++ [(c, now s, BitVec.ofNat 32 detail, s.flt.next)]
                        raised := tabSet s.flt.raised (fixedSource c) true
                        running := none, runCode := 0, deferred := [] } }
  flushFixed (nextRecord (openShadow s (shadowOf s .device s.flt.next)))

/-- FIXED_CAUSE: of the causes latched or recorded, the first in the order of the codes (R364, R396). -/
def fixedCause (s : State) : Nat :=
  let l := s.flt.latch.map (fun e => fixedCode (fixedSource e.1)) ++
    (s.flt.volatile.filter fun r => s.flt.fixedRecs.contains r.record).map fun r => fixedCode r.source.toNat
  l.foldl (fun m c => if m = 0 then c else min m c) 0

/-- The restart after a fixed reaction (R396): the cause has ended and every fixed record is acknowledged. -/
def fixedRestart (s : State) : State :=
  if s.flt.fixedHold && s.flt.ended && s.flt.latch.isEmpty &&
      (s.flt.fixedRecs.all fun n => !(s.flt.volatile.any fun r => r.record == n && unacked r)) then
    sysReset s (.boot 3 true)
  else s

/-! ### Events of the collector -/

/-- MRAM_ECC of a read that needed correction, with its byte address (Table 2, R544). -/
def postMram (uncorrectable : Bool) (s : State) (addr : Nat) : State :=
  postLimited s (globalSrc 56) 0 [(0, 1, bit uncorrectable), (8, 4, addr)] (some 4) 1

/-- An MRAM read that could not be corrected, which raises 0x0A33, posts MRAM_ECC. Log 52. -/
def mramEcc (s : State) (r : Raise) : State :=
  if r.source = 0xA33 && s.clk.refclkOk && raises s r then postMram true s r.detail.toNat else s

/-- A collector cycle in which sources raise faults (R381). -/
def execFaultRaised (faults : List (BitVec 16 × BitVec 32)) (s : State) : Host.Outcome State Fault Refusal :=
  .next <|
    let l : List Raise :=
      faults.map fun f => { source := f.1.toNat, detail := f.2, injected := false, network := false }
    collect (forEach l mramEcc s) l

/-- A source's pair shows equal levels for 5 cycles: a C4 fault (R378). -/
def execDualRailFault (source : BitVec 16) (s : State) : Host.Outcome State Fault Refusal :=
  .next (collect s [{ source := source.toNat, detail := 0, injected := false, network := true }])

/-- A cause ends (R378, R381): a pair with equal levels shows opposite ones again, in the last valid state that the
collector held; else the source returns to clear. -/
def execFaultCauseEnded (source : BitVec 16) (s : State) : Host.Outcome State Fault Refusal :=
  .next <|
    if !s.clk.refclkOk then s
    else if tabGet false s.flt.network source.toNat then
      { s with flt := { s.flt with network := tabSet s.flt.network source.toNat false } }
    else clearCause s source.toNat

/-- An armed reaction completes (R392); the always-on domain stands still without REFCLK (R412). -/
def execReactionComplete (s : State) : Host.Outcome State Fault Refusal :=
  .next <| if s.clk.refclkOk && !s.flt.fixedHold then reactionComplete s else s

/-- The shadow window that ends first. -/
def firstEnd (l : List Shadow) : Option Shadow :=
  l.foldl (fun m w => match m with
    | none => some w
    | some v => if w.ends < v.ends then some w else m) none

/-- The open shadow window that ends first closes (R385), not while the always-on domain stands still (R412). -/
def execShadowWindowExpiry (s : State) : Host.Outcome State Fault Refusal :=
  .next <| match firstEnd s.flt.shadows with
    | some w => if s.clk.refclkOk then { s with flt := { s.flt with shadows := s.flt.shadows.erase w } } else s
    | none => s

/-- Whether a rail's excursion is a fixed cause: VDD_HV or any VDD_DSPd (R395). -/
def fixedRail (r : RailId) : Bool := r.val == 2 || decide (7 ≤ r.val)

/-- A fixed cause acts (R395); one that holds already raises no further fault (R381). The rail's mV or the temperature
of its DETAIL is not with the command: a free value. -/
def execFixedReaction (cause : FixedCause) (s : State) : Host.Outcome State Fault Refusal :=
  .next <|
    let d := freeNat s
    if tabGet false s.flt.raised (fixedSource cause) then s
    else match cause with
    | .supply r => if fixedRail r then fixedStart d.2 cause d.1 else s
    | .junction => fixedStart d.2 cause d.1
    | .refclk => fixedStart s cause 0

/-- A fixed cause has been clear for 1 ms (R396). -/
def execFixedCauseEnded (s : State) : Host.Outcome State Fault Refusal :=
  .next <|
    if s.flt.fixedHold && s.clk.refclkOk then
      let s := forEach (0xA10 :: 0xA21 :: 0xA02 :: (List.range 8).map fun d => 0x900 + 8 * d) clearCause s
      fixedRestart { s with flt := { s.flt with ended := true } }
    else s

/-! ### FLT commands (R328, R380, R389, R394) -/

/-- FLT.ARM. -/
def execFltArm (c : Cmd) (source : BitVec 16) (base pin : BitVec 8) (n : BitVec 16) (w : BitVec 32) (s : State) :
    Host.Outcome State Fault Refusal :=
  .next <|
    if source ≠ 0xFFFF && (fltUnit source.toNat).isNone then reject s 0x0C01 c stBadParam (resField 0x10)
    else if 3 < base.toNat then reject s 0x0C01 c stBadParam (resField 0x12)
    else if 1 < pin.toNat then reject s 0x0C01 c stBadParam (resField 0x13)
    else if n = 0 then reject s 0x0C01 c stBadParam (resField 0x14)
    else if w = 0 || 3600000000 < w.toNat then reject s 0x0C01 c stBadParam (resField 0x18)
    else
      let x : FltCfg := { base := base.setWidth 2, pin := pin == 1, n := n, w := w }
      let l := if source = 0xFFFF then (List.range 0xA80).filter fun k => (fltUnit k).isSome else [source.toNat]
      completeOk { s with flt := { s.flt with cfg := l.foldl (fun t k => tabSet t k (some x)) s.flt.cfg } } 0x0C01 c [] 0

/-- Acknowledges records, then ends what waited for them. -/
def ackRecords (s : State) (l : List (BitVec 32)) : State :=
  let s := forEach l (fun s n => modRecord s n fun r => { r with acked := true }) s
  firstClear s

/-- FLT.ACK (R328, R393, R394, R396). -/
def execFltAck (c : Cmd) (record : BitVec 32) (all : BitVec 8) (s : State) : Host.Outcome State Fault Refusal :=
  .next <|
    if 1 < all.toNat then reject s 0x0C02 c stBadParam (resField 0x14)
    else
      let open_ := s.flt.volatile.filter unacked
      let finish := fun (s : State) (l : List (BitVec 32)) =>
        let s := ackRecords s l
        let last := l.foldl (fun m n => if m.toNat < n.toNat then n else m) 0
        let blocks := (endingSafe s).flatMap fun x => (scopePorts x.scope).flatMap portBlocks
        fixedRestart (completeOk (releaseSafe s last) 0x0C02 c (.hub :: blocks) l.length)
      if all = 1 then finish s ((open_.filter fun r => !causeHolds s r).map (·.record))
      else match open_.find? fun r => r.record == record with
        | none => reject s 0x0C02 c stBadParam (resField 0x10)
        | some r => if causeHolds s r then reject s 0x0C02 c stRefused 0xFF else finish s [record]

/-- The persistent log's records of blocks whose tag holds, newest first (R510); `bad` names the blocks, 0 to 255, whose
KMAC256 tag failed. -/
def taggedLog (f : Flt) (bad : List Nat) : List FltRec :=
  (f.persist.zipIdx.filter fun e => !bad.contains ((f.logged - 1 - e.2) % 16384 / 64)).map (·.1)

/-- FLT.READ_LOG (R388, R389, R510): ascending RECORD order, from the oldest record still held at or after FIRST. A
block of the persistent log whose tag fails is left out and raises 0x0A33, which MRAM_ECC tells as uncorrectable; its
DETAIL is a free value. `ecc` are the byte addresses of the MRAM reads that were corrected. -/
def execFltReadLog (c : Cmd) (log : BitVec 8) (first count : BitVec 32) (bad : List Nat) (ecc : List (BitVec 32)) (s : State) :
    Host.Outcome State Fault Refusal :=
  .next <|
    if 1 < log.toNat then reject s 0x0C03 c stBadParam (resField 0x10)
    else if count = 0 then reject s 0x0C03 c stBadParam (resField 0x18)
    else
      let recs := (if log = 0 then s.flt.volatile else taggedLog s.flt bad).reverse.filter fun r =>
        decide (first.toNat ≤ r.record.toNat)
      let l := recs.take count.toNat
      let s := if log = 1 then forEach (ecc.map (·.toNat)) (postMram false) s else s
      let d := freeNat s
      let faulty := log == 1 && !bad.isEmpty
      let s := if faulty then raiseFault (postMram true d.2 (d.1 % 2 ^ 32)) 0xA33 d.1 else s
      let fs := l.zipIdx.flatMap fun e => fltFields (32 * e.2) e.1 (causeHolds s e.1)
      answerWith s 0x0C03 c .hub (32 * count.toNat) (32 * l.length) fs l.length (if faulty then [.hub] else [])

end Sys2Proof.Machine
end

