-- ==== Sys2Proof/Machine/Configure.lean ====
section
/-!
DEFINITION. PORT and HERD commands (R313 to R317, R135, R198 to R200) and the commit of shadow sets (R333 to R340).
-/

namespace Sys2Proof.Machine

/-! ### Staging -/

/-- Index of the first of `n` PORT.CONFIG entries whose ID Table 3 of Command Reference does not list (R314). -/
def badEntry (n : Nat) (entries : List (BitVec 16 × BitVec 32)) : Option Nat :=
  (List.range n).find? fun i => !paramIds.contains (entries.getD i (0, 0)).1.toNat

/-- A port with one entry staged. -/
def stageOne (x : Port) (e : BitVec 16 × BitVec 32) : Port :=
  { x with shadow := tabSet x.shadow e.1.toNat e.2,
           staged := if x.staged.contains e.1.toNat then x.staged else x.staged ++ [e.1.toNat] }

/-- PORT.CONFIG (R314): only COUNT and the IDs are checked; a failing entry stages nothing. -/
def execPortConfig (c : Cmd) (p : PortId) (count : BitVec 8) (entries : List (BitVec 16 × BitVec 32)) (s : State) :
    Host.Outcome State Fault Refusal :=
  .next <|
    if !myTurn s c then s
    else
      match portGate s p with
      | some r => reject s 0x0101 c r.1 r.2
      | none =>
        if count = 0 || 5 < count.toNat then reject s 0x0101 c stBadParam (resField 0x10)
        else match badEntry count.toNat entries with
          | some i => reject s 0x0101 c stBadParam (resField (0x18 + 8 * i))
          | none =>
            let l := (List.range count.toNat).map fun i => entries.getD i (0, 0)
            completeOk (modPort s p fun x => l.foldl stageOne x) 0x0101 c [.port p] 0

/-- HERD.MODE (R317): MODE_SET 0 or bits [7:5] set fail check 3. -/
def execHerdMode (c : Cmd) (h : HerdId) (modeSet : BitVec 8) (s : State) : Host.Outcome State Fault Refusal :=
  .next <|
    if !myTurn s c then s
    else
      match herdGate s h with
      | some r => reject s 0x0201 c r.1 r.2
      | none =>
        if modeSet = 0 || 0x1F < modeSet.toNat then reject s 0x0201 c stBadParam (resField 0x10)
        else completeOk (modHerd s h fun x => { x with shModeSet := modeSet.setWidth 5, staged := true }) 0x0201 c
          [.herd h] 0

/-- HERD.TIMING (R317). -/
def execHerdTiming (c : Cmd) (h : HerdId) (policy : BitVec 8) (s : State) : Host.Outcome State Fault Refusal :=
  .next <|
    if !myTurn s c then s
    else
      match herdGate s h with
      | some r => reject s 0x0202 c r.1 r.2
      | none =>
        if 1 < policy.toNat then reject s 0x0202 c stBadParam (resField 0x10)
        else completeOk (modHerd s h fun x => { x with shPolicy := policy == 1, staged := true }) 0x0202 c [.herd h] 0

/-! ### Ends of tests on a port -/

/-- A Chamois or foreground run on a port ends early (R243, R453); a port it kept from negotiating begins a new
attempt (R237, R451). -/
def endRuns (s : State) (p : PortId) : State :=
  let x := getPort s p
  let held := chamoisRuns x || x.cal.isSome
  let s := endCal (endChamois s p) p
  if held && x.st == .negotiate then newAttempt s p else s

/-- A line digital loopback ends (R199). -/
def endDigital (s : State) (p : PortId) : State :=
  if (getPort s p).loop == .digital then modPort s p fun x => { x with loop := .none } else s

/-! ### PORT.COMMIT (R335 to R340) -/

/-- A port whose set becomes live (R337): LANE_TX_PRESET and LANE_PROFILE reload the transmitter and restart the lane
(R184, R193), which takes the new set's parameters; a committed PORT.CONFIG ends a wander suspension (R92); R434's
hold ends. -/
def applySet (s : State) (p : PortId) (set : Tab (BitVec 32)) (staged : List Nat) (count : Bool) : State :=
  let s := modPort s p fun x =>
    { x with live := set, cfgGen := if count then x.cfgGen + 1 else x.cfgGen, mustCommit := false,
             wander := if staged.isEmpty then x.wander else { x.wander with suspended := false } }
  if staged.contains 0x30 || staged.contains 0x31 then
    modPort s p fun x =>
      let l := { x.lane with taps := presetTaps (livePar x 0x31) }
      { x with lane := if x.lane.st == .idle then l else laneBlind s p l }
  else s

/-- A port's shadow set becomes live and nothing stays staged. -/
def applyShadow (s : State) (p : PortId) (count : Bool) : State :=
  modPort (applySet s p (getPort s p).shadow (getPort s p).staged count) p fun x => { x with staged := [] }

/-- A changed MODE_SET acts on one port (R317). -/
def restartForMode (s : State) (p : PortId) : State :=
  let x := getPort s p
  if x.st == .up then newAttempt (clearAttempts (leaveUp s p 0x07 .negotiate) p) p
  else if isTraining x.st then newAttempt (clearAttempts (abortTo s p 0x0C .negotiate) p) p
  else if x.st == .negotiate then
    if chamoisRuns x then s else newAttempt (endCal s p) p
  else s

/-- A changed timing POLICY acts on one port (R58, R317). -/
def restartForPolicy (s : State) (p : PortId) : State :=
  if (getPort s p).st == .up then newAttempt (clearAttempts (leaveUp s p 0x07 .negotiate) p) p else s

/-- The herd's own set becomes live: MODE_SET with its resolved mode and PLL setting (R24, R106), POLICY (R54). A commit
of the MODE_SET that is live already is no new set: the mode last resolved stays. DESIGN CHOICE, log 61. -/
def applyHerd (s : State) (h : HerdId) (modeSet : BitVec 5) (policy : Bool) : State :=
  let x := getHerd s h
  let changed := modeSet != x.modeSet
  let s := setHerd s h
    { x with modeSet := modeSet, policy := policy, commit := none, cfgGen := x.cfgGen + 1,
             resolved := if changed then singleMode modeSet else x.resolved }
  let s := if changed then setPllMode s h ((firstMode modeSet).getD .l100) else s
  if policy && !x.policy then dissolve s h else s

/-- The restarts of a herd commit (R317), with the ports it put into start-up (R28). -/
def herdRestarts (s : State) (h : HerdId) (modeChanged policyChanged : Bool) : State :=
  let ps := (portsOf h).filter fun p =>
    let st := (getPort s p).st
    st == .up && (modeChanged || policyChanged) || modeChanged && (isTraining st || st == .negotiate)
  let s := forEach ps (if modeChanged then restartForMode else restartForPolicy) s
  modHerd s h fun y => { y with restart := y.restart.filter (fun p => !ps.contains p) ++ ps }

/-- A herd commit is applied (R317, R337, R338): the herd's set and the eight port sets it captured, then the
restarts, then the completion with the herd's new CFG_GEN. -/
def herdApply (s : State) (h : HerdId) (k : Commit) : State :=
  let x := getHerd s h
  let modeChanged := k.modeSet != x.modeSet
  let policyChanged := k.policy != x.policy
  let rate := adcRate x.pllMode
  let s := applyHerd s h k.modeSet k.policy
  let s := forEach (portsOf h).zipIdx
    (fun s e => applySet s e.1 (k.sets.getD e.2 []) (k.staged.getD e.2 []) true) s
  let s := if adcRate (getHerd s h).pllMode = rate then s else obsModeChange s h
  let s := herdRestarts s h modeChanged policyChanged
  let s := retarget s (dieOfHerd h)
  completeOk s 0x0102 k.cmd (herdBlocks h) (getHerd s h).cfgGen.toNat

/-- The first failing parameter of a herd commit: ports in ascending number, parameters in ascending ID (R335). A lane
at 25GAUI that the new MODE_SET may keep there admits no precoding (R193). DEDUCED, log 25. -/
def badHerdParam (s : State) (h : HerdId) : Option (PortId × Nat) :=
  (portsOf h).findSome? fun p =>
    let set := (getHerd s h).shModeSet
    (firstBadParam (getPort s p).shadow set ((getPort s p).lane.mode == .l25 && modeIn set .l25)).map fun id => (p, id)

/-- Whether anything is staged for a herd commit (R338). -/
def herdStaged (s : State) (h : HerdId) : Bool :=
  (getHerd s h).staged || (portsOf h).any fun p => !(getPort s p).staged.isEmpty

/-- A herd commit (R26, R335, R337 to R339): it waits while its mode needs a level that the die has not reached. -/
def commitHerd (s : State) (c : Cmd) (h : HerdId) : State :=
  match badHerdParam s h with
  | some e => reject s 0x0102 c stBadParam (resParamPort e.2 e.1)
  | none =>
    let x := getHerd s h
    if !herdStaged s h then
      completeOk (forEach (portsOf h) (fun s p => modPort s p fun y => { y with mustCommit := false }) s) 0x0102 c []
        x.cfgGen.toNat
    else
      let k : Commit := { cmd := c, modeSet := x.shModeSet, policy := x.shPolicy,
                          sets := (portsOf h).map fun p => (getPort s p).shadow
                          staged := (portsOf h).map fun p => (getPort s p).staged }
      let s := setHerd s h { x with commit := some k, staged := false }
      let s := forEach (portsOf h) (fun s p => modPort s p fun y => { y with staged := [] }) s
      if runLevel (getDie s (dieOfHerd h)) ≤ herdNeed (getHerd s h) then herdApply s h k
      else retarget s (dieOfHerd h)

/-- A port commit (R335, R337, R338). -/
def commitPort (s : State) (c : Cmd) (p : PortId) : State :=
  let x := getPort s p
  match firstBadParam x.shadow (getHerd s (herdOf p)).modeSet (x.lane.mode == .l25) with
  | some id => reject s 0x0102 c stBadParam (resParam id)
  | none =>
    let s := applyShadow s p (!x.staged.isEmpty)
    completeOk s 0x0102 c [.port p] (getPort s p).cfgGen.toNat

/-- PORT.COMMIT (R317, R335 to R340). A hub TARGET does not reach it (R288). -/
def execPortCommit (c : Cmd) (t : Target) (s : State) : Host.Outcome State Fault Refusal :=
  .next <|
    if !myTurn s c then s
    else
      match t with
      | .port p =>
        match portGate s p with
        | some r => reject s 0x0102 c r.1 r.2
        | none => commitPort s c p
      | .herd h =>
        match herdGate s h with
        | some r => reject s 0x0102 c r.1 r.2
        | none => commitHerd s c h
      | .hub => reject s 0x0102 c stBadParam (resField 0x04)

/-! ### Start-up commands (R135, Table 9) -/

/-- PORT.ENABLE: a port in DISABLED starts; in any other state nothing changes (R129, R434). -/
def execPortEnable (c : Cmd) (p : PortId) (s : State) : Host.Outcome State Fault Refusal :=
  .next <|
    if !myTurn s c then s
    else
      match portGate s p with
      | some r => reject s 0x0103 c r.1 r.2
      | none =>
        let x := getPort s p
        if x.mustCommit then reject s 0x0103 c (refusedPort s p).1 (refusedPort s p).2
        else
          let s := endDigital (endRuns s p) p
          let s := if x.st == .disabled then newAttempt (clearAttempts s p) p else s
          completeOk s 0x0103 c (portBlocks p) 0

/-- A port goes to DISABLED from any state that Table 9 lists. -/
def toDisabled (s : State) (p : PortId) : State :=
  let x := getPort s p
  let s := if x.st == .up then leaveUp s p 0x06 .disabled
    else if isTraining x.st then setSt (abortTo s p 0x0B .disabled) p .disabled
    else setSt s p .disabled
  modPort s p fun y => { lineQuiet y with neg := Neg.none, start := Start.none }

/-- PORT.DISABLE. -/
def execPortDisable (c : Cmd) (p : PortId) (s : State) : Host.Outcome State Fault Refusal :=
  .next <|
    if !myTurn s c then s
    else
      match portGate s p with
      | some r => reject s 0x0104 c r.1 r.2
      | none =>
        let s := endCal (endChamois s p) p
        let s := if (getPort s p).st == .disabled then s else toDisabled s p
        completeOk s 0x0104 c (portBlocks p) 0

/-- A port starts a new attempt with an attempt count of 0 (R129, Table 9). -/
def restartPort (s : State) (p : PortId) : State :=
  let x := getPort s p
  let s := endDigital (endCal (endChamois s p) p) p
  let s := if x.st == .up then leaveUp s p 0x06 .negotiate
    else if isTraining x.st then abortTo s p 0x0B .negotiate
    else s
  newAttempt (clearAttempts s p) p

/-- PORT.RESTART. -/
def execPortRestart (c : Cmd) (p : PortId) (s : State) : Host.Outcome State Fault Refusal :=
  .next <|
    if !myTurn s c then s
    else
      match portGate s p with
      | some r => reject s 0x0106 c r.1 r.2
      | none =>
        if (getPort s p).st == .disabled then reject s 0x0106 c (refusedPort s p).1 (refusedPort s p).2
        else completeOk (restartPort s p) 0x0106 c (portBlocks p) 0

/-- PORT.TRAIN: as PORT.RESTART, and the next start is Tahr (R109). -/
def execPortTrain (c : Cmd) (p : PortId) (s : State) : Host.Outcome State Fault Refusal :=
  .next <|
    if !myTurn s c then s
    else
      match portGate s p with
      | some r => reject s 0x0105 c r.1 r.2
      | none =>
        let x := getPort s p
        if x.st == .disabled || (x.st == .up && !forced c) then
          reject s 0x0105 c (refusedPort s p).1 (refusedPort s p).2
        else
          let s := modPort (restartPort s p) p fun y => { y with trainNext := true }
          completeOk s 0x0105 c (portBlocks p) 0

/-! ### PORT.LOOPBACK (R198 to R200) -/

/-- What every PORT.LOOPBACK meets first: checks 1 and 2, and a Chamois on the port (R243). -/
def loopGate (s : State) (p : PortId) : Option (BitVec 8 × BitVec 64) :=
  match portGate s p with
  | some r => some r
  | none => if chamoisRuns (getPort s p) then some (busyDiag s (getPort s p)) else none

/-- Whether a remote loopback waits for its acknowledgement (R198). -/
def loopPending (s : State) (p : PortId) : Bool := s.waits.any fun w => match w with
  | .loop q _ on => q == p && on
  | _ => false

/-- Asks the partner to start or end a remote loopback (R200); the command waits (R50, R312). -/
def askLoop (s : State) (c : Cmd) (p : PortId) (on : Bool) : State :=
  sendInfo { s with waits := s.waits ++ [.loop p c on] } p 0x10 (if on then 1 else 0) (some c)

/-- MODE 0, OFF: ends any line loopback. One that this end requested ends once the partner has acknowledged. -/
def execPortLoopbackOff (c : Cmd) (p : PortId) (s : State) : Host.Outcome State Fault Refusal :=
  .next <|
    if !myTurn s c then s
    else
      match loopGate s p with
      | some r => reject s 0x0107 c r.1 r.2
      | none =>
        match (getPort s p).loop with
        | .remote => askLoop s c p false
        | .digital => completeOk (modPort s p fun x => { x with loop := .none }) 0x0107 c [.port p] 0
        | .looping => completeOk (modPort s p fun x => lpiAllow { x with loop := .none }) 0x0107 c [.port p] 0
        | _ => if loopPending s p then askLoop s c p false else completeOk s 0x0107 c [] 0

/-- MODE 1, DIGITAL. -/
def execPortLoopbackDigital (c : Cmd) (p : PortId) (s : State) : Host.Outcome State Fault Refusal :=
  .next <|
    if !myTurn s c then s
    else
      match loopGate s p with
      | some r => reject s 0x0107 c r.1 r.2
      | none =>
        let x := getPort s p
        if (x.loop != .none && x.loop != .digital) || loopPending s p then
            reject s 0x0107 c (refusedPort s p).1 (refusedPort s p).2
        else if x.st != .disabled && x.st != .hold then reject s 0x0107 c (refusedPort s p).1 (refusedPort s p).2
        else completeOk (modPort s p fun y => { y with loop := .digital }) 0x0107 c [.port p] 0

/-- MODE 2, REMOTE: a LOOP_SET InfoField; the command waits for its acknowledgement (R50, R312). -/
def execPortLoopbackRemote (c : Cmd) (p : PortId) (s : State) : Host.Outcome State Fault Refusal :=
  .next <|
    if !myTurn s c then s
    else
      match loopGate s p with
      | some r => reject s 0x0107 c r.1 r.2
      | none =>
        let x := getPort s p
        if x.loop != .none && x.loop != .remote then reject s 0x0107 c (refusedPort s p).1 (refusedPort s p).2
        else if x.st != .up then reject s 0x0107 c (refusedPort s p).1 (refusedPort s p).2
        else if !(x.caps.map (·.loop)).getD false then reject s 0x0107 c stNotSupported 0
        else if x.loop == .remote then completeOk s 0x0107 c [] 0
        else askLoop s c p true

end Sys2Proof.Machine
end

