-- ==== Sys2Proof/Machine/Lanes.lean ====
section
/-!
DEFINITION. Host lanes (07 Host Lanes, R177 to R200): blind start, fall-back training, lock loss, the pattern generator
and checker, host loopbacks. What a receiver judges is an operand of its row (log 3).
-/

namespace Sys2Proof.Machine

def getLane (s : State) (p : PortId) : Lane := (getPort s p).lane
def setLane (s : State) (p : PortId) (l : Lane) : State := modPort s p fun x => { x with lane := l }

/-- Whether a lane is in fall-back: DETECT to READY. -/
def inFallback (st : LaneSt) : Bool :=
  match st with
  | .detect => true
  | .train => true
  | .lock => true
  | .ready => true
  | _ => false

/-- Whether a lane's transmitter sends a stream or a pattern: BLIND, ACTIVE, HOLD (R179). -/
def laneSends (l : Lane) : Bool := l.st == .blind || l.st == .active || l.st == .hold

/-- HOST_LANE_FALLBACK (R188, R374). -/
def postFallback (s : State) (p : PortId) (code : Nat) : State :=
  let l := getLane s p
  postPort s p 11 [(0, 1, code), (1, 1, l.retries.toNat), (2, 1, laneCode l.st)]

/-- A near-end or far-end host loopback ends (R199). -/
def endHostLoop (x : Port) : Port := { x with loop := if x.loop == .near || x.loop == .far then .none else x.loop }

/-- A lane enters DETECT (R179, R184, R188, R197, R199): the generator stops, a 25GAUI lane loads LANE_TX_PRESET. -/
def enterDetect (s : State) (p : PortId) (cause : Nat) : State :=
  let s := modPort s p fun x =>
    let l := laneBlind s p x.lane
    let taps := if l.mode == .l25 then presetTaps (livePar x 0x31) else l.taps
    endHostLoop { x with lane := { l with st := .detect, taps := taps, gen := 0, flips := 0, periodic := none } }
  postFallback s p cause

/-- A lane enters ACTIVE (R180): its retry count returns to 0; its eyes are still to be measured (R233) and
read 0xFFFF till then: DEDUCED, log 36. -/
def enterActive (s : State) (p : PortId) : State :=
  let l := getLane s p
  let s := setLane s p
    { l with st := .active, retries := 0, fromLoss := false, partReady := false, eye := Quad.all 0xFFFF }
  if inFallback l.st then postFallback s p 0x80 else s

/-- 5 ms of blind start without ACTIVE (R179, R182): DETECT, or a fresh blind start without LANE_FALLBACK_AUTO. -/
def execBlindTimeout (p : PortId) (s : State) : Host.Outcome State Fault Refusal :=
  .next <|
    if !herdsRun s then s else
    let l := getLane s p
    if l.st == .blind then
      if l.auto then enterDetect s p (if l.fromLoss then 0x03 else 0x01)
      else setLane s p { laneBlind s p l with fromLoss := l.fromLoss }
    else s

/-- What a lane's receiver has adapted (R182): a CTLE gain of 0 dB to 20 dB, FFE and DFE taps, a recovered frequency,
all free values; a lane in HOLD does not adapt. -/
def laneAdapt (s : State) (p : PortId) (l : Lane) : State :=
  if l.st == .hold then setLane s p l
  else
    let d := freeNat s
    setLane d.2 p { l with
      ctle := BitVec.ofNat 6 (d.1 % 41), ffe := (List.range 24).map fun k => BitVec.ofNat 8 (d.1 / 64 / 256 ^ k)
      dfe := BitVec.ofNat 8 (d.1 / 64 / 256 ^ 24), cdr := BitVec.ofNat 16 (d.1 / 64 / 256 ^ 25) }

/-- Decision levels of a lane. -/
def laneLevels (l : Lane) : Nat := if l.mode == .l25 then 2 else 4

/-- The lane lock criteria (R181): rms phase error below 0.05 UI, every level seen, SNR at least LANE_LOCK_SNR and
what a training adds to it. -/
def laneLockMet (l : Lane) (more : Int) (rms levels : Nat) (snr : Int) : Bool :=
  decide (rms < 50) && decide (laneLevels l ≤ levels) && decide ((l.lockSnr : Int) + more ≤ snr)

/-- A judgement over 65,536 symbols (R181): rms phase error in 0.001 UI, decision levels seen in the last 4,096, slicer
SNR in 0.1 dB. -/
def execLaneLockAcquired (p : PortId) (rms levels : Nat) (snr : Int) (s : State) : Host.Outcome State Fault Refusal :=
  .next <|
    if !herdsRun s then s else
    let l := getLane s p
    if l.st == .idle || l.st == .detect || !laneLockMet l 0 rms levels snr then s
    else laneAdapt s p { l with locked := true }

/-- A lane enters READY: receiver ready is sent and the precoding taken (R186). -/
def enterReady (s : State) (p : PortId) : State :=
  let x := getPort s p
  let pre := x.lane.preReq.getD (livePar x 0x33 == 1)
  emit (setLane s p { x.lane with st := .ready, preTx := pre, preRx := livePar x 0x34 == 1 })
    (.lane p "receiver ready" 1)

/-- Lane lock, or the training lock criteria, held for 1 ms (R179, R187): BLIND to ACTIVE, LOCK to READY; a 25GAUI lane
in TRAIN enters LOCK, which it leaves for READY, and READY for ACTIVE, within 1 µs each. -/
def execLaneLockHoldExpiry (p : PortId) (s : State) : Host.Outcome State Fault Refusal :=
  .next <|
    if !herdsRun s then s else
    let l := getLane s p
    if !l.locked then s
    else match l.st with
      | .blind => enterActive s p
      | .lock => if l.mode == .l25 then setLane s p { l with st := .ready } else enterReady s p
      | .train => if l.mode == .l25 then setLane s p { l with st := .lock } else s
      | _ => s

/-- A judgement that may lose lane lock (R181, R191): an ACTIVE lane goes to BLIND with the loss counted and posted at
most once per 1 ms, PHASE before SNR; a lane in LOCK goes back to TRAIN when the training lock criteria are lost, by
the error ratio too (R179, R185), `errs` in 1,048,576 symbols. -/
def execLaneLockLost (p : PortId) (rms : Nat) (snr : Int) (errs : Nat) (s : State) : Host.Outcome State Fault Refusal :=
  .next <|
    if !herdsRun s then s else
    let l := getLane s p
    let base : Int := l.lockSnr
    let phase := decide (150 < rms)
    let low := decide (snr ≤ base - 30)
    match l.st with
    | .active =>
      if phase || low then
        let s := countPers s p 0xA8
        let s := setLane s p (laneRelock s p l)
        postLimited s (portSrc p 10) 0 [(0, 1, if phase then 1 else 2), (1, 1, laneCode .blind)] (some 4) 1
      else s
    | .lock =>
      if phase || decide (snr ≤ base + 10 - 30) || decide (10 < errs) then setLane s p { l with st := .train, locked := false }
      else s
    | _ => if phase || low then setLane s p { l with locked := false } else s

/-- The start of the device's own requests (R185). -/
def Seek.start : Seek :=
  { tap := none, up := false, last := 0, round := 0, back := false, acked := false, done := false }

/-- A probe for the partner's termination in DETECT (R179, R183, R187): a lane that finds it enters TRAIN, a 25GAUI
lane with a receiver that adapts from its start, a PAM-4 lane with a request for LANE_PARTNER_PRESET (R185) and, with
LANE_PRECODE_RX, for the partner's precoding (Table 3). -/
def execDetectProbe (p : PortId) (found : Bool) (s : State) : Host.Outcome State Fault Refusal :=
  .next <|
    if !herdsRun s then s else
    let x := getPort s p
    if x.lane.st == .detect then
      let s := emit s (.lane p "probe" 0)
      if found then
        let s := setLane s p { laneFresh s p x.lane with
          st := .train, locked := false, limit := x.lane.limit,
          seek := if x.lane.mode == .l25 then none else some Seek.start }
        if x.lane.mode == .l25 then s
        else
          let s := emit s (.lane p "request preset" (BitVec.ofNat 32 (livePar x 0x32)))
          if livePar x 0x34 = 1 then emit s (.lane p "request precoding" 1) else s
      else s
    else s

/-- The range of a tap in steps (R184, Table 4). -/
def tapRange (i : Fin 4) : Int × Int :=
  match i with
  | 0 => (0, 4)
  | 1 => (-12, 0)
  | 2 => (20, 40)
  | 3 => (-8, 0)

/-- Sum of tap magnitudes in steps. -/
def tapSum (t : Quad (BitVec 8)) : Nat := ((quadList t).map fun v => v.toInt.natAbs).sum

/-- One step of a tap, if range and sum allow it. -/
def tapStep (t : Quad (BitVec 8)) (i : Fin 4) (d : Int) : Option (Quad (BitVec 8)) :=
  let v := (quadGet t i).toInt + d
  let n := quadSet t i (BitVec.ofInt 8 v)
  if (tapRange i).1 ≤ v ∧ v ≤ (tapRange i).2 ∧ tapSum n ≤ 40 then some n else none

/-- The answer to a request and the lane it leaves (R183, R184). -/
def tapAnswer (l : Lane) (r : TapReq) : String × Lane :=
  match r with
  | .hold => ("hold", l)
  | .inc i =>
    match tapStep l.taps i 1 with
    | some t => ("updated", { l with taps := t })
    | none => ("coefficient at limit", l)
  | .dec i =>
    match tapStep l.taps i (-1) with
    | some t => ("updated", { l with taps := t })
    | none => ("coefficient at limit", l)
  | .preset n => ("updated", { l with taps := presetTaps (n.val + 1) })
  | .minus3 => ("coefficient not supported", l)
  | .pam2 => ("not updated", l)
  | .precode on => ("updated", { l with preReq := some on })

/-- The answer to a request after TRAIN (R183, R184): taps do not change there; precoding is still taken. DESIGN
CHOICE, log 60. -/
def lateAnswer (r : TapReq) : String :=
  match r with
  | .hold => "hold"
  | .precode _ => "updated"
  | .minus3 => "coefficient not supported"
  | _ => "not updated"

/-- The tap after one in the order pre1, post1, pre2, main (R185), by its place in `Lane.taps`. -/
def nextTap (t : Fin 4) : Option (Fin 4) :=
  match t with
  | 1 => some 3
  | 3 => some 0
  | 0 => some 2
  | 2 => none

/-- Asks for a step of a tap (R185). The direction that raises the SNR is what the receiver finds, a free value. -/
def seekAsk (s : State) (p : PortId) (k : Seek) (t : Fin 4) (fresh : Bool) : State :=
  let d := freeNat s
  let up := if fresh then d.1 % 2 == 1 else k.up
  let s := if fresh then d.2 else s
  let l := getLane s p
  emit (setLane s p { l with seek := some { k with tap := some t, up := up, acked := false } })
    (.lane p (if up != k.back then "request increment" else "request decrement") (BitVec.ofNat 32 t.val))

/-- The next tap of a round, or the next round; a round that gained less than 0.1 dB is the last (R185). -/
def seekNext (s : State) (p : PortId) (k : Seek) (t : Fin 4) : State :=
  match nextTap t with
  | some n => seekAsk s p k n true
  | none =>
    if k.last < k.round + 1 then
      let l := getLane s p
      setLane s p { l with seek := some { k with done := true } }
    else seekAsk s p { k with round := k.last } 1 true

/-- What a received status and judgement make of the device's requests (R183, R185): an acknowledged request gives way
to hold; once judged, a step that gained at least 0.1 dB is repeated, any other ends its tap's turn, and one that lost
SNR is taken back first: DESIGN CHOICE, log 60. -/
def seekStep (s : State) (p : PortId) (f : TrainFrame) : State :=
  let l := getLane s p
  match l.seek with
  | none => s
  | some k =>
    if k.done then s
    else
      let s := if !k.acked && f.status != TapStatus.notUpdated then
          emit (setLane s p { l with seek := some { k with acked := true } }) (.lane p "request hold" 0) else s
      let k := { k with acked := k.acked || f.status != TapStatus.notUpdated }
      match k.tap, f.snr with
      | none, some v => if k.acked then seekAsk s p { k with last := v, round := v } 1 true else s
      | some t, some v =>
        if !k.acked then s
        else if k.back then seekNext s p { k with back := false, last := v } t
        else if f.status == TapStatus.updated && decide (k.last + 1 ≤ v) then seekAsk s p { k with last := v } t false
        else if f.status == TapStatus.updated && decide (v < k.last) then seekAsk s p { k with back := true } t false
        else seekNext s p { k with last := v } t
      | _, none => s

/-- A training frame on a PAM-4 lane (R183): one that fails its checks is ignored; taps change in TRAIN only (R184). The
partner's request for precoding overrides LANE_PRECODE_TX up to READY (R186). -/
def execTrainingFrameReceived (p : PortId) (f : TrainFrame) (s : State) : Host.Outcome State Fault Refusal :=
  .next <|
    if !herdsRun s then s else
    let l := getLane s p
    let pre := match f.req with
      | .precode on => some on
      | _ => l.preReq
    if !f.checksOk || l.mode == .l25 then s
    else match l.st with
      | .train =>
        let a := tapAnswer l f.req
        seekStep (emit (setLane s p { a.2 with partReady := f.ready }) (.lane p a.1 0)) p f
      | .lock => emit (setLane s p { l with partReady := f.ready, preReq := pre }) (.lane p (lateAnswer f.req) 0)
      | .ready =>
        emit (setLane s p { l with partReady := f.ready, preReq := pre,
                                   preTx := pre.getD l.preTx }) (.lane p (lateAnswer f.req) 0)
      | _ => s

/-- The training lock criteria (R179, R185): lane lock with 1 dB more, fewer than 10^-5 of 1,048,576 training symbols
wrong. -/
def execTrainLockMet (p : PortId) (rms levels : Nat) (snr : Int) (errs : Nat) (s : State) :
    Host.Outcome State Fault Refusal :=
  .next <|
    if !herdsRun s then s else
    let l := getLane s p
    if l.st == .train && l.mode != .l25 && laneLockMet l 10 rms levels snr && decide (errs ≤ 10) then
      laneAdapt s p { l with st := .lock, locked := true }
    else s

/-- Both ends ready and the hand-over wait done (R179, R186); a 25GAUI lane has none to wait for (R187). -/
def execLaneReadyDone (p : PortId) (s : State) : Host.Outcome State Fault Refusal :=
  .next <|
    if !herdsRun s then s else
    let l := getLane s p
    if l.st == .ready && (l.partReady || l.mode == .l25) then enterActive s p else s

/-- 500 ms since DETECT without ACTIVE (R180). -/
def execFallbackLimitExpiry (p : PortId) (s : State) : Host.Outcome State Fault Refusal :=
  .next <|
    if !herdsRun s then s else
    let x := getPort s p
    let l := x.lane
    if inFallback l.st then
      let n := l.retries + 1
      let limit := l.limit
      if limit ≠ 0 && limit ≤ n.toNat then
        postFallback (setLane s p { l with st := .hold, retries := n, locked := false }) p 0x82
      else postFallback (setLane s p { laneBlind s p l with retries := n }) p 0x81
    else s

/-! ### LANE commands (R326) -/

/-- LANE.TRAIN: refused in IDLE; the retry count returns to 0 (R180). -/
def execLaneTrain (c : Cmd) (p : PortId) (s : State) : Host.Outcome State Fault Refusal :=
  .next <|
    if !myTurn s c then s
    else
      match portGate s p with
      | some r => reject s 0x0A02 c r.1 r.2
      | none =>
        let l := getLane s p
        if l.st == .idle then reject s 0x0A02 c (refusedPort s p).1 (refusedPort s p).2
        else completeOk (enterDetect (setLane s p { l with retries := 0 }) p 0x02) 0x0A02 c [.port p] 0

/-- The first PARAMS offset of LANE.PRBS that is out of range (Table 11 of Command Reference). -/
def badPrbs (apply gen chk inject burstLen periodK live : BitVec 8) : Option Nat :=
  if 7 < apply.toNat then some 0x10
  else if apply.getLsbD 0 && decide (6 < gen.toNat) then some 0x11
  else if apply.getLsbD 1 && decide (6 < chk.toNat) then some 0x12
  else if apply.getLsbD 2 && decide (4 < inject.toNat) then some 0x13
  else if apply.getLsbD 2 && inject == 2 && !inStep burstLen.toNat 1 64 1 then some 0x14
  else if apply.getLsbD 2 && inject == 3 && !inStep periodK.toNat 10 40 1 then some 0x15
  else if apply.getLsbD 2 && decide (1 < live.toNat) then some 0x16
  else none

/-- Bits that an injection inverts at once: none when it has neither a pattern nor the live stream to act on (R196). -/
def injected (l : Lane) (inject burstLen : BitVec 8) : Nat :=
  if !laneSends l || !(l.live || l.gen != 0) then 0
  else if inject == 1 then 1
  else if inject == 2 then burstLen.toNat
  else 0

/-- Received bits reach the checker that runs (R195): it seeds itself, locks, counts and reseeds; PAM-4 symbol errors
on a PAM-4 lane only. -/
def checkIn (s : State) (p : PortId) (bits : List Bool) : State :=
  let l := getLane s p
  if l.chk = 0 then s
  else
    let d := freeNat s
    let t := checkRun l.chk d.1 bits l.chkr l.chkLock
    modPort d.2 p fun x =>
      let x := { x with lane := { l with chkr := t.1, chkLock := t.2.1 } }
      let x := statAdd (statAdd x 0x210 t.2.2.bits) 0x218 t.2.2.errs
      statAdd (statAdd x 0x220 (if l.mode == .l25 then 0 else t.2.2.syms)) 0x228 t.2.2.seeds

/-- What host-out carries reaches host-in in a near-end loopback (R198). -/
def nearBits (s : State) (p : PortId) (bits : List Bool) : State :=
  if (getPort s p).loop == .near then checkIn s p bits else s

/-- A stretch of the pattern on host-out, with the bits that are to be inverted (R194 to R196). -/
def emitPattern (s : State) (p : PortId) : State :=
  let l := getLane s p
  if l.gen = 0 || !laneSends l || s.pwr.padsHeld then s
  else
    let t := patternRun l.gen 5440 l.genReg
    let bits := if l.live then t.1 else invertFirst l.flips t.1
    let s := emit (setLane s p { l with genReg := t.2, flips := if l.live then l.flips else 0 })
      (.pattern p (patternLevels (l.mode == .l25) bits))
    nearBits s p bits

/-- The checker's counters return to 0 when it starts (R231). -/
def chkZero (x : Port) : Port :=
  { x with stats := [0x210, 0x218, 0x220, 0x228].foldl (fun t o => tabSet t o 0) x.stats }

/-- LANE.PRBS changes the parts that APPLY names (R195 to R197, R231, R326). -/
def execLanePrbs (c : Cmd) (p : PortId) (apply gen chk inject burstLen periodK live : BitVec 8) (s : State) :
    Host.Outcome State Fault Refusal :=
  .next <|
    if !myTurn s c then s
    else
      match portGate s p with
      | some r => reject s 0x0A01 c r.1 r.2
      | none =>
        match badPrbs apply gen chk inject burstLen periodK live with
        | some o => reject s 0x0A01 c stBadParam (resField o)
        | none =>
          let l := getLane s p
          let ssprq := (apply.getLsbD 0 && gen == 6) || (apply.getLsbD 1 && chk == 6)
          if inFallback l.st then reject s 0x0A01 c stBusyTraining 0
          else if ssprq && l.mode == .l25 then reject s 0x0A01 c stNotSupported 0
          else
            let d := freeNat s
            let l := if apply.getLsbD 0 then { l with gen := gen, genReg := BitVec.ofNat 31 d.1 ||| 1 } else l
            let l := if apply.getLsbD 1 then
                { l with chk := chk, chkLock := false, chkr := Checker.start chk d.1 } else l
            let l := if apply.getLsbD 2 then
                { l with live := live == 1,
                         periodic := if inject == 3 then some periodK else if inject == 4 then none else l.periodic }
              else l
            let n := if apply.getLsbD 2 then injected l inject burstLen else 0
            let start := apply.getLsbD 1 && chk != 0
            let s := modPort d.2 p fun x =>
              statAdd { (if start then chkZero x else x) with lane := { l with flips := l.flips + n } } 0x230 n
            completeOk (if apply.getLsbD 0 || (apply.getLsbD 2 && !l.live) then emitPattern s p else s) 0x0A01 c [] 0

/-- Bits on the receive pins while the checker runs (R195); in a near-end loopback the pins are ignored (R198). -/
def execCheckerLock (p : PortId) (bits : List Bool) (s : State) : Host.Outcome State Fault Refusal :=
  .next (if !herdsRun s || (getPort s p).loop == .near then s else checkIn s p bits)

/-- PERIODIC injection inverts one bit (R196). -/
def execPeriodicInjection (p : PortId) (s : State) : Host.Outcome State Fault Refusal :=
  .next <|
    if !herdsRun s then s else
    let l := getLane s p
    if l.periodic.isSome && laneSends l && (l.live || l.gen != 0) then
      let s := modPort s p fun x => statAdd { x with lane := { x.lane with flips := x.lane.flips + 1 } } 0x230 1
      if l.live then s else emitPattern s p
    else s

/-- A LANE.LOOPBACK that needs a condition of the lane (R198, Table 8). -/
def hostLoop (s : State) (c : Cmd) (p : PortId) (which : LoopSt) (may : Bool) : State :=
  match portGate s p with
  | some r => reject s 0x0A03 c r.1 r.2
  | none =>
    let x := getPort s p
    if (x.loop != .none && x.loop != which) || loopPending s p || !may then
        reject s 0x0A03 c (refusedPort s p).1 (refusedPort s p).2
    else completeOk (modPort s p fun y => { y with loop := which }) 0x0A03 c [.port p] 0

/-- LANE.LOOPBACK OFF. -/
def execLaneLoopbackOff (c : Cmd) (p : PortId) (s : State) : Host.Outcome State Fault Refusal :=
  .next <|
    if !myTurn s c then s
    else
      match portGate s p with
      | some r => reject s 0x0A03 c r.1 r.2
      | none => completeOk (modPort s p endHostLoop) 0x0A03 c [.port p] 0

/-- LANE.LOOPBACK NEAR: the lane is not in IDLE. -/
def execLaneLoopbackNear (c : Cmd) (p : PortId) (s : State) : Host.Outcome State Fault Refusal :=
  .next (if !myTurn s c then s else hostLoop s c p .near ((getLane s p).st != .idle))

/-- LANE.LOOPBACK FAR: the lane has lane lock. -/
def execLaneLoopbackFar (c : Cmd) (p : PortId) (s : State) : Host.Outcome State Fault Refusal :=
  .next (if !myTurn s c then s else hostLoop s c p .far (getLane s p).locked)

end Sys2Proof.Machine
end

