-- ==== Sys2Proof/Machine/LowPower.lean ====
section
/-!
DEFINITION. Line LPI (08, R201 to R224): its states and their moves, its command and its timers.
-/

namespace Sys2Proof.Machine

/-! ### LPI moves (R202 to R217, R221) -/

/-- Whether LPI keeps host-in idle and LPI groups off the line: REQUEST to WAKE. -/
def lpiHolds (x : Port) : Bool := x.lpi.st != .active && x.lpi.st != .blocked

/-- Back to normal service (R202): ACTIVE, or BLOCKED where LPI is not allowed. -/
def lpiActive (x : Port) : Port :=
  lpiAllow { x with
    lpi := { x.lpi with st := .active, extended := false, due := false, passed := false, preSnr := [] }
    line := { x.line with sleepTx := 0, sleepRx := 0, alertLeft := 0, wakeGo := false, wakeRx := false }
    dp := { x.dp with elastic := if x.dp.elastic.isEmpty then centred x else x.dp.elastic } }

/-- The entry trigger (R204): MAC-signalled after 4 LPI codewords, or autonomous on a segmented port. -/
def lpiTry (x : Port) : Port :=
  if x.st == .up && x.lpi.st == .active && x.lpiCfg.enable then
    if 4 ≤ x.dp.lpiRun then { x with lpi := { x.lpi with st := .request, trigger := 0 },
                                     line := { x.line with sleepTx := 0 } }
    else if x.fec = 1 && x.lpiCfg.autoIdle && x.dp.idleTimer && x.dp.wake.isEmpty then
      { x with lpi := { x.lpi with st := .request, trigger := 1 }, line := { x.line with sleepTx := 0 } }
    else x
  else x

/-- Slicer SNR of each pair over its last 8,192 symbols, in 0.1 dB (R209); below any value where there are not so
many. -/
def snr8k (x : Port) : List Int := (quadList x.pairs).map fun q => (windowSnr q.dsp 128).getD (-1024)

/-- A port in QUIET. -/
def quietNow (s : State) (x : Port) : Port :=
  { x with lpi := { x.lpi with st := .quiet, extended := false, due := false, passed := false, quietFrom := s.mono } }

/-- REQUEST to QUIET (R205, R221): LPI_ENTRIES, and LPI_ENTER at most once per 1 ms. -/
def enterQuiet (s : State) (p : PortId) : State :=
  let x := getPort s p
  let y := quietNow s (statAdd x 0x88 1)
  let s := setPort s p { y with lpi := { y.lpi with preSnr := snr8k x, lastEnter := s.mono } }
  if x.lpiCfg.events then postLimited s (portSrc p 5) 0 [(0, 1, x.lpi.trigger.toNat)] (some 4) 1
  else countLimited s (portSrc p 5) 0

/-- QUIET to REFRESH (R208); `due` says whether the partner's signal is still to come (R210). -/
def refreshNow (s : State) (x : Port) (due : Bool) : Port :=
  let y := quietClose s x
  { y with lpi := { y.lpi with st := .refresh, extended := false, passed := false, due := due } }

/-- To WAKE from QUIET or REFRESH (R213, R214, R221): 8 ALERT slots. From REFRESH codewords follow the port's own
ALERT run or, when the partner's ALERT caused the wake, the end of the partner's. -/
def enterWake (s : State) (p : PortId) (cause : Nat) : State :=
  let x := getPort s p
  let y := statAdd (quietClose s x) 0x90 1
  let go := x.lpi.st == .refresh
  let s := setPort s p
    { y with lpi := { x.lpi with st := .wake, due := false, passed := false, wakeFrom := s.mono }
             line := { x.line with alertLeft := 8, wakeGo := go && cause != 2, wakeRx := go && cause == 2 } }
  if x.lpiCfg.events then
    postLimited s (portSrc p 6) 0 [(0, 1, cause), (8, 4, (s.mono - x.lpi.lastEnter) / 1000 % 2 ^ 32)] (some 4) 1
  else countLimited s (portSrc p 6) 0

/-- A wake trigger of the port's own (R212 to R215, Table 2). -/
def wakeTrigger (s : State) (p : PortId) (cause : Nat) : State :=
  let x := getPort s p
  match x.lpi.st with
  | .request => setPort s p (lpiActive x)
  | .quiet => enterWake s p cause
  | .refresh => enterWake s p cause
  | _ => s

/-- The first codeword instant of a wake (R202, R210): ACTIVE with the locks held, else LPI_FAIL. -/
def wakeInstant (s : State) (p : PortId) : State :=
  let x := getPort s p
  if locksHeld x then setPort s p (lpiActive x) else linkDown s p 0x05

/-- Whether signal detect is present on any pair. -/
def anySignal (x : Port) : Bool := (quadList x.lock.signal).any id

/-- What a change of a pair's signal detect does to line LPI (R208, R213): in QUIET a signal begins the refresh that
is due on a slave, and wakes the port when none is due; a slave whose check has passed ends its refresh with the
master's. -/
def signalMove (s : State) (p : PortId) (was on : Bool) : State :=
  let x := getPort s p
  if x.st != .up || was == on then s
  else match x.lpi.st with
    | .quiet => if !on then s else if x.lpi.due then setPort s p (refreshNow s x false) else enterWake s p 2
    | .refresh =>
      if on then setPort s p { x with lpi := { x.lpi with due := false } }
      else if x.role == some .slave && x.lpi.passed && !anySignal x then setPort s p (quietNow s x)
      else s
    | _ => s

/-- A slot's part in line LPI (R208, R213, R214): in QUIET, ALERT wakes the port, another slot does when no refresh is
due and it is not the tail of SLEEP that the partner still sends; in REFRESH ALERT wakes it, and the end of the
partner's ALERT run ends that wake. -/
def lpiReceive (s : State) (p : PortId) (cls : Option (BitVec 16)) : State :=
  let x := getPort s p
  if x.st == .up then
    match x.lpi.st with
    | .quiet =>
      if cls == some codeAlert then enterWake s p 2
      else if x.lpi.due then setPort s p (refreshNow s x false)
      else if cls == some codeSleep then s
      else enterWake s p 2
    | .refresh => if cls == some codeAlert then enterWake s p 2 else s
    | .wake => if x.line.wakeRx && cls != some codeAlert then wakeInstant s p else s
    | _ => s
  else s

/-- Whether a slot begins a transmit superframe. -/
def atSuperframe (x : Port) : Bool := x.line.slotNo % superSlots x.mode == 0

/-! ### LPI commands and timers -/

/-- LPI.CONFIG (R220, R326): every value is checked before any changes; a committed LPI_ENABLE of 0 wakes the line. -/
def execLpiConfig (c : Cmd) (p : PortId) (enable autoIdle events : BitVec 8) (timer : BitVec 32) (s : State) :
    Host.Outcome State Fault Refusal :=
  .next <|
    if !myTurn s c then s
    else
      match portGate s p with
      | some r => reject s 0x0901 c r.1 r.2
      | none =>
        if 1 < enable.toNat then reject s 0x0901 c stBadParam (resField 0x10)
        else if 1 < autoIdle.toNat then reject s 0x0901 c stBadParam (resField 0x11)
        else if 1 < events.toNat then reject s 0x0901 c stBadParam (resField 0x12)
        else if timer.toNat < 5 || 10000 < timer.toNat then reject s 0x0901 c stBadParam (resField 0x14)
        else
          let cfg : LpiCfg := { enable := enable == 1, autoIdle := autoIdle == 1, events := events == 1,
                                timer := timer }
          let s := modPort s p fun x => { x with lpiCfg := cfg }
          let s := if cfg.enable then s else wakeTrigger s p 3
          completeOk s 0x0901 c [.port p] 0

/-- Host-in has carried nothing but idle or LPI for AUTO_IDLE_TIMER (R204). -/
def execAutoIdleTimerExpiry (p : PortId) (s : State) : Host.Outcome State Fault Refusal :=
  .next <|
    let x := getPort s p
    if x.dp.cwLock && herdsRun s then setPort s p (lpiTry { x with dp := { x.dp with idleTimer := true } }) else s

/-- A refresh instant (R208): the master begins its refresh; a slave begins with the master's signal. -/
def execLpiRefreshInstant (p : PortId) (s : State) : Host.Outcome State Fault Refusal :=
  .next <|
    let x := getPort s p
    if x.st == .up && x.lpi.st == .quiet && herdsRun s then
      if x.role == some .slave && !anySignal x then setPort s p { x with lpi := { x.lpi with due := true } }
      else setPort s p (refreshNow s x (!anySignal x))
    else s

/-- The refresh check (R209): locks within 4 µs, no pair in ACQUISITION, no pair's SNR more than 2.0 dB below. -/
def refreshPasses (x : Port) (locks : Bool) : Bool :=
  locks && ((quadList x.pairs).all fun q => decide (1 ≤ adaptLevel q)) &&
    (x.lpi.preSnr.zip (snr8k x)).all fun e => decide (e.1 - 20 ≤ e.2)

/-- A pair that adapts in TRACKING (R209). -/
def trackPair (q : Pair) : Pair :=
  { q with canLevel := 1, eqLevel := 1, slots := q.slots.map fun o => o.map fun v => { v with level := 1 } }

/-- The end of a refresh, or a slot of an extended one, which ends at a superframe boundary (R208, R209, R211, R222).
A herd controller that restarts skips the check, which then neither passes nor fails. -/
def execLpiRefreshEnd (p : PortId) (locks4us : Bool) (s : State) : Host.Outcome State Fault Refusal :=
  .next <|
    let x := getPort s p
    if x.st == .up && x.lpi.st == .refresh && herdsRun s then
      let skip := (getHerd s (herdOf p)).st == .fwRestart
      let s := if x.lpi.extended || !calRuns s p then s else calGap s p
      let x := getPort s p
      if x.lpi.extended && (skip || !atSuperframe x) then s
      else if skip || refreshPasses x locks4us then
        if x.role == some .slave && anySignal x then setPort s p { x with lpi := { x.lpi with passed := true } }
        else setPort s p (quietNow s x)
      else if x.lpi.extended then s
      else
        let y := statAdd { x with lpi := { x.lpi with extended := true, passed := false } } 0xA0 1
        setPort s p { y with pairs := quadMap trackPair y.pairs }
    else s

/-- An extended refresh has not passed its check 1 ms after it began (R210); not while the check is skipped (R211). -/
def execLpiRefreshExtendExpiry (p : PortId) (s : State) : Host.Outcome State Fault Refusal :=
  .next <|
    if !herdsRun s then s else
    let x := getPort s p
    if x.st == .up && x.lpi.st == .refresh && x.lpi.extended && !x.lpi.passed &&
        (getHerd s (herdOf p)).st != .fwRestart then
      linkDown s p 0x05
    else s

/-- No partner signal within 8 µs after a refresh instant (R210): the port's own, or the master's as a slave expects
it. -/
def execLpiPartnerSignalExpiry (p : PortId) (s : State) : Host.Outcome State Fault Refusal :=
  .next <|
    if !herdsRun s then s else
    let x := getPort s p
    if x.st == .up && x.lpi.due && !anySignal x then linkDown s p 0x05 else s

/-- The first codeword instant of a wake from QUIET (R213, R215). A wake by the partner's ALERT in REFRESH has until
the wake time max for the end of its ALERT run (Table 2, R214). -/
def execLpiFirstCodewordInstant (p : PortId) (s : State) : Host.Outcome State Fault Refusal :=
  .next <|
    if !herdsRun s then s else
    let x := getPort s p
    if x.st == .up && x.lpi.st == .wake && !x.line.wakeGo then
      if !x.line.wakeRx then wakeInstant s p
      else if x.lpi.wakeFrom + capsWakeNs x.mode ≤ s.mono then linkDown s p 0x05
      else s
    else s

end Sys2Proof.Machine
end

