-- ==== Sys2Proof/Machine/Startup.lean ====
section
/-!
DEFINITION. Bringing a link up (04, R97 to R133): negotiation, Springbok, Tahr, the InfoField in service (R47 to R50),
locks and the link-down conditions. Receivers' verdicts are operands of their rows (log 3).
-/

namespace Sys2Proof.Machine

/-! ### Negotiation attempts (R98 to R103) -/

/-- Whether a port has an attempt open. -/
def negOpen (x : Port) : Bool := x.st == .negotiate && x.neg.open_

def setNeg (s : State) (p : PortId) (n : Neg) : State := modPort s p fun x => { x with neg := n }

/-- The modes that a port's herd offers (R106). -/
def herdOffer (y : Herd) : BitVec 5 :=
  match y.resolved with
  | some m => BitVec.ofNat 5 (2 ^ modeCode m)
  | none => y.modeSet

/-- Bits of a page as DAC codes on pair A, one per half cell (R98): DME at ±48, a transition at the start of each cell
and one in the middle of a cell that carries 1; `level` is the level before. -/
def dmeCodes : List Bool → Bool → List Int
  | [], _ => []
  | b :: l, level =>
    let first := !level
    let second := if b then !first else first
    (if first then 48 else -48) :: (if second then 48 else -48) :: dmeCodes l second

/-- A page's start (R98): the delimiter of Clause 73, of eight half cells with transitions at the first and the fifth
alone. PRESUMED, log 58. -/
def dmeDelimiter : List Int := List.replicate 4 48 ++ List.replicate 4 (-48)

/-- A page as it goes out on pair A (R98): delimiter, 48 bits, a last bit that Clause 73 draws at random; pairs B to D
stay quiet. -/
def pageOut (p : PortId) (bits : BitVec 48) (last : Bool) : Bus :=
  .page p bits (dmeDelimiter ++ dmeCodes ((List.range 48).map bits.getLsbD ++ [last]) false)

/-- Sends a page. With the line pads held nothing leaves the device (R436). -/
def sendPage (s : State) (p : PortId) (bits : BitVec 48) : State :=
  if s.pwr.padsHeld then s else emit s (pageOut p bits (Config.pageBit s.mono bits))

/-- The base page (R100): S = 1, the echoed nonce, C = 0, RF = 0, the acknowledge once the partner's page is in, NP =
1, the nonce; 0 in every technology and FEC bit. Bit places of Clause 73: PRESUMED, log 58. -/
def basePageBits (n : Neg) : BitVec 48 :=
  BitVec.ofNat 48 (1 + (if n.gotBase then n.pNonce.toNat else 0) * 2 ^ 5 + bit n.gotBase * 2 ^ 14 + 2 ^ 15 +
    n.nonce.toNat * 2 ^ 16)

/-- A next page of Clause 73: D[10:0], whether it is a message page, whether another follows, U[31:0]. -/
def nextPageBits (d : BitVec 11) (message more : Bool) (u : BitVec 32) : BitVec 48 :=
  BitVec.ofNat 48 (d.toNat + bit message * 2 ^ 13 + 2 ^ 14 + bit more * 2 ^ 15 + u.toNat * 2 ^ 16)

/-- The pages that follow the base page (R103, Table 2): 0 the message page, 1 to 5 the offer, then null pages. -/
def offerPage (p : PortId) (n : Neg) : Nat → BitVec 48
  | 0 => nextPageBits 5 true true 0x015AC07E
  | 1 => nextPageBits 1 false true (Config.deviceTag.setWidth 32)
  | 2 => nextPageBits ((Config.deviceTag >>> 32).setWidth 11) false true
      (BitVec.ofNat 32 (p.val + n.myModes.toNat * 2 ^ 9 + bit n.myModeFixed * 2 ^ 14 + n.myFecs.toNat * 2 ^ 15))
  | 3 => nextPageBits (BitVec.ofNat 11 (n.myRole.toNat + 4 * bit n.myFixed)) false true n.seed
  | 4 => nextPageBits (BitVec.ofNat 11 (bit n.offer.isSome)) false true ((n.offer.map (·.sig)).getD 0)
  | 5 => nextPageBits 0 false true ((n.offer.map (·.gen)).getD 0)
  | _ => nextPageBits 1 true false 0

/-- Sends page k of the port's offer with what its attempt holds. -/
def sendOffer (s : State) (p : PortId) (k : Nat) : State :=
  let n := (getPort s p).neg
  sendPage (setNeg s p { n with page := k }) p (offerPage p n k)

/-- break_link_timer ends; base pages begin (R101). -/
def execNegBreakLinkExpiry (p : PortId) (s : State) : Host.Outcome State Fault Refusal :=
  .next <|
    let x := getPort s p
    if negOpen x && !x.neg.basePages && herdsRun s then
      sendPage (setNeg s p { x.neg with basePages := true }) p (basePageBits x.neg)
    else s

/-- An attempt ends (R101): after 1.2 s without a partner page, or 20 ms after the first page. -/
def execNegAttemptExpiry (p : PortId) (s : State) : Host.Outcome State Fault Refusal :=
  .next <|
    let x := getPort s p
    if negOpen x && herdsRun s then
      if x.neg.gotBase then countedFail s p (some 0x06) true else countedFail s p none false
    else s

/-- Whether a herd offers its resolved mode alone (R106). -/
def modeIsFixed (y : Herd) : Bool := y.resolved.isSome

/-- A base page (R99 to R103): the port's own nonce is a loop, in an attempt that may have had a partner's page before
(R130); a partner without next pages has no Zolovia offer. The port echoes the partner's nonce and goes on to its
message page. A page that acknowledges with another nonce than the port's sends it back to break_link_timer: PRESUMED,
log 58. -/
def execBasePageReceived (p : PortId) (page : BasePage) (s : State) : Host.Outcome State Fault Refusal :=
  .next <|
    let x := getPort s p
    if negOpen x && x.neg.basePages && page.selector == 1 && herdsRun s then
      let y := getHerd s (herdOf p)
      if page.nonce == x.neg.nonce then countedFail s p (some 0x04) x.neg.gotBase
      else if page.ack && page.echoed != x.neg.nonce then newAttempt s p
      else if !page.np then countedFail s p (some 0x05) true
      else if x.neg.gotBase then s
      else
        let n := { x.neg with
          gotBase := true, pNonce := page.nonce, myModes := herdOffer y, myModeFixed := modeIsFixed y,
          myFecs := BitVec.ofNat 2 (attPar x 0x05) }
        sendOffer (sendPage (setNeg s p n) p (basePageBits n)) p 0
    else s

/-- The ports of a herd that hold its mode against a partner herd, other than one of them. -/
def heldAgainst (s : State) (p : PortId) (partner : BitVec 45) : List Port :=
  ((portsOf (herdOf p)).filter (· != p)).map (getPort s) |>.filter fun y =>
    holdsMode y && y.role.isSome && partnerHerd y == partner

/-- The fixed role of R105, if the port has one: that of the port that finished negotiation first (R53). -/
def fixedRole (s : State) (p : PortId) (partner : BitVec 45) : Option Role :=
  match (heldAgainst s p partner).foldl (fun m y => match m with
      | none => some y
      | some z => if y.negSeq < z.negSeq then some y else m) (none : Option Port) with
  | some y => y.role
  | none =>
    let y := getHerd s (herdOf p)
    match y.timing, y.trunk with
    | .holdover, some (t, r) => if t == partner then some r else none
    | _, _ => none

/-- ROLE_PREF of a role. -/
def roleBits : Role → BitVec 2
  | .master => 1
  | .slave => 2

/-- UNP3 as this end loads it once it has the partner's UNP2 (R105). -/
def loadRole (s : State) (p : PortId) (n : Neg) : Neg :=
  match fixedRole s p (n.tag.setWidth 45 ||| ((n.port >>> 3).setWidth 45 <<< 39)) with
  | some r => { n with myRole := roleBits r, myFixed := true }
  | none => { n with myRole := BitVec.ofNat 2 (attPar (getPort s p) 0x04), myFixed := false }

/-- The line mode both ends offer, first in the order of R106. -/
def commonMode (n : Neg) : Option LineMode := firstMode (n.myModes &&& n.modes)

/-- The FEC mode (R107): 0 pass-through, 1 segmented. -/
def commonFec (mine : Nat) (theirs : BitVec 2) (m : LineMode) : Option (BitVec 8) :=
  if mine % 2 = 1 && theirs.getLsbD 0 && m != .l25 then some 0
  else if mine / 2 % 2 = 1 && theirs.getLsbD 1 then some 1
  else none

/-- The partner identity (R104). -/
def partnerId (n : Neg) : BitVec 48 := n.tag ++ n.port

/-- What the reads of a negotiation returned for a context; one not listed reads without damage. -/
def readOf (p : PortId) (reads : List (CtxKey × CtxRead)) (e : Ctx) : CtxRead :=
  ((reads.find? fun r => keyIs r.1 e).map (·.2)).getD (cleanRead p e)

/-- Damaged contexts are discarded one after another, most recently used first (R109, R153). -/
def offerFrom (p : PortId) (partner : BitVec 48) (m : LineMode) (fec : BitVec 8) (reads : List (CtxKey × CtxRead)) :
    Nat → State → State × Option Ctx
  | 0, s => (s, none)
  | k + 1, s =>
    match bestCtx s p partner m fec with
    | none => (s, none)
    | some e =>
      let t := checkRead s p e (readOf p reads e)
      if t.2 then (t.1, some e) else offerFrom p partner m fec reads k t.1

/-- UNP4 and UNP5 as this end loads them once it has the partner's UNP3 (R105, R109). -/
def loadOffer (s : State) (p : PortId) (reads : List (CtxKey × CtxRead)) : State :=
  let x := getPort s p
  let n := x.neg
  match commonMode n with
  | none => s
  | some m =>
    match commonFec (attPar x 0x05) n.fecs m with
    | none => s
    | some f =>
      if attPar x 0x06 = 0 || x.trainNext || !storeUp s (chanOf p) then s
      else
        let t := offerFrom p (partnerId n) m f reads 24 s
        setNeg t.1 p { n with offer := t.2 }

/-- This end's role (R108, Table 3); none when equal seeds call for a new draw. -/
def resolveRole (n : Neg) : Option Role :=
  let pRole := if n.rolePref == 3 then 0 else n.rolePref
  let pFixed := n.roleFixed && pRole != 0
  let bySeed := if n.seed == n.pSeed then none
    else if n.pSeed.toNat < n.seed.toNat then some Role.master else some .slave
  let mine := if n.myRole == 1 then Role.master else .slave
  if n.myFixed then (if pFixed && pRole == n.myRole then bySeed else some mine)
  else if pFixed then (if pRole == 1 then some .slave else some .master)
  else if n.myRole == pRole then bySeed
  else if n.myRole == 0 then (if pRole == 1 then some .slave else some .master)
  else some mine

/-- Whether both ends offer one context (R110). -/
def ctxMatch (n : Neg) : Option Ctx :=
  match n.offer with
  | some e => if n.ctxValid && e.sig == n.pSig && e.gen == n.pGen then some e else none
  | none => none

/-- Negotiation completes (R97, R106, R110, R148): the herd's mode is resolved, the line side starts; a master sends
on its herd PLL (R52); a new role moves the herd's bundle slots to the path of their clock relation (R72). -/
def completeNeg (s : State) (p : PortId) (n : Neg) (m : LineMode) (fec : BitVec 8) (role : Role) : State :=
  let h := herdOf p
  let s := if (getHerd s h).resolved.isNone then
      retarget (setPllMode (modHerd s h fun y => { y with resolved := some m }) h m) (dieOfHerd h)
    else s
  let k := (getHerd s h).negSeq + 1
  let s := modHerd s h fun y => { y with negSeq := k }
  let s := modPort s p fun x =>
    { x with role := some role, freqWord := if role = .master then 0 else x.freqWord, partner := partnerId n,
             mode := m, fec := fec, negEnd := s.mono, negSeq := k,
             neg := { n with open_ := false } }
  let s := repath (laneRateTo s p m) h
  match ctxMatch n with
  | some e =>
    let s := modCtx s p e fun d => { d with lastUse := now s }
    let s := countPers (setSt s p .springbok) p 0xC0
    let s := dieTrigger s (dieOf p)
    modPort s p fun x => { lineQuiet x with startPath := 1, start := { Start.none with ctx := some e } }
  | none => enterT0 s p false true

/-- The last page of the offer is received: resolution (R106 to R110). While pads are held the port stays (R436). -/
def resolveNeg (s : State) (p : PortId) : State :=
  let x := getPort s p
  let n := x.neg
  if s.pwr.padsHeld then s
  else match commonMode n with
    | none => countedFail s p (some 0x05) true
    | some m =>
      match commonFec (attPar x 0x05) n.fecs m with
      | none => countedFail s p (some 0x05) true
      | some f =>
        match resolveRole n with
        | none => newAttempt s p
        | some r =>
          match (getHerd s (herdOf p)).resolved with
          | some m' => if m' == m then completeNeg s p n m f r else newAttempt s p
          | none => completeNeg s p n m f r

/-- A next page (R103, R105, Table 2), answered by the port's own next page; any other message and the pages that
belong to it are acknowledged by the page in force, and ignored. `reads` are the contexts read that are damaged
(R109). -/
def execNextPageReceived (p : PortId) (page : NextPage) (reads : List (CtxKey × CtxRead)) (s : State) :
    Host.Outcome State Fault Refusal :=
  .next <|
    let x := getPort s p
    let n := x.neg
    if !(negOpen x && n.gotBase && herdsRun s) then s
    else match page with
      | .message code u =>
        if code == 5 && u.setWidth 24 == 0x5AC07E && (u >>> 24) == 1 then
        sendOffer (setNeg s p { n with gotOffer := true }) p 1
        else sendOffer s p n.page
      | .null => if n.gotOffer then s else countedFail s p (some 0x05) true
      | .unformatted k d u =>
        if !n.gotOffer then sendOffer s p n.page
        else match k.val with
          | 1 => sendOffer (setNeg s p { n with version := d.setWidth 8, tag := u.setWidth 39 }) p 2
          | 2 =>
            let n := { n with tag := (n.tag &&& 0xFFFFFFFF) ||| ((d.setWidth 7).setWidth 39 <<< 32),
                              port := u.setWidth 9,
                              modes := (u >>> 9).setWidth 5, modeFixed := u.getLsbD 14, fecs := (u >>> 15).setWidth 2 }
            sendOffer (setNeg s p (loadRole s p n)) p 3
          | 3 =>
            let n := { n with rolePref := d.setWidth 2, roleFixed := d.getLsbD 2, pSeed := u }
            sendOffer (loadOffer (setNeg s p n) p reads) p 4
          | 4 => sendOffer (setNeg s p { n with ctxValid := d.getLsbD 0, pSig := u }) p 5
          | 5 => resolveNeg (sendOffer (setNeg s p { n with pGen := u }) p 6) p
          | _ => sendOffer s p n.page

/-- DME on pair A (R119, R131). -/
def execDmeReceived (p : PortId) (s : State) : Host.Outcome State Fault Refusal :=
  .next <|
    let x := getPort s p
    if !herdsRun s then s
    else if x.st == .hold then setPort s p { x with partnerSeen := true }
    else if x.st == .t0 then dmeRestart s p
    else s

/-! ### Springbok (R112 to R115) -/

/-- A pair at the start of reception: nothing computed yet, FFE_MAIN_TAP in its section (R75). -/
def pairStart (main : BitVec 32) (q : Pair) : Pair :=
  { q with dsp := PairDsp.reset, coef := tabSet q.coef mainTapOff main, snr := 0x8000, margin := 0x8000 }

/-- The line transmitter's registers at a start (R37, R41, R116). -/
def lineStart (p : PortId) : LineIo :=
  { LineIo.off with scr := quadMap (· ^^^ BitVec.ofNat 58 p.val) pairSeeds, prbs := prbsSeeds }

/-- The port's transmitter starts the framed format (R37, R41, R44). -/
def startTx (p : PortId) (x : Port) : Port :=
  { x with line := { lineStart p with on := true }, info := Info.fresh,
           pairs := quadMap (pairStart (paramGet x.live 0x10)) x.pairs }

/-- A slave's frequency and every pair's phase, deskew and gain, as a context holds them (R112). -/
def contextFrontEnd (e : Ctx) (x : Port) : Port :=
  let f := fun i =>
    { quadGet x.pairs i with phase := quadGet e.phases i, deskew := quadGet e.deskews i,
                             analogGain := quadGet e.coefs.again i, freeze := 0 }
  { x with freqWord := if x.role == some .slave then e.freqWord else 0, pairs := ⟨f 0, f 1, f 2, f 3⟩ }

/-- The start instant (R112, R154): the context is applied and transmission begins; a context that fails its check
sends the port to T0 at once. -/
def execSpringbokStartInstant (p : PortId) (read : CtxRead) (s : State) : Host.Outcome State Fault Refusal :=
  .next <|
    if !herdsRun s then s else
    let x := getPort s p
    match x.start.ctx with
    | none => s
    | some e =>
      if x.st == .springbok && !x.line.on then
        if readCause p e read = 0 then
          surveyStart (loadCoefs (modPort s p fun y => contextFrontEnd e (startTx p y)) p e.coefs) p
        else
          let s := match findCtx s p { partner := e.partner, sig := e.sig } with
            | some d => dropBad s p d (readCause p e read)
            | none => s
          springbokFallback s p
      else s

/-- PAYLOAD of CAPS. -/
def capsPayload (x : Port) (gen : BitVec 32) : BitVec 64 :=
  BitVec.ofNat 64 (2 ^ 56 + 2 ^ 55 + livePar x 0x38 * 2 ^ 54 + capsWakeNs x.mode * 2 ^ 32 + gen.toNat)

/-- Sends CAPS with a generation and keeps its bits [127:32] for the signature (R123, R124). -/
def sendCaps (s : State) (p : PortId) (gen : BitVec 32) : State :=
  let s := sendInfo s p 0x01 (capsPayload (getPort s p) gen) none
  modPort s p fun x =>
    { x with start := { x.start with capsSent := true }, linkGen := gen,
             info := { x.info with myCaps := infoHead x.info } }

/-- The generation of a Springbok start (R113). -/
def springbokGen (x : Port) : BitVec 32 := (x.start.ctx.map fun e => e.gen + 1).getD 0

/-- The three conditions of the margin check (R113): timing lock, superframe lock, each pair's margin over the last
131,072 symbols at least SPRINGBOK_MARGIN. -/
def marginCheck (x : Port) : Bool :=
  locksHeld x && (quadList x.pairs).all fun q =>
    decide (2048 ≤ q.dsp.sq.length) && decide ((attPar x 0x07 : Int) ≤ q.margin.toInt)

/-- The margin check passes (R113): the master sends CAPS; the slave once it has the master's. -/
def execSpringbokCheckPass (p : PortId) (s : State) : Host.Outcome State Fault Refusal :=
  .next <|
    if !herdsRun s then s else
    let x := getPort s p
    if x.st == .springbok && x.line.on && !x.start.checkPass && marginCheck x then
      let s := setPort s p { x with start := { x.start with checkPass := true } }
      if x.role == some .master || x.start.capsGot then sendCaps s p (springbokGen x) else s
    else s

/-- 500 µs without a passed check, or 600 µs without UP (R114). -/
def execSpringbokCheckExpiry (p : PortId) (s : State) : Host.Outcome State Fault Refusal :=
  .next <| if herdsRun s && (getPort s p).st == .springbok then springbokFallback s p else s

/-! ### The InfoField (R47 to R50, R113, R114, R123, R124, R147, R200) -/

/-- The link's cable signature of a Tahr start (R124): the master's CAPS, then the slave's. -/
def tahrSig (x : Port) : BitVec 32 :=
  let a := beBytes 12 x.info.myCaps.toNat
  let b := beBytes 12 x.info.hisCaps.toNat
  crc32c (if x.role == some .master then a ++ b else b ++ a)

/-- A start completes: the port enters UP (R114, R124). -/
def startDone (s : State) (p : PortId) : State :=
  let x := getPort s p
  let sig := if x.st == .springbok then (x.start.ctx.map (·.sig)).getD 0 else tahrSig x
  enterUp s p sig x.linkGen

/-- The partner's CAPS arrives (R113, R114, R123). -/
def capsArrive (s : State) (p : PortId) (head : BitVec 96) (pay : BitVec 64) : State :=
  let c : Caps := { version := BitVec.ofNat 8 (wfld pay 56 8), lpi := pay.getLsbD 55, loop := pay.getLsbD 54,
                    wakeNs := BitVec.ofNat 16 (wfld pay 32 16), gen := pay.setWidth 32 }
  let s := modPort s p fun x =>
    { x with caps := some c, start := { x.start with capsGot := true }, info := { x.info with hisCaps := head } }
  let x := getPort s p
  if x.role == some .master then
    if x.start.capsSent && (x.st == .t3 || x.st == .springbok) then
      modPort (startDone s p) p fun y => lpiAllow { y with line := { y.line with infoLeft := 64 } }
    else s
  else if x.start.capsSent then s
  else if x.st == .t3 then sendCaps s p c.gen
  else if x.st == .springbok && x.start.checkPass then sendCaps s p (springbokGen x)
  else s

/-- The message this end sent has been acknowledged (R50). A loop that this end runs for its partner goes on (R200). -/
def infoAcked (s : State) (p : PortId) (m : Msg) : State :=
  if m.type == 0x10 then
    let on := m.payload.getLsbD 0
    let s := modPort s p fun y =>
      if y.loop == .looping then y else lpiAllow { y with loop := if on then .remote else .none }
    match m.cmd with
    | some c =>
      if s.waits.contains (.loop p c on) then
        completeOk { s with waits := s.waits.erase (.loop p c on) } 0x0107 c [.port p] 0
      else s
    | none => s
  else if m.type == 0x20 then
    match m.cmd with
    | some c => pairedStep s c false true
    | none => s
  else s

/-- A new message of the partner, by its type (R48, Table 7). -/
def infoArrive (s : State) (p : PortId) (head : BitVec 96) (type : BitVec 8) (pay : BitVec 64) : State :=
  let x := getPort s p
  if type == 0x01 then capsArrive s p head pay
  else if x.st != .up then s
  else if type == 0x10 then
    if pay.getLsbD 0 then
      if x.loop == .none && x.info.myCaps.getLsbD 54 then modPort s p fun y => lpiAllow { y with loop := .looping }
      else s
    else if x.loop == .looping then modPort s p fun y => lpiAllow { y with loop := .none }
    else s
  else if type == 0x20 then
    if pay.setWidth 32 == x.linkGen then
      if storeUp s (chanOf p) && (getHerd s (herdOf p)).st != .fwRestart then beginSave s p 4 none false
      else modPort s p fun y => { y with partnerHeld := true }
    else s
  else if type == 0x30 then
    modPort s p fun y => { y with info := { y.info with timing := some (pay.setWidth 3, pay.getLsbD 8) } }
  else s

/-- Whether a port takes InfoFields: T2 and T3 (INFO slots), Springbok, UP. -/
def infoOpen (x : Port) : Bool := x.st == .t2 || x.st == .t3 || (x.st == .springbok && x.line.on) || x.st == .up

/-- Whether an acknowledgement is that of the slave's CAPS, with which it enters UP (R114, R123). -/
def capsAcked (x : Port) (ack : BitVec 8) : Bool :=
  x.role == some .slave && (x.st == .t3 || x.st == .springbok) && x.start.capsSent && ack == x.info.seq &&
      x.info.seq != 0

/-- A whole InfoField (R47, R48, R50): a failing CRC discards it; a repeated message is acknowledged only. -/
def infoReceived (s : State) (p : PortId) (bits : BitVec 128) : State :=
  let x := getPort s p
  let head : BitVec 96 := (bits >>> 32).setWidth 96
  let type : BitVec 8 := (bits >>> 120).setWidth 8
  let seq : BitVec 8 := (bits >>> 112).setWidth 8
  let ack : BitVec 8 := (bits >>> 104).setWidth 8
  let pay : BitVec 64 := (bits >>> 32).setWidth 64
  if !infoOpen x || crc32c (beBytes 12 head.toNat) != bits.setWidth 32 then s
  else
    let new := type != 0 && seq != x.info.ackSeq
    let s := if type == 0 then s else modPort s p fun y => { y with info := { y.info with ackSeq := seq } }
    let s := if new then infoArrive s p head type pay else s
    let s := match x.info.current with
      | some m =>
        if ack == x.info.seq then
          let s := modPort s p fun y => { y with info := { y.info with current := none } }
          modPort (infoAcked s p m) p fun y => { y with info := infoNext y.info }
        else s
      | none => s
    if capsAcked x ack then modPort (startDone s p) p lpiAllow else s

/-- An InfoField of the pilot channel (R49): the port uses it only in service with marker lock (R42). -/
def execInfofieldReceived (p : PortId) (bits : BitVec 128) (s : State) : Host.Outcome State Fault Refusal :=
  .next <|
    let x := getPort s p
    if x.st == .up && x.lock.marker && herdsRun s then infoReceived s p bits else s

/-- The 16th opportunity passes unacknowledged (R50): the message is sent no more, and the command that caused it times
out. CAPS has no command: its phase goes on and its own bound ends it (R114, R123). -/
def execInfofieldRetryExpiry (p : PortId) (s : State) : Host.Outcome State Fault Refusal :=
  .next <|
    if !herdsRun s then s else
    let x := getPort s p
    match x.info.current with
    | none => s
    | some m =>
      let s := setPort s p { x with info := infoNext { x.info with current := none } }
      match m.cmd with
      | none => s
      | some c =>
        if m.type == 0x10 then
          let on := m.payload.getLsbD 0
          if s.waits.contains (.loop p c on) then
            reject { s with waits := s.waits.erase (.loop p c on) } 0x0107 c stTimeout 0
          else s
        else if m.type == 0x20 then pairedFail s c stTimeout
        else s

/-! ### Tahr (R116 to R125) -/

/-- A TRAIN_WORD (R117, Table 4). -/
def trainWord (phase window : Nat) (ready tracking last : Bool) : BitVec 32 :=
  let hi : BitVec 16 := BitVec.ofNat 16 (phase * 4096 + window * 16 + bit ready * 8 + bit tracking * 4 + bit last * 2)
  hi ++ ~~~hi

/-- The front-end start calibration ends (R118). -/
def execT0CalibrationDone (p : PortId) (s : State) : Host.Outcome State Fault Refusal :=
  .next <|
    if !herdsRun s then s else
    let x := getPort s p
    if x.st == .t0 then
      let d := freeNat s
      let trims := fun i q => (List.range 4).foldl (fun q k => trimSet k (d.1 / 2 ^ (32 * (4 * i + k))) q) q
      setPort d.2 p { x with start := { x.start with calibrated := true }, pairs := quadZip trims quadIx x.pairs }
    else s

/-- The training signal starts on a port's four pairs for a number of µs (R116). -/
def startTrain (p : PortId) (word : BitVec 32) (us : Nat) (x : Port) : Port :=
  { x with line := { lineStart p with train := some (word, symbolsIn x.mode us), descr := x.line.descr,
                                      rxSlot := x.line.rxSlot } }

/-- A burst, reply or window of a port begins: its TRAIN_WORD, its length in µs (R116, R118, R120). -/
def sendTrain (s : State) (p : PortId) (word : BitVec 32) (us : Nat) : State := modPort s p (startTrain p word us)

/-- T1 begins at an end (R118): the window it starts in; every part starts in ACQUISITION (R82). A slave's receiver
has been at work since window 1 began. -/
def enterT1 (s : State) (p : PortId) (window : Nat) : State :=
  modPort (surveyStart (setSt s p .t1) p) p fun x =>
    { x with start := { x.start with window := window, lastAt := 0, history := [], ownRes := Quad.all none,
                                     eqRes := Quad.all none }
             pairs := quadMap (fun q => { q with
               canLevel := 0, eqLevel := 0, freeze := 0, slots := q.slots.map fun o => o.map fun v => { v with level := 0 } })
               x.pairs }

/-- Superframe lock on all four pairs and marker lock (R42). -/
def trainLocked (x : Port) : Bool := (quadList x.lock.frame).all id && x.lock.marker

/-- The master's burst instant (R118): a burst with READY = 0, or T1 window 1 once it has locked on the reply. -/
def execT0Burst (p : PortId) (s : State) : Host.Outcome State Fault Refusal :=
  .next <|
    let x := getPort s p
    if x.st == .t0 && x.start.calibrated && x.role == some .master && herdsRun s then
      if x.start.locked then sendTrain (enterT1 s p 1) p (trainWord 2 1 false false false) 1970
      else sendTrain s p (trainWord 1 0 false false false) 1000
    else s

/-- The slave's READY reply in T0 (R118): the slave sends it once it has superframe and marker lock on all four pairs,
and the master locks on it in the same way. -/
def execT0SlaveReply (p : PortId) (s : State) : Host.Outcome State Fault Refusal :=
  .next <|
    let x := getPort s p
    if x.st == .t0 && x.start.calibrated && trainLocked x && herdsRun s then
      let s := setPort s p { x with start := { x.start with locked := true },
                                    pairs := quadMap (pairStart (paramGet x.live 0x10)) x.pairs }
      if x.role == some .slave then sendTrain s p (trainWord 1 0 true false false) 900 else s
    else s

/-- 200 ms in T0 (R119). -/
def execT0DetectTimeout (p : PortId) (s : State) : Host.Outcome State Fault Refusal :=
  .next <| if herdsRun s && (getPort s p).st == .t0 then countedFail s p (some 0x07) true else s

/-- Whether two copies of a TRAIN_WORD are accepted (R117). -/
def trainOk (a b : BitVec 32) : Bool := a == b && a.setWidth 16 == ~~~((a >>> 16).setWidth 16)

/-- A TRAIN_WORD (R117, R118, R121): a calibrated slave leaves T0 on PHASE 2; TRACKING and LAST are taken in T1. -/
def execTrainWordAccepted (p : PortId) (copy1 copy2 : BitVec 32) (s : State) : Host.Outcome State Fault Refusal :=
  .next <|
    let x := getPort s p
    let window := fld copy1 20 8
    if !trainOk copy1 copy2 || !herdsRun s then s
    else if x.st == .t0 && x.role == some .slave && x.start.calibrated && fld copy1 28 4 == 2 then enterT1 s p window
    else if x.st == .t1 && fld copy1 28 4 == 2 then
      setPort s p { x with start := { x.start with
        tracking := copy1.getLsbD 18, lastAt := if copy1.getLsbD 17 then window else x.start.lastAt } }
    else s

/-- The master's condition for LAST in window w (R121): nine window ends converged, the slave's five TRACKING. -/
def lastDue (w : Nat) (hist : List (Bool × Bool)) : Bool :=
  decide (29 ≤ w) ||
    (decide (9 ≤ hist.length) && (hist.take 9).all (·.2) &&
      ((hist.take 9).zipIdx.all fun e => e.2 % 2 == 1 || e.1.1))

/-- Full duplex begins (R122): the framed format from its first symbol. -/
def enterT2 (s : State) (p : PortId) : State := modPort (setSt s p .t2) p (startTx p)

/-- What a pair's cancellers left in the window that ends: sum of squares and symbols over its last 131,072 symbols. -/
def windowRes (q : Pair) : Option (Nat × Nat) :=
  if q.dsp.sq.isEmpty then none else some (q.dsp.sq.sum, 64 * q.dsp.sq.length)

/-- Whether a residual is less than 1 dB better than the one before (Table 6). -/
def settledRes (before now_ : Option (Nat × Nat)) : Bool :=
  match before, now_ with
  | some b, some n => decide (powerDb (b.1 * n.2) (n.1 * b.2) < 10)
  | _, _ => false

/-- The end of an own window: cancellers whose residual improved by less than 1 dB go to TRACKING (R82, Table 6); a
frozen pair holds its level (R84), and so does a slot whose aggressor does not send (R69). -/
def ownWindowEnd (on : Nat → Bool) (before : Option (Nat × Nat)) (q : Pair) : Pair :=
  if settledRes before (windowRes q) && q.freeze &&& 0x06 == 0 then
    { q with canLevel := max 1 q.canLevel, slots := q.slots.map fun o => o.map fun v => if on v.aggressor then
             { v with level := max 1 v.level } else v }
  else q

/-- The slicer SNR of the window that ends. -/
def windowEqSnr (q : Pair) : Option Int :=
  if q.dsp.sq.isEmpty then none else some (slicerSnr q.dsp.sq.sum (64 * q.dsp.sq.length))

/-- The end of a partner window: FFE and DFE whose slicer SNR improved by less than 0.5 dB go to TRACKING (Table 6). -/
def partnerWindowEnd (before : Option Int) (q : Pair) : Pair :=
  match before, windowEqSnr q with
  | some b, some n => if n < b + 5 && q.freeze &&& 0x06 == 0 then { q with eqLevel := max 1 q.eqLevel } else q
  | _, _ => q

/-- Every part of every pair is out of ACQUISITION (R117, R121). -/
def outOfAcq (x : Port) : Bool :=
  (quadList x.pairs).all fun q => decide (1 ≤ adaptLevel q) &&
    q.slots.all fun o => match o with
      | some v => decide (1 ≤ v.level)
      | none => true

/-- A port at the end of the T1 window that runs: levels, figures to compare the next windows with, windows anew. -/
def trainingEnd (on : Nat → Bool) (x : Port) : Port :=
  let y :=
    if ownWindow x then
      { x with pairs := quadZip (ownWindowEnd on) x.start.ownRes x.pairs
               start := { x.start with ownRes := quadMap windowRes x.pairs } }
    else
      { x with pairs := quadZip partnerWindowEnd x.start.eqRes x.pairs
               start := { x.start with eqRes := quadMap windowEqSnr x.pairs } }
  { y with pairs := quadMap (fun q => { q with dsp := clearWindows q.dsp }) y.pairs }

/-- A T1 window boundary (R120, R121); a slave starts transmitting at window 2 (R67). -/
def execT1WindowStart (p : PortId) (s : State) : Host.Outcome State Fault Refusal :=
  .next <|
    let x := getPort s p
    if x.st == .t1 && herdsRun s then
      let x := trainingEnd (fun a => (aggrOf s (herdOf p) a).on) x
      let s := setPort s p x
      let w := x.start.window + 1
      let own := outOfAcq x
      let hist := ((x.start.tracking, own) :: x.start.history).take 16
      if (x.start.lastAt ≠ 0 && x.start.lastAt + 2 ≤ w) || 31 ≤ w then enterT2 s p
      else
        let master := x.role == some .master
        let mine := if master then w % 2 == 1 else w % 2 == 0
        let last := master && mine && x.start.lastAt == 0 && lastDue w hist
        let s := setPort s p { x with start := { x.start with
          window := w, history := hist, tracking := false, lastAt := if last then w else x.start.lastAt } }
        let s := if mine && w == 2 then surveyOthers s p else s
        if mine then sendTrain s p (trainWord 2 w false own last) 1970 else s
    else s

/-- T2_SNR in 0.1 dB (R122). -/
def t2Snr : LineMode → Int
  | .l100x => 165
  | _ => 190

/-- The T2 criteria (R122): locks, no part in ACQUISITION, four 1 ms intervals of slicer SNR. -/
def t2Met (x : Port) : Bool :=
  locksHeld x && outOfAcq x && (quadList x.pairs).all fun q =>
    decide (q.dsp.ms.length = 4) && q.dsp.ms.all (fun v => decide (t2Snr x.mode ≤ v)) &&
      decide (q.dsp.ms.getD 0 0 < q.dsp.ms.getD 3 0 + 2)

/-- The T2 criteria are met (R122, R123): T3, and the master's CAPS with a fresh generation. -/
def execT2CriteriaMet (p : PortId) (s : State) : Host.Outcome State Fault Refusal :=
  .next <|
    if !herdsRun s then s else
    let x := getPort s p
    if x.st == .t2 && t2Met x then
      let s := setSt s p .t3
      if x.role == some .master then
        let d := draw s
        sendCaps d.2 p (d.1.setWidth 32)
      else match x.caps with
        | some c => sendCaps s p c.gen
        | none => s
    else s

/-- 40 ms of T2 without the criteria (R122). -/
def execT2ConvergenceTimeout (p : PortId) (s : State) : Host.Outcome State Fault Refusal :=
  .next <| if herdsRun s && (getPort s p).st == .t2 then countedFail s p (some 0x09) true else s

/-- The CAPS exchange has not completed in time (R123). -/
def execT3CapsTimeout (p : PortId) (s : State) : Host.Outcome State Fault Refusal :=
  .next <| if herdsRun s && (getPort s p).st == .t3 then countedFail s p (some 0x0A) true else s

/-! ### Locks and losses (R42, R96, R126, R127, R132) -/

/-- Whether a port leads its herd's common loop (R55). -/
def leads (s : State) (p : PortId) : Bool :=
  (getHerd s (herdOf p)).lead == some ⟨p.val % 8, Nat.mod_lt _ (by decide)⟩

/-- A lead port that loses lock or signal detect starts a handover (R55); the lead does not move because of LPI (R57):
in REQUEST not once the partner's SLEEP slots have come. -/
def leadLoss (s : State) (p : PortId) (gained : Bool) : State :=
  let x := getPort s p
  if !gained && leads s p && (x.lpi.st == .active || x.lpi.st == .blocked || (x.lpi.st == .request &&
      !x.line.rxSleeping)) then handoverStart s (herdOf p) else s

def setLock (s : State) (p : PortId) (l : Locks) : State := modPort s p fun x => { x with lock := l }

/-- Whether the criteria of line LPI replace signal detect (R132, R210). -/
def lpiJudges (x : Port) : Bool := x.lpi.st == .quiet || x.lpi.st == .refresh || x.lpi.st == .wake

/-- Superframe lock of a pair (R42): lost when 8 consecutive frame pilots with sign 0 fail their check, which `failed`
counts. With all four pairs locked the next slot begins a superframe; a sleeping line keeps its count (R206). -/
def execSuperframeLockChange (p : PortId) (pair : PairId) (gained : Bool) (failed : Nat) (s : State) :
    Host.Outcome State Fault Refusal :=
  .next <|
    if !herdsRun s then s else
    let x := getPort s p
    let l := x.lock
    let keep := gained || (quadGet l.frame pair && decide (failed < 8))
    let l' := { l with frame := quadSet l.frame pair keep }
    let all := (quadList l'.frame).all id && !(quadList l.frame).all id
    let rx := if all && !(x.st == .up && lpiJudges x) then 0 else x.line.rxSlot
    let s := setPort s p { x with lock := l', line := { x.line with rxSlot := rx } }
    leadLoss s p keep

/-- Whether a line marker counts as found (R42): on at least three pairs with no more than three bit errors each. -/
def markerFound (errs : List Nat) : Bool := decide (3 ≤ ((errs.take 4).filter (· ≤ 3)).length)

/-- Whether the line is quiet by LPI, so that no marker comes (R206). -/
def lineSleeps (x : Port) : Bool := x.st == .up && (x.lpi.st == .quiet || x.lpi.st == .refresh)

/-- A marker's expected superframe has passed (R42): bit errors and deskew by pair. Found, it fixes the slot count and
the deskew; skew beyond R43 in T0 aborts the start (R119). Lock is lost after four consecutive periods without it. -/
def execMarkerLockChange (p : PortId) (errs skews : List Nat) (s : State) : Host.Outcome State Fault Refusal :=
  .next <|
    if !herdsRun s then s else
    let x := getPort s p
    let l := x.lock
    if !(quadList l.frame).all id then s
    else if markerFound errs then
      if x.st == .t0 && (skews.take 4).any (fun k => decide (64 < k)) then countedFail s p (some 0x08) true
      else
        let f := fun i => { quadGet x.pairs i with deskew := BitVec.ofNat 7 (skews.getD i.val 0) }
        setPort s p { x with
          lock := { l with marker := true, missed := 0 }
          line := { x.line with rxSlot := 32 * superSlots x.mode }
          pairs := ⟨f 0, f 1, f 2, f 3⟩ }
    else if lineSleeps x then s
    else setLock s p { l with missed := l.missed + 1, marker := l.marker && decide (l.missed + 1 < 4) }

/-- Timing lock (R96) from the rms and largest phase error over 4,096 symbols, in 0.001 UI. -/
def execTimingLockChange (p : PortId) (rms peak : Nat) (s : State) : Host.Outcome State Fault Refusal :=
  .next <|
    if !herdsRun s then s else
    let l := (getPort s p).lock
    let on := if 150 < rms || 500 < peak then false else if rms < 50 then true else l.timing
    leadLoss (setLock s p { l with timing := on }) p on

/-- Signal detect of a pair from the rms of its newest four blocks (R127). -/
def execSignalDetectChange (p : PortId) (pair : PairId) (s : State) : Host.Outcome State Fault Refusal :=
  .next <|
    if !herdsRun s then s else
    let l := (getPort s p).lock
    let far := (quadGet (getPort s p).pairs pair).far
    let was := quadGet l.signal pair
    let on := if decide (far.length = 4) && far.all (farAtLeast · 12) then true
      else if decide (far.length = 4) && far.all (!farAtLeast · 6) then false else was
    signalMove (leadLoss (setLock s p { l with signal := quadSet l.signal pair on }) p on) p was on

/-- Whether signal detect is present on all four pairs. -/
def allSignal (x : Port) : Bool := (quadList x.lock.signal).all id

/-- Signal absent on a pair for more than 200 µs (R126, R132); in T1 the port looks for it in the partner's windows
only. -/
def execSignalLossExpiry (p : PortId) (s : State) : Host.Outcome State Fault Refusal :=
  .next <|
    let x := getPort s p
    if allSignal x || !herdsRun s then s
    else match x.st with
      | .up => if lpiJudges x then s else linkDown s p 0x01
      | .t1 => if ownWindow x then s else enterT0 (abortTo s p 0x01 .t0) p true false
      | .t2 => enterT0 (abortTo s p 0x01 .t0) p true false
      | .t3 => enterT0 (abortTo s p 0x01 .t0) p true false
      | _ => s

/-- Timing lock lost and not regained within 100 µs with signal present (R132). -/
def execTimingLossExpiry (p : PortId) (s : State) : Host.Outcome State Fault Refusal :=
  .next <|
    let x := getPort s p
    if x.st == .up && allSignal x && !x.lock.timing && herdsRun s then linkDown s p 0x02 else s

/-- Superframe lock lost on a pair and not regained within 100 µs (R132). -/
def execFrameLossExpiry (p : PortId) (s : State) : Host.Outcome State Fault Refusal :=
  .next <|
    let x := getPort s p
    if x.st == .up && allSignal x && !(quadList x.lock.frame).all id && herdsRun s then linkDown s p 0x03 else s

/-! ### Herd timing (R55, R56) -/

/-- An event that triggers a handover (R55, R56); one during a handover restarts it. -/
def execHandoverTrigger (h : HerdId) (s : State) : Host.Outcome State Fault Refusal :=
  .next (if herdsRun s then handoverStart s h else s)

/-- A handover ends (R55): on the lowest-numbered port up and locked, or in HOLDOVER, where every bundle slot of the
herd is on the resampled path (R70). -/
def execHandoverDone (h : HerdId) (s : State) : Host.Outcome State Fault Refusal :=
  .next <|
    if !herdsRun s then s else
    let x := getHerd s h
    if x.timing == .handover then
      match nextLead s h with
      | some k =>
        tellTiming (setHerd s h { x with
          timing := .trunkSlave, lead := some k,
          handovers := if x.lead == some k then x.handovers else x.handovers + 1 }) h
      | none => repath (setHerd s h { x with timing := .holdover, lead := none }) h
    else s

/-- HOLDOVER lasts 1 s (R55); a trunk whose condition holds then forms anew. -/
def execHoldoverTimeout (h : HerdId) (s : State) : Host.Outcome State Fault Refusal :=
  .next <| if herdsRun s && (getHerd s h).timing == .holdover then formTrunk (dissolve s h) h else s

end Sys2Proof.Machine
end

