-- ==== Sys2Proof/Machine/Line.lean ====
section
/-!
DEFINITION. A port's line slots (02, R34 to R50) and the gearbox with its buffers between them and the host lane (06, R156
to R173). The verdict of an RS decoder and what a codeword carries are operands (log 3); the stages of Table 2 of FEC
Modes that pass a codeword through within the command that brings it hold nothing between commands (log 59).
-/

namespace Sys2Proof.Machine

/-! ### A port's slots -/

/-- The line registers at the start of a slot: at superframe 0 the PRBS11 generators are loaded (R41); at each
superframe 128q the pilot channel takes the next InfoField (R49). -/
def slotStart (x : Port) : LineIo :=
  let l := x.line
  let l := if l.slotNo = 0 then { l with prbs := prbsSeeds } else l
  if l.slotNo % (128 * superSlots x.mode) = 0 then
    { l with pilot := if x.st == .up && x.lock.marker then infoField x.info else 0 }
  else l

/-- A slot on the four pairs: their DAC codes and the registers after it (R206: they advance in QUIET as well). -/
def lineSlot (x : Port) (k : TxKind) : Quad (List Int) × LineIo :=
  let l := slotStart x
  let msg := fun sf => l.pilot.getLsbD (127 - sf % 128)
  let f := fun i => pairSlot x.mode (quadGet markers i) msg l.slotNo (slotBits (infoField x.info) k i) (quadGet l.scr i)
    (quadGet l.prbs i)
  let a := f 0
  let b := f 1
  let c := f 2
  let d := f 3
  (⟨a.1, b.1, c.1, d.1⟩,
   { l with scr := ⟨a.2.1, b.2.1, c.2.1, d.2.1⟩, prbs := ⟨a.2.2, b.2.2, c.2.2, d.2.2⟩,
            slotNo := (l.slotNo + 1) % 16384 })

/-- n symbols of the training signal on the four pairs (R116). -/
def trainSlot (x : Port) (word : BitVec 32) (n : Nat) : Quad (List Int) × LineIo :=
  let l := x.line
  let f := fun i => trainPair x.mode (quadGet markers i) word (l.slotNo * slotSymbols x.mode) n (quadGet l.scr i)
    (quadGet l.prbs i)
  let a := f 0
  let b := f 1
  let c := f 2
  let d := f 3
  (⟨a.1, b.1, c.1, d.1⟩,
   { l with scr := ⟨a.2.1, b.2.1, c.2.1, d.2.1⟩, prbs := ⟨a.2.2, b.2.2, c.2.2, d.2.2⟩,
            slotNo := (l.slotNo + 1) % 16384 })

/-- DAC codes leave a port: they are the reference of every canceller that removes it (R61, R62). -/
def pushCodes (x : Port) (codes : Quad (List Int)) : Port :=
  { x with pairs := quadZip (fun q c => { q with dsp := pushRef q.dsp c }) x.pairs codes }

/-! ### Counting (R229, R169, R162) -/

/-- Adds to a stored count of a pair. -/
def addErrs (q : Quad Pair) (i n : Nat) : Quad Pair :=
  let j : PairId := ⟨i % 4, Nat.mod_lt _ (by decide)⟩
  quadSet q j { quadGet q j with bitErrors := (quadGet q j).bitErrors + BitVec.ofNat 64 n }

/-- Bits compared and bit errors, in the counters and, in UP, in the histogram period (R229, R230). -/
def countBits (x : Port) (bits errs : Nat) : Port :=
  let y := statAdd (statAdd x 0x30 bits) 0x38 errs
  if x.st == .up then { y with period := (x.period.1 + bits, x.period.2.1 + errs, x.period.2.2) } else y

/-- An ordered set with known content (R229). -/
def countOrdered (x : Port) (errs : List Nat) : Port :=
  let y := countBits x 5440 ((errs.take 4).sum)
  { y with pairs := (errs.take 4).zipIdx.foldl (fun q e => addErrs q e.2 e.1) y.pairs }

/-- Bits that a correction changes. -/
def maskBits (m : BitVec 10) : Nat := (List.range 10).countP m.getLsbD

/-- A codeword the line decoder decoded (R229): corrected symbols with the bits that change. -/
def countGood (x : Port) (l : List (Fin 544 × BitVec 10)) : Port :=
  let y := countBits (statAdd x 0x10 1) 5440 ((l.map fun e => maskBits e.2).sum)
  let y := if l.isEmpty then y else statAdd (statAdd y 0x18 1) 0x28 l.length
  { y with pairs := l.foldl (fun q e => addErrs q e.1.val (maskBits e.2)) y.pairs,
           dp := { y.dp with uncorr := (false :: y.dp.uncorr).take 4096 } }

/-- An uncorrectable line codeword: LINE_CW_UNCORR, FEC_UNCORRECTABLE, and FEC_DEGRADED over 4,096 codewords (R132,
R169). -/
def countBad (s : State) (p : PortId) : State :=
  let s := modPort s p fun x =>
    let y := statAdd (statAdd x 0x10 1) 0x20 1
    { y with period := if x.st == .up then (x.period.1, x.period.2.1, x.period.2.2 + 1) else x.period,
             dp := { y.dp with uncorr := (true :: y.dp.uncorr).take 4096 } }
  let x := getPort s p
  let s := postLimited s (portSrc p 4) 0 [(8, 8, (statGet x 0x20).toNat)] (some 0) 1
  if x.st == .up && decide (livePar x 0x08 < x.dp.uncorr.count true) then linkDown s p 0x04 else s

/-- A pass-through slip (R162): PT_SLIP and a data-path fault. -/
def slip (s : State) (p : PortId) : State := raiseFault (modPort s p fun x => statAdd x 0x68 1) (4 * p.val) 0

/-! ### The host-in side (R157 to R164, R168, R171, R173, R204, R212, R217) -/

/-- Counts a host-in codeword; L25 without host FEC has no decoding (R158). -/
def countHost (x : Port) (v : Verdict) : Port :=
  if x.mode == .l25 && livePar x 0x21 = 0 then x
  else match v with
    | .ok l => if l.isEmpty then statAdd x 0x40 1 else statAdd (statAdd x 0x40 1) 0x48 1
    | .uncorrectable => statAdd (statAdd x 0x40 1) 0x50 1

/-- What a group counts as in the gearbox: in pass-through a codeword is idle only with a zero syndrome (R164), every
other one is forwarded bit for bit (R157); an uncorrectable one is never idle, nor a marker to remove (R168). -/
def groupKind (fec : BitVec 8) (cw : HostCw) : CwKind :=
  match cw.verdict with
  | .ok l => if fec = 0 && !l.isEmpty && cw.kind == .idle then .data else cw.kind
  | .uncorrectable => .data

/-- Whether a group is a wake trigger (R212): on a segmented port with AUTO_IDLE any group that is not idle, else any
that is not LPI; an alignment marker is no block of the stream. -/
def wakes (x : Port) (k : CwKind) : Bool :=
  match k with
  | .data => true
  | .marker => false
  | .lpi => false
  | .idle => !(x.fec = 1 && x.lpiCfg.autoIdle)

/-- The runs that R204's triggers watch. -/
def watch (x : Port) (k : CwKind) : Port :=
  match k with
  | .lpi => { x with dp := { x.dp with lpiRun := min 4 (x.dp.lpiRun + 1) } }
  | .idle => { x with dp := { x.dp with lpiRun := 0 } }
  | .marker => x
  | .data => { x with dp := { x.dp with lpiRun := 0, idleTimer := false } }

/-- A group enters a pass-through port's elastic stage of two codewords; when it is full the oldest is discarded
(R161, R162). In LPI only codewords with frame data do (R217). -/
def pushPass (s : State) (p : PortId) (cw : HostCw) : State :=
  let x := getPort s p
  if lpiHolds x && cw.kind != .data then s
  else if 2 ≤ x.dp.elastic.length then
    slip (setPort s p { x with dp := { x.dp with elastic := x.dp.elastic.drop 1 ++ [cw] } }) p
  else setPort s p { x with dp := { x.dp with elastic := x.dp.elastic ++ [cw] } }

/-- Groups that the host-to-line rate adapter and the 32 KiB wake buffer hold (Table 2 of FEC Modes). -/
def adapterRoom : Nat := 4
def wakeRoom : Nat := 32768 / groupBytes

/-- A group enters the wake buffer, which the adapter drains by deleting idle once the line is awake (R163, R173,
R217). -/
def pushWake (x : Port) (cw : HostCw) : Port :=
  if cw.kind == .idle && x.lpi.st != .wake then statAdd x 0x78 80
  else if wakeRoom ≤ x.dp.wake.length then x
  else { x with dp := { x.dp with wake := x.dp.wake ++ [cw] } }

/-- A group enters the host-to-line rate adapter, in which whole idle groups are inserted and deleted toward a fill of
two (R163). -/
def pushAdapter (x : Port) (cw : HostCw) : Port :=
  let n := x.dp.elastic.length
  let put := fun l => { x with dp := { x.dp with elastic := x.dp.elastic ++ l } }
  if cw.kind == .idle && decide (2 < n) then statAdd x 0x78 80
  else if cw.kind == .idle && decide (n < 2) then statAdd (put [cw, idleGroup]) 0x70 80
  else if adapterRoom ≤ n then x
  else put [cw]

/-- A group on the host-to-line path of a segmented port (R158, R163, R170, R173, R217): host alignment markers are
removed, a codeword that carries one whole: DESIGN CHOICE, log 59; all that arrives while the line wakes, or behind
what did, goes through the wake buffer. What finds no room is not accepted. -/
def pushSeg (x : Port) (cw : HostCw) : Port :=
  if cw.kind == .marker then x
  else if lpiHolds x && x.lpi.st != .wake && cw.kind != .data then x
  else if x.lpi.st == .wake || !x.dp.wake.isEmpty then pushWake x cw
  else pushAdapter x cw

/-- A host-in group as the gearbox takes it: plain blocks of L25 have no verdict (R158). -/
def hostGroup (x : Port) (cw : HostCw) : HostCw :=
  let cw := if x.fec = 1 && x.mode == .l25 && livePar x 0x21 = 0 then { cw with verdict := .ok [] } else cw
  { cw with kind := groupKind x.fec cw }

/-- A host-in codeword or block group in the data path (R157, R158); what the port does not carry shows no activity
(R368). -/
def hostIn (s : State) (p : PortId) (cw : HostCw) : State :=
  let x := getPort s p
  let cw := hostGroup x cw
  let x := watch (countHost x cw.verdict) cw.kind
  let x := if x.fec = 0 then { x with dp := { x.dp with hostPpm := cw.ppm } } else x
  let s := setPort s p x
  if !(x.st == .up || x.loop == .digital) || x.loop == .looping then s
  else
    let s := setPort s p { x with active := x.active || cw.kind == .data }
    let s := if wakes x cw.kind then wakeTrigger s p 1 else s
    let s := if x.line.infoLeft ≠ 0 then s
      else if x.fec = 0 then pushPass s p cw
      else setPort s p (pushSeg (getPort s p) cw)
    setPort s p (lpiTry (getPort s p))

/-- An elastic stage centred again (R161): one codeword, the newest it holds. DESIGN CHOICE, log 59. -/
def recentred (x : Port) : List HostCw := [(x.dp.elastic.getLast?).getD idleGroup]

/-- Host-in codeword lock (R161, R167): on gaining it the elastic stage of a pass-through port is centred, unless the
port returns its partner's stream. At its loss every stage keeps what it has accepted (R171): DEDUCED, log 27. -/
def execHostinCwLockChange (p : PortId) (gained : Bool) (s : State) : Host.Outcome State Fault Refusal :=
  .next <| if !herdsRun s then s else modPort s p fun x =>
    { x with dp := { x.dp with
        cwLock := gained, lpiRun := 0, idleTimer := false,
        elastic := if gained && x.fec = 0 && x.st == .up && x.loop != .looping then recentred x else x.dp.elastic } }

/-! ### Host-out (R156 to R158, R160, R163, R166 to R168, R190, R195, R198) -/

/-- Inverts the first n bits of a codeword, b0 of its first symbol first (R196). -/
def flipSymbols (n : Nat) (l : List (BitVec 10)) : List (BitVec 10) :=
  l.zipIdx.map fun e => e.1 ^^^ BitVec.ofNat 10 (2 ^ min 10 (n - 10 * e.2) - 1)

/-- A codeword's worth of stream on host-out: not while the lane trains or a far-end loopback resends the ASIC's
symbols; the pattern in its place while the generator runs (R171, R195, R198); LIVE injection inverts its bits (R196).
A near-end loopback takes it into host-in. -/
def hostOut (s : State) (p : PortId) (what : String) (kind : CwKind) (syms : List (BitVec 10)) : State :=
  let x := getPort s p
  let s := setPort s p { x with dp := { x.dp with outNo := x.dp.outNo + 1, lastOut := syms } }
  if !laneSends x.lane || x.loop == .far then s
  else if x.lane.gen ≠ 0 then emitPattern s p
  else
    let n := if x.lane.live then x.lane.flips else 0
    let out := flipSymbols n syms
    let s := emit (modPort s p fun y => { y with lane := { y.lane with flips := y.lane.flips - n } }) (.hostOut p what out)
    let s := nearBits s p (out.flatMap fun v => (List.range 10).map v.getLsbD)
    if x.loop == .near && x.dp.cwLock then hostIn s p { verdict := .ok [], kind := kind, symbols := out,
                                                        ppm := 0 } else s

/-- What a port's host-out carries. -/
inductive HostOutSignal where
  | electricalIdle
  /-- DETECT: a probe for termination every 100 µs, otherwise electrical idle. -/
  | probe
  | training
  /-- The ASIC's own symbols, in a far-end loopback. -/
  | asicSymbols
  | pattern
  | localFault
  | lineStream
  deriving DecidableEq, Repr

/-- Whether the host lanes are held as in reset: until boot step 10, in POST hold and in Ibex (R167, R492, R524). -/
def inReset (s : State) : Bool :=
  match s.pwr.st with
  | .inPorst => true
  | .inSysrst => true
  | .boot n _ => decide (n ≤ 10)
  | .postHold => true
  | .ibex => true
  | _ => false

/-- The signal on a port's host-out (R167, R179 Table 2, R192, R195, R198): Local Fault while the port is not UP, but
for the lane's own signals. Log 52. -/
def hostOutNow (s : State) (p : PortId) : HostOutSignal :=
  let x := getPort s p
  if heldByFixed s || inReset s then .electricalIdle
  else match x.lane.st with
    | .idle => .electricalIdle
    | .detect => .probe
    | .train | .lock | .ready => .training
    | .blind | .active | .hold =>
      if x.loop == .far then .asicSymbols
      else if x.lane.gen ≠ 0 then .pattern
      else if x.st == .up then .lineStream
      else .localFault

/-- A group as the host encoder of a segmented port puts it out (R156, R158, R168). -/
def segOut (s : State) (p : PortId) (g : HostCw) : State :=
  let x := getPort s p
  let code := fun k => Config.hostCode (modeCode x.mode) (livePar x 0x21) x.dp.outNo k g.symbols
  match g.verdict, g.kind with
  | .uncorrectable, _ => hostOut s p "error" .data (code 3)
  | .ok _, .idle => hostOut s p "idle" .idle (code 1)
  | .ok _, .lpi => hostOut s p "lpi" .lpi (code 2)
  | .ok _, k => hostOut s p "codeword" k (code 0)

/-- Takes the oldest group of the line-to-host adapter; with none there it inserts 80 idle blocks (R163). -/
def adapterOut (s : State) (p : PortId) : State :=
  let x := getPort s p
  match x.dp.toHost with
  | g :: l => segOut (setPort s p { x with dp := { x.dp with toHost := l } }) p g
  | [] => segOut (setPort s p (statAdd x 0x70 80)) p idleGroup

/-- n groups leave the line-to-host adapter. -/
def adapterRun : Nat → State → PortId → State
  | 0, s, _ => s
  | n + 1, s, p => adapterRun n (adapterOut s p) p

/-- The line-to-host adapter takes a group (R163): idle is inserted or deleted toward a fill of two. -/
def adapterIn (x : Port) (g : HostCw) : Port :=
  let n := x.dp.toHost.length
  let put := fun l => { x with dp := { x.dp with toHost := x.dp.toHost ++ l } }
  if g.kind == .idle && decide (2 < n) then statAdd x 0x78 80
  else if g.kind == .idle && decide (n < 2) then statAdd (put [g, idleGroup]) 0x70 80
  else put [g]

/-- Groups that leave in the time of one received slot: host-out runs on REFCLK, the line at its own frequency, so one
fewer or one more each time they have drifted apart by a slot (R163); one more as well when the adapter's four are
full. -/
def adapterDue (x : Port) : Nat × Int :=
  let slot : Int := slotSymbols x.mode * 4194304
  let ph := x.dp.outPhase + x.freqWord.toInt * slotSymbols x.mode / 64
  let n := if slot ≤ ph then 0 else if ph ≤ -slot then 2 else 1
  let ph := if slot ≤ ph then ph - slot else if ph ≤ -slot then ph + slot else ph
  (if 4 < x.dp.toHost.length then max n (x.dp.toHost.length - 4) else n, ph)

/-- A group goes through the line-to-host adapter of a segmented port (R158, R163). -/
def adapterStep (s : State) (p : PortId) (g : HostCw) : State :=
  let x := adapterIn (getPort s p) g
  let d := adapterDue x
  adapterRun d.1 (setPort s p { x with dp := { x.dp with outPhase := d.2 } }) p

/-- A codeword towards the host (R157, R158, R168): on a pass-through port bit for bit. -/
def deliver (s : State) (p : PortId) (cw : HostCw) : State :=
  let x := getPort s p
  if x.st == .up then
    let s := modPort s p fun y => { y with active := y.active || cw.kind == .data }
    if x.fec = 0 then hostOut s p "codeword" cw.kind cw.symbols else adapterStep s p cw
  else s

/-- What the gearbox delivers for a slot without a codeword (R166, R216): LPI when the last slot before the partner's
SLEEP carried it, else idle. -/
def gapLpi (x : Port) : Bool := x.line.rxSleeping && x.line.lastCwLpi

/-- One codeword's worth of idle or LPI into the host stream (R166, R216): rebuilt on a pass-through port, 80 control
blocks through the adapter on a segmented one. -/
def gapOut (s : State) (p : PortId) : State :=
  let x := getPort s p
  let k : CwKind := if gapLpi x then .lpi else .idle
  if x.fec = 0 then hostOut s p (if gapLpi x then "lpi" else "idle") k (Config.idleCode (gapLpi x) x.dp.outNo x.dp.lastOut)
  else adapterStep s p { idleGroup with kind := k }

/-- Whether the gearbox delivers without a slot from the line (R160, R216): its own slot time then paces host-out. -/
def lineAlone (x : Port) : Bool := x.lpi.st == .quiet || ((lpiJudges x || x.lpi.st == .request) && !anySignal x)

/-! ### The receiver (R42 to R46, R77, R164 to R168, R216) -/

/-- The gain control of a stretch (R74): in T1 partner windows and T2 the analog gain, 0 dB to +18 dB in steps of 0.5
dB; from T3 on it is held and a digital gain within ±2 dB trims the samples. A frozen pair keeps its gain (R84). -/
def gainStep (e : RxEnv) (agc : List (BitVec 8)) (x : Port) : Port :=
  let f := fun i =>
    let q := quadGet x.pairs i
    match agc[i.val]? with
    | none => q
    | some g =>
      if pairHeld e q then q
      else if (x.st == .t1 && e.phase == .partner) || x.st == .t2 then { q with analogGain := if g.toNat ≤ 36 then g else 36 }
      else if x.st == .t3 || x.st == .springbok || x.st == .up then
        { q with digitalGain := BitVec.ofInt 8 (max (-20) (min 20 g.toInt)) }
      else q
  { x with pairs := ⟨f 0, f 1, f 2, f 3⟩ }

/-- A pair's share of a slot from its decisions: hard bits, through the inner decoder in L100X (R77), descrambled
(R37); the descrambler after it; blocks corrected and uncorrectable. -/
def pairShareIn (m : LineMode) (l : List Dec) (r : BitVec 58) : List Bool × BitVec 58 × Nat × Nat :=
  match m with
  | .l100x =>
    let b := innerRun 10 (l.flatMap softBits)
    let t := descramble (b.flatMap (·.data)) r
    (t.1, t.2, b.countP (·.fixed), b.countP fun v => !v.good)
  | _ =>
    let t := descramble (l.flatMap fun d => levelBits d.sym.level) r
    (t.1, t.2, 0, 0)

/-- The count of received SLEEP slots (R205) and what the partner's sleep makes the gearbox deliver (R216). -/
def sleepCount (x : Port) (cls : Option (BitVec 16)) (kind : CwKind) : Port :=
  let l := x.line
  if cls == some codeSleep then { x with line := { l with sleepRx := min 8 (l.sleepRx + 1), rxSleeping := true } }
  else match cls with
    | none => { x with line := { l with sleepRx := 0, rxSleeping := false, lastCwLpi := kind == .lpi } }
    | some _ => { x with line := { l with sleepRx := 0, lastCwLpi := l.rxSleeping && l.lastCwLpi } }

/-- A line codeword after its decoder (R157, R158): on a pass-through port as received, on a segmented one corrected,
or all error blocks (R168). -/
def lineGroup (fec : BitVec 8) (v : Verdict) (kind : CwKind) (syms : List (BitVec 10)) : HostCw :=
  match v with
  | .uncorrectable => { verdict := v, kind := .data, symbols := syms, ppm := 0 }
  | .ok l =>
    { verdict := .ok [], kind := kind, ppm := 0
      symbols := if fec = 0 then syms
        else l.foldl (fun t e => t.set e.1.val (t.getD e.1.val 0 ^^^ e.2)) syms }

/-- The looping end sends every line codeword it receives back onto the line (R200); its stage has the room of Table 2
of FEC Modes. -/
def loopBack (s : State) (p : PortId) (cw : HostCw) : State :=
  modPort s p fun x =>
    if x.loop == .looping && decide (x.dp.looped.length < if x.fec = 0 then 2 else adapterRoom) then
      { x with dp := { x.dp with looped := x.dp.looped ++ [cw] } }
    else x

/-- A slot of the framed format (R46): classed, counted and forwarded. `shares` are the pairs' descrambled bits. -/
def frameSlot (s : State) (p : PortId) (shares : Quad (List Bool)) (slot : RxSlot) : State :=
  let x := getPort s p
  let l := quadList shares
  let cls := slotClass (l.flatMap leadWords)
  let s := setPort s p (sleepCount x cls slot.kind)
  let s := lpiReceive s p cls
  let pace := fun s => if x.st == .up && !lineAlone x then gapOut s p else s
  match cls with
  | none =>
    let cw := lineGroup x.fec slot.verdict slot.kind (rsSymbols (quadGet shares))
    let s := loopBack (deliver s p cw) p cw
    match slot.verdict with
    | .ok e => setPort s p (countGood (getPort s p) e)
    | .uncorrectable => countBad s p
  | some c =>
    if c == codeInfo then
      let d := freeNat s
      infoReceived (pace d.2) p (majority (l.flatMap infoCopies) d.1)
    else
      let errs := (List.finRange 4).map fun i => bitDiff (quadGet shares i) (slotBits 0 (.ordered c) i)
      pace (setPort s p (countOrdered (getPort s p) errs))

/-- A pair's decisions of a stretch, held back by its deskew (R43): what came before the first decision ever is level
−3. -/
def deskewed (q : Pair) (l : List Dec) : List Dec :=
  let none_ : Dec := { y := 0, sym := { err := 0, level := -3, pilot := false } }
  ((List.replicate 64 none_ ++ q.dsp.recent ++ l).drop (64 + q.dsp.recent.length - q.deskew.toNat)).take l.length

/-- The receiver over a slot's time (R59): the state after it and each pair's decisions. The slot count of a sleeping
line runs on by itself (R206); a lead drives the common loop (R55). -/
def rxStretch (s : State) (p : PortId) (ph : RxPhase) (slot : RxSlot) : State × Quad (List Dec) :=
  let locked := (quadList (getPort s p).lock.frame).all id
  let s := adcGap s p
  let x := getPort s p
  let at_ := x.line.rxSlot * slotSymbols x.mode
  let n := min (slotSymbols x.mode) ((slot.samples.headD []).length / 2)
  let t := receiveRun s p ph (fun k => locked && (at_ + k) % 256 == 0) (quadOf [] slot.samples) n
  let y := gainStep (rxEnv s p ph) slot.agc t.1
  let quiet := x.st == .up && x.lpi.st == .quiet
  let y := if quiet then y else { y with line := { y.line with rxSlot := (y.line.rxSlot + 1) % 16384 } }
  let s := if freqRole s p == .lead then modHerd s (herdOf p) fun z => { z with loopFreq := y.freqWord } else s
  let f := fun i => deskewed (quadGet x.pairs i) (quadGet t.2 i)
  (setPort s p y, ⟨f 0, f 1, f 2, f 3⟩)

/-- The pairs' shares of a slot from its decisions, and the inner decoder's counts (R37, R77, R78). -/
def rxShares (s : State) (p : PortId) (l : Quad (List Dec)) : State × Quad (List Bool) :=
  let y := getPort s p
  let u := quadZip (pairShareIn y.mode) l y.line.descr
  let y := { y with line := { y.line with descr := quadMap (fun v => v.2.1) u } }
  let fixed := ((quadList u).map fun v => v.2.2.1).sum
  let bad := ((quadList u).map fun v => v.2.2.2).sum
  (setPort s p (statAdd (statAdd y 0x58 fixed) 0x60 bad), quadMap (fun v => v.1) u)

/-- Whether a slot's time is a slot of the framed format: with superframe lock, which a sleeping line keeps by its
counters (R42, R206). -/
def slotFramed (x : Port) : Bool :=
  infoOpen x && ((quadList x.lock.frame).all id || (x.st == .up && lpiJudges x))

/-- A slot's time on the line (R46, R59): cancelled, equalised and decided on the four pairs, then a slot; signal
detect and the observation path take the samples in every port state (R127, R246). -/
def execLineSlotReceived (p : PortId) (slot : RxSlot) (s : State) : Host.Outcome State Fault Refusal :=
  .next <|
    let x := getPort s p
    match rxPhase x with
    | none =>
      let s := obsRx s p slot.samples
      if !lineClocked s p then s
      else modPort s p fun y => { y with pairs := quadZip farQuiet (quadOf [] slot.samples) y.pairs }
    | some ph =>
      if !lineClocked s p then s
      else
        let t := rxStretch (obsRx s p slot.samples) p ph slot
        if !slotFramed x then t.1
        else
          let u := rxShares t.1 p t.2
          frameSlot u.1 p u.2 slot

/-- A host-in codeword or block group (R157): in a near-end loopback the receive pins are ignored, in a far-end loopback
host-out carries what they bring while the lane has lock (R198). -/
def execHostCodewordReceived (p : PortId) (cw : HostCw) (s : State) : Host.Outcome State Fault Refusal :=
  .next <|
    let x := getPort s p
    if x.lane.st == .idle || x.loop == .near || !herdsRun s then s
    else
      let s := if x.loop == .far && x.lane.locked then emit s (.hostOut p "host-in" cw.symbols) else s
      if x.dp.cwLock then hostIn s p cw else s

/-! ### The transmitter -/

/-- The symbols of a codeword that IEEE 802.3 fixes. -/
def stdWord (k : Nat) : List (BitVec 10) := (List.range 544).map (Config.stdSymbol k)

/-- A group's corrected symbols. -/
def correctedSyms (cw : HostCw) : List (BitVec 10) :=
  match cw.verdict with
  | .ok l => l.foldl (fun t e => t.set e.1.val (t.getD e.1.val 0 ^^^ e.2)) cw.symbols
  | .uncorrectable => cw.symbols

/-- The symbols a held group has on the line (R157, R158, R168): as received in pass-through; encoded anew on a
segmented port, or a codeword of error blocks. -/
def lineSymbols (x : Port) (cw : HostCw) : List (BitVec 10) :=
  if x.fec = 0 then cw.symbols
  else if cw.verdict == .uncorrectable then stdWord 1
  else Config.lineCode (modeCode x.mode) (livePar x 0x21) (correctedSyms cw)

/-- A slot that would carry IDLE carries INFO when a message is pending, and, from the first symbol of T3 or of a
Springbok start, until the first message (R50, R123, R165). -/
def idleOrInfo (x : Port) : TxKind :=
  if x.info.current.isSome || (x.info.seq == 0 && (x.st == .t3 || x.st == .springbok)) then .info else .ordered codeIdle

/-- A slot leaves the port's own stages: the adapter takes the next group of the wake buffer (R173). -/
def takeOwn (x : Port) : Option (HostCw × Port) :=
  match x.dp.elastic ++ x.dp.wake with
  | [] => none
  | cw :: _ =>
    some (cw, { x with dp := { x.dp with
      elastic := x.dp.elastic.drop 1 ++ x.dp.wake.take 1, wake := x.dp.wake.drop 1 } })

/-- A codeword leaves the stage of a loop (R200): it goes back bit for bit. -/
def takeLooped (x : Port) : Option (HostCw × Port) :=
  match x.dp.looped with
  | [] => none
  | cw :: l => some (cw, { x with dp := { x.dp with looped := l } })

/-- A slot leaves a stage: what it carries and the stages after it; none when they have nothing (R164). What was
accepted before a loop began, or before it ended, goes first (R171). -/
def takeGroup (x : Port) (gap : TxKind) : Option (TxKind × Port) :=
  let own := (takeOwn x).map fun t => (if t.1.kind == .idle then gap else .cw (lineSymbols x t.1), t.2)
  let back := (takeLooped x).map fun t => (TxKind.cw t.1.symbols, t.2)
  if x.loop == .looping then own <|> back else back <|> own

/-- The next slot of a port in normal service or REQUEST (R162, R164, R165, R167, R202). -/
def serviceSlot (s : State) (p : PortId) : State × TxKind :=
  let x := getPort s p
  let gap := if x.lpi.st == .request then .ordered codeSleep else idleOrInfo x
  if x.line.infoLeft ≠ 0 then (setPort s p { x with line := { x.line with infoLeft := x.line.infoLeft - 1 } }, .info)
  else if !x.dp.cwLock && x.loop != .looping then (s, .cw (stdWord 0))
  else match takeGroup x gap with
    | some t => (setPort s p t.2, t.1)
    | none =>
      if x.fec = 0 && x.st == .up && x.lpi.st != .request && x.loop != .looping then (slip s p, gap) else (s, gap)

/-- The quiet condition (R205), judged at a superframe boundary. -/
def quietDue (x : Port) : Bool :=
  x.st == .up && x.lpi.st == .request && decide (8 ≤ x.line.sleepTx) && decide (8 ≤ x.line.sleepRx) && atSuperframe x &&
    (x.role == some .master || !anySignal x)

/-- Whether a slot is a gap that background calibration may use (R443, Table 1). -/
def isGap (k : TxKind) : Bool := k == .info || k == .ordered codeIdle || k == .ordered codeSleep

/-- Background calibration in a gap: which gap completes a step is left to the device, a free value (R176, R443). -/
def gapStep (s : State) (p : PortId) (k : TxKind) : State :=
  if isGap k && calRuns s p && (getPort s p).lpi.st != .refresh then
    let d := freeNat s
    if d.1 % 2 = 1 then calGap d.2 p else d.2
  else s

/-- What the next slot carries (Table 5, R123, R164, R202), and the state with the content taken. -/
def slotContent (s : State) (p : PortId) : State × TxKind :=
  let x := getPort s p
  if x.st != .up then (s, if x.st == .t2 then .ordered codeIdle else idleOrInfo x)
  else match x.lpi.st with
    | .refresh => (s, .ordered codeSleep)
    | .wake => if x.line.alertLeft ≠ 0 then (s, .ordered codeAlert) else (s, idleOrInfo x)
    | _ => serviceSlot s p

/-- Counts the SLEEP and ALERT slots sent; a wake from REFRESH of the port's own ends with its ALERT run (R205, R213,
R214). -/
def slotSent (s : State) (p : PortId) (k : TxKind) : State :=
  let x := getPort s p
  let x := { x with line := { x.line with
    sleepTx := if k = .ordered codeSleep then min 8 (x.line.sleepTx + 1) else 0
    alertLeft := if k = .ordered codeAlert then x.line.alertLeft - 1 else x.line.alertLeft } }
  let s := setPort s p x
  if x.st == .up && x.lpi.st == .wake && x.line.wakeGo && decide (x.line.alertLeft = 0) then wakeInstant s p else s

/-- DAC samples of a slot on the four pairs, with the observation path on its transmit stream (R40, R246). -/
def driveLine (s : State) (p : PortId) (codes : Quad (List Int)) : State :=
  obsTx (emit s (.slot p (quadMap dacSamples codes))) p (quadMap dacSamples codes)

/-- A slot's time of a T0 burst, reply or T1 window (R116). -/
def sendTraining (s : State) (p : PortId) (word : BitVec 32) (left : Nat) : State :=
  let x := getPort s p
  let n := min left (slotSymbols x.mode)
  let u := trainSlot x word n
  let line := { u.2 with train := if left ≤ n then none else some (word, left - n) }
  driveLine (setPort s p (pushCodes { x with line := line } u.1)) p u.1

/-- A slot's time of QUIET (R206, R216): nothing is sent, the counters of both directions advance as for IDLE slots,
and the gearbox goes on delivering idle or LPI to the host. -/
def quietSlot (s : State) (p : PortId) : State :=
  let x := getPort s p
  let l := (lineSlot x (.ordered codeIdle)).2
  let y := pushCodes { x with line := { l with rxSlot := (l.rxSlot + 1) % 16384 } }
    (Quad.all (List.replicate (slotSymbols x.mode) 0))
  gapOut (obsTx (setPort s p y) p (Quad.all (List.replicate (2 * slotSymbols x.mode) 0))) p

/-- A slot of the framed format on the line (R34, R164). -/
def sendFrame (s : State) (p : PortId) : State :=
  let t := slotContent s p
  let y := getPort t.1 p
  let u := lineSlot y t.2
  let s := driveLine (setPort t.1 p (pushCodes { y with line := u.2 } u.1)) p u.1
  let s := if y.st == .up && lineAlone y then gapOut s p else s
  gapStep (slotSent s p t.2) p t.2

/-- A slot that turns in a line digital loopback (R198): mapper output into the demapper, the line pairs quiet. The line
decoder counts it; host-out carries Local Fault, the port not being UP (R167). -/
def turnSlot (s : State) (p : PortId) : State :=
  let t := serviceSlot s p
  let y := getPort t.1 p
  let y := { y with line := (lineSlot y t.2).2 }
  match t.2 with
  | .cw _ => setPort t.1 p (countGood y [])
  | .ordered _ => setPort t.1 p (countOrdered y [0, 0, 0, 0])
  | .info => setPort t.1 p y

/-- The next slot's time of a port's transmitter (R34, R116, R164, R206). -/
def execLineSlotTransmit (p : PortId) (s : State) : Host.Outcome State Fault Refusal :=
  .next <|
    let x := getPort s p
    if !lineClocked s p then s
    else if x.loop == .digital then turnSlot s p
    else match x.line.train with
      | some t => sendTraining s p t.1 t.2
      | none =>
        if !x.line.on || !infoOpen x then s
        else
          let s := if quietDue x then enterQuiet s p else s
          if (getPort s p).st == .up && (getPort s p).lpi.st == .quiet then quietSlot s p else sendFrame s p

end Sys2Proof.Machine
end

