-- ==== Sys2Proof/Machine/Adapt.lean ====
section
/-!
DEFINITION. Bundle surveys, changes of adaptation level and the wander guard (03, R66 to R72, R82 to R93).
-/

namespace Sys2Proof.Machine

/-- Whether an aggressor's transmitter sends (R66, R69). -/
def aggrSends (s : State) (p : PortId) (a : Nat) : Bool := sends (getPort s (aggrPort (herdOf p) a))

/-- The couplings of a survey that may take a slot (R66): pairs of other ports of the herd whose transmitter is on. -/
def candidates (s : State) (p : PortId) (l : List (Fin 2048 × Int)) : List (Nat × Int) :=
  (l.filter fun e => e.1.val / 32 == (herdOf p).val && e.1.val / 4 != p.val && aggrSends s p e.1.val).map fun e =>
    (e.1.val, e.2)

/-- Strongest first; equal couplings keep the survey's order. -/
def insertStrong (e : Nat × Int) : List (Nat × Int) → List (Nat × Int)
  | [] => [e]
  | f :: l => if f.2 < e.2 then e :: f :: l else f :: insertStrong e l

/-- Couplings in order of strength. -/
def byStrength (l : List (Nat × Int)) : List (Nat × Int) := l.foldl (fun acc e => insertStrong e acc) []

/-- A slot with a new aggressor, in ACQUISITION (R68). -/
def newSlot (s : State) (p : PortId) (e : Nat × Int) : Slot :=
  { aggressor := e.1, coupling := some e.2, level := 0, resampled := !fullDepth s p (aggrPort (herdOf p) e.1),
    phase := 0,
    blocks := [] }

/-- An assigned slot after a survey (R66, R69): its aggressor's new coupling, absent where the aggressor does not
send. A later survey that reports none of one that sends leaves the old: DESIGN CHOICE, log 57. -/
def resurvey (s : State) (p : PortId) (cands : List (Nat × Int)) (v : Slot) : Slot :=
  { v with coupling :=
      if aggrSends s p v.aggressor then
        ((cands.find? fun e => e.1 == v.aggressor).map fun e => some e.2).getD v.coupling
      else none }

/-- The slots of a first survey (R68): an aggressor already assigned keeps its slot, as does one that does not send
(R69); the others fill in order of strength; what is left stays empty. -/
def assignFirst (s : State) (p : PortId) (best : List (Nat × Int)) : List (Option Slot) → List (Nat × Int) →
    List (Option Slot)
  | [], _ => []
  | o :: l, new =>
    match o.filter fun v => (best.any fun e => e.1 == v.aggressor) || !aggrSends s p v.aggressor with
    | some v => some (resurvey s p best v) :: assignFirst s p best l new
    | none =>
      match new with
      | e :: rest => some (newSlot s p e) :: assignFirst s p best l rest
      | [] => none :: assignFirst s p best l []

/-- The position of the weakest assigned slot whose coupling is known; the lowest of equals: DESIGN CHOICE, log 57. -/
def weakest (l : List (Option Slot)) : Option (Nat × Int) :=
  l.zipIdx.foldl (fun m e => match e.1.bind (·.coupling), m with
    | some v, none => some (e.2, v)
    | some v, some w => if v < w.2 then some (e.2, v) else m
    | none, _ => m) none

/-- A later survey changes at most one slot (R68): the strongest candidate that exceeds the weakest assigned aggressor
by 3 dB fills an empty slot or takes the weakest's. With no aggressor assigned it must exceed −60 dB: DESIGN CHOICE,
log 57. -/
def assignLater (s : State) (p : PortId) (slots : List (Option Slot)) (cands : List (Nat × Int)) : List (Option Slot) :=
  let slots := slots.map fun o => o.map (resurvey s p cands)
  match (byStrength (cands.filter fun e => !slots.any fun o => (o.map (·.aggressor)) == some e.1)).head? with
  | none => slots
  | some e =>
    let strong := match weakest slots with
      | some w => decide (w.2 + 30 ≤ e.2)
      | none => decide (-600 < e.2)
    if !strong then slots
    else match slots.findIdx? (·.isNone), weakest slots with
      | some k, _ => slots.set k (some (newSlot s p e))
      | none, some w => slots.set w.1 (some (newSlot s p e))
      | none, none => slots

/-- Coefficients after slots changed: a slot with a new aggressor starts from zero. -/
def slotCoefs (old new : List (Option Slot)) (t : Tab (BitVec 32)) : Tab (BitVec 32) :=
  (List.range 6).foldl (fun t k =>
    if ((old.getD k none).map (·.aggressor)) == ((new.getD k none).map (·.aggressor)) then t else zeroSlot t k) t

/-- A pair's survey ends (R68); couplings are in 0.1 dB by line pair number. -/
def execBundleSurveyDone (p : PortId) (pair : PairId) (couplings : List (Fin 2048 × Int)) (s : State) :
    Host.Outcome State Fault Refusal :=
  .next <|
    if !herdsRun s then s else
    let x := getPort s p
    match quadGet x.survey pair with
    | none => s
    | some first =>
      let q := quadGet x.pairs pair
      let cands := candidates s p couplings
      let best := (byStrength (cands.filter fun e => decide (-600 < e.2))).take 6
      let new := best.filter fun e => !q.slots.any fun o => (o.map (·.aggressor)) == some e.1
      let slots := if first then assignFirst s p best q.slots new else assignLater s p q.slots cands
      setPort s p { x with
        survey := quadSet x.survey pair none
        pairs := quadSet x.pairs pair { q with slots := slots, coef := slotCoefs q.slots slots q.coef } }

/-- BUNDLE_RESURVEY elapses while the port is up (R67). -/
def execBundleResurveyExpiry (p : PortId) (s : State) : Host.Outcome State Fault Refusal :=
  .next <|
    let x := getPort s p
    if x.st == .up && livePar x 0x12 != 0 && herdsRun s then
      setPort s p { x with survey := quadMap (fun o => some (o.getD false)) x.survey }
    else s

/-- A pair's parts at a level go to the next; a slot whose aggressor does not send keeps its level (R69), and so does a
frozen pair (R84). -/
def liftPair (s : State) (p : PortId) (from_ : Nat) (q : Pair) : Pair :=
  let up := fun n => if n = from_ then from_ + 1 else n
  if freezeBits s p q != 0 then q
  else
    { q with canLevel := up q.canLevel, eqLevel := up q.eqLevel,
             slots := q.slots.map fun o => o.map fun v =>
               { v with level := if aggrSends s p v.aggressor then up v.level else v.level } }

/-- 10 ms into T2, and for a part that starts later: parts still in ACQUISITION go to TRACKING (R82, Table 6). -/
def execAdaptAcqTimeout (p : PortId) (s : State) : Host.Outcome State Fault Refusal :=
  .next <|
    let x := getPort s p
    if adapts x && x.st != .t1 && herdsRun s then setPort s p { x with pairs := quadMap (liftPair s p 0) x.pairs } else s

/-- Whether a pair's slicer SNR has been within ±0.3 dB of its running mean for 100 ms (R82). -/
def stable (m : LineMode) (d : PairDsp) : Bool :=
  match meanSnr d with
  | some v => decide (windowsPer100ms m ≤ d.means.length) && d.means.all fun n => decide ((n - v).natAbs ≤ 3)
  | none => false

/-- A pair whose slicer SNR has been stable for 100 ms in UP moves to FINE (R82); a frozen pair holds its level (R84).
-/
def execAdaptFineEntry (p : PortId) (pair : PairId) (s : State) : Host.Outcome State Fault Refusal :=
  .next <|
    let x := getPort s p
    let q := quadGet x.pairs pair
    if x.st == .up && stable x.mode q.dsp && herdsRun s then
      setPort s p { x with pairs := quadSet x.pairs pair (liftPair s p 1 q) }
    else s

/-- Whether a herd's controller can take snapshots and checks: it runs and does not restart. -/
def controllerRuns (s : State) (h : HerdId) : Bool :=
  herdsRun s && (getHerd s h).st != .fwRestart && s.sec.jtag != some (.lineScan h)

/-- Whether any pair of a port is frozen (R84). -/
def frozen (s : State) (p : PortId) : Bool := (quadList (getPort s p).pairs).any fun q => freezeBits s p q != 0

/-- The herd controller takes or replaces a snapshot (R87, R88), at most once per SNAPSHOT_INTERVAL. -/
def execWanderSnapshot (p : PortId) (s : State) : Host.Outcome State Fault Refusal :=
  .next <| if !herdsRun s then s else
    let x := getPort s p
    let fine := (quadList x.pairs).all fun q => adaptLevel q == 2
    let ok := match x.wander.snap with
      | none => true
      | some c => !frozen s p && decide (x.wander.snapAt + livePar x 0x16 * 1000000 ≤ s.mono) &&
          (quadList (quadZip (fun q m => decide ((m : BitVec 16).toInt ≤ (q : Pair).margin.toInt)) x.pairs c.marg)).all id
    if x.st == .up && fine && ok && controllerRuns s (herdOf p) then
      setPort s p { x with wander := { x.wander with snap := some (liveCoefs x), snapAt := s.mono } }
    else s

/-- A pair after a revert (R90): the snapshot's coefficients and gain; a slot whose aggressor differs keeps its live
ones; everything to TRACKING. -/
def revertPair (q : Pair) (coef : Tab (BitVec 32)) (gain : BitVec 8) (slots : List (Option Slot)) : Pair :=
  let same := fun k => ((q.slots.getD k none).map (·.aggressor)) == ((slots.getD k none).map (·.aggressor))
  let live := fun off => (List.range 6).any fun k => inSlot k off && !same k
  let base := coef.filter fun e => !live e.1
  { q with
    coef := (q.coef.filter fun e => live e.1).foldl (fun t e => tabSet t e.1 e.2) base
    digitalGain := gain, canLevel := 1, eqLevel := 1
    slots := q.slots.zipIdx.map fun e => e.1.map fun v => { v with level := if same e.2 then 1 else min 1 v.level } }

/-- Byte offsets of the coefficients that the distance of R89 sums over: echo, NEXT, FFE, and the bundle slots whose
aggressor matches the snapshot. -/
def distIncludes (q : Pair) (slots : List (Option Slot)) (off : Nat) : Bool :=
  decide (off < 0x38E0) || (decide (ffeBase ≤ off) && decide (off < dfeOff)) ||
    (List.range 6).any fun k => inSlot k off && (q.slots.getD k none).isSome &&
      ((q.slots.getD k none).map (·.aggressor)) == ((slots.getD k none).map (·.aggressor))

/-- Σ|w − s|² and Σ|s|² of a pair against its snapshot (R89). -/
def distance (q : Pair) (snap : Tab (BitVec 32)) (slots : List (Option Slot)) : Nat × Nat :=
  let sum := fun (l : List Nat) => l.sum
  let here := q.coef.filter fun e => distIncludes q slots e.1
  let there := snap.filter fun e => distIncludes q slots e.1
  (sum (here.map fun e => (e.2.toInt - coefGet snap e.1).natAbs ^ 2) +
     sum ((there.filter fun e => !here.any fun f => f.1 == e.1).map fun e => e.2.toInt.natAbs ^ 2),
   sum (there.map fun e => e.2.toInt.natAbs ^ 2))

/-- Whether num/den exceeds n tenths of a dB. -/
def exceedsDb (num den : Nat) (n : Int) : Bool := !atLeastDb den num (-n)

/-- The pairs of a check that meet R90's condition, as (pair, D, margin drop). -/
def wandered (x : Port) (c : Coefs) : List (Nat × Int × Int) :=
  (List.finRange 4).filterMap fun i =>
    let q := quadGet x.pairs i
    let d := distance q (quadGet c.pairs i) (quadGet c.slots i)
    let drop := (quadGet c.marg i).toInt - q.margin.toInt
    if exceedsDb d.1 d.2 (paramGet x.live 0x14).toInt && decide (Int.ofNat (livePar x 0x15) ≤ drop) then
      some (i.val, powerDb d.1 d.2, drop)
    else none

/-- The 10 ms check (R89 to R92). Of pairs that share the largest D the lowest gives the drop: DESIGN CHOICE, log 57. -/
def execWanderCheck (p : PortId) (s : State) : Host.Outcome State Fault Refusal :=
  .next <| if !herdsRun s then s else
    let x := getPort s p
    let w := x.wander
    let acq := (quadList x.pairs).any fun q => adaptLevel q == 0
    match w.snap with
    | none => s
    | some c =>
      let l := wandered x c
      match l.foldl (fun m e => match m with
          | none => some e
          | some f => if f.2.1 < e.2.1 then some e else m) (none : Option (Nat × Int × Int)) with
      | none => s
      | some top =>
        if x.st == .up && livePar x 0x13 = 1 && !w.suspended && !frozen s p && !acq &&
            decide (w.heldUntil ≤ s.mono) && controllerRuns s (herdOf p) then
          let hold := livePar x 0x17 * 1000000
          let recent := (s.mono :: w.recent.filter fun t => decide (s.mono < t + 10 * hold)).take 3
          let susp := decide (3 ≤ recent.length)
          let y := persAdd x 0xD8 1
          let s := setPort s p { y with
            pairs := ⟨revertPair x.pairs.a c.pairs.a c.gains.a c.slots.a,
                revertPair x.pairs.b c.pairs.b c.gains.b c.slots.b,
                      revertPair x.pairs.c c.pairs.c c.gains.c c.slots.c, revertPair x.pairs.d c.pairs.d c.gains.d c.slots.d⟩
            wander := { w with reverts := w.reverts + 1, recent := recent, suspended := susp,
                               heldUntil := s.mono + hold } }
          let mask := (l.map fun e => 2 ^ e.1).sum
          postPort (repathPort s p) p 7 [(0, 1, mask), (1, 1, bit susp), (2, 2, code16 top.2.1), (4, 2, code16 top.2.2),
            (8, 4, (w.reverts + 1) % 2 ^ 32)]
        else s

end Sys2Proof.Machine
end

