-- ==== Sys2Proof/Machine/Bus.lean ====
section
/-!
DEFINITION. What the PCIe function does apart from its commands' effects: activity (R421), Function Level Reset (R269),
access errors (R355 to R357), wakes (R428 to R431), doorbells (R282 to R286), ring faults (R277, R543), and the host's
return after management or Bus Master Enable was off (R286, R346).
-/

namespace Sys2Proof.Machine

/-! ### The link and its activity -/

/-- Whether the PCIe link is up and the function's BARs can be reached (R356, R358, R410, R413). -/
def busUp (s : State) : Bool :=
  s.clk.refclkOk && (getPll s pllPcie).locked &&
    match s.pwr.st with
    | .run => true
    | .idle => true
    | .sleep => true
    | .entering _ => true
    | .restoring x => x == 2
    | .ibex => true
    | _ => false

/-- Host activity (R421, R422): leaves Idle for Run. The idle and sleep counts it restarts run to their expiry rows. -/
def touch (s : State) : State :=
  if s.pwr.st == .idle then mirrorWrite { s with pwr := { s.pwr with st := .run,
                                                                     hubDeaf := s.mono + deafNs } } .hub else s

/-! ### Function Level Reset (R269) -/

/-- Whether a BAR0 offset lies in the ring context windows or the vector moderation. -/
def isRingReg (off : Nat) : Bool :=
  (decide (0x400000 ≤ off) && decide (off < 0x500000)) || (decide (0x500000 ≤ off) && decide (off < 0x502000))

/-- Function Level Reset (R269): rings DISABLED without draining, their registers and the vectors at reset, records not
yet written discarded. The device's own MSI-X state and Bus Master Enable return as PCIe has them (log 12). -/
def funcReset (s : State) : State :=
  { s with
    regs := s.regs.filter fun e => !isRingReg e.1
    latches := s.latches.filter fun e => !isRingReg e.1
    heldLow := s.heldLow.bind fun e => if isRingReg e.1.toNat then none else some e
    io := { s.io with
      rings := [], vecs := [], msixEnable := false, fnMask := false, busMaster := false, herdBuf := [],
      hubBuf := EvBuf.empty, inHub := [], latched := [],
      cfg := { PciCfg.reset with payload := s.io.cfg.payload, aspm := s.io.cfg.aspm },
      srcs := s.io.srcs.map fun e => (e.1, { e.2 with held := none, count := 0 }) } }

/-! ### Interrupts and the host's return -/

/-- Sends a vector's pending message when nothing masks it any more (R302). -/
def sendPending (s : State) (v : Nat) : State :=
  let x := getVec s v
  if x.pending && s.io.msixEnable && !x.masked && !s.io.fnMask && canWrite s then
    emit (setVec s v { x with pending := false }) (.msix v x.addr x.data)
  else s

/-- Sends every pending message that may be sent. -/
def sendAllPending (s : State) : State := forEach (s.io.vecs.map (·.1)) sendPending s

/-! ### Access errors (R355 to R357) -/

/-- Records an access error and posts ACCESS_ERROR or REG_ACCESS_ERROR (R357). -/
def accessErr (s : State) (off : Nat) (write : Bool) (cause : Nat) : State :=
  let a := s.access
  let s := { s with access :=
    if a.err then { a with overflow := true }
    else { a with err := true, cause := BitVec.ofNat 3 cause, addr := BitVec.ofNat 26 off, write := write } }
  let pay := [(0, 4, off), (4, 1, bit write), (5, 1, cause)]
  match regLoc off with
  | .port p _ => postLimited s (portSrc p 15) 0 pay (some 8) 1
  | _ => postLimited s (globalSrc 113) 0 pay (some 8) 1

/-! ### Wakes (R428 to R431) -/

/-- Table 5 of Power States: whether a source wakes the device from a state (2 Sleep, 3 Deep Sleep, 4 Off). -/
def wakeAllowed (src : BitVec 4) (from_ : Fin 5) : Bool :=
  match src.toNat with
  | 1 => true
  | 2 => from_ == 2 || from_ == 3
  | 3 => from_ == 2 || from_ == 3
  | 4 => from_ == 2
  | _ => false

/-- A wake begins: PWR_WAKE_SOURCE records it (R428). -/
def wakeBegin (s : State) (src : BitVec 4) (replayed : Bool) (from_ : Fin 5) : State :=
  { s with pwr := { s.pwr with st := .restoring from_, hubDeaf := s.mono + deafNs, latched := none, wake := src,
                               replayed := replayed,
                               fromSt := from_, pending := none } }

/-- A wake source: it wakes, or is latched during an entry (R431); during a wake it changes nothing (R428). -/
def wakeSource (s : State) (src : BitVec 4) : State :=
  match s.pwr.st with
  | .sleep => if wakeAllowed src 2 then wakeBegin s src false 2 else s
  | .deepSleep => if wakeAllowed src 3 then wakeBegin s src false 3 else s
  | .off => if wakeAllowed src 4 then wakeBegin s src false 4 else s
  | .entering t =>
    match s.pwr.latched with
    | none => { s with pwr := { s.pwr with latched := some src } }
    | some old =>
      if wakeAllowed old t then s else { s with pwr := { s.pwr with latched := some src } }
  | _ => s

/-! ### Ring faults (R277, R278, R543) -/

/-- Posts RING_FAULT, and sends the vector of a command or data ring at once (R302). -/
def ringFault (s : State) (r : RingId) (cause : Nat) : State :=
  let s := postGlobal s 112 [(0, 2, r.val), (2, 1, cause)]
  let t := ringType s r
  if t = 0 || t = 3 || t = 4 then msixSend s (ringVector s r) else s

/-- The Cmd of the descriptor at a command ring's head. -/
def headCmd (r : RingId) (index : BitVec 16) (d : CmdDesc) : Cmd :=
  { ring := r, index := index, tag := d.tag, opcode := d.opcode, target := d.target, flags := d.flags,
    dataRing := d.dataRing, params := d.params }

/-- The index after one more entry of a ring. -/
def nextIndex (s : State) (r : RingId) (i : BitVec 16) : BitVec 16 := BitVec.ofNat 16 ((i.toNat + 1) % ringSize s r)

/-- Completes the head of a command ring that was never dispatched (R288, R543): into the entry reserved for it, or the
first that frees. -/
def completeHead (s : State) (r : RingId) (d : CmdDesc) (rest : List CmdDesc) (status : BitVec 8)
    (result : BitVec 64) : State :=
  let x := getRing s r
  let s := setRing s r { x with cmds := rest, dev := nextIndex s r x.dev, fetched := false, entry := false }
  let rec_ := cmdRecord s d.opcode.toNat (headCmd r x.dev d) status result
  if x.entry then putReserved s (ringCq s r) rec_ else putCompletion s (ringCq s r) rec_

/-- A ring enters ERROR (R276, R277): a fetched command completes with ST_SUPERSEDED, what was not fetched is dropped
(R543). -/
def ringError (s : State) (r : RingId) (cause : Nat) : State :=
  let x := getRing s r
  let s := setRing s r { x with st := .error, errCause := BitVec.ofNat 8 cause, bufs := [] }
  let s := match x.fetched, x.cmds with
    | true, d :: rest => completeHead s r d rest stSuperseded 0
    | _, _ => s
  ringFault (modRing s r fun y => { y with cmds := [], fetched := false, entry := false }) r cause

/-! ### Doorbells (R282 to R286) -/

/-- The n entries of ring memory that a doorbell hands over; what the sender does not give is zero bytes. -/
def entries (n : Nat) (descs : List (List Byte)) : List (List Byte) := (List.range n).map fun i => descs.getD i []

/-- Reads n entries of a ring's memory from an index on (R270). -/
def fetchFrom (s : State) (r : RingId) (index n : Nat) : State :=
  forEach (List.range n)
    (fun t i => emit t (.fetch (entryAddr t r (BitVec.ofNat 16 ((index + i) % ringSize t r))) (entrySize t r))) s

/-- A doorbell hands descriptors to the device (R282, R283): at most size − 1 entries stand outstanding. Data
descriptors are fetched and checked at once (R294). -/
def doorbellPost (s : State) (r : RingId) (idx : Nat) (descs : List (List Byte)) : State :=
  let x := getRing s r
  let n := ringSize s r
  let out := (x.host.toNat + n - x.dev.toNat) % n
  let adv := (idx + n - x.host.toNat) % n
  if n ≤ idx then ringError s r 0x04
  else if n ≤ out + adv then ringError s r 0x05
  else if ringType s r = 0 then
    setRing s r { x with host := BitVec.ofNat 16 idx, cmds := x.cmds ++ (entries adv descs).map cmdDescOf }
  else
    let s := fetchFrom s r x.host.toNat adv
    cleanHead (setRing s r
      { x with host := BitVec.ofNat 16 idx, bufs := x.bufs ++ (entries adv descs).map dataDescOf }) r

/-- A doorbell returns entries to the device and may arm the ring (R282, R283, R303). In DRAINING a bad index is
ignored, since Table 12 of Rings raises its faults in ACTIVE. -/
def doorbellReturn (s : State) (r : RingId) (idx : Nat) (arm : Bool) : State :=
  let x := getRing s r
  let n := ringSize s r
  let adv := (idx + n - x.host.toNat) % n
  if n ≤ idx then (if x.st == .active then ringError s r 0x04 else s)
  else if unconsumed s r < adv then (if x.st == .active then ringError s r 0x05 else s)
  else
    let s := setRing s r { x with host := BitVec.ofNat 16 idx, armed := x.armed || arm }
    ringRequest (flushBacklog (ringRequest s r) r) r

/-- Whether a command ring is bound to a herd or a port (R425). -/
def localRing (s : State) (r : RingId) : Bool := ringType s r == 0 && ringBindKind s r != 0

/-- A doorbell write acts (R276, R282): a DISABLED ring and one in ERROR ignore it, a DRAINING one fetches nothing. On
a herd- or port-bound command ring it is a wake source (R425). -/
def doorbellAct (s : State) (r : RingId) (word : BitVec 32) (descs : List (List Byte)) : State :=
  let x := getRing s r
  let t := ringType s r
  let idx := fld word 0 16
  let host := t = 0 || t = 3 || t = 4
  let s := match x.st with
    | .active => if host then doorbellPost s r idx descs else doorbellReturn s r idx (word.getLsbD 16)
    | .draining => if host then s else doorbellReturn s r idx (word.getLsbD 16)
    | _ => s
  if localRing s r && (getRing s r).st == .active then wakeSource s 4 else s

/-- The doorbells that a write covers with their offset 0x0 in full, in ascending order, and the word written to each
(R282, R285): ring r's doorbell is the 16 bytes from 16 r. -/
def bellsOf (addr : BitVec 18) (bytes : List Byte) : List (RingId × BitVec 32) :=
  (List.range (bytes.length / 16 + 2)).filterMap fun i =>
    let n := addr.toNat / 16 + i
    if h : n < 16384 then
      if addr.toNat ≤ 16 * n ∧ 16 * n + 4 ≤ addr.toNat + bytes.length then
        some (⟨n, h⟩, BitVec.ofNat 32 (leNat ((bytes.drop (16 * n - addr.toNat)).take 4)))
      else none
    else none

/-- What host memory holds for a ring. -/
def handedTo (work : List Handed) (r : RingId) : List (List Byte) :=
  ((work.find? fun w => w.ring == r).map (·.descs)).getD []

/-- A doorbell write while management is down is latched (R286): the last word, and the descriptors handed over. -/
def doorbellLatch (s : State) (r : RingId) (word : BitVec 32) (descs : List (List Byte)) : State :=
  { s with io := { s.io with
      latched := tabSet s.io.latched r.val (word, (tabGet (0, []) s.io.latched r.val).2 ++ descs) } }

/-- What a read of a doorbell returns (R282): DEV_INDEX at 0x8, RING_STATE at 0xC, else 0. -/
def doorbellRead (s : State) (r : RingId) (off : Nat) : BitVec 32 :=
  match off with
  | 0x8 => (getRing s r).dev.setWidth 32
  | 0xC => BitVec.ofNat 32 (ringStateWord (getRing s r))
  | _ => 0

/-- The latched doorbells act in ring order (R286). -/
def actLatched (s : State) : State :=
  let l := s.io.latched
  forEach l (fun s e => if h : e.1 < 16384 then doorbellAct s ⟨e.1, h⟩ e.2.1 e.2.2 else s)
    { s with io := { s.io with latched := [] } }

/-- Records may be written again: every mirror block first (R346), then what waited. -/
def resumeHost (s : State) : State := sendAllPending (flushAll (actLatched (mirrorAll s)))

end Sys2Proof.Machine
end

