-- ==== Sys2Proof/Machine/Host.lean ====
section
/-!
DEFINITION. Rings, vectors and the function (R266 to R304, R543): doorbells, enabling and disabling of rings, the ring
engine's checks and dispatch (R287 to R291, R305 to R307), DMA faults, interrupts, function resets.
-/

namespace Sys2Proof.Machine

/-! ### Doorbells -/

/-- One doorbell of a write (R282): latched while management is down (R286). -/
def doorbellOne (work : List Handed) (s : State) (e : RingId × BitVec 32) : State :=
  if s.fw.mgmtDown then doorbellLatch s e.1 e.2 (handedTo work e.1) else doorbellAct s e.1 e.2 (handedTo work e.1)

/-- A write to doorbells (R282, R285): host activity; each doorbell that it covers acts, in ascending order. Like every
register write it discards a held low word (R13). -/
def execDoorbellWrite (addr : BitVec 18) (bytes : List Byte) (work : List Handed) (s : State) :
    Host.Outcome State Fault Refusal :=
  .next <|
    if !busUp s then s else forEach (bellsOf addr bytes) (doorbellOne work) { touch s with heldLow := none }

/-! ### The ring engine (R287 to R291) -/

/-- Reserves an entry of a command ring's completion ring for the command at its head (R291). -/
def reserveEntry (s : State) (r : RingId) : State :=
  let x := getRing s r
  let q := ringCq s r
  let y := getRing s q
  if x.entry then s
  else if writesRecords y && y.backlog.isEmpty && decide (y.reserved < freeEntries s q) then
    setRing (setRing s q { y with reserved := y.reserved + 1 }) r { x with entry := true }
  else s

/-- Whether the line dies' blocks are powered down: in Sleep, and until the restore from it has ended (R288 check 5,
R425). -/
def blocksOff (s : State) : Bool := s.pwr.dark

/-- Whether an entry from Run or Idle is under way: no herd or port command is dispatched any more (R424). -/
def enteringLow (s : State) : Bool :=
  match s.pwr.st with
  | .entering _ => !s.pwr.dark
  | _ => false

/-- Whether a target's data ring is what its opcode needs (R288 check 4). -/
def dataBad (s : State) (c : Cmd) (o : OpInfo) (t : Target) : Bool :=
  match o.data with
  | .none => c.dataRing != 0xFFFF
  | .dataIn => (dataRingOf s c t 3).isNone
  | .dataOut => (dataRingOf s c t 4).isNone

/-- The opcodes that Ibex accepts (R492): FW.STAGE, FW.ACTIVATE, FW.STATUS, SEC.ATTEST. -/
def ibexTakes (code : Nat) : Bool := [0x0D01, 0x0D02, 0x0D04, 0x0E01].contains code

/-- Table 14 of Rings, in order, with FORCE after check 2 (R307): the status and RESULT of the first check that fails.
The RESULT of checks 5 and 6 is that of R308. -/
def engineCheck (s : State) (r : RingId) (c : Cmd) (d : CmdDesc) : Option (BitVec 8 × BitVec 64) :=
  let code := d.opcode.toNat
  if 2 ≤ d.flags.toNat then some (stBadParam, resField 0x02)
  else match if s.pwr.st == .ibex && !ibexTakes code then none else opInfo code with
    | none => some (stNotSupported, 0)
    | some o =>
      match firstUnused o.used d.params with
      | some off => some (stBadParam, resField off)
      | none =>
        if forced c && !o.force then some (stBadParam, resField 0x02)
        else match targetOf d.target with
          | none => some (stBadParam, resField 0x04)
          | some t =>
            if !carries s r t || !takesTarget o t then some (stBadParam, resField 0x04)
            else if dataBad s c o t then some (stBadParam, resField 0x06)
            else match targetHerd t with
              | none => none
              | some h =>
                if blocksOff s then some (stBlockOff, 0)
                else if !(getDie s (dieOfHerd h)).d2dUp then some (stTimeout, 0)
                else none

/-- Whether the ring engine holds a command for its target (R28, R290, R424). -/
def targetHolds (s : State) (t : Target) : Bool :=
  match targetHerd t with
  | some h => (getHerd s h).st == .fwRestart || decide (64 ≤ (getHerd s h).queue.length) || enteringLow s
  | none => decide (64 ≤ s.io.hubQueue.length)

/-- Checks 1 and 2 of R310 at the target of a command whose MODE is out of range. -/
def modeGate (s : State) (code : Nat) (t : Target) : Option (BitVec 8 × BitVec 64) :=
  match t with
  | .port p => if code = 0x0107 then loopGate s p else portGate s p
  | .herd h => herdGate s h
  | .hub => none

/-- The status of a command whose MODE, STATE or JUMP field is out of range (R310 checks 1 to 3), if it is. -/
def modeBad (s : State) (d : CmdDesc) (t : Target) : Option (BitVec 8 × BitVec 64) :=
  match modeRange d.opcode.toNat with
  | some (off, lo, hi) =>
    if lo ≤ paramByte d off ∧ paramByte d off ≤ hi then none
    else some ((modeGate s d.opcode.toNat t).getD (stBadParam, resField (0x10 + off)))
  | none => none

/-- The key of what takes a target's commands: the herd controller, or the hub. -/
def takerOf (t : Target) : Nat := (targetHerd t).elim 64 (·.val)

/-- Whether a ring's head stands ready for what takes a target's commands (R290): fetched, with its entry reserved. -/
def readyFor (s : State) (x : Ring) (r : RingId) (key : Nat) : Bool :=
  x.st == .active && x.running.isNone && x.entry && ringType s r == 0 &&
    (match x.cmds with
     | d :: _ => (targetOf d.target).any fun t => takerOf t == key
     | [] => false)

/-- Places from the ring taken last to a ring, in the rotation by ascending ring number (R290). -/
def rotaPlace (s : State) (key : Nat) (r : Nat) : Nat := (r + 16383 - tabGet 16383 s.io.rota key) % 16384

/-- Whether the rotation has come to a ring: no ready ring stands before it (R290). -/
def rotaTurn (s : State) (r : RingId) (t : Target) : Bool :=
  !(s.io.rings.any fun e =>
    if h : e.1 < 16384 then
      readyFor s e.2 ⟨e.1, h⟩ (takerOf t) && decide (rotaPlace s (takerOf t) e.1 < rotaPlace s (takerOf t) r.val)
    else false)

/-- Dispatches the command at a ring's head to its target (R289, R290). -/
def dispatchHead (s : State) (r : RingId) (d : CmdDesc) (rest : List CmdDesc) (t : Target) : State :=
  let x := getRing s r
  let c := headCmd r x.dev d
  let s := setRing s r
    { x with cmds := rest, dev := nextIndex s r x.dev, fetched := false, entry := false, running := some c }
  let s := { s with io := { s.io with rota := tabSet s.io.rota (takerOf t) r.val } }
  match targetHerd t with
  | some h => modHerd s h fun y => { y with queue := y.queue ++ [c] }
  | none => { s with io := { s.io with hubQueue := s.io.hubQueue ++ [c] } }

/-- A command ring whose head is fetched (R270) and, where its completion ring has room, has its entry reserved
(R291). -/
def headReady (s : State) (r : RingId) : State :=
  let x := getRing s r
  let s := if x.fetched then s else fetchFrom s r x.dev.toNat 1
  reserveEntry (setRing s r { x with fetched := true }) r

/-- The ring engine takes the command at a ring's head (R287 to R291): it is fetched, an entry is reserved, the checks
are made, and it is dispatched or held. In and around Sleep the rings of herds and ports are held (R425). -/
def dispatchStep (s : State) (r : RingId) : State :=
  let x := getRing s r
  match x.cmds with
  | [] => s
  | d :: rest =>
    if localRing s r && (blocksOff s || enteringLow s) then s
    else
      let s := headReady s r
      if !(getRing s r).entry then s
      else match engineCheck s r (headCmd r x.dev d) d with
        | some e => completeHead s r d rest e.1 e.2
        | none =>
          match targetOf d.target with
          | none => s
          | some t =>
            if targetHolds s t || !rotaTurn s r t then s
            else match modeBad s d t with
              | some e => completeHead s r d rest e.1 e.2
              | none => dispatchHead s r d rest t

/-- The ring engine comes to a command ring (R289): the previous command of the ring has completed. -/
def execRingDispatch (r : RingId) (s : State) : Host.Outcome State Fault Refusal :=
  .next <|
    let x := getRing s r
    if canWrite s && x.st == .active && ringType s r == 0 && x.running.isNone then dispatchStep s r else s

/-! ### Enabling and disabling (R273, R275 to R281) -/

/-- The check that an enable fails (R277, Table 12), in the order of the table. -/
def enableCause (s : State) (r : RingId) : Option Nat :=
  let kind := ringBindKind s r
  let id := ringBindId s r
  let t := ringType s r
  let q := getRing s (ringCq s r)
  if (kind = 0 && id ≠ 0) || (kind = 1 && 63 < id) || 3 ≤ kind then some 0x01
  else if (t = 2 || t = 3) && (s.io.rings.any fun e =>
      if h : e.1 < 16384 then
        e.1 != r.val && e.2.st != .disabled && ringType s ⟨e.1, h⟩ == t && ringBindKind s ⟨e.1, h⟩ == kind &&
          ringBindId s ⟨e.1, h⟩ == id
      else false) then some 0x02
  else if (t = 0 || t = 3 || t = 4) && !(q.st == .active && ringType s (ringCq s r) == 1) then some 0x03
  else none

/-- What a ring keeps when its indices start anew: work that was dispatched or taken before, and completions that wait
for it. -/
def keepRing (x : Ring) : Ring :=
  { Ring.reset with running := x.running, taken := x.taken, backlog := x.backlog, reserved := x.reserved }

/-- A write that sets RING_CTRL.ENABLE (R275, R277): it acts on a DISABLED ring. -/
def enableRing (s : State) (r : RingId) : State :=
  let x := getRing s r
  if x.st == .disabled then
    match enableCause s r with
    | some cause => ringFault (setRing s r { x with errCause := BitVec.ofNat 8 cause }) r cause
    | none => payOwed (flushBacklog (setRing s r { keepRing x with st := .active, armed := true, phase := true }) r)
  else s

/-- Completes every command of a ring that has not been dispatched with ST_SUPERSEDED (R279). -/
def supersedeAll (r : RingId) : List CmdDesc → State → State
  | [], s => s
  | d :: rest, s => supersedeAll r rest (completeHead s r d rest stSuperseded 0)

/-- Returns every posted data descriptor that nothing has taken with ST_SUPERSEDED and 0 bytes (R280). -/
def returnAll (kind : BitVec 3) (r : RingId) : List DataDesc → State → State
  | [], s => s
  | d :: rest, s =>
    let t := popBuf s r d rest
    returnAll kind r rest (completeBuf t.2 kind t.1 stSuperseded 0)

/-- A ring stands DISABLED; its indices stay readable until the next enable. -/
def ringOffNow (x : Ring) : Ring :=
  { keepRing x with dev := x.dev, host := x.host, phase := x.phase }

/-- A write that clears RING_CTRL.ENABLE (R276, R279 to R281). -/
def disableRing (s : State) (r : RingId) : State :=
  let x := getRing s r
  match x.st with
  | .error => setRing s r (ringOffNow x)
  | .active =>
    match ringType s r with
    | 0 => supersedeAll r x.cmds (setRing s r { x with st := .draining })
    | 2 => setRing s r (ringOffNow x)
    | 1 => setRing s r { x with st := .draining }
    | t => returnAll (if t = 3 then 2 else 3) r x.bufs (setRing s r { x with st := .draining })
  | _ => s

/-- Whether a ring's completion ring still holds back a record of it. -/
def waitsRecord (s : State) (r : RingId) : Bool := (getRing s (ringCq s r)).backlog.any fun c => c.ring == r

/-- Whether a DRAINING ring's drain is done (R279 to R281). -/
def drained (s : State) (r : RingId) : Bool :=
  let x := getRing s r
  match ringType s r with
  | 0 => x.running.isNone && x.cmds.isEmpty && !waitsRecord s r
  | 1 => x.backlog.isEmpty && !(s.io.rings.any fun e =>
      if h : e.1 < 16384 then
        e.2.st != .disabled && ringType s ⟨e.1, h⟩ != 1 && ringType s ⟨e.1, h⟩ != 2 && ringCq s ⟨e.1, h⟩ == r
      else false)
  | _ => x.taken.isEmpty && x.bufs.isEmpty && !waitsRecord s r

def execRingEnable (r : RingId) (s : State) : Host.Outcome State Fault Refusal :=
  .next <| if busUp s then enableRing { touch s with heldLow := none } r else s

def execRingDisable (r : RingId) (s : State) : Host.Outcome State Fault Refusal :=
  .next <| if busUp s then disableRing { touch s with heldLow := none } r else s

/-- The drain of a ring is done: it reaches DISABLED (R279 to R281). -/
def execRingDrainDone (r : RingId) (s : State) : Host.Outcome State Fault Refusal :=
  .next <| if !s.clk.refclkOk then s else
    if (getRing s r).st == .draining && drained s r then setRing s r (ringOffNow (getRing s r)) else s

/-! ### DMA faults (R277, R295) -/

/-- A read or write of ring memory fails (R277): ERROR with cause DMA, fault source 0x0A51 with the ring number. -/
def execRingDmaFault (r : RingId) (s : State) : Host.Outcome State Fault Refusal :=
  .next <| if !s.clk.refclkOk then s else if (getRing s r).st == .active then
      raiseFault (ringError s r 0x06) 0xA51 r.val else s

/-- A snapshot that fails: its buffer and its command complete with ST_TIMEOUT, its EPOCH is not used. -/
def snapFail (s : State) (n : Snap) : State :=
  let s := { s with io := { s.io with snaps := s.io.snaps.erase n, epoch := s.io.epoch - 1 } }
  reject (dropIn s n.buf stTimeout) 0x0802 n.cmd stTimeout 0

/-! ### Vectors (R302 to R304) -/

/-- HOLDOFF has passed since the first request after the vector's last message (R304). -/
def execVectorHoldoffExpiry (v : Fin 2048) (s : State) : Host.Outcome State Fault Refusal :=
  .next <| if !s.clk.refclkOk then s else
    let x := getVec s v.val
    if x.holdoff && !x.rings.isEmpty then msixSend (setVec s v.val { x with rings := [], holdoff := false }) v.val
    else s

/-- A write to the MSI-X table or capability (R302): what becomes unmasked sends its pending message. -/
def execMsixMaskChange (m : MsixChange) (s : State) : Host.Outcome State Fault Refusal :=
  .next <|
    if !busUp s then s
    else
      let s := touch s
      match m with
      | .vectorMask v b => sendPending (setVec s v.val { getVec s v.val with masked := b }) v.val
      | .vectorMessage v a d => setVec s v.val { getVec s v.val with addr := a, data := d }
      | .functionMask b => sendAllPending { s with io := { s.io with fnMask := b } }
      | .enable b => sendAllPending { s with io := { s.io with msixEnable := b } }

/-! ### The function -/

def execFunctionLevelReset (s : State) : Host.Outcome State Fault Refusal :=
  .next <| if busUp s then funcReset (touch s) else s

/-- A hot reset or a link-down that the host causes acts as a Function Level Reset (R515). -/
def execPcieHotReset (s : State) : Host.Outcome State Fault Refusal := .next <| if busUp s then funcReset s else s

/-- Bus Master Enable (R346): setting it makes the device write every mirror block before any record. -/
def execBusMasterEnableChange (on : Bool) (s : State) : Host.Outcome State Fault Refusal :=
  .next <|
    if !busUp s then s
    else
      let s := touch s
      if on && !s.io.busMaster then
        sendAllPending (flushAll (mirrorAll { s with io := { s.io with busMaster := true } }))
      else { s with io := { s.io with busMaster := on } }

end Sys2Proof.Machine
end

