-- ==== Sys2Proof/Machine/Events.lean ====
section
/-!
DEFINITION. Delivery of events to their rings (R32, R298, R299), coalescing intervals (R544), the loss and return of
die-to-die links (R20, R21, R347), the herds' copies of device time (R32).
-/

namespace Sys2Proof.Machine

/-! ### Delivery -/

/-- What a delivery answers: the state, the records that stay, the number written. -/
structure Delivered where
  st   : State
  left : List Event
  n    : Nat

/-- Writes up to `n` records of a buffer in order (R32, R299): a record whose ring is full, or whose buffer's completion
waits (R300), holds back the later ones bound for that ring; one without an ACTIVE ring is not delivered (R298). -/
def deliverFrom (s : State) : List Event → List RingId → Nat → Delivered
  | [], _, _ => { st := s, left := [], n := 0 }
  | e :: l, held, n =>
    match eventRing s e.source with
    | none => deliverFrom s l held n
    | some r =>
      if n ≠ 0 && !held.contains r && !buffersWait s e && decide (0 < freeEntries s r) then
        let t := deliverFrom (putEvent s r e) l held (n - 1)
        { t with n := t.n + 1 }
      else
        let t := deliverFrom s l (r :: held) n
        { t with left := e :: t.left }

/-- A buffer after a delivery: once drained empty it keeps every record again (R31). -/
def bufLeft (b : EvBuf) (l : List Event) : EvBuf := { recs := l, collapsed := b.collapsed && !l.isEmpty }

/-- Records of a herd that had reached the hub before its die's link was lost (R21). -/
def getInHub (s : State) (h : HerdId) : List Event := tabGet [] s.io.inHub h.val
def setInHub (s : State) (h : HerdId) (l : List Event) : State :=
  { s with io := { s.io with inHub := tabSet s.io.inHub h.val l } }

/-- Delivers up to `n` records of a herd: those that had reached the hub, and over its die's link those in the herd's
buffer (R21, R32). Answers the number written as well. -/
def deliverHerd (s : State) (h : HerdId) (n : Nat) : State × Nat :=
  if !canWrite s then (s, 0)
  else if hubListens s h then
    let b := getHerdBuf s h
    let t := deliverFrom s (getInHub s h ++ b.recs) [] n
    (setHerdBuf (setInHub t.st h []) h (bufLeft b t.left), t.n)
  else
    let t := deliverFrom s (getInHub s h) [] n
    (setInHub t.st h t.left, t.n)

/-- Delivers up to `n` records of the hub's buffer. -/
def deliverHub (s : State) (n : Nat) : State :=
  if canWrite s then
    let b := s.io.hubBuf
    let t := deliverFrom s b.recs [] n
    { t.st with io := { t.st.io with hubBuf := bufLeft b t.left } }
  else s

/-- Everything that can be delivered of a herd's buffer. -/
def drainHerd (s : State) (h : HerdId) : State × Nat :=
  deliverHerd s h ((getInHub s h).length + (getHerdBuf s h).recs.length)

/-- The hub writes the next buffered record that its ring has room for (R32, R299). -/
def execEventDelivery (h : Option HerdId) (s : State) : Host.Outcome State Fault Refusal :=
  .next <| if !s.clk.refclkOk then s else match h with
    | some h => (deliverHerd s h 1).1
    | none => deliverHub s 1

/-- The end of a rate-limit interval (R544): one record of the latest occurrence, if any occurred, starts a new
interval. -/
def execEventCoalesceExpiry (source : Fin 8448) (kind : Fin 4) (s : State) : Host.Outcome State Fault Refusal :=
  .next <| if !s.clk.refclkOk then s else
    let key := 4 * source.val + kind.val
    let i := getInterval s key
    if i.open_ then
      match i.held with
      | some e => pushEvent (setInterval s key { i with held := none, count := 0 }) e
      | none => setInterval s key { Interval.none with count := i.count }
    else s

/-! ### Die-to-die links -/

/-- The command that a ring runs for a herd or port of a die. -/
def dieCmd (d : DieId) (x : Ring) : Option Cmd :=
  x.running.filter fun c => ((targetOf c.target).bind targetHerd).any fun h => dieOfHerd h == d

/-- The hub keeps the last state it knew of a die's blocks (R347). -/
def keepKnown (s : State) (d : DieId) : State :=
  { s with io := { s.io with known := (dieBlocks d).foldl (fun t o => tabSet t (blockNo o) (liveFields s o)) s.io.known } }

/-- How many records of a herd's buffer had reached the hub when the link was lost the spec leaves open: a free value.
They stand in the hub from then on (R21). -/
def splitBuf (s : State) (h : HerdId) : State :=
  let b := getHerdBuf s h
  let n := freeNat s
  let k := n.1 % (b.recs.length + 1)
  if b.recs.isEmpty then s
  else setInHub (setHerdBuf n.2 h (bufLeft b (b.recs.drop k))) h (getInHub s h ++ b.recs.take k)

/-- Loss of a die-to-die link (R20, R347): fault of class C6, D2D_LINK_LOST, STALE blocks; commands addressed to the
die complete with ST_TIMEOUT. The fault's DETAIL of a lost training is a free value: the spec gives none (log 61). -/
def d2dLost (s : State) (d : DieId) : State :=
  if !(getDie s d).d2dUp then s
  else
    let s := forEach (herdsOf d) splitBuf (keepKnown s d)
    let s := setDie s d { getDie s d with d2dUp := false }
    let n := freeNat s
    let s := raiseFault { n.2 with io := { n.2.io with stale := tabSet n.2.io.stale d.val true } } (0x902 + 8 * d.val) n.1
    let s := postGlobal s 114 [(0, 1, d.val)]
    let s := forEach (dieBlocks d) mirrorWrite s
    let s := mirrorWrite s .hub
    forEach (s.io.rings.filterMap fun e => dieCmd d e.2)
      (fun t c => reject t c.opcode.toNat c stTimeout 0) s

/-- The return of a link (R21): STALE clears, the blocks are rewritten, the herds' records are delivered, then
D2D_LINK_RESTORED. Records that wait for a full ring wait on; they hold back neither the event nor commands. DESIGN
CHOICE, log 61. -/
def d2dBack (s : State) (d : DieId) : State :=
  let s := setDie s d { getDie s d with d2dUp := true }
  let s := { s with io := { s.io with stale := tabSet s.io.stale d.val false } }
  let s := mirrorWrite (forEach (dieBlocks d) mirrorWrite s) .hub
  let t := (herdsOf d).foldl (fun t h => ((drainHerd t.1 h).1, t.2 + (drainHerd t.1 h).2)) (s, 0)
  clearCause (postGlobal t.1 115 [(0, 1, d.val), (4, 4, t.2)]) (0x902 + 8 * d.val)

def execD2dTrainingLost (d : DieId) (s : State) : Host.Outcome State Fault Refusal :=
  .next <| if !(s.clk.refclkOk && linePowered s) then s else d2dLost s d

/-- A retraining attempt, every 10 ms (R20). -/
def execD2dRetrainAttempt (d : DieId) (ok : Bool) (s : State) : Host.Outcome State Fault Refusal :=
  .next <| if !(s.clk.refclkOk && linePowered s) then
      s else if ok && !(getDie s d).d2dUp && (getPll s (pllUcie d)).locked then d2dBack s d else s

/-- The hub corrects a herd's copy of device time (R32): it stays within 4 ns of the hub counter, by a free value.
While the link is down the copy keeps its last offset. DESIGN CHOICE, log 61. -/
def execHerdTimeCorrection (h : HerdId) (s : State) : Host.Outcome State Fault Refusal :=
  .next <|
    if (getDie s (dieOfHerd h)).d2dUp && herdsRun s then
      let d := freeNat s
      modHerd d.2 h fun x => { x with timeSkew := (d.1 % 9 : Nat) - (4 : Int) }
    else s

end Sys2Proof.Machine
end

