-- ==== Sys2Proof/Machine/Clocks.lean ====
section
/-!
DEFINITION. Clocks and supplies (16 Clocks, R414 to R416): lock judgement of the PLLs and what a loss does (R409, R410),
domain switches (R404 to R408), the missing reference (R411 to R413), supply windows and the regulators' status alert.
-/

namespace Sys2Proof.Machine

/-! ### PLLs (R409, R410, Table 5) -/

/-- The fault source of a loss (Table 5 of Clocks). -/
def pllSource : PllKind → Nat
  | .root => 0xA11
  | .monitor => 0xA12
  | .pcie => 0xA15
  | .ddr c => 0xA13 + c.val
  | .herd h => 0x801 + 4 * h.val
  | .lane h => 0x803 + 4 * h.val
  | .ucie d => 0x904 + 8 * d.val

/-- Whether a clock runs and is judged: REFCLK is there, and the state keeps it on (Table 4a, R426, R427, R492, R517).
-/
def pllOn (s : State) (k : PllKind) : Bool :=
  s.clk.refclkOk &&
    match k with
    | .herd _ => lineClocks s
    | .lane _ => lineClocks s
    | .ucie _ => linePowered s
    | .monitor => hubPowered s
    | .pcie => hubPowered s
    | _ => hubPowered s && s.pwr.st != .sleep

/-- The hub core returns to the root PLL once that is judged locked and the monitor is clear (Table 4 of Clocks). -/
def hubToPll (s : State) : State :=
  if (getPll s pllRoot).locked && (getPll s pllMonitor).locked then requestSwitch s .hubCore true else s

/-- The lanes of a herd enter IDLE (R179, R410). -/
def lanesIdle (s : State) (h : HerdId) : State :=
  forEach (portsOf h) (fun s p => modPort s p fun x => { x with lane := laneIdle x.lane }) s

/-- The lanes of a herd start blind, but those of ports in TEST and SAFE (R179). -/
def lanesStart (s : State) (h : HerdId) : State :=
  if lanesMay s h then
    forEach (portsOf h) (fun s p => modPort s p fun x =>
      if x.st == .test || x.st == .safe then x else { x with lane := laneBlind s p x.lane }) s
  else s

/-- What a loss of lock does (Table 5 of Clocks). -/
def pllLossEffect (s : State) (k : PllKind) : State :=
  match k with
  | .root => requestSwitch s .hubCore false
  | .monitor => requestSwitch s .hubCore false
  | .pcie => funcReset s
  | .ddr c => ddrFail s c 3
  | .herd h => requestSwitch s (.herdDsp h) false
  | .lane h => lanesIdle s h
  | .ucie d => d2dLost s d

/-- What a relock does (Table 4 and Table 5 of Clocks). -/
def pllGainEffect (s : State) (k : PllKind) : State :=
  match k with
  | .root => hubToPll s
  | .monitor => hubToPll s
  | .herd h => requestSwitch s (.herdDsp h) true
  | .lane h => lanesStart s h
  | _ => s

/-- The payload of PLL_LOCK_LOST and PLL_LOCKED. -/
def pllPay (k : PllKind) : List Fld := [(0, 1, (pllId k).sel.val), (1, 1, (pllId k).unit.val)]

/-- A window outside ±200 ppm, or no edge for 64 REFCLK cycles (R409): a locked PLL is judged unlocked. -/
def pllBad (s : State) (k : PllKind) : State :=
  let x := getPll s (pllId k)
  if x.locked then
    let s := setPll s (pllId k) { locked := false, good := 0, retuning := false }
    pllLossEffect (raiseFault (postGlobal s 1 (pllPay k)) (pllSource k) 0) k
  else setPll s (pllId k) { x with good := 0 }

/-- A PLL is judged locked: its cause ends, and PLL_LOCKED is posted where a loss was (R409, R410). -/
def pllJudged (s : State) (k : PllKind) : State :=
  let x := getPll s (pllId k)
  if x.locked then s
  else
    let s := setPll s (pllId k) Pll.up
    let s := if x.retuning then s else postGlobal s 2 (pllPay k)
    pllGainEffect (clearCause s (pllSource k)) k

/-- A window within ±200 ppm; the third in a row judges the PLL locked (R409). -/
def pllGood (s : State) (k : PllKind) : State :=
  let x := getPll s (pllId k)
  if x.locked then s
  else if x.good + 1 < 3 then setPll s (pllId k) { x with good := x.good + 1 }
  else pllJudged s k

def execPllLockWindow (u : PllId) (inWindow : Bool) (s : State) : Host.Outcome State Fault Refusal :=
  .next <| match pllKind u with
    | some k => if pllOn s k then (if inWindow then pllGood s k else pllBad s k) else s
    | none => s

def execPllNoEdge (u : PllId) (s : State) : Host.Outcome State Fault Refusal :=
  .next <| match pllKind u with
    | some k => if pllOn s k then pllBad s k else s
    | none => s

/-- An unlocked PLL restarts its acquisition, every 1 ms (R409): its windows count anew. -/
def execPllReacquire (u : PllId) (s : State) : Host.Outcome State Fault Refusal :=
  .next <| if !s.clk.refclkOk then s else match pllKind u with
    | some k =>
      let x := getPll s (pllId k)
      if x.locked then s else setPll s (pllId k) { x with good := 0 }
    | none => s

/-! ### Domain switches (R404 to R407) -/

/-- A forced switch (R406): INDETERMINATE, LOST without meaning and so a free value, CLK_SWITCH_FORCED, and fault source
0x0A16 with the domain. -/
def switchForced (s : State) (d : Domain) (onPll : Bool) : State :=
  let n := freeNat s
  let s := { n.2 with clk := { n.2.clk with lastDomain := BitVec.ofNat 8 (domainCode d),
                                             lastLost := BitVec.ofNat 8 n.1, lastIndet := true } }
  let s := postGlobal (switchNext s d onPll) 3 [(0, 1, domainCode d)]
  raiseFault s 0xA16 (domainCode d)

/-- A started switch restarts its domain (R404); toward a PLL that has lost lock since, it completes on the bypass as a
forced one (R405). Without REFCLK no switch to the bypass completes (R412). -/
def execDomainSwitch (d : Domain) (toPll : Bool) (s : State) : Host.Outcome State Fault Refusal :=
  .next <|
    if (getSwitch s d).running == some toPll && s.clk.refclkOk then
      if toPll && !(getPll s (domainPll d)).locked then switchForced s d false else switchDone s d toPll
    else s

/-- The clock being left shows no edge for 8 cycles of the new clock (R406). -/
def execSwitchEdgeTimeout (d : Domain) (s : State) : Host.Outcome State Fault Refusal :=
  .next <|
    if s.clk.refclkOk then
      match (getSwitch s d).running with
      | some toPll => switchForced s d (toPll && (getPll s (domainPll d)).locked)
      | none => s
    else s

/-! ### The missing reference (R411 to R413) -/

/-- A domain's switch to the bypass stops it and waits for REFCLK (R412); a switch toward its PLL that has not completed
turns back. A domain that stands on the bypass stays there (R407). -/
def stopDomain (s : State) (d : Domain) : State :=
  let w := getSwitch s d
  if w.onPll || w.running.isSome then setSwitch s d { w with running := some false, waiting := none } else s

/-- REFCLK shows no edge (R411, R412): the fixed clock-loss reaction starts, every domain requests the bypass and stands
still, the PCIe link goes down, the DDR5 channels leave service. In Off the detector is disarmed (R427). -/
def execRefclkMissing (s : State) : Host.Outcome State Fault Refusal :=
  .next <|
    if s.pwr.st == .off || !s.clk.refclkOk then s
    else
      let s := forEach (.hubCore :: dspDomains) stopDomain s
      let s := funcReset { s with clk := { s.clk with refclkOk := false } }
      let s := forEach (List.finRange 2) (fun s c => setDdr s c { getDdr s c with trained := false, failed := true }) s
      fixedStart s .refclk 0

/-- A waiting switch completes on the bypass (R413). -/
def toBypass (s : State) (d : Domain) : State :=
  if (getSwitch s d).running == some false then switchDone s d false else s

/-- REFCLK counts as present again (R413): waiting switches complete with LOST 10, the hub core's shown last, every PLL
starts, DDR_FAIL is posted for the channels that left service (R376), the latched record is written. In Deep Sleep the
device restarts (R426). -/
def execRefclkReturn (s : State) : Host.Outcome State Fault Refusal :=
  .next <|
    if s.clk.refclkOk then s
    else
      let s := { s with clk := { s.clk with refclkOk := true } }
      let s := toBypass (forEach dspDomains toBypass s) .hubCore
      let s := pllsOff s (allPlls.filter (· != .monitor))
      if s.pwr.st == .deepSleep then sysReset (forEach s.flt.latch writeFixed s) (.boot 3 true)
      else flushFixed (forEach (List.finRange 2) (fun t c => ddrFail t c 3) s)

/-! ### Supplies (R414 to R416) -/

/-- Whether the comparators' events can be raised: the device is neither in PORST_N nor in Off. -/
def railsWatched (s : State) : Bool := s.pwr.st != .off && s.pwr.st != .inPorst

/-- The supply fault of a rail (R414): a fixed cause for VDD_HV and the VDD_DSPd, which acts without the collector and
so whatever it ignores (R395); one that holds raises no further fault (R381). -/
def railFault (s : State) (r : RailId) (mv : Nat) : State :=
  let src := fixedSource (.supply r)
  if fixedRail r then (if tabGet false s.flt.raised src then s else fixedStart s (.supply r) mv)
  else raiseFault s src mv

/-- SUPPLY_WINDOW (R376). -/
def supplyEvent (s : State) (r : RailId) (left : Bool) (mv : BitVec 16) : State :=
  postGlobal s 18 [(0, 1, r.val), (1, 1, bit left), (2, 2, mv.toNat)]

/-- A target's window in 0.1 mV (Table 1 of Power). -/
def targetWindow (mv : Nat) : Int × Int := (10 * (mv : Int) - 300, 10 * (mv : Int) + 400)

/-- A rail's window in 0.1 mV (R414, Table 1): a moving rail has the union of both targets' (R415). -/
def railWindow (s : State) (r : RailId) : Int × Int :=
  let x := getRail s r
  match r.val with
  | 1 => (8550, 9450)
  | 2 => (11400, 12600)
  | 3 => (8075, 8925)
  | 4 => (10450, 11550)
  | 5 => (17100, 18900)
  | 6 => (7125, 7875)
  | _ =>
    let w := targetWindow x.mv
    if s.mono < x.settle then (min w.1 (targetWindow x.old).1, max w.2 (targetWindow x.old).2) else w

/-- Whether a measured voltage lies in a rail's window. -/
def inWindow (s : State) (r : RailId) (mv : BitVec 16) : Bool :=
  decide ((railWindow s r).1 ≤ 10 * (mv.toNat : Int)) && decide (10 * (mv.toNat : Int) ≤ (railWindow s r).2)

/-- A rail's comparator has seen it outside its window for 100 ns (R414). -/
def execSupplyWindowExit (r : RailId) (mv : BitVec 16) (s : State) : Host.Outcome State Fault Refusal :=
  .next <|
    let x := getRail s r
    if x.out || !railsWatched s || inWindow s r mv then s
    else if !s.clk.refclkOk then (if fixedRail r then railFault s r mv.toNat else s)
    else railFault (supplyEvent (setRail s r
      { x with out := true, low := decide (10 * (mv.toNat : Int) < (railWindow s r).1) }) r true mv) r mv.toNat

/-- A rail is back in its window. -/
def execSupplyWindowReentry (r : RailId) (mv : BitVec 16) (s : State) : Host.Outcome State Fault Refusal :=
  .next <|
    let x := getRail s r
    if !x.out || !railsWatched s || !s.clk.refclkOk || !inWindow s r mv then s
    else clearCause (supplyEvent (setRail s r { x with out := false,
                                                       low := false }) r false mv) (fixedSource (.supply r))

/-- Whether the device sets a rail over AVSBus (R416). -/
def avsRail (r : RailId) : Bool := r.val == 0 || decide (7 ≤ r.val)

/-- A status alert and its Status read (R416): a regulator fault raises the rail's supply fault at once, whatever the
measured voltage; the mV of its DETAIL is a free value. -/
def execAvsStatusAlert (r : RailId) (regFault : Bool) (s : State) : Host.Outcome State Fault Refusal :=
  .next <|
    if regFault && avsRail r && railsWatched s && s.clk.refclkOk then
      let d := freeNat s
      railFault d.2 r (d.1 % 65536)
    else s

end Sys2Proof.Machine
end

