-- ==== Sys2Proof/Machine/Restart.lean ====
section
/-!
DEFINITION. The steps that a boot and a restore share (R517 Table 3, R435 Table 7): the hub image starts, DDR5 trains,
the die-to-die links train, the herds start, the dies run their calibration, Run (R520).
-/

namespace Sys2Proof.Machine

/-- The hub image starts (R517 step 5): it writes the sequenced rails (R511), draws a challenge (R502), and posts the
FW_FALLBACK that a reset during a sequence owes (R489). In Decommissioned the whole debug scope is open (R506). -/
def bootHub (s : State) : State :=
  let s := railTo s 0 800
  let s := forEach (List.finRange 8) (fun t d => railTo t (dspRail d) 750) s
  let s := pllJudged s .pcie
  let d := draw s
  let s := { d.2 with
    sec := { d.2.sec with challenge := d.1, unlocked := d.2.sec.lifecycle == 2
                          scope := if d.2.sec.lifecycle = 2 then 7 else 0 } }
  if s.fw.fellBack then postGlobal { s with fw := { s.fw with fellBack := false } } 82 [(0, 1, 1)] else s

/-- The identity is checked (R498): it is ready unless the unit has none left. -/
def bootIdentity (s : State) : State :=
  { s with sec := { s.sec with ready := s.sec.keyProg && s.sec.seedProg && !s.sec.seedGone } }

/-- The power-on self-test begins with step 4 (R457); its record's START_TIME. -/
def postBegin (s : State) : BistRun :=
  { step := 0, start := now s, startMono := s.mono, saved := false, logicFail := 0, memFails := [], repairs := 0,
    dieTemp := 0 }

/-- A power-on self-test without findings (R457, R461): its record is kept, BIST_DONE is posted. Its duration and
temperature are free values. -/
def postPasses (s : State) : State :=
  let d := freeNat s
  let e := freeNat d.2
  let run := { postBegin e.2 with dieTemp := BitVec.ofNat 16 e.1 }
  let dur := d.1 % 2 ^ 32
  postGlobal
    { e.2 with nv := { e.2.nv with postRec := some (bistRecord 0xFFFF 0 dur e.2.nv.repairs.length run),
                                   postHerd := 0xFFFF } }
    72 [(0, 2, 0xFFFF), (2, 1, 0), (4, 4, dur)]

/-- A channel trains (R143): DDR_TRAINED; its capacity is what it was found to have. -/
def ddrTrain (s : State) (c : ChanId) : State :=
  let x := getDdr s c
  let s := pllJudged (setDdr s c { x with trained := true, gib := x.size, failed := false,
                                          selfRefresh := false }) (.ddr c)
  postGlobal s 48 [(0, 1, c.val), (1, 1, x.size.toNat)]

/-- The DDR5 training image runs on both channels (R517 step 7); a changed one has now run (R483). -/
def bootDdr (s : State) (bad : Option ChanId) : State :=
  let s := if s.fw.ddrNew then
      postGlobal { s with fw := { s.fw with ddrNew := false } } 81
        [(0, 1, 3), (1, 1, 0xFF), (4, 4, s.fw.running.ddr.version.toNat)]
    else s
  forEach (List.finRange 2) (fun t c => if bad == some c then ddrFail t c 1 else ddrTrain t c) s

/-- The line dies are powered, their links' clocks lock, and the die-to-die links are trained (R517 step 8): the cause
of a link lost before ends (R381). -/
def bootLinks (s : State) : State :=
  let s := { s with dies := mapDies s fun x => { x with d2dUp := true } }
  forEach (List.finRange 8) (fun t d => clearCause (pllJudged t (.ucie d)) (0x902 + 8 * d.val)) s

/-- The herd image is started on every herd (R517 step 10). -/
def bootHerds (s : State) : State :=
  { s with herds := mapHerds s fun x =>
      { x with image := s.fw.running.herd.version, imageDig := s.fw.running.herd.digest } }

/-- The dies' full calibration runs with trigger 0 (R449). -/
def bootCal (s : State) : State :=
  forEach (List.finRange 8) (fun t d => dieRunEnd (setDie t d { getDie t d with calRun := some 0 }) d) s

/-- Every PLL is judged locked and every domain switches to its own (R404, R409). Which herd's domain switches last is a
free value. -/
def clocksUp (s : State) : State :=
  let n := freeNat s
  let s := forEach allPlls pllJudged n.2
  let s := switchNow s .hubCore true
  let k := (dspDomains.filter fun d => !(getSwitch s d).onPll)
  let s := forEach dspDomains (fun t d => switchNow t d true) s
  if k.isEmpty then s
  else { s with clk := { s.clk with lastDomain := BitVec.ofNat 8 (((k.map domainCode).getD (n.1 % k.length)) 0) } }

/-- Step 11: the runs are done, PLLs are judged locked, the domains are on them, Run is reached (R490, R517, R520). -/
def bootRun (s : State) : State :=
  let s := clocksUp (bootCal s)
  { s with pwr := { s.pwr with st := .run, dark := false, deaf := s.mono + deafNs, hubDeaf := s.mono + deafNs }
           fw := { s.fw with bootFails := 0 } }

/-- From the hub image on to Run with nothing failing. -/
def bootThrough (s : State) : State := bootRun (bootHerds (bootLinks (bootDdr (bootIdentity (bootHub s)) none)))

end Sys2Proof.Machine
end

