-- ==== Sys2Proof/Machine/Power.lean ====
section
/-!
DEFINITION. Power (17 Power States, Levels and Wake): the sequencer (R417 to R419), the device states with their entries
and restores (R420 to R437), the PWR commands (R327).
-/

namespace Sys2Proof.Machine

/-! ### Levels (R416 to R419) -/

/-- The levels that a change passes, the last one included (R418). -/
def levelWalk (a b : Nat) : List Nat :=
  if a < b then (List.range (b - a)).map (a + 1 + ·) else (List.range (a - b)).map (a - 1 - ·)

/-- PWR_LEVEL_CHANGED (R417). -/
def postLevel (s : State) (d : DieId) (n : Nat) : State := postGlobal s 17 [(0, 1, d.val), (1, 1, n)]

/-- PWR.LEVEL commands of a die complete once it runs at the level it needs (R327). -/
def levelWaits (s : State) (d : DieId) : State :=
  let x := getDie s d
  if x.step.isNone && x.level = dieNeed s d then
    let mine := s.waits.filterMap fun w => match w with
      | .level e c => if e == d then some c else none
      | _ => none
    let s := { s with waits := s.waits.filter fun w => match w with
      | .level e _ => e != d
      | _ => true }
    forEach mine (fun t c => completeOk t 0x0B02 c (.hub :: (herdsOf d).map .herd) 0) s
  else s

/-- A herd's waiting commit is applied once its die surely runs a level that allows it (R26, R339), not while the herd
controller restarts. -/
def applyWaiting (s : State) (h : HerdId) : State :=
  match (getHerd s h).commit with
  | some k =>
    if (getHerd s h).st != .fwRestart && decide (runLevel (getDie s (dieOfHerd h)) ≤ herdNeed (getHerd s h)) then
        herdApply s h k
    else s
  | none => s

/-- A sequencer step ends (R418, R419): waiting commits of the die's herds are applied, then the sequencer goes on to
the level that is needed now, or the change is over and posts once, unless it ends where it started. -/
def execSequencerStepEnd (d : DieId) (s : State) : Host.Outcome State Fault Refusal :=
  .next <|
    let x := getDie s d
    match x.step.filter fun _ => s.clk.refclkOk with
    | none => s
    | some n =>
      let s := setDie s d { x with level := n, step := none }
      let s := forEach (herdsOf d) applyWaiting s
      let y := getDie s d
      if y.step.isSome then setDie s d { y with start := x.start }
      else
        let need := dieNeed s d
        if need ≠ y.level && inService s then
          stepBegin (setDie s d { y with target := need, start := x.start }) d (nextLevel y.level need)
        else
          let s := setDie s d { y with target := need, start := y.level }
          levelWaits (if n = x.start then s else postLevel s d n) d

/-- PWR.LEVEL (R327). -/
def execPwrLevel (c : Cmd) (die floor : BitVec 8) (s : State) : Host.Outcome State Fault Refusal :=
  .next <|
    if h : die.toNat < 8 then
      if 3 < floor.toNat && floor ≠ 0xFF then reject s 0x0B02 c stBadParam (resField 0x11)
      else
        let d : DieId := ⟨die.toNat, h⟩
        let s := setDie s d { getDie s d with floor := if floor = 0xFF then none else some floor.toNat }
        levelWaits (retarget { s with waits := s.waits ++ [.level d c] } d) d
    else reject s 0x0B02 c stBadParam (resField 0x10)

/-- A die is brought to a level in one go (Table 4a step 6, Table 6 step 4): each step's voltage is written; the change
posts once. -/
def dieTo (s : State) (d : DieId) (n : Nat) : State :=
  let x := getDie s d
  let mv := (getRail s (dspRail d)).mv
  let s := forEach (levelWalk x.level n) (fun t l => railTo t (dspRail d) (levelMv l)) s
  let s := setDie s d { x with level := n, target := n, step := none, start := n }
  let s := setRail s (dspRail d) { getRail s (dspRail d) with old := mv }
  if n = x.level then s else postLevel s d n

/-! ### Entries (R423 to R427) -/

/-- Whether a firmware activation or fallback sequence runs (R423). -/
def fwRuns (s : State) : Bool := s.fw.seq == .running || s.fw.seq == .falling

/-- Whether a herd's observation path is in use; a Chamois that holds it defers an entry but refuses none (R423). -/
def pathBusy (x : Herd) : Bool := obsHeld x

/-- Whether nothing defers a Sleep entry any more (R419, R423, R478). -/
def sleepReady (s : State) : Bool :=
  (allHerds.all fun h => (getHerd s h).st != .selfTest && (getHerd s h).obs.st == .stopped) && !fwRuns s &&
    (s.ports.all fun e => e.2.diag.st == .none) && s.fw.session.isNone &&
    (List.finRange 8).all fun d => (getDie s d).step.isNone

/-- A port leaves service (Table 4a step 2). -/
def portSleep (s : State) (p : PortId) : State :=
  let x := getPort s p
  let quiet := fun (s : State) => clearAttempts (waitNegotiate s p) p
  let s := match x.st with
    | .up =>
      let s := if storeUp s (chanOf p) then beginSave s p 6 none false else s
      quiet (leaveUp s p 0x06 .negotiate)
    | .negotiate => quiet s
    | st => if isTraining st then quiet (abortTo s p 0x0B .negotiate) else s
  modPort s p fun y => { y with lane := laneIdle y.lane }

/-- Entry to Sleep (2), Deep Sleep (3) or Off (4) begins: from Run and Idle the ports leave service. -/
def entryBegin (s : State) (t : Fin 5) : State :=
  let s := { s with pwr := { s.pwr with st := .entering t, pending := none, latched := none } }
  if s.pwr.dark then s else forEach allPorts portSleep s

/-- A deferred entry begins once nothing defers it (R423). -/
def powerPoll (s : State) : State :=
  match s.pwr.pending with
  | none => s
  | some t => if inService s && sleepReady s && s.clk.refclkOk then entryBegin s t else s

/-- A Sleep entry is called for: at once, or deferred (R423). -/
def sleepCalled (s : State) : State := powerPoll { s with pwr := { s.pwr with pending := some 2 } }

/-- Remaining time of the herd under self-test (R423). -/
def refuseTest (s : State) : Option (BitVec 8 × BitVec 64) := (testedHerd s).map (busyTest s)

/-- PWR.STATE SLEEP (R327, R423); in Sleep, and during an entry, there is nothing to begin. -/
def execPwrStateSleep (c : Cmd) (s : State) : Host.Outcome State Fault Refusal :=
  .next <|
    match refuseTest s with
    | some r => reject s 0x0B01 c r.1 r.2
    | none =>
      if fwRuns s || allHerds.any (fun h => pathBusy (getHerd s h)) then reject s 0x0B01 c stRefused 0xFF
      else
        let s := completeOk s 0x0B01 c [] 0
        if inService s then sleepCalled s else s

/-- PWR.STATE DEEP_SLEEP: from Sleep only. -/
def execPwrStateDeepSleep (c : Cmd) (s : State) : Host.Outcome State Fault Refusal :=
  .next <|
    match refuseTest s with
    | some r => reject s 0x0B01 c r.1 r.2
    | none =>
      if s.pwr.st == .sleep && !fwRuns s then entryBegin (completeOk s 0x0B01 c [] 0) 3
      else reject s 0x0B01 c stRefused 0xFF

/-- PWR.STATE OFF: from Run, Idle or Sleep (R427); during an entry it begins once that has completed. -/
def execPwrStateOff (c : Cmd) (s : State) : Host.Outcome State Fault Refusal :=
  .next <|
    match refuseTest s with
    | some r => reject s 0x0B01 c r.1 r.2
    | none =>
      if fwRuns s then reject s 0x0B01 c stRefused 0xFF
      else
        let s := completeOk s 0x0B01 c [] 0
        if inService s || s.pwr.st == .sleep then entryBegin s 4
        else { s with pwr := { s.pwr with pending := some 4 } }

/-- A save that is not visible at the end of an entry leaves the earlier context (Table 4a step 3). -/
def dropSave (x : Port) : Port :=
  if (x.save.map fun v => v.cmd.isNone && !v.paired).getD false then { x with save := none } else x

/-- A herd's record of a Sleep entry, with the PORT_STATEs that its ports show then (Table 4a step 3). DEDUCED, log
40. -/
def sleepRec (s : State) (h : HerdId) : State :=
  let x := getHerd s h
  storeHerdRec s h { resolved := x.resolved, policy := x.policy, states := (portsOf h).map fun p => (getPort s p).st }

/-- Steps 3 to 5 of Table 4a: saves not visible are given up, counters are in MRAM, events are delivered, every block is
written. -/
def entrySettle (s : State) : State :=
  let s := { s with ports := s.ports.map fun e => (e.1, dropSave e.2) }
  let s := forEach allHerds sleepRec s
  let s := forEach allHerds (fun t h => (drainHerd t h).1) (persistAll s)
  mirrorAll (deliverHub s s.io.hubBuf.recs.length)

/-- The PLLs that Sleep powers down (Table 4a steps 6 to 8). -/
def sleepPlls : List PllKind := [.root, .ddr 0, .ddr 1] ++ allHerds.map .herd ++ allHerds.map .lane

/-- Steps 6 to 8 of Table 4a: dies lowered, DDR5 in self-refresh, PLLs off, hub core on the bypass as the last switch.
-/
def sleepReached (s : State) : State :=
  let s := forEach dspDomains (fun t d => switchNow t d false) s
  let s := forEach (List.finRange 8) (fun t d => dieTo t d 3) s
  let s := forEach (List.finRange 2) (fun t c => setDdr t c { getDdr t c with selfRefresh := true }) s
  let s := pllsOff (switchNow s .hubCore false) sleepPlls
  let s := railTo s 0 650
  { s with pwr := { s.pwr with st := .sleep, dark := true, deepCnt := regVal s 0x408 != 0 } }

/-- A schedule pending at Off entry is cancelled (R437). -/
def cancelSchedules (s : State) : State :=
  { s with
    fw := if s.fw.seq == .scheduled then
        { s.fw with seq := if windowOpen s.fw then .awaiting else restSeq s.fw, startT := 0, fallback := false }
      else s.fw
    herds := s.herds.map fun e => (e.1, { e.2 with obs := { e.2.obs with sched := [] } }) }

/-- A latched wake source is replayed where Table 5 allows it (R431). -/
def replayWake (s : State) (t : Fin 5) : State :=
  match s.pwr.latched with
  | some src => if wakeAllowed src t then wakeBegin s src true t else { s with pwr := { s.pwr with latched := none } }
  | none => s

/-- An entry completes (R424, R426, R427), not while the always-on domain stands still (R412). Debug access closes at
the entry to Deep Sleep and Off (R506). -/
def execPowerEntryDone (s : State) : Host.Outcome State Fault Refusal :=
  .next <| if !s.clk.refclkOk then s else
    match s.pwr.st with
    | .entering t =>
      let s := if s.pwr.dark then s else entrySettle s
      if t = 2 then
        let s := sleepReached s
        if s.pwr.pending == some 4 && s.pwr.latched.isNone then entryBegin s 4 else replayWake s 2
      else if t = 3 then
        replayWake { s with pwr := { s.pwr with st := .deepSleep, dark := true },
                            sec := { s.sec with unlocked := false, scope := 0 } } 3
      else
        replayWake (cancelSchedules
          { s with pwr := { s.pwr with st := .off, dark := true },
                   sec := { s.sec with unlocked := false, scope := 0 } }) 4
    | _ => s

/-! ### Timers and activity (R420 to R422) -/

/-- IDLE_US without host activity (R420); 0 never. -/
def execIdleTimerExpiry (s : State) : Host.Outcome State Fault Refusal :=
  .next <|
    if s.pwr.st == .run && regVal s 0x400 != 0 && s.clk.refclkOk then
      mirrorWrite { s with pwr := { s.pwr with st := .idle } } .hub
    else s

/-- SLEEP_MS without host activity or port traffic (R421); 0 is not armed. -/
def execSleepTimerExpiry (s : State) : Host.Outcome State Fault Refusal :=
  .next <| if inService s && regVal s 0x404 != 0 && s.clk.refclkOk then sleepCalled s else s

/-- DEEP_MS in Sleep, when armed at the entry (R363, R420). -/
def execDeepTimerExpiry (s : State) : Host.Outcome State Fault Refusal :=
  .next <| if s.pwr.st == .sleep && s.pwr.deepCnt && s.clk.refclkOk then entryBegin s 3 else s

/-- The address bits of an implemented BAR that can be written: its size decides (R267). -/
def barMask (n : Fin 6) : BitVec 32 :=
  match n.val with
  | 0 => 0xFC000000
  | 2 => 0xFFFC0000
  | 4 => 0xFFFF0000
  | _ => 0

/-- What configuration space holds (R266, R267): the Device ID above the Vendor ID, class code 02_8000h above the
revision (a free value, log 12), the BARs, BAR1, BAR3 and BAR5 at 0, and the host's settings. -/
def cfgValue (s : State) (r : CfgReg) : BitVec 32 :=
  let c := s.io.cfg
  match r with
  | .id => 0x51241ED4
  | .classCode => 0x02800000 ||| (Config.revision.setWidth 32)
  | .bar n => match n.val with
    | 0 => c.bar0
    | 2 => c.bar2
    | 4 => c.bar4
    | _ => 0
  | .payload => c.payload.setWidth 32
  | .readRequest => c.readRequest.setWidth 32
  | .aspm => BitVec.ofNat 32 (bit c.aspm)
  | .tags10 => BitVec.ofNat 32 (bit c.tags10)

/-- A configuration write (R266, R267): a BAR takes its address bits, Max Payload Size at most 512 bytes (code 2) and
Max Read Request Size at most 4,096 bytes (code 5); a code above keeps the old one (log 12). -/
def cfgWrite (c : PciCfg) (r : CfgReg) (v : BitVec 32) : PciCfg :=
  match r with
  | .id => c
  | .classCode => c
  | .bar n =>
    let a := v &&& barMask n
    match n.val with
    | 0 => { c with bar0 := a }
    | 2 => { c with bar2 := a }
    | 4 => { c with bar4 := a }
    | _ => c
  | .payload => if v.toNat ≤ 2 then { c with payload := v.setWidth 3 } else c
  | .readRequest => if v.toNat ≤ 5 then { c with readRequest := v.setWidth 3 } else c
  | .aspm => { c with aspm := v.getLsbD 0 }
  | .tags10 => { c with tags10 := v.getLsbD 0 }

/-- The 32 pending bits of a word of the pending bit array (R302). -/
def pendingBits (s : State) (i : Nat) : BitVec 32 :=
  BitVec.ofNat 32 (((List.range 32).map fun k => bit (getVec s (32 * i + k)).pending * 2 ^ k).sum)

/-- A 4-byte word of BAR4 (Table 1 of Rings): the vectors' entries of 16 bytes, as PCIe lays them out, at 0x0000; the
pending bit array at 0x8000; the rest is reserved. -/
def bar4Word (s : State) (i : Nat) : BitVec 32 :=
  if i < 8192 then
    let x := getVec s (i / 4)
    match i % 4 with
    | 0 => x.addr.setWidth 32
    | 1 => (x.addr >>> 32).setWidth 32
    | 2 => x.data
    | _ => BitVec.ofNat 32 (bit x.masked)
  else if i < 8256 then pendingBits s (i - 8192)
  else 0

/-- A host access that the function serves (R266, R267, R286). -/
def hostAccess (s : State) (a : HostAccess) : State :=
  match a with
  | .configRead r => emit s (.readData (cfgValue s r))
  | .configWrite r v => { s with io := { s.io with cfg := cfgWrite s.io.cfg r v } }
  | .doorbellRead r off => emit s (.readData (doorbellRead s r (4 * off.val)))
  | .bar4Read word => emit s (.readData (bar4Word s word.val))

/-- A configuration request or another host access without a row of its own: host activity (R421), which the function
serves; while it trains and before Run, a configuration request completes with Request Retry Status (R518). -/
def execHostActivity (a : HostAccess) (s : State) : Host.Outcome State Fault Refusal :=
  .next <|
    match s.pwr.st, a with
    | .boot n _, .configRead _ => if 6 ≤ n then emit s .retry else s
    | .boot n _, .configWrite _ _ => if 6 ≤ n then emit s .retry else s
    | _, _ => if busUp s then hostAccess (touch s) a else s

/-! ### Wakes (R428 to R437) -/

def execWakeNAssert (s : State) : Host.Outcome State Fault Refusal :=
  .next <| if !s.clk.refclkOk then s else wakeSource s 1

/-- A transaction's STOP (R367, R429): one whose address matches the ADDR in force is host activity, and with
WAKE_MATCH a wake source; a written ADDR is in force from here on. -/
def execSidebandAddressMatch (addr : BitVec 7) (s : State) : Host.Outcome State Fault Refusal :=
  .next <|
    let cfg := regVal s 0x700
    let hit := addr == s.pwr.sideAddr
    let s := { s with pwr := { s.pwr with sideAddr := BitVec.ofNat 7 (fld cfg 0 7) } }
    if hit then
      let s := touch s
      if cfg.getLsbD 8 then wakeSource s (if cfg.getLsbD 9 then 3 else 2) else s
    else s

/-- WAKE (R376). -/
def postWake (s : State) : State :=
  postGlobal s 16 [(0, 1, s.pwr.wake.toNat), (1, 1, bit s.pwr.replayed), (2, 1, s.pwr.fromSt.val)]

/-- A port after the restore from Sleep (Table 6 step 5). -/
def portResume (s : State) (p : PortId) : State :=
  let x := getPort s p
  let s := if x.st == .negotiate then newAttempt (clearAttempts s p) p else s
  if x.st == .test || x.st == .safe || !lanesMay s (herdOf p) then s
  else modPort s p fun y => { y with lane := laneBlind s p y.lane }

/-- The restore from Sleep (Table 6). -/
def sleepRestore (s : State) : State :=
  let s := clocksUp (railTo s 0 800)
  let s := forEach (List.finRange 2) (fun t c => setDdr t c { getDdr t c with selfRefresh := false }) s
  let s := forEach (List.finRange 8) (fun t d => levelWaits (dieTo t d (dieNeed t d)) d) s
  let s := { s with pwr := { s.pwr with st := .run, dark := false, deepCnt := false, deaf := s.mono + deafNs } }
  let s := forEach allPorts portResume s
  let s := forEach (List.finRange 8) dieTrigger s
  postWake (mirrorAll s)

/-- Whether a retention bank failed. -/
def bankFailed (mask : BitVec 4) (b : Nat) : Bool := mask.getLsbD b

/-- The bank that covers a port's settings (Table 13). -/
def portBank (p : Nat) : Nat := if p < 256 then 1 else 2

/-- The registers that come through Deep Sleep (R372): banks 0 and 3, LANE_POLARITY, HUB_SIDEBAND_CFG (R367). -/
def deepRegs (s : State) (mask : BitVec 4) : Tab (BitVec 32) :=
  s.regs.filter fun e => match regLoc e.1 with
    | .hub o => (bank0Regs.contains o && !bankFailed mask 0) || (bank3Regs.contains o && !bankFailed mask 3) ||
        decide (o = 0x700)
    | .port p o => decide (o = 0x100) && !bankFailed mask (portBank p.val)
    | _ => false

/-- A herd after Deep Sleep (R372): its live set from its bank, or L100 and AUTO. Without a single mode it has none
resolved, and its PLL runs the first mode of MODE_SET. DESIGN CHOICE, log 61. A scheduled observation start stays
(R437). -/
def deepHerd (s : State) (mask : BitVec 4) (h : HerdId) : Herd :=
  let x := getHerd s h
  let y := { Herd.reset with obs := { Obs.reset with sched := x.obs.sched } }
  if bankFailed mask (portBank (8 * h.val)) then y
  else
    { y with modeSet := x.modeSet, policy := x.policy, shModeSet := x.modeSet, shPolicy := x.policy,
             resolved := singleMode x.modeSet, pllMode := (firstMode x.modeSet).getD .l100 }

/-- A port's enable state, as its bank holds it (R433): what PORT.ENABLE left, also in safe state and under test. -/
def portEnabled (x : Port) : Bool :=
  x.st != .disabled && !((x.st == .safe || x.st == .test) && x.back == .disabled)

/-- A port after Deep Sleep (R372, R434): its live set, LPI.CONFIG and enable state from its bank, or its defaults and
DISABLED until a commit; its lane at its herd's rate (R177). The lane holds the taps of preset 2, LANE_TAPS' reset
value (R372), also with a retained LANE_TX_PRESET of 1 or 3, whose taps R184 loads at reset: the spec does not say
which of the two a wake is. DESIGN CHOICE, log 61. -/
def deepPort (s : State) (mask : BitVec 4) (p : PortId) : Port :=
  let x := getPort s p
  let y := { Port.reset with pers := tabGet [] s.nv.pers p.val, temp := x.temp,
                             lane := laneIdle { Lane.reset with mode := (deepHerd s mask (herdOf p)).pllMode } }
  if bankFailed mask (portBank p.val) then { y with mustCommit := true }
  else
    { y with live := x.live, shadow := x.live, lpiCfg := x.lpiCfg, mustCommit := x.mustCommit,
             st := if portEnabled x then .negotiate else .disabled }

/-- A die after it has been powered: at the level it needs and its voltage (R417, Table 7 step 7), without a change of
level. -/
def dieUp (s : State) (d : DieId) : State :=
  let n := dieNeed s d
  let s := setDie s d { getDie s d with level := n, target := n, step := none, start := n }
  if (getRail s (dspRail d)).mv = levelMv n then s else railTo s (dspRail d) (levelMv n)

/-- The faults and the event of failed banks (R433). -/
def bankFaults (s : State) (mask : BitVec 4) : State :=
  if mask = 0 then s
  else
    let s := forEach ((List.range 4).filter (bankFailed mask)) (fun t b => raiseFault t 0xA35 b) s
    postGlobal s 64 [(0, 1, mask.toNat)]

/-- Firmware over Deep Sleep: a schedule whose window is not open stays (R437). -/
def deepFw (s r : State) : Fw :=
  if s.fw.seq == .scheduled && !windowOpen s.fw then
    { r.fw with seq := .scheduled, startT := s.fw.startT, fallback := s.fw.fallback }
  else r.fw

/-- The state of a device that is powered from Deep Sleep, before its boot steps (R372, R433, R434): `r` is the state
after its reset. -/
def deepState (s r : State) (mask : BitVec 4) : State :=
  let f := { r.flt with volatile := [], first := none, times := [],
                        cfg := if bankFailed mask 3 then [] else s.flt.cfg }
  { r with
    regs := deepRegs s mask, flt := f
    dies := mapDies s fun x => { keepDie x with calTemp := 0, calCount := 0, calTime := 0 }
    ports := allPorts.map fun (p : PortId) => (p.val, deepPort { s with nv := r.nv } mask p)
    herds := allHerds.map fun (h : HerdId) => (h.val, deepHerd s mask h)
    fw := deepFw s r
    time := { r.time with syncCount := 0, syncLast := 0, syncMono := none }
    clk := { r.clk with lastDomain := 0, lastLost := 0, lastIndet := false }
    pwr := { r.pwr with wake := s.pwr.wake, replayed := s.pwr.replayed, fromSt := s.pwr.fromSt,
                        sideAddr := s.pwr.sideAddr, padsHeld := true,
                        retFail := mask } }

/-- The restore from Deep Sleep (Table 7, R372, R433, R434, R436). -/
def deepRestore (s : State) (mask : BitVec 4) : State :=
  let r := deepState s (sysReset s (.restoring 3)) mask
  postWake (bankFaults (forEach (List.finRange 8) dieUp (bootThrough r)) mask)

/-- The state of a device that is powered from Off, before its boot steps: as the release of PORST_N, with the always-on
registers of R427 and held pads; `r` is the state after PORST_N. -/
def offState (s r : State) : State :=
  { r with
    regs := s.regs.filter fun e => decide (e.1 = 0x700)
    flt := { r.flt with latch := s.flt.latch, fixedHold := s.flt.fixedHold, ended := s.flt.ended }
    pwr := { r.pwr with wake := s.pwr.wake, replayed := s.pwr.replayed, fromSt := s.pwr.fromSt,
                        sideAddr := s.pwr.sideAddr, padsHeld := true } }

/-- Every host lane in IDLE, as held pads keep it (R436). -/
def lanesHeld (s : State) : State :=
  { s with ports := allPorts.map fun p => (p.val, { getPort s p with lane := laneIdle (getPort s p).lane }) }

/-- Run is reached: at the end of a wake with held pads, the lanes are in IDLE and WAKE is posted (R435, R436). -/
def wakeEnds (s : State) : State := if s.pwr.padsHeld then postWake (lanesHeld s) else s

/-- The restore from Off in one (R435): as the release of PORST_N, with a power-on self-test that finds nothing. -/
def offRestore (s : State) : State := flushFixed (wakeEnds (bootThrough (postPasses (offState s (porReset s)))))

/-- A port without a running attempt begins one. -/
def portRelease (s : State) (p : PortId) : State :=
  let x := getPort s p
  let s := if x.st == .negotiate && !x.neg.open_ && !chamoisRuns x then newAttempt s p else s
  if x.st == .test || x.st == .safe || !lanesMay s (herdOf p) then s
  else modPort s p fun y => { y with lane := laneBlind s p y.lane }

/-- RELEASE of PWR_PAD_RELEASE (R436): the pads are free, ports make attempts, lanes start blind. -/
def releasePads (s : State) : State :=
  if s.pwr.padsHeld then
    forEach allPorts portRelease { s with pwr := { s.pwr with padsHeld := false } }
  else s

def execPadRelease (s : State) : Host.Outcome State Fault Refusal :=
  .next <| if busUp s then releasePads { touch s with heldLow := none } else s

end Sys2Proof.Machine
end

