-- ==== Sys2Proof/Machine/Registers.lean ====
section
/-!
DEFINITION. BAR0 (14 Set-up Register Map, R10 to R14, R268, R341, R353 to R372): what every register reads, what a write
does, 64-bit pairs, blocks that cannot be reached, and what registers start: the mirror, a frequency measurement, fault
injection, LED frames.
-/

namespace Sys2Proof.Machine

/-! ### What registers read -/

/-- Two 16-bit halves or wider parts of a word, as (bit, value). -/
def word32 (l : List (Nat × Nat)) : BitVec 32 := BitVec.ofNat 32 (l.foldl (fun n e => n + e.2 * 2 ^ e.1) 0)

/-- The low word of a 64-bit value. -/
def lo32 (v : BitVec 64) : BitVec 32 := v.setWidth 32

/-- The high word of a 64-bit value. -/
def hi32 (v : BitVec 64) : BitVec 32 := (v >>> 32).setWidth 32

/-- Whether a switched domain stands on the bypass. -/
def onBypass (s : State) (d : Domain) : Bool := !(getSwitch s d).onPll

/-- LEVEL and FLOOR_SET of PWR_DIE_LEVEL (Table 7). -/
def dieLevelWord (s : State) : BitVec 32 :=
  word32 ((List.finRange 8).flatMap fun d =>
    [(2 * d.val, (getDie s d).level), (16 + d.val, bit (getDie s d).floor.isSome)])

/-- FLT_FIRST_FAULT (Table 8). -/
def firstWord (s : State) : BitVec 32 :=
  match s.flt.first with
  | some (r, _) => word32 [(0, r.source.toNat), (16, r.cls.toNat), (20, r.level.toNat), (31, 1)]
  | none => 0

/-- The time of the held first fault. -/
def firstTime (s : State) : BitVec 64 := (s.flt.first.map fun e => e.1.time).getD 0

/-- Whether factory test mode is active (R499, R507): by token, or in Decommissioned by TEST_EN alone. -/
def factoryOn (s : State) : Bool := s.sec.factory || (s.sec.lifecycle == 2 && s.straps.testEn)

/-- A hub register (Tables 3 to 10 and HUB_MIRROR_*). -/
def hubReg (s : State) (o : Nat) : BitVec 32 :=
  match o with
  | 0x000 => 0x00105124
  | 0x004 => 0x51241ED4
  | 0x008 => Config.deviceTag.setWidth 32
  | 0x00C => word32 [(0, Config.deviceTag.toNat / 2 ^ 32), (31, bit s.sec.keyProg)]
  | 0x010 => word32 [(0, s.straps.bootSrc.toNat), (2, bit s.straps.chainEnd), (3, bit s.straps.testEn)]
  | 0x014 => word32 [(0, bit s.fw.slot), (1, bit s.fw.ibex), (2, s.fw.ibexCause.toNat), (4, s.fw.bootFails.toNat),
      (8, bit s.fw.setReset)]
  | 0x018 => s.fw.running.hub.version
  | 0x030 => word32 [(0, bit s.access.err), (1, s.access.cause.toNat), (4, bit s.access.overflow)]
  | 0x034 => word32 [(0, s.access.addr.toNat), (26, bit s.access.write)]
  | 0x038 => word32 [(0, bit (getDdr s 0).trained + 2 * bit (getDdr s 1).trained), (8, (getDdr s 0).gib.toNat),
      (16, (getDdr s 1).gib.toNat)]
  | 0x100 => lo32 (now s)
  | 0x104 => hi32 (now s)
  | 0x10C => s.time.syncCount
  | 0x110 => lo32 s.time.syncLast
  | 0x114 => hi32 s.time.syncLast
  | 0x200 => word32 [(0, bit (getPll s pllRoot).locked), (1, bit s.clk.refclkOk), (2, bit (onBypass s .hubCore)),
      (3, bit (getPll s (pllDdr 0)).locked + 2 * bit (getPll s (pllDdr 1)).locked),
      (5, bit (getPll s pllPcie).locked)]
  | 0x204 => word32 [(0, s.clk.lastDomain.toNat), (8, s.clk.lastLost.toNat), (16, bit s.clk.lastIndet)]
  | 0x20C => word32 [(0, s.clk.fmcCount.toNat), (31, bit s.clk.fmcDone)]
  | 0x308 => word32 [(0, bit (mirrorEnabled s)), (1, bit s.io.dmaErr)]
  | 0x40C => word32 [(0, s.pwr.wake.toNat), (4, bit s.pwr.replayed), (5, s.pwr.fromSt.val)]
  | 0x410 => word32 [(1, bit s.pwr.padsHeld)]
  | 0x414 => word32 [(0, s.pwr.retFail.toNat)]
  | 0x41C => dieLevelWord s
  | 0x524 => word32 [(0, bit (faultPin s)), (1, bit s.flt.fixedHold), (2, fixedCause s),
      (16, min 0xFFFF (unackedCount s))]
  | 0x528 => firstWord s
  | 0x52C => lo32 (firstTime s)
  | 0x530 => hi32 (firstTime s)
  | 0x600 => word32 [(0, s.sec.lifecycle.toNat), (4, bit s.sec.owner.isSome), (5, bit (factoryOn s)),
      (6, bit s.sec.unlocked), (7, bit s.sec.ready)]
  | 0x604 => s.fw.running.hub.svn
  | 0x608 => s.fw.running.herd.svn
  | 0x60C => s.fw.running.ddr.svn
  | 0x708 => word32 [(0, (regVal s 0x708).toNat), (8, bit s.fw.inLock), (9, bit s.fw.outLock)]
  | o =>
    if 0x620 ≤ o ∧ o < 0x640 then (Config.rootHash >>> (8 * (o - 0x620))).setWidth 32
    else if h : 0x710 ≤ o ∧ o < 0x730 then (getDie s ⟨(o - 0x710) / 4, by omega⟩).calCount
    else if h : 0x740 ≤ o ∧ o < 0x780 then
      let t := (getDie s ⟨(o - 0x740) / 8, by omega⟩).calTime
      if (o - 0x740) % 8 = 0 then lo32 t else hi32 t
    else regVal s o &&& regMask o

/-- A register of a ring's window (Tables 5 to 11 of Rings). ENABLE reads 1 in ACTIVE and ERROR. -/
def ringReg (s : State) (r : RingId) (o : Nat) : BitVec 32 :=
  let x := getRing s r
  match o with
  | 0x10 => if x.st == .active || x.st == .error then 1 else 0
  | 0x14 => BitVec.ofNat 32 (ringStateWord x)
  | 0x18 => x.dev.setWidth 32
  | 0x1C => x.host.setWidth 32
  | o => regVal s (ringOff r o) &&& regMask (ringOff r o)

/-- Divider of the herd PLL's output (R24). -/
def pllDivide : LineMode → Nat
  | .l50 => 1
  | .l25 => 2
  | _ => 0

/-- A herd block register (Table 11). -/
def herdReg (s : State) (h : HerdId) (o : Nat) : BitVec 32 :=
  let x := getHerd s h
  match o with
  | 0x000 => word32 [(0, h.val), (6, h.val / 8)]
  | 0x004 => word32 [(0, shownHerd s h), (8, resolvedCode x), (16, timingCode x.timing), (24, leadCode x)]
  | 0x008 => word32 [(0, bit (getPll s (pllHerd h)).locked), (1, bit (pllRuns x == .l100x)), (2, pllDivide (pllRuns x)),
      (4, bit (getPll s (pllLane h)).locked), (5, bit ((portsOf h).any fun p => (getPort s p).lane.mode == .l25))]
  | 0x00C => x.image
  | 0x010 => word32 [(0, (getHerdBuf s h).recs.length), (16, bit (getHerdBuf s h).collapsed)]
  | _ => 0

/-- A port block register (Table 12). -/
def portReg (s : State) (p : PortId) (o : Nat) : BitVec 32 :=
  let x := getPort s p
  match o with
  | 0x0000 => word32 [(0, p.val), (9, p.val / 8), (15, p.val / 64)]
  | 0x0004 => word32 [(0, shownPort s p), (8, lpiCode (shownX s p).lpi.st), (16, shownLane s p),
      (24, diagCode x.diag.st)]
  | 0x0104 => x.lane.taps.d ++ x.lane.taps.c ++ x.lane.taps.b ++ x.lane.taps.a
  | 0x0108 => word32 [(0, x.lane.ctle.toNat), (6, bit x.lane.preRx), (7, bit x.lane.preTx)]
  | o =>
    if h : 0x10 ≤ o ∧ o < 0x20 then (quadGet x.pairs ⟨(o - 0x10) / 4, by omega⟩).calCount
    else if h : 0x20 ≤ o ∧ o < 0x40 then
      let t := (quadGet x.pairs ⟨(o - 0x20) / 8, by omega⟩).calTime
      if (o - 0x20) % 8 = 0 then lo32 t else hi32 t
    else regVal s (portOff p o) &&& regMask (portOff p o)

/-- The live value of a register; 0 where no table defines one (R354). -/
def regLive (s : State) (off : Nat) : BitVec 32 :=
  if off % 4 ≠ 0 then 0
  else match regLoc off with
    | .hub o => hubReg s o
    | .ring r o => ringReg s r o
    | .vec v => regVal s (vecOff v.val) &&& regMask (vecOff v.val)
    | .herd h o => herdReg s h o
    | .port p o => portReg s p o
    | .none => 0

/-- Whether an offset is the low word of a 64-bit register (R12): the ones whose tables say that they latch, and the
two bases that R274 and R341 name. -/
def isLow64 (off : Nat) : Bool :=
  match regLoc off with
  | .hub o => [0x100, 0x110, 0x300, 0x52C].contains o || (decide (0x740 ≤ o) && decide (o < 0x780) && o % 8 == 0)
  | .ring _ o => o == 0
  | .port _ o => decide (0x20 ≤ o) && decide (o < 0x40) && o % 8 == 0
  | _ => false

/-- Whether an offset is the high word of a 64-bit register. -/
def isHigh64 (off : Nat) : Bool := decide (4 ≤ off) && isLow64 (off - 4)

/-! ### Blocks that cannot be reached (R14, R356) -/

/-- The CAUSE of R356 Table 2 for an address, in the order BLOCK_OFF, D2D_DOWN, TEST. -/
def refusedCause (s : State) (off : Nat) : Option Nat :=
  let of := fun (h : HerdId) =>
    if blocksOff s then some 1
    else if !(getDie s (dieOfHerd h)).d2dUp then some 3
    else if (getHerd s h).st == .selfTest then some 2
    else none
  match regLoc off with
  | .herd h _ => of h
  | .port p _ => of (herdOf p)
  | _ => none

/-- What a read of a block that cannot be reached returns (R14). -/
def offWord : BitVec 32 := 0x0FF00FF0

/-- An access ended by the bridge (R356, R438): the read's value, the dropped write, the error. -/
def endAccess (s : State) (off : Nat) (write : Bool) (cause : Nat) : State :=
  accessErr (if write then s else emit s (.readData offWord)) off write cause

/-! ### What writes start -/

/-- A write of HUB_MIRROR_CTRL (R341): DMA_ERR is W1C; setting ENABLE writes every block once. -/
def writeMirror (s : State) (val : BitVec 32) : State :=
  let was := mirrorEnabled s
  let s := { s with io := { s.io with dmaErr := s.io.dmaErr && !val.getLsbD 1 } }
  let s := regStore s 0x308 val
  if val.getLsbD 0 && !was then mirrorAll s else s

/-- A write of CLK_FMC_CTRL (R362): SEL and UNIT are checked; START clears DONE and starts the measurement anew. -/
def writeFmc (s : State) (val : BitVec 32) : State :=
  if !regOk 0x208 val then accessErr s 0x208 true 4
  else
    let s := regStore s 0x208 val
    if val.getLsbD 15 then { s with clk := { s.clk with fmcDone := false, fmcRunning := true } } else s

/-- A write of FLT_INJECT with GO (R365, R398): LOCKED outside factory test mode, BAD_VALUE for a fixed source. -/
def inject (s : State) (source : Nat) (network : Bool) : State :=
  if !factoryOn s then accessErr s 0x534 true 5
  else if (fltDef source).fixed then accessErr s 0x534 true 4
  else collect s [{ source := source, detail := 0, injected := true, network := network }]

/-- A write of FLT_INJECT. -/
def writeInject (s : State) (val : BitVec 32) : State :=
  if !factoryOn s then accessErr s 0x534 true 5
  else if 1 < fld val 16 2 || (fltDef (fld val 0 16)).fixed then accessErr s 0x534 true 4
  else if val.getLsbD 31 then inject s (fld val 0 16) (val.getLsbD 16)
  else s

/-- A write of HUB_ACCESS_STATUS (W1C): clearing ACCESS_ERR clears CAUSE. -/
def writeAccess (s : State) (val : BitVec 32) : State :=
  let a := s.access
  let a := if val.getLsbD 0 then { a with err := false, cause := 0 } else a
  { s with access := if val.getLsbD 4 then { a with overflow := false } else a }

/-! ### 64-bit pairs (R13) -/

/-- Whether a register may change now: ring settings only in DISABLED (R275), the mirror base only while ENABLE is 0
(R341). -/
def writable (s : State) (off : Nat) : Bool :=
  match regLoc off with
  | .ring r o => decide (0x10 ≤ o) || (getRing s r).st == .disabled
  | .hub o => !((o == 0x300 || o == 0x304) && mirrorEnabled s)
  | _ => true

/-- Stores a word where it may change. -/
def storeAllowed (s : State) (off : Nat) (val : BitVec 32) : State := if writable s off then regStore s off val else s

/-- Whether an offset is the low word of a pair that can be written. -/
def isPairLow (off : Nat) : Bool :=
  match regLoc off with
  | .hub o => o == 0x300
  | .ring _ o => o == 0
  | _ => false

/-- A low word is held until its high word is written. -/
def writeLow (s : State) (off : BitVec 26) (val : BitVec 32) : State := { s with heldLow := some (off, val) }

/-- A high word applies with the held low word, or alone. -/
def writeHigh (s : State) (off : Nat) (val : BitVec 32) : State :=
  let held := s.heldLow
  let s := { s with heldLow := none }
  match held with
  | some (o, v) =>
    if o.toNat + 4 = off then storeAllowed (storeAllowed s o.toNat v) off val else storeAllowed s off val
  | none => storeAllowed s off val

/-- A write of PWR_PAD_RELEASE (R436). -/
def writePads (s : State) (val : BitVec 32) : State := if val.getLsbD 0 then releasePads s else s

/-- A write of RING_CTRL (Table 9 of Rings). -/
def writeRingCtrl (s : State) (r : RingId) (val : BitVec 32) : State :=
  if val.getLsbD 0 then enableRing s r else disableRing s r

/-- A write of a register with fields and nothing else (R11, R355); RING_VEC_MOD may let a waiting message go (R304). -/
def writeFields (s : State) (off : Nat) (val : BitVec 32) : State :=
  if regMask off = 0 then s
  else if regOk off val then
    let s := storeAllowed s off val
    match regLoc off with
    | .vec v => vecCheck s v.val
    | _ => s
  else accessErr s off true 4

/-- A write to a register that is no half of a base pair (R11, R354, R355). -/
def writePlain (s : State) (off : BitVec 26) (val : BitVec 32) : State :=
  if off = 0x030 then writeAccess s val
  else if off = 0x208 then writeFmc s val
  else if off = 0x308 then writeMirror s val
  else if off = 0x410 then writePads s val
  else if off = 0x534 then writeInject s val
  else match regLoc off.toNat with
    | .ring r 0x10 => writeRingCtrl s r val
    | _ => writeFields s off.toNat val

/-- A write to a register of any kind that can be reached (R11, R13, R354, R355). A write to an offset of BAR0 that no
table defines discards the held low word like one to any other register; a write to the MSI-X table, outside BAR0,
keeps it: R13 says neither. DESIGN CHOICE, log 62. -/
def writeReg (s : State) (off : BitVec 26) (val : BitVec 32) : State :=
  if isPairLow off.toNat then writeLow s off val
  else if isPairLow (off.toNat - 4) then writeHigh s off.toNat val
  else writePlain { s with heldLow := none } off val

/-- A host write at an aligned address: host activity, refused where the block cannot be reached (R356). -/
def busWrite (s : State) (off : BitVec 26) (val : BitVec 32) : State :=
  if !busUp s then s
  else
    let s := touch s
    if off.toNat % 4 ≠ 0 then emit s (.unsupported true)
    else match refusedCause s off.toNat with
      | some cause => endAccess s off.toNat true cause
      | none => writeReg s off val

/-- A host read at an aligned address (R12, R14): the low word of a 64-bit register latches its high word, the high
word returns the latch. -/
def busRead (s : State) (off : BitVec 26) : State :=
  if !busUp s then s
  else
    let s := touch s
    let o := off.toNat
    if o % 4 ≠ 0 then emit s (.unsupported false)
    else match refusedCause s o with
      | some cause => endAccess s o false cause
      | none =>
        if isHigh64 o then emit s (.readData (tabGet 0 s.latches (o - 4)))
        else
          let v := regLive s o
          emit (if isLow64 o then { s with latches := tabSet s.latches o (regLive s (o + 4)) } else s) (.readData v)

/-! ### The commands -/

def execRegisterWrite (off : BitVec 26) (val : BitVec 32) (s : State) : Host.Outcome State Fault Refusal :=
  .next (busWrite s off val)

def execReg64LowRead (off : BitVec 26) (s : State) : Host.Outcome State Fault Refusal := .next (busRead s off)

def execReg64LowWrite (off : BitVec 26) (val : BitVec 32) (s : State) : Host.Outcome State Fault Refusal :=
  .next (busWrite s off val)

def execReg64HighWrite (off : BitVec 26) (val : BitVec 32) (s : State) : Host.Outcome State Fault Refusal :=
  .next (busWrite s off val)

/-- An access of another size or alignment (R268). -/
def execBar0BadAccess (off : BitVec 26) (write : Bool) (s : State) : Host.Outcome State Fault Refusal :=
  .next <|
    let _ := off
    if busUp s then emit (touch s) (.unsupported write) else s

/-- An access to a herd or port block that cannot be reached (R356). -/
def execBlockAccessRefused (off : BitVec 26) (write : Bool) (s : State) : Host.Outcome State Fault Refusal :=
  .next <|
    if !busUp s then s
    else match refusedCause s off.toNat with
      | some cause => endAccess (touch s) off.toNat write cause
      | none => s

/-- An access that does not complete within 64 cycles of a gate request (R438): CAUSE BLOCK_OFF. -/
def execGateAccessTimeout (off : BitVec 26) (write : Bool) (s : State) : Host.Outcome State Fault Refusal :=
  .next <| if busUp s then endAccess s off.toNat write 1 else s

def execMirrorEnable (val : BitVec 32) (s : State) : Host.Outcome State Fault Refusal := .next (busWrite s 0x308 val)

/-- A block whose measured fields have changed is rewritten (R345). -/
def execMirrorMeasuredUpdate (o : MirrorObj) (s : State) : Host.Outcome State Fault Refusal := .next (mirrorWrite s o)

/-- A mirror write ends with an error (R341): DMA_ERR, ENABLE clears, MIRROR_DMA_ERROR, fault source 0x0A51, whose
DETAIL the spec gives for rings only: a free value. -/
def execMirrorWriteError (addr : BitVec 64) (s : State) : Host.Outcome State Fault Refusal :=
  .next <| if !s.clk.refclkOk then s else
    if mirrorEnabled s then
      let d := freeNat s
      let s := regStore { d.2 with io := { d.2.io with dmaErr := true } } 0x308 0
      raiseFault (postGlobal s 116 [(0, 8, addr.toNat)]) 0xA51 d.1
    else s

def execFmcStart (val : BitVec 32) (s : State) : Host.Outcome State Fault Refusal := .next (busWrite s 0x208 val)

/-- The UNIT of a measurement, as a herd. -/
def fmcUnit (s : State) : HerdId := BitVec.toFin (BitVec.ofNat 6 (fld (regVal s 0x208) 4 6))

/-- The judged clock that a measurement's SEL and UNIT name, if it is one. -/
def fmcPll (s : State) : Option PllKind := pllKind ⟨BitVec.toFin (BitVec.ofNat 4 (fld (regVal s 0x208) 0 4)), fmcUnit s⟩

/-- Whether the clock that SEL and UNIT name stands (R362): a PLL that is off, the DSP clock of a die that is stopped
or not powered (Table 4a of Power States), the hub core's clocks in Idle, where it is gated, LED_CLK without frames.
-/
def fmcStopped (s : State) : Bool :=
  match fld (regVal s 0x208) 0 4 with
  | 9 => !lineClocks s
  | 15 => !(regVal s 0x704).getLsbD 0 || s.pwr.padsHeld
  | _ => (fmcPll s).any fun k => k != .monitor && !pllOn s k

/-- Expected COUNT per REFCLK cycle, as a fraction (Table 6): of a clock that derives from REFCLK, while its PLL is
locked. -/
def fmcRatio (s : State) : Option (Nat × Nat) :=
  let hub := fun (a b : Nat × Nat) => some (if (getSwitch s .hubCore).onPll then a else b)
  let locked := fun (k : PllKind) (a : Nat × Nat) => if (getPll s (pllId k)).locked then some a else none
  let h := fmcUnit s
  let dsp := if (getSwitch s (.herdDsp h)).onPll then
      locked (.herd h) (10 * pllTimes (getHerd s h), 8 * dspDivider (getDie s (dieOfHerd h)).level) else some (1, 8)
  match fld (regVal s 0x208) 0 4 with
  | 0 => some (1, 1)
  | 1 => locked .root (1, 1)
  | 2 => hub (1, 1) (1, 8)
  | 3 => some (1, 4)
  | 4 => locked .pcie (16, 25)
  | 5 => locked (.ddr 0) (32, 25)
  | 6 => locked (.ddr 1) (32, 25)
  | 7 => hub (32, 25) (1, 2)
  | 8 => locked (.herd h) (pllTimes (getHerd s h), 64)
  | 9 => dsp
  | 10 => locked (.lane h) (if (portsOf h).any fun p => (getPort s p).lane.mode == .l25 then (330, 256) else (340, 256))
  | 11 => if e : h.val < 8 then locked (.ucie ⟨h.val, e⟩) (4, 5) else none
  | 12 => hub (1, 1) (1, 2)
  | 14 => locked .pcie (4, 5)
  | 15 => some (1, 4 * 2 ^ (fld (regVal s 0x704) 4 4 + 1))
  | _ => none

/-- COUNT of a measurement (R362): 0 of a stopped clock; of a clock at a known ratio to REFCLK, the window's cycles,
or one more as the window falls on them; of another, as counted. -/
def fmcResult (s : State) (count : BitVec 24) : BitVec 24 :=
  if fmcStopped s then 0
  else match fmcRatio s with
    | some r =>
      let n := BitVec.ofNat 24 (fld (regVal s 0x208) 16 16 * r.1 / r.2)
      if count = n + 1 then count else n
    | none => count

/-- The measurement window ends (R362): it counts REFCLK cycles. -/
def execFmcWindowEnd (count : BitVec 24) (s : State) : Host.Outcome State Fault Refusal :=
  .next <|
    if s.clk.fmcRunning && s.clk.refclkOk then
      { s with clk := { s.clk with fmcRunning := false, fmcDone := true, fmcCount := fmcResult s count } }
    else s

/-- FLT_INJECT with GO and MODE 0. -/
def execFltInjectEvent (source : BitVec 16) (s : State) : Host.Outcome State Fault Refusal :=
  .next (busWrite s 0x534 (0x80000000 ||| source.setWidth 32))

/-- FLT_INJECT with GO and MODE 1. -/
def execFltInjectPair (source : BitVec 16) (s : State) : Host.Outcome State Fault Refusal :=
  .next (busWrite s 0x534 (0x80010000 ||| source.setWidth 32))

/-! ### LED frames (R368) -/

/-- Bit 1 of a port in an LED frame, by BIT1 (Table 10). -/
def ledBit (s : State) (p : PortId) (sel : Nat) : Bool :=
  let x := getPort s p
  match sel with
  | 0 => x.active
  | 1 => (shownX s p).lpi.st != .active && (shownX s p).lpi.st != .blocked
  | 2 => shownPort s p == 10 || shownPort s p == 2
  | _ => x.startPath == 1

/-- A frame of 1,024 bits, port 0 first, bit 0 before bit 1; with ENABLE clear or the pads held none is sent. -/
def execLedFrame (s : State) : Host.Outcome State Fault Refusal :=
  .next <|
    let ctrl := regVal s 0x704
    let s' := { s with ports := s.ports.map fun e => (e.1, { e.2 with active := false }) }
    if ctrl.getLsbD 0 && !s.pwr.padsHeld && hubRuns s then
      emit s' (.led (allPorts.flatMap fun p => [shownPort s p == 8, ledBit s p (fld ctrl 16 2)]))
    else s'

end Sys2Proof.Machine
end

