-- ==== Sys2Proof/Machine/Firmware.lean ====
section
/-!
DEFINITION. Firmware images (19): header checks, sessions and staging (R463 to R474), activation and fallback sequences
(R481 to R486), confirmation (R487 to R489), FW commands (R329) and FW.STATUS (R494).
-/

namespace Sys2Proof.Machine

/-! ### Images and checks (R463 to R469) -/

/-- The image kinds 0 hub, 1 herd, 2 DDR5 training, by IMAGE_KIND 1 to 3 (R463). -/
def kindOf (k : BitVec 8) : Option (Fin 3) :=
  match k.toNat with
  | 1 => some 0
  | 2 => some 1
  | 3 => some 2
  | _ => none

/-- The largest body of a kind (R463). -/
def maxBody : Fin 3 → Nat
  | 0 => 4194304
  | 1 => 1048576
  | 2 => 262144

/-- `size` bytes at an offset of an object, little-endian (R465, R501). -/
def rawField (raw off size : Nat) : Nat := raw >>> (8 * off) % 2 ^ (8 * size)

/-- Whether words of an object from an offset on are 0. -/
def rawZero (raw off words : Nat) : Bool := (List.range words).all fun i => rawField raw (off + 4 * i) 4 == 0

/-! The fields of an image header (R465, Table 3) that the checks and the sequences read. -/

def hdrKind (h : ImageHeader) : BitVec 8 := BitVec.ofNat 8 (rawField h.raw 0x004 1)
def hdrPartId (h : ImageHeader) : BitVec 16 := BitVec.ofNat 16 (rawField h.raw 0x006 2)
def hdrStepping (h : ImageHeader) : BitVec 32 := BitVec.ofNat 32 (rawField h.raw 0x008 4)
def hdrKeySlot (h : ImageHeader) : BitVec 8 := BitVec.ofNat 8 (rawField h.raw 0x00C 1)
def hdrFlags (h : ImageHeader) : BitVec 8 := BitVec.ofNat 8 (rawField h.raw 0x00D 1)
def hdrSvn (h : ImageHeader) : BitVec 32 := BitVec.ofNat 32 (rawField h.raw 0x010 4)
def hdrVersion (h : ImageHeader) : BitVec 32 := BitVec.ofNat 32 (rawField h.raw 0x014 4)
def hdrBodySize (h : ImageHeader) : Nat := rawField h.raw 0x018 4
def hdrConfirmS (h : ImageHeader) : BitVec 16 := BitVec.ofNat 16 (rawField h.raw 0x026 2)
def hdrBindHash (h : ImageHeader) : BitVec 256 := BitVec.ofNat 256 (rawField h.raw 0x050 32)

/-- Check 1 of Table 4: MAGIC, HEADER_FORMAT, and every reserved byte and bit and the padding 0. -/
def hdrFormatOk (h : ImageHeader) : Bool :=
  rawField h.raw 0x000 4 == 0x5A574649 && rawField h.raw 0x005 1 == 1 && decide (hdrFlags h < 4) &&
    rawField h.raw 0x00E 2 == 0 && rawZero h.raw 0x028 2 && rawZero h.raw 0x070 36 && rawZero h.raw 0xF94 27

/-- What the device keeps of an image. -/
def imgOf (h : ImageHeader) (chain : Bool) : Img :=
  { version := hdrVersion h, svn := hdrSvn h, digest := h.digest, ifVersion := BitVec.ofNat 16 (rawField h.raw 0x01C 2),
    ifMin := BitVec.ofNat 16 (rawField h.raw 0x01E 2), ifMax := BitVec.ofNat 16 (rawField h.raw 0x020 2),
    setFormat := BitVec.ofNat 16 (rawField h.raw 0x022 2), setRead := BitVec.ofNat 16 (rawField h.raw 0x024 2),
    confirmS := hdrConfirmS h, raise := (hdrFlags h).getLsbD 1, chain := chain }

/-- The first 8 bytes of a digest (R470). -/
def digest8 (d : BitVec 256) : Nat := d.toNat % 2 ^ 64

/-- The key hash that OTP holds in a slot (R465, R495). -/
def slotHash (s : State) (slot : BitVec 8) : Option (BitVec 256) :=
  match slot.toNat with
  | 0 => some Config.rootHash
  | 1 => s.sec.owner
  | _ => none

/-- Checks 1 to 4 of Table 4: the refusal code, 0x80 for ST_AUTH_FAIL. -/
def headerKey (s : State) (h : ImageHeader) : Option (BitVec 8) :=
  if !(hdrFormatOk h) then some 0x01
  else match kindOf (hdrKind h) with
    | none => some 0x02
    | some k =>
      if (hdrBodySize h) = 0 || maxBody k < (hdrBodySize h) ||
          (k == 0 && (hdrConfirmS h) != 0 && (decide ((hdrConfirmS h).toNat < 10) ||
              decide (3600 < (hdrConfirmS h).toNat))) then
        some 0x02
      else match slotHash s (hdrKeySlot h) with
        | none => some (if hdrKeySlot h = 1 then 0x03 else 0x80)
        | some hash => if h.keyHash == hash && h.sigOk then none else some 0x80

/-- Checks 5 to 7 of Table 4. -/
def headerUnit (s : State) (h : ImageHeader) : Option (BitVec 8) :=
  if (hdrPartId h) != 0x5124 || !(hdrStepping h).getLsbD 4 then some 0x04
  else if (hdrFlags h).getLsbD 0 && (hdrBindHash h) != Config.identityHash then some 0x05
  else match kindOf (hdrKind h) with
    | none => none
    | some k => if (hdrSvn h).toNat < (triGet s.fw.floors k).toNat then some 0x06 else none

/-- Whether staging is closed (R471): a schedule, a sequence or an open window. -/
def stagingClosed (f : Fw) : Bool :=
  f.seq == .scheduled || f.seq == .running || f.seq == .falling || windowOpen f

/-- Check 8 of Table 4 (R471). -/
def headerStage (s : State) (h : ImageHeader) : Option (BitVec 8) :=
  if stagingClosed s.fw then some 0x09
  else match (kindOf (hdrKind h)).bind (triGet s.fw.staged) with
    | none => none
    | some x =>
      if (hdrSvn h).toNat < x.svn.toNat then some 0x07
      else if (hdrSvn h) == x.svn && h.digest != x.digest then some 0x08
      else none

/-- A refusal, whatever its source (R467, R469): LAST_REFUSAL; a failed signature raises AUTH_FAIL and its fault. -/
def noteRefusal (s : State) (code : BitVec 8) : State :=
  let s := { s with fw := { s.fw with lastRef := code } }
  if code = 0x80 then raiseFault (postGlobal s 96 [(0, 1, 1)]) 0xA70 0 else s

/-- The completion of a refusal (R469). -/
def refusalStatus (code : BitVec 8) : BitVec 8 × BitVec 64 :=
  if code = 0x80 then (stAuthFail, 0) else (stImageRefused, code.setWidth 64)

/-! ### Sessions (R470 to R473) -/

/-- SEQ_STATE after a change of what is staged. -/
def restFw (f : Fw) : Fw := if f.seq == .idle || f.seq == .staged then { f with seq := restSeq f } else f

/-- Nothing of a kind is staged any more. -/
def dropKind (s : State) (k : Fin 3) : State :=
  { s with fw := restFw { s.fw with staged := triSet s.fw.staged k none } }

/-- An image of a kind is staged. -/
def stageKind (s : State) (k : Fin 3) (i : Img) : State :=
  { s with fw := restFw { s.fw with staged := triSet s.fw.staged k (some i) } }

/-- CHAIN_SESSION of a chain session (R478). -/
def postSession (s : State) (source : BitVec 8) (n : Nat) (digest : BitVec 256) : State :=
  if source = 2 then postGlobal s 105 [(0, 1, n), (8, 8, digest8 digest)] else s

/-- The open session closes. -/
def closeSession (s : State) : State :=
  match s.fw.session with
  | some x => postSession { s with fw := { s.fw with session := none } } x.source 2 x.header.digest
  | none => s

/-- A conflict discards the staged image as well (R471). -/
def conflict (s : State) (h : ImageHeader) : State :=
  match kindOf (hdrKind h) with
  | none => s
  | some k =>
    match triGet s.fw.staged k with
    | none => s
    | some x => dropKind (postGlobal s 83 [(0, 8, digest8 x.digest), (8, 8, digest8 h.digest)]) k

/-- A session opens on a header that has passed checks 1 to 7, and check 8 is made (R467, R470, R471). Answers the
refusal of check 8, with the session closed again. -/
def openSession (s : State) (source : BitVec 8) (h : ImageHeader) (c : Option Cmd) : State × Option (BitVec 8) :=
  let same := ((kindOf (hdrKind h)).bind (triGet s.fw.staged)).any fun x => x.digest == h.digest
  let x : Session := { source := source, header := h, got := 0, seq := 0, cmd := c, program := false, same := same }
  let s' := postSession { s with fw := { s.fw with session := some x } } source 1 h.digest
  match headerStage s h with
  | some code =>
    let s' := if code = 0x08 then conflict s' h else s'
    (noteRefusal (closeSession s') code, some code)
  | none => (s', none)

/-- The open session ends with a refusal of its body or of the flash (R473): no image of the kind is staged. -/
def sessionRefuse (s : State) (code : BitVec 8) : State :=
  match s.fw.session with
  | none => s
  | some x =>
    let s := match kindOf (hdrKind x.header) with
      | some k => dropKind s k
      | none => s
    let s := noteRefusal (closeSession s) code
    match x.cmd with
    | some c => reject s 0x0D01 c stImageRefused (code.setWidth 64)
    | none => s

/-- The session's command completes with ST_OK. -/
def sessionOk (s : State) (x : Session) : State :=
  match x.cmd with
  | some c => completeOk s 0x0D01 c [] (hdrBodySize x.header)
  | none => s

/-- A hub image has been staged in this Ibex entry (R493). -/
def ibexMark (s : State) (h : ImageHeader) : State :=
  if s.pwr.st == .ibex && (hdrKind h) == 1 then { s with fw := { s.fw with ibexStaged := true } } else s

/-- The body is complete (R471, R473): it is compared; then the slot is programmed, which erases what it held (R472).
An equal image is staged already. -/
def bodyDone (s : State) (digestOk : Bool) : State :=
  match s.fw.session with
  | none => s
  | some x =>
    if x.got ≠ (hdrBodySize x.header) then sessionRefuse s 0x0B
    else if !digestOk then sessionRefuse s 0x0A
    else if x.same then sessionOk (ibexMark (closeSession s) x.header) x
    else { s with fw := { s.fw with session := some { x with program := true }, prevValid := false,
                                    previous := ⟨none, none, none⟩ } }

/-- Where an image of a kind stands in the flash: slot A at 0, slot B at 16 MiB (R464, Table 2). -/
def flashAt (slotB : Bool) (k : Fin 3) : Nat :=
  (if slotB then 0x1000000 else 0) + (match k with
    | 0 => 0
    | 1 => 0x500000
    | 2 => 0x700000)

/-- The images that programming a kind writes into the staging slot: the first one staged brings copies of the running
images of the other two (R472). -/
def flashWrites (f : Fw) (k : Fin 3) (digest : BitVec 256) : List (Nat × BitVec 256) :=
  let first := f.staged.hub.isNone && f.staged.herd.isNone && f.staged.ddr.isNone
  let copies := if first then (List.finRange 3).filter (· != k) else []
  (copies.map fun j => (flashAt (!f.slot) j, (triGet f.running j).digest)) ++ [(flashAt (!f.slot) k, digest)]

/-- Programming a kind writes its slot of the flash (R464, R472). -/
def flashSlot (s : State) (k : Fin 3) (digest : BitVec 256) : State :=
  forEach (flashWrites s.fw k digest) (fun s w => emit s (.flash w.1 w.2)) s

/-- The slot is programmed and read back (R473): the session closes staged, then FW_STAGED. -/
def programDone (s : State) (ok : Bool) : State :=
  match s.fw.session with
  | none => s
  | some x =>
    if !x.program then s
    else if !ok then sessionRefuse s 0x0C
    else match kindOf (hdrKind x.header) with
      | none => s
      | some k =>
        let s := flashSlot s k x.header.digest
        let s := ibexMark (closeSession (stageKind s k (imgOf x.header (x.source == 2)))) x.header
        let s := postGlobal s 80 [(0, 1, k.val + 1), (1, 1, bit (!s.fw.slot)), (4, 4, (hdrVersion x.header).toNat)]
        sessionOk s x

/-! ### FW.STAGE (R474) -/

/-- Posted buffers up to the one with LAST go back unread; without LAST the next ones do, too. -/
def returnRest (r : RingId) : List DataDesc → State → State
  | [], s => { s with fw := { s.fw with dropping := s.fw.dropping ++ [r] } }
  | d :: rest, s =>
    let t := popBuf s r d rest
    if !descOk false d then returnRest r rest (completeBuf t.2 3 t.1 stBadParam 0)
    else
      let s := completeBuf t.2 3 t.1 stSuperseded 0
      if d.flags == 1 then s else returnRest r rest s

/-- An FW.STAGE takes no more buffers; what is left of its object goes back unless LAST has been read. -/
def stageStop (s : State) (r : Stage) (rest : List DataDesc) (last : Bool) : State :=
  let s := { s with fw := { s.fw with stages := s.fw.stages.filter fun x => x.cmd != r.cmd } }
  if last then s else returnRest r.ring rest s

/-- The header of an FW.STAGE's object has been read: the refusal, or an open session. -/
def stageGate (s : State) (r : Stage) : State × Option (BitVec 8 × BitVec 64) :=
  match s.fw.session with
  | some x => (s, some (stSessionBusy, BitVec.ofNat 64 (digest8 x.header.digest)))
  | none =>
    match (headerKey s r.obj.header).or (headerUnit s r.obj.header) with
    | some code => (noteRefusal s code, some (refusalStatus code))
    | none =>
      let t := openSession s 1 r.obj.header (some r.cmd)
      (t.1, t.2.map refusalStatus)

/-- The body bytes of an open session so far. -/
def setGot (s : State) (n : Nat) : State :=
  { s with fw := { s.fw with session := s.fw.session.map fun x => { x with got := n } } }

/-- A buffer with bytes of the body has been read (R473, R474): the object is too long, complete, or goes on. -/
def stageBody (s : State) (r : Stage) (rest : List DataDesc) (got : Nat) (last : Bool) : State × Bool :=
  let s := setGot s (got - 4096)
  if 4096 + (hdrBodySize r.obj.header) < got then (sessionRefuse (stageStop s r rest last) 0x0B, false)
  else if last then (bodyDone (stageStop s r rest true) r.obj.digestOk, false)
  else (s, true)

/-- An FW.STAGE takes posted buffers one after another up to the one with LAST (R295, R474). -/
def stageFeed (r : Stage) : List DataDesc → State → State
  | [], s => { s with fw := { s.fw with stages := s.fw.stages.map fun x => if x.cmd == r.cmd then r else x } }
  | d :: rest, s =>
    let t := popBuf s r.ring d rest
    if !descOk false d then stageFeed r rest (completeBuf t.2 3 t.1 stBadParam 0)
    else
      let got := r.got + d.length.toNat
      let last := d.flags == 1
      let whole := completeBuf t.2 3 t.1 stOk d.length.toNat
      if got < 4096 then
        if last then
          reject (noteRefusal (stageStop whole r rest true) 0x0B) 0x0D01 r.cmd stImageRefused 0x0B
        else stageFeed { r with got := got } rest whole
      else if r.got < 4096 then
        let g := stageGate t.2 r
        match g.2 with
        | some e =>
          let s := stageStop (completeBuf g.1 3 t.1 stOk (4096 - r.got)) r rest last
          complete s 0x0D01 r.cmd (if e.1 == stAuthFail then [.hub] else []) e.1 e.2
        | none =>
          let b := stageBody (completeBuf g.1 3 t.1 stOk d.length.toNat) r rest got last
          if b.2 then stageFeed { r with got := got } rest b.1 else b.1
      else
        let b := stageBody whole r rest got last
        if b.2 then stageFeed { r with got := got } rest b.1 else b.1

/-- Buffers posted since then are returned or taken (R474). -/
def stagePoll (s : State) : State :=
  if canWrite s then
    let l := s.fw.dropping
    let s := forEach l (fun s r => returnRest r (getRing s r).bufs s) { s with fw := { s.fw with dropping := [] } }
    forEach s.fw.stages (fun s r => stageFeed r (getRing s r.ring).bufs s) s
  else s

/-- Whether Ibex listens to a source (R491, Table 8): 1 PCIe, 2 I3C, 3 the chain, by the codes of BOOT_SRC. -/
def ibexListens (s : State) (src : Nat) : Bool :=
  s.pwr.st != .ibex || s.fw.ibexCause != 1 || s.straps.bootSrc.toNat == src

/-- FW.STAGE (R329, R470, R474). -/
def execFwStage (c : Cmd) (img : ImageObj) (s : State) : Host.Outcome State Fault Refusal :=
  .next <|
    match s.fw.session with
    | some x => reject s 0x0D01 c stSessionBusy (BitVec.ofNat 64 (digest8 x.header.digest))
    | none =>
      if !ibexListens s 1 then reject s 0x0D01 c stRefused 0xFF
      else match dataRingOf s c .hub 4 with
        | none => reject s 0x0D01 c stNoResource 0
        | some r =>
          stagePoll { s with fw := { s.fw with
            stages := s.fw.stages ++ [{ cmd := c, ring := r, obj := img, got := 0 }] } }

/-- An FW.STAGE has waited 10 s for its next buffer (R474). -/
def execFwStageBufferTimeout (s : State) : Host.Outcome State Fault Refusal :=
  .next <| if !s.clk.refclkOk then s else
    match s.fw.stages with
    | [] => s
    | r :: _ =>
      let s := stageStop s r [] true
      let s := if (s.fw.session.bind (·.cmd)) == some r.cmd then closeSession s else s
      reject s 0x0D01 r.cmd stTimeout 0

def execFwProgramDone (ok : Bool) (s : State) : Host.Outcome State Fault Refusal :=
  .next <| if !s.clk.refclkOk then s else programDone s ok

/-- An FW.STAGE whose next buffer fails (R295): the buffer and the command complete with ST_TIMEOUT. -/
def stageDmaFault (s : State) (r : Stage) : State :=
  match (getRing s r.ring).bufs with
  | [] => s
  | d :: rest =>
    let t := popBuf s r.ring d rest
    let s := stageStop (completeBuf t.2 3 t.1 stTimeout 0) r rest (d.flags == 1)
    let s := if (s.fw.session.bind (·.cmd)) == some r.cmd then closeSession s else s
    reject s 0x0D01 r.cmd stTimeout 0

/-- A DMA fault on a data buffer (R295): the oldest buffer taken from the ring completes with ST_TIMEOUT, and so does
the command that took it. With none taken, it meets the next buffer that a command takes. A diagnostic whose command
has completed keeps its result for a later buffer. Log 34. -/
def execDataBufferDmaFault (r : RingId) (s : State) : Host.Outcome State Fault Refusal :=
  .next <| if !s.clk.refclkOk then s else
    match (getRing s r).taken, s.fw.stages.find? fun x => x.ring == r with
    | [], some x => stageDmaFault s x
    | [], none => modRing s r fun x => { x with dmaBad := x.st == .active || x.st == .draining }
    | k :: _, _ =>
      match s.io.snaps.find? fun n => n.buf == k with
      | some n => snapFail s n
      | none =>
        let s := dropIn s k stTimeout
        { s with ports := s.ports.map fun e =>
            (e.1, if e.2.diag.buf == some k then { e.2 with diag := { e.2.diag with buf := none } } else e.2)
                 herds := s.herds.map fun e =>
            (e.1, if e.2.obs.buf == some k then { e.2 with obs := { e.2.obs with buf := none } } else e.2) }

/-! ### Sequences (R481 to R486) -/

/-- Whether two images are compatible (R485). -/
def compatible (a b : Img) : Bool :=
  decide (b.ifMin.toNat ≤ a.ifVersion.toNat) && decide (a.ifVersion.toNat ≤ b.ifMax.toNat) &&
    decide (a.ifMin.toNat ≤ b.ifVersion.toNat) && decide (b.ifVersion.toNat ≤ a.ifMax.toNat)

/-- A kind is changed when its header digest differs from the running one (R472). -/
def changed (a b : Img) : Bool := a.digest != b.digest

/-- The pairs that R485 checks, for a running set and the set that is to run. -/
def setCompatible (run tgt : Tri Img) : Bool :=
  (!changed tgt.hub run.hub || (compatible tgt.hub run.herd && compatible tgt.hub tgt.herd)) &&
    (!changed tgt.herd run.herd || compatible tgt.herd tgt.hub) &&
    (!changed tgt.ddr run.ddr || compatible tgt.ddr tgt.hub)

/-- The set that the staging slot holds: what is staged, copies of what runs else (R472). -/
def stagedSet (f : Fw) : Tri Img :=
  ⟨f.staged.hub.getD f.running.hub, f.staged.herd.getD f.running.herd, f.staged.ddr.getD f.running.ddr⟩

/-- The set that the previous slot holds. -/
def previousSet (f : Fw) : Tri Img :=
  ⟨f.previous.hub.getD f.running.hub, f.previous.herd.getD f.running.herd, f.previous.ddr.getD f.running.ddr⟩

/-- Whether any kind of a set differs from another set. -/
def anyChanged (a b : Tri Img) : Bool := changed a.hub b.hub || changed a.herd b.herd || changed a.ddr b.ddr

/-- FW_FALLBACK (R376). -/
def postReturn (s : State) (cause : Nat) : State := postGlobal s 82 [(0, 1, cause)]

/-- FW_ACTIVATED (R483): kind 1 to 3, the herd or 0xFF. -/
def postActivated (s : State) (kind herd : Nat) (i : Img) : State :=
  postGlobal s 81 [(0, 1, kind), (1, 1, herd), (4, 4, i.version.toNat)]

/-- A confirmation window opens (R487): the hub image's CONFIRM_S, 60 s for 0. -/
def openWindow (s : State) : State :=
  let n := s.fw.running.hub.confirmS.toNat
  let d := now s + BitVec.ofNat 64 (1000000000 * (if n = 0 then 60 else n))
  { s with fw := { s.fw with seq := .awaiting, deadline := if d = 0 then 1 else d, expired := false, prevValid := true,
                             startT := 0 } }

/-- Whether a herd needs nothing more of a sequence (R483 step 5): it runs the image, or failed its self-test. -/
def herdDone (s : State) (h : HerdId) : Bool :=
  let x := getHerd s h
  x.st == .failed || (x.imageDig == s.fw.target.herd.digest && x.st != .fwRestart)

/-- Step 5 (R483, R487, R488): the set runs. An activation's window opens; a fallback leaves its slot rejected. -/
def seqEnd (s : State) : State :=
  let f := s.fw
  let ch := changed f.target.ddr f.running.ddr
  let ddr := if f.seq == .falling then ch != f.ddrNew else ch || f.ddrNew
  if f.seq == .falling then
    { s with fw := { f with
      running := f.target, slot := f.safeSlot, rejected := true, prevValid := false, seq := .idle, startT := 0,
      herdsNew := 0, deferred := [], ddrNew := ddr, staged := ⟨none, none, none⟩ } }
  else
    openWindow { s with fw := { f with
      running := f.target, slot := !f.safeSlot, rejected := false, deferred := [], ddrNew := ddr,
      staged := ⟨none, none, none⟩ } }

/-- Ends a sequence once every herd runs the new image. -/
def seqCheck (s : State) : State :=
  if (s.fw.seq == .running || s.fw.seq == .falling) && !s.fw.hubPhase && allHerds.all (herdDone s) then seqEnd s
  else s

/-- An open session gives way to a sequence: it is refused with SEQUENCE. -/
def yieldSession (s : State) : State :=
  match s.fw.session with
  | none => s
  | some x =>
    let s := if x.program then sessionRefuse s 0x09
      else match x.cmd with
        | some c => reject (noteRefusal (closeSession s) 0x09) 0x0D01 c stImageRefused 0x09
        | none => noteRefusal (closeSession s) 0x09
    { s with fw := { s.fw with stages := s.fw.stages.filter fun r => some r.cmd != x.cmd } }

/-- A sequence begins at T (R482, R483) towards a set, in slot `safe` being what a reset boots (R489). -/
def seqStart (s : State) (back : Bool) (tgt : Tri Img) (safe hub : Bool) : State :=
  let f := s.fw
  seqCheck { s with fw := { f with
    seq := if back then .falling else .running, fallback := false, target := tgt, previous := triMap some f.running
    prevValid := false, startT := now s, hubPhase := hub, herdsNew := 0, deferred := [], deadline := 0, expired := false
    safeSlot := safe, prevPers := if back then f.prevPers else none, setReset := back && f.setReset } }

/-- An activation begins; a check that fails at step 1 abandons it (R485). -/
def activationStart (s : State) : State :=
  let s := yieldSession s
  let tgt := stagedSet s.fw
  if !anyChanged tgt s.fw.running then { s with fw := { s.fw with seq := restSeq s.fw, startT := 0 } }
  else if !setCompatible s.fw.running tgt then
    postReturn (raiseFault { s with fw := { s.fw with seq := restSeq s.fw, startT := 0 } } 0xA62 0) 2
  else seqStart s false tgt s.fw.slot (changed tgt.hub s.fw.running.hub)

/-- A fallback begins (R488): FW_FALLBACK with its cause, then the sequence with the previous slot. -/
def fallbackStart (s : State) (cause : Nat) : State :=
  let s := yieldSession s
  let tgt := previousSet s.fw
  seqStart (postReturn s cause) true tgt (!s.fw.slot) (changed tgt.hub s.fw.running.hub)

/-- A failure after step 1 (R485): fault source 0x0A62, FW_FALLBACK with cause 2, and a sequence back to the previous
set. A hub image that is being replaced is loaded again. -/
def seqFail (s : State) : State :=
  let tgt := safeSet s.fw
  let s := postReturn (raiseFault s 0xA62 0) 2
  seqStart s true tgt s.fw.safeSlot (changed tgt.hub s.fw.running.hub || s.fw.mgmtDown)

/-- A restart out of Ibex with the staged set (R493): the staged slot is the running one; the window opens at Run. -/
def ibexLeave (s : State) : State :=
  let f := s.fw
  let t := sysReset s (.boot 3 true)
  { t with fw := { t.fw with
    slot := !f.slot, safeSlot := f.slot, running := stagedSet f, previous := triMap some f.running, prevValid := false
    staged := ⟨none, none, none⟩, rejected := false, openAtRun := true, prevPers := none, seq := .idle } }

/-- The scheduled sequence begins. -/
def scheduledStart (s : State) : State :=
  if s.fw.seq != .scheduled then s
  else if s.pwr.st == .ibex then ibexLeave s
  else if !inService s then s
  else if s.fw.fallback then fallbackStart s 0
  else activationStart s

/-- TIME_SYNC_CTRL.SYNC_EN. -/
def syncEn (s : State) : Bool := (regVal s 0x108).getLsbD 0

/-- Whether a sequence that is due waits for an aligned edge (R482): SYNC_IN is accepted, an edge came within the 2 s
before ACT_TIME, and less than 2 s have passed since. -/
def waitsEdge (s : State) : Bool :=
  let late := (now s).toNat - s.fw.startT.toNat
  syncEn s && decide (late < 2000000000) &&
    match s.time.syncMono with
    | some m => decide (m + late ≤ s.mono) && decide (s.mono - (m + late) ≤ 2000000000)
    | none => false

/-- ACT_TIME is reached, or the 2 s after it have passed (R482). -/
def execFwActivationStart (s : State) : Host.Outcome State Fault Refusal :=
  .next <| if !s.clk.refclkOk then s else if (now s).toNat < s.fw.startT.toNat || waitsEdge s then
      s else scheduledStart s

/-! ### The hub phase (R483, R486) -/

/-- A snapshot that a restart of the hub withdraws. -/
def snapDrop (s : State) (n : Snap) : State :=
  dropIn { s with io := { s.io with snaps := s.io.snaps.erase n, epoch := s.io.epoch - 1 } } n.buf stSuperseded

/-- T + 10 ms of a hub phase (R483): hub commands still running complete with ST_SUPERSEDED, management goes down. -/
def execHubPhaseManagementDown (s : State) : Host.Outcome State Fault Refusal :=
  .next <| if !s.clk.refclkOk then s else
    if (s.fw.seq == .running || s.fw.seq == .falling) && s.fw.hubPhase && !s.fw.mgmtDown then
      let l := s.io.hubQueue
      let s := forEach s.io.snaps snapDrop s
      let s := { s with
        fw := { s.fw with stages := [] }
        waits := s.waits.filter fun w => match w with
          | .sync _ _ => false
          | .level _ _ => false
          | _ => true }
      let s := forEach l (fun s c => reject s c.opcode.toNat c stSuperseded 0) s
      { s with fw := { s.fw with mgmtDown := true } }
    else s

/-- A new settings generation for the new hub image, the current one kept as the previous (R486). A generation whose tag
fails is unreadable (R510). -/
def settingsOver (s : State) (tagOk : Bool) : State :=
  let s := persistAll s
  let cur : Settings := { pers := s.nv.pers, bist := s.nv.bist, format := s.fw.format }
  let i := s.fw.target.hub
  let s := { s with fw := { s.fw with prevPers := some cur, format := i.setFormat } }
  if tagOk && (i.setFormat == cur.format || decide (i.setRead.toNat ≤ cur.format.toNat)) then s
  else settingsReset s cur.format

/-- The previous settings generation is restored (R488); one whose tag fails is unreadable (R510). -/
def settingsBack (s : State) (tagOk : Bool) : State :=
  match s.fw.prevPers with
  | some g => if tagOk then loadSettings s g else settingsReset (loadSettings s g) g.format
  | none => s

/-- The new hub image runs (R483 step 2): settings, management up, the mirror, what waited; FW_ACTIVATED. -/
def hubPhaseDone (s : State) (tagOk : Bool) : State :=
  let f := s.fw
  let s := if f.seq == .falling then settingsBack s tagOk else settingsOver s tagOk
  let s := { s with fw := { s.fw with
    running := { f.running with hub := f.target.hub }, hubPhase := false, mgmtDown := false
    slot := if f.seq == .falling then f.safeSlot else !f.safeSlot } }
  let s := resumeHost (flushFixed s)
  seqCheck (postActivated s 1 0xFF f.target.hub)

def execFwHubPhaseDone (tagOk : Bool) (s : State) : Host.Outcome State Fault Refusal :=
  .next <| if !s.clk.refclkOk then s else
    if (s.fw.seq == .running || s.fw.seq == .falling) && s.fw.hubPhase && s.fw.mgmtDown then hubPhaseDone s tagOk else s

/-! ### The herd phase (R483, R484) -/

/-- Whether a herd's slot has come (R29, R483): every lower herd has restarted or been deferred; a deferred herd is
returned to after herd 63, in ascending number, and one that must still wait lets the next pass. One in safe state is
activated at its release instead (R484). -/
def slotComes (s : State) (h : HerdId) : Bool :=
  let seen := fun (g : HerdId) => herdDone s g || s.fw.deferred.contains g
  if s.fw.deferred.contains h then
    allHerds.all seen && allHerds.all fun g =>
      !(decide (g.val < h.val) && s.fw.deferred.contains g) || (getHerd s g).st != .normal || herdReacts s g
  else allHerds.all fun g => !decide (g.val < h.val) || seen g

/-- A herd's slot (R28, R29, R483): it restarts, or is deferred in safe state or under self-test. -/
def execFwHerdSlot (h : HerdId) (s : State) : Host.Outcome State Fault Refusal :=
  .next <| if !herdsRun s then s else
    let x := getHerd s h
    if !(s.fw.seq == .running || s.fw.seq == .falling) || s.fw.hubPhase || herdDone s h || x.st == .fwRestart ||
        !slotComes s h then s
    else if !compatible s.fw.target.herd s.fw.running.hub then seqFail s
    else if x.st == .normal && !herdReacts s h then
      let s := { s with fw := { s.fw with deferred := s.fw.deferred.erase h } }
      mirrorWrite (modHerd s h fun y => { y with st := .fwRestart }) (.herd h)
    else if s.fw.deferred.contains h then s
    else { s with fw := { s.fw with deferred := s.fw.deferred ++ [h] } }

/-- The ports of a herd that restarted at the end of its safe state leave SAFE (R484). -/
def releaseHeld (s : State) (p : PortId) : State :=
  if (getPort s p).st == .safe && !safeCovers s p then releasePort s p else s

/-- A herd controller has restarted (R483, R484). -/
def execFwHerdRestartDone (h : HerdId) (s : State) : Host.Outcome State Fault Refusal :=
  .next <| if !herdsRun s then s else
    if (getHerd s h).st == .fwRestart then
      let i := s.fw.target.herd
      let s := modHerd s h fun y => { y with st := .normal, image := i.version, imageDig := i.digest }
      let s := { s with fw := { s.fw with herdsNew := s.fw.herdsNew ||| (1 <<< h.val) } }
      let s := applyWaiting (forEach (portsOf h) releaseHeld s) h
      let s := forEach (herdBlocks h) mirrorWrite s
      seqCheck (postActivated s 2 h.val i)
    else s

/-- A new hub image not running 300 ms after it started, or a herd not restarted within 5 ms (R485). -/
def execActivationRestartTimeout (s : State) : Host.Outcome State Fault Refusal :=
  .next <| if !s.clk.refclkOk then s else
    if (s.fw.seq == .running || s.fw.seq == .falling) &&
        (s.fw.mgmtDown || allHerds.any (fun h => (getHerd s h).st == .fwRestart)) then seqFail s
    else s

/-! ### Confirmation and fallback (R468, R487, R488) -/

/-- A kind's floor rises to the SVN of an image that this activation brought, at most 64 times (R468). -/
def raiseFloor (f : Fw) (k : Fin 3) : Fw :=
  let i := triGet f.running k
  let old := triGet f.previous k
  let n := triGet f.rises k
  if i.raise && (old.map (changed i)).getD true && decide ((triGet f.floors k).toNat < i.svn.toNat) &&
      decide (n < 64) then
    { f with floors := triSet f.floors k i.svn, rises := triSet f.rises k (n + 1) }
  else f

/-- Whether CONFIRM is inside the window (R487). -/
def canConfirm (s : State) : Bool :=
  windowOpen s.fw && !s.fw.expired && decide ((now s).toNat < s.fw.deadline.toNat)

/-- The activation is confirmed: the previous slot stays the fallback target. -/
def confirm (s : State) : State :=
  let f := (List.finRange 3).foldl raiseFloor s.fw
  { s with fw := { f with deadline := 0, herdsNew := 0, seq := if f.seq == .awaiting then .idle else f.seq } }

/-- The window ends unconfirmed (R487); outside Run and Idle the fallback waits for Run. -/
def windowEnd (s : State) : State :=
  if inService s then fallbackStart s 1 else { s with fw := { s.fw with expired := true } }

def execFwConfirmExpiry (s : State) : Host.Outcome State Fault Refusal :=
  .next <| if !s.clk.refclkOk then s else if windowOpen s.fw && decide (s.fw.deadline.toNat ≤ (now s).toNat) then
      windowEnd s else s

/-- What the staged set lacks for Ibex to leave (R493): no hub image staged in this entry, or a kind to be copied that
does not verify. -/
def ibexLacks (s : State) (badKinds : List (Fin 3)) : Bool :=
  !s.fw.ibexStaged || (triGet s.fw.staged 0).isNone ||
    (List.finRange 3).any fun k => badKinds.contains k && (triGet s.fw.staged k).isNone

/-- FW.ACTIVATE SCHEDULE (R329, R481, R485, R493): staged kinds that fail their read-back are discarded; the status
where it is refused. -/
def schedule (s : State) (actTime : BitVec 64) (badKinds : List (Fin 3)) : State × Option (BitVec 8 × BitVec 64) :=
  if actTime.toNat < (now s).toNat then (s, some (stBadParam, resField 0x18))
  else if s.fw.seq == .running || s.fw.seq == .falling || windowOpen s.fw || s.fw.fallback then
    (s, some (stRefused, 0xFF))
  else
    let bad := badKinds.filter fun k => (triGet s.fw.staged k).isSome
    let f := bad.foldl (fun f k => { f with staged := triSet f.staged k none }) s.fw
    let s := { s with fw := if bad.isEmpty then f else { f with seq := restSeq f, startT := 0 } }
    let tgt := stagedSet s.fw
    let no := if s.pwr.st == .ibex then
        ibexLacks s badKinds || !compatible tgt.hub tgt.herd || !compatible tgt.hub tgt.ddr
      else !anyChanged tgt s.fw.running || !setCompatible s.fw.running tgt
    if no then (s, some (stRefused, 0xFF))
    else ({ s with fw := { s.fw with seq := .scheduled, startT := actTime, fallback := false } }, none)

def execFwActivateSchedule (c : Cmd) (actTime : BitVec 64) (badKinds : List (Fin 3)) (s : State) :
    Host.Outcome State Fault Refusal :=
  .next <|
    if !ibexListens s 1 then reject s 0x0D02 c stRefused 0xFF
    else
      let t := schedule s actTime badKinds
      match t.2 with
      | some e => reject t.1 0x0D02 c e.1 e.2
      | none => completeOk t.1 0x0D02 c [] 0

def execFwActivateConfirm (c : Cmd) (s : State) : Host.Outcome State Fault Refusal :=
  .next <| if canConfirm s then completeOk (confirm s) 0x0D02 c [] 0 else reject s 0x0D02 c stRefused 0xFF

/-- FW.ACTIVATE CANCEL (R329): a scheduled activation before it begins. -/
def execFwActivateCancel (c : Cmd) (s : State) : Host.Outcome State Fault Refusal :=
  .next <|
    if s.fw.seq == .scheduled && !s.fw.fallback then
      completeOk { s with fw := { s.fw with seq := restSeq s.fw, startT := 0 } } 0x0D02 c [] 0
    else reject s 0x0D02 c stRefused 0xFF

/-- FW.FALLBACK (R329, R488): with ACT_TIME 0, or a time already past, it begins at once. -/
def execFwFallback (c : Cmd) (actTime : BitVec 64) (s : State) : Host.Outcome State Fault Refusal :=
  .next <|
    if !s.fw.prevValid || s.fw.rejected || s.fw.seq == .running || s.fw.seq == .falling then
      reject s 0x0D03 c stRefused 0xFF
    else
      let s := { s with fw := { s.fw with seq := .scheduled, fallback := true, startT := actTime } }
      let s := completeOk s 0x0D03 c [] 0
      if actTime.toNat ≤ (now s).toNat then scheduledStart s else s

/-! ### Status (R494) -/

/-- START_TIME: T is not known while SYNC_IN may align it (R482). -/
def shownStart (s : State) : Nat := if s.fw.seq == .scheduled && syncEn s then 0 else s.fw.startT.toNat

/-- One kind's part of the record (Table 9). -/
def kindFields (f : Fw) (k : Fin 3) : List Fld :=
  let b := 0x40 + 64 * k.val
  let i := triGet f.running k
  let st := triGet f.staged k
  let pv := if f.prevValid && !f.rejected then triGet f.previous k else none
  [(b, 4, i.version.toNat), (b + 4, 4, i.svn.toNat), (b + 8, 4, (st.map (·.version.toNat)).getD 0),
   (b + 12, 4, (st.map (·.svn.toNat)).getD 0), (b + 16, 4, (pv.map (·.version.toNat)).getD 0),
   (b + 20, 4, (triGet f.floors k).toNat), (b + 24, 2, i.ifVersion.toNat), (b + 26, 2, i.ifMin.toNat),
   (b + 28, 2, i.ifMax.toNat), (b + 32, 32, (st.map (·.digest.toNat)).getD 0)]

/-- The record of FW.STATUS (Table 9). -/
def statusFields (s : State) : List Fld :=
  let f := s.fw
  [(0x00, 2, 1), (0x02, 1, bit f.slot), (0x03, 1, seqCode f.seq), (0x04, 1, (f.session.map (·.source.toNat)).getD 0),
   (0x05, 1, f.lastRef.toNat),
   (0x06, 1, bit f.ibex + 2 * bit (f.prevValid && !f.rejected) + 4 * bit f.setReset + 8 * bit f.chainIgn),
   (0x07, 1, f.bootFails.toNat), (0x08, 8, shownStart s), (0x10, 8, f.deadline.toNat), (0x18, 8, f.herdsNew.toNat)] ++
  (List.finRange 3).flatMap (kindFields f)

def execFwStatus (c : Cmd) (s : State) : Host.Outcome State Fault Refusal :=
  .next (answerIn s 0x0D04 c .hub 256 (statusFields s) 0)

/-! ### What is due at the return to Run (R437, R487) -/

/-- Schedules whose time has passed run at once (R332, R437), and a window that ended meanwhile falls back (R487). -/
def runDue (s : State) : State :=
  let s := if s.fw.seq == .scheduled && decide (s.fw.startT.toNat ≤ (now s).toNat) then scheduledStart s else s
  let s := if windowOpen s.fw && s.fw.expired && inService s then fallbackStart s 1 else s
  forEach allHerds obsDue s

/-- A restore reaches Run. -/
def execWakeRestoreDone (failMask : BitVec 4) (reads : List (PortId × CtxKey × CtxRead)) (s : State) :
    Host.Outcome State Fault Refusal :=
  .next <| if !s.clk.refclkOk then s else
    match s.pwr.st with
    | .restoring 2 => runDue (sleepRestore (checkReads reads s))
    | .restoring 3 => runDue (deepRestore s failMask)
    | .restoring 4 => offRestore s
    | _ => s

end Sys2Proof.Machine
end

