-- ==== Sys2Proof/Machine/Chain.lean ====
section
/-!
DEFINITION. The Wesal chain (R475 to R480), Ibex over I3C (R492, R493), ENTER_IBEX (R491).
-/

namespace Sys2Proof.Machine

/-! ### Forwarding (R369, R475 to R477) -/

/-- Whether the unit's chain logic runs: from boot step 5 on, in Run, Idle, Sleep and Ibex, with REFCLK (R477, R524). -/
def chainAlive (s : State) : Bool :=
  s.clk.refclkOk &&
    match s.pwr.st with
    | .run => true
    | .idle => true
    | .sleep => true
    | .entering _ => true
    | .restoring x => x == 2
    | .ibex => true
    | .boot n _ => decide (6 ≤ n)
    | _ => false

/-- HUB_CHAIN_CTRL.STAGE_EN. -/
def stageEn (s : State) : Bool := (regVal s 0x708).getLsbD 0

/-- Whether frames go out on CHN_OUT (R369, R477). -/
def chainForwards (s : State) : Bool := (regVal s 0x708).getLsbD 1 && !s.straps.chainEnd

/-- A frame goes out on CHN_OUT. -/
def chainSend (s : State) (what : String) (word : Nat) : State :=
  if chainForwards s then emit s (.chain what (BitVec.ofNat 256 word)) else s

/-- A frame of the image now on the chain goes out as received (R477). -/
def chainRelay (s : State) (k : ChainCheck) (what : String) (word : Nat) : State :=
  if s.fw.chainFwd then chainSend s what (bit k.crcOk + 2 * k.seq.toNat + 2 ^ 17 * word) else s

/-- A receiver's lock after a run of valid or of invalid characters: 64 valid ones set it, 16 invalid ones clear it
(R475). -/
def chainLock (was valid : Bool) (run : Nat) : Bool :=
  if valid then was || decide (64 ≤ run) else was && decide (run < 16)

/-- A run of characters at a receiver (R475): a change of its lock posts CHAIN_LOCK. -/
def execChainReceiverLock (downstream valid : Bool) (run : Nat) (s : State) : Host.Outcome State Fault Refusal :=
  .next <|
    let was := if downstream then s.fw.outLock else s.fw.inLock
    let gained := chainLock was valid run
    if !chainAlive s || was == gained then s
    else
      let s := { s with fw := if downstream then { s.fw with outLock := gained } else { s.fw with inLock := gained } }
      postGlobal s 104 [(0, 1, bit gained), (1, 1, bit downstream)]

/-! ### Receiving an image (R476, R478) -/

/-- Whether a session of a source still receives its body. -/
def receiving (s : State) (source : BitVec 8) : Bool :=
  s.fw.session.any fun x => x.source == source && !x.program

/-- A frame error abandons the receiving session of its source with LENGTH (R478). -/
def frameBad (s : State) (source : BitVec 8) : State := if receiving s source then sessionRefuse s 0x0B else s

/-- Whether a frame follows the last one of a session (R476). -/
def follows (x : Session) (k : ChainCheck) : Bool := k.crcOk && k.seq == x.seq + 1

/-- A BODY frame at a receiving session: offsets contiguous from 0, 1 to 4,092 bytes (R476). -/
def recvBody (s : State) (source : BitVec 8) (k : ChainCheck) (offset : BitVec 32) (bytes : Nat) : State :=
  if !receiving s source then s
  else match s.fw.session with
    | none => s
    | some x =>
      if follows x k && decide (offset.toNat = x.got) && decide (0 < bytes) && decide (bytes ≤ 4092) &&
          decide (x.got + bytes ≤ hdrBodySize x.header) then
        { s with fw := { s.fw with session := some { x with got := x.got + bytes, seq := k.seq } } }
      else sessionRefuse s 0x0B

/-- An END frame at a receiving session: the digest is compared (R473). -/
def recvEnd (s : State) (source : BitVec 8) (k : ChainCheck) (sent : BitVec 32) (digestOk : Bool) : State :=
  if !receiving s source then s
  else match s.fw.session with
    | none => s
    | some x =>
      if follows x k && decide (sent.toNat = x.got) then
        bodyDone { s with fw := { s.fw with session := some { x with seq := k.seq } } } digestOk
      else sessionRefuse s 0x0B

/-- Whether a chain image may be staged here (R478, R491). -/
def mayStage (s : State) : Bool :=
  (inService s || (s.pwr.st == .ibex && ibexListens s 3)) && stageEn s && s.fw.session.isNone && !s.fw.mgmtDown

/-- A HEADER frame is held for its checks (R477); a session that still received ends, as at a SEQ gap. -/
def execChainHeader (k : ChainCheck) (hdr : ImageHeader) (s : State) : Host.Outcome State Fault Refusal :=
  .next <|
    if !chainAlive s then s
    else
      let s := frameBad s 2
      { s with fw := { s.fw with chainFwd := false,
                                 chainHdr := if k.crcOk && k.seq == 0 then some (k, hdr) else none } }

/-- CHAIN_SESSION 3: forwarded without staging. -/
def forwardedOnly (s : State) (h : ImageHeader) : State :=
  if s.fw.chainFwd then postSession s 2 3 h.digest else s

/-- The held header's checks are done (R467, R477, R478). -/
def execChainHeaderChecked (s : State) : Host.Outcome State Fault Refusal :=
  .next <|
    match s.fw.chainHdr with
    | none => s
    | some (_, h) =>
      let s := { s with fw := { s.fw with chainHdr := none } }
      if !chainAlive s then s
      else match headerKey s h with
        | some code => noteRefusal s code
        | none =>
          let s := chainSend { s with fw := { s.fw with chainFwd := chainForwards s } } "HEADER" h.digest.toNat
          if !mayStage s then forwardedOnly s h
          else match headerUnit s h with
            | some code => forwardedOnly (noteRefusal s code) h
            | none => (openSession s 2 h none).1

def execChainBody (k : ChainCheck) (offset : BitVec 32) (bytes : Nat) (s : State) : Host.Outcome State Fault Refusal :=
  .next <|
    if chainAlive s then recvBody (chainRelay s k "BODY" (offset.toNat + 2 ^ 32 * bytes)) 2 k offset bytes else s

/-- An END frame is the last of its image. -/
def execChainEnd (k : ChainCheck) (sent : BitVec 32) (digestOk : Bool) (s : State) :
    Host.Outcome State Fault Refusal :=
  .next <|
    if chainAlive s then
      let s := chainRelay s k "END" sent.toNat
      recvEnd { s with fw := { s.fw with chainFwd := false } } 2 k sent digestOk
    else s

/-- 10 s without a frame (R478). -/
def execChainSessionTimeout (s : State) : Host.Outcome State Fault Refusal :=
  .next <| if !s.clk.refclkOk then s else frameBad (frameBad s 2) 3

/-! ### ACTIVATE and CONFIRM (R480, R493) -/

/-- Whether a staged image came over the chain. -/
def stagedChain (f : Fw) : Bool := (List.finRange 3).any fun k => (triGet f.staged k).any (·.chain)

/-- Whether the pending confirmation includes an image staged from the chain. -/
def pendingChain (f : Fw) : Bool :=
  (List.finRange 3).any fun k =>
    (triGet f.running k).chain && ((triGet f.previous k).map (changed (triGet f.running k))).getD true

/-- The outcome of an ACTIVATE or CONFIRM frame: bit 3 of FLAGS records one that could not act. -/
def chainAct (s : State) (ignored : Bool) : State := { s with fw := { s.fw with chainIgn := ignored } }

/-- SCHEDULE by a frame. -/
def frameSchedule (s : State) (t : BitVec 64) (badKinds : List (Fin 3)) : State :=
  let r := schedule s t badKinds
  chainAct r.1 r.2.isSome

def execChainActivate (k : ChainCheck) (actTime : BitVec 64) (badKinds : List (Fin 3)) (s : State) :
    Host.Outcome State Fault Refusal :=
  .next <|
    if !chainAlive s then s
    else
      let s := chainSend s "ACTIVATE" (bit k.crcOk + 2 * k.seq.toNat + 2 ^ 17 * actTime.toNat)
      let may := if s.pwr.st == .ibex then ibexListens s 3 else stagedChain s.fw
      if k.crcOk && stageEn s && may && !s.fw.mgmtDown then frameSchedule s actTime badKinds else chainAct s true

def execChainConfirm (k : ChainCheck) (s : State) : Host.Outcome State Fault Refusal :=
  .next <|
    if !chainAlive s then s
    else
      let s := chainSend s "CONFIRM" (bit k.crcOk + 2 * k.seq.toNat)
      if k.crcOk && stageEn s && pendingChain s.fw && canConfirm s then chainAct (confirm s) false else chainAct s true

/-! ### Ibex (R491 to R493) -/

/-- The image frames of a source without a chain behind it: a header is checked at once. -/
def ibexHeader (s : State) (k : ChainCheck) (h : ImageHeader) : State :=
  let s := frameBad s 3
  if s.fw.session.isSome || !k.crcOk || k.seq != 0 then s
  else match (headerKey s h).or (headerUnit s h) with
    | some code => noteRefusal s code
    | none => (openSession s 3 h none).1

/-- An I3C private write in Ibex carries one frame (R492); SMBus mode carries ENTER_IBEX only, which acts in Run. -/
def execIbexI3cFrame (f : IbexFrame) (s : State) : Host.Outcome State Fault Refusal :=
  .next <| if !s.clk.refclkOk then s else
    if s.pwr.st == .ibex && ibexListens s 2 && !(regVal s 0x700).getLsbD 9 then
      match f with
      | .header k h => ibexHeader s k h
      | .body k offset bytes => recvBody s 3 k offset bytes
      | .fin k sent digestOk => recvEnd s 3 k sent digestOk
      | .activate t => frameSchedule s t []
      | .confirm => if canConfirm s then chainAct (confirm s) false else chainAct s true
      | .enterIbex _ => s
    else s

/-- ENTER_IBEX on the sideband, in Run, with the unit's HUB_DEVICE_TAG_LO (R491): a restart as SYSRST_N into Ibex. -/
def execEnterIbex (tag : BitVec 32) (s : State) : Host.Outcome State Fault Refusal :=
  .next <|
    if inService s && tag == Config.deviceTag.setWidth 32 then
      let t := sysReset s (.boot 3 true)
      { t with fw := { t.fw with toIbex := true } }
    else s

end Sys2Proof.Machine
end

