-- ==== Sys2Proof/Machine/Security.lean ====
section
/-!
DEFINITION. Identity, attestation and debug access (20): tokens (R501 to R504), debug scan (R505, R506), factory test
(R507), the attestation report (R508, R509), OTP writes (R499, R500).
-/

namespace Sys2Proof.Machine

/-! ### Attestation (R508, R509) -/

/-- FLAGS of a report (Table 6). -/
def reportFlags (s : State) : Nat :=
  bit s.sec.owner.isSome + 2 * bit (factoryOn s) + 4 * bit s.sec.unlocked + 8 * bit s.fw.ibex +
    16 * bit (s.fw.seq == .running || s.fw.seq == .falling || windowOpen s.fw) + 32 * bit s.fw.slot

/-! The retention banks (R372, Table 13, R433), as sizes in bytes and values one after another. Their order inside a bank is
the model's. DESIGN CHOICE, log 13. -/

/-- Registers of a bank. -/
def regBank (s : State) (l : List Nat) : List (Nat × Nat) := l.map fun o => (4, (regVal s o).toNat)

/-- A port's part of bank 1 or 2: its enable state, live set, LPI.CONFIG, LANE_POLARITY. -/
def portBankPart (s : State) (p : PortId) : List (Nat × Nat) :=
  let x := getPort s p
  (1, bit (portEnabled x)) :: paramIds.map (fun id => (4, (paramGet x.live id).toNat)) ++
    [(1, bit x.lpiCfg.enable), (1, bit x.lpiCfg.autoIdle), (1, bit x.lpiCfg.events), (4, x.lpiCfg.timer.toNat),
     (4, (regVal s (portOff p 0x100)).toNat)]

/-- A herd's part of bank 1 or 2: its live set. -/
def herdBankPart (s : State) (h : HerdId) : List (Nat × Nat) :=
  [(1, (getHerd s h).modeSet.toNat), (1, bit (getHerd s h).policy)]

/-- Bank 3's settings of FLT.ARM. -/
def armBank (s : State) : List (Nat × Nat) :=
  s.flt.cfg.flatMap fun e => match e.2 with
    | some c => [(2, e.1), (1, c.base.toNat + 4 * bit c.pin), (2, c.n.toNat), (4, c.w.toNat)]
    | none => []

/-- What a bank holds. -/
def bankPart (s : State) (b : Fin 4) : List (Nat × Nat) :=
  match b.val with
  | 0 => regBank s bank0Regs
  | 3 => regBank s bank3Regs ++ armBank s
  | _ =>
    (allHerds.filter fun h => portBank (8 * h.val) == b.val).flatMap fun h =>
      herdBankPart s h ++ (portsOf h).flatMap (portBankPart s)

/-- A bank as Deep Sleep entry writes it, closed with its CRC-32C (R433). -/
def bankBytes (s : State) (b : Fin 4) : List Byte :=
  let l := (bankPart s b).flatMap fun e => leBytes e.1 e.2
  l ++ leBytes 4 (crc32c l).toNat

/-- What CONFIG_DIGEST digests: the four banks in order, filled from the live values (R509). -/
def configFields (s : State) : List Fld :=
  (((List.finRange 4).flatMap (bankBytes s)).zipIdx).map fun e => (e.2, 1, e.1.toNat)

/-- Bit h: herd h runs another image than herd 0 (Table 6). -/
def herdsOther (s : State) : Nat :=
  allHerds.foldl (fun n h => n + bit ((getHerd s h).imageDig != (getHerd s 0).imageDig) * 2 ^ h.val) 0

/-- The signed part of a report, bytes 0x000 to 0x67F (Table 6). -/
def reportFields (s : State) (count : BitVec 32) (nonce : BitVec 256) : List Fld :=
  let f := s.fw
  [(0x000, 4, 0x5A415431), (0x004, 2, 1), (0x006, 2, 0x5124), (0x008, 1, 0x10), (0x009, 1, s.sec.lifecycle.toNat),
   (0x00A, 1, reportFlags s), (0x00B, 1, s.sec.scope.toNat), (0x00C, 4, count.toNat), (0x010, 8, (now s).toNat),
   (0x018, 8, Config.deviceTag.toNat), (0x020, 32, nonce.toNat), (0x040, 32, f.running.hub.digest.toNat),
   (0x060, 32, (getHerd s 0).imageDig.toNat), (0x080, 32, f.running.ddr.digest.toNat),
   (0x0A0, 4, f.running.hub.svn.toNat), (0x0A4, 4, f.running.herd.svn.toNat), (0x0A8, 4, f.running.ddr.svn.toNat),
   (0x0AC, 4, f.floors.hub.toNat), (0x0B0, 4, f.floors.herd.toNat), (0x0B4, 4, f.floors.ddr.toNat),
   (0x0B8, 32, if f.ibex then 0 else (Config.sha3 (configFields s)).toNat), (0x0D8, 16, s.sec.challenge.toNat),
   (0x0E8, 8, herdsOther s), (0x100, 32, Config.rootHash.toNat), (0x120, 32, (s.sec.owner.getD 0).toNat),
   (0x160, 1312, Config.publicKey)]

/-- SEC.ATTEST (R330, R498, R508). -/
def execSecAttest (c : Cmd) (nonce : BitVec 256) (s : State) : Host.Outcome State Fault Refusal :=
  .next <|
    if !s.sec.ready then reject s 0x0E01 c stRefused 0xFF
    else
      let n := s.sec.reports + 1
      let fs := reportFields s n nonce
      let k := takeIn s (dataRingOf s c .hub 3) 4096
      match k.got with
      | none => reject k.st 0x0E01 c k.status k.result
      | some b =>
        let s := { k.st with sec := { k.st.sec with reports := n } }
        completeOk (finishIn s b 4084 (fs ++ [(0x680, 2420, Config.sign fs)])) 0x0E01 c [] 4084

/-! ### Tokens (R501 to R504) -/

/-- A new challenge is drawn (R502). -/
def newChallenge (s : State) : State :=
  let d := draw s
  { d.2 with sec := { d.2.sec with challenge := d.1 } }

/-! The fields of a token (R501, Table 3). -/

def tokType (k : Token) : BitVec 8 := BitVec.ofNat 8 (rawField k.raw 0x004 1)
def tokKeySlot (k : Token) : BitVec 8 := BitVec.ofNat 8 (rawField k.raw 0x005 1)
def tokTarget (k : Token) : BitVec 8 := BitVec.ofNat 8 (rawField k.raw 0x006 1)
def tokScope (k : Token) : BitVec 32 := BitVec.ofNat 32 (rawField k.raw 0x008 4)
def tokChallenge (k : Token) : BitVec 128 := BitVec.ofNat 128 (rawField k.raw 0x010 16)
def tokBindHash (k : Token) : BitVec 256 := BitVec.ofNat 256 (rawField k.raw 0x020 32)
def tokOwnerHash (k : Token) : BitVec 256 := BitVec.ofNat 256 (rawField k.raw 0x040 32)

/-- The words that break check 1 of Table 4: MAGIC, TOKEN_TYPE, the reserved bytes 0x007 and 0x060 to 0x0FF, and the
first word that a short buffer does not hold. -/
def tokenFaults (k : Token) (length : Nat) : List Nat :=
  (if rawField k.raw 0x000 4 = 0x5A544B31 then [] else [0]) ++
    (if (tokType k).toNat < 1 ∨ 4 < (tokType k).toNat ∨ rawField k.raw 0x007 1 ≠ 0 then [1] else []) ++
    (((List.range 40).map (24 + ·)).filter fun i => rawField k.raw (4 * i) 4 != 0) ++
    (if length < 3988 then [length / 4] else [])

/-- Check 1 of Table 4: the first word that breaks it. -/
def tokenBad (k : Token) (length : Nat) : Option Nat := (tokenFaults k length).min?

/-- Check 2: the lifecycle state, the strap, the owner slot or a write in progress forbids the token. -/
def tokenRefused (s : State) (k : Token) : Bool :=
  s.sec.lifecycle == 2 || ((tokType k) == 2 && !s.straps.testEn) || ((tokType k) == 3 && s.sec.owner.isSome) ||
    ((tokType k) == 4 && (tokTarget k).toNat != s.sec.lifecycle.toNat + 1) ||
    (decide (3 ≤ (tokType k).toNat) && s.sec.otp.isSome)

/-- Whether a token's type may be signed with the owner key (R504, Table 5; Table 2 for LIFECYCLE). -/
def ownerSigns (s : State) (k : Token) : Bool :=
  match (tokType k).toNat with
  | 1 => true
  | 4 => s.sec.lifecycle == 1
  | _ => false

/-- Checks 3 to 5: the key, the signature, the unit and the challenge. -/
def tokenAuth (s : State) (k : Token) : Bool :=
  (match slotHash s (tokKeySlot k) with
    | some hash => k.keyHash == hash && k.sigOk
    | none => false) &&
  ((tokKeySlot k) == 0 || ownerSigns s k) && (tokBindHash k) == Config.identityHash &&
      (tokChallenge k) == s.sec.challenge

/-- An accepted token acts (Table 5). OTP writes take effect when they complete (R499). -/
def tokenAct (s : State) (k : Token) : State :=
  match (tokType k).toNat with
  | 1 =>
    postGlobal { s with sec := { s.sec with unlocked := true, scope := s.sec.scope ||| (tokScope k).setWidth 3 } } 97 []
  | 2 => { s with sec := { s.sec with factory := true } }
  | 3 => { s with sec := { s.sec with otp := some (.owner (tokOwnerHash k)) } }
  | _ => { s with sec := { s.sec with otp := some (.lifecycle ((tokTarget k).setWidth 2)) } }

/-- SEC.DEBUG_UNLOCK (R330, R503, R504). -/
def execSecDebugUnlock (c : Cmd) (tok : Token) (s : State) : Host.Outcome State Fault Refusal :=
  .next <|
    let k := takeOut s (dataRingOf s c .hub 4)
    match k.got with
    | none => reject k.st 0x0E02 c k.status k.result
    | some b =>
      let s := k.st
      match tokenBad tok b.desc.length.toNat with
      | some i => reject s 0x0E02 c stBadParam (resWord i)
      | none =>
        if tokenRefused s tok then reject s 0x0E02 c stRefused 0xFF
        else if !tokenAuth s tok then
          let s := postGlobal s 96 [(0, 1, if (tokType tok) = 2 then 3 else 2)]
          complete (newChallenge (raiseFault s 0xA71 0)) 0x0E02 c [.hub] stAuthFail 0
        else completeOk (newChallenge (tokenAct s tok)) 0x0E02 c [] 0

/-- An OTP write finishes (R495, R499, R500, R506). -/
def execOtpWriteComplete (s : State) : Host.Outcome State Fault Refusal :=
  .next <| if !s.clk.refclkOk then s else
    match s.sec.otp with
    | none => s
    | some (.owner hash) => { s with sec := { s.sec with otp := none, owner := some hash } }
    | some (.lifecycle d) =>
      let x := { s.sec with otp := none, lifecycle := d }
      let x := if d = 2 then { x with seedGone := true, ready := false, unlocked := true, scope := 7 } else x
      postGlobal { s with sec := x } 98 [(0, 1, d.toNat)]

/-! ### JTAG (R505 to R507) -/

/-- Whether only boundary scan is served: in reset, boot and POST hold (R524). -/
def jtagBoundary (s : State) : Bool :=
  match s.pwr.st with
  | .inPorst => true
  | .inSysrst => true
  | .boot _ _ => true
  | .postHold => true
  | _ => false

/-- The name of the behaviour that an instruction selects; BYPASS for one that is not open (R505, R507). -/
def jtagName (s : State) (op : JtagOp) : String :=
  let open_ := fun (i : Nat) => !jtagBoundary s && s.sec.scope.getLsbD i
  match op with
  | .mandatory _ => "1149.1"
  | .idcode => "IDCODE 151243A9"
  | .ac _ => "1149.6"
  | .hubScan => if open_ 0 then "hub scan" else "BYPASS"
  | .lineScan _ => if open_ 1 then "line-die scan" else "BYPASS"
  | .herdDebug _ => if open_ 2 then "herd debug" else "BYPASS"
  | .productionTest _ => if factoryOn s && !jtagBoundary s then "production test" else "BYPASS"
  | .reset => "reset"

/-- A TAP operation (R505, R506): it selects what the TAP does; internal scan stops the logic that it shifts, until the
TAP does something else. With PORST_N low the TAP is in reset (R524). -/
def execJtagInstruction (op : JtagOp) (s : State) : Host.Outcome State Fault Refusal :=
  .next <|
    if s.pwr.st == .inPorst then s
    else
      let name := jtagName s op
      emit { s with sec := { s.sec with jtag := if name = "BYPASS" ∨ name = "reset" then none else some op } } (.jtag name)

end Sys2Proof.Machine
end

