-- ==== Sys2Proof/Machine/Boot.lean ====
section
/-!
DEFINITION. Power-up, reset and boot (21): the reset pins (R513, R514, R516), the steps of Table 3 (R517), boot failures
and Ibex entry (R490, R491), the first boot (R497, R521, R522), POST hold (R523).
-/

namespace Sys2Proof.Machine

/-! ### Pins (R513, R514) -/

/-- PORST_N low for 1 µs: it dominates everything. -/
def execPorstAssert (s : State) : Host.Outcome State Fault Refusal := .next (porReset s)

/-- The release of PORST_N: straps are sampled, device time starts from 0, the boot begins (R8, R514, R517). -/
def execPorstRelease (bootSrc : BitVec 2) (chainEnd testEn : Bool) (s : State) : Host.Outcome State Fault Refusal :=
  .next <|
    if s.pwr.st == .inPorst then
      { s with straps := { bootSrc := bootSrc, chainEnd := chainEnd, testEn := testEn }, time := State.reset.time
               pwr := { s.pwr with st := .boot 2 false } }
    else s

/-- Whether SYSRST_N has no effect (R513, R523): PORST_N low, the boot that follows it, POST hold. -/
def sysrstIgnored (s : State) : Bool :=
  match s.pwr.st with
  | .inPorst => true
  | .boot _ sys => !sys
  | .postHold => true
  | _ => false

/-- SYSRST_N low for 1 µs. -/
def execSysrstAssert (s : State) : Host.Outcome State Fault Refusal :=
  .next <| if sysrstIgnored s then s else sysReset s .inSysrst

def execSysrstRelease (s : State) : Host.Outcome State Fault Refusal :=
  .next <| if s.pwr.st == .inSysrst then { s with pwr := { s.pwr with st := .boot 3 true } } else s

/-! ### Boot failure and Ibex (R490, R491, R519) -/

/-- Ibex runs: the line dies stay unpowered, the identity serves, a challenge is drawn (R491, R492, R502). -/
def ibexEnter (s : State) (cause : Nat) : State :=
  let s := newChallenge (bootIdentity s)
  let open_ := s.sec.lifecycle == 2
  let s := { s with
    pwr := { s.pwr with st := .ibex, dark := false }
    sec := { s.sec with unlocked := open_, scope := if open_ then 7 else 0 }
    fw := { s.fw with ibex := true, ibexCause := BitVec.ofNat 2 cause, ibexStaged := false, toIbex := false } }
  postGlobal s 85 [(0, 1, cause)]

/-- The other slot becomes the running one (R490): what is staged there, or what stayed there. -/
def otherSlot (f : Fw) : Fw :=
  { f with running := if restSeq f == .staged then stagedSet f else previousSet f, previous := triMap some f.running
           staged := ⟨none, none, none⟩, prevValid := false, slot := !f.slot, seq := .idle }

/-- A boot failure (R490, R519): fault source 0x0A63, BOOT_FAILS, a restart as SYSRST_N on the other slot; the third in
a row enters Ibex. -/
def bootFail (s : State) : State :=
  let s := raiseFault s 0xA63 0
  let n := s.fw.bootFails.toNat + 1
  if 3 ≤ n then
    let t := sysReset s (.boot 5 true)
    ibexEnter { t with fw := { t.fw with bootFails := 3 } } 2
  else
    let t := sysReset s (.boot 3 true)
    { t with fw := { otherSlot t.fw with bootFails := BitVec.ofNat 4 n } }

/-- The hub image fails, or has not started the herds in 10 s (R490); the restores from Deep Sleep, its banks sound,
and from Off boot it as well (Table 7 of Power States, R435). -/
def execBootFailTimeout (s : State) : Host.Outcome State Fault Refusal :=
  .next <| if !s.clk.refclkOk then s else
    match s.pwr.st with
    | .boot n _ => if 6 ≤ n ∧ n ≤ 10 then bootFail s else s
    | .restoring n =>
      if n = 3 then bootFail (deepState s (sysReset s (.restoring 3)) 0)
      else if n = 4 then bootFail (offState s (porReset s))
      else s
    | _ => s

/-! ### Steps (R517, Table 3) -/

/-- The step after a step: all of them after PORST_N, 3, 5 to 8, 10 and 11 after SYSRST_N. -/
def nextStep (n : Nat) (sys : Bool) : Nat :=
  if sys && n == 3 then 5 else if sys && n == 8 then 10 else n + 1

/-- The boot goes on. -/
def bootNext (s : State) (n : Nat) (sys : Bool) : State :=
  { s with pwr := { s.pwr with st := .boot (nextStep n sys) sys } }

/-- A self-test part without findings. -/
def noFindings : BistOutcome := { logicFail := 0, memFails := [] }

/-- POST hold: the line dies are unpowered (R523). -/
def postHold (s : State) : State :=
  { s with pwr := { s.pwr with st := .postHold, dark := true }, dies := mapDies s fun x => { x with d2dUp := false } }

/-- A part of the power-on self-test ends (R457, R460, R461, R523): repairs enter the table; a failure is POST hold;
at its end, or with a failure, its record is kept. Its duration and temperature are free values. -/
def bootTest (s : State) (n : Nat) (sys : Bool) (b : BistOutcome) (herd : BitVec 16) : State :=
  let d := freeNat s
  let e := freeNat d.2
  let r := bistMemory e.2 (s.pwr.post.getD (postBegin s)) b.memFails
  let run := { r.2 with logicFail := b.logicFail, dieTemp := BitVec.ofNat 16 e.1 }
  let s := { r.1 with pwr := { r.1.pwr with post := some run } }
  let result := bistResult run d.1
  let dur := d.1 % 2 ^ 32
  let keep := fun (s : State) => { s with nv := { s.nv with
    postRec := some (bistRecord 0xFFFF result dur s.nv.repairs.length run), postHerd := herd } }
  if 1 < result then postHold (keep s)
  else if n = 9 then bootNext (postGlobal (keep s) 72 [(0, 2, 0xFFFF), (2, 1, 0), (4, 4, dur)]) n sys
  else bootNext s n sys

/-- Entries of the repair table whose CRC fails are dropped (R456). -/
def dropRepairs (s : State) (bad : List Nat) : State :=
  let l := (s.nv.repairs.zipIdx.filter fun e => !bad.contains e.2).map (·.1)
  if l.length = s.nv.repairs.length then s
  else postGlobal { s with nv := { s.nv with repairs := l } } 73 [(0, 2, l.length)]

/-- Step 3 (R456, R517): the OTP and the repair table are read; the power-on self-test comes next. -/
def bootOtp (s : State) (sys : Bool) (o : BootOutcome) : State :=
  match o with
  | .otpBad => bootFail (raiseFault s 0xA37 0)
  | .repairsBad l => let s := dropRepairs s l; bootNext { s with pwr := { s.pwr with post := some (postBegin s) } } 3 sys
  | _ => bootNext { s with pwr := { s.pwr with post := some (postBegin s) } } 3 sys

/-- The identity pair is generated, or derived from a seed already programmed (R497, R522). -/
def identityMake (s : State) : State :=
  postGlobal { s with sec := { s.sec with keyProg := true, seedProg := true, ready := !s.sec.seedGone } } 99 []

/-- Whether this boot generates the identity (R521). -/
def firstBoot (s : State) : Bool := !s.sec.keyProg

/-- The identity is there: generated, derived or checked (R497, R498, R522). -/
def identityNext (s : State) (sys : Bool) : State :=
  bootNext (if firstBoot s then identityMake s else bootIdentity s) 6 sys

/-- Step 6 (R497, R498). -/
def bootIdent (s : State) (sys : Bool) (o : BootOutcome) : State :=
  match o with
  | .identityBad => bootNext (raiseFault { s with sec := { s.sec with ready := false } } 0xA37 0) 6 sys
  | .entropyBad => if firstBoot s && !s.sec.seedProg then raiseFault s 0xA73 0 else identityNext s sys
  | _ => identityNext s sys

/-- Step 5 (R490, R491, R493): Ibex where a strap or ENTER_IBEX asks for it, else the hub image. Settings whose tag
fails are reset (R510); on a first boot there are none, and the defaults are written without an event (R521). -/
def bootImage (s : State) (sys : Bool) (o : BootOutcome) : State :=
  if s.fw.toIbex then ibexEnter s 3
  else if s.straps.bootSrc ≠ 0 && !s.fw.openAtRun then ibexEnter s 1
  else if o == .imageBad then bootFail s
  else if o == .settingsBad && !firstBoot s then bootNext (settingsReset (bootHub s) s.fw.format) 5 sys
  else bootNext (bootHub s) 5 sys

/-- Step 11: Run (R520). A set that Ibex activated opens its window (R493). -/
def bootDone (s : State) : State :=
  let w := s.fw.openAtRun
  let s := flushFixed (wakeEnds (bootRun s))
  if w then openWindow { s with fw := { s.fw with openAtRun := false } } else s

/-- A boot step completes (R517). Without REFCLK the device starts nothing (R512). A wake from Off runs as the release
of PORST_N, the power-on self-test included (R435), its straps as they were: its first step stands for steps 1 and 2.
-/
def execBootStepDone (o : BootOutcome) (s : State) : Host.Outcome State Fault Refusal :=
  .next <|
    match s.pwr.st with
    | .boot n sys =>
      if !s.clk.refclkOk then s
      else match n with
        | 2 => bootNext (pllJudged (pllJudged s .monitor) .root) 2 sys
        | 3 => bootOtp s sys o
        | 4 => match o with
          | .post b herd => bootTest s 4 sys b herd
          | _ => bootTest s 4 sys noFindings 0xFFFF
        | 5 => bootImage s sys o
        | 6 => bootIdent s sys o
        | 7 => bootNext (bootDdr s (match o with
          | .ddrBad c => some c
          | _ => none)) 7 sys
        | 8 => bootNext (bootLinks s) 8 sys
        | 9 => match o with
          | .post b herd => bootTest s 9 sys b herd
          | _ => bootTest s 9 sys noFindings 0xFFFF
        | 10 => bootNext (bootHerds s) 10 sys
        | 11 => bootDone s
        | n => bootNext s n sys
    | .restoring 4 =>
      if s.clk.refclkOk then bootNext (pllJudged (pllJudged (offState s (porReset s)) .monitor) .root) 2 false else s
    | _ => s

/-- Identity generation is tried again, every 100 ms (R497). -/
def execEntropyRetry (healthy : Bool) (s : State) : Host.Outcome State Fault Refusal :=
  .next <| if !s.clk.refclkOk then s else
    match s.pwr.st with
    | .boot 6 sys =>
      if firstBoot s && !s.sec.seedProg then
        if healthy then bootNext (identityMake (clearCause s 0xA73)) 6 sys else raiseFault s 0xA73 0
      else s
    | _ => s

/-! ### The sideband's status (R492, R523) -/

/-- The value of a record's field at an offset. -/
def fldAt (fs : List Fld) (off : Nat) : Nat := ((fs.find? fun f => f.1 == off).map (·.2.2)).getD 0

/-- MEM_ID of the first unrepairable memory of a record, 0 for none. -/
def firstMem (fs : List Fld) : Nat :=
  let e := (List.range 16).find? fun k => fldAt fs (0x48 + 16 * k) == 2 || fldAt fs (0x48 + 16 * k) == 3
  (e.map fun k => fldAt fs (0x40 + 16 * k)).getD 0

/-- The 8 bytes of POST hold (R523). -/
def postBytes (s : State) : List Byte :=
  let fs := s.nv.postRec.getD []
  [0xB1, BitVec.ofNat 8 (fldAt fs 2)] ++ leBytes 2 s.nv.postHerd.toNat ++ leBytes 2 (fldAt fs 0x10) ++
    leBytes 2 (firstMem fs)

/-- The 8 bytes of Ibex (R492). -/
def ibexBytes (s : State) : List Byte :=
  [BitVec.ofNat 8 (bit s.fw.session.isSome), s.fw.lastRef, 0, 0] ++ leBytes 4 ((s.fw.session.map (·.got)).getD 0)

/-- An I3C private read, or in POST hold an SMBus Block Read 0xB1. In Deep Sleep every byte read is 0xFF; the wake at
the STOP is the row of the address match (R429). -/
def execSidebandStatusRead (s : State) : Host.Outcome State Fault Refusal :=
  .next <|
    match s.pwr.st with
    | .postHold => emit s (.sideband (postBytes s))
    | .ibex => if (regVal s 0x700).getLsbD 9 then s else emit s (.sideband (ibexBytes s))
    | .deepSleep => emit s (.sideband (List.replicate 8 0xFF))
    | _ => s

end Sys2Proof.Machine
end

