-- ==== Sys2Proof/Machine/Time.lean ====
section
/-!
DEFINITION. Device time (R8, R330 to R332, R361, R482): TIME commands, SYNC_IN, and the tick that an empty queue makes
(log 4).
-/

namespace Sys2Proof.Machine

/-- Device time is moved at once: a running slew ends, and what the move carries past its time starts (R331, R332). -/
def moveTime (s : State) (t : BitVec 64) : State :=
  let s := { s with time := { s.time with now := t, slewLeft := 0, slewPhase := 0 } }
  if inService s then runDue s else s

/-- TIME.SET (R330): at once, or at the next accepted SYNC_IN edge. -/
def execTimeSet (c : Cmd) (value : BitVec 64) (atSync : BitVec 8) (s : State) : Host.Outcome State Fault Refusal :=
  .next <|
    if 1 < atSync.toNat then reject s 0x0F01 c stBadParam (resField 0x18)
    else if atSync = 1 then { s with waits := s.waits ++ [.sync c value] }
    else
      let t := now s
      moveTime (complete s 0x0F01 c [] stOk t) value

/-- The result of TIME.ADJUST: what an earlier slew left undone (R331). -/
def slewRest (s : State) : BitVec 64 := BitVec.ofInt 64 s.time.slewLeft

/-- TIME.ADJUST with JUMP = 1 (R330). -/
def execTimeAdjustJump (c : Cmd) (step : BitVec 32) (s : State) : Host.Outcome State Fault Refusal :=
  .next <|
    let t := now s + BitVec.ofInt 64 step.toInt
    moveTime (complete s 0x0F02 c [] stOk (slewRest s)) t

/-- TIME.ADJUST with JUMP = 0 (R331). -/
def execTimeAdjustSlew (c : Cmd) (step : BitVec 32) (s : State) : Host.Outcome State Fault Refusal :=
  .next <|
    let r := slewRest s
    complete { s with time := { s.time with slewLeft := step.toInt, slewPhase := 0 } } 0x0F02 c [] stOk r

/-- A slew has taken up its STEP (R331): device time has moved with the ticks and does not step now. While some of
STEP is left, the slew goes on. -/
def execTimeSlewDone (s : State) : Host.Outcome State Fault Refusal :=
  .next <| if s.time.slewLeft = 0 then { s with time := { s.time with slewPhase := 0 } } else s

/-- A waiting TIME.SET. -/
def syncOf : Wait → Option (Cmd × BitVec 64)
  | .sync c v => some (c, v)
  | _ => none

/-- 2 s without an accepted edge (R330): the oldest waiting TIME.SET times out. -/
def execTimeSetSyncTimeout (s : State) : Host.Outcome State Fault Refusal :=
  .next <| if !s.clk.refclkOk then s else
    match s.waits.findSome? syncOf with
    | none => s
    | some (c, v) => reject { s with waits := s.waits.erase (.sync c v) } 0x0F01 c stTimeout 0

/-- A waiting TIME.SET is applied at the edge (R330). -/
def syncApply (s : State) (e : Cmd × BitVec 64) : State :=
  moveTime (complete s 0x0F01 e.1 [] stOk (now s)) e.2

/-- Whether an aligned sequence begins at this edge (R482): it is due, and an edge came within the 2 s before. -/
def edgeStarts (s : State) : Bool :=
  s.fw.seq == .scheduled && decide (s.fw.startT.toNat ≤ (now s).toNat) && waitsEdge s

/-- An edge of SYNC_IN (R361): with SYNC_EN, and the edge that TIME_SYNC_CTRL.EDGE names. -/
def execSyncInEdge (rising : Bool) (s : State) : Host.Outcome State Fault Refusal :=
  .next <|
    if !hubRuns s || !syncEn s || rising == (regVal s 0x108).getLsbD 1 then s
    else
      let go := edgeStarts s
      let s := { s with time := { s.time with
        syncCount := s.time.syncCount + 1, syncLast := now s, syncMono := some s.mono } }
      let s := if go then scheduledStart s else s
      let l := s.waits.filterMap syncOf
      forEach l syncApply { s with waits := s.waits.filter fun w => (syncOf w).isNone }

/-! ### The tick (log 4) -/

/-- The steps in which device time counts, in ps (R412, R426): 1 ns from the root PLL, 6.4 ns on the bypass, 25.6 ns
on the always-on clock. -/
def timeStep (s : State) : Nat :=
  if s.pwr.st == .deepSleep then 25600 else if (getSwitch s .hubCore).onPll then 1000 else 6400

/-- Whole steps of 1 ns more of the counter's clock. -/
def timeStride (u : Nat) (t : TimeSt) : TimeSt :=
  let a := t.acc + 1000
  let n := t.frac + a / u * u
  { t with now := t.now + BitVec.ofNat 64 (n / 1000), frac := n % 1000, acc := a % u }

/-- Device time after 1 ns (R8, R331): a slew adds or drops 1 ns in 10,000. Without REFCLK, and with PORST_N low, time
stands (R8, R412). -/
def timeTick (s : State) : TimeSt :=
  if !s.clk.refclkOk || s.pwr.st == .inPorst then s.time
  else
    let t := timeStride (timeStep s) s.time
    if t.slewLeft = 0 then t
    else if t.slewPhase + 1 < 10000 || t.now == s.time.now then { t with slewPhase := t.slewPhase + 1 }
    else if 0 < t.slewLeft then { t with now := t.now + 1, slewLeft := t.slewLeft - 1, slewPhase := 0 }
    else { t with now := t.now - 1, slewLeft := t.slewLeft + 1, slewPhase := 0 }

/-- What an empty queue does: 1 ns passes; a deferred low-power entry and a waiting FW.STAGE look whether they can go
on. -/
def tick (s : State) : State := stagePoll (powerPoll { s with time := timeTick s, mono := s.mono + 1 })

end Sys2Proof.Machine
end

