-- ==== Sys2Proof/Machine/Dispatch.lean ====
section
/-!
DEFINITION. One arm per row of spec/opcode_table.json, each a direct call of the row's meaning.
-/

namespace Sys2Proof.Machine

/-- The effect of a command on everything but the queue. -/
def exec (i : Instr) (s : State) : Host.Outcome State Fault Refusal :=
  match i with
  | .portConfig c p count entries => Sys2Proof.Machine.execPortConfig c p count entries s
  | .portCommit c t => Sys2Proof.Machine.execPortCommit c t s
  | .portEnable c p => Sys2Proof.Machine.execPortEnable c p s
  | .portDisable c p => Sys2Proof.Machine.execPortDisable c p s
  | .portRestart c p => Sys2Proof.Machine.execPortRestart c p s
  | .portTrain c p => Sys2Proof.Machine.execPortTrain c p s
  | .portLoopbackOff c p => Sys2Proof.Machine.execPortLoopbackOff c p s
  | .portLoopbackDigital c p => Sys2Proof.Machine.execPortLoopbackDigital c p s
  | .portLoopbackRemote c p => Sys2Proof.Machine.execPortLoopbackRemote c p s
  | .herdMode c h modeSet => Sys2Proof.Machine.execHerdMode c h modeSet s
  | .herdTiming c h policy => Sys2Proof.Machine.execHerdTiming c h policy s
  | .ctxSave c p paired => Sys2Proof.Machine.execCtxSave c p paired s
  | .ctxLoad c p k read => Sys2Proof.Machine.execCtxLoad c p k read s
  | .ctxPin c p k => Sys2Proof.Machine.execCtxPin c p k s
  | .ctxUnpin c p k => Sys2Proof.Machine.execCtxUnpin c p k s
  | .ctxEvict c p k => Sys2Proof.Machine.execCtxEvict c p k s
  | .ctxList c t => Sys2Proof.Machine.execCtxList c t s
  | .diagPassive c p profile => Sys2Proof.Machine.execDiagPassive c p profile s
  | .diagChamois c p skipSweep profile => Sys2Proof.Machine.execDiagChamois c p skipSweep profile s
  | .obsSelect c h source decim => Sys2Proof.Machine.execObsSelect c h source decim s
  | .obsLoadBank c h bank taps data => Sys2Proof.Machine.execObsLoadBank c h bank taps data s
  | .obsSwap c h fadeLen => Sys2Proof.Machine.execObsSwap c h fadeLen s
  | .obsStart c h mode count startTime => Sys2Proof.Machine.execObsStart c h mode count startTime s
  | .obsStop c h => Sys2Proof.Machine.execObsStop c h s
  | .calRun c t tasks => Sys2Proof.Machine.execCalRun c t tasks s
  | .bistRun c h => Sys2Proof.Machine.execBistRun c h s
  | .statRead c t => Sys2Proof.Machine.execStatRead c t s
  | .statSnapshot c count ranges => Sys2Proof.Machine.execStatSnapshot c count ranges s
  | .lpiConfig c p enable autoIdle events timer => Sys2Proof.Machine.execLpiConfig c p enable autoIdle events timer s
  | .lanePrbs c p apply gen chk inject burstLen periodK live => Sys2Proof.Machine.execLanePrbs c p apply gen chk inject burstLen periodK live s
  | .laneTrain c p => Sys2Proof.Machine.execLaneTrain c p s
  | .laneLoopbackOff c p => Sys2Proof.Machine.execLaneLoopbackOff c p s
  | .laneLoopbackNear c p => Sys2Proof.Machine.execLaneLoopbackNear c p s
  | .laneLoopbackFar c p => Sys2Proof.Machine.execLaneLoopbackFar c p s
  | .pwrStateSleep c => Sys2Proof.Machine.execPwrStateSleep c s
  | .pwrStateDeepSleep c => Sys2Proof.Machine.execPwrStateDeepSleep c s
  | .pwrStateOff c => Sys2Proof.Machine.execPwrStateOff c s
  | .pwrLevel c die floor => Sys2Proof.Machine.execPwrLevel c die floor s
  | .fltArm c source base pin n w => Sys2Proof.Machine.execFltArm c source base pin n w s
  | .fltAck c record all => Sys2Proof.Machine.execFltAck c record all s
  | .fltReadLog c log first count bad ecc => Sys2Proof.Machine.execFltReadLog c log first count bad ecc s
  | .fwStage c img => Sys2Proof.Machine.execFwStage c img s
  | .fwActivateSchedule c actTime badKinds => Sys2Proof.Machine.execFwActivateSchedule c actTime badKinds s
  | .fwActivateConfirm c => Sys2Proof.Machine.execFwActivateConfirm c s
  | .fwActivateCancel c => Sys2Proof.Machine.execFwActivateCancel c s
  | .fwFallback c actTime => Sys2Proof.Machine.execFwFallback c actTime s
  | .fwStatus c => Sys2Proof.Machine.execFwStatus c s
  | .secAttest c nonce => Sys2Proof.Machine.execSecAttest c nonce s
  | .secDebugUnlock c tok => Sys2Proof.Machine.execSecDebugUnlock c tok s
  | .timeSet c value atSync => Sys2Proof.Machine.execTimeSet c value atSync s
  | .timeAdjustJump c step => Sys2Proof.Machine.execTimeAdjustJump c step s
  | .timeAdjustSlew c step => Sys2Proof.Machine.execTimeAdjustSlew c step s
  | .doorbellWrite addr bytes work => Sys2Proof.Machine.execDoorbellWrite addr bytes work s
  | .ringDispatch r => Sys2Proof.Machine.execRingDispatch r s
  | .ringEnable r => Sys2Proof.Machine.execRingEnable r s
  | .ringDisable r => Sys2Proof.Machine.execRingDisable r s
  | .ringDrainDone r => Sys2Proof.Machine.execRingDrainDone r s
  | .ringDmaFault r => Sys2Proof.Machine.execRingDmaFault r s
  | .dataBufferDmaFault r => Sys2Proof.Machine.execDataBufferDmaFault r s
  | .vectorHoldoffExpiry v => Sys2Proof.Machine.execVectorHoldoffExpiry v s
  | .functionLevelReset => Sys2Proof.Machine.execFunctionLevelReset s
  | .pcieHotReset => Sys2Proof.Machine.execPcieHotReset s
  | .registerWrite off val => Sys2Proof.Machine.execRegisterWrite off val s
  | .reg64LowRead off => Sys2Proof.Machine.execReg64LowRead off s
  | .reg64LowWrite off val => Sys2Proof.Machine.execReg64LowWrite off val s
  | .reg64HighWrite off val => Sys2Proof.Machine.execReg64HighWrite off val s
  | .bar0BadAccess off write => Sys2Proof.Machine.execBar0BadAccess off write s
  | .blockAccessRefused off write => Sys2Proof.Machine.execBlockAccessRefused off write s
  | .gateAccessTimeout off write => Sys2Proof.Machine.execGateAccessTimeout off write s
  | .mirrorEnable val => Sys2Proof.Machine.execMirrorEnable val s
  | .mirrorMeasuredUpdate o => Sys2Proof.Machine.execMirrorMeasuredUpdate o s
  | .mirrorWriteError addr => Sys2Proof.Machine.execMirrorWriteError addr s
  | .fmcStart val => Sys2Proof.Machine.execFmcStart val s
  | .fmcWindowEnd count => Sys2Proof.Machine.execFmcWindowEnd count s
  | .padRelease => Sys2Proof.Machine.execPadRelease s
  | .fltInjectEvent source => Sys2Proof.Machine.execFltInjectEvent source s
  | .fltInjectPair source => Sys2Proof.Machine.execFltInjectPair source s
  | .eventDelivery h => Sys2Proof.Machine.execEventDelivery h s
  | .eventCoalesceExpiry source kind => Sys2Proof.Machine.execEventCoalesceExpiry source kind s
  | .d2dTrainingLost d => Sys2Proof.Machine.execD2dTrainingLost d s
  | .d2dRetrainAttempt d ok => Sys2Proof.Machine.execD2dRetrainAttempt d ok s
  | .herdTimeCorrection h => Sys2Proof.Machine.execHerdTimeCorrection h s
  | .negBreakLinkExpiry p => Sys2Proof.Machine.execNegBreakLinkExpiry p s
  | .negAttemptExpiry p => Sys2Proof.Machine.execNegAttemptExpiry p s
  | .basePageReceived p page => Sys2Proof.Machine.execBasePageReceived p page s
  | .nextPageReceived p page reads => Sys2Proof.Machine.execNextPageReceived p page reads s
  | .dmeReceived p => Sys2Proof.Machine.execDmeReceived p s
  | .springbokStartInstant p read => Sys2Proof.Machine.execSpringbokStartInstant p read s
  | .springbokCheckPass p => Sys2Proof.Machine.execSpringbokCheckPass p s
  | .springbokCheckExpiry p => Sys2Proof.Machine.execSpringbokCheckExpiry p s
  | .infofieldReceived p bits => Sys2Proof.Machine.execInfofieldReceived p bits s
  | .infofieldRetryExpiry p => Sys2Proof.Machine.execInfofieldRetryExpiry p s
  | .t0CalibrationDone p => Sys2Proof.Machine.execT0CalibrationDone p s
  | .t0Burst p => Sys2Proof.Machine.execT0Burst p s
  | .t0SlaveReply p => Sys2Proof.Machine.execT0SlaveReply p s
  | .t0DetectTimeout p => Sys2Proof.Machine.execT0DetectTimeout p s
  | .trainWordAccepted p copy1 copy2 => Sys2Proof.Machine.execTrainWordAccepted p copy1 copy2 s
  | .t1WindowStart p => Sys2Proof.Machine.execT1WindowStart p s
  | .t2CriteriaMet p => Sys2Proof.Machine.execT2CriteriaMet p s
  | .t2ConvergenceTimeout p => Sys2Proof.Machine.execT2ConvergenceTimeout p s
  | .t3CapsTimeout p => Sys2Proof.Machine.execT3CapsTimeout p s
  | .superframeLockChange p pair gained failed => Sys2Proof.Machine.execSuperframeLockChange p pair gained failed s
  | .markerLockChange p errs skews => Sys2Proof.Machine.execMarkerLockChange p errs skews s
  | .timingLockChange p rms peak => Sys2Proof.Machine.execTimingLockChange p rms peak s
  | .signalDetectChange p pair => Sys2Proof.Machine.execSignalDetectChange p pair s
  | .signalLossExpiry p => Sys2Proof.Machine.execSignalLossExpiry p s
  | .timingLossExpiry p => Sys2Proof.Machine.execTimingLossExpiry p s
  | .frameLossExpiry p => Sys2Proof.Machine.execFrameLossExpiry p s
  | .lineSlotReceived p slot => Sys2Proof.Machine.execLineSlotReceived p slot s
  | .lineSlotTransmit p => Sys2Proof.Machine.execLineSlotTransmit p s
  | .hostCodewordReceived p cw => Sys2Proof.Machine.execHostCodewordReceived p cw s
  | .hostinCwLockChange p gained => Sys2Proof.Machine.execHostinCwLockChange p gained s
  | .bundleSurveyDone p pair couplings => Sys2Proof.Machine.execBundleSurveyDone p pair couplings s
  | .bundleResurveyExpiry p => Sys2Proof.Machine.execBundleResurveyExpiry p s
  | .adaptAcqTimeout p => Sys2Proof.Machine.execAdaptAcqTimeout p s
  | .adaptFineEntry p pair => Sys2Proof.Machine.execAdaptFineEntry p pair s
  | .wanderSnapshot p => Sys2Proof.Machine.execWanderSnapshot p s
  | .wanderCheck p => Sys2Proof.Machine.execWanderCheck p s
  | .handoverTrigger h => Sys2Proof.Machine.execHandoverTrigger h s
  | .handoverDone h => Sys2Proof.Machine.execHandoverDone h s
  | .holdoverTimeout h => Sys2Proof.Machine.execHoldoverTimeout h s
  | .blindTimeout p => Sys2Proof.Machine.execBlindTimeout p s
  | .laneLockAcquired p rms levels snr => Sys2Proof.Machine.execLaneLockAcquired p rms levels snr s
  | .laneLockHoldExpiry p => Sys2Proof.Machine.execLaneLockHoldExpiry p s
  | .laneLockLost p rms snr errs => Sys2Proof.Machine.execLaneLockLost p rms snr errs s
  | .detectProbe p found => Sys2Proof.Machine.execDetectProbe p found s
  | .trainingFrameReceived p f => Sys2Proof.Machine.execTrainingFrameReceived p f s
  | .trainLockMet p rms levels snr errs => Sys2Proof.Machine.execTrainLockMet p rms levels snr errs s
  | .laneReadyDone p => Sys2Proof.Machine.execLaneReadyDone p s
  | .fallbackLimitExpiry p => Sys2Proof.Machine.execFallbackLimitExpiry p s
  | .autoIdleTimerExpiry p => Sys2Proof.Machine.execAutoIdleTimerExpiry p s
  | .lpiRefreshInstant p => Sys2Proof.Machine.execLpiRefreshInstant p s
  | .lpiRefreshEnd p locks4us => Sys2Proof.Machine.execLpiRefreshEnd p locks4us s
  | .lpiRefreshExtendExpiry p => Sys2Proof.Machine.execLpiRefreshExtendExpiry p s
  | .lpiPartnerSignalExpiry p => Sys2Proof.Machine.execLpiPartnerSignalExpiry p s
  | .lpiFirstCodewordInstant p => Sys2Proof.Machine.execLpiFirstCodewordInstant p s
  | .marginCompare p => Sys2Proof.Machine.execMarginCompare p s
  | .histogramPeriodEnd p => Sys2Proof.Machine.execHistogramPeriodEnd p s
  | .counterPersist => Sys2Proof.Machine.execCounterPersist s
  | .eyeMeasure p upper middle lower width => Sys2Proof.Machine.execEyeMeasure p upper middle lower width s
  | .diagPassiveDone p => Sys2Proof.Machine.execDiagPassiveDone p s
  | .chamoisStepEnd p f => Sys2Proof.Machine.execChamoisStepEnd p f s
  | .chamoisSweepGrant h => Sys2Proof.Machine.execChamoisSweepGrant h s
  | .chamoisResultDelivery p => Sys2Proof.Machine.execChamoisResultDelivery p s
  | .obsScheduledStart h => Sys2Proof.Machine.execObsScheduledStart h s
  | .obsSettlingDone h adc => Sys2Proof.Machine.execObsSettlingDone h adc s
  | .obsFadeDone h adc => Sys2Proof.Machine.execObsFadeDone h adc s
  | .obsBufferComplete h adc => Sys2Proof.Machine.execObsBufferComplete h adc s
  | .obsCountDone h adc => Sys2Proof.Machine.execObsCountDone h adc s
  | .ctxSaveCheck p => Sys2Proof.Machine.execCtxSaveCheck p s
  | .ctxPeriodicSave p => Sys2Proof.Machine.execCtxPeriodicSave p s
  | .ctxSaveVisible p => Sys2Proof.Machine.execCtxSaveVisible p s
  | .ddrTrainingDone c gib => Sys2Proof.Machine.execDdrTrainingDone c gib s
  | .ddrChannelFailure c cause => Sys2Proof.Machine.execDdrChannelFailure c cause s
  | .ddrEccCorrected c count => Sys2Proof.Machine.execDdrEccCorrected c count s
  | .faultRaised faults => Sys2Proof.Machine.execFaultRaised faults s
  | .dualRailFault source => Sys2Proof.Machine.execDualRailFault source s
  | .reactionComplete => Sys2Proof.Machine.execReactionComplete s
  | .shadowWindowExpiry => Sys2Proof.Machine.execShadowWindowExpiry s
  | .fixedReaction cause => Sys2Proof.Machine.execFixedReaction cause s
  | .fixedCauseEnded => Sys2Proof.Machine.execFixedCauseEnded s
  | .supplyWindowExit r mv => Sys2Proof.Machine.execSupplyWindowExit r mv s
  | .supplyWindowReentry r mv => Sys2Proof.Machine.execSupplyWindowReentry r mv s
  | .portTemperatureRead p t => Sys2Proof.Machine.execPortTemperatureRead p t s
  | .dieTemperatureRead d t => Sys2Proof.Machine.execDieTemperatureRead d t s
  | .pllLockWindow u inWindow => Sys2Proof.Machine.execPllLockWindow u inWindow s
  | .pllNoEdge u => Sys2Proof.Machine.execPllNoEdge u s
  | .pllReacquire u => Sys2Proof.Machine.execPllReacquire u s
  | .domainSwitch d toPll => Sys2Proof.Machine.execDomainSwitch d toPll s
  | .switchEdgeTimeout d => Sys2Proof.Machine.execSwitchEdgeTimeout d s
  | .refclkMissing => Sys2Proof.Machine.execRefclkMissing s
  | .refclkReturn => Sys2Proof.Machine.execRefclkReturn s
  | .sequencerStepEnd d => Sys2Proof.Machine.execSequencerStepEnd d s
  | .idleTimerExpiry => Sys2Proof.Machine.execIdleTimerExpiry s
  | .hostActivity a => Sys2Proof.Machine.execHostActivity a s
  | .sleepTimerExpiry => Sys2Proof.Machine.execSleepTimerExpiry s
  | .deepTimerExpiry => Sys2Proof.Machine.execDeepTimerExpiry s
  | .powerEntryDone => Sys2Proof.Machine.execPowerEntryDone s
  | .wakeNAssert => Sys2Proof.Machine.execWakeNAssert s
  | .sidebandAddressMatch addr => Sys2Proof.Machine.execSidebandAddressMatch addr s
  | .wakeRestoreDone failMask reads => Sys2Proof.Machine.execWakeRestoreDone failMask reads s
  | .calMarkerCountExpiry p => Sys2Proof.Machine.execCalMarkerCountExpiry p s
  | .dieFullRunEnd d => Sys2Proof.Machine.execDieFullRunEnd d s
  | .calUnitDone p => Sys2Proof.Machine.execCalUnitDone p s
  | .bistStepDone h o reads => Sys2Proof.Machine.execBistStepDone h o reads s
  | .bistRecordDelivery h => Sys2Proof.Machine.execBistRecordDelivery h s
  | .fwProgramDone ok => Sys2Proof.Machine.execFwProgramDone ok s
  | .fwStageBufferTimeout => Sys2Proof.Machine.execFwStageBufferTimeout s
  | .chainReceiverLock downstream valid run => Sys2Proof.Machine.execChainReceiverLock downstream valid run s
  | .chainHeader k hdr => Sys2Proof.Machine.execChainHeader k hdr s
  | .chainHeaderChecked => Sys2Proof.Machine.execChainHeaderChecked s
  | .chainBody k offset bytes => Sys2Proof.Machine.execChainBody k offset bytes s
  | .chainEnd k sent digestOk => Sys2Proof.Machine.execChainEnd k sent digestOk s
  | .chainActivate k actTime badKinds => Sys2Proof.Machine.execChainActivate k actTime badKinds s
  | .chainConfirm k => Sys2Proof.Machine.execChainConfirm k s
  | .enterIbex tag => Sys2Proof.Machine.execEnterIbex tag s
  | .chainSessionTimeout => Sys2Proof.Machine.execChainSessionTimeout s
  | .ibexI3cFrame f => Sys2Proof.Machine.execIbexI3cFrame f s
  | .sidebandStatusRead => Sys2Proof.Machine.execSidebandStatusRead s
  | .syncInEdge rising => Sys2Proof.Machine.execSyncInEdge rising s
  | .fwActivationStart => Sys2Proof.Machine.execFwActivationStart s
  | .fwHubPhaseDone tagOk => Sys2Proof.Machine.execFwHubPhaseDone tagOk s
  | .fwHerdSlot h => Sys2Proof.Machine.execFwHerdSlot h s
  | .fwHerdRestartDone h => Sys2Proof.Machine.execFwHerdRestartDone h s
  | .fwConfirmExpiry => Sys2Proof.Machine.execFwConfirmExpiry s
  | .timeSlewDone => Sys2Proof.Machine.execTimeSlewDone s
  | .timeSetSyncTimeout => Sys2Proof.Machine.execTimeSetSyncTimeout s
  | .statSnapshotCapture => Sys2Proof.Machine.execStatSnapshotCapture s
  | .ledFrame => Sys2Proof.Machine.execLedFrame s
  | .entropyRetry healthy => Sys2Proof.Machine.execEntropyRetry healthy s
  | .porstAssert => Sys2Proof.Machine.execPorstAssert s
  | .porstRelease bootSrc chainEnd testEn => Sys2Proof.Machine.execPorstRelease bootSrc chainEnd testEn s
  | .sysrstAssert => Sys2Proof.Machine.execSysrstAssert s
  | .bootStepDone o => Sys2Proof.Machine.execBootStepDone o s
  | .bootFailTimeout => Sys2Proof.Machine.execBootFailTimeout s
  | .sysrstRelease => Sys2Proof.Machine.execSysrstRelease s
  | .avsStatusAlert r regFault => Sys2Proof.Machine.execAvsStatusAlert r regFault s
  | .otpWriteComplete => Sys2Proof.Machine.execOtpWriteComplete s
  | .hubPhaseManagementDown => Sys2Proof.Machine.execHubPhaseManagementDown s
  | .activationRestartTimeout => Sys2Proof.Machine.execActivationRestartTimeout s
  | .faultCauseEnded source => Sys2Proof.Machine.execFaultCauseEnded source s
  | .busMasterEnableChange on => Sys2Proof.Machine.execBusMasterEnableChange on s
  | .msixMaskChange m => Sys2Proof.Machine.execMsixMaskChange m s
  | .checkerLock p bits => Sys2Proof.Machine.execCheckerLock p bits s
  | .periodicInjection p => Sys2Proof.Machine.execPeriodicInjection p s
  | .jtagInstruction op => Sys2Proof.Machine.execJtagInstruction op s

end Sys2Proof.Machine
end

