-- ==== Sys2Proof/Safety.lean ====
section
/-!
DEFINITION. What counts as a sound state and a sound step, in the terms the statements use: registers that hold values
of their ranges (R11, R355), the one-time-programmable store that is never erased (R495, R499, R468), and the frames of
commands.
-/

namespace Sys2Proof.Safety

open Sys2Proof.Machine

/-! ### Commands and their completion records -/

/-- The command is the one its ring runs, so a completion record is due (R289, R291). -/
abbrev Runs (s : State) (c : Cmd) : Prop := (getRing s c.ring).running = some c

/-- The command is held by no wait, no fade, no save and no herd commit: it is new to its target. -/
abbrev NewCmd (s : State) (c : Cmd) : Prop :=
  (∀ w ∈ s.waits, waitCmd w ≠ c) ∧ (∀ h, (∀ w ∈ (getObs s h).waits, obsCmd w ≠ c) ∧ c ∉ (getObs s h).stoppers) ∧
  (∀ p, ((getPort s p).save.all fun x => x.cmd != some c) = true) ∧
  (∀ h, ((getHerd s h).commit.all fun k => k.cmd != c) = true)

/-- A completion record has been written to a completion ring, or waits there for a free entry (R291). -/
def Recorded (t : State) (cq : RingId) (r : Completion) : Prop :=
  r ∈ (getRing t cq).backlog ∨ ∃ index phase addr, Bus.completion cq index phase addr r ∈ t.io.bus

/-- The command that ran in s is completed in t: its ring runs none, and the ring's completion ring has its record with
the opcode, a status and a RESULT (R291, R292, R308). -/
def Answered (s t : State) (c : Cmd) (opcode : Nat) (status : BitVec 8) (result : BitVec 64) : Prop :=
  (getRing t c.ring).running = none ∧
  ∃ r : Completion, Recorded t (ringCq s c.ring) r ∧ r.opcode = BitVec.ofNat 16 opcode ∧ r.status = status ∧
    r.kind = 1 ∧ r.ring = c.ring ∧ r.index = c.index ∧ r.tag = c.tag ∧ r.result = result

/-! ### Registers -/

/-- Every stored register value keeps its reserved and read-only bits 0 (R11) and its fields in range (R355). -/
def RegsOk (regs : Tab (BitVec 32)) : Prop :=
  ∀ e ∈ regs, e.2 &&& regMask e.1 = e.2 ∧ regOk e.1 e.2 = true

/-- A table in its canonical form: numbers strictly rising. -/
def Rising {α : Type} (t : Tab α) : Prop := t.Pairwise fun a b => a.1 < b.1

/-! ### The one-time-programmable store -/

/-- What the OTP store and a write under way may look like (R495, R499, R500, R504, R468): one of the three lifecycle
states; a write under way leads to the next one, or fills an empty owner slot; in Decommissioned the seed is destroyed
and the identity not ready; at most 64 rises of each floor. -/
def OtpOk (s : State) : Prop :=
  s.sec.lifecycle.toNat ≤ 2 ∧
  (∀ d, s.sec.otp = some (.lifecycle d) → d.toNat = s.sec.lifecycle.toNat + 1 ∧ d.toNat ≤ 2) ∧
  (∀ h, s.sec.otp = some (.owner h) → s.sec.owner = none) ∧
  (s.sec.lifecycle = 2 → s.sec.seedGone = true) ∧
  (s.sec.seedGone = true → s.sec.ready = false) ∧
  s.fw.rises.hub ≤ 64 ∧ s.fw.rises.herd ≤ 64 ∧ s.fw.rises.ddr ≤ 64

/-- What was programmed stays programmed, the lifecycle only moves forward, floors and their rises never fall (R495,
R499, R468). -/
def OtpForward (s t : State) : Prop :=
  s.sec.lifecycle.toNat ≤ t.sec.lifecycle.toNat ∧
  (∀ h, s.sec.owner = some h → t.sec.owner = some h) ∧
  (s.sec.keyProg = true → t.sec.keyProg = true) ∧
  (s.sec.seedProg = true → t.sec.seedProg = true) ∧
  (s.sec.seedGone = true → t.sec.seedGone = true) ∧
  s.fw.floors.hub.toNat ≤ t.fw.floors.hub.toNat ∧ s.fw.floors.herd.toNat ≤ t.fw.floors.herd.toNat ∧
  s.fw.floors.ddr.toNat ≤ t.fw.floors.ddr.toNat ∧
  s.fw.rises.hub ≤ t.fw.rises.hub ∧ s.fw.rises.herd ≤ t.fw.rises.herd ∧ s.fw.rises.ddr ≤ t.fw.rises.ddr

/-! ### Frames -/

/-- The parts of the state, one per field. -/
inductive Area where
  | pending
  | time
  | mono
  | fresh
  | regs
  | latches
  | heldLow
  | access
  | straps
  | clk
  | pwr
  | rails
  | dies
  | hubTemp
  | ddr
  | store
  | ports
  | herds
  | io
  | waits
  | flt
  | fw
  | sec
  | nv
  deriving DecidableEq, Repr

/-- A part reads in t as it reads in s. -/
def Same (a : Area) (s t : State) : Prop :=
  match a with
  | .pending => t.pending = s.pending
  | .time => t.time = s.time
  | .mono => t.mono = s.mono
  | .fresh => t.fresh = s.fresh
  | .regs => t.regs = s.regs
  | .latches => t.latches = s.latches
  | .heldLow => t.heldLow = s.heldLow
  | .access => t.access = s.access
  | .straps => t.straps = s.straps
  | .clk => t.clk = s.clk
  | .pwr => t.pwr = s.pwr
  | .rails => t.rails = s.rails
  | .dies => t.dies = s.dies
  | .hubTemp => t.hubTemp = s.hubTemp
  | .ddr => t.ddr = s.ddr
  | .store => t.store = s.store
  | .ports => t.ports = s.ports
  | .herds => t.herds = s.herds
  | .io => t.io = s.io
  | .waits => t.waits = s.waits
  | .flt => t.flt = s.flt
  | .fw => t.fw = s.fw
  | .sec => t.sec = s.sec
  | .nv => t.nv = s.nv

/-- t differs from s in no part but those listed. -/
def OnlyIn (m : List Area) (s t : State) : Prop := ∀ a, a ∉ m → Same a s t

/-- Every port but one reads in t as in s. -/
def PortsBut (p : PortId) (s t : State) : Prop := ∀ q, q ≠ p → getPort t q = getPort s q

/-- Every herd but one reads in t as in s. -/
def HerdsBut (h : HerdId) (s t : State) : Prop := ∀ g, g ≠ h → getHerd t g = getHerd s g

/-- A source's GENERATION has advanced by n: it has had n occurrences (R297). -/
abbrev Posted (s t : State) (src n : Nat) : Prop := genOf t src = genOf s src + BitVec.ofNat 32 n

/-- The parts of the state that a row of the table may write. The queue is in none of them (log 1). -/
def mayWrite (i : Instr) : List Area :=
  match i with
  | .timeSlewDone .. => [.time]
  | .fmcWindowEnd .. | .pllReacquire .. => [.clk]
  | .wakeNAssert .. | .sysrstRelease .. => [.pwr]
  | .springbokCheckPass .. | .t0SlaveReply .. | .hostinCwLockChange .. | .bundleSurveyDone ..
    | .bundleResurveyExpiry .. | .adaptAcqTimeout .. | .adaptFineEntry .. | .wanderSnapshot ..
    | .autoIdleTimerExpiry .. | .lpiRefreshInstant .. | .histogramPeriodEnd .. | .eyeMeasure .. => [.ports]
  | .handoverTrigger .. => [.herds]
  | .ringDrainDone .. | .vectorHoldoffExpiry .. | .mirrorMeasuredUpdate .. | .eventDelivery ..
    | .eventCoalesceExpiry .. | .sidebandStatusRead .. => [.io]
  | .shadowWindowExpiry .. | .faultCauseEnded .. => [.flt]
  | .counterPersist .. => [.nv]
  | .t0CalibrationDone .. | .laneLockAcquired .. | .trainLockMet .. | .lpiRefreshEnd ..
    | .calMarkerCountExpiry .. | .checkerLock .. => [.fresh, .ports]
  | .herdTimeCorrection .. => [.fresh, .herds]
  | .gateAccessTimeout .. => [.access, .io]
  | .bar0BadAccess .. | .idleTimerExpiry .. | .hostActivity .. | .sidebandAddressMatch ..
    | .busMasterEnableChange .. | .msixMaskChange .. => [.pwr, .io]
  | .dieTemperatureRead .. => [.dies, .hubTemp]
  | .dieFullRunEnd .. => [.dies, .io]
  | .ddrEccCorrected .. => [.ddr, .io]
  | .superframeLockChange .. | .timingLockChange .. | .handoverDone .. | .holdoverTimeout ..
    | .chamoisSweepGrant .. => [.ports, .herds]
  | .negBreakLinkExpiry .. | .wanderCheck .. | .blindTimeout .. | .laneLockHoldExpiry .. | .laneLockLost ..
    | .detectProbe .. | .laneReadyDone .. | .fallbackLimitExpiry .. | .marginCompare ..
    | .chamoisResultDelivery .. | .portTemperatureRead .. | .ledFrame .. => [.ports, .io]
  | .herdMode .. | .herdTiming .. | .obsSelect .. | .obsLoadBank .. | .ringDispatch .. | .obsScheduledStart ..
    | .bistRecordDelivery .. => [.herds, .io]
  | .chainReceiverLock .. | .chainActivate .. | .chainConfirm .. => [.io, .fw]
  | .otpWriteComplete .. | .jtagInstruction .. => [.io, .sec]
  | .porstRelease .. => [.time, .straps, .pwr]
  | .timeAdjustSlew .. => [.time, .herds, .io]
  | .trainingFrameReceived .. | .periodicInjection .. => [.fresh, .ports, .io]
  | .obsSwap .. | .obsStart .. | .statSnapshotCapture .. => [.fresh, .herds, .io]
  | .doorbellWrite .. | .ringDisable .. => [.heldLow, .pwr, .io]
  | .blockAccessRefused .. => [.access, .pwr, .io]
  | .supplyWindowReentry .. => [.rails, .io, .flt]
  | .d2dRetrainAttempt .. => [.dies, .io, .flt]
  | .portConfig .. | .portLoopbackDigital .. | .diagPassive .. | .statRead .. | .statSnapshot .. | .lpiConfig ..
    | .laneTrain .. | .laneLoopbackOff .. | .laneLoopbackNear .. | .laneLoopbackFar .. | .fwStatus ..
    | .signalDetectChange .. => [.ports, .herds, .io]
  | .timeSetSyncTimeout .. => [.herds, .io, .waits]
  | .fltArm .. => [.herds, .io, .flt]
  | .fwActivateSchedule .. | .fwActivateConfirm .. | .fwActivateCancel .. | .fwStageBufferTimeout .. =>
    [.herds, .io, .fw]
  | .obsStop .. | .lanePrbs .. | .diagPassiveDone .. | .obsSettlingDone .. | .obsFadeDone ..
    | .obsBufferComplete .. | .obsCountDone .. => [.fresh, .ports, .herds, .io]
  | .pcieHotReset .. => [.regs, .latches, .heldLow, .io]
  | .reg64LowRead .. => [.latches, .access, .pwr, .io]
  | .ringEnable .. => [.heldLow, .pwr, .io, .flt]
  | .ddrTrainingDone .. => [.ddr, .store, .herds, .io]
  | .portLoopbackOff .. | .portLoopbackRemote .. | .infofieldRetryExpiry .. => [.ports, .herds, .io, .waits]
  | .dataBufferDmaFault .. => [.ports, .herds, .io, .fw]
  | .secAttest .. => [.ports, .herds, .io, .sec]
  | .hubPhaseManagementDown .. => [.herds, .io, .waits, .fw]
  | .functionLevelReset .. => [.regs, .latches, .heldLow, .pwr, .io]
  | .springbokCheckExpiry .. | .t0Burst .. | .trainWordAccepted .. | .t1WindowStart .. =>
    [.rails, .dies, .ports, .herds, .io]
  | .pwrLevel .. => [.rails, .dies, .herds, .io, .waits]
  | .ctxSave .. | .ctxLoad .. | .ctxPin .. | .ctxUnpin .. | .ctxEvict .. | .ctxList .. | .ctxSaveCheck ..
    | .ctxPeriodicSave .. | .ctxSaveVisible .. => [.store, .ports, .herds, .io, .waits]
  | .portEnable .. | .negAttemptExpiry .. | .basePageReceived .. | .dmeReceived .. | .t0DetectTimeout ..
    | .t2CriteriaMet .. | .t2ConvergenceTimeout .. | .t3CapsTimeout .. | .markerLockChange ..
    | .chamoisStepEnd .. | .calUnitDone .. => [.fresh, .rails, .dies, .ports, .herds, .io]
  | .fixedReaction .. => [.fresh, .ports, .herds, .io, .waits, .flt]
  | .springbokStartInstant .. => [.rails, .dies, .store, .ports, .herds, .io]
  | .diagChamois .. | .calRun .. => [.rails, .dies, .ports, .herds, .io, .waits]
  | .ddrChannelFailure .. => [.ddr, .store, .ports, .herds, .io, .waits]
  | .fwStage .. | .ringDmaFault .. | .hostCodewordReceived .. | .faultRaised .. | .dualRailFault ..
    | .fwProgramDone .. | .chainHeader .. | .chainHeaderChecked .. | .chainBody .. | .chainEnd ..
    | .chainSessionTimeout .. | .ibexI3cFrame .. | .fwHerdSlot .. | .fwConfirmExpiry ..
    | .activationRestartTimeout .. => [.ports, .herds, .io, .flt, .fw, .nv]
  | .portDisable .. | .portRestart .. | .portTrain .. | .signalLossExpiry .. | .timingLossExpiry ..
    | .frameLossExpiry .. | .lpiRefreshExtendExpiry .. | .lpiPartnerSignalExpiry ..
    | .lpiFirstCodewordInstant .. => [.fresh, .rails, .dies, .ports, .herds, .io, .waits]
  | .fltReadLog .. => [.fresh, .ports, .herds, .io, .flt, .fw, .nv]
  | .infofieldReceived .. => [.rails, .dies, .store, .ports, .herds, .io, .waits]
  | .mirrorWriteError .. => [.fresh, .regs, .ports, .herds, .io, .flt, .fw, .nv]
  | .padRelease .. => [.fresh, .heldLow, .pwr, .rails, .dies, .ports, .herds, .io]
  | .nextPageReceived .. => [.fresh, .clk, .rails, .dies, .store, .ports, .herds, .io]
  | .portCommit .. | .sequencerStepEnd .. => [.fresh, .clk, .rails, .dies, .ports, .herds, .io, .waits]
  | .domainSwitch .. | .switchEdgeTimeout .. => [.fresh, .clk, .ports, .herds, .io, .flt, .fw, .nv]
  | .d2dTrainingLost .. => [.fresh, .dies, .ports, .herds, .io, .flt, .fw, .nv]
  | .avsStatusAlert .. => [.fresh, .ports, .herds, .io, .waits, .flt, .fw, .nv]
  | .secDebugUnlock .. => [.fresh, .ports, .herds, .io, .flt, .fw, .sec, .nv]
  | .pwrStateSleep .. | .pwrStateDeepSleep .. | .pwrStateOff .. | .sleepTimerExpiry .. | .deepTimerExpiry .. =>
    [.pwr, .rails, .dies, .store, .ports, .herds, .io, .waits]
  | .fwHubPhaseDone .. => [.pwr, .ports, .herds, .io, .waits, .flt, .fw, .nv]
  | .entropyRetry .. => [.pwr, .ports, .herds, .io, .flt, .fw, .sec, .nv]
  | .supplyWindowExit .. => [.rails, .ports, .herds, .io, .waits, .flt, .fw, .nv]
  | .fwHerdRestartDone .. => [.fresh, .clk, .rails, .dies, .ports, .herds, .io, .waits, .fw]
  | .bistRun .. => [.fresh, .rails, .dies, .store, .ports, .herds, .io, .waits, .flt]
  | .bistStepDone .. => [.fresh, .rails, .dies, .store, .ports, .herds, .io, .waits, .nv]
  | .lineSlotTransmit .. | .reactionComplete .. =>
    [.fresh, .rails, .dies, .ports, .herds, .io, .waits, .flt, .fw, .nv]
  | .refclkMissing .. => [.regs, .latches, .heldLow, .clk, .ddr, .ports, .herds, .io, .waits, .flt]
  | .lineSlotReceived .. => [.fresh, .rails, .dies, .store, .ports, .herds, .io, .waits, .flt, .fw, .nv]
  | .powerEntryDone .. => [.clk, .pwr, .rails, .dies, .ddr, .store, .ports, .herds, .io, .waits, .fw, .sec, .nv]
  | .registerWrite .. | .reg64LowWrite .. | .reg64HighWrite .. | .mirrorEnable .. | .fmcStart ..
    | .fltInjectEvent .. | .fltInjectPair .. =>
    [.fresh, .regs, .heldLow, .access, .clk, .pwr, .rails, .dies, .ports, .herds, .io, .flt, .fw, .nv]
  | .pllLockWindow .. | .pllNoEdge .. =>
    [.fresh, .regs, .latches, .heldLow, .clk, .dies, .ddr, .store, .ports, .herds, .io, .waits, .flt, .fw, .nv]
  | .fwFallback .. | .timeSet .. | .timeAdjustJump .. | .fixedCauseEnded .. | .refclkReturn .. | .enterIbex ..
    | .syncInEdge .. | .fwActivationStart .. | .porstAssert .. | .sysrstAssert .. =>
    [.time, .regs, .latches, .heldLow, .access, .clk, .pwr, .dies, .ddr, .store, .ports, .herds, .io, .waits, .flt,
     .fw, .sec, .nv]
  | .bootFailTimeout .. =>
    [.time, .fresh, .regs, .latches, .heldLow, .access, .clk, .pwr, .dies, .ddr, .store, .ports, .herds, .io, .waits,
     .flt, .fw, .sec, .nv]
  | .fltAck .. | .wakeRestoreDone .. | .bootStepDone .. =>
    [.time, .fresh, .regs, .latches, .heldLow, .access, .clk, .pwr, .rails, .dies, .ddr, .store, .ports, .herds, .io,
     .waits, .flt, .fw, .sec, .nv]

end Sys2Proof.Safety
end

