-- ==== Sys2Proof/Certificates/Slice0/Obligations.lean ====
section
/-!
DEFINITION. The statements for the provers: for every row of the table what its command does where the spec says it acts,
the rules that hold of the whole machine, and the invariants of every step. A clause of a row reads: for every state and
operands with these conditions, the row answers a next state, and that state is as the rules say.
-/

open Sys2Proof Sys2Proof.Machine Sys2Proof.Safety

/-- TIME commands and events (R330, R331, R361, R32). A TIME.SET at once, or a jump, moves device time and ends a
slew; one that waits for an edge changes nothing yet; a slew keeps device time and answers what an earlier one left
undone; an accepted edge counts and is recorded, and applies the TIME.SET that waited; a herd's copy of device time is
brought within 4 ns of the hub's. -/
def Obligations.TimeRows : Prop :=
  (∀ c v s, ∃ t, exec (.timeSet c v 0) s = .next t ∧ t.time.now = v ∧ t.time.slewLeft = 0) ∧
  (∀ c v s, ∃ t, exec (.timeSet c v 1) s = .next t ∧ t = { s with waits := s.waits ++ [.sync c v] }) ∧
  (∀ c step s, ∃ t, exec (.timeAdjustJump c step) s = .next t ∧ t.time.now = s.time.now + BitVec.ofInt 64
    step.toInt ∧ t.time.slewLeft = 0) ∧
  (∀ c step s, Runs s c → ∃ t, exec (.timeAdjustSlew c step) s = .next t ∧ t.time.now = s.time.now ∧
    t.time.slewLeft = step.toInt ∧ Answered s t c 0x0F02 stOk (BitVec.ofInt 64 s.time.slewLeft)) ∧
  (∀ s, s.time.slewLeft = 0 → ∃ t, exec .timeSlewDone s = .next t ∧ t =
    { s with time := { s.time with slewPhase := 0 } }) ∧
  (∀ s, s.time.slewLeft ≠ 0 → ∃ t, exec .timeSlewDone s = .next t ∧ t = s) ∧
  (∀ c v s, s.waits.findSome? syncOf = some (c, v) → Runs s c → s.clk.refclkOk = true → ∃ t, exec
    .timeSetSyncTimeout s = .next t ∧ t.waits = s.waits.erase (.sync c v) ∧ t.time = s.time ∧ Answered s t c 0x0F01
    stTimeout 0) ∧
  (∀ rising s, hubRuns s = true → syncEn s = true → rising ≠ (regVal s 0x108).getLsbD 1 → ∃ t, exec (.syncInEdge
    rising) s = .next t ∧ t.time.syncCount = s.time.syncCount + 1 ∧ t.time.syncLast = s.time.now ∧ t.time.syncMono
    = some s.mono ∧ (∀ c v, s.fw.seq ≠ .scheduled → s.waits.filterMap syncOf = [(c, v)] → t.time.now = v)) ∧
  (∀ h s, (getDie s (dieOfHerd h)).d2dUp = true → herdsRun s = true → ∃ t, exec (.herdTimeCorrection h) s = .next t
    ∧ (getHerd t h).timeSkew ≤ 4 ∧ -4 ≤ (getHerd t h).timeSkew ∧ OnlyIn [.fresh, .herds] s t)

/-- FW commands (R329, R470 to R474, R481, R487, R488, R494): each with the conditions under which it has its effect.
A FW.STAGE whose object lies in one buffer of its exact length opens a session and goes on to program the slot. -/
def Obligations.FwCommands : Prop :=
  (∀ c img s r d, Runs s c → s.fw.session = none → ibexListens s 1 = true → dataRingOf s c .hub 4 = some r →
    canWrite s = true → s.fw.dropping = [] → s.fw.stages = [] → (getRing s r).bufs = [d] → descOk false d = true →
    d.flags = 1 → d.length.toNat = 4096 + hdrBodySize img.header → img.digestOk = true → headerKey s img.header =
    none → headerUnit s img.header = none → stagingClosed s.fw = false → (kindOf (hdrKind img.header)).bind (triGet
    s.fw.staged) = none → ∃ t, exec (.fwStage c img) s = .next t ∧ t.fw.session = some
    { source := 1, header := img.header, got := hdrBodySize img.header, seq := 0, cmd := some c, program := true, same := false }
    ∧ t.fw.prevValid = false ∧ t.fw.running = s.fw.running ∧ t.fw.slot = s.fw.slot) ∧
  (∀ c a s, Runs s c → ibexListens s 1 = true → s.pwr.st ≠ .ibex → s.fw.seq ≠ .running → s.fw.seq ≠ .falling →
    windowOpen s.fw = false → s.fw.fallback = false → s.time.now.toNat ≤ a.toNat → anyChanged (stagedSet s.fw)
    s.fw.running = true → setCompatible s.fw.running (stagedSet s.fw) = true → ∃ t, exec (.fwActivateSchedule c a
    []) s = .next t ∧ t.fw.seq = .scheduled ∧ t.fw.startT = a ∧ t.fw.staged = s.fw.staged ∧ t.fw.running =
    s.fw.running ∧ Answered s t c 0x0D02 stOk 0) ∧
  (∀ c s, Runs s c → canConfirm s = true → ∃ t, exec (.fwActivateConfirm c) s = .next t ∧ t.fw.deadline = 0 ∧
    t.fw.prevValid = s.fw.prevValid ∧ t.fw.previous = s.fw.previous ∧ t.fw.running = s.fw.running ∧ Answered s t c
    0x0D02 stOk 0) ∧
  (∀ c s, Runs s c → s.fw.seq = .scheduled → s.fw.fallback = false → ∃ t, exec (.fwActivateCancel c) s = .next t ∧
    t.fw.seq = restSeq s.fw ∧ t.fw.startT = 0 ∧ t.fw.staged = s.fw.staged ∧ Answered s t c 0x0D02 stOk 0) ∧
  (∀ c a s, Runs s c → s.fw.prevValid = true → s.fw.rejected = false → s.fw.seq ≠ .running → s.fw.seq ≠ .falling →
    s.time.now.toNat < a.toNat → ∃ t, exec (.fwFallback c a) s = .next t ∧ t.fw.seq = .scheduled ∧ t.fw.fallback =
    true ∧ t.fw.startT = a ∧ Answered s t c 0x0D03 stOk 0) ∧
  (∀ c s r d rest, Runs s c → dataRingOf s c .hub 3 = some r → (getRing s r).bufs = d :: rest → descOk true d =
    true → 256 ≤ d.length.toNat → (getRing s r).dmaBad = false → ∃ t, exec (.fwStatus c) s = .next t ∧ Bus.data
    d.addr (statusFields s) ∈ t.io.bus ∧ t.fw = s.fw ∧ Answered s t c 0x0D04 stOk 0)

/-- Firmware events (R473, R474, R482 to R487): what each does to the images, the sequence and the herds. -/
def Obligations.FwEvents : Prop :=
  (∀ s (x : Session) (k : Fin 3), s.fw.session = some x → x.program = true → kindOf (hdrKind x.header) = some k →
    s.clk.refclkOk = true → ∃ t, exec (.fwProgramDone true) s = .next t ∧ t.fw.session = none ∧ triGet t.fw.staged
    k = some (imgOf x.header (x.source == 2)) ∧ t.fw.running = s.fw.running) ∧
  (∀ s (r : Stage) (l : List Stage), s.fw.stages = r :: l → Runs s r.cmd → s.fw.session = none → s.clk.refclkOk =
    true → ∃ t, exec .fwStageBufferTimeout s = .next t ∧ t.fw.stages = (r :: l).filter (fun x => x.cmd != r.cmd) ∧
    t.fw.staged = s.fw.staged ∧ Answered s t r.cmd 0x0D01 stTimeout 0) ∧
  (∀ s, s.fw.seq = .scheduled → inService s = true → s.fw.fallback = false → s.fw.session = none →
    s.fw.startT.toNat ≤ s.time.now.toNat → waitsEdge s = false → changed (stagedSet s.fw).hub s.fw.running.hub =
    true → setCompatible s.fw.running (stagedSet s.fw) = true → s.clk.refclkOk = true → ∃ t, exec
    .fwActivationStart s = .next t ∧ t.fw.seq = .running ∧ t.fw.startT = s.time.now ∧ t.fw.target = stagedSet s.fw
    ∧ t.fw.previous = triMap some s.fw.running ∧ t.fw.hubPhase = true ∧ t.fw.mgmtDown = s.fw.mgmtDown ∧ OnlyIn
    [.fw] s t) ∧
  (∀ s, s.fw.seq = .running → s.fw.hubPhase = true → s.fw.mgmtDown = false → s.clk.refclkOk = true → ∃ t, exec
    .hubPhaseManagementDown s = .next t ∧ t.fw.mgmtDown = true ∧ t.fw.stages = [] ∧ t.ports = s.ports ∧ t.store =
    s.store) ∧
  (∀ s, s.fw.seq = .running → s.fw.hubPhase = true → s.fw.mgmtDown = true → s.clk.refclkOk = true → ∃ t, exec
    (.fwHubPhaseDone true) s = .next t ∧ t.fw.mgmtDown = false ∧ t.fw.running.hub = s.fw.target.hub ∧ t.fw.slot =
    !s.fw.safeSlot) ∧
  (∀ h s, s.fw.seq = .running → s.fw.hubPhase = false → herdDone s h = false → slotComes s h = true → (getHerd s
    h).st = .normal → herdReacts s h = false → compatible s.fw.target.herd s.fw.running.hub = true → herdsRun s =
    true → ∃ t, exec (.fwHerdSlot h) s = .next t ∧ (getHerd t h).st = .fwRestart ∧ HerdsBut h s t ∧ t.ports =
    s.ports ∧ t.fw = { s.fw with deferred := s.fw.deferred.erase h }) ∧
  (∀ h s, s.fw.seq = .running → s.fw.hubPhase = false → herdDone s h = false → slotComes s h = true → (getHerd s
    h).st ≠ .normal → (getHerd s h).st ≠ .fwRestart → h ∉ s.fw.deferred → compatible s.fw.target.herd
    s.fw.running.hub = true → herdsRun s = true → ∃ t, exec (.fwHerdSlot h) s = .next t ∧ t =
    { s with fw := { s.fw with deferred := s.fw.deferred ++ [h] } }) ∧
  (∀ h s, (getHerd s h).st = .fwRestart → herdsRun s = true → ∃ t, exec (.fwHerdRestartDone h) s = .next t ∧
    (getHerd t h).st = .normal ∧ (getHerd t h).image = s.fw.target.herd.version ∧ (getHerd t h).imageDig =
    s.fw.target.herd.digest) ∧
  (∀ s, s.fw.seq = .running → s.fw.mgmtDown = true → s.clk.refclkOk = true → ∃ t, exec .activationRestartTimeout s
    = .next t ∧ t.fw.seq = .falling ∧ t.fw.target = safeSet s.fw ∧ t.fw.hubPhase = true) ∧
  (∀ s, windowOpen s.fw = true → s.fw.deadline.toNat ≤ s.time.now.toNat → inService s = true → s.fw.session = none
    → changed (previousSet s.fw).hub s.fw.running.hub = true → s.clk.refclkOk = true → ∃ t, exec .fwConfirmExpiry s
    = .next t ∧ t.fw.seq = .falling ∧ t.fw.target = previousSet s.fw ∧ t.fw.deadline = 0 ∧ Posted s t (globalSrc
    82) 1)

/-- The Wesal chain and Ibex (R475 to R480, R491, R492): frames that pass their checks advance the session, are
forwarded, and act. -/
def Obligations.ChainRows : Prop :=
  (∀ (down valid : Bool) (run : Nat) s, chainAlive s = true → (if down then s.fw.outLock else s.fw.inLock) = !valid
    → (if valid then 64 else 16) ≤ run → ∃ t, exec (.chainReceiverLock down valid run) s = .next t ∧ (if down then
    t.fw.outLock else t.fw.inLock) = valid ∧ (if down then t.fw.inLock = s.fw.inLock else t.fw.outLock =
    s.fw.outLock) ∧ Posted s t (globalSrc 104) 1) ∧
  (∀ (down valid : Bool) (run : Nat) s, (if down then s.fw.outLock else s.fw.inLock) = !valid → run < (if valid
    then 64 else 16) → ∃ t, exec (.chainReceiverLock down valid run) s = .next t ∧ t = s) ∧
  (∀ k (hdr : ImageHeader) s, chainAlive s = true → receiving s 2 = false → k.crcOk = true → k.seq = 0 → ∃ t, exec
    (.chainHeader k hdr) s = .next t ∧ t.fw.chainHdr = some (k, hdr) ∧ t.fw.chainFwd = false ∧ OnlyIn [.fw] s t) ∧
  (∀ s k (h : ImageHeader), s.fw.chainHdr = some (k, h) → chainAlive s = true → headerKey s h = none → headerUnit s
    h = none → mayStage s = true → stagingClosed s.fw = false → (kindOf (hdrKind h)).bind (triGet s.fw.staged) =
    none → ∃ t, exec .chainHeaderChecked s = .next t ∧ t.fw.chainHdr = none ∧ t.fw.chainFwd = chainForwards s ∧
    t.fw.session = some
    { source := 2, header := h, got := 0, seq := 0, cmd := none, program := false, same := false } ∧ (chainForwards
    s = true → Bus.chain "HEADER" (BitVec.ofNat 256 h.digest.toNat) ∈ t.io.bus)) ∧
  (∀ k off (n : Nat) s (x : Session), chainAlive s = true → s.fw.session = some x → x.source = 2 → x.program =
    false → follows x k = true → off.toNat = x.got → 0 < n → n ≤ 4092 → x.got + n ≤ hdrBodySize x.header → ∃ t,
    exec (.chainBody k off n) s = .next t ∧ t.fw.session = some { x with got := x.got + n, seq := k.seq } ∧
    t.fw.staged = s.fw.staged) ∧
  (∀ k (sent : BitVec 32) s (x : Session), chainAlive s = true → s.fw.session = some x → x.source = 2 → x.program =
    false → follows x k = true → sent.toNat = x.got → x.got = hdrBodySize x.header → x.same = false → ∃ t, exec
    (.chainEnd k sent true) s = .next t ∧ t.fw.chainFwd = false ∧ t.fw.session = some
    { x with seq := k.seq, program := true } ∧ t.fw.prevValid = false) ∧
  (∀ k a s, chainAlive s = true → k.crcOk = true → stageEn s = true → s.pwr.st ≠ .ibex → stagedChain s.fw = true →
    s.fw.mgmtDown = false → s.fw.seq ≠ .running → s.fw.seq ≠ .falling → windowOpen s.fw = false → s.fw.fallback =
    false → s.time.now.toNat ≤ a.toNat → anyChanged (stagedSet s.fw) s.fw.running = true → setCompatible
    s.fw.running (stagedSet s.fw) = true → ∃ t, exec (.chainActivate k a []) s = .next t ∧ t.fw.seq = .scheduled ∧
    t.fw.startT = a ∧ t.fw.chainIgn = false) ∧
  (∀ k s, chainAlive s = true → k.crcOk = true → stageEn s = true → pendingChain s.fw = true → canConfirm s = true
    → ∃ t, exec (.chainConfirm k) s = .next t ∧ t.fw.deadline = 0 ∧ t.fw.chainIgn = false) ∧
  (∀ (tag : BitVec 32) s, inService s = true → tag = Config.deviceTag.setWidth 32 → ∃ t, exec (.enterIbex tag) s =
    .next t ∧ t.fw.toIbex = true ∧ t.pwr.st = .boot 3 true ∧ t.time.now = s.time.now) ∧
  (∀ s (x : Session), s.fw.session = some x → x.source = 2 → x.program = false → x.cmd = none → s.clk.refclkOk =
    true → ∃ t, exec .chainSessionTimeout s = .next t ∧ t.fw.session = none ∧ t.fw.lastRef = 0x0B) ∧
  (∀ k off (n : Nat) s (x : Session), s.pwr.st = .ibex → ibexListens s 2 = true → (regVal s 0x700).getLsbD 9 =
    false → s.fw.session = some x → x.source = 3 → x.program = false → follows x k = true → off.toNat = x.got → 0 <
    n → n ≤ 4092 → x.got + n ≤ hdrBodySize x.header → s.clk.refclkOk = true → ∃ t, exec (.ibexI3cFrame (.body k off
    n)) s = .next t ∧ t.fw.session = some { x with got := x.got + n, seq := k.seq } ∧ OnlyIn [.fw] s t)

/-- Attestation, tokens, OTP and JTAG (R497 to R508). An accepted DEBUG_UNLOCK adds its SCOPE and a new challenge is
drawn; an OTP write takes effect when it completes; a scan that is not open is BYPASS. -/
def Obligations.SecRows : Prop :=
  (∀ c (n : BitVec 256) s r d rest, Runs s c → s.sec.ready = true → dataRingOf s c .hub 3 = some r → (getRing s
    r).bufs = d :: rest → descOk true d = true → 4096 ≤ d.length.toNat → ∃ t, exec (.secAttest c n) s = .next t ∧
    t.sec = { s.sec with reports := s.sec.reports + 1 } ∧ Bus.data d.addr (reportFields s (s.sec.reports + 1) n ++
    [(0x680, 2420, Config.sign (reportFields s (s.sec.reports + 1) n))]) ∈ t.io.bus ∧ Answered s t c 0x0E01 stOk
    4084) ∧
  (∀ c (k : Token) s r d rest, dataRingOf s c .hub 4 = some r → (getRing s r).bufs = d :: rest → descOk false d =
    true → tokenBad k d.length.toNat = none → tokenRefused s k = false → tokenAuth s k = true → tokType k = 1 → ∃
    t, exec (.secDebugUnlock c k) s = .next t ∧ t.sec.unlocked = true ∧ t.sec.scope = s.sec.scope ||| (tokScope
    k).setWidth 3 ∧ t.sec.challenge = Config.entropy s.fresh ∧ t.sec.lifecycle = s.sec.lifecycle ∧ Posted s t
    (globalSrc 97) 1) ∧
  (∀ s (hash : BitVec 256), s.sec.otp = some (.owner hash) → s.clk.refclkOk = true → ∃ t, exec .otpWriteComplete s
    = .next t ∧ t.sec.owner = some hash ∧ t.sec.otp = none ∧ t.sec.lifecycle = s.sec.lifecycle) ∧
  (∀ s, s.sec.otp = some (.lifecycle 2) → s.clk.refclkOk = true → ∃ t, exec .otpWriteComplete s = .next t ∧
    t.sec.lifecycle = 2 ∧ t.sec.seedGone = true ∧ t.sec.ready = false ∧ t.sec.unlocked = true ∧ t.sec.scope = 7 ∧
    Posted s t (globalSrc 98) 1) ∧
  (∀ (op : JtagOp) s, s.pwr.st ≠ .inPorst → ∃ t, exec (.jtagInstruction op) s = .next t ∧ Bus.jtag (jtagName s op)
    ∈ t.io.bus ∧ (jtagName s op = "BYPASS" → t.sec.jtag = none) ∧ (jtagName s op ≠ "BYPASS" → jtagName s op ≠
    "reset" → t.sec.jtag = some op)) ∧
  (∀ (healthy sys : Bool) s, s.pwr.st = .boot 6 sys → firstBoot s = true → s.sec.seedProg = false → s.clk.refclkOk
    = true → ∃ t, exec (.entropyRetry healthy) s = .next t ∧ t.sec.keyProg = healthy ∧ t.sec.seedProg = healthy)

/-- Reset pins and the boot (R513, R514, R516, R517, R490, R523). PORST_N and SYSRST_N leave what Table 2 of Power-Up,
Reset and Boot states; the boot goes on from step to step. -/
def Obligations.BootRows : Prop :=
  (∀ s, ∃ t, exec .porstAssert s = .next t ∧ t.pwr.st = .inPorst ∧ t.time = State.reset.time ∧ t.regs = [] ∧
    t.store = [] ∧ t.flt.volatile = [] ∧ t.flt.persist = s.flt.persist ∧ t.sec.factory = false ∧ t.sec.lifecycle =
    s.sec.lifecycle ∧ t.io.gens = [] ∧ (∀ p, (getPort t p).st = .disabled)) ∧
  (∀ (b : BitVec 2) (ce te : Bool) s, s.pwr.st = .inPorst → ∃ t, exec (.porstRelease b ce te) s = .next t ∧
    t.straps = { bootSrc := b, chainEnd := ce, testEn := te } ∧ t.time = State.reset.time ∧ t.pwr.st = .boot 2
    false ∧ OnlyIn [.time, .straps, .pwr] s t) ∧
  (∀ s, sysrstIgnored s = false → ∃ t, exec .sysrstAssert s = .next t ∧ t.pwr.st = .inSysrst ∧ t.time.now =
    s.time.now ∧ t.straps = s.straps ∧ t.store = [] ∧ t.flt.volatile = s.flt.volatile ∧ t.flt.first = s.flt.first ∧
    t.flt.cfg = s.flt.cfg ∧ t.sec.unlocked = false ∧ t.sec.factory = s.sec.factory ∧ t.io.gens = [] ∧ (∀ p,
    (getPort t p).st = .disabled)) ∧
  (∀ s, s.pwr.st = .inSysrst → ∃ t, exec .sysrstRelease s = .next t ∧ t =
    { s with pwr := { s.pwr with st := .boot 3 true } }) ∧
  (∀ (o : BootOutcome) (n : Nat) (sys : Bool) s, s.pwr.st = .boot n sys → s.clk.refclkOk = true → (n = 2 ∨ n = 8 ∨
    n = 10) → ∃ t, exec (.bootStepDone o) s = .next t ∧ t.pwr.st = .boot (nextStep n sys) sys) ∧
  (∀ (o : BootOutcome) (sys : Bool) s, s.pwr.st = .boot 11 sys → s.clk.refclkOk = true → ∃ t, exec (.bootStepDone
    o) s = .next t ∧ t.pwr.st = .run ∧ t.fw.bootFails = 0) ∧
  (∀ (n : Nat) (sys : Bool) s, s.pwr.st = .boot n sys → 6 ≤ n → n ≤ 10 → s.fw.bootFails.toNat < 2 → s.clk.refclkOk
    = true → ∃ t, exec .bootFailTimeout s = .next t ∧ t.pwr.st = .boot 3 true ∧ t.fw.bootFails.toNat =
    s.fw.bootFails.toNat + 1) ∧
  (∀ s, s.pwr.st = .postHold → ∃ t, exec .sidebandStatusRead s = .next t ∧ t = emit s (.sideband (postBytes s)))

/-- PWR commands (R327, R417, R420 to R427): an entry begins when nothing refuses or defers it; a deferred one waits;
a floor is set or lifted. -/
def Obligations.PowerCommands : Prop :=
  (∀ c s, refuseTest s = none → fwRuns s = false → allHerds.all (fun h => !pathBusy (getHerd s h)) = true →
    inService s = true → sleepReady s = true → s.clk.refclkOk = true → ∃ t, exec (.pwrStateSleep c) s = .next t ∧
    t.pwr.st = .entering 2 ∧ t.pwr.pending = none) ∧
  (∀ c s, Runs s c → refuseTest s = none → fwRuns s = false → allHerds.all (fun h => !pathBusy (getHerd s h)) =
    true → inService s = true → sleepReady s = false → ∃ t, exec (.pwrStateSleep c) s = .next t ∧ t.pwr.st =
    s.pwr.st ∧ t.pwr.pending = some 2 ∧ Answered s t c 0x0B01 stOk 0) ∧
  (∀ c s, Runs s c → refuseTest s = none → fwRuns s = false → s.pwr.st = .sleep → s.pwr.dark = true → ∃ t, exec
    (.pwrStateDeepSleep c) s = .next t ∧ t.pwr.st = .entering 3 ∧ t.ports = s.ports ∧ Answered s t c 0x0B01 stOk 0) ∧
  (∀ c s, Runs s c → refuseTest s = none → fwRuns s = false → s.pwr.st = .sleep → s.pwr.dark = true → ∃ t, exec
    (.pwrStateOff c) s = .next t ∧ t.pwr.st = .entering 4 ∧ t.ports = s.ports ∧ Answered s t c 0x0B01 stOk 0) ∧
  (∀ c s, refuseTest s = none → fwRuns s = false → inService s = true → ∃ t, exec (.pwrStateOff c) s = .next t ∧
    t.pwr.st = .entering 4) ∧
  (∀ c (d : DieId) (n : Fin 4) s, ∃ t, exec (.pwrLevel c (BitVec.ofNat 8 d.val) (BitVec.ofNat 8 n.val)) s = .next t
    ∧ (getDie t d).floor = some n.val) ∧
  (∀ c (d : DieId) s, ∃ t, exec (.pwrLevel c (BitVec.ofNat 8 d.val) 0xFF) s = .next t ∧ (getDie t d).floor = none)

/-- R418, R420, R421, R424, R436: a sequencer step reaches its level; timers and host activity move between Run, Idle
and the entries; released pads are free. -/
def Obligations.LevelAndTimerEvents : Prop :=
  (∀ (d : DieId) (n : Nat) s, (getDie s d).step = some n → s.clk.refclkOk = true → ∃ t, exec (.sequencerStepEnd d)
    s = .next t ∧ (getDie t d).level = n) ∧
  (∀ s, s.pwr.st = .run → regVal s 0x400 ≠ 0 → s.clk.refclkOk = true → ∃ t, exec .idleTimerExpiry s = .next t ∧
    t.pwr = { s.pwr with st := .idle } ∧ OnlyIn [.pwr, .io] s t) ∧
  (∀ (a : HostAccess) s, busUp s = true → s.pwr.st = .idle → ∃ t, exec (.hostActivity a) s = .next t ∧ t.pwr =
    { s.pwr with st := .run, hubDeaf := s.mono + deafNs } ∧ OnlyIn [.pwr, .io] s t) ∧
  (∀ s, s.clk.refclkOk = true → inService s = true → regVal s 0x404 ≠ 0 → sleepReady s = true → ∃ t, exec
    .sleepTimerExpiry s = .next t ∧ t.pwr.st = .entering 2) ∧
  (∀ s, s.clk.refclkOk = true → s.pwr.st = .sleep → s.pwr.deepCnt = true → s.pwr.dark = true → ∃ t, exec
    .deepTimerExpiry s = .next t ∧ t.pwr.st = .entering 3 ∧ OnlyIn [.pwr] s t) ∧
  (∀ s, busUp s = true → s.pwr.padsHeld = true → ∃ t, exec .padRelease s = .next t ∧ t.pwr.padsHeld = false)

/-- R424 to R435: entries complete; wake sources begin a wake, or are latched during an entry; restores reach Run. -/
def Obligations.PowerEntries : Prop :=
  (∀ s, s.pwr.st = .entering 2 → s.pwr.dark = false → s.pwr.latched = none → s.pwr.pending = none → s.clk.refclkOk
    = true → ∃ t, exec .powerEntryDone s = .next t ∧ t.pwr.st = .sleep ∧ t.pwr.dark = true ∧ (∀ d, (getDie t
    d).level = 3) ∧ (∀ e, (getDdr t e).selfRefresh = true)) ∧
  (∀ s, s.pwr.st = .entering 3 → s.pwr.dark = true → s.pwr.latched = none → s.clk.refclkOk = true → ∃ t, exec
    .powerEntryDone s = .next t ∧ t.pwr.st = .deepSleep ∧ t.sec.unlocked = false ∧ t.sec.scope = 0) ∧
  (∀ s, s.pwr.st = .entering 4 → s.pwr.latched = none → s.clk.refclkOk = true → ∃ t, exec .powerEntryDone s = .next
    t ∧ t.pwr.st = .off ∧ t.sec.unlocked = false) ∧
  (∀ s, s.pwr.st = .off → s.clk.refclkOk = true → ∃ t, exec .wakeNAssert s = .next t ∧ t.pwr.st = .restoring 4 ∧
    t.pwr.wake = 1 ∧ t.pwr.replayed = false ∧ t.pwr.fromSt = 4 ∧ OnlyIn [.pwr] s t) ∧
  (∀ s, s.pwr.st = .entering 4 → s.pwr.latched = none → s.clk.refclkOk = true → ∃ t, exec .wakeNAssert s = .next t
    ∧ t.pwr = { s.pwr with latched := some 1 } ∧ OnlyIn [.pwr] s t) ∧
  (∀ (addr : BitVec 7) s, s.pwr.st = .deepSleep → addr = s.pwr.sideAddr → (regVal s 0x700).getLsbD 8 = true → ∃ t,
    exec (.sidebandAddressMatch addr) s = .next t ∧ t.pwr.st = .restoring 3 ∧ t.pwr.wake = (if (regVal s
    0x700).getLsbD 9 then 3 else 2) ∧ t.pwr.fromSt = 3 ∧ t.pwr.sideAddr = BitVec.ofNat 7 (fld (regVal s 0x700) 0
    7)) ∧
  (∀ m (reads : List (PortId × CtxKey × CtxRead)) s, s.pwr.st = .restoring 2 → s.clk.refclkOk = true → ∃ t, exec
    (.wakeRestoreDone m reads) s = .next t ∧ t.pwr.st = .run ∧ t.pwr.dark = false) ∧
  (∀ m (reads : List (PortId × CtxKey × CtxRead)) s, s.pwr.st = .restoring 3 → s.clk.refclkOk = true → ∃ t, exec
    (.wakeRestoreDone m reads) s = .next t ∧ t.pwr.st = .run ∧ t.pwr.padsHeld = true ∧ t.pwr.retFail = m ∧ t.store
    = []) ∧
  (∀ m (reads : List (PortId × CtxKey × CtxRead)) s, s.pwr.st = .restoring 4 → s.clk.refclkOk = true → ∃ t, exec
    (.wakeRestoreDone m reads) s = .next t ∧ t.pwr.st = .run ∧ t.pwr.padsHeld = true ∧ t.time = State.reset.time)

/-- Clocks (R404 to R413): a third good window judges a PLL locked; a bad one, or no edge, judges it unlocked and
posts PLL_LOCK_LOST; a switch restarts its domain with LOST 10, a forced one is INDETERMINATE; a missing REFCLK starts
the fixed reaction, and its return starts every PLL. -/
def Obligations.ClockRows : Prop :=
  (∀ (u : PllId) (k : PllKind) s, pllKind u = some k → pllOn s k = true → (getPll s (pllId k)).locked = false → 2 ≤
    (getPll s (pllId k)).good → ∃ t, exec (.pllLockWindow u true) s = .next t ∧ getPll t (pllId k) = Pll.up) ∧
  (∀ (u : PllId) (k : PllKind) s, pllKind u = some k → pllOn s k = true → (getPll s (pllId k)).locked = true → ∃ t,
    exec (.pllLockWindow u false) s = .next t ∧ (getPll t (pllId k)).locked = false ∧ Posted s t (globalSrc 1) 1) ∧
  (∀ (u : PllId) (k : PllKind) s, pllKind u = some k → pllOn s k = true → (getPll s (pllId k)).locked = true → ∃ t,
    exec (.pllNoEdge u) s = .next t ∧ (getPll t (pllId k)).locked = false ∧ Posted s t (globalSrc 1) 1) ∧
  (∀ (u : PllId) (k : PllKind) s, pllKind u = some k → (getPll s (pllId k)).locked = false → s.clk.refclkOk = true
    → ∃ t, exec (.pllReacquire u) s = .next t ∧ getPll t (pllId k) = { getPll s (pllId k) with good := 0 } ∧ OnlyIn
    [.clk] s t) ∧
  (∀ (d : Domain) (toPll : Bool) s, (getSwitch s d).running = some toPll → (getSwitch s d).waiting = none →
    s.clk.refclkOk = true → (toPll && !(getPll s (domainPll d)).locked) = false → ∃ t, exec (.domainSwitch d toPll)
    s = .next t ∧ getSwitch t d = { onPll := toPll, running := none, waiting := none } ∧ t.clk.lastDomain =
    BitVec.ofNat 8 (domainCode d) ∧ t.clk.lastLost = 10 ∧ t.clk.lastIndet = false ∧ OnlyIn [.clk] s t) ∧
  (∀ (d : Domain) (toPll : Bool) s, (getSwitch s d).running = some toPll → s.clk.refclkOk = true → ∃ t, exec
    (.switchEdgeTimeout d) s = .next t ∧ t.clk.lastIndet = true ∧ t.clk.lastDomain = BitVec.ofNat 8 (domainCode d)
    ∧ Posted s t (globalSrc 3) 1) ∧
  (∀ s, s.pwr.st ≠ .off → s.clk.refclkOk = true → ∃ t, exec .refclkMissing s = .next t ∧ t.clk.refclkOk = false ∧
    t.flt.fixedHold = true ∧ t.io.rings = [] ∧ t.time.now = s.time.now) ∧
  (∀ s, s.clk.refclkOk = false → s.pwr.st ≠ .deepSleep → ∃ t, exec .refclkReturn s = .next t ∧ t.clk.refclkOk =
    true ∧ (getPll t pllRoot).locked = false ∧ (getPll t pllPcie).locked = false)

/-- Supplies, temperatures and fixed reactions (R375, R395, R396, R414, R416, R448). -/
def Obligations.SupplyRows : Prop :=
  (∀ (r : RailId) (mv : BitVec 16) s, s.clk.refclkOk = true → (getRail s r).out = false → railsWatched s = true →
    inWindow s r mv = false → fixedRail r = false → ∃ t, exec (.supplyWindowExit r mv) s = .next t ∧ (getRail t
    r).out = true ∧ Posted s t (globalSrc 18) 1 ∧ t.flt.fixedHold = s.flt.fixedHold) ∧
  (∀ (r : RailId) (mv : BitVec 16) s, s.clk.refclkOk = true → (getRail s r).out = false → railsWatched s = true →
    inWindow s r mv = false → fixedRail r = true → (fltUnit (fixedSource (.supply r))).all (fun u => !fltIgnored s
    u) = true → tabGet false s.flt.raised (fixedSource (.supply r)) = false → ∃ t, exec (.supplyWindowExit r mv) s
    = .next t ∧ (getRail t r).out = true ∧ t.flt.fixedHold = true) ∧
  (∀ (r : RailId) (mv : BitVec 16) s, s.clk.refclkOk = true → (getRail s r).out = true → railsWatched s = true →
    inWindow s r mv = true → ∃ t, exec (.supplyWindowReentry r mv) s = .next t ∧ (getRail t r).out = false ∧ tabGet
    false t.flt.raised (fixedSource (.supply r)) = false ∧ Posted s t (globalSrc 18) 1) ∧
  (∀ s, s.clk.refclkOk = true → railsWatched s = true → tabGet false s.flt.raised 0xA00 = false → tabGet false
    s.flt.network 0xA00 = false → ∃ t, exec (.avsStatusAlert 0 true) s = .next t ∧ t.flt.next = s.flt.next + 1 ∧
    tabGet false t.flt.raised 0xA00 = true) ∧
  (∀ s, tabGet false s.flt.raised 0xA21 = false → ∃ t, exec (.fixedReaction .junction) s = .next t ∧
    t.flt.fixedHold = true ∧ tabGet false t.flt.raised 0xA21 = true ∧ t.flt.running = none) ∧
  (∀ s, s.clk.refclkOk = true → s.flt.fixedHold = true → s.flt.latch ≠ [] → ∃ t, exec .fixedCauseEnded s = .next t
    ∧ t.flt.ended = true ∧ t.flt.fixedHold = true ∧ tabGet false t.flt.raised 0xA10 = false ∧ OnlyIn [.flt] s t) ∧
  (∀ s, s.clk.refclkOk = true → s.flt.fixedHold = true → s.flt.latch = [] → s.flt.fixedRecs.all (fun n =>
    !(s.flt.volatile.any fun r => r.record == n && unacked r)) = true → ∃ t, exec .fixedCauseEnded s = .next t ∧
    t.flt.fixedHold = false ∧ t.pwr.st = .boot 3 true ∧ t.flt.volatile = s.flt.volatile) ∧
  (∀ p (x : BitVec 16) s, herdsRun s = true → ∃ t, exec (.portTemperatureRead p x) s = .next t ∧ (getPort t p).temp
    = x ∧ PortsBut p s t) ∧
  (∀ (d : DieId) (x : BitVec 16) s, s.clk.refclkOk = true → linePowered s = true → ∃ t, exec (.dieTemperatureRead
    (d.castLT (Nat.lt_of_lt_of_le d.isLt (by decide))) x) s = .next t ∧ getDie t d = { getDie s d with temp := x }
    ∧ OnlyIn [.dies] s t) ∧
  (∀ (x : BitVec 16) s, s.clk.refclkOk = true → hubPowered s = true → ∃ t, exec (.dieTemperatureRead 8 x) s = .next
    t ∧ t = { s with hubTemp := x })

/-- Calibration (R322, R443 to R452): CAL.RUN begins a run of the ordered tasks on each covered port; a background
step moves the rotation on; a die's run records its temperature; a finished task counts on the four pairs. -/
def Obligations.CalRows : Prop :=
  (∀ c p (tasks : BitVec 8) s, Runs s c → myTurn s c = true → calGate s (.port p) = none → tasks.toNat ≤ 0x1F →
    calRefuses s p (forced c) = none → ((getPort s p).st = .disabled ∨ (getPort s p).st = .hold) → ∃ t, exec
    (.calRun c (.port p) tasks) s = .next t ∧ (getPort t p).cal.map (·.tasks) = some (if tasks = 0 then 0x1F else
    tasks) ∧ (getPort t p).st = (getPort s p).st ∧ PortsBut p s t ∧ Answered s t c 0x0601 stOk 0) ∧
  (∀ c h (tasks : BitVec 8) s, myTurn s c = true → calGate s (.herd h) = none → tasks.toNat ≤ 0x1F → (portsOf
    h).findSome? (fun p => calRefuses s p (forced c)) = none → ∃ t, exec (.calRun c (.herd h) tasks) s = .next t ∧
    (∀ p ∈ portsOf h, (getPort t p).cal.map (·.tasks) = some (if tasks = 0 then 0x1F else tasks))) ∧
  (∀ p s, calRuns s p = true → calPeriods (getPort s p).mode ≤ (getPort s p).calMarks → ∃ t, exec
    (.calMarkerCountExpiry p) s = .next t ∧ (getPort t p).calRot = ((getPort s p).calRot + 1) % 4 ∧ (getPort t
    p).calMarks = 0 ∧ PortsBut p s t ∧ OnlyIn [.fresh, .ports] s t ∧ (∀ i, calPaused (quadGet (getPort s p).pairs
    i) = true → quadGet (getPort t p).pairs i = quadGet (getPort s p).pairs i) ∧ ((getPort s p).cal = none → ∀ i,
    calPaused (quadGet (getPort s p).pairs i) = false → ∃ n < 3, quadGet (getPort t p).pairs i = trimMove ((getPort
    s p).calRot % 4 + 1) n (calStep s.time.now (quadGet (getPort s p).pairs i)))) ∧
  (∀ (d : DieId) (trig : BitVec 8) s, (getDie s d).calRun = some trig → s.clk.refclkOk = true → linePowered s =
    true → ∃ t, exec (.dieFullRunEnd d) s = .next t ∧ getDie t d =
    { getDie s d with calRun := none, calTemp := (getDie s d).temp, calCount := (getDie s d).calCount + 1, calTime := s.time.now }
    ∧ Posted s t (globalSrc 74) 1 ∧ OnlyIn [.dies, .io] s t) ∧
  (∀ p (r : CalRun) (k j : Fin 5) s, (getPort s p).cal = some r → r.inLpi = false → calTask r = some k → calTask
    { r with done := r.done ||| BitVec.ofNat 8 (2 ^ k.val) } = some j → herdsRun s = true → ∃ t, exec (.calUnitDone
    p) s = .next t ∧ (getPort t p).cal.map (·.done) = some (r.done ||| BitVec.ofNat 8 (2 ^ k.val)) ∧ (∀ i, ∃ n,
    quadGet (getPort t p).pairs i = trimSet k.val n (calStep s.time.now (quadGet (getPort s p).pairs i))) ∧
    PortsBut p s t) ∧
  (∀ p (r : CalRun) s, (getPort s p).cal = some r → r.inLpi = true → (getPort s p).lpi.st = .quiet → 1 <
    r.unitsLeft → (calTask r).isSome = true → unitFits s (getPort s p) r = true → herdsRun s = true → ∃ t, exec
    (.calUnitDone p) s = .next t ∧ (getPort t p).cal = some
    { unitCounted (getPort s p) r with unitsLeft := r.unitsLeft - 1 } ∧ OnlyIn [.ports] s t)

/-- In-field self-test (R322, R458 to R461): BIST.RUN puts the herd under test and its ports into TEST; steps record
their findings; a passed test returns the herd to normal; a waiting record goes to a posted buffer. -/
def Obligations.BistRows : Prop :=
  (∀ c h s, testTurn s c = true → herdGate s h = none → testedHerd s = none → (portsOf h).all (fun p => (getPort s
    p).st == .disabled) = true → commitRuns s h = false → ∃ t, exec (.bistRun c h) s = .next t ∧ (getHerd t h).st =
    .selfTest ∧ (∀ p ∈ portsOf h, (getPort t p).st = .test) ∧ (getHerd t h).obs.st = .stopped ∧ (getHerd t
    h).obs.bank0 = Bank.reset) ∧
  (∀ h (o : BistOutcome) (reads : List (PortId × CtxKey × CtxRead)) (b : BistRun) s, (getHerd s h).st = .selfTest →
    (getHerd s h).test = some b → b.step = 3 → herdsRun s = true → ∃ t, exec (.bistStepDone h o reads) s = .next t
    ∧ (getHerd t h).test = some { b with step := 4, logicFail := o.logicFail } ∧ HerdsBut h s t ∧ OnlyIn [.herds] s
    t) ∧
  (∀ h (o : BistOutcome) (reads : List (PortId × CtxKey × CtxRead)) (b : BistRun) s, (getHerd s h).st = .selfTest →
    (getHerd s h).test = some b → b.step = 4 → b.memFails = [] → o.memFails = [⟨BitVec.ofNat 16 h.val, 7, 12, 3,
    true⟩] → s.nv.repairs.length < 4096 → Repair.mk (BitVec.ofNat 16 h.val) 7 12 3 ∉ s.nv.repairs → herdsRun s =
    true → ∃ t, exec (.bistStepDone h o reads) s = .next t ∧ (getHerd t h).test = some
    { b with step := 5, dieTemp := (getDie s (dieOfHerd h)).temp, memFails := [(7, 12, 3, 1)], repairs := b.repairs + 1 }
    ∧ t.nv.repairs = s.nv.repairs ++ [⟨BitVec.ofNat 16 h.val, 7, 12, 3⟩] ∧ Posted s t (globalSrc 73) 1) ∧
  (∀ h (o : BistOutcome) (reads : List (PortId × CtxKey × CtxRead)) (b : BistRun) s, (getHerd s h).st = .selfTest →
    (getHerd s h).test = some b → b.step = 7 → b.logicFail = 0 → b.memFails.any unrepaired = false → herdsRun s =
    true → ∃ t, exec (.bistStepDone h o reads) s = .next t ∧ (getHerd t h).st = .normal ∧ (getHerd t h).test = none
    ∧ Posted s t (globalSrc 72) 1) ∧
  (∀ h (o : BistOutcome) (reads : List (PortId × CtxKey × CtxRead)) (b : BistRun) s, (getHerd s h).st = .selfTest →
    (getHerd s h).test = some b → b.step = 7 → b.logicFail ≠ 0 → herdsRun s = true → ∃ t, exec (.bistStepDone h o
    reads) s = .next t ∧ (getHerd t h).st = .failed ∧ (∀ p ∈ portsOf h, (getPort t p).st = .safe) ∧ Posted s t
    (globalSrc 72) 1) ∧
  (∀ h s (fs : List Fld) r d rest, (getHerd s h).waitRec = some fs → activeRing s 3 (.herd h) = some r → (getRing s
    r).bufs = d :: rest → descOk true d = true → 320 ≤ d.length.toNat → s.clk.refclkOk = true → ∃ t, exec
    (.bistRecordDelivery h) s = .next t ∧ (getHerd t h).waitRec = none ∧ Bus.data d.addr fs ∈ t.io.bus)

/-- FLT commands and collector events (R328, R378 to R394): settings, acknowledgements, log reads, one record per
raised source with its FAULT_RECORD, the end of a cause, of a reaction and of a shadow window. -/
def Obligations.FaultRows : Prop :=
  (∀ c (source n : BitVec 16) (base pin : BitVec 8) (w : BitVec 32) s, Runs s c → (fltUnit source.toNat).isSome =
    true → base.toNat ≤ 3 → pin.toNat ≤ 1 → n ≠ 0 → w ≠ 0 → w.toNat ≤ 3600000000 → ∃ t, exec (.fltArm c source base
    pin n w) s = .next t ∧ tabGet none t.flt.cfg source.toNat = some
    { base := base.setWidth 2, pin := pin == 1, n := n, w := w } ∧ Answered s t c 0x0C01 stOk 0) ∧
  (∀ c (n : BitVec 16) (base pin : BitVec 8) (w : BitVec 32) s, Runs s c → base.toNat ≤ 3 → pin.toNat ≤ 1 → n ≠ 0 →
    w ≠ 0 → w.toNat ≤ 3600000000 → ∃ t, exec (.fltArm c 0xFFFF base pin n w) s = .next t ∧ (∀ k, (fltUnit k).isSome
    = true → tabGet none t.flt.cfg k = some { base := base.setWidth 2, pin := pin == 1, n := n, w := w }) ∧
    Answered s t c 0x0C01 stOk 0) ∧
  (∀ c (record : BitVec 32) (q : FltRec) s, Runs s c → (s.flt.volatile.filter unacked).find? (fun r => r.record ==
    record) = some q → causeHolds s q = false → s.flt.safe = [] → s.flt.fixedHold = false → ∃ t, exec (.fltAck c
    record 0) s = .next t ∧ (∀ r ∈ t.flt.volatile ++ t.flt.persist, r.record = record → r.acked = true) ∧
    t.flt.next = s.flt.next ∧ Answered s t c 0x0C02 stOk 1) ∧
  (∀ c (log : BitVec 8) (first count : BitVec 32) (bad : List Nat) (ecc : List (BitVec 32)) (b : Taken) s, Runs s c
    → log = 0 ∨ (log = 1 ∧ bad = []) → count ≠ 0 → (takeIn s (dataRingOf s c .hub 3) (32 * count.toNat)).got = some
    b → (getRing s b.ring).dmaBad = false → ∃ t, exec (.fltReadLog c log first count bad ecc) s = .next t ∧ t.flt =
    s.flt ∧ Answered s t c 0x0C03 stOk (BitVec.ofNat 64 (min count.toNat ((if log = 0 then s.flt.volatile else
    s.flt.persist).filter fun r => decide (first.toNat ≤ r.record.toNat)).length))) ∧
  (∀ c (first count : BitVec 32) (bad : List Nat) (ecc : List (BitVec 32)) r d rest s, Runs s c → bad ≠ [] → count
    ≠ 0 → dataRingOf s c .hub 3 = some r → ringBindKind s r ≠ 2 → (getRing s r).bufs = d :: rest → descOk true d =
    true → 32 * count.toNat ≤ d.length.toNat → (getRing s r).dmaBad = false → ∃ t, exec (.fltReadLog c 1 first
    count bad ecc) s = .next t ∧ Answered s t c 0x0C03 stOk (BitVec.ofNat 64 (min count.toNat ((taggedLog s.flt
    bad).filter fun r => decide (first.toNat ≤ r.record.toNat)).length)) ∧ (s.clk.refclkOk = true → hubIgnored s
    0xA33 = false → tabGet false s.flt.raised 0xA33 = false → tabGet false s.flt.network 0xA33 = false → t.flt.next
    = s.flt.next + 1)) ∧
  (∀ (source : BitVec 16) (detail : BitVec 32) s, raises s
    { source := source.toNat, detail := detail, injected := false, network := false } = true → s.clk.refclkOk =
    true → ∃ t, exec (.faultRaised [(source, detail)]) s = .next t ∧ t.flt.next = s.flt.next + 1 ∧ Posted s t
    (globalSrc 32) 1 ∧ (∃ r ∈ t.flt.volatile, r.record = s.flt.next ∧ r.source = source ∧ r.detail = detail ∧
    r.time = s.time.now ∧ r.cls.toNat = (fltDef source.toNat).cls) ∧ tabGet false t.flt.raised source.toNat =
    (fltDef source.toNat).holds ∧ OnlyIn [.ports, .herds, .io, .flt, .fw, .nv] s t) ∧
  (∀ (source : BitVec 16) s, raises s { source := source.toNat, detail := 0, injected := false, network := true } =
    true → s.clk.refclkOk = true → ∃ t, exec (.dualRailFault source) s = .next t ∧ t.flt.next = s.flt.next + 1 ∧
    Posted s t (globalSrc 32) 1 ∧ tabGet false t.flt.network source.toNat = true ∧ (∃ r ∈ t.flt.volatile, r.record
    = s.flt.next ∧ r.source = source ∧ r.cls = 4 ∧ r.network = true)) ∧
  (∀ (source : BitVec 16) s, s.clk.refclkOk = true → ∃ t, exec (.faultCauseEnded source) s = .next t ∧ tabGet false
    t.flt.raised source.toNat = false ∧ tabGet false t.flt.network source.toNat = false ∧ t.flt.volatile =
    s.flt.volatile ∧ OnlyIn [.flt] s t) ∧
  (∀ p (w : Shadow) s, s.flt.running = some w → w.scope = .port p → s.flt.deferred = [] → s.flt.safe.all (fun x =>
    !allAcked s x) = true → s.clk.refclkOk = true → s.flt.fixedHold = false → ∃ t, exec .reactionComplete s = .next
    t ∧ t.flt.running = none ∧ (getPort t p).st = .safe ∧ Posted s t (globalSrc 33) 1) ∧
  (∀ (w : Shadow) s, w ∈ s.flt.shadows → s.flt.shadows.all (fun v => v == w || decide (w.ends < v.ends)) = true →
    s.clk.refclkOk = true → ∃ t, exec .shadowWindowExpiry s = .next t ∧ t.flt.shadows = s.flt.shadows.erase w ∧
    t.flt.volatile = s.flt.volatile ∧ OnlyIn [.flt] s t) ∧
  (∀ s, s.flt.shadows = [] → ∃ t, exec .shadowWindowExpiry s = .next t ∧ t = s)

/-- Doorbell writes, ring dispatches and bad BAR0 accesses (R268, R270, R282 to R291): descriptors are handed over and
entries returned; a doorbell that hands over too much puts the ring into ERROR; one written while management is down
is latched; a write that covers two acts in ascending order, and a partly covered one is ignored; the head is
dispatched, or completed with the first check that fails; a bad access is answered and changes nothing. -/
def Obligations.DoorbellRows : Prop :=
  (∀ r (word : BitVec 32) (descs : List (List Byte)) s, busUp s = true → s.fw.mgmtDown = false → s.pwr.st = .run →
    (getRing s r).st = .active → ringType s r = 0 → fld word 0 16 < ringSize s r → ((getRing s r).host.toNat +
    ringSize s r - (getRing s r).dev.toNat) % ringSize s r + (fld word 0 16 + ringSize s r - (getRing s
    r).host.toNat) % ringSize s r < ringSize s r → ∃ t, exec (.doorbellWrite (BitVec.ofNat 18 (16 * r.val))
    (leBytes 4 word.toNat) [⟨r, descs⟩]) s = .next t ∧ (getRing t r).host = BitVec.ofNat 16 (fld word 0 16) ∧
    (getRing t r).cmds = (getRing s r).cmds ++ (entries ((fld word 0 16 + ringSize s r - (getRing s r).host.toNat)
    % ringSize s r) descs).map cmdDescOf ∧ OnlyIn [.heldLow, .io] s t) ∧
  (∀ r (word : BitVec 32) (descs : List (List Byte)) s, busUp s = true → s.fw.mgmtDown = false → s.pwr.st = .run →
    (getRing s r).st = .active → ringType s r = 3 ∨ ringType s r = 4 → ((getRing s r).bufs ++ (entries ((fld word 0
    16 + ringSize s r - (getRing s r).host.toNat) % ringSize s r) descs).map dataDescOf).all (descOk (isInRing s
    r)) = true → fld word 0 16 < ringSize s r → ((getRing s r).host.toNat + ringSize s r - (getRing s r).dev.toNat)
    % ringSize s r + (fld word 0 16 + ringSize s r - (getRing s r).host.toNat) % ringSize s r < ringSize s r → ∃ t,
    exec (.doorbellWrite (BitVec.ofNat 18 (16 * r.val)) (leBytes 4 word.toNat) [⟨r, descs⟩]) s = .next t ∧ (getRing
    t r).host = BitVec.ofNat 16 (fld word 0 16) ∧ (getRing t r).bufs = (getRing s r).bufs ++ (entries ((fld word 0
    16 + ringSize s r - (getRing s r).host.toNat) % ringSize s r) descs).map dataDescOf ∧ OnlyIn [.heldLow, .io] s
    t) ∧
  (∀ r (word : BitVec 32) (descs : List (List Byte)) s, busUp s = true → s.fw.mgmtDown = false → (getRing s r).st =
    .active → ringType s r = 0 ∨ ringType s r = 3 ∨ ringType s r = 4 → ringSize s r ≤ fld word 0 16 → ∃ t, exec
    (.doorbellWrite (BitVec.ofNat 18 (16 * r.val)) (leBytes 4 word.toNat) [⟨r, descs⟩]) s = .next t ∧ (getRing t
    r).st = .error ∧ (getRing t r).errCause = 4 ∧ Posted s t (globalSrc 112) 1) ∧
  (∀ r (word : BitVec 32) (descs : List (List Byte)) s, busUp s = true → s.fw.mgmtDown = false → (getRing s r).st =
    .active → ringType s r = 1 ∨ ringType s r = 2 → fld word 0 16 < ringSize s r → (fld word 0 16 + ringSize s r -
    (getRing s r).host.toNat) % ringSize s r ≤ unconsumed s r → ∃ t, exec (.doorbellWrite (BitVec.ofNat 18 (16 *
    r.val)) (leBytes 4 word.toNat) [⟨r, descs⟩]) s = .next t ∧ (getRing t r).host = BitVec.ofNat 16 (fld word 0 16)
    ∧ (getRing t r).st = .active) ∧
  (∀ r (word : BitVec 32) (descs : List (List Byte)) s, busUp s = true → s.fw.mgmtDown = true → s.pwr.st = .run → ∃
    t, exec (.doorbellWrite (BitVec.ofNat 18 (16 * r.val)) (leBytes 4 word.toNat) [⟨r, descs⟩]) s = .next t ∧
    tabGet (0, []) t.io.latched r.val = (word, (tabGet (0, []) s.io.latched r.val).2 ++ descs) ∧ t.io.rings =
    s.io.rings ∧ OnlyIn [.heldLow, .io] s t) ∧
  (∀ (r q : RingId) (v w : BitVec 32) (work : List Handed) s, busUp s = true → q.val = r.val + 1 → ∃ t, exec
    (.doorbellWrite (BitVec.ofNat 18 (16 * r.val)) (leBytes 4 v.toNat ++ List.replicate 12 0 ++ leBytes 4 w.toNat)
    work) s = .next t ∧ t = doorbellOne work (doorbellOne work { touch s with heldLow := none } (r, v)) (q, w)) ∧
  (∀ (addr : BitVec 18) (bytes : List Byte) (work : List Handed) s, busUp s = true → bytes.length < 4 → ∃ t, exec
    (.doorbellWrite addr bytes work) s = .next t ∧ t = { touch s with heldLow := none }) ∧
  (∀ r (d : CmdDesc) (rest : List CmdDesc) (g : Target) s, canWrite s = true → (getRing s r).st = .active →
    ringType s r = 0 → (getRing s r).running = none → (getRing s r).cmds = d :: rest → (localRing s r && (blocksOff
    s || enteringLow s)) = false → (getRing (headReady s r) r).entry = true → engineCheck (headReady s r) r
    (headCmd r (getRing s r).dev d) d = none → targetOf d.target = some g → targetHolds (headReady s r) g = false →
    rotaTurn (headReady s r) r g = true → modeBad (headReady s r) d g = none → ∃ t, exec (.ringDispatch r) s =
    .next t ∧ (getRing t r).running = some (headCmd r (getRing s r).dev d) ∧ (getRing t r).cmds = rest ∧ (getRing t
    r).dev = nextIndex s r (getRing s r).dev ∧ (∀ h, targetHerd g = some h → headCmd r (getRing s r).dev d ∈
    (getHerd t h).queue) ∧ (targetHerd g = none → headCmd r (getRing s r).dev d ∈ t.io.hubQueue) ∧ OnlyIn [.io,
    .herds] s t) ∧
  (∀ r (d : CmdDesc) (rest : List CmdDesc) (e : BitVec 8 × BitVec 64) s, canWrite s = true → (getRing s r).st =
    .active → ringType s r = 0 → (getRing s r).running = none → (getRing s r).cmds = d :: rest → (localRing s r &&
    (blocksOff s || enteringLow s)) = false → (getRing (headReady s r) r).entry = true → engineCheck (headReady s
    r) r (headCmd r (getRing s r).dev d) d = some e → ∃ t, exec (.ringDispatch r) s = .next t ∧ (getRing t r).cmds
    = rest ∧ Answered s t (headCmd r (getRing s r).dev d) d.opcode.toNat e.1 e.2) ∧
  (∀ (off : BitVec 26) (write : Bool) s, busUp s = true → ∃ t, exec (.bar0BadAccess off write) s = .next t ∧
    t.io.bus = .unsupported write :: (touch s).io.bus ∧ t.io.rings = s.io.rings ∧ OnlyIn [.io, .pwr] s t) ∧
  (∀ r s, (getRing s r).running ≠ none → ∃ t, exec (.ringDispatch r) s = .next t ∧ t = s)

/-- Ring states (R273 to R281, R295, R348): enabling, disabling by type, the end of a drain, DMA faults on rings and
on data buffers. -/
def Obligations.RingStateRows : Prop :=
  (∀ r s, busUp s = true → (getRing s r).st = .disabled → enableCause s r = none → ∃ t, exec (.ringEnable r) s =
    .next t ∧ (getRing t r).st = .active ∧ (getRing t r).host = 0 ∧ ((getRing s r).backlog = [] → (getRing t r).dev
    = 0 ∧ (getRing t r).armed = true ∧ (getRing t r).phase = true)) ∧
  (∀ r (n : Nat) s, busUp s = true → (getRing s r).st = .disabled → enableCause s r = some n → ∃ t, exec
    (.ringEnable r) s = .next t ∧ (getRing t r).st = .disabled ∧ (getRing t r).errCause = BitVec.ofNat 8 n ∧ Posted
    s t (globalSrc 112) 1) ∧
  (∀ r s, busUp s = true → (getRing s r).st = .active → ringType s r = 0 → ∃ t, exec (.ringDisable r) s = .next t ∧
    (getRing t r).st = .draining ∧ (getRing t r).cmds = [] ∧ (getRing t r).running = (getRing s r).running) ∧
  (∀ r s, busUp s = true → (getRing s r).st = .active → ringType s r = 1 → ∃ t, exec (.ringDisable r) s = .next t ∧
    (getRing t r).st = .draining ∧ (getRing t r).backlog = (getRing s r).backlog) ∧
  (∀ r s, busUp s = true → (getRing s r).st = .active → ringType s r = 3 ∨ ringType s r = 4 → ∃ t, exec
    (.ringDisable r) s = .next t ∧ (getRing t r).st = .draining ∧ (getRing t r).bufs = [] ∧ (getRing t r).taken =
    (getRing s r).taken) ∧
  (∀ r s, busUp s = true → (getRing s r).st = .error ∨ ((getRing s r).st = .active ∧ ringType s r = 2) → ∃ t, exec
    (.ringDisable r) s = .next t ∧ (getRing t r).st = .disabled ∧ (getRing t r).cmds = [] ∧ (getRing t r).bufs =
    []) ∧
  (∀ r s, (getRing s r).st = .draining → drained s r = true → s.clk.refclkOk = true → ∃ t, exec (.ringDrainDone r)
    s = .next t ∧ (getRing t r).st = .disabled ∧ (getRing t r).dev = (getRing s r).dev ∧ OnlyIn [.io] s t) ∧
  (∀ r s, (getRing s r).st = .active → s.clk.refclkOk = true → ∃ t, exec (.ringDmaFault r) s = .next t ∧ (getRing t
    r).st = .error ∧ (getRing t r).errCause = 6 ∧ (getRing t r).cmds = [] ∧ Posted s t (globalSrc 112) 1) ∧
  (∀ r (k : Taken) (l : List Taken) s, (getRing s r).taken = k :: l → k.ring = r → s.io.snaps.find? (fun n => n.buf
    == k) = none → s.clk.refclkOk = true → ∃ t, exec (.dataBufferDmaFault r) s = .next t ∧ (getRing t r).taken = l
    ∧ Recorded t (ringCq s r) (bufRecord s 2 k stTimeout 0) ∧ t.fw = s.fw)

/-- Vectors and the function (R269, R302, R304, R346, R515): HOLDOFF ends; masks change; a Function Level Reset or a
hot reset disables every ring and resets its registers (the MSI-X and Bus Master state after it is the model's choice,
log 12); Bus Master Enable follows the host. -/
def Obligations.FunctionRows : Prop :=
  (∀ (v : Fin 2048) s, (getVec s v.val).holdoff = true → (getVec s v.val).rings ≠ [] → s.io.msixEnable = true →
    (getVec s v.val).masked = false → s.io.fnMask = false → canWrite s = true → s.clk.refclkOk = true → ∃ t, exec
    (.vectorHoldoffExpiry v) s = .next t ∧ t.io.bus = .msix v.val (getVec s v.val).addr (getVec s v.val).data ::
    s.io.bus ∧ (getVec t v.val).rings = [] ∧ (getVec t v.val).holdoff = false ∧ OnlyIn [.io] s t) ∧
  (∀ (v : Fin 2048) s, (getVec s v.val).holdoff = true → (getVec s v.val).rings ≠ [] → s.io.msixEnable = true →
    (getVec s v.val).masked = true → s.clk.refclkOk = true → ∃ t, exec (.vectorHoldoffExpiry v) s = .next t ∧
    t.io.bus = s.io.bus ∧ (getVec t v.val).pending = true ∧ (getVec t v.val).rings = [] ∧ OnlyIn [.io] s t) ∧
  (∀ (v : Fin 2048) s, busUp s = true → s.pwr.st = .run → (getVec s v.val).pending = true → s.io.msixEnable = true
    → s.io.fnMask = false → canWrite s = true → ∃ t, exec (.msixMaskChange (.vectorMask v false)) s = .next t ∧
    t.io.bus = .msix v.val (getVec s v.val).addr (getVec s v.val).data :: s.io.bus ∧ (getVec t v.val).masked =
    false ∧ (getVec t v.val).pending = false ∧ OnlyIn [.io] s t) ∧
  (∀ (v : Fin 2048) s, busUp s = true → s.pwr.st = .run → ∃ t, exec (.msixMaskChange (.vectorMask v true)) s =
    .next t ∧ t.io.bus = s.io.bus ∧ (getVec t v.val).masked = true ∧ OnlyIn [.io] s t) ∧
  (∀ (b : Bool) s, busUp s = true → ∃ t, exec (.msixMaskChange (.functionMask b)) s = .next t ∧ t.io.fnMask = b ∧
    t.io.msixEnable = s.io.msixEnable) ∧
  (∀ (b : Bool) s, busUp s = true → ∃ t, exec (.msixMaskChange (.enable b)) s = .next t ∧ t.io.msixEnable = b ∧
    t.io.fnMask = s.io.fnMask) ∧
  (∀ s, busUp s = true → ∃ t, exec .functionLevelReset s = .next t ∧ (∀ r, getRing t r = Ring.reset) ∧ (∀ off,
    isRingReg off = true → regVal t off = regReset off) ∧ t.ports = s.ports ∧ t.herds = s.herds ∧ t.io.gens =
    s.io.gens) ∧
  (∀ s, busUp s = true → ∃ t, exec .pcieHotReset s = .next t ∧ (∀ r, getRing t r = Ring.reset) ∧ (∀ off, isRingReg
    off = true → regVal t off = regReset off) ∧ t.ports = s.ports ∧ t.herds = s.herds ∧ t.io.gens = s.io.gens) ∧
  (∀ (b : Bool) s, busUp s = true → ∃ t, exec (.busMasterEnableChange b) s = .next t ∧ t.io.busMaster = b ∧ t.ports
    = s.ports ∧ t.regs = s.regs)

/-- Events and die-to-die links (R20, R21, R31, R32, R298, R299, R347, R544): delivery of the oldest record, the end
of a rate-limit interval, loss and return of a link. -/
def Obligations.EventRows : Prop :=
  (∀ (e : Event) (l : List Event) r s, canWrite s = true → s.io.hubBuf.recs = e :: l → eventRing s e.source = some
    r → 0 < freeEntries s r → e.names = none → s.clk.refclkOk = true → ∃ t, exec (.eventDelivery none) s = .next t
    ∧ Bus.event r (getRing s r).dev (getRing s r).phase (getRing s r).overrun (entryAddr s r (getRing s r).dev) e ∈
    t.io.bus ∧ (getRing t r).overrun = false ∧ t.io.gens = s.io.gens) ∧
  (∀ h (e : Event) (l : List Event) r s, canWrite s = true → hubListens s h = true → (getHerdBuf s h).recs = e :: l
    → eventRing s e.source = some r → 0 < freeEntries s r → e.names = none → s.clk.refclkOk = true → ∃ t, exec
    (.eventDelivery (some h)) s = .next t ∧ Bus.event r (getRing s r).dev (getRing s r).phase (getRing s r).overrun
    (entryAddr s r (getRing s r).dev) e ∈ t.io.bus ∧ (getRing t r).overrun = false ∧ t.io.gens = s.io.gens ∧
    t.io.hubBuf = s.io.hubBuf) ∧
  (∀ (source : Fin 8448) (kind : Fin 4) (e : Event) s, (getInterval s (4 * source.val + kind.val)).open_ = true →
    (getInterval s (4 * source.val + kind.val)).held = some e → 8192 ≤ e.source → (eventRing s e.source).isSome =
    true → s.clk.refclkOk = true → ∃ t, exec (.eventCoalesceExpiry source kind) s = .next t ∧ getInterval t (4 *
    source.val + kind.val) = { open_ := true, held := none, count := 0 } ∧ t.io.hubBuf = bufPush s.io.hubBuf 1024 e
    ∧ OnlyIn [.io] s t) ∧
  (∀ (source : Fin 8448) (kind : Fin 4) s, (getInterval s (4 * source.val + kind.val)).held = none → s.clk.refclkOk
    = true → ∃ t, exec (.eventCoalesceExpiry source kind) s = .next t ∧ (getInterval t (4 * source.val +
    kind.val)).open_ = false ∧ t.io.hubBuf = s.io.hubBuf ∧ OnlyIn [.io] s t) ∧
  (∀ (d : DieId) s, (getDie s d).d2dUp = true → s.clk.refclkOk = true → linePowered s = true → ∃ t, exec
    (.d2dTrainingLost d) s = .next t ∧ (getDie t d).d2dUp = false ∧ tabGet false t.io.stale d.val = true ∧ Posted s
    t (globalSrc 114) 1 ∧ (∀ e, e ≠ d → getDie t e = getDie s e)) ∧
  (∀ (d : DieId) s, (getDie s d).d2dUp = false → (getPll s (pllUcie d)).locked = true → s.clk.refclkOk = true →
    linePowered s = true → ∃ t, exec (.d2dRetrainAttempt d true) s = .next t ∧ getDie t d =
    { getDie s d with d2dUp := true } ∧ tabGet false t.io.stale d.val = false ∧ Posted s t (globalSrc 115) 1 ∧ (∀
    e, e ≠ d → getDie t e = getDie s e)) ∧
  (∀ (d : DieId) s, ∃ t, exec (.d2dRetrainAttempt d false) s = .next t ∧ t = s)

/-- OBS.SELECT, OBS.LOAD_BANK and OBS.SWAP (R247 to R259, R320, R321), each with the conditions under which it has its
effect. -/
def Obligations.ObsFilterCommands : Prop :=
  (∀ c h (source decim : BitVec 8) s, targetOf c.target = some (.herd h) → Runs s c → myTurn s c = true → obsGate s
    h = none → source.toNat ≤ 63 → 2 ≤ decim.toNat → decim.toNat ≤ 8 → (getPort s (sourcePort h source.toNat)).st ≠
    .safe → (selBank (getObs s h)).taps ≤ maxTaps decim.toNat → (getObs s h).st ≠ .fading → ∃ t, exec (.obsSelect c
    h source decim) s = .next t ∧ (getObs t h).source = source.toNat ∧ (getObs t h).decim = decim.toNat ∧ HerdsBut
    h s t ∧ Answered s t c 0x0501 stOk 0) ∧
  (∀ c h (bank : BitVec 8) (taps : BitVec 16) (data : List Byte) (b : Taken) s, targetOf c.target = some (.herd h)
    → Runs s c → myTurn s c = true → herdGate s h = none → bank.toNat ≤ 1 → taps ≠ 0 → taps.toNat ≤ 384 → (getObs s
    h).st ≠ .fading → (getObs s h).sel ≠ decide (bank.toNat = 1) → (takeOut s (dataRingOf s c (.herd h) 4)).got =
    some b → badWord taps.toNat (b.desc.length.toNat / 4) (leWords data) = none → ∃ t, exec (.obsLoadBank c h bank
    taps data) s = .next t ∧ (if bank = 1 then (getObs t h).bank1 else (getObs t h).bank0) =
    { taps := taps.toNat, coeffs := ((leWords data).take taps.toNat).map (·.setWidth 18) } ∧ (getObs t h).sel =
    (getObs s h).sel ∧ (getObs t h).st = (getObs s h).st ∧ HerdsBut h s t ∧ Answered s t c 0x0502 stOk 0) ∧
  (∀ c h (fadeLen : BitVec 16) s, targetOf c.target = some (.herd h) → Runs s c → myTurn s c = true → obsGate s h =
    none → 16 ≤ fadeLen.toNat → fadeLen.toNat ≤ 1024 → (getObs s h).st = .running → (otherBank (getObs s h)).taps ≤
    maxTaps (getObs s h).decim → ∃ t, exec (.obsSwap c h fadeLen) s = .next t ∧ (getObs t h).st = .fading ∧ (getObs
    t h).fadeLen = fadeLen.toNat ∧ (getObs t h).sel = !(getObs s h).sel ∧ HerdsBut h s t ∧ Answered s t c 0x0503
    stOk (BitVec.ofNat 64 (256 * bit (!(getObs s h).sel)))) ∧
  (∀ c h s, Runs s c → myTurn s c = true → obsGate s h = none → (getObs s h).st = .running → (otherBank (getObs s
    h)).taps ≤ maxTaps (getObs s h).decim → ∃ t, exec (.obsSwap c h 0) s = .next t ∧ (getObs t h).st = .settling ∧
    (getObs t h).settle = (otherBank (getObs s h)).taps + groupDelay (getObs s h).decim ∧ (getObs t h).sel =
    !(getObs s h).sel ∧ Answered s t c 0x0503 stOk (BitVec.ofNat 64 (256 * bit (!(getObs s h).sel)))) ∧
  (∀ c h (fadeLen : BitVec 16) s, Runs s c → myTurn s c = true → obsGate s h = none → 16 ≤ fadeLen.toNat →
    fadeLen.toNat ≤ 1024 → (getObs s h).st = .settling → (otherBank (getObs s h)).taps ≤ maxTaps (getObs s h).decim
    → ∃ t, exec (.obsSwap c h fadeLen) s = .next t ∧ (getObs t h).st = .settling ∧ (getObs t h).sel = !(getObs s
    h).sel ∧ Answered s t c 0x0503 stOk (BitVec.ofNat 64 (256 * bit (!(getObs s h).sel) + 1))) ∧
  (∀ c h (fadeLen : BitVec 16) s, Runs s c → myTurn s c = true → obsGate s h = none → fadeLen = 0 ∨ (16 ≤
    fadeLen.toNat ∧ fadeLen.toNat ≤ 1024) → (getObs s h).st = .stopped → ∃ t, exec (.obsSwap c h fadeLen) s = .next
    t ∧ getObs t h = { getObs s h with sel := !(getObs s h).sel } ∧ Answered s t c 0x0503 stOk (BitVec.ofNat 64
    (256 * bit (!(getObs s h).sel)))) ∧
  (∀ c h (fadeLen : BitVec 16) s, Runs s c → myTurn s c = true → obsGate s h = none → fadeLen = 0 ∨ (16 ≤
    fadeLen.toNat ∧ fadeLen.toNat ≤ 1024) → (getObs s h).st = .fading → ∃ t, exec (.obsSwap c h fadeLen) s = .next
    t ∧ getObs t h = getObs s h ∧ Answered s t c 0x0503 stFadeBusy (BitVec.ofNat 64 (fadeLeft (getHerd s h))))

/-- OBS.START and OBS.STOP (R260, R261, R263, R320, R321). -/
def Obligations.ObsCaptureCommands : Prop :=
  (∀ c h (count : BitVec 32) r s, targetOf c.target = some (.herd h) → Runs s c → myTurn s c = true → obsGate s h =
    none → count ≠ 0 → count.toNat ≤ 131072 → (selBank (getObs s h)).taps ≤ maxTaps (getObs s h).decim → dataRingOf
    s c (.herd h) 3 = some r → (getObs s h).st = .stopped → (getObs s h).final = none → ∃ t, exec (.obsStart c h 0
    count 0) s = .next t ∧ (getObs t h).st = .settling ∧ (getObs t h).settle = (selBank (getObs s h)).taps +
    groupDelay (getObs s h).decim ∧ (getObs t h).count = count.toNat ∧ (getObs t h).seq = 0 ∧ HerdsBut h s t ∧
    Answered s t c 0x0504 stOk 0) ∧
  (∀ c h (count : BitVec 32) (startTime : BitVec 64) r s, targetOf c.target = some (.herd h) → Runs s c → myTurn s
    c = true → obsGate s h = none → startTime ≠ 0 → s.time.now.toNat < startTime.toNat → (selBank (getObs s
    h)).taps ≤ maxTaps (getObs s h).decim → adcRate (pllRuns (getHerd s h)) ≤ 200000 * 2 ^ (getObs s h).decim →
    dataRingOf s c (.herd h) 3 = some r → (getObs s h).st = .stopped → ∃ t, exec (.obsStart c h 1 count startTime)
    s = .next t ∧ (getObs t h).st = .stopped ∧ (getObs t h).sched = putSched startTime 1 count (BitVec.ofNat 16
    r.val) (getObs s h).sched ∧ HerdsBut h s t ∧ Answered s t c 0x0504 stOk 0) ∧
  (∀ c h (r : RingId) (d : DataDesc) (rest : List DataDesc) s, Runs s c → myTurn s c = true → herdGate s h = none →
    sweepsHold s h = false → (getObs s h).st = .settling ∨ (getObs s h).st = .running → (getObs s h).stoppers = []
    → captureRing (getObs s h) = some r → hubListens s h = true → (getRing s r).st = .active → ringBindKind s r ≠ 2
    → (getObs s h).buf = none → (getObs s h).held.length ≤ (d.length.toNat - 64) / 2 → (getRing s r).bufs = d ::
    rest → (d :: rest).all (descOk true) = true → 4096 ≤ d.length.toNat → ∃ t, exec (.obsStop c h) s = .next t ∧
    (getObs t h).st = .stopped ∧ (getObs t h).seq = (getObs s h).seq + 1 ∧ (getRing t r).bufs = rest ∧ Posted s t
    (portSrc (sourcePort h (getObs s h).source) 13) 1 ∧ Answered s t c 0x0505 stOk 0) ∧
  (∀ c h s, Runs s c → myTurn s c = true → herdGate s h = none → sweepsHold s h = false → (getObs s h).st =
    .settling ∨ (getObs s h).st = .running → (getObs s h).stoppers = [] → captureLives s (getObs s h) = false →
    (getObs s h).buf = none → ∃ t, exec (.obsStop c h) s = .next t ∧ (getObs t h).st = .stopped ∧ Posted s t
    (portSrc (sourcePort h (getObs s h).source) 13) 1 ∧ Answered s t c 0x0505 stOk 0) ∧
  (∀ c h s, myTurn s c = true → herdGate s h = none → sweepsHold s h = false → (getObs s h).st = .running →
    captureLives s (getObs s h) = true → hubListens s h = false → ∃ t, exec (.obsStop c h) s = .next t ∧ (getObs t
    h).st = .stopped ∧ (getObs t h).final = some
    { cause := 1, source := (getObs s h).source, decim := (getObs s h).decim, mode := pllRuns (getHerd s h) } ∧
    (getObs t h).held = (getObs s h).held ∧ (getObs t h).stoppers = (getObs s h).stoppers ++ [c] ∧ HerdsBut h s t) ∧
  (∀ c h s, Runs s c → myTurn s c = true → herdGate s h = none → (getObs s h).st = .stopped → (getObs s h).final =
    none → ∃ t, exec (.obsStop c h) s = .next t ∧ getObs t h = getObs s h ∧ Answered s t c 0x0505 stOk 0) ∧
  (∀ c h s, myTurn s c = true → herdGate s h = none → sweepsHold s h = false → (getObs s h).st = .fading → ∃ t,
    exec (.obsStop c h) s = .next t ∧ getObs t h = { getObs s h with waits := (getObs s h).waits ++ [.stop c] } ∧
    OnlyIn [.herds] s t)

/-- Events of the observation path (R256, R258, R261 to R264). -/
def Obligations.ObsEvents : Prop :=
  (∀ h (tm : BitVec 64) (mode : BitVec 8) (count : BitVec 32) (ring : BitVec 16) s, (getObs s h).sched = [(tm,
    mode, count, ring)] → tm.toNat ≤ s.time.now.toNat → (getObs s h).st = .stopped → obsGate s h = none → (selBank
    (getObs s h)).taps ≤ maxTaps (getObs s h).decim → (getObs s h).final = none → herdsRun s = true → ∃ t, exec
    (.obsScheduledStart h) s = .next t ∧ (getObs t h).st = .settling ∧ (getObs t h).sched = [] ∧ (getObs t h).ring
    = ring ∧ HerdsBut h s t ∧ OnlyIn [.herds] s t) ∧
  (∀ h (v : BitVec 8) (adc : List (List (BitVec 8))) s, herdsRun s = true → (getObs s h).st = .settling → (getObs s
    h).settle = 1 → (getObs s h).source < 32 → adc.getD ((getObs s h).source % 4) [] = [v] → (chainPush (chainOf
    (getObs s h)) (256 * v.toInt)).2.isSome = true → ∃ t, exec (.obsSettlingDone h adc) s = .next t ∧ (getObs t
    h).st = .running ∧ (getObs t h).suppressed = (getObs s h).suppressed + 1 ∧ HerdsBut h s t) ∧
  (∀ h (v : BitVec 8) (adc : List (List (BitVec 8))) s, herdsRun s = true → (getObs s h).st = .fading → (getObs s
    h).fadeLen = (getObs s h).fadeGone + 1 → (getObs s h).source < 32 → adc.getD ((getObs s h).source % 4) [] = [v]
    → (chainPush (chainOf (getObs s h)) (256 * v.toInt)).2.isSome = true → (getObs s h).waits = [] → (getObs s
    h).sched = [] → ∃ t, exec (.obsFadeDone h adc) s = .next t ∧ (getObs t h).st = .running ∧ (getObs t h).sel =
    (getObs s h).sel ∧ HerdsBut h s t) ∧
  (∀ h (b : Taken) s, (getObs s h).st = .running → (getObs s h).final = none → (getObs s h).mode = 1 → (getObs s
    h).buf = some b → 64 < b.desc.length.toNat → (getObs s h).held.length = sampleRoom b → 0 < sampleRoom b →
    hubListens s h = true → (getRing s b.ring).taken.contains b = true → s.clk.refclkOk = true → ∃ t, exec
    (.obsBufferComplete h []) s = .next t ∧ (getObs t h).seq = (getObs s h).seq + 1 ∧ (getObs t h).st = .running ∧
    (getObs t h).held = [] ∧ Bus.data b.desc.addr (captureHeader s h (getObs s h).held 0 none ++ sampleFields
    (getObs s h).held) ∈ t.io.bus ∧ Posted s t (portSrc (sourcePort h (((getObs s h).held.head?).map (·.source)
    |>.getD 0)) 13) 1 ∧ HerdsBut h s t) ∧
  (∀ h s, obsHeld (getHerd s h) = true → (getObs s h).mode = 0 → (getObs s h).count ≤ (getObs s h).sent → (getObs s
    h).waits = [] → (getObs s h).stoppers = [] → herdsRun s = true → ∃ t, exec (.obsCountDone h []) s = .next t ∧
    (getObs t h).st = .stopped ∧ HerdsBut h s t)

/-- Register accesses (R11, R14, R355, R356, R357, R362, R438): a write in range, one out of range; the frequency
counter; blocks that cannot be reached. -/
def Obligations.RegisterAccess : Prop :=
  (∀ (off : BitVec 26) (val : BitVec 32) s, busUp s = true → s.pwr.st = .run → off.toNat % 4 = 0 → refusedCause s
    off.toNat = none → isPairLow off.toNat = false → isPairLow (off.toNat - 4) = false → off ≠ 0x208 → off ≠ 0x308
    → regMask off.toNat ≠ 0 → (∀ r, off.toNat ≠ ringOff r 0x10) → regOk off.toNat val = true → writable s off.toNat
    = true → ∃ t, exec (.registerWrite off val) s = .next t ∧ regVal t off.toNat = val &&& regMask off.toNat ∧ (∀
    o, o ≠ off.toNat → regVal t o = regVal s o) ∧ t.heldLow = none ∧ OnlyIn [.regs, .heldLow, .io] s t ∧ ((∀ v,
    regLoc off.toNat ≠ .vec v) → t.io = s.io)) ∧
  (∀ (off : BitVec 26) (val : BitVec 32) s, busUp s = true → s.pwr.st = .run → off.toNat % 4 = 0 → refusedCause s
    off.toNat = none → isPairLow off.toNat = false → isPairLow (off.toNat - 4) = false → off ≠ 0x208 → off ≠ 0x308
    → regMask off.toNat ≠ 0 → (∀ r, off.toNat ≠ ringOff r 0x10) → regOk off.toNat val = false → ∃ t, exec
    (.registerWrite off val) s = .next t ∧ t.regs = s.regs ∧ (s.access.err = false → t.access =
    { s.access with err := true, cause := 4, addr := off, write := true })) ∧
  (∀ (val : BitVec 32) s, busUp s = true → s.pwr.st = .run → regOk 0x208 val = true → val.getLsbD 15 = true → ∃ t,
    exec (.fmcStart val) s = .next t ∧ t.clk.fmcRunning = true ∧ t.clk.fmcDone = false ∧ regVal t 0x208 = val &&&
    regMask 0x208) ∧
  (∀ (count : BitVec 24) s, s.clk.fmcRunning = true → s.clk.refclkOk = true → ∃ t, exec (.fmcWindowEnd count) s =
    .next t ∧ t.clk = { s.clk with fmcRunning := false, fmcDone := true, fmcCount := fmcResult s count } ∧
    (fmcStopped s = true → t.clk.fmcCount = 0) ∧ OnlyIn [.clk] s t) ∧
  (∀ (off : BitVec 26) (n : Nat) s, busUp s = true → s.pwr.st = .run → refusedCause s off.toNat = some n →
    s.access.err = false → ∃ t, exec (.blockAccessRefused off false) s = .next t ∧ t.access =
    { s.access with err := true, cause := BitVec.ofNat 3 n, addr := off, write := false } ∧ Bus.readData 0x0FF00FF0
    ∈ t.io.bus ∧ OnlyIn [.access, .io] s t) ∧
  (∀ (off : BitVec 26) (n : Nat) s, busUp s = true → s.pwr.st = .run → refusedCause s off.toNat = some n →
    s.access.err = true → ∃ t, exec (.blockAccessRefused off true) s = .next t ∧ t.access =
    { s.access with overflow := true } ∧ OnlyIn [.access, .io] s t) ∧
  (∀ (off : BitVec 26) (b : Bool) s, busUp s = true → s.pwr.st = .run → s.access.err = false → ∃ t, exec
    (.gateAccessTimeout off b) s = .next t ∧ t.access =
    { s.access with err := true, cause := 1, addr := off, write := b } ∧ OnlyIn [.access, .io] s t)

/-- The mirror, LED frames, injection (R341 to R346, R365, R368, R398): enabling writes every block once; a block is
written in three ordered steps; a failed write clears ENABLE; an LED frame shows every port; an injected fault is
recorded as injected. -/
def Obligations.MirrorRows : Prop :=
  (∀ (val : BitVec 32) s, busUp s = true → s.pwr.st = .run → canWrite s = true → mirrorEnabled s = false →
    val.getLsbD 0 = true → ∃ t, exec (.mirrorEnable val) s = .next t ∧ mirrorEnabled t = true ∧ (∀ o, tabGet 0
    t.io.seqs (blockNo o) = tabGet 0 s.io.seqs (blockNo o) + 2)) ∧
  (∀ (o : MirrorObj) s, mirrorOn s = true → ∃ t, exec (.mirrorMeasuredUpdate o) s = .next t ∧ t.io.bus =
    .mirrorEven (reg64 s 0x300 + BitVec.ofNat 64 (blockOff o)) (tabGet 0 s.io.seqs (blockNo o) + 2) :: .mirrorBody
    (reg64 s 0x300 + BitVec.ofNat 64 (blockOff o)) (blockFields s o) :: .mirrorOdd (reg64 s 0x300 + BitVec.ofNat 64
    (blockOff o)) (tabGet 0 s.io.seqs (blockNo o) + 1) :: s.io.bus ∧ tabGet 0 t.io.seqs (blockNo o) = tabGet 0
    s.io.seqs (blockNo o) + 2 ∧ OnlyIn [.io] s t) ∧
  (∀ (a : BitVec 64) s, mirrorEnabled s = true → s.clk.refclkOk = true → ∃ t, exec (.mirrorWriteError a) s = .next
    t ∧ t.io.dmaErr = true ∧ mirrorEnabled t = false ∧ Posted s t (globalSrc 116) 1) ∧
  (∀ s, (regVal s 0x704).getLsbD 0 = true → s.pwr.padsHeld = false → hubRuns s = true → ∃ t, exec .ledFrame s =
    .next t ∧ t.io.bus = .led (allPorts.flatMap fun p => [shownPort s p == 8, ledBit s p (fld (regVal s 0x704) 16
    2)]) :: s.io.bus ∧ (∀ p, (getPort t p).active = false) ∧ OnlyIn [.ports, .io] s t) ∧
  (∀ (source : BitVec 16) s, busUp s = true → s.pwr.st = .run → factoryOn s = true → (fltDef source.toNat).fixed =
    false → raises s { source := source.toNat, detail := 0, injected := true, network := false } = true → ∃ t, exec
    (.fltInjectEvent source) s = .next t ∧ t.flt.next = s.flt.next + 1 ∧ (∃ r ∈ t.flt.volatile, r.record =
    s.flt.next ∧ r.source = source ∧ r.injected = true) ∧ tabGet false t.flt.raised source.toNat = false ∧ Posted s
    t (globalSrc 32) 1) ∧
  (∀ (source : BitVec 16) s, busUp s = true → s.pwr.st = .run → factoryOn s = true → (fltDef source.toNat).fixed =
    false → raises s { source := source.toNat, detail := 0, injected := true, network := true } = true → ∃ t, exec
    (.fltInjectPair source) s = .next t ∧ t.flt.next = s.flt.next + 1 ∧ (∃ r ∈ t.flt.volatile, r.record =
    s.flt.next ∧ r.source = source ∧ r.injected = true ∧ r.cls = 4) ∧ tabGet false t.flt.network source.toNat =
    false ∧ Posted s t (globalSrc 32) 1)

/-- Staging and commits (R26, R314, R317, R333 to R339): what is staged, and what a port commit, a herd commit at P0,
one that needs a faster level and one with nothing staged do. -/
def Obligations.StagingAndCommits : Prop :=
  (∀ c p (count : BitVec 8) (entries : List (BitVec 16 × BitVec 32)) s, Runs s c → myTurn s c = true → portGate s p
    = none → count ≠ 0 → count.toNat ≤ 5 → badEntry count.toNat entries = none → ∃ t, exec (.portConfig c p count
    entries) s = .next t ∧ getPort t p = ((List.range count.toNat).map fun i => entries.getD i (0, 0)).foldl
    stageOne (getPort s p) ∧ (getPort t p).live = (getPort s p).live ∧ PortsBut p s t ∧ Answered s t c 0x0101 stOk
    0) ∧
  (∀ c p (id : BitVec 16) (val : BitVec 32) s, Runs s c → myTurn s c = true → portGate s p = none →
    paramIds.contains id.toNat = true → ∃ t, exec (.portConfig c p 1 [(id, val)]) s = .next t ∧ paramGet (getPort t
    p).shadow id.toNat = val ∧ (getPort t p).live = (getPort s p).live ∧ id.toNat ∈ (getPort t p).staged ∧ (∀ k, k
    ≠ id.toNat → paramGet (getPort t p).shadow k = paramGet (getPort s p).shadow k) ∧ PortsBut p s t ∧ Answered s t
    c 0x0101 stOk 0) ∧
  (∀ c h (modeSet : BitVec 8) s, targetOf c.target = some (.herd h) → Runs s c → myTurn s c = true → herdGate s h =
    none → modeSet ≠ 0 → modeSet.toNat ≤ 0x1F → ∃ t, exec (.herdMode c h modeSet) s = .next t ∧ (getHerd t
    h).shModeSet = modeSet.setWidth 5 ∧ (getHerd t h).modeSet = (getHerd s h).modeSet ∧ (getHerd t h).staged = true
    ∧ HerdsBut h s t ∧ Answered s t c 0x0201 stOk 0) ∧
  (∀ c h (policy : BitVec 8) s, targetOf c.target = some (.herd h) → Runs s c → myTurn s c = true → herdGate s h =
    none → policy.toNat ≤ 1 → ∃ t, exec (.herdTiming c h policy) s = .next t ∧ (getHerd t h).shPolicy = (policy ==
    1) ∧ (getHerd t h).policy = (getHerd s h).policy ∧ (getHerd t h).staged = true ∧ HerdsBut h s t ∧ Answered s t
    c 0x0202 stOk 0) ∧
  (∀ c p s, Runs s c → myTurn s c = true → portGate s p = none → firstBadParam (getPort s p).shadow (getHerd s
    (herdOf p)).modeSet ((getPort s p).lane.mode == .l25) = none → (getPort s p).staged ≠ [] → ∃ t, exec
    (.portCommit c (.port p)) s = .next t ∧ (getPort t p).live = (getPort s p).shadow ∧ (getPort t p).staged = [] ∧
    (getPort t p).cfgGen = (getPort s p).cfgGen + 1 ∧ (getPort t p).st = (getPort s p).st ∧ PortsBut p s t ∧
    Answered s t c 0x0102 stOk (BitVec.ofNat 64 ((getPort s p).cfgGen + 1).toNat)) ∧
  (∀ c p s, Runs s c → myTurn s c = true → portGate s p = none → firstBadParam (getPort s p).shadow (getHerd s
    (herdOf p)).modeSet ((getPort s p).lane.mode == .l25) = none → (getPort s p).staged = [] → ∃ t, exec
    (.portCommit c (.port p)) s = .next t ∧ (getPort t p).live = (getPort s p).shadow ∧ (getPort t p).mustCommit =
    false ∧ Answered s t c 0x0102 stOk (BitVec.ofNat 64 (getPort s p).cfgGen.toNat)) ∧
  (∀ c h s, Runs s c → NewCmd s c → myTurn s c = true → herdGate s h = none → badHerdParam s h = none → herdStaged
    s h = true → runLevel (getDie s (dieOfHerd h)) = 0 → ∃ t, exec (.portCommit c (.herd h)) s = .next t ∧ (getHerd
    t h).modeSet = (getHerd s h).shModeSet ∧ (getHerd t h).policy = (getHerd s h).shPolicy ∧ (getHerd t h).cfgGen =
    (getHerd s h).cfgGen + 1 ∧ (getHerd t h).commit = none ∧ (∀ k, (getPort t (portOf h k)).live = (getPort s
    (portOf h k)).shadow) ∧ (∀ k, (getPort t (portOf h k)).cfgGen = (getPort s (portOf h k)).cfgGen + 1) ∧ Answered
    s t c 0x0102 stOk (BitVec.ofNat 64 ((getHerd s h).cfgGen + 1).toNat)) ∧
  (∀ c h s, myTurn s c = true → herdGate s h = none → badHerdParam s h = none → (getHerd s h).shModeSet ≠ (getHerd
    s h).modeSet → (getHerd s h).staged = true → setLevel (getHerd s h).shModeSet < runLevel (getDie s (dieOfHerd
    h)) → ∃ t, exec (.portCommit c (.herd h)) s = .next t ∧ (getHerd t h).modeSet = (getHerd s h).modeSet ∧
    ((getHerd t h).commit.map fun k => (k.cmd, k.modeSet, k.policy)) = some (c, (getHerd s h).shModeSet, (getHerd s
    h).shPolicy) ∧ (getHerd t h).staged = false ∧ (getHerd t h).cfgGen = (getHerd s h).cfgGen ∧ getRing t c.ring =
    getRing s c.ring) ∧
  (∀ c h s, Runs s c → myTurn s c = true → herdGate s h = none → badHerdParam s h = none → herdStaged s h = false →
    ∃ t, exec (.portCommit c (.herd h)) s = .next t ∧ (getHerd t h).cfgGen = (getHerd s h).cfgGen ∧ (∀ k, (getPort
    t (portOf h k)).mustCommit = false) ∧ Answered s t c 0x0102 stOk (BitVec.ofNat 64 (getHerd s h).cfgGen.toNat))

/-- Start-up commands (R97, R109, R129, R135, R434): where each leads, and where it is refused. -/
def Obligations.PortStartRows : Prop :=
  (∀ c p s, Runs s c → myTurn s c = true → portGate s p = none → (getPort s p).mustCommit = false → (getPort s
    p).st = .disabled → ∃ t, exec (.portEnable c p) s = .next t ∧ (getPort t p).st = .negotiate ∧ (getPort t
    p).attempts = 0 ∧ (getPort t p).neg.open_ = true ∧ PortsBut p s t ∧ Answered s t c 0x0103 stOk 0) ∧
  (∀ c p s, Runs s c → myTurn s c = true → portGate s p = none → (getPort s p).mustCommit = false → (getPort s
    p).st ≠ .disabled → (getPort s p).loop ≠ .digital → chamoisRuns (getPort s p) = false → (getPort s p).cal =
    none → ∃ t, exec (.portEnable c p) s = .next t ∧ t.ports = s.ports ∧ Answered s t c 0x0103 stOk 0) ∧
  (∀ c p s, Runs s c → myTurn s c = true → portGate s p = none → (getPort s p).mustCommit = true → ∃ t, exec
    (.portEnable c p) s = .next t ∧ t.ports = s.ports ∧ Answered s t c 0x0103 stRefused (BitVec.ofNat 64 (shownPort
    s p))) ∧
  (∀ c p s, Runs s c → NewCmd s c → myTurn s c = true → portGate s p = none → ∃ t, exec (.portDisable c p) s =
    .next t ∧ (getPort t p).st = .disabled ∧ PortsBut p s t ∧ Answered s t c 0x0104 stOk 0) ∧
  (∀ c p s, Runs s c → NewCmd s c → myTurn s c = true → portGate s p = none → (getPort s p).st ≠ .disabled → ∃ t,
    exec (.portRestart c p) s = .next t ∧ (getPort t p).st = .negotiate ∧ (getPort t p).attempts = 0 ∧ (getPort t
    p).neg.open_ = true ∧ PortsBut p s t ∧ Answered s t c 0x0106 stOk 0) ∧
  (∀ c p s, Runs s c → myTurn s c = true → portGate s p = none → (getPort s p).st = .disabled → ∃ t, exec
    (.portRestart c p) s = .next t ∧ t.ports = s.ports ∧ Answered s t c 0x0106 stRefused (BitVec.ofNat 64
    (shownPort s p))) ∧
  (∀ c p s, Runs s c → NewCmd s c → myTurn s c = true → portGate s p = none → (getPort s p).st ≠ .disabled →
    (getPort s p).st ≠ .up ∨ forced c = true → ∃ t, exec (.portTrain c p) s = .next t ∧ (getPort t p).st =
    .negotiate ∧ (getPort t p).attempts = 0 ∧ (getPort t p).trainNext = true ∧ PortsBut p s t ∧ Answered s t c
    0x0105 stOk 0) ∧
  (∀ c p s, Runs s c → myTurn s c = true → portGate s p = none → (getPort s p).st = .up → forced c = false → ∃ t,
    exec (.portTrain c p) s = .next t ∧ t.ports = s.ports ∧ Answered s t c 0x0105 stRefused (BitVec.ofNat 64
    (shownPort s p)))

/-- Loopbacks and gates (R198 to R200, R310, R312, R459): OFF, DIGITAL, REMOTE; what a port under self-test, a port in
SAFE and a herd in herd safe state answer. -/
def Obligations.LoopbackRows : Prop :=
  (∀ c p s, Runs s c → myTurn s c = true → loopGate s p = none → (getPort s p).loop = .digital ∨ (getPort s p).loop
    = .looping → ∃ t, exec (.portLoopbackOff c p) s = .next t ∧ (getPort t p).loop = .none ∧ PortsBut p s t ∧
    Answered s t c 0x0107 stOk 0) ∧
  (∀ c p s, myTurn s c = true → loopGate s p = none → (getPort s p).loop = .remote → ∃ t, exec (.portLoopbackOff c
    p) s = .next t ∧ t.waits = s.waits ++ [.loop p c false] ∧ getRing t c.ring = getRing s c.ring ∧ (getPort t
    p).loop = .remote ∧ PortsBut p s t) ∧
  (∀ c p s, Runs s c → myTurn s c = true → loopGate s p = none → (getPort s p).loop = .none → loopPending s p =
    false → ∃ t, exec (.portLoopbackOff c p) s = .next t ∧ t.ports = s.ports ∧ Answered s t c 0x0107 stOk 0) ∧
  (∀ c p s, myTurn s c = true → loopGate s p = none → (getPort s p).loop = .none → loopPending s p = true → ∃ t,
    exec (.portLoopbackOff c p) s = .next t ∧ t.waits = s.waits ++ [.loop p c false] ∧ getRing t c.ring = getRing s
    c.ring ∧ PortsBut p s t) ∧
  (∀ c p s, Runs s c → myTurn s c = true → loopGate s p = none → (getPort s p).loop = .none → loopPending s p =
    false → (getPort s p).st = .disabled ∨ (getPort s p).st = .hold → ∃ t, exec (.portLoopbackDigital c p) s =
    .next t ∧ getPort t p = { getPort s p with loop := .digital } ∧ PortsBut p s t ∧ Answered s t c 0x0107 stOk 0) ∧
  (∀ c p s, Runs s c → myTurn s c = true → loopGate s p = none → (getPort s p).st = .up → (getPort s p).loop =
    .none → ∃ t, exec (.portLoopbackDigital c p) s = .next t ∧ t.ports = s.ports ∧ Answered s t c 0x0107 stRefused
    (BitVec.ofNat 64 (shownPort s p))) ∧
  (∀ c p (k : Caps) s, myTurn s c = true → loopGate s p = none → (getPort s p).loop = .none → (getPort s p).st =
    .up → (getPort s p).caps = some k → k.loop = true → ∃ t, exec (.portLoopbackRemote c p) s = .next t ∧ t.waits =
    s.waits ++ [.loop p c true] ∧ getRing t c.ring = getRing s c.ring ∧ (getPort t p).loop = .none ∧ (getPort t
    p).info = infoNext
    { (getPort s p).info with queue := (getPort s p).info.queue ++ [{ type := 0x10, payload := 1, cmd := some c }] }
    ∧ PortsBut p s t) ∧
  (∀ c p s, Runs s c → myTurn s c = true → (getHerd s (herdOf p)).st = .selfTest → ∃ t, exec (.portEnable c p) s =
    .next t ∧ t.ports = s.ports ∧ Answered s t c 0x0103 stBusyTest (BitVec.ofNat 64 (testLeft s (herdOf p)))) ∧
  (∀ c p s, Runs s c → myTurn s c = true → (getHerd s (herdOf p)).st ≠ .selfTest → (getPort s p).st = .safe → ∃ t,
    exec (.portDisable c p) s = .next t ∧ t.ports = s.ports ∧ Answered s t c 0x0104 stRefused (BitVec.ofNat 64
    (shownPort s p))) ∧
  (∀ c h (m : BitVec 8) s, Runs s c → myTurn s c = true → (getHerd s h).st = .safe → ∃ t, exec (.herdMode c h m) s
    = .next t ∧ (getHerd t h).shModeSet = (getHerd s h).shModeSet ∧ Answered s t c 0x0201 stRefused 0xFF)

/-- CTX.SAVE, CTX.LOAD, CTX.LIST (R136 to R151, R318), each with the conditions under which it has its effect. A save
in progress is settled first. -/
def Obligations.CtxSaveAndLoad : Prop :=
  (∀ c p s, myTurn s c = true → portGate s p = none → (getPort s p).st = .up → storeUp s (chanOf p) = true →
    (getPort s p).save = none → ∃ t, exec (.ctxSave c p 0) s = .next t ∧ (getPort t p).save = some
    { cause := 3, ctx := captureCtx s p 3, cmd := some c, paired := false } ∧ PortsBut p s t ∧ OnlyIn [.ports] s t) ∧
  (∀ c p s, myTurn s c = true → portGate s p = none → (getPort s p).st = .up → storeUp s (chanOf p) = true →
    (getPort s p).save = none → ∃ t, exec (.ctxSave c p 1) s = .next t ∧ (getPort t p).save = some
    { cause := 3, ctx := captureCtx s p 3, cmd := some c, paired := true } ∧ Wait.paired p c false false ∈ t.waits
    ∧ PortsBut p s t ∧ OnlyIn [.ports, .waits] s t) ∧
  (∀ c p (k : CtxKey) (read : CtxRead) (e : Ctx) s, Runs s c → NewCmd s c → myTurn s c = true → portGate s p = none
    → (getPort s p).st = .up → (getPort s p).partner = k.partner → (getPort s p).sig = k.sig → e.mode = (getPort s
    p).mode → e.fec = (getPort s p).fec → ctxNamed (saveVisible s p) p k = .inr e → readCause p e read = 0 → ∃ t,
    exec (.ctxLoad c p k read) s = .next t ∧ (getPort t p).pairs = (getPort (loadCoefs (saveVisible s p) p e.coefs)
    p).pairs ∧ (getPort t p).st = .up ∧ PortsBut p s t ∧ Answered s t c 0x0302 stOk 0) ∧
  (∀ c p (k : CtxKey) (read : CtxRead) (e : Ctx) s, Runs s c → NewCmd s c → myTurn s c = true → portGate s p = none
    → (getPort s p).st ≠ .up → isTraining (getPort s p).st = false → ctxNamed (saveVisible s p) p k = .inr e →
    readCause p e read = 0 → ∃ t, exec (.ctxLoad c p k read) s = .next t ∧ (getPort t p).pairs = (getPort s
    p).pairs ∧ (∀ x ∈ (getDir t p).entries, x.entry = e.entry → x.lastUse = s.time.now) ∧ Answered s t c 0x0302
    stOk 0) ∧
  (∀ c p (k : CtxKey) (read : CtxRead) (e : Ctx) s, Runs s c → NewCmd s c → myTurn s c = true → portGate s p = none
    → (getPort s p).st ≠ .up → isTraining (getPort s p).st = false → ctxNamed (saveVisible s p) p k = .inr e →
    readCause p e read ≠ 0 → ∃ t, exec (.ctxLoad c p k read) s = .next t ∧ (∀ x ∈ (getDir t p).entries, x.entry ≠
    e.entry) ∧ Posted s t (globalSrc 51) 1 ∧ Answered s t c 0x0302 stContextMiss 0) ∧
  (∀ c p (b : Taken) (u : State) s, Runs s c → NewCmd s c → myTurn s c = true → portGate s p = none → storeUp s
    (chanOf p) = true → u = saveVisible s p → (takeIn u (dataRingOf u c (.port p) 3) (32 * (ctxAll u
    [p]).length)).got = some b → (getRing s b.ring).dmaBad = false → ∃ t, exec (.ctxList c (.port p)) s = .next t ∧
    (getDir t p) = getDir u p ∧ Answered s t c 0x0306 stOk (BitVec.ofNat 64 (getDir u p).entries.length)) ∧
  (∀ c (b : Taken) s, Runs s c → myTurn s c = true → storeUp s 0 = true → storeUp s 1 = true → (takeIn s
    (dataRingOf s c .hub 3) (32 * (ctxAll s (allPorts.filter fun p => storeUp s (chanOf p))).length)).got = some b
    → (getRing s b.ring).dmaBad = false → ∃ t, exec (.ctxList c .hub) s = .next t ∧ t.store = s.store ∧ Answered s
    t c 0x0306 stOk (BitVec.ofNat 64 (ctxAll s (allPorts.filter fun p => storeUp s (chanOf p))).length))

/-- CTX.PIN, CTX.UNPIN, CTX.EVICT (R142, R150, R318). -/
def Obligations.CtxPinAndEvict : Prop :=
  (∀ c p (k : CtxKey) (e : Ctx) s, Runs s c → NewCmd s c → myTurn s c = true → portGate s p = none → ((getDir
    (saveVisible s p) p).entries.filter (·.pinned)).length < 8 → ctxNamed (saveVisible s p) p k = .inr e → ∃ t,
    exec (.ctxPin c p k) s = .next t ∧ (∀ x ∈ (getDir t p).entries, x.entry = e.entry → x.pinned = true) ∧ Answered
    s t c 0x0303 stOk 0) ∧
  (∀ c p (k : CtxKey) (e : Ctx) s, Runs s c → NewCmd s c → myTurn s c = true → portGate s p = none → 8 ≤ ((getDir
    (saveVisible s p) p).entries.filter (·.pinned)).length → e.pinned = false → ctxNamed (saveVisible s p) p k =
    .inr e → ∃ t, exec (.ctxPin c p k) s = .next t ∧ (∀ q, getDir t q = getDir (saveVisible s p) q) ∧ Answered s t
    c 0x0303 stNoResource 0) ∧
  (∀ c p (k : CtxKey) (e : Ctx) s, Runs s c → NewCmd s c → myTurn s c = true → portGate s p = none → ctxNamed
    (saveVisible s p) p k = .inr e → ∃ t, exec (.ctxUnpin c p k) s = .next t ∧ (∀ x ∈ (getDir t p).entries, x.entry
    = e.entry → x.pinned = false) ∧ Answered s t c 0x0304 stOk 0) ∧
  (∀ c p (k : CtxKey) (e : Ctx) s, Runs s c → NewCmd s c → myTurn s c = true → portGate s p = none → e.pinned =
    false → ctxNamed (saveVisible s p) p k = .inr e → ∃ t, exec (.ctxEvict c p k) s = .next t ∧ (∀ x ∈ (getDir t
    p).entries, x.entry ≠ e.entry) ∧ Answered s t c 0x0305 stOk 0) ∧
  (∀ c p (k : CtxKey) (e : Ctx) s, Runs s c → NewCmd s c → myTurn s c = true → portGate s p = none → e.pinned =
    true → ctxNamed (saveVisible s p) p k = .inr e → ∃ t, exec (.ctxEvict c p k) s = .next t ∧ getDir t p = getDir
    (saveVisible s p) p ∧ Answered s t c 0x0305 stRefused (BitVec.ofNat 64 (shownPort s p)))

/-- Events of the context store (R142 to R146, R376). -/
def Obligations.CtxEvents : Prop :=
  (∀ p s, saveReady s p = true → (getPort s p).partnerHeld = true → herdsRun s = true → ∃ t, exec (.ctxSaveCheck p)
    s = .next t ∧ (getPort t p).save = some { cause := 4, ctx := captureCtx s p 4, cmd := none, paired := false } ∧
    PortsBut p s t ∧ OnlyIn [.ports] s t) ∧
  (∀ p s, saveReady s p = true → (getPort s p).partnerHeld = false → saveClean (getPort s p) = true → (getPort s
    p).firstSaved = false → 1000000000 ≤ s.mono - (getPort s p).upMono → herdsRun s = true → ∃ t, exec
    (.ctxSaveCheck p) s = .next t ∧ (getPort t p).save = some
    { cause := 1, ctx := captureCtx s p 1, cmd := none, paired := false } ∧ PortsBut p s t ∧ OnlyIn [.ports] s t) ∧
  (∀ p s, saveReady s p = true → (getPort s p).partnerHeld = false → saveClean (getPort s p) = true → (getPort s
    p).firstSaved = true → (getPort s p).saveHeld = true → herdsRun s = true → ∃ t, exec (.ctxSaveCheck p) s =
    .next t ∧ (getPort t p).save = some { cause := 2, ctx := captureCtx s p 2, cmd := none, paired := false } ∧
    PortsBut p s t ∧ OnlyIn [.ports] s t) ∧
  (∀ p s, saveReady s p = true → saveClean (getPort s p) = true → (getPort s p).lastSave.isSome = true → livePar
    (getPort s p) 0x20 ≠ 0 → ∃ t, exec (.ctxPeriodicSave p) s = .next t ∧ (getPort t p).save = some
    { cause := 2, ctx := captureCtx s p 2, cmd := none, paired := false } ∧ PortsBut p s t ∧ OnlyIn [.ports] s t) ∧
  (∀ p s, (getPort s p).st = .up → saveClean (getPort s p) = false → (getPort s p).lastSave.isSome = true → livePar
    (getPort s p) 0x20 ≠ 0 → herdsRun s = true → ∃ t, exec (.ctxPeriodicSave p) s = .next t ∧ (getPort t
    p).saveHeld = true ∧ (getPort t p).save = (getPort s p).save ∧ OnlyIn [.ports] s t) ∧
  (∀ p (v : Save) c s, (getPort s p).save = some v → v.cmd = some c → v.paired = false → storeUp s (chanOf p) =
    true → Runs s c → herdsRun s = true → ∃ t, exec (.ctxSaveVisible p) s = .next t ∧ (getPort t p).save = none ∧
    getDir t p = (dirPut (getDir s p) v.ctx).1 ∧ Posted s t (portSrc p 8) 1 ∧ Answered s t c 0x0301 stOk
    (BitVec.ofNat 64 v.ctx.gen.toNat)) ∧
  (∀ p (v : Save) s, (getPort s p).save = some v → v.cmd = none → v.paired = false → storeUp s (chanOf p) = true →
    herdsRun s = true → ∃ t, exec (.ctxSaveVisible p) s = .next t ∧ (getPort t p).save = none ∧ getDir t p =
    (dirPut (getDir s p) v.ctx).1 ∧ Posted s t (portSrc p 8) 1 ∧ t.waits = s.waits) ∧
  (∀ (q : ChanId) (gib : BitVec 6) s, s.clk.refclkOk = true → ∃ t, exec (.ddrTrainingDone q gib) s = .next t ∧
    (getDdr t q).trained = true ∧ (getDdr t q).gib = gib ∧ (getDdr t q).failed = false ∧ (∀ p, chanOf p = q →
    getDir t p = emptyDir) ∧ Posted s t (globalSrc 48) 1) ∧
  (∀ (q : ChanId) (x : BitVec 8) s, s.clk.refclkOk = true → ∃ t, exec (.ddrChannelFailure q x) s = .next t ∧
    (getDdr t q).trained = false ∧ (∀ p, chanOf p = q → getDir t p = emptyDir) ∧ Posted s t (globalSrc 49) 1) ∧
  (∀ (q : ChanId) (n : BitVec 32) s, s.clk.refclkOk = true → ∃ t, exec (.ddrEccCorrected q n) s = .next t ∧ getDdr
    t q = { getDdr s q with eccCount := (getDdr s q).eccCount + n } ∧ Posted s t (globalSrc 50) 1 ∧ OnlyIn [.ddr,
    .io] s t)

/-- Diagnostics (R234 to R245): the commands, the steps, the grant of the path for sweeps, the delivery of results. -/
def Obligations.DiagRows : Prop :=
  (∀ c p (profile : BitVec 8) (b : Taken) s, Runs s c → myTurn s c = true → portGate s p = none → (getPort s
    p).diag.st = .none → profile.toNat ≤ 1 → (getPort s p).st = .up → (takeIn s (dataRingOf s c (.port p) 3)
    (diagSize (getPort s p) false (profile == 1))).got = some b → ∃ t, exec (.diagPassive c p profile) s = .next t
    ∧ (getPort t p).diag.st = .passive ∧ (getPort t p).diag.buf = some b ∧ (getPort t p).st = .up ∧ PortsBut p s t
    ∧ Answered s t c 0x0401 stOk (BitVec.ofNat 64 (diagSize (getPort s p) false (profile == 1)))) ∧
  (∀ c p (skipSweep profile : BitVec 8) (b : Taken) s, Runs s c → myTurn s c = true → portGate s p = none →
    (getPort s p).diag.st = .none → skipSweep.toNat ≤ 1 → profile.toNat ≤ 1 → (getPort s p).st = .disabled ∨
    (getPort s p).st = .hold → (getPort s p).loop ≠ .digital → skipSweep = 1 ∨ obsHeld (getHerd s (herdOf p)) =
    false → (takeIn s (dataRingOf s c (.port p) 3) (diagSize (getPort s p) true (profile == 1))).got = some b → ∃
    t, exec (.diagChamois c p skipSweep profile) s = .next t ∧ (getPort t p).diag.st = .chamois ∧ (getPort t
    p).diag.step = 1 ∧ (getPort t p).diag.endState = (getPort s p).st ∧ (getPort t p).st = (getPort s p).st ∧
    PortsBut p s t ∧ Answered s t c 0x0402 stOk (if skipSweep = 1 then 36000 else BitVec.ofNat 64 (80000 + 44000 *
    (getObs s (herdOf p)).sweeps.length))) ∧
  (∀ c p (skipSweep profile : BitVec 8) (b : Taken) s, Runs s c → NewCmd s c → myTurn s c = true → portGate s p =
    none → (getPort s p).diag.st = .none → skipSweep.toNat ≤ 1 → profile.toNat ≤ 1 → (getPort s p).st = .up →
    forced c = true → (getPort s p).loop ≠ .digital → skipSweep = 1 ∨ obsHeld (getHerd s (herdOf p)) = false →
    (takeIn s (dataRingOf s c (.port p) 3) (diagSize (getPort s p) true (profile == 1))).got = some b → ∃ t, exec
    (.diagChamois c p skipSweep profile) s = .next t ∧ (getPort t p).diag.st = .chamois ∧ (getPort t p).st =
    .negotiate ∧ (getPort t p).lastDown = 6 ∧ (getPort t p).attempts = 0 ∧ PortsBut p s t ∧ Answered s t c 0x0402
    stOk (if skipSweep = 1 then 36000 else BitVec.ofNat 64 (80000 + 44000 * (getObs s (herdOf p)).sweeps.length))) ∧
  (∀ p s, (getPort s p).diag.st = .passive → herdsRun s = true → ∃ t, exec (.diagPassiveDone p) s = .next t ∧
    (getPort t p).diag.st = .none ∧ (getPort t p).st = (getPort s p).st ∧ Posted s t (portSrc p 9) 1 ∧ PortsBut p s
    t) ∧
  (∀ p (f : DiagFinding) s, (getPort s p).diag.st = .chamois → (getPort s p).diag.step = 1 → herdsRun s = true → ∃
    t, exec (.chamoisStepEnd p f) s = .next t ∧ (getPort t p).diag.step = 2 ∧ (getPort t p).diag.st = .chamois ∧
    (getPort t p).diag.found = some f ∧ OnlyIn [.ports] s t) ∧
  (∀ p (f : DiagFinding) s, (getPort s p).diag.st = .chamois → (getPort s p).diag.step = 2 → 3 ≤ (getPort s
    p).diag.tdr → (getPort s p).diag.skip = false → sweepHead s p = true → obsHeld (getHerd s (herdOf p)) = false →
    herdsRun s = true → ∃ t, exec (.chamoisStepEnd p f) s = .next t ∧ (getPort t p).diag.step = 3 ∧ (getPort t
    p).diag.st = .chamois ∧ (getObs t (herdOf p)).st = .chamois) ∧
  (∀ p (f : DiagFinding) s, (getPort s p).diag.st = .chamois → (getPort s p).diag.step = 2 → (getPort s p).diag.tdr
    < 3 → herdsRun s = true → ∃ t, exec (.chamoisStepEnd p f) s = .next t ∧ (getPort t p).diag.step = 2 ∧ (getPort
    t p).diag.tdr = (getPort s p).diag.tdr + 1 ∧ (getPort t p).diag.found = some f ∧ PortsBut p s t ∧ OnlyIn
    [.ports] s t) ∧
  (∀ p (f : DiagFinding) s, (getPort s p).diag.st = .chamois → (getPort s p).diag.step = 5 → (getPort s
    p).diag.endState = .disabled → herdsRun s = true → ∃ t, exec (.chamoisStepEnd p f) s = .next t ∧ (getPort t
    p).diag.st = .none ∧ (getPort t p).st = (getPort s p).st ∧ Posted s t (portSrc p 9) 1) ∧
  (∀ h p (l : List PortId) s, (getObs s h).sweeps = p :: l → (getPort s p).diag.st = .waiting → herdOf p = h →
    herdsRun s = true → ∃ t, exec (.chamoisSweepGrant h) s = .next t ∧ (getPort t p).diag.st = .chamois ∧ (getPort
    t p).diag.step = 3 ∧ (getObs t h).st = .chamois ∧ OnlyIn [.ports, .herds] s t) ∧
  (∀ p r (fs : List Fld) (b : Taken) s, (getPort s p).diag.kept = some fs → activeRing s 3 (.port p) = some r →
    (takeBuf s (some r) 1280).got = some b → s.clk.refclkOk = true → ∃ t, exec (.chamoisResultDelivery p) s = .next
    t ∧ (getPort t p).diag.kept = none ∧ Bus.data b.desc.addr fs ∈ t.io.bus ∧ Posted s t (portSrc p 9) 1 ∧ PortsBut
    p s t)

/-- Statistics and monitoring (R227 to R233, R323, R348, R350). -/
def Obligations.StatRows : Prop :=
  (∀ c (g : Target) (b : Taken) s, Runs s c → myTurn s c = true → diesUp s (targetPorts g) = true → (takeIn s
    (dataRingOf s c g 3) (640 * (targetPorts g).length)).got = some b → (getRing s b.ring).dmaBad = false → ∃ t,
    exec (.statRead c g) s = .next t ∧ Bus.data b.desc.addr (statBlocks s 0 (targetPorts g) s.time.now) ∈ t.io.bus
    ∧ (∀ p, (getPort t p).stats = (getPort s p).stats) ∧ Answered s t c 0x0801 stOk (BitVec.ofNat 64 (targetPorts
    g).length)) ∧
  (∀ c (count : BitVec 8) (ranges : List (BitVec 16 × BitVec 16)) (b : Taken) s, count.toNat ≤ 10 → badRange
    (ranges.take count.toNat) = none → diesUp s (snapPorts count.toNat ranges) = true → (takeIn s (dataRingOf s c
    .hub 3) (64 + 640 * (snapPorts count.toNat ranges).length)).got = some b → ∃ t, exec (.statSnapshot c count
    ranges) s = .next t ∧ t.io.snaps = s.io.snaps ++
    [{ cmd := c, ports := snapPorts count.toNat ranges, buf := b, time := s.time.now + 20000 }] ∧ t.io.epoch =
    s.io.epoch + 1 ∧ t.io.lastEpoch = s.io.lastEpoch ∧ (getRing t c.ring).running = (getRing s c.ring).running) ∧
  (∀ (n : Snap) (l : List Snap) s, s.io.snaps = n :: l → n.time.toNat ≤ s.time.now.toNat → diesUp s n.ports = true
    → Runs s n.cmd → s.clk.refclkOk = true → ∃ t, exec .statSnapshotCapture s = .next t ∧ t.io.snaps = l ∧
    t.io.lastEpoch = BitVec.ofNat 32 (s.io.epoch.toNat - l.length) ∧ t.io.epoch = s.io.epoch ∧ Answered s t n.cmd
    0x0802 stOk (BitVec.ofNat 64 (s.io.epoch.toNat - l.length))) ∧
  (∀ s, s.clk.refclkOk = true → ∃ t, exec .counterPersist s = .next t ∧ t.nv.pers = s.ports.map (fun e => (e.1,
    e.2.pers)) ∧ OnlyIn [.nv] s t) ∧
  (∀ p s, (getPort s p).st = .up → (getPort s p).lpi.st ≠ .quiet → livePar (getPort s p) 0x40 ≠ 0 → herdsRun s =
    true → (getPort s p).mlow.armed = true → 3 ≤ (getPort s p).mlow.below → (lowestMargin (quadMap (·.margin)
    (getPort s p).pairs)).toInt < (livePar (getPort s p) 0x40 : Int) → ∃ t, exec (.marginCompare p) s = .next t ∧
    (getPort t p).mlow.armed = false ∧ (getPort t p).mlow.crossings = 0 ∧ Posted s t (portSrc p 3) 1 ∧ PortsBut p s
    t) ∧
  (∀ p s, (getPort s p).st = .up → (getPort s p).lpi.st ≠ .quiet → livePar (getPort s p) 0x40 ≠ 0 → herdsRun s =
    true → (livePar (getPort s p) 0x40 : Int) ≤ (lowestMargin (quadMap (·.margin) (getPort s p).pairs)).toInt → ∃
    t, exec (.marginCompare p) s = .next t ∧ (getPort t p).mlow.below = 0 ∧ (getPort t p).mlow.wasBelow = false ∧
    Posted s t (portSrc p 3) 0 ∧ PortsBut p s t) ∧
  (∀ p s, herdsRun s = true → (getPort s p).st = .up → ∃ t, exec (.histogramPeriodEnd p) s = .next t ∧ getPort t p
    = histClose (getPort s p) ∧ (getPort t p).period = (0, 0, 0) ∧ PortsBut p s t ∧ OnlyIn [.ports] s t) ∧
  (∀ p (u m l w : BitVec 16) s, (getPort s p).lane.st = .active → (getPort s p).lane.mode ≠ .l25 → herdsRun s =
    true → ∃ t, exec (.eyeMeasure p u m l w) s = .next t ∧ (getPort t p).lane.eye = ⟨u, m, l, w⟩ ∧ PortsBut p s t ∧
    OnlyIn [.ports] s t) ∧
  (∀ p (u m l w : BitVec 16) s, (getPort s p).lane.st = .active → (getPort s p).lane.mode = .l25 → herdsRun s =
    true → ∃ t, exec (.eyeMeasure p u m l w) s = .next t ∧ (getPort t p).lane.eye = ⟨0, m, 0, w⟩ ∧ PortsBut p s t ∧
    OnlyIn [.ports] s t)

/-- LANE commands (R180, R195 to R199, R326), each with the conditions under which it has its effect, and where the
loopbacks are refused. -/
def Obligations.LaneCommands : Prop :=
  (∀ c p (apply gen chk inject burstLen periodK live : BitVec 8) s, Runs s c → myTurn s c = true → portGate s p =
    none → (getPort s p).loop ≠ .near → badPrbs apply gen chk inject burstLen periodK live = none → inFallback
    (getLane s p).st = false → (((apply.getLsbD 0 && gen == 6) || (apply.getLsbD 1 && chk == 6)) && (getLane s
    p).mode == .l25) = false → ∃ t, exec (.lanePrbs c p apply gen chk inject burstLen periodK live) s = .next t ∧
    (getLane t p).gen = (if apply.getLsbD 0 then gen else (getLane s p).gen) ∧ (getLane t p).chk = (if
    apply.getLsbD 1 then chk else (getLane s p).chk) ∧ (getLane t p).chkLock = (if apply.getLsbD 1 then false else
    (getLane s p).chkLock) ∧ (getLane t p).live = (if apply.getLsbD 2 then live == 1 else (getLane s p).live) ∧
    (getLane t p).st = (getLane s p).st ∧ PortsBut p s t ∧ Answered s t c 0x0A01 stOk 0) ∧
  (∀ c p s, Runs s c → myTurn s c = true → portGate s p = none → (getLane s p).st ≠ .idle → ∃ t, exec (.laneTrain c
    p) s = .next t ∧ (getLane t p).st = .detect ∧ (getLane t p).retries = 0 ∧ (getLane t p).gen = 0 ∧ (getLane t
    p).locked = false ∧ Posted s t (portSrc p 11) 1 ∧ PortsBut p s t ∧ Answered s t c 0x0A02 stOk 0) ∧
  (∀ c p s, Runs s c → myTurn s c = true → portGate s p = none → (getLane s p).st = .idle → ∃ t, exec (.laneTrain c
    p) s = .next t ∧ t.ports = s.ports ∧ Answered s t c 0x0A02 stRefused (BitVec.ofNat 64 (shownPort s p))) ∧
  (∀ c p s, Runs s c → myTurn s c = true → portGate s p = none → ∃ t, exec (.laneLoopbackOff c p) s = .next t ∧
    getPort t p = endHostLoop (getPort s p) ∧ (getPort t p).loop ≠ .near ∧ (getPort t p).loop ≠ .far ∧ PortsBut p s
    t ∧ Answered s t c 0x0A03 stOk 0) ∧
  (∀ c p s, Runs s c → myTurn s c = true → portGate s p = none → (getPort s p).loop = .none → loopPending s p =
    false → (getLane s p).st ≠ .idle → ∃ t, exec (.laneLoopbackNear c p) s = .next t ∧ getPort t p =
    { getPort s p with loop := .near } ∧ PortsBut p s t ∧ Answered s t c 0x0A03 stOk 0) ∧
  (∀ c p s, Runs s c → myTurn s c = true → portGate s p = none → (getPort s p).loop = .none → loopPending s p =
    false → (getLane s p).locked = true → ∃ t, exec (.laneLoopbackFar c p) s = .next t ∧ getPort t p =
    { getPort s p with loop := .far } ∧ PortsBut p s t ∧ Answered s t c 0x0A03 stOk 0) ∧
  (∀ c p s, Runs s c → myTurn s c = true → portGate s p = none → (getPort s p).loop = .none → (getLane s p).locked
    = false → ∃ t, exec (.laneLoopbackFar c p) s = .next t ∧ t.ports = s.ports ∧ Answered s t c 0x0A03 stRefused
    (BitVec.ofNat 64 (shownPort s p)))

/-- R179 to R191: blind start, its timeout, lane lock, its hold time and its loss. -/
def Obligations.BlindStart : Prop :=
  (∀ p s, (getLane s p).st = .blind → (getLane s p).auto = true → herdsRun s = true → ∃ t, exec (.blindTimeout p) s
    = .next t ∧ (getLane t p).st = .detect ∧ Posted s t (portSrc p 11) 1 ∧ PortsBut p s t) ∧
  (∀ p s, (getLane s p).st = .blind → (getLane s p).auto = false → herdsRun s = true → ∃ t, exec (.blindTimeout p)
    s = .next t ∧ (getLane t p).st = .blind ∧ (getLane t p).retries = (getLane s p).retries ∧ (getLane t p).locked
    = false ∧ Posted s t (portSrc p 11) 0 ∧ PortsBut p s t) ∧
  (∀ p (rms levels : Nat) (snr : Int) s, (getLane s p).st = .blind → laneLockMet (getLane s p) 0 rms levels snr =
    true → herdsRun s = true → ∃ t, exec (.laneLockAcquired p rms levels snr) s = .next t ∧ (getLane t p).locked =
    true ∧ (getLane t p).st = .blind ∧ (getLane t p).ctle.toNat ≤ 40 ∧ PortsBut p s t ∧ OnlyIn [.ports, .fresh] s
    t) ∧
  (∀ p (rms levels : Nat) (snr : Int) s, 50 ≤ rms ∨ levels < laneLevels (getLane s p) ∨ snr < ((getLane s
    p).lockSnr : Int) → ∃ t, exec (.laneLockAcquired p rms levels snr) s = .next t ∧ t = s) ∧
  (∀ p s, (getLane s p).st = .blind → (getLane s p).locked = true → herdsRun s = true → ∃ t, exec
    (.laneLockHoldExpiry p) s = .next t ∧ (getLane t p).st = .active ∧ (getLane t p).retries = 0 ∧ Posted s t
    (portSrc p 11) 0 ∧ PortsBut p s t) ∧
  (∀ p s, (getLane s p).st = .lock → (getLane s p).locked = true → (getLane s p).mode ≠ .l25 → herdsRun s = true →
    ∃ t, exec (.laneLockHoldExpiry p) s = .next t ∧ (getLane t p).st = .ready ∧ (getLane t p).preTx = (getLane s
    p).preReq.getD (livePar (getPort s p) 0x33 == 1) ∧ Bus.lane p "receiver ready" 1 ∈ t.io.bus ∧ PortsBut p s t) ∧
  (∀ p s, (getLane s p).st = .train → (getLane s p).locked = true → (getLane s p).mode = .l25 → herdsRun s = true →
    ∃ t, exec (.laneLockHoldExpiry p) s = .next t ∧ (getLane t p) = { (getLane s p) with st := .lock } ∧ PortsBut p
    s t ∧ OnlyIn [.ports] s t) ∧
  (∀ p s, (getLane s p).st = .lock → (getLane s p).locked = true → (getLane s p).mode = .l25 → herdsRun s = true →
    ∃ t, exec (.laneLockHoldExpiry p) s = .next t ∧ (getLane t p) = { (getLane s p) with st := .ready } ∧ PortsBut
    p s t ∧ OnlyIn [.ports] s t) ∧
  (∀ p (rms errs : Nat) (snr : Int) s, (getLane s p).st = .active → 150 < rms ∨ snr ≤ ((getLane s p).lockSnr : Int)
    - 30 → herdsRun s = true → ∃ t, exec (.laneLockLost p rms snr errs) s = .next t ∧ (getLane t p).st = .blind ∧
    (getLane t p).fromLoss = true ∧ (getLane t p).taps = (getLane s p).taps ∧ (getLane t p).ctle = (getLane s
    p).ctle ∧ (getLane t p).ffe = (getLane s p).ffe ∧ (getLane t p).dfe = (getLane s p).dfe ∧ (getLane t p).cdr =
    (getLane s p).cdr ∧ persGet (getPort t p) 0xA8 = persGet (getPort s p) 0xA8 + 1 ∧ Posted s t (portSrc p 10) 1 ∧
    PortsBut p s t) ∧
  (∀ p (rms errs : Nat) (snr : Int) s, (getLane s p).st = .active → rms ≤ 150 → ((getLane s p).lockSnr : Int) - 30
    < snr → ∃ t, exec (.laneLockLost p rms snr errs) s = .next t ∧ t = s) ∧
  (∀ p (rms errs : Nat) (snr : Int) s, (getLane s p).st = .lock → 150 < rms ∨ snr ≤ ((getLane s p).lockSnr : Int) +
    10 - 30 ∨ 10 < errs → herdsRun s = true → ∃ t, exec (.laneLockLost p rms snr errs) s = .next t ∧ (getLane t
    p).st = .train ∧ (getLane t p).locked = false ∧ Posted s t (portSrc p 10) 0 ∧ PortsBut p s t)

/-- R180 to R188, R196: the fall-back from DETECT to ACTIVE, the retry limit, the checker and periodic injection. -/
def Obligations.FallBackTraining : Prop :=
  (∀ p s, (getLane s p).st = .detect → herdsRun s = true → ∃ t, exec (.detectProbe p true) s = .next t ∧ (getLane t
    p).st = .train ∧ (getLane t p).ctle = 0 ∧ (getLane t p).locked = false ∧ Bus.lane p "probe" 0 ∈ t.io.bus ∧
    ((getLane s p).mode ≠ .l25 → Bus.lane p "request preset" (BitVec.ofNat 32 (livePar (getPort s p) 0x32)) ∈
    t.io.bus) ∧ PortsBut p s t) ∧
  (∀ p s, (getLane s p).st = .detect → herdsRun s = true → ∃ t, exec (.detectProbe p false) s = .next t ∧ (getLane
    t p).st = .detect ∧ t.io.bus = .lane p "probe" 0 :: s.io.bus ∧ OnlyIn [.io] s t) ∧
  (∀ p (f : TrainFrame) s, (getLane s p).st = .train → f.checksOk = true → (getLane s p).mode ≠ .l25 → herdsRun s =
    true → ∃ t, exec (.trainingFrameReceived p f) s = .next t ∧ (getLane t p).taps = (tapAnswer (getLane s p)
    f.req).2.taps ∧ (getLane t p).preReq = (tapAnswer (getLane s p) f.req).2.preReq ∧ (getLane t p).partReady =
    f.ready ∧ (getLane t p).st = .train ∧ Bus.lane p (tapAnswer (getLane s p) f.req).1 0 ∈ t.io.bus ∧ PortsBut p s
    t) ∧
  (∀ p (f : TrainFrame) (k : Seek) s, (getLane s p).st = .train → f.checksOk = true → (getLane s p).mode ≠ .l25 →
    (getLane s p).seek = some k → k.done = false → k.acked = false → f.status ≠ .notUpdated → f.req = .hold → f.snr
    = none → herdsRun s = true → ∃ t, exec (.trainingFrameReceived p f) s = .next t ∧ (getLane t p) =
    { (getLane s p) with partReady := f.ready, seek := some { k with acked := true } } ∧ Bus.lane p "request hold"
    0 ∈ t.io.bus ∧ PortsBut p s t) ∧
  (∀ p (f : TrainFrame) (on : Bool) s, (getLane s p).st = .ready → f.checksOk = true → (getLane s p).mode ≠ .l25 →
    f.req = .precode on → herdsRun s = true → ∃ t, exec (.trainingFrameReceived p f) s = .next t ∧ (getLane t p) =
    { (getLane s p) with partReady := f.ready, preReq := some on, preTx := on } ∧ t.io.bus = .lane p (lateAnswer
    f.req) 0 :: s.io.bus ∧ PortsBut p s t ∧ OnlyIn [.ports, .io] s t) ∧
  (∀ p (f : TrainFrame) s, f.checksOk = false → ∃ t, exec (.trainingFrameReceived p f) s = .next t ∧ t = s) ∧
  (∀ p (rms levels errs : Nat) (snr : Int) s, (getLane s p).st = .train → (getLane s p).mode ≠ .l25 → laneLockMet
    (getLane s p) 10 rms levels snr = true → errs ≤ 10 → herdsRun s = true → ∃ t, exec (.trainLockMet p rms levels
    snr errs) s = .next t ∧ (getLane t p).st = .lock ∧ (getLane t p).locked = true ∧ (getLane t p).taps = (getLane
    s p).taps ∧ PortsBut p s t ∧ OnlyIn [.fresh, .ports] s t) ∧
  (∀ p (rms levels errs : Nat) (snr : Int) s, 10 < errs ∨ snr < ((getLane s p).lockSnr : Int) + 10 → ∃ t, exec
    (.trainLockMet p rms levels snr errs) s = .next t ∧ t = s) ∧
  (∀ p s, (getLane s p).st = .ready → (getLane s p).partReady = true ∨ (getLane s p).mode = .l25 → herdsRun s =
    true → ∃ t, exec (.laneReadyDone p) s = .next t ∧ (getLane t p).st = .active ∧ (getLane t p).retries = 0 ∧
    Posted s t (portSrc p 11) 1 ∧ PortsBut p s t) ∧
  (∀ p s, inFallback (getLane s p).st = true → (getLane s p).limit = 0 ∨ ((getLane s p).retries + 1).toNat <
    (getLane s p).limit → herdsRun s = true → ∃ t, exec (.fallbackLimitExpiry p) s = .next t ∧ (getLane t p).st =
    .blind ∧ (getLane t p).retries = (getLane s p).retries + 1 ∧ Posted s t (portSrc p 11) 1 ∧ PortsBut p s t) ∧
  (∀ p s, inFallback (getLane s p).st = true → (getLane s p).limit ≠ 0 → (getLane s p).limit ≤ ((getLane s
    p).retries + 1).toNat → herdsRun s = true → ∃ t, exec (.fallbackLimitExpiry p) s = .next t ∧ (getLane t p).st =
    .hold ∧ (getLane t p).retries = (getLane s p).retries + 1 ∧ Posted s t (portSrc p 11) 1 ∧ PortsBut p s t) ∧
  (∀ p (bits : List Bool) s, herdsRun s = true → (getPort s p).loop ≠ .near → (getLane s p).chk ≠ 0 → ∃ t, exec
    (.checkerLock p bits) s = .next t ∧ (getLane t p).chkLock = (checkRun (getLane s p).chk (freeNat s).1 bits
    (getLane s p).chkr (getLane s p).chkLock).2.1 ∧ (getLane t p).chkr = (checkRun (getLane s p).chk (freeNat s).1
    bits (getLane s p).chkr (getLane s p).chkLock).1 ∧ statGet (getPort t p) 0x210 = statGet (getPort s p) 0x210 +
    BitVec.ofNat 64 (checkRun (getLane s p).chk (freeNat s).1 bits (getLane s p).chkr (getLane s
    p).chkLock).2.2.bits ∧ statGet (getPort t p) 0x218 = statGet (getPort s p) 0x218 + BitVec.ofNat 64 (checkRun
    (getLane s p).chk (freeNat s).1 bits (getLane s p).chkr (getLane s p).chkLock).2.2.errs ∧ statGet (getPort t p)
    0x228 = statGet (getPort s p) 0x228 + BitVec.ofNat 64 (checkRun (getLane s p).chk (freeNat s).1 bits (getLane s
    p).chkr (getLane s p).chkLock).2.2.seeds ∧ PortsBut p s t) ∧
  (∀ p s, (getLane s p).periodic.isSome = true → laneSends (getLane s p) = true → (getLane s p).live = true →
    herdsRun s = true → ∃ t, exec (.periodicInjection p) s = .next t ∧ statGet (getPort t p) 0x230 = statGet
    (getPort s p) 0x230 + 1 ∧ (getLane t p) = { (getLane s p) with flips := (getLane s p).flips + 1 } ∧ PortsBut p
    s t) ∧
  (∀ p s, (getLane s p).periodic.isSome = true → laneSends (getLane s p) = true → (getLane s p).live = false →
    (getLane s p).gen ≠ 0 → s.pwr.padsHeld = false → herdsRun s = true → ∃ t, exec (.periodicInjection p) s = .next
    t ∧ statGet (getPort t p) 0x230 = statGet (getPort s p) 0x230 + 1 ∧ Bus.pattern p (patternLevels ((getLane s
    p).mode == .l25) (invertFirst ((getLane s p).flips + 1) (patternRun (getLane s p).gen 5440 (getLane s
    p).genReg).1)) ∈ t.io.bus ∧ (getLane t p).flips = 0 ∧ PortsBut p s t)

/-- Negotiation (R98 to R110, R119, R128 to R131): base pages, the end of an attempt, the pages of the offer, its
resolution, DME in HOLD and T0. Where the bits of a Clause 73 page lie is PRESUMED: log 58. -/
def Obligations.NegotiationRows : Prop :=
  (∀ p s, negOpen (getPort s p) = true → (getPort s p).neg.basePages = false → herdsRun s = true → s.pwr.padsHeld =
    false → ∃ t, exec (.negBreakLinkExpiry p) s = .next t ∧ (getPort t p).neg =
    { (getPort s p).neg with basePages := true } ∧ t.io.bus = pageOut p (basePageBits (getPort s p).neg)
    (Config.pageBit s.mono (basePageBits (getPort s p).neg)) :: s.io.bus ∧ PortsBut p s t) ∧
  (∀ p s, negOpen (getPort s p) = true → (getPort s p).neg.gotBase = false → herdsRun s = true → attPar (getPort s
    p) 0x01 = 0 ∨ (getPort s p).attempts + 1 < attPar (getPort s p) 0x01 → ∃ t, exec (.negAttemptExpiry p) s =
    .next t ∧ (getPort t p).st = .negotiate ∧ (getPort t p).attempts = (getPort s p).attempts + 1 ∧ (getPort t
    p).neg.open_ = true ∧ Posted s t (portSrc p 2) 0 ∧ PortsBut p s t) ∧
  (∀ p s, negOpen (getPort s p) = true → (getPort s p).neg.gotBase = true → herdsRun s = true → attPar (getPort s
    p) 0x01 = 0 ∨ (getPort s p).attempts + 1 < attPar (getPort s p) 0x01 → ∃ t, exec (.negAttemptExpiry p) s =
    .next t ∧ (getPort t p).st = .negotiate ∧ (getPort t p).lastAbort = 6 ∧ (getPort t p).attempts = (getPort s
    p).attempts + 1 ∧ (getPort t p).neg.open_ = true ∧ Posted s t (portSrc p 2) 1 ∧ PortsBut p s t) ∧
  (∀ p s, negOpen (getPort s p) = true → (getPort s p).neg.gotBase = false → herdsRun s = true → attPar (getPort s
    p) 0x01 ≠ 0 → attPar (getPort s p) 0x01 ≤ (getPort s p).attempts + 1 → ∃ t, exec (.negAttemptExpiry p) s =
    .next t ∧ (getPort t p).st = .hold ∧ (getPort t p).lastAbort = (if (getPort s p).partnerPage then 3 else 2) ∧
    Posted s t (portSrc p 2) 1 ∧ PortsBut p s t) ∧
  (∀ p (page : BasePage) s, negOpen (getPort s p) = true → (getPort s p).neg.basePages = true → page.selector = 1 →
    herdsRun s = true → s.pwr.padsHeld = false → page.nonce ≠ (getPort s p).neg.nonce → page.np = true → page.ack =
    false ∨ page.echoed = (getPort s p).neg.nonce → (getPort s p).neg.gotBase = false → ∃ t, exec
    (.basePageReceived p page) s = .next t ∧ (getPort t p).neg =
    { (getPort s p).neg with gotBase := true, pNonce := page.nonce, myModes := herdOffer (getHerd s (herdOf p)), myModeFixed := modeIsFixed (getHerd s (herdOf p)), myFecs := BitVec.ofNat 2 (attPar (getPort s p) 0x05), page := 0 }
    ∧ t.io.bus = pageOut p (offerPage p (getPort t p).neg 0) (Config.pageBit s.mono (offerPage p (getPort t p).neg
    0)) :: pageOut p (basePageBits (getPort t p).neg) (Config.pageBit s.mono (basePageBits (getPort t p).neg)) ::
    s.io.bus ∧ PortsBut p s t) ∧
  (∀ p (page : BasePage) s, negOpen (getPort s p) = true → (getPort s p).neg.basePages = true → page.selector = 1 →
    herdsRun s = true → page.nonce = (getPort s p).neg.nonce → attPar (getPort s p) 0x01 = 0 ∨ (getPort s
    p).attempts + 1 < attPar (getPort s p) 0x01 → ∃ t, exec (.basePageReceived p page) s = .next t ∧ (getPort t
    p).st = .negotiate ∧ (getPort t p).lastAbort = 4 ∧ (getPort t p).attempts = (getPort s p).attempts + 1 ∧
    (getPort t p).neg.open_ = true ∧ Posted s t (portSrc p 2) 1 ∧ PortsBut p s t ∧ (getPort t p).partnerPage =
    ((getPort s p).partnerPage || (getPort s p).neg.gotBase)) ∧
  (∀ p (page : BasePage) s, negOpen (getPort s p) = true → (getPort s p).neg.basePages = true → page.selector = 1 →
    herdsRun s = true → page.nonce ≠ (getPort s p).neg.nonce → page.ack = true → page.echoed ≠ (getPort s
    p).neg.nonce → ∃ t, exec (.basePageReceived p page) s = .next t ∧ (getPort t p).st = .negotiate ∧ (getPort t
    p).neg.open_ = true ∧ (getPort t p).neg.basePages = false ∧ (getPort t p).attempts = (getPort s p).attempts) ∧
  (∀ p (reads : List (CtxKey × CtxRead)) (k : BitVec 11) (u : BitVec 32) s, negOpen (getPort s p) = true → (getPort
    s p).neg.gotBase = true → herdsRun s = true → s.pwr.padsHeld = false → k ≠ 5 → ∃ t, exec (.nextPageReceived p
    (.message k u) reads) s = .next t ∧ (getPort t p).neg = (getPort s p).neg ∧ t.io.bus = pageOut p (offerPage p
    (getPort s p).neg (getPort s p).neg.page) (Config.pageBit s.mono (offerPage p (getPort s p).neg (getPort s
    p).neg.page)) :: s.io.bus ∧ PortsBut p s t) ∧
  (∀ p (reads : List (CtxKey × CtxRead)) s, negOpen (getPort s p) = true → (getPort s p).neg.gotBase = true →
    herdsRun s = true → s.pwr.padsHeld = false → ∃ t, exec (.nextPageReceived p (.message 5 0x015AC07E) reads) s =
    .next t ∧ (getPort t p).neg = { (getPort s p).neg with gotOffer := true, page := 1 } ∧ t.io.bus = pageOut p
    (offerPage p (getPort t p).neg 1) (Config.pageBit s.mono (offerPage p (getPort t p).neg 1)) :: s.io.bus ∧
    PortsBut p s t) ∧
  (∀ p (reads : List (CtxKey × CtxRead)) (d : BitVec 11) (u : BitVec 32) s, negOpen (getPort s p) = true → (getPort
    s p).neg.gotBase = true → (getPort s p).neg.gotOffer = true → herdsRun s = true → s.pwr.padsHeld = false → ∃ t,
    exec (.nextPageReceived p (.unformatted 1 d u) reads) s = .next t ∧ (getPort t p).neg =
    { (getPort s p).neg with version := d.setWidth 8, tag := u.setWidth 39, page := 2 } ∧ t.io.bus = pageOut p
    (offerPage p (getPort t p).neg 2) (Config.pageBit s.mono (offerPage p (getPort t p).neg 2)) :: s.io.bus ∧
    PortsBut p s t) ∧
  (∀ p (reads : List (CtxKey × CtxRead)) (d : BitVec 11) (u : BitVec 32) (n : Neg) s, negOpen (getPort s p) = true
    → (getPort s p).neg.gotBase = true → (getPort s p).neg.gotOffer = true → herdsRun s = true → s.pwr.padsHeld =
    false → n =
    { (getPort s p).neg with tag := ((getPort s p).neg.tag &&& 0xFFFFFFFF) ||| ((d.setWidth 7).setWidth 39 <<< 32), port := u.setWidth 9, modes := (u >>> 9).setWidth 5, modeFixed := u.getLsbD 14, fecs := (u >>> 15).setWidth 2 }
    → ∃ t, exec (.nextPageReceived p (.unformatted 2 d u) reads) s = .next t ∧ (getPort t p).neg =
    { loadRole s p n with page := 3 } ∧ t.io.bus = pageOut p (offerPage p (getPort t p).neg 3) (Config.pageBit
    s.mono (offerPage p (getPort t p).neg 3)) :: s.io.bus ∧ PortsBut p s t) ∧
  (∀ p (reads : List (CtxKey × CtxRead)) (d : BitVec 11) (u : BitVec 32) s, negOpen (getPort s p) = true → (getPort
    s p).neg.gotBase = true → (getPort s p).neg.gotOffer = true → herdsRun s = true → s.pwr.padsHeld = false → ∃ t,
    exec (.nextPageReceived p (.unformatted 4 d u) reads) s = .next t ∧ (getPort t p).neg =
    { (getPort s p).neg with ctxValid := d.getLsbD 0, pSig := u, page := 5 } ∧ t.io.bus = pageOut p (offerPage p
    (getPort t p).neg 5) (Config.pageBit s.mono (offerPage p (getPort t p).neg 5)) :: s.io.bus ∧ PortsBut p s t) ∧
  (∀ p (reads : List (CtxKey × CtxRead)) (u : BitVec 32) (n : Neg) (m : LineMode) (f : BitVec 8) (r : Role) s,
    negOpen (getPort s p) = true → (getPort s p).neg.gotBase = true → (getPort s p).neg.gotOffer = true → herdsRun
    s = true → s.pwr.padsHeld = false → n = { (getPort s p).neg with pGen := u } → commonMode n = some m →
    commonFec (attPar (getPort s p) 0x05) n.fecs m = some f → resolveRole n = some r → (getHerd s (herdOf
    p)).resolved = some m ∨ (getHerd s (herdOf p)).resolved = none → ctxMatch n = none → ∃ t, exec
    (.nextPageReceived p (.unformatted 5 0 u) reads) s = .next t ∧ (getPort t p).st = .t0 ∧ (getPort t p).mode = m
    ∧ (getPort t p).fec = f ∧ (getPort t p).role = some r ∧ (getPort t p).partner = partnerId n ∧ (getPort t
    p).startPath = 2 ∧ (getHerd t (herdOf p)).resolved = some m ∧ (∀ q, q ≠ p → (getPort t q).st = (getPort s q).st
    ∧ (getPort t q).role = (getPort s q).role ∧ (getPort t q).neg = (getPort s q).neg)) ∧
  (∀ p (reads : List (CtxKey × CtxRead)) (u : BitVec 32) (n : Neg) (m : LineMode) (f : BitVec 8) (r : Role) (e :
    Ctx) s, negOpen (getPort s p) = true → (getPort s p).neg.gotBase = true → (getPort s p).neg.gotOffer = true →
    herdsRun s = true → s.pwr.padsHeld = false → n = { (getPort s p).neg with pGen := u } → commonMode n = some m →
    commonFec (attPar (getPort s p) 0x05) n.fecs m = some f → resolveRole n = some r → (getHerd s (herdOf
    p)).resolved = some m ∨ (getHerd s (herdOf p)).resolved = none → ctxMatch n = some e → ∃ t, exec
    (.nextPageReceived p (.unformatted 5 0 u) reads) s = .next t ∧ (getPort t p).st = .springbok ∧ (getPort t
    p).mode = m ∧ (getPort t p).fec = f ∧ (getPort t p).role = some r ∧ (getPort t p).startPath = 1 ∧ (getPort t
    p).start.ctx = some e ∧ (∀ q, q ≠ p → (getPort t q).st = (getPort s q).st ∧ (getPort t q).role = (getPort s
    q).role ∧ (getPort t q).neg = (getPort s q).neg)) ∧
  (∀ p s, herdsRun s = true → (getPort s p).st = .hold → ∃ t, exec (.dmeReceived p) s = .next t ∧ (getPort t
    p).partnerSeen = true ∧ (getPort t p).st = .hold ∧ PortsBut p s t ∧ OnlyIn [.ports] s t) ∧
  (∀ p s, herdsRun s = true → (getPort s p).st = .t0 → attPar (getPort s p) 0x01 = 0 ∨ (getPort s p).attempts + 1 <
    attPar (getPort s p) 0x01 → ∃ t, exec (.dmeReceived p) s = .next t ∧ (getPort t p).st = .negotiate ∧ (getPort t
    p).attempts = (getPort s p).attempts + 1 ∧ Posted s t (portSrc p 2) 0 ∧ PortsBut p s t)

/-- Springbok (R112 to R114, R154): the start instant with a good and a bad context, the passed check, its expiry. -/
def Obligations.SpringbokRows : Prop :=
  (∀ p (e : Ctx) (read : CtxRead) s, (getPort s p).st = .springbok → (getPort s p).line.on = false → (getPort s
    p).start.ctx = some e → readCause p e read = 0 → herdsRun s = true → ∃ t, exec (.springbokStartInstant p read)
    s = .next t ∧ (getPort t p).line.on = true ∧ (getPort t p).freqWord = (if (getPort s p).role = some .slave then
    e.freqWord else 0) ∧ (getPort t p).pairs.a.coef = e.coefs.pairs.a ∧ (getPort t p).pairs.b.phase = e.phases.b ∧
    (getPort t p).pairs.c.deskew = e.deskews.c ∧ (getPort t p).pairs.d.analogGain = e.coefs.again.d ∧ (getPort t
    p).pairs.d.canLevel = 1 ∧ (getPort t p).st = .springbok) ∧
  (∀ p (e : Ctx) (read : CtxRead) s, (getPort s p).st = .springbok → (getPort s p).line.on = false → (getPort s
    p).start.ctx = some e → readCause p e read ≠ 0 → herdsRun s = true → ∃ t, exec (.springbokStartInstant p read)
    s = .next t ∧ (getPort t p).st = .t0 ∧ (getPort t p).startPath = 2 ∧ persGet (getPort t p) 0xC8 = persGet
    (getPort s p) 0xC8 + 1 ∧ ((findCtx s p { partner := e.partner, sig := e.sig }).all fun d => (getDir t
    p).entries.all fun z => z.entry != d.entry) = true) ∧
  (∀ p s, (getPort s p).st = .springbok → (getPort s p).line.on = true → (getPort s p).start.checkPass = false →
    (getPort s p).role = some .master → marginCheck (getPort s p) = true → herdsRun s = true → ∃ t, exec
    (.springbokCheckPass p) s = .next t ∧ (getPort t p).start.checkPass = true ∧ (getPort t p).start.capsSent =
    true ∧ (getPort t p).linkGen = springbokGen (getPort s p) ∧ PortsBut p s t ∧ OnlyIn [.ports] s t) ∧
  (∀ p s, marginCheck (getPort s p) = false → ∃ t, exec (.springbokCheckPass p) s = .next t ∧ t = s) ∧
  (∀ p s, (getPort s p).st = .springbok → herdsRun s = true → ∃ t, exec (.springbokCheckExpiry p) s = .next t ∧
    (getPort t p).st = .t0 ∧ (getPort t p).startPath = 2 ∧ persGet (getPort t p) 0xC8 = persGet (getPort s p) 0xC8
    + 1 ∧ PortsBut p s t)

/-- Tahr (R116 to R123): the phases T0 to T3 and what moves a port from one to the next. -/
def Obligations.TahrPhases : Prop :=
  (∀ p s, (getPort s p).st = .t0 → herdsRun s = true → ∃ t, exec (.t0CalibrationDone p) s = .next t ∧ (getPort t
    p).start = { (getPort s p).start with calibrated := true } ∧ (getPort t p).st = .t0 ∧ PortsBut p s t ∧ OnlyIn
    [.fresh, .ports] s t) ∧
  (∀ p s, (getPort s p).st = .t0 → (getPort s p).start.calibrated = true → (getPort s p).role = some .master →
    herdsRun s = true → (getPort s p).start.locked = false → ∃ t, exec (.t0Burst p) s = .next t ∧ (getPort t
    p).line.train = some (trainWord 1 0 false false false, symbolsIn (getPort s p).mode 1000) ∧ (getPort t p).start
    = (getPort s p).start ∧ PortsBut p s t ∧ OnlyIn [.ports] s t) ∧
  (∀ p s, (getPort s p).st = .t0 → (getPort s p).start.calibrated = true → (getPort s p).role = some .master →
    herdsRun s = true → (getPort s p).start.locked = true → ∃ t, exec (.t0Burst p) s = .next t ∧ (getPort t p).st =
    .t1 ∧ (getPort t p).start.window = 1 ∧ (getPort t p).line.train = some (trainWord 2 1 false false false,
    symbolsIn (getPort s p).mode 1970) ∧ (getPort t p).pairs.c.canLevel = 0) ∧
  (∀ p s, (getPort s p).st = .t0 → (getPort s p).start.calibrated = true → herdsRun s = true → trainLocked (getPort
    s p) = true → (getPort s p).role = some .slave → ∃ t, exec (.t0SlaveReply p) s = .next t ∧ (getPort t
    p).start.locked = true ∧ (getPort t p).line.train = some (trainWord 1 0 true false false, symbolsIn (getPort s
    p).mode 900) ∧ PortsBut p s t ∧ OnlyIn [.ports] s t) ∧
  (∀ p s, (getPort s p).st = .t0 → (getPort s p).start.calibrated = true → herdsRun s = true → trainLocked (getPort
    s p) = true → (getPort s p).role = some .master → ∃ t, exec (.t0SlaveReply p) s = .next t ∧ (getPort t
    p).start.locked = true ∧ (getPort t p).line = (getPort s p).line ∧ PortsBut p s t ∧ OnlyIn [.ports] s t) ∧
  (∀ p s, trainLocked (getPort s p) = false → ∃ t, exec (.t0SlaveReply p) s = .next t ∧ t = s) ∧
  (∀ p (a : BitVec 32) s, (getPort s p).st = .t0 → (getPort s p).role = some .slave → (getPort s
    p).start.calibrated = true → herdsRun s = true → trainOk a a = true → fld a 28 4 = 2 → ∃ t, exec
    (.trainWordAccepted p a a) s = .next t ∧ (getPort t p).st = .t1 ∧ (getPort t p).start.window = fld a 20 8 ∧
    (getPort t p).pairs.b.canLevel = 0) ∧
  (∀ p (a : BitVec 32) s, (getPort s p).st = .t1 → herdsRun s = true → trainOk a a = true → fld a 28 4 = 2 → ∃ t,
    exec (.trainWordAccepted p a a) s = .next t ∧ (getPort t p).start.tracking = a.getLsbD 18 ∧ (getPort t p).st =
    .t1 ∧ PortsBut p s t ∧ OnlyIn [.ports] s t) ∧
  (∀ p (a b : BitVec 32) s, trainOk a b = false → ∃ t, exec (.trainWordAccepted p a b) s = .next t ∧ t = s) ∧
  (∀ p s, (getPort s p).st = .t1 → herdsRun s = true → (getPort s p).start.lastAt = 0 → (getPort s p).start.window
    + 1 < 31 → (getPort s p).start.window ≠ 1 → ∃ t, exec (.t1WindowStart p) s = .next t ∧ (getPort t p).st = .t1 ∧
    (getPort t p).start.window = (getPort s p).start.window + 1 ∧ (getPort t p).start.tracking = false ∧ ((getPort
    s p).role = some .slave → (getPort s p).start.window % 2 = 1 → (getPort t p).line.train = some (trainWord 2
    ((getPort s p).start.window + 1) false (outOfAcq (trainingEnd (fun a => (aggrOf s (herdOf p) a).on) (getPort s
    p))) false, symbolsIn (getPort s p).mode 1970)) ∧ PortsBut p s t) ∧
  (∀ p s, (getPort s p).st = .t1 → herdsRun s = true → ((getPort s p).start.lastAt ≠ 0 ∧ (getPort s p).start.lastAt
    + 2 ≤ (getPort s p).start.window + 1) ∨ 31 ≤ (getPort s p).start.window + 1 → ∃ t, exec (.t1WindowStart p) s =
    .next t ∧ (getPort t p).st = .t2 ∧ (getPort t p).line.on = true ∧ (getPort t p).info = Info.fresh ∧ PortsBut p
    s t) ∧
  (∀ p s, (getPort s p).st = .t2 → (getPort s p).role = some .master → t2Met (getPort s p) = true → herdsRun s =
    true → ∃ t, exec (.t2CriteriaMet p) s = .next t ∧ (getPort t p).st = .t3 ∧ (getPort t p).start.capsSent = true
    ∧ t.fresh = s.fresh + 1 ∧ PortsBut p s t) ∧
  (∀ p s, t2Met (getPort s p) = false → ∃ t, exec (.t2CriteriaMet p) s = .next t ∧ t = s)

/-- R43, R119, R128, R129: each phase that fails or takes too long is aborted with its cause. -/
def Obligations.TahrAborts : Prop :=
  (∀ p (errs skews : List Nat) s, (getPort s p).st = .t0 → herdsRun s = true → (quadList (getPort s
    p).lock.frame).all id = true → markerFound errs = true → (skews.take 4).any (fun k => decide (64 < k)) = true →
    attPar (getPort s p) 0x01 = 0 ∨ (getPort s p).attempts + 1 < attPar (getPort s p) 0x01 → ∃ t, exec
    (.markerLockChange p errs skews) s = .next t ∧ (getPort t p).st = .negotiate ∧ (getPort t p).lastAbort = 8 ∧
    (getPort t p).attempts = (getPort s p).attempts + 1 ∧ (getPort t p).neg.open_ = true ∧ Posted s t (portSrc p 2)
    1 ∧ PortsBut p s t) ∧
  (∀ p s, (getPort s p).st = .t0 → herdsRun s = true → attPar (getPort s p) 0x01 = 0 ∨ (getPort s p).attempts + 1 <
    attPar (getPort s p) 0x01 → ∃ t, exec (.t0DetectTimeout p) s = .next t ∧ (getPort t p).st = .negotiate ∧
    (getPort t p).lastAbort = 7 ∧ (getPort t p).attempts = (getPort s p).attempts + 1 ∧ (getPort t p).neg.open_ =
    true ∧ Posted s t (portSrc p 2) 1 ∧ PortsBut p s t) ∧
  (∀ p s, (getPort s p).st = .t2 → herdsRun s = true → attPar (getPort s p) 0x01 = 0 ∨ (getPort s p).attempts + 1 <
    attPar (getPort s p) 0x01 → ∃ t, exec (.t2ConvergenceTimeout p) s = .next t ∧ (getPort t p).st = .negotiate ∧
    (getPort t p).lastAbort = 9 ∧ (getPort t p).attempts = (getPort s p).attempts + 1 ∧ (getPort t p).neg.open_ =
    true ∧ Posted s t (portSrc p 2) 1 ∧ PortsBut p s t) ∧
  (∀ p s, (getPort s p).st = .t3 → herdsRun s = true → attPar (getPort s p) 0x01 = 0 ∨ (getPort s p).attempts + 1 <
    attPar (getPort s p) 0x01 → ∃ t, exec (.t3CapsTimeout p) s = .next t ∧ (getPort t p).st = .negotiate ∧ (getPort
    t p).lastAbort = 10 ∧ (getPort t p).attempts = (getPort s p).attempts + 1 ∧ (getPort t p).neg.open_ = true ∧
    Posted s t (portSrc p 2) 1 ∧ PortsBut p s t)

/-- The InfoField (R47, R48, R50, R200, R312): a failing CRC discards it; a LOOP_SET acts and is acknowledged; a
message that stays unacknowledged is sent no more and ends its command. -/
def Obligations.InfoFieldRows : Prop :=
  (∀ p (bits : BitVec 128) s, crc32c (beBytes 12 (((bits >>> 32).setWidth 96 : BitVec 96)).toNat) ≠ bits.setWidth
    32 → ∃ t, exec (.infofieldReceived p bits) s = .next t ∧ t = s) ∧
  (∀ p (bits : BitVec 128) s, crc32c (beBytes 12 (((bits >>> 32).setWidth 96 : BitVec 96)).toNat) = bits.setWidth
    32 → (getPort s p).st = .up → (getPort s p).lock.marker = true → herdsRun s = true → (getPort s p).info.current
    = none → (bits >>> 120).setWidth 8 = (0x10 : BitVec 8) → (bits >>> 112).setWidth 8 ≠ (getPort s p).info.ackSeq
    → bits.getLsbD 32 = true → (getPort s p).loop = .none → (getPort s p).info.myCaps.getLsbD 54 = true → ∃ t, exec
    (.infofieldReceived p bits) s = .next t ∧ (getPort t p).loop = .looping ∧ (getPort t p).info.ackSeq = (bits >>>
    112).setWidth 8 ∧ PortsBut p s t ∧ OnlyIn [.ports] s t) ∧
  (∀ p (bits : BitVec 128) s, crc32c (beBytes 12 (((bits >>> 32).setWidth 96 : BitVec 96)).toNat) = bits.setWidth
    32 → (getPort s p).st = .up → (getPort s p).info.current = none → (bits >>> 112).setWidth 8 = (getPort s
    p).info.ackSeq → ∃ t, exec (.infofieldReceived p bits) s = .next t ∧ (getPort t p) = (getPort s p) ∧ t.waits =
    s.waits ∧ PortsBut p s t) ∧
  (∀ c p (m : Msg) s, Runs s c → (getPort s p).info.current = some m → m.type = 0x10 → m.cmd = some c → Wait.loop p
    c (m.payload.getLsbD 0) ∈ s.waits → herdsRun s = true → ∃ t, exec (.infofieldRetryExpiry p) s = .next t ∧
    t.waits = s.waits.erase (.loop p c (m.payload.getLsbD 0)) ∧ (getPort t p).info = infoNext
    { (getPort s p).info with current := none } ∧ Answered s t c 0x0107 stTimeout 0) ∧
  (∀ c p (m : Msg) s, Runs s c → (getPort s p).info.current = some m → m.type = 0x20 → m.cmd = some c → (pairedOf s
    c).isSome = true → herdsRun s = true → ∃ t, exec (.infofieldRetryExpiry p) s = .next t ∧ t.waits = (unpair s
    c).waits ∧ (getPort t p).info = infoNext { (getPort s p).info with current := none } ∧ Answered s t c 0x0301
    stTimeout 0) ∧
  (∀ p (m : Msg) s, (getPort s p).info.current = some m → m.cmd = none → herdsRun s = true → ∃ t, exec
    (.infofieldRetryExpiry p) s = .next t ∧ (getPort t p) =
    { (getPort s p) with info := infoNext { (getPort s p).info with current := none } } ∧ PortsBut p s t ∧ OnlyIn
    [.ports] s t)

/-- Locks and losses in training (R42, R96, R97, R126, R127), with the figures each is judged by; a loss of signal in
T1 to T3 leads to T0. -/
def Obligations.LockRows : Prop :=
  (∀ p (i : PairId) (b : Bool) (n : Nat) s, herdsRun s = true → ∃ t, exec (.superframeLockChange p i b n) s = .next
    t ∧ (getPort t p).lock =
    { (getPort s p).lock with frame := quadSet (getPort s p).lock.frame i (b || (quadGet (getPort s p).lock.frame i && decide (n < 8))) }
    ∧ (getPort t p).st = (getPort s p).st ∧ PortsBut p s t) ∧
  (∀ p (errs skews : List Nat) s, (quadList (getPort s p).lock.frame).all id = true → markerFound errs = true →
    (getPort s p).st ≠ .t0 → herdsRun s = true → ∃ t, exec (.markerLockChange p errs skews) s = .next t ∧ (getPort
    t p).lock = { (getPort s p).lock with marker := true, missed := 0 } ∧ (getPort t p).line.rxSlot = 32 *
    superSlots (getPort s p).mode ∧ (getPort t p).pairs.b.deskew = BitVec.ofNat 7 (skews.getD 1 0) ∧ PortsBut p s t
    ∧ OnlyIn [.ports] s t) ∧
  (∀ p (errs skews : List Nat) s, (quadList (getPort s p).lock.frame).all id = true → markerFound errs = false →
    lineSleeps (getPort s p) = false → herdsRun s = true → ∃ t, exec (.markerLockChange p errs skews) s = .next t ∧
    (getPort t p).lock =
    { (getPort s p).lock with missed := (getPort s p).lock.missed + 1, marker := (getPort s p).lock.marker && decide ((getPort s p).lock.missed + 1 < 4) }
    ∧ PortsBut p s t ∧ OnlyIn [.ports] s t) ∧
  (∀ p (rms peak : Nat) s, 150 < rms ∨ 500 < peak → herdsRun s = true → ∃ t, exec (.timingLockChange p rms peak) s
    = .next t ∧ (getPort t p).lock = { (getPort s p).lock with timing := false } ∧ (getPort t p).st = (getPort s
    p).st ∧ PortsBut p s t) ∧
  (∀ p (rms peak : Nat) s, rms < 50 → peak ≤ 500 → herdsRun s = true → ∃ t, exec (.timingLockChange p rms peak) s =
    .next t ∧ (getPort t p).lock = { (getPort s p).lock with timing := true } ∧ (getPort t p).st = (getPort s p).st
    ∧ PortsBut p s t) ∧
  (∀ p (rms peak : Nat) s, 50 ≤ rms → rms ≤ 150 → peak ≤ 500 → herdsRun s = true → ∃ t, exec (.timingLockChange p
    rms peak) s = .next t ∧ (getPort t p).lock = (getPort s p).lock ∧ (getPort t p).st = (getPort s p).st ∧
    PortsBut p s t) ∧
  (∀ p (i : PairId) s, (quadGet (getPort s p).pairs i).far.length = 4 → (quadGet (getPort s p).pairs i).far.all
    (farAtLeast · 12) = true → herdsRun s = true → ∃ t, exec (.signalDetectChange p i) s = .next t ∧ (getPort t
    p).lock = { (getPort s p).lock with signal := quadSet (getPort s p).lock.signal i true } ∧ (getPort t p).st =
    (getPort s p).st ∧ PortsBut p s t) ∧
  (∀ p (i : PairId) s, (quadGet (getPort s p).pairs i).far.length = 4 → (quadGet (getPort s p).pairs i).far.all
    (!farAtLeast · 6) = true → herdsRun s = true → ∃ t, exec (.signalDetectChange p i) s = .next t ∧ (getPort t
    p).lock = { (getPort s p).lock with signal := quadSet (getPort s p).lock.signal i false } ∧ (getPort t p).st =
    (getPort s p).st ∧ PortsBut p s t) ∧
  (∀ p s, ((getPort s p).st = .t1 ∧ ownWindow (getPort s p) = false) ∨ (getPort s p).st = .t2 ∨ (getPort s p).st =
    .t3 → allSignal (getPort s p) = false → herdsRun s = true → ∃ t, exec (.signalLossExpiry p) s = .next t ∧
    (getPort t p).st = .t0 ∧ (getPort t p).lastAbort = 1 ∧ (getPort t p).attempts = (getPort s p).attempts ∧
    (getPort t p).start.calibrated = true ∧ Posted s t (portSrc p 2) 1 ∧ PortsBut p s t) ∧
  (∀ p s, (getPort s p).st = .t1 → ownWindow (getPort s p) = true → ∃ t, exec (.signalLossExpiry p) s = .next t ∧ t
    = s)

/-- Line slots and host-in codewords (R46, R116, R158 to R168, R206, R229). What a slot does from the shares its
decisions give is said of frameSlot, which the first clause shows the command to be. -/
def Obligations.LineRows : Prop :=
  (∀ p (slot : RxSlot) s, rxPhase (getPort s p) = some .duplex → lineClocked s p = true → slotFramed (getPort s p)
    = true → ∃ t, exec (.lineSlotReceived p slot) s = .next t ∧ t = frameSlot (rxShares (rxStretch s p .duplex
    slot).1 p (rxStretch s p .duplex slot).2).1 p (rxShares (rxStretch s p .duplex slot).1 p (rxStretch s p .duplex
    slot).2).2 slot) ∧
  (∀ p (slot : RxSlot) (l : List (Fin 544 × BitVec 10)) s, rxPhase (getPort s p) = some .duplex → lineClocked s p =
    true → slotFramed (getPort s p) = true → slotClass ((quadList (rxShares (rxStretch s p .duplex slot).1 p
    (rxStretch s p .duplex slot).2).2).flatMap leadWords) = none → slot.verdict = .ok l → (getPort s p).st = .up →
    (getPort s p).lpi.st = .active → (getPort s p).loop = .none → (getPort s p).fec = 0 → laneSends (getPort s
    p).lane = true → (getPort s p).lane.gen = 0 → (getPort s p).lane.live = false → ∃ t, exec (.lineSlotReceived p
    slot) s = .next t ∧ statGet (getPort t p) 0x10 = statGet (getPort s p) 0x10 + 1 ∧ t.io.bus = .hostOut p
    "codeword" (rsSymbols (quadGet (rxShares (rxStretch s p .duplex slot).1 p (rxStretch s p .duplex slot).2).2))
    :: s.io.bus ∧ (getPort t p).st = .up ∧ PortsBut p s t) ∧
  (∀ p (sh : Quad (List Bool)) (slot : RxSlot) s, slotClass ((quadList sh).flatMap leadWords) = none → slot.verdict
    = .uncorrectable → ((true :: (getPort s p).dp.uncorr).take 4096).count true ≤ livePar (getPort s p) 0x08 →
    (getPort s p).st = .up → (getPort s p).lpi.st = .active → (getPort s p).loop = .none → (getPort s p).fec = 0 →
    ∃ t, frameSlot s p sh slot = t ∧ statGet (getPort t p) 0x10 = statGet (getPort s p) 0x10 + 1 ∧ statGet (getPort
    t p) 0x20 = statGet (getPort s p) 0x20 + 1 ∧ Posted s t (portSrc p 4) 1 ∧ (getPort t p).st = .up ∧ PortsBut p s
    t) ∧
  (∀ p (sh : Quad (List Bool)) (slot : RxSlot) s, slotClass ((quadList sh).flatMap leadWords) = some codeIdle →
    (getPort s p).line.rxSleeping = false → (getPort s p).st = .up → (getPort s p).lpi.st = .active → (getPort s
    p).loop = .none → (getPort s p).fec = 0 → laneSends (getPort s p).lane = true → (getPort s p).lane.gen = 0 →
    (getPort s p).lane.live = false → ∃ t, frameSlot s p sh slot = t ∧ statGet (getPort t p) 0x30 = statGet
    (getPort s p) 0x30 + 5440 ∧ t.io.bus = .hostOut p "idle" (Config.idleCode false (getPort s p).dp.outNo (getPort
    s p).dp.lastOut) :: s.io.bus ∧ (getPort t p).lpi.st = .active ∧ PortsBut p s t) ∧
  (∀ p (sh : Quad (List Bool)) (slot : RxSlot) s, slotClass ((quadList sh).flatMap leadWords) = some codeAlert →
    (getPort s p).st = .up → (getPort s p).lpi.st = .quiet → (getPort s p).loop = .none → ∃ t, frameSlot s p sh
    slot = t ∧ (getPort t p).lpi.st = .wake ∧ (getPort t p).line.alertLeft = 8 ∧ (getPort t p).line.wakeGo = false
    ∧ statGet (getPort t p) 0x90 = statGet (getPort s p) 0x90 + 1 ∧ PortsBut p s t) ∧
  (∀ p (q : HostCw) (l : List HostCw) s, lineClocked s p = true → (getPort s p).loop ≠ .digital → (getPort s
    p).line.train = none → (getPort s p).line.on = true → (getPort s p).st = .up → (getPort s p).lpi.st = .active →
    (getPort s p).line.infoLeft = 0 → (getPort s p).dp.cwLock = true → (getPort s p).dp.elastic = q :: l → q.kind ≠
    .idle → ∃ t, exec (.lineSlotTransmit p) s = .next t ∧ t.io.bus = .slot p (quadMap dacSamples (lineSlot (getPort
    s p) (.cw (lineSymbols (getPort s p) q))).1) :: s.io.bus ∧ (getPort t p).dp.elastic = l ∧ (getPort t
    p).line.slotNo = ((getPort s p).line.slotNo + 1) % 16384 ∧ PortsBut p s t) ∧
  (∀ p s, lineClocked s p = true → (getPort s p).loop ≠ .digital → (getPort s p).line.train = none → (getPort s
    p).line.on = true → (getPort s p).st = .up → (getPort s p).lpi.st = .quiet → (getPort s p).loop = .none → ∃ t,
    exec (.lineSlotTransmit p) s = .next t ∧ (getPort t p).line =
    { (lineSlot (getPort s p) (.ordered codeIdle)).2 with rxSlot := ((getPort s p).line.rxSlot + 1) % 16384 } ∧
    (getPort t p).lpi = (getPort s p).lpi ∧ (∀ k, Bus.slot p k ∈ t.io.bus → Bus.slot p k ∈ s.io.bus) ∧ PortsBut p s
    t ∧ OnlyIn [.ports, .io] s t) ∧
  (∀ p (w : BitVec 32) (n : Nat) s, lineClocked s p = true → (getPort s p).loop ≠ .digital → (getPort s
    p).line.train = some (w, n) → ∃ t, exec (.lineSlotTransmit p) s = .next t ∧ t.io.bus = .slot p (quadMap
    dacSamples (trainSlot (getPort s p) w (min n (slotSymbols (getPort s p).mode))).1) :: s.io.bus ∧ (getPort t
    p).line.train = (if n ≤ slotSymbols (getPort s p).mode then none else some (w, n - slotSymbols (getPort s
    p).mode)) ∧ PortsBut p s t ∧ OnlyIn [.ports, .io] s t) ∧
  (∀ p (q : HostCw) s, (getPort s p).dp.cwLock = true → (getPort s p).lane.st ≠ .idle → herdsRun s = true →
    (getPort s p).st = .up → (getPort s p).loop = .none → (getPort s p).lpi.st = .active → (getPort s
    p).line.infoLeft = 0 → (getPort s p).fec = 1 → (hostGroup (getPort s p) q).kind = .data → (getPort s p).dp.wake
    = [] → (getPort s p).dp.elastic.length < adapterRoom → ∃ t, exec (.hostCodewordReceived p q) s = .next t ∧
    (getPort t p).dp.elastic = (getPort s p).dp.elastic ++ [hostGroup (getPort s p) q] ∧ (getPort t p).active =
    true ∧ (getPort t p).lpi.st = .active ∧ PortsBut p s t) ∧
  (∀ p (q : HostCw) s, (getPort s p).dp.cwLock = true → (getPort s p).lane.st ≠ .idle → herdsRun s = true →
    (getPort s p).st = .up → (getPort s p).loop = .none → (getPort s p).lpi.st = .active → (getPort s
    p).line.infoLeft = 0 → (getPort s p).fec = 0 → (hostGroup (getPort s p) q).kind = .data → 2 ≤ (getPort s
    p).dp.elastic.length → ∃ t, exec (.hostCodewordReceived p q) s = .next t ∧ (getPort t p).dp.elastic = (getPort
    s p).dp.elastic.drop 1 ++ [hostGroup (getPort s p) q] ∧ statGet (getPort t p) 0x68 = statGet (getPort s p) 0x68
    + 1 ∧ (∀ q, q ≠ p → (getPort t q).st = (getPort s q).st ∧ (getPort t q).stats = (getPort s q).stats)) ∧
  (∀ p (b : Bool) s, herdsRun s = true → ∃ t, exec (.hostinCwLockChange p b) s = .next t ∧ (getPort t p).dp.cwLock
    = b ∧ (getPort t p).dp.elastic = (if b && (getPort s p).fec = 0 && (getPort s p).st == .up && (getPort s
    p).loop != .looping then recentred (getPort s p) else (getPort s p).dp.elastic) ∧ (getPort t p).st = (getPort s
    p).st ∧ PortsBut p s t ∧ OnlyIn [.ports] s t)

/-- Line LPI (R202 to R221): LPI.CONFIG, the idle timer, refreshes, the end of a wake. -/
def Obligations.LpiRows : Prop :=
  (∀ c p (autoIdle events : BitVec 8) (timer : BitVec 32) s, Runs s c → myTurn s c = true → portGate s p = none →
    autoIdle.toNat ≤ 1 → events.toNat ≤ 1 → 5 ≤ timer.toNat → timer.toNat ≤ 10000 → ∃ t, exec (.lpiConfig c p 1
    autoIdle events timer) s = .next t ∧ (getPort t p) =
    { (getPort s p) with lpiCfg := { enable := true, autoIdle := autoIdle == 1, events := events == 1, timer := timer } }
    ∧ PortsBut p s t ∧ Answered s t c 0x0901 stOk 0) ∧
  (∀ c p (autoIdle events : BitVec 8) (timer : BitVec 32) s, Runs s c → myTurn s c = true → portGate s p = none →
    autoIdle.toNat ≤ 1 → events.toNat ≤ 1 → 5 ≤ timer.toNat → timer.toNat ≤ 10000 → (getPort s p).lpi.st = .quiet →
    ∃ t, exec (.lpiConfig c p 0 autoIdle events timer) s = .next t ∧ (getPort t p).lpiCfg.enable = false ∧ (getPort
    t p).lpi.st = .wake ∧ (getPort t p).line.alertLeft = 8 ∧ statGet (getPort t p) 0x90 = statGet (getPort s p)
    0x90 + 1 ∧ PortsBut p s t ∧ Answered s t c 0x0901 stOk 0) ∧
  (∀ p s, (getPort s p).dp.cwLock = true → herdsRun s = true → (getPort s p).st = .up → (getPort s p).lpi.st =
    .active → (getPort s p).lpiCfg.enable = true → (getPort s p).lpiCfg.autoIdle = true → (getPort s p).fec = 1 →
    (getPort s p).dp.wake = [] → (getPort s p).dp.lpiRun < 4 → ∃ t, exec (.autoIdleTimerExpiry p) s = .next t ∧
    (getPort t p).lpi.st = .request ∧ (getPort t p).lpi.trigger = 1 ∧ PortsBut p s t ∧ OnlyIn [.ports] s t) ∧
  (∀ p s, (getPort s p).st = .up → (getPort s p).lpi.st = .quiet → herdsRun s = true → (getPort s p).role ≠ some
    .slave ∨ anySignal (getPort s p) = true → ∃ t, exec (.lpiRefreshInstant p) s = .next t ∧ (getPort t p) =
    refreshNow s (getPort s p) (!anySignal (getPort s p)) ∧ (getPort t p).lpi.st = .refresh ∧ (getPort t p).lpi.due
    = !anySignal (getPort s p) ∧ PortsBut p s t ∧ OnlyIn [.ports] s t) ∧
  (∀ p s, (getPort s p).st = .up → (getPort s p).lpi.st = .quiet → herdsRun s = true → (getPort s p).role = some
    .slave → anySignal (getPort s p) = false → ∃ t, exec (.lpiRefreshInstant p) s = .next t ∧ (getPort t p) =
    { (getPort s p) with lpi := { (getPort s p).lpi with due := true } } ∧ PortsBut p s t ∧ OnlyIn [.ports] s t) ∧
  (∀ p s, (getPort s p).st = .up → (getPort s p).lpi.st = .refresh → herdsRun s = true → (getHerd s (herdOf p)).st
    ≠ .fwRestart → (getPort s p).lpi.extended = false ∨ atSuperframe (getPort s p) = true → refreshPasses (getPort
    s p) true = true → (getPort s p).role ≠ some .slave ∨ anySignal (getPort s p) = false → ∃ t, exec
    (.lpiRefreshEnd p true) s = .next t ∧ (getPort t p).lpi.st = .quiet ∧ (getPort t p).lpi.quietFrom = s.mono ∧
    PortsBut p s t ∧ OnlyIn [.fresh, .ports] s t) ∧
  (∀ p s, (getPort s p).st = .up → (getPort s p).lpi.st = .refresh → herdsRun s = true → (getHerd s (herdOf p)).st
    ≠ .fwRestart → (getPort s p).lpi.extended = false ∨ atSuperframe (getPort s p) = true → refreshPasses (getPort
    s p) true = true → (getPort s p).role = some .slave → anySignal (getPort s p) = true → ∃ t, exec
    (.lpiRefreshEnd p true) s = .next t ∧ (getPort t p).lpi = { (getPort s p).lpi with passed := true } ∧ PortsBut
    p s t ∧ OnlyIn [.fresh, .ports] s t) ∧
  (∀ p s, (getPort s p).st = .up → (getPort s p).lpi.st = .refresh → herdsRun s = true → (getPort s p).lpi.extended
    = false → (getHerd s (herdOf p)).st ≠ .fwRestart → ∃ t, exec (.lpiRefreshEnd p false) s = .next t ∧ (getPort t
    p).lpi.st = .refresh ∧ (getPort t p).lpi.extended = true ∧ statGet (getPort t p) 0xA0 = statGet (getPort s p)
    0xA0 + 1 ∧ (getPort t p).pairs.b.canLevel = 1 ∧ (getPort t p).pairs.c.eqLevel = 1 ∧ PortsBut p s t ∧ OnlyIn
    [.fresh, .ports] s t) ∧
  (∀ p s, (getPort s p).st = .up → (getPort s p).lpi.st = .wake → (getPort s p).line.wakeGo = false → (getPort s
    p).line.wakeRx = false → locksHeld (getPort s p) = true → lpiBlocked (getPort s p) = false → herdsRun s = true
    → ∃ t, exec (.lpiFirstCodewordInstant p) s = .next t ∧ (getPort t p).lpi.st = .active ∧ (getPort t p).st = .up
    ∧ PortsBut p s t)

/-- Adaptation (R67, R68, R82 to R92): surveys, levels, snapshots and reverts. -/
def Obligations.AdaptRows : Prop :=
  (∀ p (i : PairId) (l : List (Fin 2048 × Int)) (b : Bool) s, quadGet (getPort s p).survey i = some b → herdsRun s
    = true → ∃ t, exec (.bundleSurveyDone p i l) s = .next t ∧ quadGet (getPort t p).survey i = none ∧ (b = false →
    (quadGet (getPort t p).pairs i).slots = assignLater s p (quadGet (getPort s p).pairs i).slots (candidates s p
    l)) ∧ PortsBut p s t ∧ OnlyIn [.ports] s t) ∧
  (∀ p s, (getPort s p).st = .up → livePar (getPort s p) 0x12 ≠ 0 → herdsRun s = true → ∃ t, exec
    (.bundleResurveyExpiry p) s = .next t ∧ (∀ i, (quadGet (getPort t p).survey i).isSome = true) ∧ (getPort t
    p).pairs = (getPort s p).pairs ∧ PortsBut p s t ∧ OnlyIn [.ports] s t) ∧
  (∀ p s, adapts (getPort s p) = true → (getPort s p).st ≠ .t1 → herdsRun s = true → ∃ t, exec (.adaptAcqTimeout p)
    s = .next t ∧ (getPort t p) = { (getPort s p) with pairs := quadMap (liftPair s p 0) (getPort s p).pairs } ∧ (∀
    i, freezeBits s p (quadGet (getPort s p).pairs i) = 0 → 1 ≤ (quadGet (getPort t p).pairs i).canLevel) ∧
    PortsBut p s t ∧ OnlyIn [.ports] s t) ∧
  (∀ p (i : PairId) s, (getPort s p).st = .up → stable (getPort s p).mode (quadGet (getPort s p).pairs i).dsp =
    true → freezeBits s p (quadGet (getPort s p).pairs i) = 0 → herdsRun s = true → ∃ t, exec (.adaptFineEntry p i)
    s = .next t ∧ quadGet (getPort t p).pairs i = liftPair s p 1 (quadGet (getPort s p).pairs i) ∧ ((quadGet
    (getPort s p).pairs i).canLevel = 1 → (quadGet (getPort t p).pairs i).canLevel = 2) ∧ (getPort t p).st = .up ∧
    PortsBut p s t ∧ OnlyIn [.ports] s t) ∧
  (∀ p s, (getPort s p).st = .up → (getPort s p).wander.snap = none → (quadList (getPort s p).pairs).all (fun q =>
    adaptLevel q == 2) = true → controllerRuns s (herdOf p) = true → herdsRun s = true → ∃ t, exec (.wanderSnapshot
    p) s = .next t ∧ (getPort t p).wander.snap = some (liveCoefs (getPort s p)) ∧ (getPort t p).wander.snapAt =
    s.mono ∧ (getPort t p).pairs = (getPort s p).pairs ∧ PortsBut p s t) ∧
  (∀ p (k : Coefs) s, (getPort s p).wander.snap = some k → s.mono < (getPort s p).wander.snapAt + livePar (getPort
    s p) 0x16 * 1000000 → ∃ t, exec (.wanderSnapshot p) s = .next t ∧ t = s) ∧
  (∀ p (k : Coefs) s, (getPort s p).st = .up → (getPort s p).wander.snap = some k → livePar (getPort s p) 0x13 = 1
    → (getPort s p).wander.suspended = false → frozen s p = false → (quadList (getPort s p).pairs).any (fun q =>
    adaptLevel q == 0) = false → (getPort s p).wander.heldUntil ≤ s.mono → controllerRuns s (herdOf p) = true →
    wandered (getPort s p) k ≠ [] → herdsRun s = true → ∃ t, exec (.wanderCheck p) s = .next t ∧ (getPort t
    p).wander.reverts = (getPort s p).wander.reverts + 1 ∧ (getPort t p).pairs.a.digitalGain = k.gains.a ∧ (getPort
    t p).pairs.a.canLevel = 1 ∧ persGet (getPort t p) 0xD8 = persGet (getPort s p) 0xD8 + 1 ∧ Posted s t (portSrc p
    7) 1 ∧ PortsBut p s t)

/-- Herd timing (R54 to R56). -/
def Obligations.HerdTimingRows : Prop :=
  (∀ h s, (getHerd s h).timing = .trunkSlave ∨ (getHerd s h).timing = .handover → herdsRun s = true → ∃ t, exec
    (.handoverTrigger h) s = .next t ∧ (getHerd t h) = { (getHerd s h) with timing := .handover } ∧ HerdsBut h s t
    ∧ OnlyIn [.herds] s t) ∧
  (∀ h (k : Fin 8) s, (getHerd s h).timing = .handover → nextLead s h = some k → herdsRun s = true → ∃ t, exec
    (.handoverDone h) s = .next t ∧ (getHerd t h).timing = .trunkSlave ∧ (getHerd t h).lead = some k ∧ (getHerd t
    h).handovers = (if (getHerd s h).lead = some k then (getHerd s h).handovers else (getHerd s h).handovers + 1) ∧
    HerdsBut h s t ∧ OnlyIn [.ports, .herds] s t) ∧
  (∀ h s, (getHerd s h).timing = .handover → nextLead s h = none → herdsRun s = true → ∃ t, exec (.handoverDone h)
    s = .next t ∧ (getHerd t h).timing = .holdover ∧ (getHerd t h).lead = none ∧ (getHerd t h).trunk = (getHerd s
    h).trunk ∧ HerdsBut h s t ∧ OnlyIn [.ports, .herds] s t) ∧
  (∀ h s, (getHerd s h).timing = .holdover → herdsRun s = true → trunkForms (dissolve s h) h = false → ∃ t, exec
    (.holdoverTimeout h) s = .next t ∧ (getHerd t h) =
    { (getHerd s h) with timing := .perPort, lead := none, trunk := none } ∧ HerdsBut h s t ∧ OnlyIn [.ports,
    .herds] s t) ∧
  (∀ h s, (getHerd s h).timing = .holdover → herdsRun s = true → trunkForms (dissolve s h) h = true → (getPort s
    (portOf h 0)).role = some .master → ∃ t, exec (.holdoverTimeout h) s = .next t ∧ (getHerd t h).timing =
    .trunkMaster ∧ HerdsBut h s t)

/-- R394: FLT.ACK of a record whose cause holds is refused; with ALL = 1 it acknowledges every record whose cause has
ended, whatever its class. -/
def Obligations.AcknowledgedFaults : Prop :=
  (∀ c (record : BitVec 32) s, ∃ t, exec (.fltAck c record 1) s = .next t ∧ (∀ r ∈ s.flt.volatile, unacked r = true
    → causeHolds s r = false → { r with acked := true } ∈ t.flt.volatile)) ∧
  (∀ c (record : BitVec 32) (q : FltRec) (all : BitVec 8) s, Runs s c → all = 0 → (s.flt.volatile.filter
    unacked).find? (fun r => r.record == record) = some q → causeHolds s q = true → ∃ t, exec (.fltAck c record
    all) s = .next t ∧ t.flt = s.flt ∧ Answered s t c 0x0C02 stRefused 0xFF)

/-- R133, for every row that ends a link with cause 0x01 to 0x05: RELINK, as it was taken up at the last attempt
(R134), decides between NEGOTIATE and HOLD. -/
def Obligations.RelinkAfterLoss : Prop :=
  (∀ p s, (getPort s p).st = .up → allSignal (getPort s p) = false → herdsRun s = true → lpiJudges (getPort s p) =
    false → ∃ t, exec (.signalLossExpiry p) s = .next t ∧ (getPort t p).st = (if attPar (getPort s p) 0x02 = 1 then
    .negotiate else .hold) ∧ (getPort t p).lastDown = 1 ∧ persGet (getPort t p) 0xB8 = persGet (getPort s p) 0xB8 +
    1 ∧ Posted s t (portSrc p 1) 1 ∧ PortsBut p s t) ∧
  (∀ p s, (getPort s p).st = .up → allSignal (getPort s p) = true → (getPort s p).lock.timing = false → herdsRun s
    = true → ∃ t, exec (.timingLossExpiry p) s = .next t ∧ (getPort t p).st = (if attPar (getPort s p) 0x02 = 1
    then .negotiate else .hold) ∧ (getPort t p).lastDown = 2 ∧ persGet (getPort t p) 0xB8 = persGet (getPort s p)
    0xB8 + 1 ∧ Posted s t (portSrc p 1) 1 ∧ PortsBut p s t) ∧
  (∀ p s, (getPort s p).st = .up → allSignal (getPort s p) = true → (quadList (getPort s p).lock.frame).all id =
    false → herdsRun s = true → ∃ t, exec (.frameLossExpiry p) s = .next t ∧ (getPort t p).st = (if attPar (getPort
    s p) 0x02 = 1 then .negotiate else .hold) ∧ (getPort t p).lastDown = 3 ∧ persGet (getPort t p) 0xB8 = persGet
    (getPort s p) 0xB8 + 1 ∧ Posted s t (portSrc p 1) 1 ∧ PortsBut p s t) ∧
  (∀ p (slot : RxSlot) s, rxPhase (getPort s p) = some .duplex → lineClocked s p = true → slotFramed (getPort s p)
    = true → slotClass ((quadList (rxShares (rxStretch s p .duplex slot).1 p (rxStretch s p .duplex
    slot).2).2).flatMap leadWords) = none → slot.verdict = .uncorrectable → livePar (getPort s p) 0x08 < ((true ::
    (getPort s p).dp.uncorr).take 4096).count true → (getPort s p).st = .up → (getPort s p).lpi.st = .active →
    (getPort s p).loop = .none → (getPort s p).fec = 0 → ∃ t, exec (.lineSlotReceived p slot) s = .next t ∧ Posted
    s t (portSrc p 4) 1 ∧ (getPort t p).st = (if attPar (getPort s p) 0x02 = 1 then .negotiate else .hold) ∧
    (getPort t p).lastDown = 4 ∧ persGet (getPort t p) 0xB8 = persGet (getPort s p) 0xB8 + 1 ∧ Posted s t (portSrc
    p 1) 1 ∧ PortsBut p s t) ∧
  (∀ p s, (getPort s p).st = .up → (getPort s p).lpi.st = .refresh → (getPort s p).lpi.extended = true → (getPort s
    p).lpi.passed = false → (getHerd s (herdOf p)).st ≠ .fwRestart → herdsRun s = true → ∃ t, exec
    (.lpiRefreshExtendExpiry p) s = .next t ∧ (getPort t p).st = (if attPar (getPort s p) 0x02 = 1 then .negotiate
    else .hold) ∧ (getPort t p).lastDown = 5 ∧ persGet (getPort t p) 0xB8 = persGet (getPort s p) 0xB8 + 1 ∧ Posted
    s t (portSrc p 1) 1 ∧ PortsBut p s t) ∧
  (∀ p s, (getPort s p).st = .up → (getPort s p).lpi.due = true → anySignal (getPort s p) = false → herdsRun s =
    true → ∃ t, exec (.lpiPartnerSignalExpiry p) s = .next t ∧ (getPort t p).st = (if attPar (getPort s p) 0x02 = 1
    then .negotiate else .hold) ∧ (getPort t p).lastDown = 5 ∧ persGet (getPort t p) 0xB8 = persGet (getPort s p)
    0xB8 + 1 ∧ Posted s t (portSrc p 1) 1 ∧ PortsBut p s t) ∧
  (∀ p s, (getPort s p).st = .up → (getPort s p).lpi.st = .wake → (getPort s p).line.wakeGo = false → (getPort s
    p).line.wakeRx = false → locksHeld (getPort s p) = false → herdsRun s = true → ∃ t, exec
    (.lpiFirstCodewordInstant p) s = .next t ∧ (getPort t p).st = (if attPar (getPort s p) 0x02 = 1 then .negotiate
    else .hold) ∧ (getPort t p).lastDown = 5 ∧ persGet (getPort t p) 0xB8 = persGet (getPort s p) 0xB8 + 1 ∧ Posted
    s t (portSrc p 1) 1 ∧ PortsBut p s t)

/-- R12: a low-word read fills the latch of its own register; a high-word read returns the latch; after PORST_N and
SYSRST_N every latch is 0, and nothing but a low-word read puts a value into one. -/
def Obligations.LatchedHighWords : Prop :=
  (∀ (off : BitVec 26) s, busUp s = true → off.toNat % 4 = 0 → refusedCause (touch s) off.toNat = none → isLow64
    off.toNat = true → isHigh64 off.toNat = false → ∃ t, exec (.reg64LowRead off) s = .next t ∧ t.io.bus =
    .readData (regLive (touch s) off.toNat) :: (touch s).io.bus ∧ tabGet 0 t.latches off.toNat = regLive (touch s)
    (off.toNat + 4) ∧ (∀ o, o ≠ off.toNat → tabGet 0 t.latches o = tabGet 0 s.latches o)) ∧
  (∀ (off : BitVec 26) s, busUp s = true → off.toNat % 4 = 0 → refusedCause (touch s) off.toNat = none → isHigh64
    off.toNat = true → ∃ t, exec (.reg64LowRead off) s = .next t ∧ t.io.bus = .readData (tabGet 0 s.latches
    (off.toNat - 4)) :: (touch s).io.bus ∧ t.latches = s.latches) ∧
  (∀ s, ∃ t, exec .porstAssert s = .next t ∧ (∀ o, tabGet 0 t.latches o = 0) ∧ t.latches = []) ∧
  (∀ s, sysrstIgnored s = false → ∃ t, exec .sysrstAssert s = .next t ∧ t.latches = []) ∧
  (∀ (i : Instr) (s t : State) (o : Nat), (∀ off, i ≠ .reg64LowRead off) → Rising s.latches →
    exec i s = .next t →
    tabGet 0 t.latches o = tabGet 0 s.latches o ∨ tabGet 0 t.latches o = 0)

/-- R13, for every 64-bit value that can be written and may change now: the low word is held until its high word is
written; another write in between discards it; a high word with none held applies alone. -/
def Obligations.PairWrites : Prop :=
  (∀ (off : BitVec 26) (val : BitVec 32) s, busUp s = true → off.toNat % 4 = 0 → refusedCause (touch s) off.toNat =
    none → isPairLow off.toNat = true → ∃ t, exec (.reg64LowWrite off val) s = .next t ∧ t.heldLow = some (off,
    val) ∧ t.regs = s.regs) ∧
  (∀ (off : BitVec 26) (v val : BitVec 32) s, busUp s = true → off.toNat % 4 = 0 → refusedCause (touch s) off.toNat
    = none → isPairLow off.toNat = false → isPairLow (off.toNat - 4) = true → s.heldLow = some (off - 4, v) →
    writable s (off.toNat - 4) = true → writable s off.toNat = true → ∃ t, exec (.reg64HighWrite off val) s = .next
    t ∧ regVal t (off.toNat - 4) = v &&& regMask (off.toNat - 4) ∧ regVal t off.toNat = val &&& regMask off.toNat ∧
    t.heldLow = none ∧ (∀ o, o ≠ off.toNat → o ≠ off.toNat - 4 → regVal t o = regVal s o)) ∧
  (∀ (off : BitVec 26) (val : BitVec 32) s, busUp s = true → off.toNat % 4 = 0 → refusedCause (touch s) off.toNat =
    none → isPairLow off.toNat = false → isPairLow (off.toNat - 4) = false → ∃ t, exec (.registerWrite off val) s =
    .next t ∧ t.heldLow = none) ∧
  (∀ (off o : BitVec 26) (v val : BitVec 32) s, busUp s = true → off.toNat % 4 = 0 → refusedCause (touch s)
    off.toNat = none → isPairLow off.toNat = false → isPairLow (off.toNat - 4) = true → s.heldLow = some (o, v) →
    o.toNat + 4 ≠ off.toNat → writable s off.toNat = true → ∃ t, exec (.reg64HighWrite off val) s = .next t ∧
    regVal t off.toNat = val &&& regMask off.toNat ∧ regVal t (off.toNat - 4) = regVal s (off.toNat - 4) ∧
    t.heldLow = none) ∧
  (∀ (off : BitVec 26) (val : BitVec 32) s, busUp s = true → off.toNat % 4 = 0 → refusedCause (touch s) off.toNat =
    none → isPairLow off.toNat = false → isPairLow (off.toNat - 4) = true → s.heldLow = none → writable s off.toNat
    = true → ∃ t, exec (.reg64HighWrite off val) s = .next t ∧ regVal t off.toNat = val &&& regMask off.toNat ∧ (∀
    o, o ≠ off.toNat → regVal t o = regVal s o) ∧ t.heldLow = none)

/-- R268: an access of another size or alignment is answered as an Unsupported Request and has no other effect than
that of host activity. -/
def Obligations.AccessSizes : Prop :=
  (∀ (off : BitVec 26) s, busUp s = true → ∃ t, exec (.bar0BadAccess off false) s = .next t ∧ t.io.bus =
    .unsupported false :: (touch s).io.bus ∧ t.regs = s.regs ∧ t.latches = s.latches ∧ OnlyIn [.io, .pwr] s t) ∧
  (∀ (off : BitVec 26) s, busUp s = true → ∃ t, exec (.bar0BadAccess off true) s = .next t ∧ t.io.bus =
    .unsupported true :: (touch s).io.bus ∧ t.regs = s.regs ∧ t.heldLow = s.heldLow ∧ OnlyIn [.io, .pwr] s t) ∧
  (∀ (off : BitVec 26) (val : BitVec 32) s, busUp s = true → off.toNat % 4 ≠ 0 → ∃ t, exec (.registerWrite off val)
    s = .next t ∧ t.io.bus = .unsupported true :: (touch s).io.bus ∧ OnlyIn [.io, .pwr] s t) ∧
  (∀ (off : BitVec 26) (val : BitVec 32) s, busUp s = true → off.toNat % 4 ≠ 0 → ∃ t, exec (.reg64LowWrite off val)
    s = .next t ∧ t.io.bus = .unsupported true :: (touch s).io.bus ∧ OnlyIn [.io, .pwr] s t) ∧
  (∀ (off : BitVec 26) (val : BitVec 32) s, busUp s = true → off.toNat % 4 ≠ 0 → ∃ t, exec (.reg64HighWrite off
    val) s = .next t ∧ t.io.bus = .unsupported true :: (touch s).io.bus ∧ OnlyIn [.io, .pwr] s t) ∧
  (∀ (off : BitVec 26) s, busUp s = true → off.toNat % 4 ≠ 0 → ∃ t, exec (.reg64LowRead off) s = .next t ∧ t.io.bus
    = .unsupported false :: (touch s).io.bus ∧ OnlyIn [.io, .pwr] s t)

/-- R336: a rejected commit of a port or of a herd completes with ST_BAD_PARAM, leaves every live value and every
CFG_GEN as it is, and RESULT names the parameter, and for a herd the port. -/
def Obligations.RejectedCommits : Prop :=
  (∀ c p (id : Nat) s, Runs s c → myTurn s c = true → portGate s p = none → firstBadParam (getPort s p).shadow
    (getHerd s (herdOf p)).modeSet ((getPort s p).lane.mode == .l25) = some id → ∃ t, exec (.portCommit c (.port
    p)) s = .next t ∧ t.ports = s.ports ∧ (∀ k, (getHerd t k).modeSet = (getHerd s k).modeSet ∧ (getHerd t
    k).policy = (getHerd s k).policy ∧ (getHerd t k).cfgGen = (getHerd s k).cfgGen) ∧ Answered s t c 0x0102
    stBadParam (resParam id) ∧ (resParam id >>> 16).setWidth 16 = BitVec.ofNat 16 id ∧ resParam id >>> 32 = 0) ∧
  (∀ c h p (id : Nat) s, Runs s c → myTurn s c = true → herdGate s h = none → badHerdParam s h = some (p, id) → ∃
    t, exec (.portCommit c (.herd h)) s = .next t ∧ t.ports = s.ports ∧ (∀ k, (getHerd t k).modeSet = (getHerd s
    k).modeSet ∧ (getHerd t k).policy = (getHerd s k).policy ∧ (getHerd t k).cfgGen = (getHerd s k).cfgGen) ∧
    Answered s t c 0x0102 stBadParam (resParamPort id p) ∧ (resParamPort id p >>> 16).setWidth 16 = BitVec.ofNat 16
    id ∧ (resParamPort id p >>> 32).setWidth 9 = BitVec.ofNat 9 p.val ∧ (resParamPort id p).getLsbD 48 = true)

/-- For every command and every state: a step with the command at the front is the command's effect on the state with
the queue's rest. The queue itself is the model's (log 1). -/
def Obligations.StepRunsFront : Prop :=
  ∀ (i : Instr) (rest : List Instr) (s : State), s.pending = i :: rest → step s = exec i { s with pending := rest }

/-- No command stops the machine: in every state each answers a next state. What the spec turns away is answered as
the spec says. -/
def Obligations.EveryRowCompletes : Prop :=
  ∀ (i : Instr) (s : State), ∃ t, exec i s = .next t

/-- The model's tick (DESIGN CHOICE, log 4): a step on an empty queue is 1 ns. On the root PLL device time advances by
1, a slew adds or drops 1 ns in every 10,000 (100 ppm), and without REFCLK time stands (R8, R331, R412). -/
def Obligations.IdleTick : Prop :=
  (∀ s : State, s.pending = [] → ∃ t, step s = .next t ∧ t.mono = s.mono + 1 ∧ t.pending = []) ∧
  (∀ s : State, s.pending = [] → s.pwr.pending = none → s.fw.stages = [] → s.fw.dropping = [] →
    s.clk.refclkOk = true → s.pwr.st ≠ .inPorst → s.pwr.st ≠ .deepSleep →
    (getSwitch s .hubCore).onPll = true → s.time.acc = 0 → s.time.frac < 1000 → s.time.slewLeft = 0 →
    step s = .next { s with time := { s.time with now := s.time.now + 1 }, mono := s.mono + 1 }) ∧
  (∀ s : State, s.pending = [] → s.pwr.pending = none → s.fw.stages = [] → s.fw.dropping = [] →
    s.clk.refclkOk = true → s.pwr.st ≠ .inPorst → s.pwr.st ≠ .deepSleep →
    (getSwitch s .hubCore).onPll = true → s.time.acc = 0 → s.time.frac < 1000 → 0 < s.time.slewLeft → s.time.slewPhase = 9999 →
    step s = .next { s with time := { s.time with now := s.time.now + 2, slewLeft := s.time.slewLeft - 1, slewPhase := 0 }
                            mono := s.mono + 1 }) ∧
  (∀ s : State, s.pending = [] → s.pwr.pending = none → s.fw.stages = [] → s.fw.dropping = [] →
    s.clk.refclkOk = true → s.pwr.st ≠ .inPorst → s.pwr.st ≠ .deepSleep →
    (getSwitch s .hubCore).onPll = true → s.time.acc = 0 → s.time.frac < 1000 → s.time.slewLeft < 0 → s.time.slewPhase = 9999 →
    step s = .next { s with time := { s.time with slewLeft := s.time.slewLeft + 1, slewPhase := 0 }
                            mono := s.mono + 1 }) ∧
  (∀ s : State, s.pending = [] → s.pwr.pending = none → s.fw.stages = [] → s.fw.dropping = [] →
    s.clk.refclkOk = false → step s = .next { s with mono := s.mono + 1 })

/-- The state after reset stands at Run (R520): ports DISABLED, herds at L100 alone and AUTO, dies at P0, lanes BLIND
at 100GAUI-1; CFG_GEN is 0 (R338), the observation paths stand as R251 says. That reset is taken at Run with an empty
queue is the model's choice (log 1, log 6). -/
def Obligations.ResetStandsAtRun : Prop :=
  State.reset.pending = [] ∧ State.reset.pwr.st = .run ∧
  (∀ p, (getPort State.reset p).st = .disabled ∧ (getLane State.reset p).st = .blind ∧
    (getLane State.reset p).mode = .l100 ∧ (getPort State.reset p).cfgGen = 0) ∧
  (∀ h, (getHerd State.reset h).modeSet = 1 ∧ (getHerd State.reset h).shModeSet = 1 ∧
    (getHerd State.reset h).policy = false ∧ (getHerd State.reset h).shPolicy = false ∧
    (getHerd State.reset h).cfgGen = 0 ∧ (getObs State.reset h).st = .stopped ∧ (getObs State.reset h).sel = false ∧
    (getObs State.reset h).bank0 = { taps := 1, coeffs := [0x10000] } ∧
    (getObs State.reset h).bank1 = { taps := 1, coeffs := [0x10000] } ∧
    (getObs State.reset h).source = 0 ∧ (getObs State.reset h).decim = 6) ∧
  (∀ d, (getDie State.reset d).level = 0) ∧ (∀ r, (getRing State.reset r).st = .disabled)

/-- The state after reset has the invariants (RegsOk, OtpOk, Rising) that every step keeps. -/
def Obligations.ResetIsSound : Prop :=
  RegsOk State.reset.regs ∧ OtpOk State.reset ∧ Rising State.reset.regs ∧ Rising State.reset.latches

/-- An invariant of every step (R11, R355): whatever command stands at the front of the queue, and on an empty queue,
stored register values keep their reserved bits 0 and their fields in range. -/
def Obligations.RegistersStaySound : Prop :=
  ∀ s t : State, RegsOk s.regs → step s = .next t → RegsOk t.regs

/-- The canonical form of the two register tables (the model's own, log 8) is kept by every step: no offset is listed
twice, so equal register contents are equal data. -/
def Obligations.TablesStayRising : Prop :=
  ∀ s t : State, Rising s.regs ∧ Rising s.latches → step s = .next t → Rising t.regs ∧ Rising t.latches

/-- An invariant of every step (R495, R499, R500, R504, R468): an OTP item is programmed and never erased, the
lifecycle only moves forward, floors never fall. -/
def Obligations.OtpOnlyMovesForward : Prop :=
  ∀ s t : State, OtpOk s → step s = .next t → OtpOk t ∧ OtpForward s t

/-- The queue of waiting commands (log 1) is first in, first out: a step removes its front and nothing else touches
it. -/
def Obligations.QueueIsFifo : Prop :=
  ∀ s t : State, step s = .next t → t.pending = s.pending.tail

/-- The frame of every row of the table: it writes no part of the state but those that mayWrite lists for it. -/
def Obligations.EveryRowFrame : Prop :=
  ∀ (i : Instr) (s t : State), exec i s = .next t → OnlyIn (mayWrite i) s t
end

