-- ==== Sys2Proof/Laws/Kept.lean ====
section
/-!
SUPPORT. What almost every definition of the machine leaves alone: the queue, the stored registers, the OTP store and
what is written to it, the security version floors. `kept` is the projection; there is one lemma per definition,
      so that a
statement over all commands is a case split over lemmas of one shape.
-/

namespace Sys2Proof.Machine

/-- The part of the security state that `kept` shows. -/
structure SecK where
  lifecycle : BitVec 2
  owner     : Option (BitVec 256)
  keyProg   : Bool
  seedProg  : Bool
  seedGone  : Bool
  ready     : Bool
  otp       : Option OtpWrite

def secK (x : Sec) : SecK := ⟨x.lifecycle, x.owner, x.keyProg, x.seedProg, x.seedGone, x.ready, x.otp⟩

/-- The part of the firmware state that `kept` shows. -/
structure FloorK where
  floors : Tri (BitVec 32)
  rises  : Tri Nat

def floorK (x : Fw) : FloorK := ⟨x.floors, x.rises⟩

/-- The projection that almost every definition leaves alone. -/
structure Kept where
  pending : List Instr
  regs    : Tab (BitVec 32)
  sec     : SecK
  floor   : FloorK

def kept (s : State) : Kept := ⟨s.pending, s.regs, secK s.sec, floorK s.fw⟩

/-- `kept` of the next state an outcome answers. -/
def keptO (o : Host.Outcome State Fault Refusal) : Option Kept :=
  match o with
  | .next t => some (kept t)
  | _ => none

@[simp] theorem keptO_next (t : State) : keptO (.next t) = some (kept t) := id rfl

@[simp] theorem kept_mk (a0 a1 a2 a3 a4 a5 a6 a7 a8 a9 a10 a11 a12 a13 a14 a15 a16 a17 a18 a19 a20 a21 a22 a23) :
    kept (State.mk a0 a1 a2 a3 a4 a5 a6 a7 a8 a9 a10 a11 a12 a13 a14 a15 a16 a17 a18 a19 a20 a21 a22 a23) = ⟨a0, a4,
      secK a22, floorK a21⟩ := id rfl

@[simp] theorem kept_fold (s : State) : (⟨s.pending, s.regs, secK s.sec, floorK s.fw⟩ : Kept) = kept s := id rfl

@[simp] theorem secK_mk (a b c d e f g h i j k l m) :
    secK (Sec.mk a b c d e f g h i j k l m) = ⟨a, b, c, d, e, f, l⟩ := id rfl

@[simp] theorem secK_fold (s : Sec) :
    (⟨s.lifecycle, s.owner, s.keyProg, s.seedProg, s.seedGone, s.ready, s.otp⟩ : SecK) = secK s := id rfl

@[simp] theorem floorK_mk (a0 a1 a2 a3 a4 a5 a6 a7 a8 a9 a10 a11 a12 a13 a14 a15 a16 a17 a18 a19 a20 a21 a22 a23 a24
      a25 a26 a27 a28 a29 a30 a31 a32 a33 a34 a35 a36 a37 a38) :
    floorK (Fw.mk a0 a1 a2 a3 a4 a5 a6 a7 a8 a9 a10 a11 a12 a13 a14 a15 a16 a17 a18 a19 a20 a21 a22 a23 a24 a25 a26
      a27 a28 a29 a30 a31 a32 a33 a34 a35 a36 a37 a38) = ⟨a6, a7⟩ := id rfl

@[simp] theorem floorK_fold (s : Fw) : (⟨s.floors, s.rises⟩ : FloorK) = floorK s := id rfl

@[simp] theorem kept_ite (c : Prop) [Decidable c] (a b : State) :
    kept (if c then a else b) = if c then kept a else kept b := apply_ite kept c a b

@[simp] theorem kept_dite (c : Prop) [Decidable c] (a : c → State) (b : ¬c → State) :
    kept (if h : c then a h else b h) = if h : c then kept (a h) else kept (b h) := apply_dite kept c a b

@[simp] theorem keptO_ite (c : Prop) [Decidable c] (a b : Host.Outcome State Fault Refusal) :
    keptO (if c then a else b) = if c then keptO a else keptO b := apply_ite keptO c a b

@[simp] theorem kept_forEach {α : Type} (l : List α) (f : State → α → State) (s : State)
    (h : ∀ s x, kept (f s x) = kept s) : kept (forEach l f s) = kept s := by
  unfold forEach
  induction l generalizing s with
  | nil => rfl
  | cons x l ih => rw [List.foldl_cons, ih, h]

@[simp] theorem kept_foldl {α : Type} (l : List α) (f : State → α → State) (s : State)
    (h : ∀ s x, kept (f s x) = kept s) : kept (l.foldl f s) = kept s := kept_forEach l f s h

theorem kept_foldl_fst {α β : Type} (l : List α) (f : State × β → α → State × β) (s : State × β)
    (h : ∀ s a, kept (f s a).1 = kept s.1) : kept (l.foldl f s).1 = kept s.1 := by
  induction l generalizing s with
  | nil => rfl
  | cons a l ih => rw [List.foldl_cons, ih, h]

@[simp] theorem floorK_foldl {α : Type} (l : List α) (f : Fw → α → Fw) (x : Fw)
    (h : ∀ x a, floorK (f x a) = floorK x) : floorK (l.foldl f x) = floorK x := by
  induction l generalizing x with
  | nil => rfl
  | cons a l ih => rw [List.foldl_cons, ih, h]

@[simp] theorem floorK_keepFw (f : Fw) : floorK (keepFw f) = floorK f := by simp [keepFw]

@[simp] theorem floorK_restFw (f : Fw) : floorK (restFw f) = floorK f := by
  unfold restFw; split <;> simp

@[simp] theorem floorK_otherSlot (f : Fw) : floorK (otherSlot f) = floorK f := by simp [otherSlot]

/-! ### Ops -/

@[simp] theorem kept_setPort (s : State) (p : PortId) (x : Port) : kept (setPort s p x) = kept s := by simp [setPort]

@[simp] theorem kept_modPort (s : State) (p : PortId) (f : Port → Port) :
    kept (modPort s p f) = kept s := by simp [modPort]

@[simp] theorem kept_setHerd (s : State) (h : HerdId) (x : Herd) : kept (setHerd s h x) = kept s := by simp [setHerd]

@[simp] theorem kept_modHerd (s : State) (h : HerdId) (f : Herd → Herd) :
    kept (modHerd s h f) = kept s := by simp [modHerd]

@[simp] theorem kept_setDie (s : State) (d : DieId) (x : Die) : kept (setDie s d x) = kept s := by simp [setDie]

@[simp] theorem kept_modDie (s : State) (d : DieId) (f : Die → Die) : kept (modDie s d f) = kept s := by simp [modDie]

@[simp] theorem kept_setDdr (s : State) (c : ChanId) (x : Ddr) : kept (setDdr s c x) = kept s := by simp [setDdr]

@[simp] theorem kept_setRail (s : State) (r : RailId) (x : Rail) : kept (setRail s r x) = kept s := by simp [setRail]

@[simp] theorem kept_setDir (s : State) (p : PortId) (x : CtxDir) : kept (setDir s p x) = kept s := by simp [setDir]

@[simp] theorem kept_setRing (s : State) (r : RingId) (x : Ring) : kept (setRing s r x) = kept s := by simp [setRing]

@[simp] theorem kept_modRing (s : State) (r : RingId) (f : Ring → Ring) :
    kept (modRing s r f) = kept s := by simp [modRing]

@[simp] theorem kept_setVec (s : State) (v : Nat) (x : Vec) : kept (setVec s v x) = kept s := by simp [setVec]

@[simp] theorem kept_setPll (s : State) (u : PllId) (x : Pll) : kept (setPll s u x) = kept s := by simp [setPll]

@[simp] theorem kept_setSwitch (s : State) (d : Domain) (x : Switch) :
    kept (setSwitch s d x) = kept s := by simp [setSwitch]

@[simp] theorem kept_emit (s : State) (b : Bus) : kept (emit s b) = kept s := by simp [emit]

@[simp] theorem kept_draw (s : State) : kept ((draw s).2) = kept s := by simp [draw]

@[simp] theorem kept_freeNat (s : State) : kept ((freeNat s).2) = kept s := by simp [freeNat]

/-! ### Rings -/

@[simp] theorem kept_mirrorPut (s : State) (o : MirrorObj) : kept (mirrorPut s o) = kept s := by simp [mirrorPut]

@[simp] theorem kept_mirrorWrite (s : State) (o : MirrorObj) :
    kept (mirrorWrite s o) = kept s := by simp [mirrorWrite]

@[simp] theorem kept_knowGen (s : State) (o : MirrorObj) (src : Nat) (g : BitVec 32) :
    kept (knowGen s o src g) = kept s := by simp [knowGen]

@[simp] theorem kept_mirrorEvent (s : State) (o : MirrorObj) (src : Nat) (g : BitVec 32) :
    kept (mirrorEvent s o src g) = kept s := by simp [mirrorEvent]

@[simp] theorem kept_mirrorAll (s : State) : kept (mirrorAll s) = kept s := by simp [mirrorAll]

@[simp] theorem kept_msixSend (s : State) (v : Nat) : kept (msixSend s v) = kept s := by simp [msixSend]

@[simp] theorem kept_vecCheck (s : State) (v : Nat) : kept (vecCheck s v) = kept s := by simp [vecCheck]

@[simp] theorem kept_ringRequest (s : State) (r : RingId) : kept (ringRequest s r) = kept s := by simp [ringRequest]

@[simp] theorem kept_putRecord (s : State) (q : RingId) (rec : Completion) :
    kept (putRecord s q rec) = kept s := by simp [putRecord]

@[simp] theorem kept_putCompletion (s : State) (q : RingId) (rec : Completion) :
    kept (putCompletion s q rec) = kept s := by simp [putCompletion]

@[simp] theorem kept_putReserved (s : State) (q : RingId) (rec : Completion) :
    kept (putReserved s q rec) = kept s := by simp [putReserved]

@[simp] theorem kept_flushList (x0 : List Completion) (x1 : State) (x2 : RingId) :
    kept ((flushList x0 x1 x2).1) = kept x1 := by
  induction x0 generalizing x1 with
  | nil => rfl
  | cons rec l ih => unfold flushList; split <;> simp [ih]

@[simp] theorem kept_flushBacklog (s : State) (q : RingId) :
    kept (flushBacklog s q) = kept s := by simp [flushBacklog]

@[simp] theorem kept_flushAll (s : State) : kept (flushAll s) = kept s := by simp [flushAll]

@[simp] theorem kept_dequeue (s : State) (c : Cmd) :
    kept (dequeue s c) = kept s := by
  unfold dequeue; split <;> simp

@[simp] theorem kept_complete (s : State) (opcode : Nat) (c : Cmd) (changed : List MirrorObj) (status : BitVec 8)
    (result : BitVec 64) :
    kept (complete s opcode c changed status result) = kept s := by simp [complete]

@[simp] theorem kept_completeOk (s : State) (opcode : Nat) (c : Cmd) (changed : List MirrorObj) (result : Nat) :
    kept (completeOk s opcode c changed result) = kept s := by simp [completeOk]

@[simp] theorem kept_reject (s : State) (opcode : Nat) (c : Cmd) (status : BitVec 8) (result : BitVec 64) :
    kept (reject s opcode c status result) = kept s := by simp [reject]

@[simp] theorem kept_setHerdBuf (s : State) (h : HerdId) (b : EvBuf) :
    kept (setHerdBuf s h b) = kept s := by simp [setHerdBuf]

@[simp] theorem kept_markLost (s : State) (old new : EvBuf) :
    kept (markLost s old new) = kept s := by
  unfold markLost
  repeat' (first | (simp; done) | split | refine (kept_forEach _ _ _ ?_).trans ?_ | intro _ _)

@[simp] theorem kept_pushGlobal (s : State) (e : Event) : kept (pushGlobal s e) = kept s := by simp [pushGlobal]

@[simp] theorem kept_bumpGen (s : State) (src : Nat) : kept (bumpGen s src) = kept s := by simp [bumpGen]

@[simp] theorem kept_postGlobal (s : State) (g : Nat) (payload : List Fld) :
    kept (postGlobal s g payload) = kept s := by simp [postGlobal]

@[simp] theorem kept_pushPort (s : State) (p : PortId) (e : Event) :
    kept (pushPort s p e) = kept s := by simp [pushPort]

@[simp] theorem kept_pushEvent (s : State) (e : Event) :
    kept (pushEvent s e) = kept s := by
  unfold pushEvent; repeat' (first | (simp; done) | split)

@[simp] theorem kept_postPort (s : State) (p : PortId) (n : Nat) (payload : List Fld) :
    kept (postPort s p n payload) = kept s := by simp [postPort]

@[simp] theorem kept_postNaming (s : State) (p : PortId) (n : Nat) (payload : List Fld) (k : Option Taken) :
    kept (postNaming s p n payload k) = kept s := by simp [postNaming]

@[simp] theorem kept_setInterval (s : State) (key : Nat) (i : Interval) :
    kept (setInterval s key i) = kept s := by simp [setInterval]

@[simp] theorem kept_postLimitedNaming (s : State) (src kind : Nat) (payload : List Fld) (at_ : Option Nat)
    (n : Nat) (k : Option Taken) :
    kept (postLimitedNaming s src kind payload at_ n k) = kept s := by simp [postLimitedNaming]

@[simp] theorem kept_countLimited (s : State) (src kind : Nat) :
    kept (countLimited s src kind) = kept s := by simp [countLimited]

@[simp] theorem kept_postLimited (s : State) (src kind : Nat) (payload : List Fld) (at_ : Option Nat) (n : Nat) :
    kept (postLimited s src kind payload at_ n) = kept s := by simp [postLimited]

@[simp] theorem kept_putEvent (s : State) (r : RingId) (e : Event) :
    kept (putEvent s r e) = kept s := by
  unfold putEvent; split <;> simp

@[simp] theorem kept_popBuf (s : State) (r : RingId) (d : DataDesc) (rest : List DataDesc) :
    kept ((popBuf s r d rest).2) = kept s := by simp [popBuf]

@[simp] theorem kept_completeBuf (s : State) (kind : BitVec 3) (k : Taken) (status : BitVec 8) (bytes : Nat) :
    kept (completeBuf s kind k status bytes) = kept s := by simp [completeBuf]

@[simp] theorem kept_skipBad (isIn : Bool) (r : RingId) (x2 : List DataDesc) (x3 : State) :
    kept (skipBad isIn r x2 x3) = kept x3 := by
  induction x2 generalizing x3 with
  | nil => rfl
  | cons d l ih => unfold skipBad; split <;> simp [ih]

@[simp] theorem kept_cleanHead (s : State) (r : RingId) : kept (cleanHead s r) = kept s := by simp [cleanHead]

@[simp] theorem kept_takeBuf (s : State) (ring : Option RingId) (need : Nat) :
    kept ((takeBuf s ring need).st) = kept s := by
  unfold takeBuf; simp only []; repeat' (first | (simp; done) | split)

@[simp] theorem kept_untake (s : State) (k : Taken) : kept (untake s k) = kept s := by simp [untake]

@[simp] theorem kept_finishIn (s : State) (k : Taken) (bytes : Nat) (fs : List Fld) :
    kept (finishIn s k bytes fs) = kept s := by simp [finishIn]

@[simp] theorem kept_returnShort (need : Nat) (r : RingId) (x2 : List DataDesc) (x3 : State) :
    kept (returnShort need r x2 x3) = kept x3 := by
  induction x2 generalizing x3 with
  | nil => rfl
  | cons d l ih => unfold returnShort; split <;> simp [ih]

@[simp] theorem kept_deliverKept (s : State) (r : RingId) (p : PortId) :
    kept (deliverKept s r p) = kept s := by
  unfold deliverKept; simp only []; repeat' (first | (simp; done) | split)

@[simp] theorem kept_takeIn (s : State) (ring : Option RingId) (need : Nat) :
    kept ((takeIn s ring need).st) = kept s := by
  unfold takeIn
  repeat' (first | (simp; done) | split | refine (kept_forEach _ _ _ ?_).trans ?_ | intro _ _)

@[simp] theorem kept_dropIn (s : State) (k : Taken) (status : BitVec 8) :
    kept (dropIn s k status) = kept s := by simp [dropIn]

@[simp] theorem kept_takeOut (s : State) (ring : Option RingId) :
    kept ((takeOut s ring).st) = kept s := by
  unfold takeOut; simp only []; repeat' (first | (simp; done) | split)

@[simp] theorem kept_answerWith (s : State) (opcode : Nat) (c : Cmd) (t : Target) (need bytes : Nat) (fs : List Fld)
    (result : Nat) (changed : List MirrorObj) :
    kept (answerWith s opcode c t need bytes fs result changed) = kept s := by
  unfold answerWith; simp only []; repeat' (first | (simp; done) | split)

@[simp] theorem kept_answerIn (s : State) (opcode : Nat) (c : Cmd) (t : Target) (need : Nat) (fs : List Fld)
    (result : Nat) :
    kept (answerIn s opcode c t need fs result) = kept s := by
  unfold answerIn
  repeat' (first | (simp; done) | split | refine (kept_forEach _ _ _ ?_).trans ?_ | intro _ _)

/-! ### PortOps -/

@[simp] theorem kept_sendInfo (s : State) (p : PortId) (type : BitVec 8) (payload : BitVec 64) (cmd : Option Cmd) :
    kept (sendInfo s p type payload cmd) = kept s := by simp [sendInfo]

@[simp] theorem kept_railTo (s : State) (r : RailId) (mv : Nat) : kept (railTo s r mv) = kept s := by simp [railTo]

@[simp] theorem kept_stepBegin (s : State) (d : DieId) (n : Nat) :
    kept (stepBegin s d n) = kept s := by simp [stepBegin]

@[simp] theorem kept_retarget (s : State) (d : DieId) : kept (retarget s d) = kept s := by simp [retarget]

@[simp] theorem kept_pllStop (s : State) (k : PllKind) : kept (pllStop s k) = kept s := by simp [pllStop]

@[simp] theorem kept_pllsOff (s : State) (l : List PllKind) : kept (pllsOff s l) = kept s := by simp [pllsOff]

@[simp] theorem kept_requestSwitch (s : State) (d : Domain) (toPll : Bool) :
    kept (requestSwitch s d toPll) = kept s := by simp [requestSwitch]

@[simp] theorem kept_movePll (s : State) (h : HerdId) : kept (movePll s h) = kept s := by simp [movePll]

@[simp] theorem kept_moveDomain (s : State) (d : Domain) :
    kept (moveDomain s d) = kept s := by
  unfold moveDomain; split <;> simp

@[simp] theorem kept_switchNext (s : State) (d : Domain) (onPll : Bool) :
    kept (switchNext s d onPll) = kept s := by
  unfold switchNext; simp only []; repeat' (first | (simp; done) | split)

@[simp] theorem kept_switchDone (s : State) (d : Domain) (toPll : Bool) :
    kept (switchDone s d toPll) = kept s := by simp [switchDone]

@[simp] theorem kept_switchNow (s : State) (d : Domain) (toPll : Bool) :
    kept (switchNow s d toPll) = kept s := by
  unfold switchNow; simp only []; repeat' (first | (simp; done) | split)

@[simp] theorem kept_setPllMode (s : State) (h : HerdId) (m : LineMode) :
    kept (setPllMode s h m) = kept s := by simp [setPllMode]

@[simp] theorem kept_laneRateTo (s : State) (p : PortId) (m : LineMode) :
    kept (laneRateTo s p m) = kept s := by simp [laneRateTo]

@[simp] theorem kept_releaseMode (s : State) (h : HerdId) (reaction : Bool) :
    kept (releaseMode s h reaction) = kept s := by simp [releaseMode]

@[simp] theorem kept_setSt (s : State) (p : PortId) (st : PortSt) : kept (setSt s p st) = kept s := by simp [setSt]

@[simp] theorem kept_drawNeg (s : State) : kept ((drawNeg s).2) = kept s := by simp [drawNeg]

@[simp] theorem kept_newAttempt (s : State) (p : PortId) : kept (newAttempt s p) = kept s := by simp [newAttempt]

@[simp] theorem kept_waitNegotiate (s : State) (p : PortId) :
    kept (waitNegotiate s p) = kept s := by simp [waitNegotiate]

@[simp] theorem kept_clearAttempts (s : State) (p : PortId) :
    kept (clearAttempts s p) = kept s := by simp [clearAttempts]

@[simp] theorem kept_countAttempt (s : State) (p : PortId) (seen : Bool) :
    kept (countAttempt s p seen) = kept s := by simp [countAttempt]

@[simp] theorem kept_postAbort (s : State) (p : PortId) (cause : Nat) (at_ : PortSt) (attempt : Nat)
    (entered : PortSt) :
    kept (postAbort s p cause at_ attempt entered) = kept s := by simp [postAbort]

@[simp] theorem kept_dieTrigger (s : State) (d : DieId) : kept (dieTrigger s d) = kept s := by simp [dieTrigger]

@[simp] theorem kept_dropSweep (s : State) (p : PortId) : kept (dropSweep s p) = kept s := by simp [dropSweep]

@[simp] theorem kept_returnTo (s : State) (p : PortId) (st : PortSt) :
    kept (returnTo s p st) = kept s := by
  unfold returnTo; split <;> simp

@[simp] theorem kept_diagEnd (s : State) (p : PortId) (chamois full : Bool) (f : Option DiagFinding) :
    kept (diagEnd s p chamois full f) = kept s := by
  unfold diagEnd; simp only []; repeat' (first | (simp; done) | split)

@[simp] theorem kept_endPassive (s : State) (p : PortId) : kept (endPassive s p) = kept s := by simp [endPassive]

@[simp] theorem kept_endChamois (s : State) (p : PortId) : kept (endChamois s p) = kept s := by simp [endChamois]

@[simp] theorem kept_startChamois (s : State) (p : PortId) (skip profile auto : Bool) (buf : Option Taken)
    (endState : PortSt) :
    kept (startChamois s p skip profile auto buf endState) = kept s := by simp [startChamois]

@[simp] theorem kept_autoChamois (s : State) (p : PortId) :
    kept (autoChamois s p) = kept s := by
  unfold autoChamois; simp only []; repeat' (first | (simp; done) | split)

@[simp] theorem kept_enterHold (s : State) (p : PortId) : kept (enterHold s p) = kept s := by simp [enterHold]

@[simp] theorem kept_calDone (s : State) (p : PortId) (status : Nat) :
    kept (calDone s p status) = kept s := by
  unfold calDone; split <;> simp

@[simp] theorem kept_endCal (s : State) (p : PortId) : kept (endCal s p) = kept s := by simp [endCal]

@[simp] theorem kept_countPers (s : State) (p : PortId) (off : Nat) :
    kept (countPers s p off) = kept s := by simp [countPers]

@[simp] theorem kept_exhaust (s : State) (p : PortId) (at_ : PortSt) (attempt : Nat) :
    kept (exhaust s p at_ attempt) = kept s := by simp [exhaust]

@[simp] theorem kept_countedFail (s : State) (p : PortId) (cause : Option Nat) (seen : Bool) :
    kept (countedFail s p cause seen) = kept s := by
  unfold countedFail; split <;> simp

@[simp] theorem kept_dmeRestart (s : State) (p : PortId) : kept (dmeRestart s p) = kept s := by simp [dmeRestart]

@[simp] theorem kept_abortTo (s : State) (p : PortId) (cause : Nat) (entered : PortSt) :
    kept (abortTo s p cause entered) = kept s := by simp [abortTo]

@[simp] theorem kept_handoverStart (s : State) (h : HerdId) :
    kept (handoverStart s h) = kept s := by simp [handoverStart]

@[simp] theorem kept_failWaits (s : State) (p : PortId) (cause : Nat) :
    kept (failWaits s p cause) = kept s := by
  unfold failWaits
  repeat' (first | (simp; done) | split | refine (kept_forEach _ _ _ ?_).trans ?_ | intro _ _)

@[simp] theorem kept_leaveUp (s : State) (p : PortId) (cause : Nat) (next : PortSt) :
    kept (leaveUp s p cause next) = kept s := by simp [leaveUp]

@[simp] theorem kept_linkDown (s : State) (p : PortId) (cause : Nat) :
    kept (linkDown s p cause) = kept s := by simp [linkDown]

@[simp] theorem kept_enterT0 (s : State) (p : PortId) (keepCal newStart : Bool) :
    kept (enterT0 s p keepCal newStart) = kept s := by simp [enterT0]

@[simp] theorem kept_springbokFallback (s : State) (p : PortId) :
    kept (springbokFallback s p) = kept s := by simp [springbokFallback]

@[simp] theorem kept_surveyOthers (s : State) (p : PortId) :
    kept (surveyOthers s p) = kept s := by simp [surveyOthers]

@[simp] theorem kept_surveyStart (s : State) (p : PortId) : kept (surveyStart s p) = kept s := by simp [surveyStart]

@[simp] theorem kept_repathPort (s : State) (p : PortId) : kept (repathPort s p) = kept s := by simp [repathPort]

@[simp] theorem kept_repath (s : State) (h : HerdId) : kept (repath s h) = kept s := by simp [repath]

@[simp] theorem kept_tellTiming (s : State) (h : HerdId) : kept (tellTiming s h) = kept s := by simp [tellTiming]

@[simp] theorem kept_formTrunk (s : State) (h : HerdId) :
    kept (formTrunk s h) = kept s := by
  unfold formTrunk; simp only []; repeat' (first | (simp; done) | split)

@[simp] theorem kept_timingUp (s : State) (p : PortId) :
    kept (timingUp s p) = kept s := by
  unfold timingUp; simp only []; repeat' (first | (simp; done) | split)

@[simp] theorem kept_dissolve (s : State) (h : HerdId) : kept (dissolve s h) = kept s := by simp [dissolve]

@[simp] theorem kept_enterUp (s : State) (p : PortId) (sig gen : BitVec 32) :
    kept (enterUp s p sig gen) = kept s := by simp [enterUp]

@[simp] theorem kept_enterSafe (s : State) (p : PortId) : kept (enterSafe s p) = kept s := by simp [enterSafe]

@[simp] theorem kept_releasePort (s : State) (p : PortId) :
    kept (releasePort s p) = kept s := by
  unfold releasePort; simp only []; repeat' (first | (simp; done) | split)

/-! ### Observe -/

@[simp] theorem kept_setObs (s : State) (h : HerdId) (o : Obs) : kept (setObs s h o) = kept s := by simp [setObs]

@[simp] theorem kept_captureReady (s : State) (h : HerdId) (source : Nat) (k : Taken) :
    kept (captureReady s h source k) = kept s := by simp [captureReady]

@[simp] theorem kept_captureStopped (s : State) (h : HerdId) (e : ObsEnd) (k : Option Taken) :
    kept (captureStopped s h e k) = kept s := by simp [captureStopped]

@[simp] theorem kept_captureTake (s : State) (h : HerdId) :
    kept (captureTake s h) = kept s := by
  unfold captureTake; simp only []; repeat' (first | (simp; done) | split)

@[simp] theorem kept_captureWrite (s : State) (h : HerdId) (b : Taken) (n : Nat) (noTime : BitVec 64)
    (last : Option ObsEnd) :
    kept (captureWrite s h b n noTime last) = kept s := by simp [captureWrite]

@[simp] theorem kept_captureFill (x0 : Nat) (x1 : HerdId) (x2 : State) :
    kept (captureFill x0 x1 x2) = kept x2 := by
  induction x0 generalizing x2 with
  | zero => rfl
  | succ n ih =>
    unfold captureFill
    simp only []
    repeat' (first | (simp [ih]; done) | split)

@[simp] theorem kept_stopDone (s : State) (h : HerdId) : kept (stopDone s h) = kept s := by simp [stopDone]

@[simp] theorem kept_captureEnd (x0 : Nat) (x1 : HerdId) (x2 : ObsEnd) (x3 : State) :
    kept (captureEnd x0 x1 x2 x3) = kept x3 := by
  induction x0 generalizing x3 with
  | zero => rfl
  | succ n ih =>
    unfold captureEnd
    simp only []
    repeat' (first | (simp [ih]; done) | split)

@[simp] theorem kept_captureDrain (s : State) (h : HerdId) :
    kept (captureDrain s h) = kept s := by
  unfold captureDrain; simp only []; repeat' (first | (simp; done) | split)

@[simp] theorem kept_obsStopWith (s : State) (h : HerdId) (cause : Nat) :
    kept (obsStopWith s h cause) = kept s := by
  unfold obsStopWith; simp only []; repeat' (first | (simp; done) | split)

@[simp] theorem kept_dropObsWaits (s : State) (h : HerdId) :
    kept (dropObsWaits s h) = kept s := by
  unfold dropObsWaits
  repeat' (first | (simp; done) | split | refine (kept_forEach _ _ _ ?_).trans ?_ | intro _ _)

@[simp] theorem kept_obsCut (s : State) (h : HerdId) (cause : Nat) :
    kept (obsCut s h cause) = kept s := by simp [obsCut]

@[simp] theorem kept_obsSelfTest (s : State) (h : HerdId) : kept (obsSelfTest s h) = kept s := by simp [obsSelfTest]

@[simp] theorem kept_doSelect (s : State) (h : HerdId) (c : Cmd) (source decim : Nat) :
    kept (doSelect s h c source decim) = kept s := by simp [doSelect]

@[simp] theorem kept_doStop (s : State) (h : HerdId) (c : Cmd) : kept (doStop s h c) = kept s := by simp [doStop]

@[simp] theorem kept_dropLast (s : State) (h : HerdId) :
    kept (dropLast s h) = kept s := by
  unfold dropLast; split <;> simp

@[simp] theorem kept_doStart (s : State) (h : HerdId) (mode : BitVec 8) (count : BitVec 32) (ring : BitVec 16) :
    kept (doStart s h mode count ring) = kept s := by simp [doStart]

@[simp] theorem kept_finishStart (s : State) (h : HerdId) (c : Cmd) (mode : BitVec 8) (count : BitVec 32)
    (t : BitVec 64) :
    kept (finishStart s h c mode count t) = kept s := by
  unfold finishStart; split <;> simp

@[simp] theorem kept_obsWaited (h : HerdId) (s : State) (w : ObsWait) :
    kept (obsWaited h s w) = kept s := by
  unfold obsWaited; repeat' (first | (simp; done) | split)

@[simp] theorem kept_runObsWaits (s : State) (h : HerdId) : kept (runObsWaits s h) = kept s := by simp [runObsWaits]

@[simp] theorem kept_obsPortSafe (s : State) (h : HerdId) : kept (obsPortSafe s h) = kept s := by simp [obsPortSafe]

@[simp] theorem kept_obsModeChange (s : State) (h : HerdId) :
    kept (obsModeChange s h) = kept s := by simp [obsModeChange]

@[simp] theorem kept_execObsSelect (c : Cmd) (h : HerdId) (source decim : BitVec 8) (s : State) :
    keptO (execObsSelect c h source decim s) = some (kept s) := by
  unfold execObsSelect; repeat' (first | (simp; done) | split)

@[simp] theorem kept_execObsLoadBank (c : Cmd) (h : HerdId) (bank : BitVec 8) (taps : BitVec 16) (data : List Byte)
    (s : State) :
    keptO (execObsLoadBank c h bank taps data s) = some (kept s) := by
  unfold execObsLoadBank; simp only []; repeat' (first | (simp; done) | split)

@[simp] theorem kept_execObsSwap (c : Cmd) (h : HerdId) (fadeLen : BitVec 16) (s : State) :
    keptO (execObsSwap c h fadeLen s) = some (kept s) := by
  unfold execObsSwap; repeat' (first | (simp; done) | split)

@[simp] theorem kept_execObsStart (c : Cmd) (h : HerdId) (mode : BitVec 8) (count : BitVec 32)
    (startTime : BitVec 64) (s : State) :
    keptO (execObsStart c h mode count startTime s) = some (kept s) := by
  unfold execObsStart; repeat' (first | (simp; done) | split)

@[simp] theorem kept_execObsStop (c : Cmd) (h : HerdId) (s : State) :
    keptO (execObsStop c h s) = some (kept s) := by
  unfold execObsStop; repeat' (first | (simp; done) | split)

@[simp] theorem kept_obsFeed (h : HerdId) (x1 : List Int) (x2 : State) :
    kept (obsFeed h x1 x2) = kept x2 := by
  induction x1 generalizing x2 with
  | nil => rfl
  | cons v l ih =>
    unfold obsFeed
    simp only []
    split
    · rw [ih]; split <;> simp
    · rfl

@[simp] theorem kept_obsRx (s : State) (p : PortId) (adc : List (List (BitVec 8))) :
    kept (obsRx s p adc) = kept s := by simp [obsRx]

@[simp] theorem kept_obsTx (s : State) (p : PortId) (dac : Quad (List Int)) :
    kept (obsTx s p dac) = kept s := by simp [obsTx]

@[simp] theorem kept_obsGap (s : State) (h : HerdId) (adc : List (List (BitVec 8))) :
    kept (obsGap s h adc) = kept s := by simp [obsGap]

@[simp] theorem kept_obsDue (s : State) (h : HerdId) :
    kept (obsDue s h) = kept s := by
  unfold obsDue; simp only []; repeat' (first | (simp; done) | split)

@[simp] theorem kept_execObsScheduledStart (h : HerdId) (s : State) :
    keptO (execObsScheduledStart h s) = some (kept s) := by simp [execObsScheduledStart]

@[simp] theorem kept_execObsSettlingDone (h : HerdId) (adc : List (List (BitVec 8))) (s : State) :
    keptO (execObsSettlingDone h adc s) = some (kept s) := by simp [execObsSettlingDone]

@[simp] theorem kept_execObsFadeDone (h : HerdId) (adc : List (List (BitVec 8))) (s : State) :
    keptO (execObsFadeDone h adc s) = some (kept s) := by simp [execObsFadeDone]

@[simp] theorem kept_execObsBufferComplete (h : HerdId) (adc : List (List (BitVec 8))) (s : State) :
    keptO (execObsBufferComplete h adc s) = some (kept s) := by
  unfold execObsBufferComplete
  repeat' (first | (simp; done) | split | refine (kept_forEach _ _ _ ?_).trans ?_ | intro _ _)

@[simp] theorem kept_execObsCountDone (h : HerdId) (adc : List (List (BitVec 8))) (s : State) :
    keptO (execObsCountDone h adc s) = some (kept s) := by simp [execObsCountDone]

/-! ### Contexts -/

@[simp] theorem kept_loadCoefs (s : State) (p : PortId) (c : Coefs) :
    kept (loadCoefs s p c) = kept s := by simp [loadCoefs]

@[simp] theorem kept_storeSave (s : State) (p : PortId) (c : Ctx) :
    kept (storeSave s p c) = kept s := by simp [storeSave]

@[simp] theorem kept_storeHerdRec (s : State) (h : HerdId) (r : HerdRec) :
    kept (storeHerdRec s h r) = kept s := by simp [storeHerdRec]

@[simp] theorem kept_modCtx (s : State) (p : PortId) (c : Ctx) (f : Ctx → Ctx) :
    kept (modCtx s p c f) = kept s := by simp [modCtx]

@[simp] theorem kept_dropBad (s : State) (p : PortId) (c : Ctx) (cause : Nat) :
    kept (dropBad s p c cause) = kept s := by simp [dropBad]

@[simp] theorem kept_checkRead (s : State) (p : PortId) (e : Ctx) (r : CtxRead) :
    kept ((checkRead s p e r).1) = kept s := by
  unfold checkRead; split <;> simp

@[simp] theorem kept_checkReads (reads : List (PortId × CtxKey × CtxRead)) (s : State) :
    kept (checkReads reads s) = kept s := by
  unfold checkReads
  refine kept_foldl _ _ _ fun s r => ?_
  split <;> simp

@[simp] theorem kept_unpair (s : State) (c : Cmd) : kept (unpair s c) = kept s := by simp [unpair]

@[simp] theorem kept_pairedStep (s : State) (c : Cmd) (visible acked : Bool) :
    kept (pairedStep s c visible acked) = kept s := by
  unfold pairedStep; split <;> simp

@[simp] theorem kept_pairedFail (s : State) (c : Cmd) (status : BitVec 8) :
    kept (pairedFail s c status) = kept s := by simp [pairedFail]

@[simp] theorem kept_saveVisible (s : State) (p : PortId) :
    kept (saveVisible s p) = kept s := by
  unfold saveVisible; simp only []; repeat' (first | (simp; done) | split)

@[simp] theorem kept_beginSave (s : State) (p : PortId) (cause : Nat) (cmd : Option Cmd) (paired : Bool) :
    kept (beginSave s p cause cmd paired) = kept s := by simp [beginSave]

@[simp] theorem kept_execCtxSave (c : Cmd) (p : PortId) (paired : BitVec 8) (s : State) :
    keptO (execCtxSave c p paired s) = some (kept s) := by
  unfold execCtxSave; repeat' (first | (simp; done) | split)

@[simp] theorem kept_execCtxLoad (c : Cmd) (p : PortId) (k : CtxKey) (read : CtxRead) (s : State) :
    keptO (execCtxLoad c p k read s) = some (kept s) := by
  unfold execCtxLoad; simp only []; repeat' (first | (simp; done) | split)

@[simp] theorem kept_execCtxPin (c : Cmd) (p : PortId) (k : CtxKey) (s : State) :
    keptO (execCtxPin c p k s) = some (kept s) := by
  unfold execCtxPin; simp only []; repeat' (first | (simp; done) | split)

@[simp] theorem kept_execCtxUnpin (c : Cmd) (p : PortId) (k : CtxKey) (s : State) :
    keptO (execCtxUnpin c p k s) = some (kept s) := by
  unfold execCtxUnpin; simp only []; repeat' (first | (simp; done) | split)

@[simp] theorem kept_execCtxEvict (c : Cmd) (p : PortId) (k : CtxKey) (s : State) :
    keptO (execCtxEvict c p k s) = some (kept s) := by
  unfold execCtxEvict; simp only []; repeat' (first | (simp; done) | split)

@[simp] theorem kept_execCtxList (c : Cmd) (t : Target) (s : State) :
    keptO (execCtxList c t s) = some (kept s) := by
  unfold execCtxList; repeat' (first | (simp; done) | split)

@[simp] theorem kept_execCtxSaveCheck (p : PortId) (s : State) :
    keptO (execCtxSaveCheck p s) = some (kept s) := by simp [execCtxSaveCheck]

@[simp] theorem kept_execCtxPeriodicSave (p : PortId) (s : State) :
    keptO (execCtxPeriodicSave p s) = some (kept s) := by simp [execCtxPeriodicSave]

@[simp] theorem kept_execCtxSaveVisible (p : PortId) (s : State) :
    keptO (execCtxSaveVisible p s) = some (kept s) := by simp [execCtxSaveVisible]

@[simp] theorem kept_emptyHalf (s : State) (c : ChanId) : kept (emptyHalf s c) = kept s := by simp [emptyHalf]

@[simp] theorem kept_execDdrTrainingDone (c : ChanId) (gib : BitVec 6) (s : State) :
    keptO (execDdrTrainingDone c gib s) = some (kept s) := by simp [execDdrTrainingDone]

@[simp] theorem kept_ddrFail (s : State) (c : ChanId) (cause : Nat) :
    kept (ddrFail s c cause) = kept s := by simp [ddrFail]

@[simp] theorem kept_execDdrChannelFailure (c : ChanId) (cause : BitVec 8) (s : State) :
    keptO (execDdrChannelFailure c cause s) = some (kept s) := by simp [execDdrChannelFailure]

@[simp] theorem kept_execDdrEccCorrected (c : ChanId) (count : BitVec 32) (s : State) :
    keptO (execDdrEccCorrected c count s) = some (kept s) := by simp [execDdrEccCorrected]

/-! ### Monitor -/

@[simp] theorem kept_execStatRead (c : Cmd) (t : Target) (s : State) :
    keptO (execStatRead c t s) = some (kept s) := by simp [execStatRead]

@[simp] theorem kept_execStatSnapshot (c : Cmd) (count : BitVec 8) (ranges : List (BitVec 16 × BitVec 16))
    (s : State) :
    keptO (execStatSnapshot c count ranges s) = some (kept s) := by
  unfold execStatSnapshot; simp only []; repeat' (first | (simp; done) | split)

@[simp] theorem kept_snapWrite (s : State) (n : Snap) (epoch : Nat) :
    kept (snapWrite s n epoch) = kept s := by simp [snapWrite]

@[simp] theorem kept_execStatSnapshotCapture (s : State) :
    keptO (execStatSnapshotCapture s) = some (kept s) := by
  unfold execStatSnapshotCapture; repeat' (first | (simp; done) | split)

@[simp] theorem kept_execMarginCompare (p : PortId) (s : State) :
    keptO (execMarginCompare p s) = some (kept s) := by simp [execMarginCompare]

@[simp] theorem kept_execHistogramPeriodEnd (p : PortId) (s : State) :
    keptO (execHistogramPeriodEnd p s) = some (kept s) := by simp [execHistogramPeriodEnd]

@[simp] theorem kept_persistAll (s : State) : kept (persistAll s) = kept s := by simp [persistAll]

@[simp] theorem kept_execCounterPersist (s : State) :
    keptO (execCounterPersist s) = some (kept s) := by simp [execCounterPersist]

@[simp] theorem kept_execEyeMeasure (p : PortId) (upper middle lower width : BitVec 16) (s : State) :
    keptO (execEyeMeasure p upper middle lower width s) = some (kept s) := by simp [execEyeMeasure]

/-! ### Diagnose -/

@[simp] theorem kept_execDiagPassive (c : Cmd) (p : PortId) (profile : BitVec 8) (s : State) :
    keptO (execDiagPassive c p profile s) = some (kept s) := by
  unfold execDiagPassive; simp only []; repeat' (first | (simp; done) | split)

@[simp] theorem kept_execDiagPassiveDone (p : PortId) (s : State) :
    keptO (execDiagPassiveDone p s) = some (kept s) := by simp [execDiagPassiveDone]

@[simp] theorem kept_chamoisLeave (s : State) (p : PortId) (st : PortSt) :
    kept (chamoisLeave s p st) = kept s := by simp [chamoisLeave]

@[simp] theorem kept_execDiagChamois (c : Cmd) (p : PortId) (skipSweep profile : BitVec 8) (s : State) :
    keptO (execDiagChamois c p skipSweep profile s) = some (kept s) := by
  unfold execDiagChamois; simp only []; repeat' (first | (simp; done) | split)

@[simp] theorem kept_chamoisFinish (s : State) (p : PortId) (f : DiagFinding) :
    kept (chamoisFinish s p f) = kept s := by simp [chamoisFinish]

@[simp] theorem kept_takePath (s : State) (p : PortId) : kept (takePath s p) = kept s := by simp [takePath]

@[simp] theorem kept_execChamoisStepEnd (p : PortId) (f : DiagFinding) (s : State) :
    keptO (execChamoisStepEnd p f s) = some (kept s) := by
  unfold execChamoisStepEnd; simp only []; repeat' (first | (simp; done) | split)

@[simp] theorem kept_execChamoisSweepGrant (h : HerdId) (s : State) :
    keptO (execChamoisSweepGrant h s) = some (kept s) := by
  unfold execChamoisSweepGrant; repeat' (first | (simp; done) | split)

@[simp] theorem kept_execChamoisResultDelivery (p : PortId) (s : State) :
    keptO (execChamoisResultDelivery p s) = some (kept s) := by
  unfold execChamoisResultDelivery
  repeat' (first | (simp; done) | split | refine (kept_forEach _ _ _ ?_).trans ?_ | intro _ _)

/-! ### SelfTest -/

@[simp] theorem kept_taskStep (s : State) (p : PortId) (task : Nat) :
    kept (taskStep s p task) = kept s := by simp [taskStep]

@[simp] theorem kept_calGap (s : State) (p : PortId) : kept (calGap s p) = kept s := by simp [calGap]

@[simp] theorem kept_adcGap (s : State) (p : PortId) : kept (adcGap s p) = kept s := by simp [adcGap]

@[simp] theorem kept_execCalMarkerCountExpiry (p : PortId) (s : State) :
    keptO (execCalMarkerCountExpiry p s) = some (kept s) := by simp [execCalMarkerCountExpiry]

@[simp] theorem kept_calBegin (tasks : BitVec 8) (s : State) (p : PortId) :
    kept (calBegin tasks s p) = kept s := by simp [calBegin]

@[simp] theorem kept_execCalRun (c : Cmd) (t : Target) (tasks : BitVec 8) (s : State) :
    keptO (execCalRun c t tasks s) = some (kept s) := by
  unfold execCalRun; simp only []; repeat' (first | (simp; done) | split)

@[simp] theorem kept_calFinish (s : State) (p : PortId) (r : CalRun) :
    kept (calFinish s p r) = kept s := by simp [calFinish]

@[simp] theorem kept_execCalUnitDone (p : PortId) (s : State) :
    keptO (execCalUnitDone p s) = some (kept s) := by
  unfold execCalUnitDone; simp only []; repeat' (first | (simp; done) | split)

@[simp] theorem kept_dieRunEnd (s : State) (d : DieId) :
    kept (dieRunEnd s d) = kept s := by
  unfold dieRunEnd; simp only []; repeat' (first | (simp; done) | split)

@[simp] theorem kept_execDieFullRunEnd (d : DieId) (s : State) :
    keptO (execDieFullRunEnd d s) = some (kept s) := by simp [execDieFullRunEnd]

@[simp] theorem kept_execDieTemperatureRead (d : Fin 9) (t : BitVec 16) (s : State) :
    keptO (execDieTemperatureRead d t s) = some (kept s) := by simp [execDieTemperatureRead]

@[simp] theorem kept_execPortTemperatureRead (p : PortId) (t : BitVec 16) (s : State) :
    keptO (execPortTemperatureRead p t s) = some (kept s) := by simp [execPortTemperatureRead]

@[simp] theorem kept_bistMemory (s : State) (t : BistRun) (fails : List MemFail) :
    kept ((bistMemory s t fails).1) = kept s := by simp [bistMemory]

@[simp] theorem kept_bistDeliver (r : RingId) (fs : List Fld) (x2 : List DataDesc) (x3 : State) :
    kept ((bistDeliver r fs x2 x3).1) = kept x3 := by
  induction x2 generalizing x3 with
  | nil => rfl
  | cons d l ih => unfold bistDeliver; split <;> simp [ih]

@[simp] theorem kept_bistTryDeliver (s : State) (h : HerdId) :
    kept (bistTryDeliver s h) = kept s := by
  unfold bistTryDeliver; split <;> simp

@[simp] theorem kept_execBistRecordDelivery (h : HerdId) (s : State) :
    keptO (execBistRecordDelivery h s) = some (kept s) := by simp [execBistRecordDelivery]

@[simp] theorem kept_bistReport (s : State) (h : HerdId) (t : BistRun) (result : Nat) :
    kept (bistReport s h t result) = kept s := by simp [bistReport]

@[simp] theorem kept_enterTest (s : State) (p : PortId) : kept (enterTest s p) = kept s := by simp [enterTest]

@[simp] theorem kept_dropCommit (s : State) (h : HerdId) :
    kept (dropCommit s h) = kept s := by
  unfold dropCommit; split <;> simp

@[simp] theorem kept_execBistRun (c : Cmd) (h : HerdId) (s : State) :
    keptO (execBistRun c h s) = some (kept s) := by
  unfold execBistRun; repeat' (first | (simp; done) | split)

@[simp] theorem kept_bistFinish (s : State) (h : HerdId) (t : BistRun) :
    kept (bistFinish s h t) = kept s := by simp [bistFinish]

@[simp] theorem kept_bistAbort (s : State) (h : HerdId) :
    kept (bistAbort s h) = kept s := by
  unfold bistAbort; split <;> simp

@[simp] theorem kept_overwriteCoefs (s : State) (h : HerdId) :
    kept (overwriteCoefs s h) = kept s := by simp [overwriteCoefs]

@[simp] theorem kept_execBistStepDone (h : HerdId) (o : BistOutcome) (reads : List (PortId × CtxKey × CtxRead))
    (s : State) :
    keptO (execBistStepDone h o reads s) = some (kept s) := by
  unfold execBistStepDone; repeat' (first | (simp; done) | split)

/-! ### ResetOps -/

@[simp] theorem kept_loadSettings (s : State) (g : Settings) :
    kept (loadSettings s g) = kept s := by simp [loadSettings]

@[simp] theorem kept_settingsReset (s : State) (old : BitVec 16) :
    kept (settingsReset s old) = kept s := by simp [settingsReset]

@[simp] theorem kept_lineRestart (s : State) : kept (lineRestart s) = kept s := by simp [lineRestart]

/-! ### Faults -/

@[simp] theorem kept_postRecord (s : State) (r : FltRec) : kept (postRecord s r) = kept s := by simp [postRecord]

@[simp] theorem kept_nextRecord (s : State) : kept (nextRecord s) = kept s := by simp [nextRecord]

@[simp] theorem kept_logRecord (put : FltRec → List FltRec → List FltRec) (s : State) (r : FltRec) :
    kept (logRecord put s r) = kept s := by simp [logRecord]

@[simp] theorem kept_modRecord (s : State) (n : BitVec 32) (f : FltRec → FltRec) :
    kept (modRecord s n f) = kept s := by simp [modRecord]

@[simp] theorem kept_abandonHerd (s : State) (h : HerdId) : kept (abandonHerd s h) = kept s := by simp [abandonHerd]

@[simp] theorem kept_openShadow (s : State) (w : Shadow) : kept (openShadow s w) = kept s := by simp [openShadow]

@[simp] theorem kept_react (s : State) (r : FltRec) :
    kept ((react s r).2) = kept s := by
  unfold react; repeat' (first | (simp; done) | split)

@[simp] theorem kept_raiseOne (before : List FltRec) (shadows : List Shadow) (s : State) (r : Raise) :
    kept (raiseOne before shadows s r) = kept s := by simp [raiseOne]

@[simp] theorem kept_firstClear (s : State) :
    kept (firstClear s) = kept s := by
  unfold firstClear; split <;> simp

@[simp] theorem kept_firstSet (s : State) (l : List FltRec) :
    kept (firstSet s l) = kept s := by
  unfold firstSet; simp only []; repeat' (first | (simp; done) | split)

@[simp] theorem kept_collect (s : State) (l : List Raise) : kept (collect s l) = kept s := by simp [collect]

@[simp] theorem kept_raiseFault (s : State) (src detail : Nat) :
    kept (raiseFault s src detail) = kept s := by simp [raiseFault]

@[simp] theorem kept_clearCause (s : State) (src : Nat) : kept (clearCause s src) = kept s := by simp [clearCause]

@[simp] theorem kept_enterHerdSafe (s : State) (h : HerdId) :
    kept (enterHerdSafe s h) = kept s := by simp [enterHerdSafe]

@[simp] theorem kept_quietScope (s : State) (sc : Scope) :
    kept (quietScope s sc) = kept s := by
  unfold quietScope; split <;> simp

@[simp] theorem kept_herdUnsafe (s : State) (h : HerdId) : kept (herdUnsafe s h) = kept s := by simp [herdUnsafe]

@[simp] theorem kept_releaseOne (last : BitVec 32) (s : State) (x : SafeState) :
    kept (releaseOne last s x) = kept s := by simp [releaseOne]

@[simp] theorem kept_releaseSafe (s : State) (last : BitVec 32) :
    kept (releaseSafe s last) = kept s := by simp [releaseSafe]

@[simp] theorem kept_reactionComplete (s : State) :
    kept (reactionComplete s) = kept s := by
  unfold reactionComplete; simp only []; repeat' (first | (simp; done) | split)

@[simp] theorem kept_postRefclk (s : State) (t : BitVec 64) (n : BitVec 32) :
    kept (postRefclk s t n) = kept s := by simp [postRefclk]

@[simp] theorem kept_payOwed (s : State) :
    kept (payOwed s) = kept s := by
  unfold payOwed; split <;> simp

@[simp] theorem kept_writeFixed (s : State) (e : FixedCause × BitVec 64 × BitVec 32 × BitVec 32) :
    kept (writeFixed s e) = kept s := by simp [writeFixed]

@[simp] theorem kept_forgetWaits (s : State) : kept (forgetWaits s) = kept s := by simp [forgetWaits]

@[simp] theorem kept_refuseHeld (s : State) (c : Cmd) :
    kept (refuseHeld s c) = kept s := by
  unfold refuseHeld; split <;> simp

@[simp] theorem kept_flushFixed (s : State) : kept (flushFixed s) = kept s := by simp [flushFixed]

@[simp] theorem kept_fixedStart (s : State) (c : FixedCause) (detail : Nat) :
    kept (fixedStart s c detail) = kept s := by simp [fixedStart]

@[simp] theorem kept_postMram (uncorrectable : Bool) (s : State) (addr : Nat) :
    kept (postMram uncorrectable s addr) = kept s := by simp [postMram]

@[simp] theorem kept_mramEcc (s : State) (r : Raise) : kept (mramEcc s r) = kept s := by simp [mramEcc]

@[simp] theorem kept_execFaultRaised (faults : List (BitVec 16 × BitVec 32)) (s : State) :
    keptO (execFaultRaised faults s) = some (kept s) := by simp [execFaultRaised]

@[simp] theorem kept_execDualRailFault (source : BitVec 16) (s : State) :
    keptO (execDualRailFault source s) = some (kept s) := by simp [execDualRailFault]

@[simp] theorem kept_execFaultCauseEnded (source : BitVec 16) (s : State) :
    keptO (execFaultCauseEnded source s) = some (kept s) := by simp [execFaultCauseEnded]

@[simp] theorem kept_execReactionComplete (s : State) :
    keptO (execReactionComplete s) = some (kept s) := by simp [execReactionComplete]

@[simp] theorem kept_execShadowWindowExpiry (s : State) :
    keptO (execShadowWindowExpiry s) = some (kept s) := by
  unfold execShadowWindowExpiry; split <;> simp

@[simp] theorem kept_execFixedReaction (cause : FixedCause) (s : State) :
    keptO (execFixedReaction cause s) = some (kept s) := by
  unfold execFixedReaction; repeat' (first | (simp; done) | split)

@[simp] theorem kept_execFltArm (c : Cmd) (source : BitVec 16) (base pin : BitVec 8) (n : BitVec 16) (w : BitVec 32)
    (s : State) :
    keptO (execFltArm c source base pin n w s) = some (kept s) := by simp [execFltArm]

@[simp] theorem kept_ackRecords (s : State) (l : List (BitVec 32)) :
    kept (ackRecords s l) = kept s := by simp [ackRecords]

@[simp] theorem kept_execFltReadLog (c : Cmd) (log : BitVec 8) (first count : BitVec 32) (bad : List Nat)
    (ecc : List (BitVec 32)) (s : State) :
    keptO (execFltReadLog c log first count bad ecc s) = some (kept s) := by
  unfold execFltReadLog; simp only []; repeat' (first | (simp; done) | split)

/-! ### Configure -/

@[simp] theorem kept_execPortConfig (c : Cmd) (p : PortId) (count : BitVec 8) (entries : List
    (BitVec 16 × BitVec 32)) (s : State) :
    keptO (execPortConfig c p count entries s) = some (kept s) := by
  unfold execPortConfig; repeat' (first | (simp; done) | split)

@[simp] theorem kept_execHerdMode (c : Cmd) (h : HerdId) (modeSet : BitVec 8) (s : State) :
    keptO (execHerdMode c h modeSet s) = some (kept s) := by
  unfold execHerdMode; repeat' (first | (simp; done) | split)

@[simp] theorem kept_execHerdTiming (c : Cmd) (h : HerdId) (policy : BitVec 8) (s : State) :
    keptO (execHerdTiming c h policy s) = some (kept s) := by
  unfold execHerdTiming; repeat' (first | (simp; done) | split)

@[simp] theorem kept_endRuns (s : State) (p : PortId) : kept (endRuns s p) = kept s := by simp [endRuns]

@[simp] theorem kept_endDigital (s : State) (p : PortId) : kept (endDigital s p) = kept s := by simp [endDigital]

@[simp] theorem kept_applySet (s : State) (p : PortId) (set : Tab (BitVec 32)) (staged : List Nat) (count : Bool) :
    kept (applySet s p set staged count) = kept s := by simp [applySet]

@[simp] theorem kept_applyShadow (s : State) (p : PortId) (count : Bool) :
    kept (applyShadow s p count) = kept s := by simp [applyShadow]

@[simp] theorem kept_restartForMode (s : State) (p : PortId) :
    kept (restartForMode s p) = kept s := by simp [restartForMode]

@[simp] theorem kept_restartForPolicy (s : State) (p : PortId) :
    kept (restartForPolicy s p) = kept s := by simp [restartForPolicy]

@[simp] theorem kept_applyHerd (s : State) (h : HerdId) (modeSet : BitVec 5) (policy : Bool) :
    kept (applyHerd s h modeSet policy) = kept s := by simp [applyHerd]

@[simp] theorem kept_herdRestarts (s : State) (h : HerdId) (modeChanged policyChanged : Bool) :
    kept (herdRestarts s h modeChanged policyChanged) = kept s := by
  unfold herdRestarts; split <;> simp

@[simp] theorem kept_herdApply (s : State) (h : HerdId) (k : Commit) :
    kept (herdApply s h k) = kept s := by simp [herdApply]

@[simp] theorem kept_commitHerd (s : State) (c : Cmd) (h : HerdId) :
    kept (commitHerd s c h) = kept s := by
  unfold commitHerd; split <;> simp

@[simp] theorem kept_commitPort (s : State) (c : Cmd) (p : PortId) :
    kept (commitPort s c p) = kept s := by
  unfold commitPort; simp only []; repeat' (first | (simp; done) | split)

@[simp] theorem kept_execPortCommit (c : Cmd) (t : Target) (s : State) :
    keptO (execPortCommit c t s) = some (kept s) := by
  unfold execPortCommit; repeat' (first | (simp; done) | split)

@[simp] theorem kept_execPortEnable (c : Cmd) (p : PortId) (s : State) :
    keptO (execPortEnable c p s) = some (kept s) := by
  unfold execPortEnable; repeat' (first | (simp; done) | split)

@[simp] theorem kept_toDisabled (s : State) (p : PortId) : kept (toDisabled s p) = kept s := by simp [toDisabled]

@[simp] theorem kept_execPortDisable (c : Cmd) (p : PortId) (s : State) :
    keptO (execPortDisable c p s) = some (kept s) := by
  unfold execPortDisable; repeat' (first | (simp; done) | split)

@[simp] theorem kept_restartPort (s : State) (p : PortId) : kept (restartPort s p) = kept s := by simp [restartPort]

@[simp] theorem kept_execPortRestart (c : Cmd) (p : PortId) (s : State) :
    keptO (execPortRestart c p s) = some (kept s) := by
  unfold execPortRestart; repeat' (first | (simp; done) | split)

@[simp] theorem kept_execPortTrain (c : Cmd) (p : PortId) (s : State) :
    keptO (execPortTrain c p s) = some (kept s) := by
  unfold execPortTrain; repeat' (first | (simp; done) | split)

@[simp] theorem kept_askLoop (s : State) (c : Cmd) (p : PortId) (on : Bool) :
    kept (askLoop s c p on) = kept s := by simp [askLoop]

@[simp] theorem kept_execPortLoopbackOff (c : Cmd) (p : PortId) (s : State) :
    keptO (execPortLoopbackOff c p s) = some (kept s) := by
  unfold execPortLoopbackOff; repeat' (first | (simp; done) | split)

@[simp] theorem kept_execPortLoopbackDigital (c : Cmd) (p : PortId) (s : State) :
    keptO (execPortLoopbackDigital c p s) = some (kept s) := by
  unfold execPortLoopbackDigital; repeat' (first | (simp; done) | split)

@[simp] theorem kept_execPortLoopbackRemote (c : Cmd) (p : PortId) (s : State) :
    keptO (execPortLoopbackRemote c p s) = some (kept s) := by
  unfold execPortLoopbackRemote; repeat' (first | (simp; done) | split)

/-! ### Lanes -/

@[simp] theorem kept_setLane (s : State) (p : PortId) (l : Lane) : kept (setLane s p l) = kept s := by simp [setLane]

@[simp] theorem kept_postFallback (s : State) (p : PortId) (code : Nat) :
    kept (postFallback s p code) = kept s := by simp [postFallback]

@[simp] theorem kept_enterDetect (s : State) (p : PortId) (cause : Nat) :
    kept (enterDetect s p cause) = kept s := by simp [enterDetect]

@[simp] theorem kept_enterActive (s : State) (p : PortId) : kept (enterActive s p) = kept s := by simp [enterActive]

@[simp] theorem kept_execBlindTimeout (p : PortId) (s : State) :
    keptO (execBlindTimeout p s) = some (kept s) := by simp [execBlindTimeout]

@[simp] theorem kept_laneAdapt (s : State) (p : PortId) (l : Lane) :
    kept (laneAdapt s p l) = kept s := by simp [laneAdapt]

@[simp] theorem kept_execLaneLockAcquired (p : PortId) (rms levels : Nat) (snr : Int) (s : State) :
    keptO (execLaneLockAcquired p rms levels snr s) = some (kept s) := by simp [execLaneLockAcquired]

@[simp] theorem kept_enterReady (s : State) (p : PortId) : kept (enterReady s p) = kept s := by simp [enterReady]

@[simp] theorem kept_execLaneLockHoldExpiry (p : PortId) (s : State) :
    keptO (execLaneLockHoldExpiry p s) = some (kept s) := by
  unfold execLaneLockHoldExpiry; simp only []; repeat' (first | (simp; done) | split)

@[simp] theorem kept_execLaneLockLost (p : PortId) (rms : Nat) (snr : Int) (errs : Nat) (s : State) :
    keptO (execLaneLockLost p rms snr errs s) = some (kept s) := by
  unfold execLaneLockLost; simp only []; repeat' (first | (simp; done) | split)

@[simp] theorem kept_execDetectProbe (p : PortId) (found : Bool) (s : State) :
    keptO (execDetectProbe p found s) = some (kept s) := by simp [execDetectProbe]

@[simp] theorem kept_seekAsk (s : State) (p : PortId) (k : Seek) (t : Fin 4) (fresh : Bool) :
    kept (seekAsk s p k t fresh) = kept s := by simp [seekAsk]

@[simp] theorem kept_seekNext (s : State) (p : PortId) (k : Seek) (t : Fin 4) :
    kept (seekNext s p k t) = kept s := by
  unfold seekNext; split <;> simp

@[simp] theorem kept_seekStep (s : State) (p : PortId) (f : TrainFrame) :
    kept (seekStep s p f) = kept s := by
  unfold seekStep; simp only []; repeat' (first | (simp; done) | split)

@[simp] theorem kept_execTrainingFrameReceived (p : PortId) (f : TrainFrame) (s : State) :
    keptO (execTrainingFrameReceived p f s) = some (kept s) := by
  unfold execTrainingFrameReceived; simp only []; repeat' (first | (simp; done) | split)

@[simp] theorem kept_execTrainLockMet (p : PortId) (rms levels : Nat) (snr : Int) (errs : Nat) (s : State) :
    keptO (execTrainLockMet p rms levels snr errs s) = some (kept s) := by simp [execTrainLockMet]

@[simp] theorem kept_execLaneReadyDone (p : PortId) (s : State) :
    keptO (execLaneReadyDone p s) = some (kept s) := by simp [execLaneReadyDone]

@[simp] theorem kept_execFallbackLimitExpiry (p : PortId) (s : State) :
    keptO (execFallbackLimitExpiry p s) = some (kept s) := by simp [execFallbackLimitExpiry]

@[simp] theorem kept_execLaneTrain (c : Cmd) (p : PortId) (s : State) :
    keptO (execLaneTrain c p s) = some (kept s) := by
  unfold execLaneTrain; repeat' (first | (simp; done) | split)

@[simp] theorem kept_checkIn (s : State) (p : PortId) (bits : List Bool) :
    kept (checkIn s p bits) = kept s := by simp [checkIn]

@[simp] theorem kept_nearBits (s : State) (p : PortId) (bits : List Bool) :
    kept (nearBits s p bits) = kept s := by simp [nearBits]

@[simp] theorem kept_emitPattern (s : State) (p : PortId) : kept (emitPattern s p) = kept s := by simp [emitPattern]

@[simp] theorem kept_execLanePrbs (c : Cmd) (p : PortId) (apply gen chk inject burstLen periodK live : BitVec 8)
    (s : State) :
    keptO (execLanePrbs c p apply gen chk inject burstLen periodK live s) = some (kept s) := by
  unfold execLanePrbs; repeat' (first | (simp; done) | split)

@[simp] theorem kept_execCheckerLock (p : PortId) (bits : List Bool) (s : State) :
    keptO (execCheckerLock p bits s) = some (kept s) := by simp [execCheckerLock]

@[simp] theorem kept_execPeriodicInjection (p : PortId) (s : State) :
    keptO (execPeriodicInjection p s) = some (kept s) := by simp [execPeriodicInjection]

@[simp] theorem kept_hostLoop (s : State) (c : Cmd) (p : PortId) (which : LoopSt) (may : Bool) :
    kept (hostLoop s c p which may) = kept s := by
  unfold hostLoop; split <;> simp

@[simp] theorem kept_execLaneLoopbackOff (c : Cmd) (p : PortId) (s : State) :
    keptO (execLaneLoopbackOff c p s) = some (kept s) := by
  unfold execLaneLoopbackOff; repeat' (first | (simp; done) | split)

@[simp] theorem kept_execLaneLoopbackNear (c : Cmd) (p : PortId) (s : State) :
    keptO (execLaneLoopbackNear c p s) = some (kept s) := by simp [execLaneLoopbackNear]

@[simp] theorem kept_execLaneLoopbackFar (c : Cmd) (p : PortId) (s : State) :
    keptO (execLaneLoopbackFar c p s) = some (kept s) := by simp [execLaneLoopbackFar]

/-! ### LowPower -/

@[simp] theorem kept_enterQuiet (s : State) (p : PortId) : kept (enterQuiet s p) = kept s := by simp [enterQuiet]

@[simp] theorem kept_enterWake (s : State) (p : PortId) (cause : Nat) :
    kept (enterWake s p cause) = kept s := by simp [enterWake]

@[simp] theorem kept_wakeTrigger (s : State) (p : PortId) (cause : Nat) :
    kept (wakeTrigger s p cause) = kept s := by
  unfold wakeTrigger; simp only []; repeat' (first | (simp; done) | split)

@[simp] theorem kept_wakeInstant (s : State) (p : PortId) : kept (wakeInstant s p) = kept s := by simp [wakeInstant]

@[simp] theorem kept_signalMove (s : State) (p : PortId) (was on : Bool) :
    kept (signalMove s p was on) = kept s := by
  unfold signalMove; simp only []; repeat' (first | (simp; done) | split)

@[simp] theorem kept_lpiReceive (s : State) (p : PortId) (cls : Option (BitVec 16)) :
    kept (lpiReceive s p cls) = kept s := by
  unfold lpiReceive; simp only []; repeat' (first | (simp; done) | split)

@[simp] theorem kept_execLpiConfig (c : Cmd) (p : PortId) (enable autoIdle events : BitVec 8) (timer : BitVec 32)
    (s : State) :
    keptO (execLpiConfig c p enable autoIdle events timer s) = some (kept s) := by
  unfold execLpiConfig; repeat' (first | (simp; done) | split)

@[simp] theorem kept_execAutoIdleTimerExpiry (p : PortId) (s : State) :
    keptO (execAutoIdleTimerExpiry p s) = some (kept s) := by simp [execAutoIdleTimerExpiry]

@[simp] theorem kept_execLpiRefreshInstant (p : PortId) (s : State) :
    keptO (execLpiRefreshInstant p s) = some (kept s) := by simp [execLpiRefreshInstant]

@[simp] theorem kept_execLpiRefreshEnd (p : PortId) (locks4us : Bool) (s : State) :
    keptO (execLpiRefreshEnd p locks4us s) = some (kept s) := by simp [execLpiRefreshEnd]

@[simp] theorem kept_execLpiRefreshExtendExpiry (p : PortId) (s : State) :
    keptO (execLpiRefreshExtendExpiry p s) = some (kept s) := by simp [execLpiRefreshExtendExpiry]

@[simp] theorem kept_execLpiPartnerSignalExpiry (p : PortId) (s : State) :
    keptO (execLpiPartnerSignalExpiry p s) = some (kept s) := by simp [execLpiPartnerSignalExpiry]

@[simp] theorem kept_execLpiFirstCodewordInstant (p : PortId) (s : State) :
    keptO (execLpiFirstCodewordInstant p s) = some (kept s) := by simp [execLpiFirstCodewordInstant]

/-! ### Startup -/

@[simp] theorem kept_setNeg (s : State) (p : PortId) (n : Neg) : kept (setNeg s p n) = kept s := by simp [setNeg]

@[simp] theorem kept_sendPage (s : State) (p : PortId) (bits : BitVec 48) :
    kept (sendPage s p bits) = kept s := by simp [sendPage]

@[simp] theorem kept_sendOffer (s : State) (p : PortId) (k : Nat) :
    kept (sendOffer s p k) = kept s := by simp [sendOffer]

@[simp] theorem kept_execNegBreakLinkExpiry (p : PortId) (s : State) :
    keptO (execNegBreakLinkExpiry p s) = some (kept s) := by simp [execNegBreakLinkExpiry]

@[simp] theorem kept_execNegAttemptExpiry (p : PortId) (s : State) :
    keptO (execNegAttemptExpiry p s) = some (kept s) := by simp [execNegAttemptExpiry]

@[simp] theorem kept_execBasePageReceived (p : PortId) (page : BasePage) (s : State) :
    keptO (execBasePageReceived p page s) = some (kept s) := by simp [execBasePageReceived]

@[simp] theorem kept_offerFrom (p : PortId) (partner : BitVec 48) (m : LineMode) (fec : BitVec 8) (reads : List
    (CtxKey × CtxRead)) (x5 : Nat) (x6 : State) :
    kept ((offerFrom p partner m fec reads x5 x6).1) = kept x6 := by
  induction x5 generalizing x6 with
  | zero => rfl
  | succ k ih =>
    unfold offerFrom
    split
    · rfl
    · simp only []
      split
      · simp
      · simp [ih]

@[simp] theorem kept_loadOffer (s : State) (p : PortId) (reads : List (CtxKey × CtxRead)) :
    kept (loadOffer s p reads) = kept s := by
  unfold loadOffer; simp only []; repeat' (first | (simp; done) | split)

@[simp] theorem kept_completeNeg (s : State) (p : PortId) (n : Neg) (m : LineMode) (fec : BitVec 8) (role : Role) :
    kept (completeNeg s p n m fec role) = kept s := by
  unfold completeNeg; repeat' (first | (simp; done) | split)

@[simp] theorem kept_resolveNeg (s : State) (p : PortId) :
    kept (resolveNeg s p) = kept s := by
  unfold resolveNeg; simp only []; repeat' (first | (simp; done) | split)

@[simp] theorem kept_execNextPageReceived (p : PortId) (page : NextPage) (reads : List (CtxKey × CtxRead))
    (s : State) :
    keptO (execNextPageReceived p page reads s) = some (kept s) := by
  unfold execNextPageReceived; repeat' (first | (simp; done) | split)

@[simp] theorem kept_execDmeReceived (p : PortId) (s : State) :
    keptO (execDmeReceived p s) = some (kept s) := by simp [execDmeReceived]

@[simp] theorem kept_execSpringbokStartInstant (p : PortId) (read : CtxRead) (s : State) :
    keptO (execSpringbokStartInstant p read s) = some (kept s) := by
  unfold execSpringbokStartInstant; simp only []; repeat' (first | (simp; done) | split)

@[simp] theorem kept_sendCaps (s : State) (p : PortId) (gen : BitVec 32) :
    kept (sendCaps s p gen) = kept s := by simp [sendCaps]

@[simp] theorem kept_execSpringbokCheckPass (p : PortId) (s : State) :
    keptO (execSpringbokCheckPass p s) = some (kept s) := by simp [execSpringbokCheckPass]

@[simp] theorem kept_execSpringbokCheckExpiry (p : PortId) (s : State) :
    keptO (execSpringbokCheckExpiry p s) = some (kept s) := by simp [execSpringbokCheckExpiry]

@[simp] theorem kept_startDone (s : State) (p : PortId) : kept (startDone s p) = kept s := by simp [startDone]

@[simp] theorem kept_capsArrive (s : State) (p : PortId) (head : BitVec 96) (pay : BitVec 64) :
    kept (capsArrive s p head pay) = kept s := by simp [capsArrive]

@[simp] theorem kept_infoAcked (s : State) (p : PortId) (m : Msg) :
    kept (infoAcked s p m) = kept s := by
  unfold infoAcked; simp only []; repeat' (first | (simp; done) | split)

@[simp] theorem kept_infoArrive (s : State) (p : PortId) (head : BitVec 96) (type : BitVec 8) (pay : BitVec 64) :
    kept (infoArrive s p head type pay) = kept s := by simp [infoArrive]

@[simp] theorem kept_infoReceived (s : State) (p : PortId) (bits : BitVec 128) :
    kept (infoReceived s p bits) = kept s := by
  unfold infoReceived; simp only []; repeat' (first | (simp; done) | split)

@[simp] theorem kept_execInfofieldReceived (p : PortId) (bits : BitVec 128) (s : State) :
    keptO (execInfofieldReceived p bits s) = some (kept s) := by simp [execInfofieldReceived]

@[simp] theorem kept_execInfofieldRetryExpiry (p : PortId) (s : State) :
    keptO (execInfofieldRetryExpiry p s) = some (kept s) := by
  unfold execInfofieldRetryExpiry; simp only []; repeat' (first | (simp; done) | split)

@[simp] theorem kept_execT0CalibrationDone (p : PortId) (s : State) :
    keptO (execT0CalibrationDone p s) = some (kept s) := by simp [execT0CalibrationDone]

@[simp] theorem kept_sendTrain (s : State) (p : PortId) (word : BitVec 32) (us : Nat) :
    kept (sendTrain s p word us) = kept s := by simp [sendTrain]

@[simp] theorem kept_enterT1 (s : State) (p : PortId) (window : Nat) :
    kept (enterT1 s p window) = kept s := by simp [enterT1]

@[simp] theorem kept_execT0Burst (p : PortId) (s : State) :
    keptO (execT0Burst p s) = some (kept s) := by simp [execT0Burst]

@[simp] theorem kept_execT0SlaveReply (p : PortId) (s : State) :
    keptO (execT0SlaveReply p s) = some (kept s) := by simp [execT0SlaveReply]

@[simp] theorem kept_execT0DetectTimeout (p : PortId) (s : State) :
    keptO (execT0DetectTimeout p s) = some (kept s) := by simp [execT0DetectTimeout]

@[simp] theorem kept_execTrainWordAccepted (p : PortId) (copy1 copy2 : BitVec 32) (s : State) :
    keptO (execTrainWordAccepted p copy1 copy2 s) = some (kept s) := by simp [execTrainWordAccepted]

@[simp] theorem kept_enterT2 (s : State) (p : PortId) : kept (enterT2 s p) = kept s := by simp [enterT2]

@[simp] theorem kept_execT1WindowStart (p : PortId) (s : State) :
    keptO (execT1WindowStart p s) = some (kept s) := by simp [execT1WindowStart]

@[simp] theorem kept_execT2CriteriaMet (p : PortId) (s : State) :
    keptO (execT2CriteriaMet p s) = some (kept s) := by
  unfold execT2CriteriaMet; simp only []; repeat' (first | (simp; done) | split)

@[simp] theorem kept_execT2ConvergenceTimeout (p : PortId) (s : State) :
    keptO (execT2ConvergenceTimeout p s) = some (kept s) := by simp [execT2ConvergenceTimeout]

@[simp] theorem kept_execT3CapsTimeout (p : PortId) (s : State) :
    keptO (execT3CapsTimeout p s) = some (kept s) := by simp [execT3CapsTimeout]

@[simp] theorem kept_leadLoss (s : State) (p : PortId) (gained : Bool) :
    kept (leadLoss s p gained) = kept s := by simp [leadLoss]

@[simp] theorem kept_setLock (s : State) (p : PortId) (l : Locks) : kept (setLock s p l) = kept s := by simp [setLock]

@[simp] theorem kept_execSuperframeLockChange (p : PortId) (pair : PairId) (gained : Bool) (failed : Nat)
    (s : State) :
    keptO (execSuperframeLockChange p pair gained failed s) = some (kept s) := by simp [execSuperframeLockChange]

@[simp] theorem kept_execMarkerLockChange (p : PortId) (errs skews : List Nat) (s : State) :
    keptO (execMarkerLockChange p errs skews s) = some (kept s) := by simp [execMarkerLockChange]

@[simp] theorem kept_execTimingLockChange (p : PortId) (rms peak : Nat) (s : State) :
    keptO (execTimingLockChange p rms peak s) = some (kept s) := by simp [execTimingLockChange]

@[simp] theorem kept_execSignalDetectChange (p : PortId) (pair : PairId) (s : State) :
    keptO (execSignalDetectChange p pair s) = some (kept s) := by simp [execSignalDetectChange]

@[simp] theorem kept_execSignalLossExpiry (p : PortId) (s : State) :
    keptO (execSignalLossExpiry p s) = some (kept s) := by
  unfold execSignalLossExpiry; simp only []; repeat' (first | (simp; done) | split)

@[simp] theorem kept_execTimingLossExpiry (p : PortId) (s : State) :
    keptO (execTimingLossExpiry p s) = some (kept s) := by simp [execTimingLossExpiry]

@[simp] theorem kept_execFrameLossExpiry (p : PortId) (s : State) :
    keptO (execFrameLossExpiry p s) = some (kept s) := by simp [execFrameLossExpiry]

@[simp] theorem kept_execHandoverTrigger (h : HerdId) (s : State) :
    keptO (execHandoverTrigger h s) = some (kept s) := by simp [execHandoverTrigger]

@[simp] theorem kept_execHandoverDone (h : HerdId) (s : State) :
    keptO (execHandoverDone h s) = some (kept s) := by
  unfold execHandoverDone; repeat' (first | (simp; done) | split)

@[simp] theorem kept_execHoldoverTimeout (h : HerdId) (s : State) :
    keptO (execHoldoverTimeout h s) = some (kept s) := by simp [execHoldoverTimeout]

/-! ### Line -/

@[simp] theorem kept_countBad (s : State) (p : PortId) : kept (countBad s p) = kept s := by simp [countBad]

@[simp] theorem kept_slip (s : State) (p : PortId) : kept (slip s p) = kept s := by simp [slip]

@[simp] theorem kept_pushPass (s : State) (p : PortId) (cw : HostCw) :
    kept (pushPass s p cw) = kept s := by simp [pushPass]

@[simp] theorem kept_hostIn (s : State) (p : PortId) (cw : HostCw) : kept (hostIn s p cw) = kept s := by simp [hostIn]

@[simp] theorem kept_execHostinCwLockChange (p : PortId) (gained : Bool) (s : State) :
    keptO (execHostinCwLockChange p gained s) = some (kept s) := by simp [execHostinCwLockChange]

@[simp] theorem kept_hostOut (s : State) (p : PortId) (what : String) (kind : CwKind) (syms : List (BitVec 10)) :
    kept (hostOut s p what kind syms) = kept s := by simp [hostOut]

@[simp] theorem kept_segOut (s : State) (p : PortId) (g : HostCw) :
    kept (segOut s p g) = kept s := by
  unfold segOut; split <;> simp

@[simp] theorem kept_adapterOut (s : State) (p : PortId) :
    kept (adapterOut s p) = kept s := by
  unfold adapterOut; simp only []; repeat' (first | (simp; done) | split)

@[simp] theorem kept_adapterRun (x0 : Nat) (x1 : State) (x2 : PortId) :
    kept (adapterRun x0 x1 x2) = kept x1 := by
  induction x0 generalizing x1 with
  | zero => rfl
  | succ k ih => simp [adapterRun, ih]

@[simp] theorem kept_adapterStep (s : State) (p : PortId) (g : HostCw) :
    kept (adapterStep s p g) = kept s := by simp [adapterStep]

@[simp] theorem kept_deliver (s : State) (p : PortId) (cw : HostCw) :
    kept (deliver s p cw) = kept s := by
  unfold deliver; repeat' (first | (simp; done) | split)

@[simp] theorem kept_gapOut (s : State) (p : PortId) : kept (gapOut s p) = kept s := by simp [gapOut]

@[simp] theorem kept_loopBack (s : State) (p : PortId) (cw : HostCw) :
    kept (loopBack s p cw) = kept s := by simp [loopBack]

@[simp] theorem kept_frameSlot (s : State) (p : PortId) (shares : Quad (List Bool)) (slot : RxSlot) :
    kept (frameSlot s p shares slot) = kept s := by
  unfold frameSlot; simp only []; repeat' (first | (simp; done) | split)

@[simp] theorem kept_rxStretch (s : State) (p : PortId) (ph : RxPhase) (slot : RxSlot) :
    kept ((rxStretch s p ph slot).1) = kept s := by simp [rxStretch]

@[simp] theorem kept_rxShares (s : State) (p : PortId) (l : Quad (List Dec)) :
    kept ((rxShares s p l).1) = kept s := by simp [rxShares]

@[simp] theorem kept_execLineSlotReceived (p : PortId) (slot : RxSlot) (s : State) :
    keptO (execLineSlotReceived p slot s) = some (kept s) := by
  unfold execLineSlotReceived; simp only []; repeat' (first | (simp; done) | split)

@[simp] theorem kept_execHostCodewordReceived (p : PortId) (cw : HostCw) (s : State) :
    keptO (execHostCodewordReceived p cw s) = some (kept s) := by simp [execHostCodewordReceived]

@[simp] theorem kept_serviceSlot (s : State) (p : PortId) :
    kept ((serviceSlot s p).1) = kept s := by
  unfold serviceSlot; simp only []; repeat' (first | (simp; done) | split)

@[simp] theorem kept_gapStep (s : State) (p : PortId) (k : TxKind) :
    kept (gapStep s p k) = kept s := by simp [gapStep]

@[simp] theorem kept_slotContent (s : State) (p : PortId) :
    kept ((slotContent s p).1) = kept s := by
  unfold slotContent; simp only []; repeat' (first | (simp; done) | split)

@[simp] theorem kept_slotSent (s : State) (p : PortId) (k : TxKind) :
    kept (slotSent s p k) = kept s := by simp [slotSent]

@[simp] theorem kept_driveLine (s : State) (p : PortId) (codes : Quad (List Int)) :
    kept (driveLine s p codes) = kept s := by simp [driveLine]

@[simp] theorem kept_sendTraining (s : State) (p : PortId) (word : BitVec 32) (left : Nat) :
    kept (sendTraining s p word left) = kept s := by simp [sendTraining]

@[simp] theorem kept_quietSlot (s : State) (p : PortId) : kept (quietSlot s p) = kept s := by simp [quietSlot]

@[simp] theorem kept_sendFrame (s : State) (p : PortId) : kept (sendFrame s p) = kept s := by simp [sendFrame]

@[simp] theorem kept_turnSlot (s : State) (p : PortId) :
    kept (turnSlot s p) = kept s := by
  unfold turnSlot; simp only []; repeat' (first | (simp; done) | split)

@[simp] theorem kept_execLineSlotTransmit (p : PortId) (s : State) :
    keptO (execLineSlotTransmit p s) = some (kept s) := by
  unfold execLineSlotTransmit; simp only []; repeat' (first | (simp; done) | split)

/-! ### Adapt -/

@[simp] theorem kept_execBundleSurveyDone (p : PortId) (pair : PairId) (couplings : List (Fin 2048 × Int))
    (s : State) :
    keptO (execBundleSurveyDone p pair couplings s) = some (kept s) := by
  unfold execBundleSurveyDone; simp only []; repeat' (first | (simp; done) | split)

@[simp] theorem kept_execBundleResurveyExpiry (p : PortId) (s : State) :
    keptO (execBundleResurveyExpiry p s) = some (kept s) := by simp [execBundleResurveyExpiry]

@[simp] theorem kept_execAdaptAcqTimeout (p : PortId) (s : State) :
    keptO (execAdaptAcqTimeout p s) = some (kept s) := by simp [execAdaptAcqTimeout]

@[simp] theorem kept_execAdaptFineEntry (p : PortId) (pair : PairId) (s : State) :
    keptO (execAdaptFineEntry p pair s) = some (kept s) := by simp [execAdaptFineEntry]

@[simp] theorem kept_execWanderSnapshot (p : PortId) (s : State) :
    keptO (execWanderSnapshot p s) = some (kept s) := by simp [execWanderSnapshot]

@[simp] theorem kept_execWanderCheck (p : PortId) (s : State) :
    keptO (execWanderCheck p s) = some (kept s) := by
  unfold execWanderCheck; simp only []; repeat' (first | (simp; done) | split)

/-! ### Bus -/

@[simp] theorem kept_touch (s : State) : kept (touch s) = kept s := by simp [touch]

@[simp] theorem kept_sendPending (s : State) (v : Nat) : kept (sendPending s v) = kept s := by simp [sendPending]

@[simp] theorem kept_sendAllPending (s : State) : kept (sendAllPending s) = kept s := by simp [sendAllPending]

@[simp] theorem kept_accessErr (s : State) (off : Nat) (write : Bool) (cause : Nat) :
    kept (accessErr s off write cause) = kept s := by
  unfold accessErr; split <;> simp

@[simp] theorem kept_wakeBegin (s : State) (src : BitVec 4) (replayed : Bool) (from_ : Fin 5) :
    kept (wakeBegin s src replayed from_) = kept s := by simp [wakeBegin]

@[simp] theorem kept_wakeSource (s : State) (src : BitVec 4) :
    kept (wakeSource s src) = kept s := by
  unfold wakeSource; repeat' (first | (simp; done) | split)

@[simp] theorem kept_ringFault (s : State) (r : RingId) (cause : Nat) :
    kept (ringFault s r cause) = kept s := by simp [ringFault]

@[simp] theorem kept_completeHead (s : State) (r : RingId) (d : CmdDesc) (rest : List CmdDesc) (status : BitVec 8)
    (result : BitVec 64) :
    kept (completeHead s r d rest status result) = kept s := by simp [completeHead]

@[simp] theorem kept_ringError (s : State) (r : RingId) (cause : Nat) :
    kept (ringError s r cause) = kept s := by
  unfold ringError; simp only []; repeat' (first | (simp; done) | split)

@[simp] theorem kept_fetchFrom (s : State) (r : RingId) (index n : Nat) :
    kept (fetchFrom s r index n) = kept s := by simp [fetchFrom]

@[simp] theorem kept_doorbellPost (s : State) (r : RingId) (idx : Nat) (descs : List (List Byte)) :
    kept (doorbellPost s r idx descs) = kept s := by simp [doorbellPost]

@[simp] theorem kept_doorbellReturn (s : State) (r : RingId) (idx : Nat) (arm : Bool) :
    kept (doorbellReturn s r idx arm) = kept s := by simp [doorbellReturn]

@[simp] theorem kept_doorbellAct (s : State) (r : RingId) (word : BitVec 32) (descs : List (List Byte)) :
    kept (doorbellAct s r word descs) = kept s := by
  unfold doorbellAct; simp only []; repeat' (first | (simp; done) | split)

@[simp] theorem kept_doorbellLatch (s : State) (r : RingId) (word : BitVec 32) (descs : List (List Byte)) :
    kept (doorbellLatch s r word descs) = kept s := by simp [doorbellLatch]

@[simp] theorem kept_actLatched (s : State) : kept (actLatched s) = kept s := by simp [actLatched]

@[simp] theorem kept_resumeHost (s : State) : kept (resumeHost s) = kept s := by simp [resumeHost]

/-! ### Host -/

@[simp] theorem kept_doorbellOne (work : List Handed) (s : State) (e : RingId × BitVec 32) :
    kept (doorbellOne work s e) = kept s := by simp [doorbellOne]

@[simp] theorem kept_execDoorbellWrite (addr : BitVec 18) (bytes : List Byte) (work : List Handed) (s : State) :
    keptO (execDoorbellWrite addr bytes work s) = some (kept s) := by simp [execDoorbellWrite]

@[simp] theorem kept_reserveEntry (s : State) (r : RingId) :
    kept (reserveEntry s r) = kept s := by simp [reserveEntry]

@[simp] theorem kept_dispatchHead (s : State) (r : RingId) (d : CmdDesc) (rest : List CmdDesc) (t : Target) :
    kept (dispatchHead s r d rest t) = kept s := by
  unfold dispatchHead; split <;> simp

@[simp] theorem kept_headReady (s : State) (r : RingId) : kept (headReady s r) = kept s := by simp [headReady]

@[simp] theorem kept_dispatchStep (s : State) (r : RingId) :
    kept (dispatchStep s r) = kept s := by
  unfold dispatchStep; simp only []; repeat' (first | (simp; done) | split)

@[simp] theorem kept_execRingDispatch (r : RingId) (s : State) :
    keptO (execRingDispatch r s) = some (kept s) := by simp [execRingDispatch]

@[simp] theorem kept_enableRing (s : State) (r : RingId) :
    kept (enableRing s r) = kept s := by
  unfold enableRing; split <;> simp

@[simp] theorem kept_supersedeAll (r : RingId) (x1 : List CmdDesc) (x2 : State) :
    kept (supersedeAll r x1 x2) = kept x2 := by
  induction x1 generalizing x2 with
  | nil => rfl
  | cons d l ih => simp [supersedeAll, ih]

@[simp] theorem kept_returnAll (kind : BitVec 3) (r : RingId) (x2 : List DataDesc) (x3 : State) :
    kept (returnAll kind r x2 x3) = kept x3 := by
  induction x2 generalizing x3 with
  | nil => rfl
  | cons d l ih => simp [returnAll, ih]

@[simp] theorem kept_disableRing (s : State) (r : RingId) :
    kept (disableRing s r) = kept s := by
  unfold disableRing; simp only []; repeat' (first | (simp; done) | split)

@[simp] theorem kept_execRingEnable (r : RingId) (s : State) :
    keptO (execRingEnable r s) = some (kept s) := by simp [execRingEnable]

@[simp] theorem kept_execRingDisable (r : RingId) (s : State) :
    keptO (execRingDisable r s) = some (kept s) := by simp [execRingDisable]

@[simp] theorem kept_execRingDrainDone (r : RingId) (s : State) :
    keptO (execRingDrainDone r s) = some (kept s) := by simp [execRingDrainDone]

@[simp] theorem kept_execRingDmaFault (r : RingId) (s : State) :
    keptO (execRingDmaFault r s) = some (kept s) := by simp [execRingDmaFault]

@[simp] theorem kept_snapFail (s : State) (n : Snap) : kept (snapFail s n) = kept s := by simp [snapFail]

@[simp] theorem kept_execVectorHoldoffExpiry (v : Fin 2048) (s : State) :
    keptO (execVectorHoldoffExpiry v s) = some (kept s) := by simp [execVectorHoldoffExpiry]

@[simp] theorem kept_execMsixMaskChange (m : MsixChange) (s : State) :
    keptO (execMsixMaskChange m s) = some (kept s) := by
  unfold execMsixMaskChange; repeat' (first | (simp; done) | split)

@[simp] theorem kept_execBusMasterEnableChange (on : Bool) (s : State) :
    keptO (execBusMasterEnableChange on s) = some (kept s) := by simp [execBusMasterEnableChange]

/-! ### Events -/

@[simp] theorem kept_deliverFrom (s : State) (x1 : List Event) (x2 : List RingId) (x3 : Nat) :
    kept ((deliverFrom s x1 x2 x3).st) = kept s := by
  induction x1 generalizing s x2 x3 with
  | nil => rfl
  | cons e l ih =>
    unfold deliverFrom
    split
    · simp [ih]
    · split <;> simp [ih]

@[simp] theorem kept_setInHub (s : State) (h : HerdId) (l : List Event) :
    kept (setInHub s h l) = kept s := by simp [setInHub]

@[simp] theorem kept_deliverHerd (s : State) (h : HerdId) (n : Nat) :
    kept ((deliverHerd s h n).1) = kept s := by
  unfold deliverHerd; repeat' (first | (simp; done) | split)

@[simp] theorem kept_deliverHub (s : State) (n : Nat) : kept (deliverHub s n) = kept s := by simp [deliverHub]

@[simp] theorem kept_drainHerd (s : State) (h : HerdId) : kept ((drainHerd s h).1) = kept s := by simp [drainHerd]

@[simp] theorem kept_execEventDelivery (h : Option HerdId) (s : State) :
    keptO (execEventDelivery h s) = some (kept s) := by
  unfold execEventDelivery; repeat' (first | (simp; done) | split)

@[simp] theorem kept_execEventCoalesceExpiry (source : Fin 8448) (kind : Fin 4) (s : State) :
    keptO (execEventCoalesceExpiry source kind s) = some (kept s) := by
  unfold execEventCoalesceExpiry; simp only []; repeat' (first | (simp; done) | split)

@[simp] theorem kept_keepKnown (s : State) (d : DieId) : kept (keepKnown s d) = kept s := by simp [keepKnown]

@[simp] theorem kept_splitBuf (s : State) (h : HerdId) : kept (splitBuf s h) = kept s := by simp [splitBuf]

@[simp] theorem kept_d2dLost (s : State) (d : DieId) : kept (d2dLost s d) = kept s := by simp [d2dLost]

@[simp] theorem kept_d2dBack (s : State) (d : DieId) :
    kept (d2dBack s d) = kept s := by
  unfold d2dBack
  simp only [kept_clearCause, kept_postGlobal]
  rw [kept_foldl_fst _ _ _ (fun s h => by simp)]
  simp

@[simp] theorem kept_execD2dTrainingLost (d : DieId) (s : State) :
    keptO (execD2dTrainingLost d s) = some (kept s) := by simp [execD2dTrainingLost]

@[simp] theorem kept_execD2dRetrainAttempt (d : DieId) (ok : Bool) (s : State) :
    keptO (execD2dRetrainAttempt d ok s) = some (kept s) := by simp [execD2dRetrainAttempt]

@[simp] theorem kept_execHerdTimeCorrection (h : HerdId) (s : State) :
    keptO (execHerdTimeCorrection h s) = some (kept s) := by simp [execHerdTimeCorrection]

/-! ### Clocks -/

@[simp] theorem kept_hubToPll (s : State) : kept (hubToPll s) = kept s := by simp [hubToPll]

@[simp] theorem kept_lanesIdle (s : State) (h : HerdId) : kept (lanesIdle s h) = kept s := by simp [lanesIdle]

@[simp] theorem kept_lanesStart (s : State) (h : HerdId) : kept (lanesStart s h) = kept s := by simp [lanesStart]

@[simp] theorem kept_pllGainEffect (s : State) (k : PllKind) :
    kept (pllGainEffect s k) = kept s := by
  unfold pllGainEffect; split <;> simp

@[simp] theorem kept_pllJudged (s : State) (k : PllKind) : kept (pllJudged s k) = kept s := by simp [pllJudged]

@[simp] theorem kept_pllGood (s : State) (k : PllKind) : kept (pllGood s k) = kept s := by simp [pllGood]

@[simp] theorem kept_execPllReacquire (u : PllId) (s : State) :
    keptO (execPllReacquire u s) = some (kept s) := by
  unfold execPllReacquire; repeat' (first | (simp; done) | split)

@[simp] theorem kept_switchForced (s : State) (d : Domain) (onPll : Bool) :
    kept (switchForced s d onPll) = kept s := by simp [switchForced]

@[simp] theorem kept_execDomainSwitch (d : Domain) (toPll : Bool) (s : State) :
    keptO (execDomainSwitch d toPll s) = some (kept s) := by simp [execDomainSwitch]

@[simp] theorem kept_execSwitchEdgeTimeout (d : Domain) (s : State) :
    keptO (execSwitchEdgeTimeout d s) = some (kept s) := by
  unfold execSwitchEdgeTimeout; repeat' (first | (simp; done) | split)

@[simp] theorem kept_stopDomain (s : State) (d : Domain) : kept (stopDomain s d) = kept s := by simp [stopDomain]

@[simp] theorem kept_toBypass (s : State) (d : Domain) : kept (toBypass s d) = kept s := by simp [toBypass]

@[simp] theorem kept_railFault (s : State) (r : RailId) (mv : Nat) :
    kept (railFault s r mv) = kept s := by
  unfold railFault; simp only []; repeat' (first | (simp; done) | split)

@[simp] theorem kept_supplyEvent (s : State) (r : RailId) (left : Bool) (mv : BitVec 16) :
    kept (supplyEvent s r left mv) = kept s := by simp [supplyEvent]

@[simp] theorem kept_execSupplyWindowExit (r : RailId) (mv : BitVec 16) (s : State) :
    keptO (execSupplyWindowExit r mv s) = some (kept s) := by simp [execSupplyWindowExit]

@[simp] theorem kept_execSupplyWindowReentry (r : RailId) (mv : BitVec 16) (s : State) :
    keptO (execSupplyWindowReentry r mv s) = some (kept s) := by simp [execSupplyWindowReentry]

@[simp] theorem kept_execAvsStatusAlert (r : RailId) (regFault : Bool) (s : State) :
    keptO (execAvsStatusAlert r regFault s) = some (kept s) := by simp [execAvsStatusAlert]

/-! ### Restart -/

@[simp] theorem kept_bootHub (s : State) : kept (bootHub s) = kept s := by simp [bootHub]

@[simp] theorem kept_postPasses (s : State) : kept (postPasses s) = kept s := by simp [postPasses]

@[simp] theorem kept_ddrTrain (s : State) (c : ChanId) : kept (ddrTrain s c) = kept s := by simp [ddrTrain]

@[simp] theorem kept_bootDdr (s : State) (bad : Option ChanId) : kept (bootDdr s bad) = kept s := by simp [bootDdr]

@[simp] theorem kept_bootLinks (s : State) : kept (bootLinks s) = kept s := by simp [bootLinks]

@[simp] theorem kept_bootHerds (s : State) : kept (bootHerds s) = kept s := by simp [bootHerds]

@[simp] theorem kept_bootCal (s : State) : kept (bootCal s) = kept s := by simp [bootCal]

@[simp] theorem kept_clocksUp (s : State) : kept (clocksUp s) = kept s := by simp [clocksUp]

@[simp] theorem kept_bootRun (s : State) : kept (bootRun s) = kept s := by simp [bootRun]

/-! ### Power -/

@[simp] theorem kept_postLevel (s : State) (d : DieId) (n : Nat) :
    kept (postLevel s d n) = kept s := by simp [postLevel]

@[simp] theorem kept_levelWaits (s : State) (d : DieId) : kept (levelWaits s d) = kept s := by simp [levelWaits]

@[simp] theorem kept_applyWaiting (s : State) (h : HerdId) :
    kept (applyWaiting s h) = kept s := by
  unfold applyWaiting; split <;> simp

@[simp] theorem kept_execSequencerStepEnd (d : DieId) (s : State) :
    keptO (execSequencerStepEnd d s) = some (kept s) := by
  unfold execSequencerStepEnd; simp only []; repeat' (first | (simp; done) | split)

@[simp] theorem kept_execPwrLevel (c : Cmd) (die floor : BitVec 8) (s : State) :
    keptO (execPwrLevel c die floor s) = some (kept s) := by simp [execPwrLevel]

@[simp] theorem kept_dieTo (s : State) (d : DieId) (n : Nat) : kept (dieTo s d n) = kept s := by simp [dieTo]

@[simp] theorem kept_portSleep (s : State) (p : PortId) :
    kept (portSleep s p) = kept s := by
  unfold portSleep; simp only []; repeat' (first | (simp; done) | split)

@[simp] theorem kept_entryBegin (s : State) (t : Fin 5) : kept (entryBegin s t) = kept s := by simp [entryBegin]

@[simp] theorem kept_powerPoll (s : State) :
    kept (powerPoll s) = kept s := by
  unfold powerPoll; split <;> simp

@[simp] theorem kept_sleepCalled (s : State) : kept (sleepCalled s) = kept s := by simp [sleepCalled]

@[simp] theorem kept_execPwrStateSleep (c : Cmd) (s : State) :
    keptO (execPwrStateSleep c s) = some (kept s) := by
  unfold execPwrStateSleep; split <;> simp

@[simp] theorem kept_execPwrStateDeepSleep (c : Cmd) (s : State) :
    keptO (execPwrStateDeepSleep c s) = some (kept s) := by
  unfold execPwrStateDeepSleep; split <;> simp

@[simp] theorem kept_execPwrStateOff (c : Cmd) (s : State) :
    keptO (execPwrStateOff c s) = some (kept s) := by
  unfold execPwrStateOff; split <;> simp

@[simp] theorem kept_sleepRec (s : State) (h : HerdId) : kept (sleepRec s h) = kept s := by simp [sleepRec]

@[simp] theorem kept_entrySettle (s : State) : kept (entrySettle s) = kept s := by simp [entrySettle]

@[simp] theorem kept_sleepReached (s : State) : kept (sleepReached s) = kept s := by simp [sleepReached]

@[simp] theorem kept_cancelSchedules (s : State) :
    kept (cancelSchedules s) = kept s := by
  unfold cancelSchedules; split <;> simp

@[simp] theorem kept_replayWake (s : State) (t : Fin 5) :
    kept (replayWake s t) = kept s := by
  unfold replayWake; split <;> simp

@[simp] theorem kept_execPowerEntryDone (s : State) :
    keptO (execPowerEntryDone s) = some (kept s) := by
  unfold execPowerEntryDone; repeat' (first | (simp; done) | split)

@[simp] theorem kept_execIdleTimerExpiry (s : State) :
    keptO (execIdleTimerExpiry s) = some (kept s) := by simp [execIdleTimerExpiry]

@[simp] theorem kept_execSleepTimerExpiry (s : State) :
    keptO (execSleepTimerExpiry s) = some (kept s) := by simp [execSleepTimerExpiry]

@[simp] theorem kept_execDeepTimerExpiry (s : State) :
    keptO (execDeepTimerExpiry s) = some (kept s) := by simp [execDeepTimerExpiry]

@[simp] theorem kept_hostAccess (s : State) (a : HostAccess) :
    kept (hostAccess s a) = kept s := by
  unfold hostAccess; split <;> simp

@[simp] theorem kept_execHostActivity (a : HostAccess) (s : State) :
    keptO (execHostActivity a s) = some (kept s) := by
  unfold execHostActivity; split <;> simp

@[simp] theorem kept_execWakeNAssert (s : State) :
    keptO (execWakeNAssert s) = some (kept s) := by simp [execWakeNAssert]

@[simp] theorem kept_execSidebandAddressMatch (addr : BitVec 7) (s : State) :
    keptO (execSidebandAddressMatch addr s) = some (kept s) := by simp [execSidebandAddressMatch]

@[simp] theorem kept_postWake (s : State) : kept (postWake s) = kept s := by simp [postWake]

@[simp] theorem kept_portResume (s : State) (p : PortId) : kept (portResume s p) = kept s := by simp [portResume]

@[simp] theorem kept_sleepRestore (s : State) : kept (sleepRestore s) = kept s := by simp [sleepRestore]

@[simp] theorem kept_dieUp (s : State) (d : DieId) : kept (dieUp s d) = kept s := by simp [dieUp]

@[simp] theorem kept_bankFaults (s : State) (mask : BitVec 4) :
    kept (bankFaults s mask) = kept s := by simp [bankFaults]

@[simp] theorem kept_lanesHeld (s : State) : kept (lanesHeld s) = kept s := by simp [lanesHeld]

@[simp] theorem kept_wakeEnds (s : State) : kept (wakeEnds s) = kept s := by simp [wakeEnds]

@[simp] theorem kept_portRelease (s : State) (p : PortId) : kept (portRelease s p) = kept s := by simp [portRelease]

@[simp] theorem kept_releasePads (s : State) : kept (releasePads s) = kept s := by simp [releasePads]

@[simp] theorem kept_execPadRelease (s : State) : keptO (execPadRelease s) = some (kept s) := by simp [execPadRelease]

/-! ### Registers -/

@[simp] theorem kept_endAccess (s : State) (off : Nat) (write : Bool) (cause : Nat) :
    kept (endAccess s off write cause) = kept s := by simp [endAccess]

@[simp] theorem kept_inject (s : State) (source : Nat) (network : Bool) :
    kept (inject s source network) = kept s := by simp [inject]

@[simp] theorem kept_writeInject (s : State) (val : BitVec 32) :
    kept (writeInject s val) = kept s := by simp [writeInject]

@[simp] theorem kept_writeAccess (s : State) (val : BitVec 32) :
    kept (writeAccess s val) = kept s := by simp [writeAccess]

@[simp] theorem kept_writeLow (s : State) (off : BitVec 26) (val : BitVec 32) :
    kept (writeLow s off val) = kept s := by simp [writeLow]

@[simp] theorem kept_writePads (s : State) (val : BitVec 32) : kept (writePads s val) = kept s := by simp [writePads]

@[simp] theorem kept_writeRingCtrl (s : State) (r : RingId) (val : BitVec 32) :
    kept (writeRingCtrl s r val) = kept s := by simp [writeRingCtrl]

@[simp] theorem kept_busRead (s : State) (off : BitVec 26) :
    kept (busRead s off) = kept s := by
  unfold busRead; simp only []; repeat' (first | (simp; done) | split)

@[simp] theorem kept_execReg64LowRead (off : BitVec 26) (s : State) :
    keptO (execReg64LowRead off s) = some (kept s) := by simp [execReg64LowRead]

@[simp] theorem kept_execBar0BadAccess (off : BitVec 26) (write : Bool) (s : State) :
    keptO (execBar0BadAccess off write s) = some (kept s) := by simp [execBar0BadAccess]

@[simp] theorem kept_execBlockAccessRefused (off : BitVec 26) (write : Bool) (s : State) :
    keptO (execBlockAccessRefused off write s) = some (kept s) := by
  unfold execBlockAccessRefused; repeat' (first | (simp; done) | split)

@[simp] theorem kept_execGateAccessTimeout (off : BitVec 26) (write : Bool) (s : State) :
    keptO (execGateAccessTimeout off write s) = some (kept s) := by simp [execGateAccessTimeout]

@[simp] theorem kept_execMirrorMeasuredUpdate (o : MirrorObj) (s : State) :
    keptO (execMirrorMeasuredUpdate o s) = some (kept s) := by simp [execMirrorMeasuredUpdate]

@[simp] theorem kept_execFmcWindowEnd (count : BitVec 24) (s : State) :
    keptO (execFmcWindowEnd count s) = some (kept s) := by simp [execFmcWindowEnd]

@[simp] theorem kept_execLedFrame (s : State) : keptO (execLedFrame s) = some (kept s) := by simp [execLedFrame]

/-! ### Firmware -/

@[simp] theorem kept_noteRefusal (s : State) (code : BitVec 8) :
    kept (noteRefusal s code) = kept s := by simp [noteRefusal]

@[simp] theorem kept_dropKind (s : State) (k : Fin 3) : kept (dropKind s k) = kept s := by simp [dropKind]

@[simp] theorem kept_stageKind (s : State) (k : Fin 3) (i : Img) :
    kept (stageKind s k i) = kept s := by simp [stageKind]

@[simp] theorem kept_postSession (s : State) (source : BitVec 8) (n : Nat) (digest : BitVec 256) :
    kept (postSession s source n digest) = kept s := by simp [postSession]

@[simp] theorem kept_closeSession (s : State) :
    kept (closeSession s) = kept s := by
  unfold closeSession; split <;> simp

@[simp] theorem kept_conflict (s : State) (h : ImageHeader) :
    kept (conflict s h) = kept s := by
  unfold conflict; repeat' (first | (simp; done) | split)

@[simp] theorem kept_openSession (s : State) (source : BitVec 8) (h : ImageHeader) (c : Option Cmd) :
    kept ((openSession s source h c).1) = kept s := by
  unfold openSession; split <;> simp

@[simp] theorem kept_sessionRefuse (s : State) (code : BitVec 8) :
    kept (sessionRefuse s code) = kept s := by
  unfold sessionRefuse; repeat' (first | (simp; done) | split)

@[simp] theorem kept_sessionOk (s : State) (x : Session) :
    kept (sessionOk s x) = kept s := by
  unfold sessionOk; split <;> simp

@[simp] theorem kept_ibexMark (s : State) (h : ImageHeader) : kept (ibexMark s h) = kept s := by simp [ibexMark]

@[simp] theorem kept_bodyDone (s : State) (digestOk : Bool) :
    kept (bodyDone s digestOk) = kept s := by
  unfold bodyDone; split <;> simp

@[simp] theorem kept_flashSlot (s : State) (k : Fin 3) (digest : BitVec 256) :
    kept (flashSlot s k digest) = kept s := by simp [flashSlot]

@[simp] theorem kept_programDone (s : State) (ok : Bool) :
    kept (programDone s ok) = kept s := by
  unfold programDone
  repeat'
    first
    | (simp; done)
    | split
    | refine (kept_forEach _ _ _ ?_).trans ?_
    | refine (kept_foldl _ _ _ ?_).trans ?_
    | intro _ _
    | simp

@[simp] theorem kept_returnRest (r : RingId) (x1 : List DataDesc) (x2 : State) :
    kept (returnRest r x1 x2) = kept x2 := by
  induction x1 generalizing x2 with
  | nil => simp [returnRest]
  | cons d l ih =>
    unfold returnRest
    split
    · simp [ih]
    · split <;> simp [ih]

@[simp] theorem kept_stageStop (s : State) (r : Stage) (rest : List DataDesc) (last : Bool) :
    kept (stageStop s r rest last) = kept s := by simp [stageStop]

@[simp] theorem kept_stageGate (s : State) (r : Stage) :
    kept ((stageGate s r).1) = kept s := by
  unfold stageGate; repeat' (first | (simp; done) | split)

@[simp] theorem kept_setGot (s : State) (n : Nat) : kept (setGot s n) = kept s := by simp [setGot]

@[simp] theorem kept_stageBody (s : State) (r : Stage) (rest : List DataDesc) (got : Nat) (last : Bool) :
    kept ((stageBody s r rest got last).1) = kept s := by
  unfold stageBody; repeat' (first | (simp; done) | split)

@[simp] theorem kept_stageFeed (r : Stage) (x1 : List DataDesc) (x2 : State) :
    kept (stageFeed r x1 x2) = kept x2 := by
  induction x1 generalizing r x2 with
  | nil => simp [stageFeed]
  | cons d l ih =>
    unfold stageFeed
    simp only []
    repeat' (first | (simp [ih]; done) | split)

@[simp] theorem kept_stagePoll (s : State) : kept (stagePoll s) = kept s := by simp [stagePoll]

@[simp] theorem kept_execFwStage (c : Cmd) (img : ImageObj) (s : State) :
    keptO (execFwStage c img s) = some (kept s) := by
  unfold execFwStage; repeat' (first | (simp; done) | split)

@[simp] theorem kept_execFwStageBufferTimeout (s : State) :
    keptO (execFwStageBufferTimeout s) = some (kept s) := by
  unfold execFwStageBufferTimeout; repeat' (first | (simp; done) | split)

@[simp] theorem kept_execFwProgramDone (ok : Bool) (s : State) :
    keptO (execFwProgramDone ok s) = some (kept s) := by simp [execFwProgramDone]

@[simp] theorem kept_stageDmaFault (s : State) (r : Stage) :
    kept (stageDmaFault s r) = kept s := by
  unfold stageDmaFault; split <;> simp

@[simp] theorem kept_execDataBufferDmaFault (r : RingId) (s : State) :
    keptO (execDataBufferDmaFault r s) = some (kept s) := by
  unfold execDataBufferDmaFault; repeat' (first | (simp; done) | split)

@[simp] theorem kept_postReturn (s : State) (cause : Nat) : kept (postReturn s cause) = kept s := by simp [postReturn]

@[simp] theorem kept_postActivated (s : State) (kind herd : Nat) (i : Img) :
    kept (postActivated s kind herd i) = kept s := by simp [postActivated]

@[simp] theorem kept_openWindow (s : State) : kept (openWindow s) = kept s := by simp [openWindow]

@[simp] theorem kept_seqEnd (s : State) : kept (seqEnd s) = kept s := by simp [seqEnd]

@[simp] theorem kept_seqCheck (s : State) : kept (seqCheck s) = kept s := by simp [seqCheck]

@[simp] theorem kept_yieldSession (s : State) :
    kept (yieldSession s) = kept s := by
  unfold yieldSession; repeat' (first | (simp; done) | split)

@[simp] theorem kept_seqStart (s : State) (back : Bool) (tgt : Tri Img) (safe hub : Bool) :
    kept (seqStart s back tgt safe hub) = kept s := by simp [seqStart]

@[simp] theorem kept_activationStart (s : State) : kept (activationStart s) = kept s := by simp [activationStart]

@[simp] theorem kept_fallbackStart (s : State) (cause : Nat) :
    kept (fallbackStart s cause) = kept s := by simp [fallbackStart]

@[simp] theorem kept_seqFail (s : State) : kept (seqFail s) = kept s := by simp [seqFail]

@[simp] theorem kept_snapDrop (s : State) (n : Snap) : kept (snapDrop s n) = kept s := by simp [snapDrop]

@[simp] theorem kept_execHubPhaseManagementDown (s : State) :
    keptO (execHubPhaseManagementDown s) = some (kept s) := by simp [execHubPhaseManagementDown]

@[simp] theorem kept_settingsOver (s : State) (tagOk : Bool) :
    kept (settingsOver s tagOk) = kept s := by simp [settingsOver]

@[simp] theorem kept_settingsBack (s : State) (tagOk : Bool) :
    kept (settingsBack s tagOk) = kept s := by
  unfold settingsBack; split <;> simp

@[simp] theorem kept_hubPhaseDone (s : State) (tagOk : Bool) :
    kept (hubPhaseDone s tagOk) = kept s := by
  unfold hubPhaseDone
  simp only [kept_seqCheck, kept_postActivated, kept_resumeHost, kept_flushFixed, kept_mk, floorK_mk]
  split
  · cases s.fw.prevPers <;> simp
  · simp

@[simp] theorem kept_execFwHubPhaseDone (tagOk : Bool) (s : State) :
    keptO (execFwHubPhaseDone tagOk s) = some (kept s) := by simp [execFwHubPhaseDone]

@[simp] theorem kept_execFwHerdSlot (h : HerdId) (s : State) :
    keptO (execFwHerdSlot h s) = some (kept s) := by simp [execFwHerdSlot]

@[simp] theorem kept_releaseHeld (s : State) (p : PortId) : kept (releaseHeld s p) = kept s := by simp [releaseHeld]

@[simp] theorem kept_execFwHerdRestartDone (h : HerdId) (s : State) :
    keptO (execFwHerdRestartDone h s) = some (kept s) := by simp [execFwHerdRestartDone]

@[simp] theorem kept_execActivationRestartTimeout (s : State) :
    keptO (execActivationRestartTimeout s) = some (kept s) := by simp [execActivationRestartTimeout]

@[simp] theorem kept_windowEnd (s : State) : kept (windowEnd s) = kept s := by simp [windowEnd]

@[simp] theorem kept_execFwConfirmExpiry (s : State) :
    keptO (execFwConfirmExpiry s) = some (kept s) := by simp [execFwConfirmExpiry]

@[simp] theorem kept_schedule (s : State) (actTime : BitVec 64) (badKinds : List (Fin 3)) :
    kept ((schedule s actTime badKinds).1) = kept s := by
  unfold schedule
  simp only []
  repeat' (first | (simp [apply_ite floorK]; done) | split)

@[simp] theorem kept_execFwActivateSchedule (c : Cmd) (actTime : BitVec 64) (badKinds : List (Fin 3)) (s : State) :
    keptO (execFwActivateSchedule c actTime badKinds s) = some (kept s) := by
  unfold execFwActivateSchedule; simp only []; repeat' (first | (simp; done) | split)

@[simp] theorem kept_execFwActivateCancel (c : Cmd) (s : State) :
    keptO (execFwActivateCancel c s) = some (kept s) := by simp [execFwActivateCancel]

@[simp] theorem kept_execFwStatus (c : Cmd) (s : State) :
    keptO (execFwStatus c s) = some (kept s) := by simp [execFwStatus]

/-! ### Chain -/

@[simp] theorem kept_chainSend (s : State) (what : String) (word : Nat) :
    kept (chainSend s what word) = kept s := by simp [chainSend]

@[simp] theorem kept_chainRelay (s : State) (k : ChainCheck) (what : String) (word : Nat) :
    kept (chainRelay s k what word) = kept s := by simp [chainRelay]

@[simp] theorem kept_execChainReceiverLock (downstream valid : Bool) (run : Nat) (s : State) :
    keptO (execChainReceiverLock downstream valid run s) = some (kept s) := by
  unfold execChainReceiverLock; split <;> simp

@[simp] theorem kept_frameBad (s : State) (source : BitVec 8) :
    kept (frameBad s source) = kept s := by simp [frameBad]

@[simp] theorem kept_recvBody (s : State) (source : BitVec 8) (k : ChainCheck) (offset : BitVec 32) (bytes : Nat) :
    kept (recvBody s source k offset bytes) = kept s := by
  unfold recvBody; repeat' (first | (simp; done) | split)

@[simp] theorem kept_recvEnd (s : State) (source : BitVec 8) (k : ChainCheck) (sent : BitVec 32) (digestOk : Bool) :
    kept (recvEnd s source k sent digestOk) = kept s := by
  unfold recvEnd; repeat' (first | (simp; done) | split)

@[simp] theorem kept_execChainHeader (k : ChainCheck) (hdr : ImageHeader) (s : State) :
    keptO (execChainHeader k hdr s) = some (kept s) := by simp [execChainHeader]

@[simp] theorem kept_forwardedOnly (s : State) (h : ImageHeader) :
    kept (forwardedOnly s h) = kept s := by simp [forwardedOnly]

@[simp] theorem kept_execChainHeaderChecked (s : State) :
    keptO (execChainHeaderChecked s) = some (kept s) := by
  unfold execChainHeaderChecked; simp only []; repeat' (first | (simp; done) | split)

@[simp] theorem kept_execChainBody (k : ChainCheck) (offset : BitVec 32) (bytes : Nat) (s : State) :
    keptO (execChainBody k offset bytes s) = some (kept s) := by simp [execChainBody]

@[simp] theorem kept_execChainEnd (k : ChainCheck) (sent : BitVec 32) (digestOk : Bool) (s : State) :
    keptO (execChainEnd k sent digestOk s) = some (kept s) := by simp [execChainEnd]

@[simp] theorem kept_execChainSessionTimeout (s : State) :
    keptO (execChainSessionTimeout s) = some (kept s) := by simp [execChainSessionTimeout]

@[simp] theorem kept_chainAct (s : State) (ignored : Bool) : kept (chainAct s ignored) = kept s := by simp [chainAct]

@[simp] theorem kept_frameSchedule (s : State) (t : BitVec 64) (badKinds : List (Fin 3)) :
    kept (frameSchedule s t badKinds) = kept s := by simp [frameSchedule]

@[simp] theorem kept_execChainActivate (k : ChainCheck) (actTime : BitVec 64) (badKinds : List (Fin 3)) (s : State) :
    keptO (execChainActivate k actTime badKinds s) = some (kept s) := by simp [execChainActivate]

@[simp] theorem kept_ibexHeader (s : State) (k : ChainCheck) (h : ImageHeader) :
    kept (ibexHeader s k h) = kept s := by
  unfold ibexHeader; simp only []; repeat' (first | (simp; done) | split)

/-! ### Security -/

@[simp] theorem kept_execSecAttest (c : Cmd) (nonce : BitVec 256) (s : State) :
    keptO (execSecAttest c nonce s) = some (kept s) := by
  unfold execSecAttest; simp only []; repeat' (first | (simp; done) | split)

@[simp] theorem kept_newChallenge (s : State) : kept (newChallenge s) = kept s := by simp [newChallenge]

@[simp] theorem kept_execJtagInstruction (op : JtagOp) (s : State) :
    keptO (execJtagInstruction op s) = some (kept s) := by simp [execJtagInstruction]

/-! ### Boot -/

@[simp] theorem kept_execPorstRelease (bootSrc : BitVec 2) (chainEnd testEn : Bool) (s : State) :
    keptO (execPorstRelease bootSrc chainEnd testEn s) = some (kept s) := by simp [execPorstRelease]

@[simp] theorem kept_execSysrstRelease (s : State) :
    keptO (execSysrstRelease s) = some (kept s) := by simp [execSysrstRelease]

@[simp] theorem kept_bootNext (s : State) (n : Nat) (sys : Bool) :
    kept (bootNext s n sys) = kept s := by simp [bootNext]

@[simp] theorem kept_postHold (s : State) : kept (postHold s) = kept s := by simp [postHold]

@[simp] theorem kept_bootTest (s : State) (n : Nat) (sys : Bool) (b : BistOutcome) (herd : BitVec 16) :
    kept (bootTest s n sys b herd) = kept s := by simp [bootTest]

@[simp] theorem kept_dropRepairs (s : State) (bad : List Nat) :
    kept (dropRepairs s bad) = kept s := by simp [dropRepairs]

@[simp] theorem kept_bootDone (s : State) : kept (bootDone s) = kept s := by simp [bootDone]

@[simp] theorem kept_execSidebandStatusRead (s : State) :
    keptO (execSidebandStatusRead s) = some (kept s) := by
  unfold execSidebandStatusRead; split <;> simp

/-! ### Time -/

@[simp] theorem kept_execTimeAdjustSlew (c : Cmd) (step : BitVec 32) (s : State) :
    keptO (execTimeAdjustSlew c step s) = some (kept s) := by simp [execTimeAdjustSlew]

@[simp] theorem kept_execTimeSlewDone (s : State) :
    keptO (execTimeSlewDone s) = some (kept s) := by simp [execTimeSlewDone]

@[simp] theorem kept_execTimeSetSyncTimeout (s : State) :
    keptO (execTimeSetSyncTimeout s) = some (kept s) := by
  unfold execTimeSetSyncTimeout; repeat' (first | (simp; done) | split)

@[simp] theorem kept_tick (s : State) : kept (tick s) = kept s := by simp [tick]

end Sys2Proof.Machine
end

