-- ==== Sys2Proof/Laws/Frame.lean ====
section
/-!
SUPPORT. Which parts of the state a definition may write: one lemma per definition, over the projection `pick` that
hides the parts of a list, so that a frame of a command is the conjunction of its parts' frames.
-/

namespace Sys2Proof.Machine

open Sys2Proof.Safety

/-- One part of the state, unless a list hides it. -/
def shown {α : Type} (m : List Area) (a : Area) (x : α) : Option α := if a ∈ m then none else some x

/-- The state with the parts of a list hidden. -/
structure Pick where
  pending : Option (List Instr)
  time : Option (TimeSt)
  mono : Option (Nat)
  fresh : Option (Nat)
  regs : Option (Tab (BitVec 32))
  latches : Option (Tab (BitVec 32))
  heldLow : Option (Option (BitVec 26 × BitVec 32))
  access : Option (Access)
  straps : Option (Straps)
  clk : Option (Clk)
  pwr : Option (Pwr)
  rails : Option (Tab Rail)
  dies : Option (Tab Die)
  hubTemp : Option (BitVec 16)
  ddr : Option (Tab Ddr)
  store : Option (Tab CtxDir)
  ports : Option (Tab Port)
  herds : Option (Tab Herd)
  io : Option (Io)
  waits : Option (List Wait)
  flt : Option (Flt)
  fw : Option (Fw)
  sec : Option (Sec)
  nv : Option (Nv)

def pick (m : List Area) (s : State) : Pick :=
  ⟨shown m .pending s.pending, shown m .time s.time, shown m .mono s.mono, shown m .fresh s.fresh,
    shown m .regs s.regs, shown m .latches s.latches, shown m .heldLow s.heldLow, shown m .access s.access,
    shown m .straps s.straps, shown m .clk s.clk, shown m .pwr s.pwr, shown m .rails s.rails, shown m .dies s.dies,
    shown m .hubTemp s.hubTemp, shown m .ddr s.ddr, shown m .store s.store, shown m .ports s.ports,
    shown m .herds s.herds, shown m .io s.io, shown m .waits s.waits, shown m .flt s.flt, shown m .fw s.fw,
    shown m .sec s.sec, shown m .nv s.nv⟩

/-- `pick` of the next state an outcome answers. -/
def pickO (m : List Area) (o : Host.Outcome State Fault Refusal) : Option Pick :=
  match o with
  | .next t => some (pick m t)
  | _ => none

@[simp] theorem shown_mem {α : Type} (m : List Area) (a : Area) (x : α) (h : a ∈ m) : shown m a x = none := by
  simp [shown, h]

@[simp] theorem pickO_next (m : List Area) (t : State) : pickO m (.next t) = some (pick m t) := id rfl

theorem shown_same {α : Type} {m : List Area} {a : Area} {x y : α} (n : a ∉ m) (h : shown m a x = shown m a y) :
    x = y := by
  simpa [shown, n] using h

/-- Equal projections: no part outside the list differs. -/
theorem onlyIn_of_pick {m : List Area} {s t : State} (h : pick m t = pick m s) : OnlyIn m s t := by
  intro a n
  cases a with
  | pending => exact shown_same n (congrArg Pick.pending h)
  | time => exact shown_same n (congrArg Pick.time h)
  | mono => exact shown_same n (congrArg Pick.mono h)
  | fresh => exact shown_same n (congrArg Pick.fresh h)
  | regs => exact shown_same n (congrArg Pick.regs h)
  | latches => exact shown_same n (congrArg Pick.latches h)
  | heldLow => exact shown_same n (congrArg Pick.heldLow h)
  | access => exact shown_same n (congrArg Pick.access h)
  | straps => exact shown_same n (congrArg Pick.straps h)
  | clk => exact shown_same n (congrArg Pick.clk h)
  | pwr => exact shown_same n (congrArg Pick.pwr h)
  | rails => exact shown_same n (congrArg Pick.rails h)
  | dies => exact shown_same n (congrArg Pick.dies h)
  | hubTemp => exact shown_same n (congrArg Pick.hubTemp h)
  | ddr => exact shown_same n (congrArg Pick.ddr h)
  | store => exact shown_same n (congrArg Pick.store h)
  | ports => exact shown_same n (congrArg Pick.ports h)
  | herds => exact shown_same n (congrArg Pick.herds h)
  | io => exact shown_same n (congrArg Pick.io h)
  | waits => exact shown_same n (congrArg Pick.waits h)
  | flt => exact shown_same n (congrArg Pick.flt h)
  | fw => exact shown_same n (congrArg Pick.fw h)
  | sec => exact shown_same n (congrArg Pick.sec h)
  | nv => exact shown_same n (congrArg Pick.nv h)

/-- The frame of an outcome whose next state is `pick`-equal. -/
theorem onlyIn_of_pickO {m : List Area} {s t : State} {o : Host.Outcome State Fault Refusal}
    (h : pickO m o = some (pick m s)) (e : o = .next t) : OnlyIn m s t := by
  subst e
  exact onlyIn_of_pick (by simpa using h)

@[simp] theorem pick_set_access (m : List Area) (s : State) (x_access) (h_access : .access ∈ m) :
    pick m
    (State.mk s.pending s.time s.mono s.fresh s.regs s.latches s.heldLow x_access s.straps s.clk s.pwr s.rails s.dies
    s.hubTemp s.ddr s.store s.ports s.herds s.io s.waits s.flt s.fw s.sec s.nv) = pick m s := by
  simp [pick, h_access]

@[simp] theorem pick_set_clk (m : List Area) (s : State) (x_clk) (h_clk : .clk ∈ m) :
    pick m
    (State.mk s.pending s.time s.mono s.fresh s.regs s.latches s.heldLow s.access s.straps x_clk s.pwr s.rails s.dies
    s.hubTemp s.ddr s.store s.ports s.herds s.io s.waits s.flt s.fw s.sec s.nv) = pick m s := by
  simp [pick, h_clk]

@[simp] theorem pick_set_ddr (m : List Area) (s : State) (x_ddr) (h_ddr : .ddr ∈ m) :
    pick m
    (State.mk s.pending s.time s.mono s.fresh s.regs s.latches s.heldLow s.access s.straps s.clk s.pwr s.rails s.dies
    s.hubTemp x_ddr s.store s.ports s.herds s.io s.waits s.flt s.fw s.sec s.nv) = pick m s := by
  simp [pick, h_ddr]

@[simp] theorem pick_set_dies (m : List Area) (s : State) (x_dies) (h_dies : .dies ∈ m) :
    pick m
    (State.mk s.pending s.time s.mono s.fresh s.regs s.latches s.heldLow s.access s.straps s.clk s.pwr s.rails x_dies
    s.hubTemp s.ddr s.store s.ports s.herds s.io s.waits s.flt s.fw s.sec s.nv) = pick m s := by
  simp [pick, h_dies]

@[simp] theorem pick_set_flt (m : List Area) (s : State) (x_flt) (h_flt : .flt ∈ m) :
    pick m
    (State.mk s.pending s.time s.mono s.fresh s.regs s.latches s.heldLow s.access s.straps s.clk s.pwr s.rails s.dies
    s.hubTemp s.ddr s.store s.ports s.herds s.io s.waits x_flt s.fw s.sec s.nv) = pick m s := by
  simp [pick, h_flt]

@[simp] theorem pick_set_fresh (m : List Area) (s : State) (x_fresh) (h_fresh : .fresh ∈ m) :
    pick m
    (State.mk s.pending s.time s.mono x_fresh s.regs s.latches s.heldLow s.access s.straps s.clk s.pwr s.rails s.dies
    s.hubTemp s.ddr s.store s.ports s.herds s.io s.waits s.flt s.fw s.sec s.nv) = pick m s := by
  simp [pick, h_fresh]

@[simp] theorem pick_set_fw (m : List Area) (s : State) (x_fw) (h_fw : .fw ∈ m) :
    pick m
    (State.mk s.pending s.time s.mono s.fresh s.regs s.latches s.heldLow s.access s.straps s.clk s.pwr s.rails s.dies
    s.hubTemp s.ddr s.store s.ports s.herds s.io s.waits s.flt x_fw s.sec s.nv) = pick m s := by
  simp [pick, h_fw]

@[simp] theorem pick_set_heldLow (m : List Area) (s : State) (x_heldLow) (h_heldLow : .heldLow ∈ m) :
    pick m
    (State.mk s.pending s.time s.mono s.fresh s.regs s.latches x_heldLow s.access s.straps s.clk s.pwr s.rails s.dies
    s.hubTemp s.ddr s.store s.ports s.herds s.io s.waits s.flt s.fw s.sec s.nv) = pick m s := by
  simp [pick, h_heldLow]

@[simp] theorem pick_set_herds (m : List Area) (s : State) (x_herds) (h_herds : .herds ∈ m) :
    pick m
    (State.mk s.pending s.time s.mono s.fresh s.regs s.latches s.heldLow s.access s.straps s.clk s.pwr s.rails s.dies
    s.hubTemp s.ddr s.store s.ports x_herds s.io s.waits s.flt s.fw s.sec s.nv) = pick m s := by
  simp [pick, h_herds]

@[simp] theorem pick_set_hubTemp (m : List Area) (s : State) (x_hubTemp) (h_hubTemp : .hubTemp ∈ m) :
    pick m
    (State.mk s.pending s.time s.mono s.fresh s.regs s.latches s.heldLow s.access s.straps s.clk s.pwr s.rails s.dies
    x_hubTemp s.ddr s.store s.ports s.herds s.io s.waits s.flt s.fw s.sec s.nv) = pick m s := by
  simp [pick, h_hubTemp]

@[simp] theorem pick_set_io (m : List Area) (s : State) (x_io) (h_io : .io ∈ m) :
    pick m
    (State.mk s.pending s.time s.mono s.fresh s.regs s.latches s.heldLow s.access s.straps s.clk s.pwr s.rails s.dies
    s.hubTemp s.ddr s.store s.ports s.herds x_io s.waits s.flt s.fw s.sec s.nv) = pick m s := by
  simp [pick, h_io]

@[simp] theorem pick_set_latches (m : List Area) (s : State) (x_latches) (h_latches : .latches ∈ m) :
    pick m
    (State.mk s.pending s.time s.mono s.fresh s.regs x_latches s.heldLow s.access s.straps s.clk s.pwr s.rails s.dies
    s.hubTemp s.ddr s.store s.ports s.herds s.io s.waits s.flt s.fw s.sec s.nv) = pick m s := by
  simp [pick, h_latches]

@[simp] theorem pick_set_nv (m : List Area) (s : State) (x_nv) (h_nv : .nv ∈ m) :
    pick m
    (State.mk s.pending s.time s.mono s.fresh s.regs s.latches s.heldLow s.access s.straps s.clk s.pwr s.rails s.dies
    s.hubTemp s.ddr s.store s.ports s.herds s.io s.waits s.flt s.fw s.sec x_nv) = pick m s := by
  simp [pick, h_nv]

@[simp] theorem pick_set_pending (m : List Area) (s : State) (x_pending) (h_pending : .pending ∈ m) :
    pick m
    (State.mk x_pending s.time s.mono s.fresh s.regs s.latches s.heldLow s.access s.straps s.clk s.pwr s.rails s.dies
    s.hubTemp s.ddr s.store s.ports s.herds s.io s.waits s.flt s.fw s.sec s.nv) = pick m s := by
  simp [pick, h_pending]

@[simp] theorem pick_set_ports (m : List Area) (s : State) (x_ports) (h_ports : .ports ∈ m) :
    pick m
    (State.mk s.pending s.time s.mono s.fresh s.regs s.latches s.heldLow s.access s.straps s.clk s.pwr s.rails s.dies
    s.hubTemp s.ddr s.store x_ports s.herds s.io s.waits s.flt s.fw s.sec s.nv) = pick m s := by
  simp [pick, h_ports]

@[simp] theorem pick_set_pwr (m : List Area) (s : State) (x_pwr) (h_pwr : .pwr ∈ m) :
    pick m
    (State.mk s.pending s.time s.mono s.fresh s.regs s.latches s.heldLow s.access s.straps s.clk x_pwr s.rails s.dies
    s.hubTemp s.ddr s.store s.ports s.herds s.io s.waits s.flt s.fw s.sec s.nv) = pick m s := by
  simp [pick, h_pwr]

@[simp] theorem pick_set_rails (m : List Area) (s : State) (x_rails) (h_rails : .rails ∈ m) :
    pick m
    (State.mk s.pending s.time s.mono s.fresh s.regs s.latches s.heldLow s.access s.straps s.clk s.pwr x_rails s.dies
    s.hubTemp s.ddr s.store s.ports s.herds s.io s.waits s.flt s.fw s.sec s.nv) = pick m s := by
  simp [pick, h_rails]

@[simp] theorem pick_set_regs (m : List Area) (s : State) (x_regs) (h_regs : .regs ∈ m) :
    pick m
    (State.mk s.pending s.time s.mono s.fresh x_regs s.latches s.heldLow s.access s.straps s.clk s.pwr s.rails s.dies
    s.hubTemp s.ddr s.store s.ports s.herds s.io s.waits s.flt s.fw s.sec s.nv) = pick m s := by
  simp [pick, h_regs]

@[simp] theorem pick_set_sec (m : List Area) (s : State) (x_sec) (h_sec : .sec ∈ m) :
    pick m
    (State.mk s.pending s.time s.mono s.fresh s.regs s.latches s.heldLow s.access s.straps s.clk s.pwr s.rails s.dies
    s.hubTemp s.ddr s.store s.ports s.herds s.io s.waits s.flt s.fw x_sec s.nv) = pick m s := by
  simp [pick, h_sec]

@[simp] theorem pick_set_store (m : List Area) (s : State) (x_store) (h_store : .store ∈ m) :
    pick m
    (State.mk s.pending s.time s.mono s.fresh s.regs s.latches s.heldLow s.access s.straps s.clk s.pwr s.rails s.dies
    s.hubTemp s.ddr x_store s.ports s.herds s.io s.waits s.flt s.fw s.sec s.nv) = pick m s := by
  simp [pick, h_store]

@[simp] theorem pick_set_time (m : List Area) (s : State) (x_time) (h_time : .time ∈ m) :
    pick m
    (State.mk s.pending x_time s.mono s.fresh s.regs s.latches s.heldLow s.access s.straps s.clk s.pwr s.rails s.dies
    s.hubTemp s.ddr s.store s.ports s.herds s.io s.waits s.flt s.fw s.sec s.nv) = pick m s := by
  simp [pick, h_time]

@[simp] theorem pick_set_waits (m : List Area) (s : State) (x_waits) (h_waits : .waits ∈ m) :
    pick m
    (State.mk s.pending s.time s.mono s.fresh s.regs s.latches s.heldLow s.access s.straps s.clk s.pwr s.rails s.dies
    s.hubTemp s.ddr s.store s.ports s.herds s.io x_waits s.flt s.fw s.sec s.nv) = pick m s := by
  simp [pick, h_waits]

@[simp] theorem pick_set_flt_fw (m : List Area) (s : State) (x_flt x_fw) (h_flt : .flt ∈ m) (h_fw : .fw ∈ m) :
    pick m
    (State.mk s.pending s.time s.mono s.fresh s.regs s.latches s.heldLow s.access s.straps s.clk s.pwr s.rails s.dies
    s.hubTemp s.ddr s.store s.ports s.herds s.io s.waits x_flt x_fw s.sec s.nv) = pick m s := by
  simp [pick, h_flt, h_fw]

@[simp] theorem pick_set_fw_sec (m : List Area) (s : State) (x_fw x_sec) (h_fw : .fw ∈ m) (h_sec : .sec ∈ m) :
    pick m
    (State.mk s.pending s.time s.mono s.fresh s.regs s.latches s.heldLow s.access s.straps s.clk s.pwr s.rails s.dies
    s.hubTemp s.ddr s.store s.ports s.herds s.io s.waits s.flt x_fw x_sec s.nv) = pick m s := by
  simp [pick, h_fw, h_sec]

@[simp] theorem pick_set_herds_fw (m : List Area) (s : State) (x_herds x_fw) (h_herds : .herds ∈ m) (h_fw : .fw ∈ m) :
    pick m
    (State.mk s.pending s.time s.mono s.fresh s.regs s.latches s.heldLow s.access s.straps s.clk s.pwr s.rails s.dies
    s.hubTemp s.ddr s.store s.ports x_herds s.io s.waits s.flt x_fw s.sec s.nv) = pick m s := by
  simp [pick, h_herds, h_fw]

@[simp] theorem pick_set_io_fw (m : List Area) (s : State) (x_io x_fw) (h_io : .io ∈ m) (h_fw : .fw ∈ m) :
    pick m
    (State.mk s.pending s.time s.mono s.fresh s.regs s.latches s.heldLow s.access s.straps s.clk s.pwr s.rails s.dies
    s.hubTemp s.ddr s.store s.ports s.herds x_io s.waits s.flt x_fw s.sec s.nv) = pick m s := by
  simp [pick, h_io, h_fw]

@[simp] theorem pick_set_ports_flt (m : List Area) (s : State) (x_ports x_flt) (h_ports : .ports ∈ m)
    (h_flt : .flt ∈ m) :
    pick m
    (State.mk s.pending s.time s.mono s.fresh s.regs s.latches s.heldLow s.access s.straps s.clk s.pwr s.rails s.dies
    s.hubTemp s.ddr s.store x_ports s.herds s.io s.waits x_flt s.fw s.sec s.nv) = pick m s := by
  simp [pick, h_ports, h_flt]

@[simp] theorem pick_set_ports_herds (m : List Area) (s : State) (x_ports x_herds) (h_ports : .ports ∈ m)
    (h_herds : .herds ∈ m) :
    pick m
    (State.mk s.pending s.time s.mono s.fresh s.regs s.latches s.heldLow s.access s.straps s.clk s.pwr s.rails s.dies
    s.hubTemp s.ddr s.store x_ports x_herds s.io s.waits s.flt s.fw s.sec s.nv) = pick m s := by
  simp [pick, h_ports, h_herds]

@[simp] theorem pick_set_pwr_dies (m : List Area) (s : State) (x_pwr x_dies) (h_pwr : .pwr ∈ m) (h_dies : .dies ∈ m) :
    pick m
    (State.mk s.pending s.time s.mono s.fresh s.regs s.latches s.heldLow s.access s.straps s.clk x_pwr s.rails x_dies
    s.hubTemp s.ddr s.store s.ports s.herds s.io s.waits s.flt s.fw s.sec s.nv) = pick m s := by
  simp [pick, h_pwr, h_dies]

@[simp] theorem pick_set_pwr_fw (m : List Area) (s : State) (x_pwr x_fw) (h_pwr : .pwr ∈ m) (h_fw : .fw ∈ m) :
    pick m
    (State.mk s.pending s.time s.mono s.fresh s.regs s.latches s.heldLow s.access s.straps s.clk x_pwr s.rails s.dies
    s.hubTemp s.ddr s.store s.ports s.herds s.io s.waits s.flt x_fw s.sec s.nv) = pick m s := by
  simp [pick, h_pwr, h_fw]

@[simp] theorem pick_set_pwr_nv (m : List Area) (s : State) (x_pwr x_nv) (h_pwr : .pwr ∈ m) (h_nv : .nv ∈ m) :
    pick m
    (State.mk s.pending s.time s.mono s.fresh s.regs s.latches s.heldLow s.access s.straps s.clk x_pwr s.rails s.dies
    s.hubTemp s.ddr s.store s.ports s.herds s.io s.waits s.flt s.fw s.sec x_nv) = pick m s := by
  simp [pick, h_pwr, h_nv]

@[simp] theorem pick_set_pwr_sec (m : List Area) (s : State) (x_pwr x_sec) (h_pwr : .pwr ∈ m) (h_sec : .sec ∈ m) :
    pick m
    (State.mk s.pending s.time s.mono s.fresh s.regs s.latches s.heldLow s.access s.straps s.clk x_pwr s.rails s.dies
    s.hubTemp s.ddr s.store s.ports s.herds s.io s.waits s.flt s.fw x_sec s.nv) = pick m s := by
  simp [pick, h_pwr, h_sec]

@[simp] theorem pick_set_rails_sec (m : List Area) (s : State) (x_rails x_sec) (h_rails : .rails ∈ m)
    (h_sec : .sec ∈ m) :
    pick m
    (State.mk s.pending s.time s.mono s.fresh s.regs s.latches s.heldLow s.access s.straps s.clk s.pwr x_rails s.dies
    s.hubTemp s.ddr s.store s.ports s.herds s.io s.waits s.flt s.fw x_sec s.nv) = pick m s := by
  simp [pick, h_rails, h_sec]

@[simp] theorem pick_set_store_herds (m : List Area) (s : State) (x_store x_herds) (h_store : .store ∈ m)
    (h_herds : .herds ∈ m) :
    pick m
    (State.mk s.pending s.time s.mono s.fresh s.regs s.latches s.heldLow s.access s.straps s.clk s.pwr s.rails s.dies
    s.hubTemp s.ddr x_store s.ports x_herds s.io s.waits s.flt s.fw s.sec s.nv) = pick m s := by
  simp [pick, h_store, h_herds]

@[simp] theorem pick_set_straps_pwr (m : List Area) (s : State) (x_straps x_pwr) (h_straps : .straps ∈ m)
    (h_pwr : .pwr ∈ m) :
    pick m
    (State.mk s.pending s.time s.mono s.fresh s.regs s.latches s.heldLow s.access x_straps s.clk x_pwr s.rails s.dies
    s.hubTemp s.ddr s.store s.ports s.herds s.io s.waits s.flt s.fw s.sec s.nv) = pick m s := by
  simp [pick, h_straps, h_pwr]

@[simp] theorem pick_set_time_mono (m : List Area) (s : State) (x_time x_mono) (h_time : .time ∈ m)
    (h_mono : .mono ∈ m) :
    pick m
    (State.mk s.pending x_time x_mono s.fresh s.regs s.latches s.heldLow s.access s.straps s.clk s.pwr s.rails s.dies
    s.hubTemp s.ddr s.store s.ports s.herds s.io s.waits s.flt s.fw s.sec s.nv) = pick m s := by
  simp [pick, h_time, h_mono]

@[simp] theorem pick_set_waits_fw (m : List Area) (s : State) (x_waits x_fw) (h_waits : .waits ∈ m) (h_fw : .fw ∈ m) :
    pick m
    (State.mk s.pending s.time s.mono s.fresh s.regs s.latches s.heldLow s.access s.straps s.clk s.pwr s.rails s.dies
    s.hubTemp s.ddr s.store s.ports s.herds s.io x_waits s.flt x_fw s.sec s.nv) = pick m s := by
  simp [pick, h_waits, h_fw]

@[simp] theorem pick_set_fresh_fw_sec (m : List Area) (s : State) (x_fresh x_fw x_sec) (h_fresh : .fresh ∈ m)
    (h_fw : .fw ∈ m) (h_sec : .sec ∈ m) :
    pick m
    (State.mk s.pending s.time s.mono x_fresh s.regs s.latches s.heldLow s.access s.straps s.clk s.pwr s.rails s.dies
    s.hubTemp s.ddr s.store s.ports s.herds s.io s.waits s.flt x_fw x_sec s.nv) = pick m s := by
  simp [pick, h_fresh, h_fw, h_sec]

@[simp] theorem pick_set_fresh_pwr_nv (m : List Area) (s : State) (x_fresh x_pwr x_nv) (h_fresh : .fresh ∈ m)
    (h_pwr : .pwr ∈ m) (h_nv : .nv ∈ m) :
    pick m
    (State.mk s.pending s.time s.mono x_fresh s.regs s.latches s.heldLow s.access s.straps s.clk x_pwr s.rails s.dies
    s.hubTemp s.ddr s.store s.ports s.herds s.io s.waits s.flt s.fw s.sec x_nv) = pick m s := by
  simp [pick, h_fresh, h_pwr, h_nv]

@[simp] theorem pick_set_herds_io_fw (m : List Area) (s : State) (x_herds x_io x_fw) (h_herds : .herds ∈ m)
    (h_io : .io ∈ m) (h_fw : .fw ∈ m) :
    pick m
    (State.mk s.pending s.time s.mono s.fresh s.regs s.latches s.heldLow s.access s.straps s.clk s.pwr s.rails s.dies
    s.hubTemp s.ddr s.store s.ports x_herds x_io s.waits s.flt x_fw s.sec s.nv) = pick m s := by
  simp [pick, h_herds, h_io, h_fw]

@[simp] theorem pick_set_io_flt_fw (m : List Area) (s : State) (x_io x_flt x_fw) (h_io : .io ∈ m) (h_flt : .flt ∈ m)
    (h_fw : .fw ∈ m) :
    pick m
    (State.mk s.pending s.time s.mono s.fresh s.regs s.latches s.heldLow s.access s.straps s.clk s.pwr s.rails s.dies
    s.hubTemp s.ddr s.store s.ports s.herds x_io s.waits x_flt x_fw s.sec s.nv) = pick m s := by
  simp [pick, h_io, h_flt, h_fw]

@[simp] theorem pick_set_io_fw_sec (m : List Area) (s : State) (x_io x_fw x_sec) (h_io : .io ∈ m) (h_fw : .fw ∈ m)
    (h_sec : .sec ∈ m) :
    pick m
    (State.mk s.pending s.time s.mono s.fresh s.regs s.latches s.heldLow s.access s.straps s.clk s.pwr s.rails s.dies
    s.hubTemp s.ddr s.store s.ports s.herds x_io s.waits s.flt x_fw x_sec s.nv) = pick m s := by
  simp [pick, h_io, h_fw, h_sec]

@[simp] theorem pick_set_ports_fw_nv (m : List Area) (s : State) (x_ports x_fw x_nv) (h_ports : .ports ∈ m)
    (h_fw : .fw ∈ m) (h_nv : .nv ∈ m) :
    pick m
    (State.mk s.pending s.time s.mono s.fresh s.regs s.latches s.heldLow s.access s.straps s.clk s.pwr s.rails s.dies
    s.hubTemp s.ddr s.store x_ports s.herds s.io s.waits s.flt x_fw s.sec x_nv) = pick m s := by
  simp [pick, h_ports, h_fw, h_nv]

@[simp] theorem pick_set_ports_herds_waits (m : List Area) (s : State) (x_ports x_herds x_waits)
    (h_ports : .ports ∈ m) (h_herds : .herds ∈ m) (h_waits : .waits ∈ m) :
    pick m
    (State.mk s.pending s.time s.mono s.fresh s.regs s.latches s.heldLow s.access s.straps s.clk s.pwr s.rails s.dies
    s.hubTemp s.ddr s.store x_ports x_herds s.io x_waits s.flt s.fw s.sec s.nv) = pick m s := by
  simp [pick, h_ports, h_herds, h_waits]

@[simp] theorem pick_set_pwr_fw_sec (m : List Area) (s : State) (x_pwr x_fw x_sec) (h_pwr : .pwr ∈ m)
    (h_fw : .fw ∈ m) (h_sec : .sec ∈ m) :
    pick m
    (State.mk s.pending s.time s.mono s.fresh s.regs s.latches s.heldLow s.access s.straps s.clk x_pwr s.rails s.dies
    s.hubTemp s.ddr s.store s.ports s.herds s.io s.waits s.flt x_fw x_sec s.nv) = pick m s := by
  simp [pick, h_pwr, h_fw, h_sec]

@[simp] theorem pick_set_regs_pwr_flt (m : List Area) (s : State) (x_regs x_pwr x_flt) (h_regs : .regs ∈ m)
    (h_pwr : .pwr ∈ m) (h_flt : .flt ∈ m) :
    pick m
    (State.mk s.pending s.time s.mono s.fresh x_regs s.latches s.heldLow s.access s.straps s.clk x_pwr s.rails s.dies
    s.hubTemp s.ddr s.store s.ports s.herds s.io s.waits x_flt s.fw s.sec s.nv) = pick m s := by
  simp [pick, h_regs, h_pwr, h_flt]

@[simp] theorem pick_set_time_straps_pwr (m : List Area) (s : State) (x_time x_straps x_pwr) (h_time : .time ∈ m)
    (h_straps : .straps ∈ m) (h_pwr : .pwr ∈ m) :
    pick m
    (State.mk s.pending x_time s.mono s.fresh s.regs s.latches s.heldLow s.access x_straps s.clk x_pwr s.rails s.dies
    s.hubTemp s.ddr s.store s.ports s.herds s.io s.waits s.flt s.fw s.sec s.nv) = pick m s := by
  simp [pick, h_time, h_straps, h_pwr]

@[simp] theorem pick_set_regs_latches_heldLow_io (m : List Area) (s : State) (x_regs x_latches x_heldLow x_io)
    (h_regs : .regs ∈ m) (h_latches : .latches ∈ m) (h_heldLow : .heldLow ∈ m) (h_io : .io ∈ m) :
    pick m
    (State.mk s.pending s.time s.mono s.fresh x_regs x_latches x_heldLow s.access s.straps s.clk s.pwr s.rails s.dies
    s.hubTemp s.ddr s.store s.ports s.herds x_io s.waits s.flt s.fw s.sec s.nv) = pick m s := by
  simp [pick, h_regs, h_latches, h_heldLow, h_io]

@[simp] theorem pick_set_regs_clk_pwr_dies_ports_herds_io_flt_sec (m : List Area) (s : State)
    (x_regs x_clk x_pwr x_dies x_ports x_herds x_io x_flt x_sec) (h_regs : .regs ∈ m) (h_clk : .clk ∈ m)
    (h_pwr : .pwr ∈ m) (h_dies : .dies ∈ m) (h_ports : .ports ∈ m) (h_herds : .herds ∈ m) (h_io : .io ∈ m)
    (h_flt : .flt ∈ m) (h_sec : .sec ∈ m) :
    pick m
    (State.mk s.pending s.time s.mono s.fresh x_regs s.latches s.heldLow s.access s.straps x_clk x_pwr s.rails x_dies
    s.hubTemp s.ddr s.store x_ports x_herds x_io s.waits x_flt s.fw x_sec s.nv) = pick m s := by
  simp [pick, h_regs, h_clk, h_pwr, h_dies, h_ports, h_herds, h_io, h_flt, h_sec]

@[simp] theorem pick_set_time_regs_clk_pwr_dies_ports_herds_flt_fw (m : List Area) (s : State)
    (x_time x_regs x_clk x_pwr x_dies x_ports x_herds x_flt x_fw) (h_time : .time ∈ m) (h_regs : .regs ∈ m)
    (h_clk : .clk ∈ m) (h_pwr : .pwr ∈ m) (h_dies : .dies ∈ m) (h_ports : .ports ∈ m) (h_herds : .herds ∈ m)
    (h_flt : .flt ∈ m) (h_fw : .fw ∈ m) :
    pick m
    (State.mk s.pending x_time s.mono s.fresh x_regs s.latches s.heldLow s.access s.straps x_clk x_pwr s.rails x_dies
    s.hubTemp s.ddr s.store x_ports x_herds s.io s.waits x_flt x_fw s.sec s.nv) = pick m s := by
  simp [pick, h_time, h_regs, h_clk, h_pwr, h_dies, h_ports, h_herds, h_flt, h_fw]

@[simp] theorem pick_set_time_regs_latches_heldLow_access_clk_pwr_dies_ddr_store_ports_herds_io_waits_flt_fw_sec
    (m : List Area) (s : State)
    (x_time x_regs x_latches x_heldLow x_access x_clk x_pwr x_dies x_ddr x_store x_ports x_herds x_io x_waits x_flt
    x_fw x_sec) (h_time : .time ∈ m) (h_regs : .regs ∈ m) (h_latches : .latches ∈ m) (h_heldLow : .heldLow ∈ m)
    (h_access : .access ∈ m) (h_clk : .clk ∈ m) (h_pwr : .pwr ∈ m) (h_dies : .dies ∈ m) (h_ddr : .ddr ∈ m)
    (h_store : .store ∈ m) (h_ports : .ports ∈ m) (h_herds : .herds ∈ m) (h_io : .io ∈ m) (h_waits : .waits ∈ m)
    (h_flt : .flt ∈ m) (h_fw : .fw ∈ m) (h_sec : .sec ∈ m) :
    pick m
    (State.mk s.pending x_time s.mono s.fresh x_regs x_latches x_heldLow x_access s.straps x_clk x_pwr s.rails x_dies
    s.hubTemp x_ddr x_store x_ports x_herds x_io x_waits x_flt x_fw x_sec s.nv) = pick m s := by
  simp [pick, h_time, h_regs, h_latches, h_heldLow, h_access, h_clk, h_pwr, h_dies, h_ddr, h_store, h_ports, h_herds,
      h_io, h_waits, h_flt, h_fw, h_sec]


@[simp] theorem pick_offState (m : List Area) (s r : State) (h_regs : .regs ∈ m) (h_pwr : .pwr ∈ m)
      (h_flt : .flt ∈ m) :
    pick m (offState s r) = pick m r := by simp [offState, pick, h_regs, h_pwr, h_flt]

@[simp] theorem pick_deepState (m : List Area) (s r : State) (mask : BitVec 4) (h_time : .time ∈ m)
      (h_regs : .regs ∈ m)
    (h_clk : .clk ∈ m) (h_pwr : .pwr ∈ m) (h_dies : .dies ∈ m) (h_ports : .ports ∈ m) (h_herds : .herds ∈ m)
    (h_flt : .flt ∈ m) (h_fw : .fw ∈ m) : pick m (deepState s r mask) = pick m r := by
  simp [deepState, pick, h_time, h_regs, h_clk, h_pwr, h_dies, h_ports, h_herds, h_flt, h_fw]
@[simp] theorem pick_ite (m : List Area) (c : Prop) [Decidable c] (a b : State) :
    pick m (if c then a else b) = if c then pick m a else pick m b := apply_ite (pick m) c a b

@[simp] theorem pick_dite (m : List Area) (c : Prop) [Decidable c] (a : c → State) (b : ¬c → State) :
    pick m (if h : c then a h else b h) = if h : c then pick m (a h) else pick m (b h) := apply_dite (pick m) c a b

@[simp] theorem pickO_ite (m : List Area) (c : Prop) [Decidable c] (a b : Host.Outcome State Fault Refusal) :
    pickO m (if c then a else b) = if c then pickO m a else pickO m b := apply_ite (pickO m) c a b

@[simp] theorem pick_forEach {α : Type} (m : List Area) (l : List α) (f : State → α → State) (s : State)
    (h : ∀ s x, pick m (f s x) = pick m s) : pick m (forEach l f s) = pick m s := by
  unfold forEach
  induction l generalizing s with
  | nil => rfl
  | cons x l ih => rw [List.foldl_cons, ih, h]

@[simp] theorem pick_foldl {α : Type} (m : List Area) (l : List α) (f : State → α → State) (s : State)
    (h : ∀ s x, pick m (f s x) = pick m s) : pick m (l.foldl f s) = pick m s := pick_forEach m l f s h

theorem pick_foldl_fst {α β : Type} (m : List Area) (l : List α) (f : State × β → α → State × β) (s : State × β)
    (h : ∀ s a, pick m (f s a).1 = pick m s.1) : pick m (l.foldl f s).1 = pick m s.1 := by
  induction l generalizing s with
  | nil => rfl
  | cons a l ih => rw [List.foldl_cons, ih, h]

/-! ### Ops -/

@[simp] theorem pick_setPort (m : List Area) (s : State) (p : PortId) (x : Port) (h_ports : .ports ∈ m) :
    pick m (setPort s p x) = pick m s := by simp [setPort, h_ports]

@[simp] theorem pick_modPort (m : List Area) (s : State) (p : PortId) (f : Port → Port) (h_ports : .ports ∈ m) :
    pick m (modPort s p f) = pick m s := by simp [modPort, h_ports]

@[simp] theorem pick_setHerd (m : List Area) (s : State) (h : HerdId) (x : Herd) (h_herds : .herds ∈ m) :
    pick m (setHerd s h x) = pick m s := by simp [setHerd, h_herds]

@[simp] theorem pick_modHerd (m : List Area) (s : State) (h : HerdId) (f : Herd → Herd) (h_herds : .herds ∈ m) :
    pick m (modHerd s h f) = pick m s := by simp [modHerd, h_herds]

@[simp] theorem pick_setDie (m : List Area) (s : State) (d : DieId) (x : Die) (h_dies : .dies ∈ m) :
    pick m (setDie s d x) = pick m s := by simp [setDie, h_dies]

@[simp] theorem pick_modDie (m : List Area) (s : State) (d : DieId) (f : Die → Die) (h_dies : .dies ∈ m) :
    pick m (modDie s d f) = pick m s := by simp [modDie, h_dies]

@[simp] theorem pick_setDdr (m : List Area) (s : State) (c : ChanId) (x : Ddr) (h_ddr : .ddr ∈ m) :
    pick m (setDdr s c x) = pick m s := by simp [setDdr, h_ddr]

@[simp] theorem pick_setRail (m : List Area) (s : State) (r : RailId) (x : Rail) (h_rails : .rails ∈ m) :
    pick m (setRail s r x) = pick m s := by simp [setRail, h_rails]

@[simp] theorem pick_setDir (m : List Area) (s : State) (p : PortId) (x : CtxDir) (h_store : .store ∈ m) :
    pick m (setDir s p x) = pick m s := by simp [setDir, h_store]

@[simp] theorem pick_setRing (m : List Area) (s : State) (r : RingId) (x : Ring) (h_io : .io ∈ m) :
    pick m (setRing s r x) = pick m s := by simp [setRing, h_io]

@[simp] theorem pick_modRing (m : List Area) (s : State) (r : RingId) (f : Ring → Ring) (h_io : .io ∈ m) :
    pick m (modRing s r f) = pick m s := by simp [modRing, h_io]

@[simp] theorem pick_setVec (m : List Area) (s : State) (v : Nat) (x : Vec) (h_io : .io ∈ m) :
    pick m (setVec s v x) = pick m s := by simp [setVec, h_io]

@[simp] theorem pick_setPll (m : List Area) (s : State) (u : PllId) (x : Pll) (h_clk : .clk ∈ m) :
    pick m (setPll s u x) = pick m s := by simp [setPll, h_clk]

@[simp] theorem pick_setSwitch (m : List Area) (s : State) (d : Domain) (x : Switch) (h_clk : .clk ∈ m) :
    pick m (setSwitch s d x) = pick m s := by simp [setSwitch, h_clk]

@[simp] theorem pick_emit (m : List Area) (s : State) (b : Bus) (h_io : .io ∈ m) :
    pick m (emit s b) = pick m s := by simp [emit, h_io]

@[simp] theorem pick_draw (m : List Area) (s : State) (h_fresh : .fresh ∈ m) :
    pick m ((draw s).2) = pick m s := by simp [draw, h_fresh]

@[simp] theorem pick_freeNat (m : List Area) (s : State) (h_fresh : .fresh ∈ m) :
    pick m ((freeNat s).2) = pick m s := by simp [freeNat, h_fresh]

/-! ### Operands -/

@[simp] theorem pick_regStore (m : List Area) (s : State) (off : Nat) (v : BitVec 32) (h_regs : .regs ∈ m) :
    pick m (regStore s off v) = pick m s := by simp [regStore, h_regs]

/-! ### Rings -/

@[simp] theorem pick_mirrorPut (m : List Area) (s : State) (o : MirrorObj) (h_io : .io ∈ m) :
    pick m (mirrorPut s o) = pick m s := by simp [mirrorPut, h_io]

@[simp] theorem pick_mirrorWrite (m : List Area) (s : State) (o : MirrorObj) (h_io : .io ∈ m) :
    pick m (mirrorWrite s o) = pick m s := by simp [mirrorWrite, h_io]

@[simp] theorem pick_knowGen (m : List Area) (s : State) (o : MirrorObj) (src : Nat) (g : BitVec 32)
    (h_io : .io ∈ m) :
    pick m (knowGen s o src g) = pick m s := by simp [knowGen, h_io]

@[simp] theorem pick_mirrorEvent (m : List Area) (s : State) (o : MirrorObj) (src : Nat) (g : BitVec 32)
    (h_io : .io ∈ m) :
    pick m (mirrorEvent s o src g) = pick m s := by simp [mirrorEvent, h_io]

@[simp] theorem pick_mirrorAll (m : List Area) (s : State) (h_io : .io ∈ m) :
    pick m (mirrorAll s) = pick m s := by simp [mirrorAll, h_io]

@[simp] theorem pick_msixSend (m : List Area) (s : State) (v : Nat) (h_io : .io ∈ m) :
    pick m (msixSend s v) = pick m s := by simp [msixSend, h_io]

@[simp] theorem pick_vecCheck (m : List Area) (s : State) (v : Nat) (h_io : .io ∈ m) :
    pick m (vecCheck s v) = pick m s := by simp [vecCheck, h_io]

@[simp] theorem pick_ringRequest (m : List Area) (s : State) (r : RingId) (h_io : .io ∈ m) :
    pick m (ringRequest s r) = pick m s := by simp [ringRequest, h_io]

@[simp] theorem pick_putRecord (m : List Area) (s : State) (q : RingId) (rec : Completion) (h_io : .io ∈ m) :
    pick m (putRecord s q rec) = pick m s := by simp [putRecord, h_io]

@[simp] theorem pick_putCompletion (m : List Area) (s : State) (q : RingId) (rec : Completion) (h_io : .io ∈ m) :
    pick m (putCompletion s q rec) = pick m s := by simp [putCompletion, h_io]

@[simp] theorem pick_putReserved (m : List Area) (s : State) (q : RingId) (rec : Completion) (h_io : .io ∈ m) :
    pick m (putReserved s q rec) = pick m s := by simp [putReserved, h_io]

@[simp] theorem pick_flushList (m : List Area) (x0 : List Completion) (x1 : State) (x2 : RingId) (h_io : .io ∈ m) :
    pick m ((flushList x0 x1 x2).1) = pick m x1 := by
  induction x0 generalizing x1 with
  | nil => rfl
  | cons rec l ih => unfold flushList; split <;> simp [ih, h_io]

@[simp] theorem pick_flushBacklog (m : List Area) (s : State) (q : RingId) (h_io : .io ∈ m) :
    pick m (flushBacklog s q) = pick m s := by simp [flushBacklog, h_io]

@[simp] theorem pick_flushAll (m : List Area) (s : State) (h_io : .io ∈ m) :
    pick m (flushAll s) = pick m s := by simp [flushAll, h_io]

@[simp] theorem pick_dequeue (m : List Area) (s : State) (c : Cmd) (h_herds : .herds ∈ m) (h_io : .io ∈ m) :
    pick m (dequeue s c) = pick m s := by unfold dequeue; split <;> simp [h_herds, h_io]

@[simp] theorem pick_complete (m : List Area) (s : State) (opcode : Nat) (c : Cmd) (changed : List MirrorObj)
    (status : BitVec 8) (result : BitVec 64) (h_herds : .herds ∈ m) (h_io : .io ∈ m) :
    pick m (complete s opcode c changed status result) = pick m s := by simp [complete, h_herds, h_io]

@[simp] theorem pick_completeOk (m : List Area) (s : State) (opcode : Nat) (c : Cmd) (changed : List MirrorObj)
    (result : Nat) (h_herds : .herds ∈ m) (h_io : .io ∈ m) :
    pick m (completeOk s opcode c changed result) = pick m s := by simp [completeOk, h_herds, h_io]

@[simp] theorem pick_reject (m : List Area) (s : State) (opcode : Nat) (c : Cmd) (status : BitVec 8)
    (result : BitVec 64) (h_herds : .herds ∈ m) (h_io : .io ∈ m) :
    pick m (reject s opcode c status result) = pick m s := by simp [reject, h_herds, h_io]

@[simp] theorem pick_setHerdBuf (m : List Area) (s : State) (h : HerdId) (b : EvBuf) (h_io : .io ∈ m) :
    pick m (setHerdBuf s h b) = pick m s := by simp [setHerdBuf, h_io]

@[simp] theorem pick_markLost (m : List Area) (s : State) (old new : EvBuf) (h_io : .io ∈ m) :
    pick m (markLost s old new) = pick m s := by
  unfold markLost
  repeat'
    first
    | (simp [h_io]; done)
    | split
    | refine (pick_forEach _ _ _ _ ?_).trans ?_
    | intro _ _

@[simp] theorem pick_pushGlobal (m : List Area) (s : State) (e : Event) (h_io : .io ∈ m) :
    pick m (pushGlobal s e) = pick m s := by simp [pushGlobal, h_io]

@[simp] theorem pick_bumpGen (m : List Area) (s : State) (src : Nat) (h_io : .io ∈ m) :
    pick m (bumpGen s src) = pick m s := by simp [bumpGen, h_io]

@[simp] theorem pick_postGlobal (m : List Area) (s : State) (g : Nat) (payload : List Fld) (h_io : .io ∈ m) :
    pick m (postGlobal s g payload) = pick m s := by simp [postGlobal, h_io]

@[simp] theorem pick_pushPort (m : List Area) (s : State) (p : PortId) (e : Event) (h_io : .io ∈ m) :
    pick m (pushPort s p e) = pick m s := by simp [pushPort, h_io]

@[simp] theorem pick_pushEvent (m : List Area) (s : State) (e : Event) (h_io : .io ∈ m) :
    pick m (pushEvent s e) = pick m s := by
  unfold pushEvent
  repeat'
    first
    | (simp [h_io]; done)
    | split

@[simp] theorem pick_postPort (m : List Area) (s : State) (p : PortId) (n : Nat) (payload : List Fld)
    (h_io : .io ∈ m) :
    pick m (postPort s p n payload) = pick m s := by simp [postPort, h_io]

@[simp] theorem pick_postNaming (m : List Area) (s : State) (p : PortId) (n : Nat) (payload : List Fld)
    (k : Option Taken) (h_io : .io ∈ m) :
    pick m (postNaming s p n payload k) = pick m s := by simp [postNaming, h_io]

@[simp] theorem pick_setInterval (m : List Area) (s : State) (key : Nat) (i : Interval) (h_io : .io ∈ m) :
    pick m (setInterval s key i) = pick m s := by simp [setInterval, h_io]

@[simp] theorem pick_postLimitedNaming (m : List Area) (s : State) (src kind : Nat) (payload : List Fld)
    (at_ : Option Nat) (n : Nat) (k : Option Taken) (h_io : .io ∈ m) :
    pick m (postLimitedNaming s src kind payload at_ n k) = pick m s := by simp [postLimitedNaming, h_io]

@[simp] theorem pick_countLimited (m : List Area) (s : State) (src kind : Nat) (h_io : .io ∈ m) :
    pick m (countLimited s src kind) = pick m s := by simp [countLimited, h_io]

@[simp] theorem pick_postLimited (m : List Area) (s : State) (src kind : Nat) (payload : List Fld)
    (at_ : Option Nat) (n : Nat) (h_io : .io ∈ m) :
    pick m (postLimited s src kind payload at_ n) = pick m s := by simp [postLimited, h_io]

@[simp] theorem pick_putEvent (m : List Area) (s : State) (r : RingId) (e : Event) (h_io : .io ∈ m) :
    pick m (putEvent s r e) = pick m s := by unfold putEvent; split <;> simp [h_io]

@[simp] theorem pick_popBuf (m : List Area) (s : State) (r : RingId) (d : DataDesc) (rest : List DataDesc)
    (h_io : .io ∈ m) :
    pick m ((popBuf s r d rest).2) = pick m s := by simp [popBuf, h_io]

@[simp] theorem pick_completeBuf (m : List Area) (s : State) (kind : BitVec 3) (k : Taken) (status : BitVec 8)
    (bytes : Nat) (h_io : .io ∈ m) :
    pick m (completeBuf s kind k status bytes) = pick m s := by simp [completeBuf, h_io]

@[simp] theorem pick_skipBad (m : List Area) (isIn : Bool) (r : RingId) (x2 : List DataDesc) (x3 : State)
    (h_io : .io ∈ m) :
    pick m (skipBad isIn r x2 x3) = pick m x3 := by
  induction x2 generalizing x3 with
  | nil => rfl
  | cons d l ih => unfold skipBad; split <;> simp [ih, h_io]

@[simp] theorem pick_cleanHead (m : List Area) (s : State) (r : RingId) (h_io : .io ∈ m) :
    pick m (cleanHead s r) = pick m s := by simp [cleanHead, h_io]

@[simp] theorem pick_takeBuf (m : List Area) (s : State) (ring : Option RingId) (need : Nat) (h_io : .io ∈ m) :
    pick m ((takeBuf s ring need).st) = pick m s := by
  unfold takeBuf
  simp only []
  repeat'
    first
    | (simp [h_io]; done)
    | split

@[simp] theorem pick_untake (m : List Area) (s : State) (k : Taken) (h_io : .io ∈ m) :
    pick m (untake s k) = pick m s := by simp [untake, h_io]

@[simp] theorem pick_finishIn (m : List Area) (s : State) (k : Taken) (bytes : Nat) (fs : List Fld) (h_io : .io ∈ m) :
    pick m (finishIn s k bytes fs) = pick m s := by simp [finishIn, h_io]

@[simp] theorem pick_returnShort (m : List Area) (need : Nat) (r : RingId) (x2 : List DataDesc) (x3 : State)
    (h_io : .io ∈ m) :
    pick m (returnShort need r x2 x3) = pick m x3 := by
  induction x2 generalizing x3 with
  | nil => rfl
  | cons d l ih => unfold returnShort; split <;> simp [ih, h_io]

@[simp] theorem pick_deliverKept (m : List Area) (s : State) (r : RingId) (p : PortId) (h_ports : .ports ∈ m)
    (h_io : .io ∈ m) :
    pick m (deliverKept s r p) = pick m s := by
  unfold deliverKept
  simp only []
  repeat'
    first
    | (simp [h_ports, h_io]; done)
    | split

@[simp] theorem pick_takeIn (m : List Area) (s : State) (ring : Option RingId) (need : Nat) (h_ports : .ports ∈ m)
    (h_io : .io ∈ m) :
    pick m ((takeIn s ring need).st) = pick m s := by
  unfold takeIn
  repeat'
    first
    | (simp [h_ports, h_io]; done)
    | split
    | refine (pick_forEach _ _ _ _ ?_).trans ?_
    | intro _ _

@[simp] theorem pick_dropIn (m : List Area) (s : State) (k : Taken) (status : BitVec 8) (h_io : .io ∈ m) :
    pick m (dropIn s k status) = pick m s := by simp [dropIn, h_io]

@[simp] theorem pick_takeOut (m : List Area) (s : State) (ring : Option RingId) (h_io : .io ∈ m) :
    pick m ((takeOut s ring).st) = pick m s := by
  unfold takeOut
  simp only []
  repeat'
    first
    | (simp [h_io]; done)
    | split

@[simp] theorem pick_answerWith (m : List Area) (s : State) (opcode : Nat) (c : Cmd) (t : Target) (need bytes : Nat)
    (fs : List Fld) (result : Nat) (changed : List MirrorObj) (h_ports : .ports ∈ m) (h_herds : .herds ∈ m)
    (h_io : .io ∈ m) :
    pick m (answerWith s opcode c t need bytes fs result changed) = pick m s := by
  unfold answerWith
  simp only []
  repeat'
    first
    | (simp [h_ports, h_herds, h_io]; done)
    | split

@[simp] theorem pick_answerIn (m : List Area) (s : State) (opcode : Nat) (c : Cmd) (t : Target) (need : Nat)
    (fs : List Fld) (result : Nat) (h_ports : .ports ∈ m) (h_herds : .herds ∈ m) (h_io : .io ∈ m) :
    pick m (answerIn s opcode c t need fs result) = pick m s := by
  unfold answerIn
  repeat'
    first
    | (simp [h_ports, h_herds, h_io]; done)
    | split
    | refine (pick_forEach _ _ _ _ ?_).trans ?_
    | intro _ _

/-! ### PortOps -/

@[simp] theorem pick_sendInfo (m : List Area) (s : State) (p : PortId) (type : BitVec 8) (payload : BitVec 64)
    (cmd : Option Cmd) (h_ports : .ports ∈ m) :
    pick m (sendInfo s p type payload cmd) = pick m s := by simp [sendInfo, h_ports]

@[simp] theorem pick_railTo (m : List Area) (s : State) (r : RailId) (mv : Nat) (h_rails : .rails ∈ m)
    (h_io : .io ∈ m) :
    pick m (railTo s r mv) = pick m s := by simp [railTo, h_rails, h_io]

@[simp] theorem pick_stepBegin (m : List Area) (s : State) (d : DieId) (n : Nat) (h_rails : .rails ∈ m)
    (h_dies : .dies ∈ m) (h_io : .io ∈ m) :
    pick m (stepBegin s d n) = pick m s := by simp [stepBegin, h_rails, h_dies, h_io]

@[simp] theorem pick_retarget (m : List Area) (s : State) (d : DieId) (h_rails : .rails ∈ m) (h_dies : .dies ∈ m)
    (h_io : .io ∈ m) :
    pick m (retarget s d) = pick m s := by simp [retarget, h_rails, h_dies, h_io]

@[simp] theorem pick_pllStop (m : List Area) (s : State) (k : PllKind) (h_clk : .clk ∈ m) :
    pick m (pllStop s k) = pick m s := by simp [pllStop, h_clk]

@[simp] theorem pick_pllsOff (m : List Area) (s : State) (l : List PllKind) (h_clk : .clk ∈ m) :
    pick m (pllsOff s l) = pick m s := by simp [pllsOff, h_clk]

@[simp] theorem pick_requestSwitch (m : List Area) (s : State) (d : Domain) (toPll : Bool) (h_clk : .clk ∈ m) :
    pick m (requestSwitch s d toPll) = pick m s := by simp [requestSwitch, h_clk]

@[simp] theorem pick_movePll (m : List Area) (s : State) (h : HerdId) (h_clk : .clk ∈ m) (h_herds : .herds ∈ m) :
    pick m (movePll s h) = pick m s := by simp [movePll, h_clk, h_herds]

@[simp] theorem pick_moveDomain (m : List Area) (s : State) (d : Domain) (h_clk : .clk ∈ m) (h_herds : .herds ∈ m) :
    pick m (moveDomain s d) = pick m s := by unfold moveDomain; split <;> simp [h_clk, h_herds]

@[simp] theorem pick_switchNext (m : List Area) (s : State) (d : Domain) (onPll : Bool) (h_clk : .clk ∈ m)
    (h_herds : .herds ∈ m) :
    pick m (switchNext s d onPll) = pick m s := by
  unfold switchNext
  simp only []
  repeat'
    first
    | (simp [h_clk, h_herds]; done)
    | split

@[simp] theorem pick_switchDone (m : List Area) (s : State) (d : Domain) (toPll : Bool) (h_clk : .clk ∈ m)
    (h_herds : .herds ∈ m) :
    pick m (switchDone s d toPll) = pick m s := by simp [switchDone, h_clk, h_herds]

@[simp] theorem pick_switchNow (m : List Area) (s : State) (d : Domain) (toPll : Bool) (h_clk : .clk ∈ m)
    (h_herds : .herds ∈ m) :
    pick m (switchNow s d toPll) = pick m s := by
  unfold switchNow
  simp only []
  repeat'
    first
    | (simp [h_clk, h_herds]; done)
    | split

@[simp] theorem pick_setPllMode (m : List Area) (s : State) (h : HerdId) (m_ : LineMode) (h_clk : .clk ∈ m)
    (h_herds : .herds ∈ m) :
    pick m (setPllMode s h m_) = pick m s := by simp [setPllMode, h_clk, h_herds]

@[simp] theorem pick_laneRateTo (m : List Area) (s : State) (p : PortId) (m_ : LineMode) (h_ports : .ports ∈ m) :
    pick m (laneRateTo s p m_) = pick m s := by simp [laneRateTo, h_ports]

@[simp] theorem pick_releaseMode (m : List Area) (s : State) (h : HerdId) (reaction : Bool) (h_rails : .rails ∈ m)
    (h_dies : .dies ∈ m) (h_herds : .herds ∈ m) (h_io : .io ∈ m) :
    pick m (releaseMode s h reaction) = pick m s := by simp [releaseMode, h_rails, h_dies, h_herds, h_io]

@[simp] theorem pick_setSt (m : List Area) (s : State) (p : PortId) (st : PortSt) (h_rails : .rails ∈ m)
    (h_dies : .dies ∈ m) (h_ports : .ports ∈ m) (h_herds : .herds ∈ m) (h_io : .io ∈ m) :
    pick m (setSt s p st) = pick m s := by simp [setSt, h_rails, h_dies, h_ports, h_herds, h_io]

@[simp] theorem pick_drawNeg (m : List Area) (s : State) (h_fresh : .fresh ∈ m) :
    pick m ((drawNeg s).2) = pick m s := by simp [drawNeg, h_fresh]

@[simp] theorem pick_newAttempt (m : List Area) (s : State) (p : PortId) (h_fresh : .fresh ∈ m)
    (h_rails : .rails ∈ m) (h_dies : .dies ∈ m) (h_ports : .ports ∈ m) (h_herds : .herds ∈ m) (h_io : .io ∈ m) :
    pick m (newAttempt s p) = pick m s := by simp [newAttempt, h_fresh, h_rails, h_dies, h_ports, h_herds, h_io]

@[simp] theorem pick_waitNegotiate (m : List Area) (s : State) (p : PortId) (h_rails : .rails ∈ m)
    (h_dies : .dies ∈ m) (h_ports : .ports ∈ m) (h_herds : .herds ∈ m) (h_io : .io ∈ m) :
    pick m (waitNegotiate s p) = pick m s := by simp [waitNegotiate, h_rails, h_dies, h_ports, h_herds, h_io]

@[simp] theorem pick_clearAttempts (m : List Area) (s : State) (p : PortId) (h_ports : .ports ∈ m) :
    pick m (clearAttempts s p) = pick m s := by simp [clearAttempts, h_ports]

@[simp] theorem pick_countAttempt (m : List Area) (s : State) (p : PortId) (seen : Bool) (h_ports : .ports ∈ m) :
    pick m (countAttempt s p seen) = pick m s := by simp [countAttempt, h_ports]

@[simp] theorem pick_postAbort (m : List Area) (s : State) (p : PortId) (cause : Nat) (at_ : PortSt) (attempt : Nat)
    (entered : PortSt) (h_ports : .ports ∈ m) (h_io : .io ∈ m) :
    pick m (postAbort s p cause at_ attempt entered) = pick m s := by simp [postAbort, h_ports, h_io]

@[simp] theorem pick_dieTrigger (m : List Area) (s : State) (d : DieId) (h_dies : .dies ∈ m) :
    pick m (dieTrigger s d) = pick m s := by simp [dieTrigger, h_dies]

@[simp] theorem pick_dropSweep (m : List Area) (s : State) (p : PortId) (h_herds : .herds ∈ m) :
    pick m (dropSweep s p) = pick m s := by simp [dropSweep, h_herds]

@[simp] theorem pick_returnTo (m : List Area) (s : State) (p : PortId) (st : PortSt) (h_fresh : .fresh ∈ m)
    (h_rails : .rails ∈ m) (h_dies : .dies ∈ m) (h_ports : .ports ∈ m) (h_herds : .herds ∈ m) (h_io : .io ∈ m) :
    pick m (returnTo s p st) = pick m s := by
  unfold returnTo; split <;> simp [h_fresh, h_rails, h_dies, h_ports, h_herds, h_io]

@[simp] theorem pick_diagEnd (m : List Area) (s : State) (p : PortId) (chamois full : Bool) (f : Option DiagFinding)
    (h_fresh : .fresh ∈ m) (h_ports : .ports ∈ m) (h_herds : .herds ∈ m) (h_io : .io ∈ m) :
    pick m (diagEnd s p chamois full f) = pick m s := by
  unfold diagEnd
  simp only []
  repeat'
    first
    | (simp [h_fresh, h_ports, h_herds, h_io]; done)
    | split

@[simp] theorem pick_endPassive (m : List Area) (s : State) (p : PortId) (h_fresh : .fresh ∈ m)
    (h_ports : .ports ∈ m) (h_herds : .herds ∈ m) (h_io : .io ∈ m) :
    pick m (endPassive s p) = pick m s := by simp [endPassive, h_fresh, h_ports, h_herds, h_io]

@[simp] theorem pick_endChamois (m : List Area) (s : State) (p : PortId) (h_fresh : .fresh ∈ m)
    (h_ports : .ports ∈ m) (h_herds : .herds ∈ m) (h_io : .io ∈ m) :
    pick m (endChamois s p) = pick m s := by simp [endChamois, h_fresh, h_ports, h_herds, h_io]

@[simp] theorem pick_startChamois (m : List Area) (s : State) (p : PortId) (skip profile auto : Bool)
    (buf : Option Taken) (endState : PortSt) (h_ports : .ports ∈ m) (h_herds : .herds ∈ m) :
    pick m (startChamois s p skip profile auto buf endState) = pick m s := by simp [startChamois, h_ports, h_herds]

@[simp] theorem pick_autoChamois (m : List Area) (s : State) (p : PortId) (h_fresh : .fresh ∈ m)
    (h_ports : .ports ∈ m) (h_herds : .herds ∈ m) (h_io : .io ∈ m) :
    pick m (autoChamois s p) = pick m s := by
  unfold autoChamois
  simp only []
  repeat'
    first
    | (simp [h_fresh, h_ports, h_herds, h_io]; done)
    | split

@[simp] theorem pick_enterHold (m : List Area) (s : State) (p : PortId) (h_fresh : .fresh ∈ m)
    (h_rails : .rails ∈ m) (h_dies : .dies ∈ m) (h_ports : .ports ∈ m) (h_herds : .herds ∈ m) (h_io : .io ∈ m) :
    pick m (enterHold s p) = pick m s := by simp [enterHold, h_fresh, h_rails, h_dies, h_ports, h_herds, h_io]

@[simp] theorem pick_calDone (m : List Area) (s : State) (p : PortId) (status : Nat) (h_ports : .ports ∈ m)
    (h_io : .io ∈ m) :
    pick m (calDone s p status) = pick m s := by unfold calDone; split <;> simp [h_ports, h_io]

@[simp] theorem pick_endCal (m : List Area) (s : State) (p : PortId) (h_ports : .ports ∈ m) (h_io : .io ∈ m) :
    pick m (endCal s p) = pick m s := by simp [endCal, h_ports, h_io]

@[simp] theorem pick_countPers (m : List Area) (s : State) (p : PortId) (off : Nat) (h_ports : .ports ∈ m) :
    pick m (countPers s p off) = pick m s := by simp [countPers, h_ports]

@[simp] theorem pick_exhaust (m : List Area) (s : State) (p : PortId) (at_ : PortSt) (attempt : Nat)
    (h_fresh : .fresh ∈ m) (h_rails : .rails ∈ m) (h_dies : .dies ∈ m) (h_ports : .ports ∈ m) (h_herds : .herds ∈ m)
    (h_io : .io ∈ m) :
    pick m (exhaust s p at_ attempt) = pick m s := by
  simp [exhaust, h_fresh, h_rails, h_dies, h_ports, h_herds, h_io]

@[simp] theorem pick_countedFail (m : List Area) (s : State) (p : PortId) (cause : Option Nat) (seen : Bool)
    (h_fresh : .fresh ∈ m) (h_rails : .rails ∈ m) (h_dies : .dies ∈ m) (h_ports : .ports ∈ m) (h_herds : .herds ∈ m)
    (h_io : .io ∈ m) :
    pick m (countedFail s p cause seen) = pick m s := by
  unfold countedFail; split <;> simp [h_fresh, h_rails, h_dies, h_ports, h_herds, h_io]

@[simp] theorem pick_dmeRestart (m : List Area) (s : State) (p : PortId) (h_fresh : .fresh ∈ m)
    (h_rails : .rails ∈ m) (h_dies : .dies ∈ m) (h_ports : .ports ∈ m) (h_herds : .herds ∈ m) (h_io : .io ∈ m) :
    pick m (dmeRestart s p) = pick m s := by simp [dmeRestart, h_fresh, h_rails, h_dies, h_ports, h_herds, h_io]

@[simp] theorem pick_abortTo (m : List Area) (s : State) (p : PortId) (cause : Nat) (entered : PortSt)
    (h_ports : .ports ∈ m) (h_io : .io ∈ m) :
    pick m (abortTo s p cause entered) = pick m s := by simp [abortTo, h_ports, h_io]

@[simp] theorem pick_handoverStart (m : List Area) (s : State) (h : HerdId) (h_herds : .herds ∈ m) :
    pick m (handoverStart s h) = pick m s := by simp [handoverStart, h_herds]

@[simp] theorem pick_failWaits (m : List Area) (s : State) (p : PortId) (cause : Nat) (h_herds : .herds ∈ m)
    (h_io : .io ∈ m) (h_waits : .waits ∈ m) :
    pick m (failWaits s p cause) = pick m s := by
  unfold failWaits
  repeat'
    first
    | (simp [h_herds, h_io, h_waits]; done)
    | split
    | refine (pick_forEach _ _ _ _ ?_).trans ?_
    | intro _ _

@[simp] theorem pick_leaveUp (m : List Area) (s : State) (p : PortId) (cause : Nat) (next : PortSt)
    (h_rails : .rails ∈ m) (h_dies : .dies ∈ m) (h_ports : .ports ∈ m) (h_herds : .herds ∈ m) (h_io : .io ∈ m)
    (h_waits : .waits ∈ m) :
    pick m (leaveUp s p cause next) = pick m s := by
  simp [leaveUp, h_rails, h_dies, h_ports, h_herds, h_io, h_waits]

@[simp] theorem pick_linkDown (m : List Area) (s : State) (p : PortId) (cause : Nat) (h_fresh : .fresh ∈ m)
    (h_rails : .rails ∈ m) (h_dies : .dies ∈ m) (h_ports : .ports ∈ m) (h_herds : .herds ∈ m) (h_io : .io ∈ m)
    (h_waits : .waits ∈ m) :
    pick m (linkDown s p cause) = pick m s := by
  simp [linkDown, h_fresh, h_rails, h_dies, h_ports, h_herds, h_io, h_waits]

@[simp] theorem pick_enterT0 (m : List Area) (s : State) (p : PortId) (keepCal newStart : Bool)
    (h_rails : .rails ∈ m) (h_dies : .dies ∈ m) (h_ports : .ports ∈ m) (h_herds : .herds ∈ m) (h_io : .io ∈ m) :
    pick m (enterT0 s p keepCal newStart) = pick m s := by simp [enterT0, h_rails, h_dies, h_ports, h_herds, h_io]

@[simp] theorem pick_springbokFallback (m : List Area) (s : State) (p : PortId) (h_rails : .rails ∈ m)
    (h_dies : .dies ∈ m) (h_ports : .ports ∈ m) (h_herds : .herds ∈ m) (h_io : .io ∈ m) :
    pick m (springbokFallback s p) = pick m s := by
  simp [springbokFallback, h_rails, h_dies, h_ports, h_herds, h_io]

@[simp] theorem pick_surveyOthers (m : List Area) (s : State) (p : PortId) (h_ports : .ports ∈ m) :
    pick m (surveyOthers s p) = pick m s := by simp [surveyOthers, h_ports]

@[simp] theorem pick_surveyStart (m : List Area) (s : State) (p : PortId) (h_ports : .ports ∈ m) :
    pick m (surveyStart s p) = pick m s := by simp [surveyStart, h_ports]

@[simp] theorem pick_repathPort (m : List Area) (s : State) (p : PortId) (h_ports : .ports ∈ m) :
    pick m (repathPort s p) = pick m s := by simp [repathPort, h_ports]

@[simp] theorem pick_repath (m : List Area) (s : State) (h : HerdId) (h_ports : .ports ∈ m) :
    pick m (repath s h) = pick m s := by simp [repath, h_ports]

@[simp] theorem pick_tellTiming (m : List Area) (s : State) (h : HerdId) (h_ports : .ports ∈ m) :
    pick m (tellTiming s h) = pick m s := by simp [tellTiming, h_ports]

@[simp] theorem pick_formTrunk (m : List Area) (s : State) (h : HerdId) (h_ports : .ports ∈ m)
    (h_herds : .herds ∈ m) :
    pick m (formTrunk s h) = pick m s := by
  unfold formTrunk
  simp only []
  repeat'
    first
    | (simp [h_ports, h_herds]; done)
    | split

@[simp] theorem pick_timingUp (m : List Area) (s : State) (p : PortId) (h_ports : .ports ∈ m) (h_herds : .herds ∈ m) :
    pick m (timingUp s p) = pick m s := by
  unfold timingUp
  simp only []
  repeat'
    first
    | (simp [h_ports, h_herds]; done)
    | split

@[simp] theorem pick_dissolve (m : List Area) (s : State) (h : HerdId) (h_ports : .ports ∈ m) (h_herds : .herds ∈ m) :
    pick m (dissolve s h) = pick m s := by simp [dissolve, h_ports, h_herds]

@[simp] theorem pick_enterUp (m : List Area) (s : State) (p : PortId) (sig gen : BitVec 32) (h_rails : .rails ∈ m)
    (h_dies : .dies ∈ m) (h_ports : .ports ∈ m) (h_herds : .herds ∈ m) (h_io : .io ∈ m) :
    pick m (enterUp s p sig gen) = pick m s := by simp [enterUp, h_rails, h_dies, h_ports, h_herds, h_io]

@[simp] theorem pick_enterSafe (m : List Area) (s : State) (p : PortId) (h_fresh : .fresh ∈ m)
    (h_rails : .rails ∈ m) (h_dies : .dies ∈ m) (h_ports : .ports ∈ m) (h_herds : .herds ∈ m) (h_io : .io ∈ m)
    (h_waits : .waits ∈ m) :
    pick m (enterSafe s p) = pick m s := by
  simp [enterSafe, h_fresh, h_rails, h_dies, h_ports, h_herds, h_io, h_waits]

@[simp] theorem pick_releasePort (m : List Area) (s : State) (p : PortId) (h_fresh : .fresh ∈ m)
    (h_rails : .rails ∈ m) (h_dies : .dies ∈ m) (h_ports : .ports ∈ m) (h_herds : .herds ∈ m) (h_io : .io ∈ m) :
    pick m (releasePort s p) = pick m s := by
  unfold releasePort
  simp only []
  repeat'
    first
    | (simp [h_fresh, h_rails, h_dies, h_ports, h_herds, h_io]; done)
    | split

/-! ### Observe -/

@[simp] theorem pick_setObs (m : List Area) (s : State) (h : HerdId) (o : Obs) (h_herds : .herds ∈ m) :
    pick m (setObs s h o) = pick m s := by simp [setObs, h_herds]

@[simp] theorem pick_captureReady (m : List Area) (s : State) (h : HerdId) (source : Nat) (k : Taken)
    (h_io : .io ∈ m) :
    pick m (captureReady s h source k) = pick m s := by simp [captureReady, h_io]

@[simp] theorem pick_captureStopped (m : List Area) (s : State) (h : HerdId) (e : ObsEnd) (k : Option Taken)
    (h_io : .io ∈ m) :
    pick m (captureStopped s h e k) = pick m s := by simp [captureStopped, h_io]

@[simp] theorem pick_captureTake (m : List Area) (s : State) (h : HerdId) (h_ports : .ports ∈ m)
    (h_herds : .herds ∈ m) (h_io : .io ∈ m) :
    pick m (captureTake s h) = pick m s := by
  unfold captureTake
  simp only []
  repeat'
    first
    | (simp [h_ports, h_herds, h_io]; done)
    | split

@[simp] theorem pick_captureWrite (m : List Area) (s : State) (h : HerdId) (b : Taken) (n : Nat)
    (noTime : BitVec 64) (last : Option ObsEnd) (h_herds : .herds ∈ m) (h_io : .io ∈ m) :
    pick m (captureWrite s h b n noTime last) = pick m s := by simp [captureWrite, h_herds, h_io]

@[simp] theorem pick_captureFill (m : List Area) (x0 : Nat) (x1 : HerdId) (x2 : State) (h_ports : .ports ∈ m)
    (h_herds : .herds ∈ m) (h_io : .io ∈ m) :
    pick m (captureFill x0 x1 x2) = pick m x2 := by
  induction x0 generalizing x2 with
  | zero => rfl
  | succ n ih =>
    unfold captureFill
    simp only []
    repeat' (first | (simp [ih, h_ports, h_herds, h_io]; done) | split)

@[simp] theorem pick_stopDone (m : List Area) (s : State) (h : HerdId) (h_herds : .herds ∈ m) (h_io : .io ∈ m) :
    pick m (stopDone s h) = pick m s := by simp [stopDone, h_herds, h_io]

@[simp] theorem pick_captureEnd (m : List Area) (x0 : Nat) (x1 : HerdId) (x2 : ObsEnd) (x3 : State)
    (h_fresh : .fresh ∈ m) (h_ports : .ports ∈ m) (h_herds : .herds ∈ m) (h_io : .io ∈ m) :
    pick m (captureEnd x0 x1 x2 x3) = pick m x3 := by
  induction x0 generalizing x3 with
  | zero => rfl
  | succ n ih =>
    unfold captureEnd
    simp only []
    repeat' (first | (simp [ih, h_fresh, h_ports, h_herds, h_io]; done) | split)

@[simp] theorem pick_captureDrain (m : List Area) (s : State) (h : HerdId) (h_fresh : .fresh ∈ m)
    (h_ports : .ports ∈ m) (h_herds : .herds ∈ m) (h_io : .io ∈ m) :
    pick m (captureDrain s h) = pick m s := by
  unfold captureDrain
  simp only []
  repeat'
    first
    | (simp [h_fresh, h_ports, h_herds, h_io]; done)
    | split

@[simp] theorem pick_obsStopWith (m : List Area) (s : State) (h : HerdId) (cause : Nat) (h_fresh : .fresh ∈ m)
    (h_ports : .ports ∈ m) (h_herds : .herds ∈ m) (h_io : .io ∈ m) :
    pick m (obsStopWith s h cause) = pick m s := by
  unfold obsStopWith
  simp only []
  repeat'
    first
    | (simp [h_fresh, h_ports, h_herds, h_io]; done)
    | split

@[simp] theorem pick_dropObsWaits (m : List Area) (s : State) (h : HerdId) (h_herds : .herds ∈ m) (h_io : .io ∈ m) :
    pick m (dropObsWaits s h) = pick m s := by
  unfold dropObsWaits
  repeat'
    first
    | (simp [h_herds, h_io]; done)
    | split
    | refine (pick_forEach _ _ _ _ ?_).trans ?_
    | intro _ _

@[simp] theorem pick_obsCut (m : List Area) (s : State) (h : HerdId) (cause : Nat) (h_fresh : .fresh ∈ m)
    (h_ports : .ports ∈ m) (h_herds : .herds ∈ m) (h_io : .io ∈ m) :
    pick m (obsCut s h cause) = pick m s := by simp [obsCut, h_fresh, h_ports, h_herds, h_io]

@[simp] theorem pick_obsSelfTest (m : List Area) (s : State) (h : HerdId) (h_fresh : .fresh ∈ m)
    (h_ports : .ports ∈ m) (h_herds : .herds ∈ m) (h_io : .io ∈ m) :
    pick m (obsSelfTest s h) = pick m s := by simp [obsSelfTest, h_fresh, h_ports, h_herds, h_io]

@[simp] theorem pick_doSelect (m : List Area) (s : State) (h : HerdId) (c : Cmd) (source decim : Nat)
    (h_herds : .herds ∈ m) (h_io : .io ∈ m) :
    pick m (doSelect s h c source decim) = pick m s := by simp [doSelect, h_herds, h_io]

@[simp] theorem pick_doStop (m : List Area) (s : State) (h : HerdId) (c : Cmd) (h_fresh : .fresh ∈ m)
    (h_ports : .ports ∈ m) (h_herds : .herds ∈ m) (h_io : .io ∈ m) :
    pick m (doStop s h c) = pick m s := by simp [doStop, h_fresh, h_ports, h_herds, h_io]

@[simp] theorem pick_dropLast (m : List Area) (s : State) (h : HerdId) (h_herds : .herds ∈ m) (h_io : .io ∈ m) :
    pick m (dropLast s h) = pick m s := by unfold dropLast; split <;> simp [h_herds, h_io]

@[simp] theorem pick_doStart (m : List Area) (s : State) (h : HerdId) (mode : BitVec 8) (count : BitVec 32)
    (ring : BitVec 16) (h_herds : .herds ∈ m) (h_io : .io ∈ m) :
    pick m (doStart s h mode count ring) = pick m s := by simp [doStart, h_herds, h_io]

@[simp] theorem pick_finishStart (m : List Area) (s : State) (h : HerdId) (c : Cmd) (mode : BitVec 8)
    (count : BitVec 32) (t : BitVec 64) (h_fresh : .fresh ∈ m) (h_herds : .herds ∈ m) (h_io : .io ∈ m) :
    pick m (finishStart s h c mode count t) = pick m s := by
  unfold finishStart; split <;> simp [h_fresh, h_herds, h_io]

@[simp] theorem pick_obsWaited (m : List Area) (h : HerdId) (s : State) (w : ObsWait) (h_fresh : .fresh ∈ m)
    (h_ports : .ports ∈ m) (h_herds : .herds ∈ m) (h_io : .io ∈ m) :
    pick m (obsWaited h s w) = pick m s := by
  unfold obsWaited
  repeat'
    first
    | (simp [h_fresh, h_ports, h_herds, h_io]; done)
    | split

@[simp] theorem pick_runObsWaits (m : List Area) (s : State) (h : HerdId) (h_fresh : .fresh ∈ m)
    (h_ports : .ports ∈ m) (h_herds : .herds ∈ m) (h_io : .io ∈ m) :
    pick m (runObsWaits s h) = pick m s := by simp [runObsWaits, h_fresh, h_ports, h_herds, h_io]

@[simp] theorem pick_obsPortSafe (m : List Area) (s : State) (h : HerdId) (h_fresh : .fresh ∈ m)
    (h_ports : .ports ∈ m) (h_herds : .herds ∈ m) (h_io : .io ∈ m) :
    pick m (obsPortSafe s h) = pick m s := by simp [obsPortSafe, h_fresh, h_ports, h_herds, h_io]

@[simp] theorem pick_obsModeChange (m : List Area) (s : State) (h : HerdId) (h_fresh : .fresh ∈ m)
    (h_ports : .ports ∈ m) (h_herds : .herds ∈ m) (h_io : .io ∈ m) :
    pick m (obsModeChange s h) = pick m s := by simp [obsModeChange, h_fresh, h_ports, h_herds, h_io]

@[simp] theorem pick_execObsSelect (m : List Area) (c : Cmd) (h : HerdId) (source decim : BitVec 8) (s : State)
    (h_herds : .herds ∈ m) (h_io : .io ∈ m) :
    pickO m (execObsSelect c h source decim s) = some (pick m s) := by
  unfold execObsSelect
  repeat'
    first
    | (simp [h_herds, h_io]; done)
    | split

@[simp] theorem pick_execObsLoadBank (m : List Area) (c : Cmd) (h : HerdId) (bank : BitVec 8) (taps : BitVec 16)
    (data : List Byte) (s : State) (h_herds : .herds ∈ m) (h_io : .io ∈ m) :
    pickO m (execObsLoadBank c h bank taps data s) = some (pick m s) := by
  unfold execObsLoadBank
  simp only []
  repeat'
    first
    | (simp [h_herds, h_io]; done)
    | split

@[simp] theorem pick_execObsSwap (m : List Area) (c : Cmd) (h : HerdId) (fadeLen : BitVec 16) (s : State)
    (h_fresh : .fresh ∈ m) (h_herds : .herds ∈ m) (h_io : .io ∈ m) :
    pickO m (execObsSwap c h fadeLen s) = some (pick m s) := by
  unfold execObsSwap
  repeat'
    first
    | (simp [h_fresh, h_herds, h_io]; done)
    | split

@[simp] theorem pick_execObsStart (m : List Area) (c : Cmd) (h : HerdId) (mode : BitVec 8) (count : BitVec 32)
    (startTime : BitVec 64) (s : State) (h_fresh : .fresh ∈ m) (h_herds : .herds ∈ m) (h_io : .io ∈ m) :
    pickO m (execObsStart c h mode count startTime s) = some (pick m s) := by
  unfold execObsStart
  repeat'
    first
    | (simp [h_fresh, h_herds, h_io]; done)
    | split

@[simp] theorem pick_execObsStop (m : List Area) (c : Cmd) (h : HerdId) (s : State) (h_fresh : .fresh ∈ m)
    (h_ports : .ports ∈ m) (h_herds : .herds ∈ m) (h_io : .io ∈ m) :
    pickO m (execObsStop c h s) = some (pick m s) := by
  unfold execObsStop
  repeat'
    first
    | (simp [h_fresh, h_ports, h_herds, h_io]; done)
    | split

@[simp] theorem pick_obsFeed (m : List Area) (h : HerdId) (x1 : List Int) (x2 : State) (h_fresh : .fresh ∈ m)
    (h_ports : .ports ∈ m) (h_herds : .herds ∈ m) (h_io : .io ∈ m) :
    pick m (obsFeed h x1 x2) = pick m x2 := by
  induction x1 generalizing x2 with
  | nil => rfl
  | cons v l ih =>
    unfold obsFeed
    simp only []
    split
    · rw [ih]; split <;> simp [h_fresh, h_ports, h_herds, h_io]
    · rfl

@[simp] theorem pick_obsRx (m : List Area) (s : State) (p : PortId) (adc : List (List (BitVec 8)))
    (h_fresh : .fresh ∈ m) (h_ports : .ports ∈ m) (h_herds : .herds ∈ m) (h_io : .io ∈ m) :
    pick m (obsRx s p adc) = pick m s := by simp [obsRx, h_fresh, h_ports, h_herds, h_io]

@[simp] theorem pick_obsTx (m : List Area) (s : State) (p : PortId) (dac : Quad (List Int)) (h_fresh : .fresh ∈ m)
    (h_ports : .ports ∈ m) (h_herds : .herds ∈ m) (h_io : .io ∈ m) :
    pick m (obsTx s p dac) = pick m s := by simp [obsTx, h_fresh, h_ports, h_herds, h_io]

@[simp] theorem pick_obsGap (m : List Area) (s : State) (h : HerdId) (adc : List (List (BitVec 8)))
    (h_fresh : .fresh ∈ m) (h_ports : .ports ∈ m) (h_herds : .herds ∈ m) (h_io : .io ∈ m) :
    pick m (obsGap s h adc) = pick m s := by simp [obsGap, h_fresh, h_ports, h_herds, h_io]

@[simp] theorem pick_obsDue (m : List Area) (s : State) (h : HerdId) (h_herds : .herds ∈ m) (h_io : .io ∈ m) :
    pick m (obsDue s h) = pick m s := by
  unfold obsDue
  simp only []
  repeat'
    first
    | (simp [h_herds, h_io]; done)
    | split

@[simp] theorem pick_execObsScheduledStart (m : List Area) (h : HerdId) (s : State) (h_herds : .herds ∈ m)
    (h_io : .io ∈ m) :
    pickO m (execObsScheduledStart h s) = some (pick m s) := by simp [execObsScheduledStart, h_herds, h_io]

@[simp] theorem pick_execObsSettlingDone (m : List Area) (h : HerdId) (adc : List (List (BitVec 8))) (s : State)
    (h_fresh : .fresh ∈ m) (h_ports : .ports ∈ m) (h_herds : .herds ∈ m) (h_io : .io ∈ m) :
    pickO m (execObsSettlingDone h adc s) = some (pick m s) := by
  simp [execObsSettlingDone, h_fresh, h_ports, h_herds, h_io]

@[simp] theorem pick_execObsFadeDone (m : List Area) (h : HerdId) (adc : List (List (BitVec 8))) (s : State)
    (h_fresh : .fresh ∈ m) (h_ports : .ports ∈ m) (h_herds : .herds ∈ m) (h_io : .io ∈ m) :
    pickO m (execObsFadeDone h adc s) = some (pick m s) := by
  simp [execObsFadeDone, h_fresh, h_ports, h_herds, h_io]

@[simp] theorem pick_execObsBufferComplete (m : List Area) (h : HerdId) (adc : List (List (BitVec 8))) (s : State)
    (h_fresh : .fresh ∈ m) (h_ports : .ports ∈ m) (h_herds : .herds ∈ m) (h_io : .io ∈ m) :
    pickO m (execObsBufferComplete h adc s) = some (pick m s) := by
  unfold execObsBufferComplete
  repeat'
    first
    | (simp [h_fresh, h_ports, h_herds, h_io]; done)
    | split
    | refine (pick_forEach _ _ _ _ ?_).trans ?_
    | intro _ _

@[simp] theorem pick_execObsCountDone (m : List Area) (h : HerdId) (adc : List (List (BitVec 8))) (s : State)
    (h_fresh : .fresh ∈ m) (h_ports : .ports ∈ m) (h_herds : .herds ∈ m) (h_io : .io ∈ m) :
    pickO m (execObsCountDone h adc s) = some (pick m s) := by
  simp [execObsCountDone, h_fresh, h_ports, h_herds, h_io]

/-! ### Contexts -/

@[simp] theorem pick_loadCoefs (m : List Area) (s : State) (p : PortId) (c : Coefs) (h_ports : .ports ∈ m) :
    pick m (loadCoefs s p c) = pick m s := by simp [loadCoefs, h_ports]

@[simp] theorem pick_storeSave (m : List Area) (s : State) (p : PortId) (c : Ctx) (h_io : .io ∈ m) :
    pick m (storeSave s p c) = pick m s := by simp [storeSave, h_io]

@[simp] theorem pick_storeHerdRec (m : List Area) (s : State) (h : HerdId) (r : HerdRec) (h_herds : .herds ∈ m)
    (h_io : .io ∈ m) :
    pick m (storeHerdRec s h r) = pick m s := by simp [storeHerdRec, h_herds, h_io]

@[simp] theorem pick_modCtx (m : List Area) (s : State) (p : PortId) (c : Ctx) (f : Ctx → Ctx)
    (h_store : .store ∈ m) :
    pick m (modCtx s p c f) = pick m s := by simp [modCtx, h_store]

@[simp] theorem pick_dropBad (m : List Area) (s : State) (p : PortId) (c : Ctx) (cause : Nat) (h_store : .store ∈ m)
    (h_io : .io ∈ m) :
    pick m (dropBad s p c cause) = pick m s := by simp [dropBad, h_store, h_io]

@[simp] theorem pick_checkRead (m : List Area) (s : State) (p : PortId) (e : Ctx) (r : CtxRead)
    (h_store : .store ∈ m) (h_io : .io ∈ m) :
    pick m ((checkRead s p e r).1) = pick m s := by unfold checkRead; split <;> simp [h_store, h_io]

@[simp] theorem pick_checkReads (m : List Area) (reads : List (PortId × CtxKey × CtxRead)) (s : State)
    (h_store : .store ∈ m) (h_io : .io ∈ m) :
    pick m (checkReads reads s) = pick m s := by
  unfold checkReads
  repeat'
    first
    | (simp [h_store, h_io]; done)
    | split
    | refine (pick_forEach _ _ _ _ ?_).trans ?_
    | intro _ _

@[simp] theorem pick_unpair (m : List Area) (s : State) (c : Cmd) (h_waits : .waits ∈ m) :
    pick m (unpair s c) = pick m s := by simp [unpair, h_waits]

@[simp] theorem pick_pairedStep (m : List Area) (s : State) (c : Cmd) (visible acked : Bool) (h_herds : .herds ∈ m)
    (h_io : .io ∈ m) (h_waits : .waits ∈ m) :
    pick m (pairedStep s c visible acked) = pick m s := by
  unfold pairedStep; split <;> simp [h_herds, h_io, h_waits]

@[simp] theorem pick_pairedFail (m : List Area) (s : State) (c : Cmd) (status : BitVec 8) (h_herds : .herds ∈ m)
    (h_io : .io ∈ m) (h_waits : .waits ∈ m) :
    pick m (pairedFail s c status) = pick m s := by simp [pairedFail, h_herds, h_io, h_waits]

@[simp] theorem pick_saveVisible (m : List Area) (s : State) (p : PortId) (h_store : .store ∈ m)
    (h_ports : .ports ∈ m) (h_herds : .herds ∈ m) (h_io : .io ∈ m) (h_waits : .waits ∈ m) :
    pick m (saveVisible s p) = pick m s := by
  unfold saveVisible
  simp only []
  repeat'
    first
    | (simp [h_store, h_ports, h_herds, h_io, h_waits]; done)
    | split

@[simp] theorem pick_beginSave (m : List Area) (s : State) (p : PortId) (cause : Nat) (cmd : Option Cmd)
    (paired : Bool) (h_store : .store ∈ m) (h_ports : .ports ∈ m) (h_herds : .herds ∈ m) (h_io : .io ∈ m)
    (h_waits : .waits ∈ m) :
    pick m (beginSave s p cause cmd paired) = pick m s := by
  simp [beginSave, h_store, h_ports, h_herds, h_io, h_waits]

@[simp] theorem pick_execCtxSave (m : List Area) (c : Cmd) (p : PortId) (paired : BitVec 8) (s : State)
    (h_store : .store ∈ m) (h_ports : .ports ∈ m) (h_herds : .herds ∈ m) (h_io : .io ∈ m) (h_waits : .waits ∈ m) :
    pickO m (execCtxSave c p paired s) = some (pick m s) := by
  unfold execCtxSave
  repeat'
    first
    | (simp [h_store, h_ports, h_herds, h_io, h_waits]; done)
    | split

@[simp] theorem pick_execCtxLoad (m : List Area) (c : Cmd) (p : PortId) (k : CtxKey) (read : CtxRead) (s : State)
    (h_store : .store ∈ m) (h_ports : .ports ∈ m) (h_herds : .herds ∈ m) (h_io : .io ∈ m) (h_waits : .waits ∈ m) :
    pickO m (execCtxLoad c p k read s) = some (pick m s) := by
  unfold execCtxLoad
  simp only []
  repeat'
    first
    | (simp [h_store, h_ports, h_herds, h_io, h_waits]; done)
    | split

@[simp] theorem pick_execCtxPin (m : List Area) (c : Cmd) (p : PortId) (k : CtxKey) (s : State)
    (h_store : .store ∈ m) (h_ports : .ports ∈ m) (h_herds : .herds ∈ m) (h_io : .io ∈ m) (h_waits : .waits ∈ m) :
    pickO m (execCtxPin c p k s) = some (pick m s) := by
  unfold execCtxPin
  simp only []
  repeat'
    first
    | (simp [h_store, h_ports, h_herds, h_io, h_waits]; done)
    | split

@[simp] theorem pick_execCtxUnpin (m : List Area) (c : Cmd) (p : PortId) (k : CtxKey) (s : State)
    (h_store : .store ∈ m) (h_ports : .ports ∈ m) (h_herds : .herds ∈ m) (h_io : .io ∈ m) (h_waits : .waits ∈ m) :
    pickO m (execCtxUnpin c p k s) = some (pick m s) := by
  unfold execCtxUnpin
  simp only []
  repeat'
    first
    | (simp [h_store, h_ports, h_herds, h_io, h_waits]; done)
    | split

@[simp] theorem pick_execCtxEvict (m : List Area) (c : Cmd) (p : PortId) (k : CtxKey) (s : State)
    (h_store : .store ∈ m) (h_ports : .ports ∈ m) (h_herds : .herds ∈ m) (h_io : .io ∈ m) (h_waits : .waits ∈ m) :
    pickO m (execCtxEvict c p k s) = some (pick m s) := by
  unfold execCtxEvict
  simp only []
  repeat'
    first
    | (simp [h_store, h_ports, h_herds, h_io, h_waits]; done)
    | split

@[simp] theorem pick_execCtxList (m : List Area) (c : Cmd) (t : Target) (s : State) (h_store : .store ∈ m)
    (h_ports : .ports ∈ m) (h_herds : .herds ∈ m) (h_io : .io ∈ m) (h_waits : .waits ∈ m) :
    pickO m (execCtxList c t s) = some (pick m s) := by
  unfold execCtxList
  repeat'
    first
    | (simp [h_store, h_ports, h_herds, h_io, h_waits]; done)
    | split

@[simp] theorem pick_execCtxSaveCheck (m : List Area) (p : PortId) (s : State) (h_store : .store ∈ m)
    (h_ports : .ports ∈ m) (h_herds : .herds ∈ m) (h_io : .io ∈ m) (h_waits : .waits ∈ m) :
    pickO m (execCtxSaveCheck p s) = some (pick m s) := by
  simp [execCtxSaveCheck, h_store, h_ports, h_herds, h_io, h_waits]

@[simp] theorem pick_execCtxPeriodicSave (m : List Area) (p : PortId) (s : State) (h_store : .store ∈ m)
    (h_ports : .ports ∈ m) (h_herds : .herds ∈ m) (h_io : .io ∈ m) (h_waits : .waits ∈ m) :
    pickO m (execCtxPeriodicSave p s) = some (pick m s) := by
  simp [execCtxPeriodicSave, h_store, h_ports, h_herds, h_io, h_waits]

@[simp] theorem pick_execCtxSaveVisible (m : List Area) (p : PortId) (s : State) (h_store : .store ∈ m)
    (h_ports : .ports ∈ m) (h_herds : .herds ∈ m) (h_io : .io ∈ m) (h_waits : .waits ∈ m) :
    pickO m (execCtxSaveVisible p s) = some (pick m s) := by
  simp [execCtxSaveVisible, h_store, h_ports, h_herds, h_io, h_waits]

@[simp] theorem pick_emptyHalf (m : List Area) (s : State) (c : ChanId) (h_store : .store ∈ m)
    (h_herds : .herds ∈ m) :
    pick m (emptyHalf s c) = pick m s := by simp [emptyHalf, h_store, h_herds]

@[simp] theorem pick_execDdrTrainingDone (m : List Area) (c : ChanId) (gib : BitVec 6) (s : State)
    (h_ddr : .ddr ∈ m) (h_store : .store ∈ m) (h_herds : .herds ∈ m) (h_io : .io ∈ m) :
    pickO m (execDdrTrainingDone c gib s) = some (pick m s) := by
  simp [execDdrTrainingDone, h_ddr, h_store, h_herds, h_io]

@[simp] theorem pick_ddrFail (m : List Area) (s : State) (c : ChanId) (cause : Nat) (h_ddr : .ddr ∈ m)
    (h_store : .store ∈ m) (h_ports : .ports ∈ m) (h_herds : .herds ∈ m) (h_io : .io ∈ m) (h_waits : .waits ∈ m) :
    pick m (ddrFail s c cause) = pick m s := by simp [ddrFail, h_ddr, h_store, h_ports, h_herds, h_io, h_waits]

@[simp] theorem pick_execDdrChannelFailure (m : List Area) (c : ChanId) (cause : BitVec 8) (s : State)
    (h_ddr : .ddr ∈ m) (h_store : .store ∈ m) (h_ports : .ports ∈ m) (h_herds : .herds ∈ m) (h_io : .io ∈ m)
    (h_waits : .waits ∈ m) :
    pickO m (execDdrChannelFailure c cause s) = some (pick m s) := by
  simp [execDdrChannelFailure, h_ddr, h_store, h_ports, h_herds, h_io, h_waits]

@[simp] theorem pick_execDdrEccCorrected (m : List Area) (c : ChanId) (count : BitVec 32) (s : State)
    (h_ddr : .ddr ∈ m) (h_io : .io ∈ m) :
    pickO m (execDdrEccCorrected c count s) = some (pick m s) := by simp [execDdrEccCorrected, h_ddr, h_io]

/-! ### Monitor -/

@[simp] theorem pick_execStatRead (m : List Area) (c : Cmd) (t : Target) (s : State) (h_ports : .ports ∈ m)
    (h_herds : .herds ∈ m) (h_io : .io ∈ m) :
    pickO m (execStatRead c t s) = some (pick m s) := by simp [execStatRead, h_ports, h_herds, h_io]

@[simp] theorem pick_execStatSnapshot (m : List Area) (c : Cmd) (count : BitVec 8) (ranges : List
    (BitVec 16 × BitVec 16)) (s : State) (h_ports : .ports ∈ m) (h_herds : .herds ∈ m) (h_io : .io ∈ m) :
    pickO m (execStatSnapshot c count ranges s) = some (pick m s) := by
  unfold execStatSnapshot
  simp only []
  repeat'
    first
    | (simp [h_ports, h_herds, h_io]; done)
    | split

@[simp] theorem pick_snapWrite (m : List Area) (s : State) (n : Snap) (epoch : Nat) (h_fresh : .fresh ∈ m)
    (h_herds : .herds ∈ m) (h_io : .io ∈ m) :
    pick m (snapWrite s n epoch) = pick m s := by simp [snapWrite, h_fresh, h_herds, h_io]

@[simp] theorem pick_execStatSnapshotCapture (m : List Area) (s : State) (h_fresh : .fresh ∈ m)
    (h_herds : .herds ∈ m) (h_io : .io ∈ m) :
    pickO m (execStatSnapshotCapture s) = some (pick m s) := by
  unfold execStatSnapshotCapture
  repeat'
    first
    | (simp [h_fresh, h_herds, h_io]; done)
    | split
    | refine (pick_forEach _ _ _ _ ?_).trans ?_
    | refine (pick_foldl _ _ _ _ ?_).trans ?_
    | intro _ _
    | simp [h_fresh, h_herds, h_io]

@[simp] theorem pick_execMarginCompare (m : List Area) (p : PortId) (s : State) (h_ports : .ports ∈ m)
    (h_io : .io ∈ m) :
    pickO m (execMarginCompare p s) = some (pick m s) := by simp [execMarginCompare, h_ports, h_io]

@[simp] theorem pick_execHistogramPeriodEnd (m : List Area) (p : PortId) (s : State) (h_ports : .ports ∈ m) :
    pickO m (execHistogramPeriodEnd p s) = some (pick m s) := by simp [execHistogramPeriodEnd, h_ports]

@[simp] theorem pick_persistAll (m : List Area) (s : State) (h_nv : .nv ∈ m) :
    pick m (persistAll s) = pick m s := by simp [persistAll, h_nv]

@[simp] theorem pick_execCounterPersist (m : List Area) (s : State) (h_nv : .nv ∈ m) :
    pickO m (execCounterPersist s) = some (pick m s) := by simp [execCounterPersist, h_nv]

@[simp] theorem pick_execEyeMeasure (m : List Area) (p : PortId) (upper middle lower width : BitVec 16) (s : State)
    (h_ports : .ports ∈ m) :
    pickO m (execEyeMeasure p upper middle lower width s) = some (pick m s) := by simp [execEyeMeasure, h_ports]

/-! ### Diagnose -/

@[simp] theorem pick_execDiagPassive (m : List Area) (c : Cmd) (p : PortId) (profile : BitVec 8) (s : State)
    (h_ports : .ports ∈ m) (h_herds : .herds ∈ m) (h_io : .io ∈ m) :
    pickO m (execDiagPassive c p profile s) = some (pick m s) := by
  unfold execDiagPassive
  simp only []
  repeat'
    first
    | (simp [h_ports, h_herds, h_io]; done)
    | split

@[simp] theorem pick_execDiagPassiveDone (m : List Area) (p : PortId) (s : State) (h_fresh : .fresh ∈ m)
    (h_ports : .ports ∈ m) (h_herds : .herds ∈ m) (h_io : .io ∈ m) :
    pickO m (execDiagPassiveDone p s) = some (pick m s) := by
  simp [execDiagPassiveDone, h_fresh, h_ports, h_herds, h_io]

@[simp] theorem pick_chamoisLeave (m : List Area) (s : State) (p : PortId) (st : PortSt) (h_rails : .rails ∈ m)
    (h_dies : .dies ∈ m) (h_ports : .ports ∈ m) (h_herds : .herds ∈ m) (h_io : .io ∈ m) (h_waits : .waits ∈ m) :
    pick m (chamoisLeave s p st) = pick m s := by
  simp [chamoisLeave, h_rails, h_dies, h_ports, h_herds, h_io, h_waits]

@[simp] theorem pick_execDiagChamois (m : List Area) (c : Cmd) (p : PortId) (skipSweep profile : BitVec 8)
    (s : State) (h_rails : .rails ∈ m) (h_dies : .dies ∈ m) (h_ports : .ports ∈ m) (h_herds : .herds ∈ m)
    (h_io : .io ∈ m) (h_waits : .waits ∈ m) :
    pickO m (execDiagChamois c p skipSweep profile s) = some (pick m s) := by
  unfold execDiagChamois
  simp only []
  repeat'
    first
    | (simp [h_rails, h_dies, h_ports, h_herds, h_io, h_waits]; done)
    | split

@[simp] theorem pick_chamoisFinish (m : List Area) (s : State) (p : PortId) (f : DiagFinding) (h_fresh : .fresh ∈ m)
    (h_rails : .rails ∈ m) (h_dies : .dies ∈ m) (h_ports : .ports ∈ m) (h_herds : .herds ∈ m) (h_io : .io ∈ m) :
    pick m (chamoisFinish s p f) = pick m s := by
  simp [chamoisFinish, h_fresh, h_rails, h_dies, h_ports, h_herds, h_io]

@[simp] theorem pick_takePath (m : List Area) (s : State) (p : PortId) (h_ports : .ports ∈ m) (h_herds : .herds ∈ m) :
    pick m (takePath s p) = pick m s := by simp [takePath, h_ports, h_herds]

@[simp] theorem pick_execChamoisStepEnd (m : List Area) (p : PortId) (f : DiagFinding) (s : State)
    (h_fresh : .fresh ∈ m) (h_rails : .rails ∈ m) (h_dies : .dies ∈ m) (h_ports : .ports ∈ m) (h_herds : .herds ∈ m)
    (h_io : .io ∈ m) :
    pickO m (execChamoisStepEnd p f s) = some (pick m s) := by
  unfold execChamoisStepEnd
  simp only []
  repeat'
    first
    | (simp [h_fresh, h_rails, h_dies, h_ports, h_herds, h_io]; done)
    | split

@[simp] theorem pick_execChamoisSweepGrant (m : List Area) (h : HerdId) (s : State) (h_ports : .ports ∈ m)
    (h_herds : .herds ∈ m) :
    pickO m (execChamoisSweepGrant h s) = some (pick m s) := by
  unfold execChamoisSweepGrant
  repeat'
    first
    | (simp [h_ports, h_herds]; done)
    | split

@[simp] theorem pick_execChamoisResultDelivery (m : List Area) (p : PortId) (s : State) (h_ports : .ports ∈ m)
    (h_io : .io ∈ m) :
    pickO m (execChamoisResultDelivery p s) = some (pick m s) := by
  unfold execChamoisResultDelivery
  repeat'
    first
    | (simp [h_ports, h_io]; done)
    | split
    | refine (pick_forEach _ _ _ _ ?_).trans ?_
    | intro _ _

/-! ### SelfTest -/

@[simp] theorem pick_taskStep (m : List Area) (s : State) (p : PortId) (task : Nat) (h_fresh : .fresh ∈ m)
    (h_ports : .ports ∈ m) :
    pick m (taskStep s p task) = pick m s := by simp [taskStep, h_fresh, h_ports]

@[simp] theorem pick_calGap (m : List Area) (s : State) (p : PortId) (h_fresh : .fresh ∈ m) (h_ports : .ports ∈ m) :
    pick m (calGap s p) = pick m s := by simp [calGap, h_fresh, h_ports]

@[simp] theorem pick_adcGap (m : List Area) (s : State) (p : PortId) (h_fresh : .fresh ∈ m) (h_ports : .ports ∈ m) :
    pick m (adcGap s p) = pick m s := by simp [adcGap, h_fresh, h_ports]

@[simp] theorem pick_execCalMarkerCountExpiry (m : List Area) (p : PortId) (s : State) (h_fresh : .fresh ∈ m)
    (h_ports : .ports ∈ m) :
    pickO m (execCalMarkerCountExpiry p s) = some (pick m s) := by simp [execCalMarkerCountExpiry, h_fresh, h_ports]

@[simp] theorem pick_calBegin (m : List Area) (tasks : BitVec 8) (s : State) (p : PortId) (h_rails : .rails ∈ m)
    (h_dies : .dies ∈ m) (h_ports : .ports ∈ m) (h_herds : .herds ∈ m) (h_io : .io ∈ m) (h_waits : .waits ∈ m) :
    pick m (calBegin tasks s p) = pick m s := by simp [calBegin, h_rails, h_dies, h_ports, h_herds, h_io, h_waits]

@[simp] theorem pick_execCalRun (m : List Area) (c : Cmd) (t : Target) (tasks : BitVec 8) (s : State)
    (h_rails : .rails ∈ m) (h_dies : .dies ∈ m) (h_ports : .ports ∈ m) (h_herds : .herds ∈ m) (h_io : .io ∈ m)
    (h_waits : .waits ∈ m) :
    pickO m (execCalRun c t tasks s) = some (pick m s) := by
  unfold execCalRun
  simp only []
  repeat'
    first
    | (simp [h_rails, h_dies, h_ports, h_herds, h_io, h_waits]; done)
    | split

@[simp] theorem pick_calFinish (m : List Area) (s : State) (p : PortId) (r : CalRun) (h_fresh : .fresh ∈ m)
    (h_rails : .rails ∈ m) (h_dies : .dies ∈ m) (h_ports : .ports ∈ m) (h_herds : .herds ∈ m) (h_io : .io ∈ m) :
    pick m (calFinish s p r) = pick m s := by simp [calFinish, h_fresh, h_rails, h_dies, h_ports, h_herds, h_io]

@[simp] theorem pick_execCalUnitDone (m : List Area) (p : PortId) (s : State) (h_fresh : .fresh ∈ m)
    (h_rails : .rails ∈ m) (h_dies : .dies ∈ m) (h_ports : .ports ∈ m) (h_herds : .herds ∈ m) (h_io : .io ∈ m) :
    pickO m (execCalUnitDone p s) = some (pick m s) := by
  unfold execCalUnitDone
  simp only []
  repeat'
    first
    | (simp [h_fresh, h_rails, h_dies, h_ports, h_herds, h_io]; done)
    | split

@[simp] theorem pick_dieRunEnd (m : List Area) (s : State) (d : DieId) (h_dies : .dies ∈ m) (h_io : .io ∈ m) :
    pick m (dieRunEnd s d) = pick m s := by
  unfold dieRunEnd
  simp only []
  repeat'
    first
    | (simp [h_dies, h_io]; done)
    | split

@[simp] theorem pick_execDieFullRunEnd (m : List Area) (d : DieId) (s : State) (h_dies : .dies ∈ m) (h_io : .io ∈ m) :
    pickO m (execDieFullRunEnd d s) = some (pick m s) := by simp [execDieFullRunEnd, h_dies, h_io]

@[simp] theorem pick_execDieTemperatureRead (m : List Area) (d : Fin 9) (t : BitVec 16) (s : State)
    (h_dies : .dies ∈ m) (h_hubTemp : .hubTemp ∈ m) :
    pickO m (execDieTemperatureRead d t s) = some (pick m s) := by simp [execDieTemperatureRead, h_dies, h_hubTemp]

@[simp] theorem pick_execPortTemperatureRead (m : List Area) (p : PortId) (t : BitVec 16) (s : State)
    (h_ports : .ports ∈ m) (h_io : .io ∈ m) :
    pickO m (execPortTemperatureRead p t s) = some (pick m s) := by simp [execPortTemperatureRead, h_ports, h_io]

@[simp] theorem pick_bistMemory (m : List Area) (s : State) (t : BistRun) (fails : List MemFail) (h_io : .io ∈ m)
    (h_nv : .nv ∈ m) :
    pick m ((bistMemory s t fails).1) = pick m s := by simp [bistMemory, h_io, h_nv]

@[simp] theorem pick_bistDeliver (m : List Area) (r : RingId) (fs : List Fld) (x2 : List DataDesc) (x3 : State)
    (h_io : .io ∈ m) :
    pick m ((bistDeliver r fs x2 x3).1) = pick m x3 := by
  induction x2 generalizing x3 with
  | nil => rfl
  | cons d l ih => unfold bistDeliver; split <;> simp [ih, h_io]

@[simp] theorem pick_bistTryDeliver (m : List Area) (s : State) (h : HerdId) (h_herds : .herds ∈ m) (h_io : .io ∈ m) :
    pick m (bistTryDeliver s h) = pick m s := by unfold bistTryDeliver; split <;> simp [h_herds, h_io]

@[simp] theorem pick_execBistRecordDelivery (m : List Area) (h : HerdId) (s : State) (h_herds : .herds ∈ m)
    (h_io : .io ∈ m) :
    pickO m (execBistRecordDelivery h s) = some (pick m s) := by simp [execBistRecordDelivery, h_herds, h_io]

@[simp] theorem pick_bistReport (m : List Area) (s : State) (h : HerdId) (t : BistRun) (result : Nat)
    (h_herds : .herds ∈ m) (h_io : .io ∈ m) (h_nv : .nv ∈ m) :
    pick m (bistReport s h t result) = pick m s := by simp [bistReport, h_herds, h_io, h_nv]

@[simp] theorem pick_enterTest (m : List Area) (s : State) (p : PortId) (h_fresh : .fresh ∈ m)
    (h_rails : .rails ∈ m) (h_dies : .dies ∈ m) (h_ports : .ports ∈ m) (h_herds : .herds ∈ m) (h_io : .io ∈ m)
    (h_waits : .waits ∈ m) :
    pick m (enterTest s p) = pick m s := by
  simp [enterTest, h_fresh, h_rails, h_dies, h_ports, h_herds, h_io, h_waits]

@[simp] theorem pick_dropCommit (m : List Area) (s : State) (h : HerdId) (h_ports : .ports ∈ m)
    (h_herds : .herds ∈ m) (h_io : .io ∈ m) :
    pick m (dropCommit s h) = pick m s := by unfold dropCommit; split <;> simp [h_ports, h_herds, h_io]

@[simp] theorem pick_execBistRun (m : List Area) (c : Cmd) (h : HerdId) (s : State) (h_fresh : .fresh ∈ m)
    (h_rails : .rails ∈ m) (h_dies : .dies ∈ m) (h_store : .store ∈ m) (h_ports : .ports ∈ m) (h_herds : .herds ∈ m)
    (h_io : .io ∈ m) (h_waits : .waits ∈ m) (h_flt : .flt ∈ m) :
    pickO m (execBistRun c h s) = some (pick m s) := by
  unfold execBistRun
  repeat'
    first
    | (simp [h_fresh, h_rails, h_dies, h_store, h_ports, h_herds, h_io, h_waits, h_flt]; done)
    | split

@[simp] theorem pick_bistFinish (m : List Area) (s : State) (h : HerdId) (t : BistRun) (h_fresh : .fresh ∈ m)
    (h_rails : .rails ∈ m) (h_dies : .dies ∈ m) (h_ports : .ports ∈ m) (h_herds : .herds ∈ m) (h_io : .io ∈ m)
    (h_nv : .nv ∈ m) :
    pick m (bistFinish s h t) = pick m s := by
  simp [bistFinish, h_fresh, h_rails, h_dies, h_ports, h_herds, h_io, h_nv]

@[simp] theorem pick_bistAbort (m : List Area) (s : State) (h : HerdId) (h_ports : .ports ∈ m)
    (h_herds : .herds ∈ m) (h_io : .io ∈ m) (h_nv : .nv ∈ m) :
    pick m (bistAbort s h) = pick m s := by unfold bistAbort; split <;> simp [h_ports, h_herds, h_io, h_nv]

@[simp] theorem pick_overwriteCoefs (m : List Area) (s : State) (h : HerdId) (h_fresh : .fresh ∈ m)
    (h_ports : .ports ∈ m) :
    pick m (overwriteCoefs s h) = pick m s := by simp [overwriteCoefs, h_fresh, h_ports]

@[simp] theorem pick_execBistStepDone (m : List Area) (h : HerdId) (o : BistOutcome) (reads : List
    (PortId × CtxKey × CtxRead)) (s : State) (h_fresh : .fresh ∈ m) (h_rails : .rails ∈ m) (h_dies : .dies ∈ m)
    (h_store : .store ∈ m) (h_ports : .ports ∈ m) (h_herds : .herds ∈ m) (h_io : .io ∈ m) (h_waits : .waits ∈ m)
    (h_nv : .nv ∈ m) :
    pickO m (execBistStepDone h o reads s) = some (pick m s) := by
  unfold execBistStepDone
  repeat'
    first
    | (simp [h_fresh, h_rails, h_dies, h_store, h_ports, h_herds, h_io, h_waits, h_nv]; done)
    | split

/-! ### ResetOps -/

@[simp] theorem pick_loadSettings (m : List Area) (s : State) (g : Settings) (h_ports : .ports ∈ m) (h_fw : .fw ∈ m)
    (h_nv : .nv ∈ m) :
    pick m (loadSettings s g) = pick m s := by simp [loadSettings, h_ports, h_fw, h_nv]

@[simp] theorem pick_settingsReset (m : List Area) (s : State) (old : BitVec 16) (h_ports : .ports ∈ m)
    (h_io : .io ∈ m) (h_fw : .fw ∈ m) (h_nv : .nv ∈ m) :
    pick m (settingsReset s old) = pick m s := by simp [settingsReset, h_ports, h_io, h_fw, h_nv]

@[simp] theorem pick_fwRevert (m : List Area) (s : State) (h_ports : .ports ∈ m) (h_fw : .fw ∈ m) (h_nv : .nv ∈ m) :
    pick m (fwRevert s) = pick m s := by
  unfold fwRevert
  simp only []
  split
  · cases s.fw.prevPers <;> simp [h_ports, h_fw, h_nv]
  · rfl

@[simp] theorem pick_lineRestart (m : List Area) (s : State) (h_clk : .clk ∈ m) :
    pick m (lineRestart s) = pick m s := by simp [lineRestart, h_clk]

@[simp] theorem pick_sysReset (m : List Area) (s : State) (st : DevSt) (h_time : .time ∈ m) (h_regs : .regs ∈ m)
    (h_latches : .latches ∈ m) (h_heldLow : .heldLow ∈ m) (h_access : .access ∈ m) (h_clk : .clk ∈ m)
    (h_pwr : .pwr ∈ m) (h_dies : .dies ∈ m) (h_ddr : .ddr ∈ m) (h_store : .store ∈ m) (h_ports : .ports ∈ m)
    (h_herds : .herds ∈ m) (h_io : .io ∈ m) (h_waits : .waits ∈ m) (h_flt : .flt ∈ m) (h_fw : .fw ∈ m)
    (h_sec : .sec ∈ m) (h_nv : .nv ∈ m) :
    pick m (sysReset s st) = pick m s := by
  simp [sysReset, h_time, h_regs, h_latches, h_heldLow, h_access, h_clk, h_pwr, h_dies, h_ddr, h_store, h_ports,
      h_herds, h_io, h_waits, h_flt, h_fw, h_sec, h_nv]

@[simp] theorem pick_porReset (m : List Area) (s : State) (h_time : .time ∈ m) (h_regs : .regs ∈ m)
    (h_latches : .latches ∈ m) (h_heldLow : .heldLow ∈ m) (h_access : .access ∈ m) (h_clk : .clk ∈ m)
    (h_pwr : .pwr ∈ m) (h_dies : .dies ∈ m) (h_ddr : .ddr ∈ m) (h_store : .store ∈ m) (h_ports : .ports ∈ m)
    (h_herds : .herds ∈ m) (h_io : .io ∈ m) (h_waits : .waits ∈ m) (h_flt : .flt ∈ m) (h_fw : .fw ∈ m)
    (h_sec : .sec ∈ m) (h_nv : .nv ∈ m) :
    pick m (porReset s) = pick m s := by
  simp [porReset, h_time, h_regs, h_latches, h_heldLow, h_access, h_clk, h_pwr, h_dies, h_ddr, h_store, h_ports,
      h_herds, h_io, h_waits, h_flt, h_fw, h_sec, h_nv]

/-! ### Faults -/

@[simp] theorem pick_postRecord (m : List Area) (s : State) (r : FltRec) (h_io : .io ∈ m) :
    pick m (postRecord s r) = pick m s := by simp [postRecord, h_io]

@[simp] theorem pick_nextRecord (m : List Area) (s : State) (h_flt : .flt ∈ m) :
    pick m (nextRecord s) = pick m s := by simp [nextRecord, h_flt]

@[simp] theorem pick_logRecord (m : List Area) (put : FltRec → List FltRec → List FltRec) (s : State) (r : FltRec)
    (h_flt : .flt ∈ m) :
    pick m (logRecord put s r) = pick m s := by simp [logRecord, h_flt]

@[simp] theorem pick_modRecord (m : List Area) (s : State) (n : BitVec 32) (f : FltRec → FltRec) (h_flt : .flt ∈ m) :
    pick m (modRecord s n f) = pick m s := by simp [modRecord, h_flt]

@[simp] theorem pick_abandonHerd (m : List Area) (s : State) (h : HerdId) (h_ports : .ports ∈ m)
    (h_herds : .herds ∈ m) (h_io : .io ∈ m) (h_fw : .fw ∈ m) (h_nv : .nv ∈ m) :
    pick m (abandonHerd s h) = pick m s := by simp [abandonHerd, h_ports, h_herds, h_io, h_fw, h_nv]

@[simp] theorem pick_openShadow (m : List Area) (s : State) (w : Shadow) (h_flt : .flt ∈ m) :
    pick m (openShadow s w) = pick m s := by simp [openShadow, h_flt]

@[simp] theorem pick_react (m : List Area) (s : State) (r : FltRec) (h_ports : .ports ∈ m) (h_herds : .herds ∈ m)
    (h_io : .io ∈ m) (h_flt : .flt ∈ m) (h_fw : .fw ∈ m) (h_nv : .nv ∈ m) :
    pick m ((react s r).2) = pick m s := by
  unfold react
  repeat'
    first
    | (simp [h_ports, h_herds, h_io, h_flt, h_fw, h_nv]; done)
    | split

@[simp] theorem pick_raiseOne (m : List Area) (before : List FltRec) (shadows : List Shadow) (s : State) (r : Raise)
    (h_ports : .ports ∈ m) (h_herds : .herds ∈ m) (h_io : .io ∈ m) (h_flt : .flt ∈ m) (h_fw : .fw ∈ m)
    (h_nv : .nv ∈ m) :
    pick m (raiseOne before shadows s r) = pick m s := by simp [raiseOne, h_ports, h_herds, h_io, h_flt, h_fw, h_nv]

@[simp] theorem pick_firstClear (m : List Area) (s : State) (h_flt : .flt ∈ m) :
    pick m (firstClear s) = pick m s := by unfold firstClear; split <;> simp [h_flt]

@[simp] theorem pick_firstSet (m : List Area) (s : State) (l : List FltRec) (h_flt : .flt ∈ m) :
    pick m (firstSet s l) = pick m s := by
  unfold firstSet
  simp only []
  repeat'
    first
    | (simp [h_flt]; done)
    | split

@[simp] theorem pick_collect (m : List Area) (s : State) (l : List Raise) (h_ports : .ports ∈ m)
    (h_herds : .herds ∈ m) (h_io : .io ∈ m) (h_flt : .flt ∈ m) (h_fw : .fw ∈ m) (h_nv : .nv ∈ m) :
    pick m (collect s l) = pick m s := by simp [collect, h_ports, h_herds, h_io, h_flt, h_fw, h_nv]

@[simp] theorem pick_raiseFault (m : List Area) (s : State) (src detail : Nat) (h_ports : .ports ∈ m)
    (h_herds : .herds ∈ m) (h_io : .io ∈ m) (h_flt : .flt ∈ m) (h_fw : .fw ∈ m) (h_nv : .nv ∈ m) :
    pick m (raiseFault s src detail) = pick m s := by simp [raiseFault, h_ports, h_herds, h_io, h_flt, h_fw, h_nv]

@[simp] theorem pick_clearCause (m : List Area) (s : State) (src : Nat) (h_flt : .flt ∈ m) :
    pick m (clearCause s src) = pick m s := by simp [clearCause, h_flt]

@[simp] theorem pick_enterHerdSafe (m : List Area) (s : State) (h : HerdId) (h_fresh : .fresh ∈ m)
    (h_rails : .rails ∈ m) (h_dies : .dies ∈ m) (h_ports : .ports ∈ m) (h_herds : .herds ∈ m) (h_io : .io ∈ m)
    (h_waits : .waits ∈ m) (h_fw : .fw ∈ m) (h_nv : .nv ∈ m) :
    pick m (enterHerdSafe s h) = pick m s := by
  simp [enterHerdSafe, h_fresh, h_rails, h_dies, h_ports, h_herds, h_io, h_waits, h_fw, h_nv]

@[simp] theorem pick_quietScope (m : List Area) (s : State) (sc : Scope) (h_fresh : .fresh ∈ m)
    (h_rails : .rails ∈ m) (h_dies : .dies ∈ m) (h_ports : .ports ∈ m) (h_herds : .herds ∈ m) (h_io : .io ∈ m)
    (h_waits : .waits ∈ m) (h_fw : .fw ∈ m) (h_nv : .nv ∈ m) :
    pick m (quietScope s sc) = pick m s := by
  unfold quietScope; split <;> simp [h_fresh, h_rails, h_dies, h_ports, h_herds, h_io, h_waits, h_fw, h_nv]

@[simp] theorem pick_herdUnsafe (m : List Area) (s : State) (h : HerdId) (h_herds : .herds ∈ m) (h_fw : .fw ∈ m) :
    pick m (herdUnsafe s h) = pick m s := by simp [herdUnsafe, h_herds, h_fw]

@[simp] theorem pick_releaseOne (m : List Area) (last : BitVec 32) (s : State) (x : SafeState)
    (h_fresh : .fresh ∈ m) (h_rails : .rails ∈ m) (h_dies : .dies ∈ m) (h_ports : .ports ∈ m) (h_herds : .herds ∈ m)
    (h_io : .io ∈ m) (h_flt : .flt ∈ m) (h_fw : .fw ∈ m) :
    pick m (releaseOne last s x) = pick m s := by
  simp [releaseOne, h_fresh, h_rails, h_dies, h_ports, h_herds, h_io, h_flt, h_fw]

@[simp] theorem pick_releaseSafe (m : List Area) (s : State) (last : BitVec 32) (h_fresh : .fresh ∈ m)
    (h_rails : .rails ∈ m) (h_dies : .dies ∈ m) (h_ports : .ports ∈ m) (h_herds : .herds ∈ m) (h_io : .io ∈ m)
    (h_flt : .flt ∈ m) (h_fw : .fw ∈ m) :
    pick m (releaseSafe s last) = pick m s := by
  simp [releaseSafe, h_fresh, h_rails, h_dies, h_ports, h_herds, h_io, h_flt, h_fw]

@[simp] theorem pick_reactionComplete (m : List Area) (s : State) (h_fresh : .fresh ∈ m) (h_rails : .rails ∈ m)
    (h_dies : .dies ∈ m) (h_ports : .ports ∈ m) (h_herds : .herds ∈ m) (h_io : .io ∈ m) (h_waits : .waits ∈ m)
    (h_flt : .flt ∈ m) (h_fw : .fw ∈ m) (h_nv : .nv ∈ m) :
    pick m (reactionComplete s) = pick m s := by
  unfold reactionComplete
  simp only []
  repeat'
    first
    | (simp [h_fresh, h_rails, h_dies, h_ports, h_herds, h_io, h_waits, h_flt, h_fw, h_nv]; done)
    | split

@[simp] theorem pick_postRefclk (m : List Area) (s : State) (t : BitVec 64) (n : BitVec 32) (h_io : .io ∈ m)
    (h_flt : .flt ∈ m) :
    pick m (postRefclk s t n) = pick m s := by simp [postRefclk, h_io, h_flt]

@[simp] theorem pick_payOwed (m : List Area) (s : State) (h_io : .io ∈ m) (h_flt : .flt ∈ m) :
    pick m (payOwed s) = pick m s := by unfold payOwed; split <;> simp [h_io, h_flt]

@[simp] theorem pick_writeFixed (m : List Area) (s : State) (e : FixedCause × BitVec 64 × BitVec 32 × BitVec 32)
    (h_io : .io ∈ m) (h_flt : .flt ∈ m) :
    pick m (writeFixed s e) = pick m s := by simp [writeFixed, h_io, h_flt]

@[simp] theorem pick_forgetWaits (m : List Area) (s : State) (h_ports : .ports ∈ m) (h_herds : .herds ∈ m)
    (h_waits : .waits ∈ m) :
    pick m (forgetWaits s) = pick m s := by simp [forgetWaits, h_ports, h_herds, h_waits]

@[simp] theorem pick_refuseHeld (m : List Area) (s : State) (c : Cmd) (h_herds : .herds ∈ m) (h_io : .io ∈ m) :
    pick m (refuseHeld s c) = pick m s := by unfold refuseHeld; split <;> simp [h_herds, h_io]

@[simp] theorem pick_flushFixed (m : List Area) (s : State) (h_ports : .ports ∈ m) (h_herds : .herds ∈ m)
    (h_io : .io ∈ m) (h_waits : .waits ∈ m) (h_flt : .flt ∈ m) :
    pick m (flushFixed s) = pick m s := by simp [flushFixed, h_ports, h_herds, h_io, h_waits, h_flt]

@[simp] theorem pick_fixedStart (m : List Area) (s : State) (c : FixedCause) (detail : Nat) (h_ports : .ports ∈ m)
    (h_herds : .herds ∈ m) (h_io : .io ∈ m) (h_waits : .waits ∈ m) (h_flt : .flt ∈ m) :
    pick m (fixedStart s c detail) = pick m s := by simp [fixedStart, h_ports, h_herds, h_io, h_waits, h_flt]

@[simp] theorem pick_fixedRestart (m : List Area) (s : State) (h_time : .time ∈ m) (h_regs : .regs ∈ m)
    (h_latches : .latches ∈ m) (h_heldLow : .heldLow ∈ m) (h_access : .access ∈ m) (h_clk : .clk ∈ m)
    (h_pwr : .pwr ∈ m) (h_dies : .dies ∈ m) (h_ddr : .ddr ∈ m) (h_store : .store ∈ m) (h_ports : .ports ∈ m)
    (h_herds : .herds ∈ m) (h_io : .io ∈ m) (h_waits : .waits ∈ m) (h_flt : .flt ∈ m) (h_fw : .fw ∈ m)
    (h_sec : .sec ∈ m) (h_nv : .nv ∈ m) :
    pick m (fixedRestart s) = pick m s := by
  simp [fixedRestart, h_time, h_regs, h_latches, h_heldLow, h_access, h_clk, h_pwr, h_dies, h_ddr, h_store, h_ports,
      h_herds, h_io, h_waits, h_flt, h_fw, h_sec, h_nv]

@[simp] theorem pick_postMram (m : List Area) (uncorrectable : Bool) (s : State) (addr : Nat) (h_io : .io ∈ m) :
    pick m (postMram uncorrectable s addr) = pick m s := by simp [postMram, h_io]

@[simp] theorem pick_mramEcc (m : List Area) (s : State) (r : Raise) (h_io : .io ∈ m) :
    pick m (mramEcc s r) = pick m s := by simp [mramEcc, h_io]

@[simp] theorem pick_execFaultRaised (m : List Area) (faults : List (BitVec 16 × BitVec 32)) (s : State)
    (h_ports : .ports ∈ m) (h_herds : .herds ∈ m) (h_io : .io ∈ m) (h_flt : .flt ∈ m) (h_fw : .fw ∈ m)
    (h_nv : .nv ∈ m) :
    pickO m (execFaultRaised faults s) = some (pick m s) := by
  simp [execFaultRaised, h_ports, h_herds, h_io, h_flt, h_fw, h_nv]

@[simp] theorem pick_execDualRailFault (m : List Area) (source : BitVec 16) (s : State) (h_ports : .ports ∈ m)
    (h_herds : .herds ∈ m) (h_io : .io ∈ m) (h_flt : .flt ∈ m) (h_fw : .fw ∈ m) (h_nv : .nv ∈ m) :
    pickO m (execDualRailFault source s) = some (pick m s) := by
  simp [execDualRailFault, h_ports, h_herds, h_io, h_flt, h_fw, h_nv]

@[simp] theorem pick_execFaultCauseEnded (m : List Area) (source : BitVec 16) (s : State) (h_flt : .flt ∈ m) :
    pickO m (execFaultCauseEnded source s) = some (pick m s) := by simp [execFaultCauseEnded, h_flt]

@[simp] theorem pick_execReactionComplete (m : List Area) (s : State) (h_fresh : .fresh ∈ m) (h_rails : .rails ∈ m)
    (h_dies : .dies ∈ m) (h_ports : .ports ∈ m) (h_herds : .herds ∈ m) (h_io : .io ∈ m) (h_waits : .waits ∈ m)
    (h_flt : .flt ∈ m) (h_fw : .fw ∈ m) (h_nv : .nv ∈ m) :
    pickO m (execReactionComplete s) = some (pick m s) := by
  simp [execReactionComplete, h_fresh, h_rails, h_dies, h_ports, h_herds, h_io, h_waits, h_flt, h_fw, h_nv]

@[simp] theorem pick_execShadowWindowExpiry (m : List Area) (s : State) (h_flt : .flt ∈ m) :
    pickO m (execShadowWindowExpiry s) = some (pick m s) := by unfold execShadowWindowExpiry; split <;> simp [h_flt]

@[simp] theorem pick_execFixedReaction (m : List Area) (cause : FixedCause) (s : State) (h_fresh : .fresh ∈ m)
    (h_ports : .ports ∈ m) (h_herds : .herds ∈ m) (h_io : .io ∈ m) (h_waits : .waits ∈ m) (h_flt : .flt ∈ m) :
    pickO m (execFixedReaction cause s) = some (pick m s) := by
  unfold execFixedReaction
  repeat'
    first
    | (simp [h_fresh, h_ports, h_herds, h_io, h_waits, h_flt]; done)
    | split

@[simp] theorem pick_execFixedCauseEnded (m : List Area) (s : State) (h_time : .time ∈ m) (h_regs : .regs ∈ m)
    (h_latches : .latches ∈ m) (h_heldLow : .heldLow ∈ m) (h_access : .access ∈ m) (h_clk : .clk ∈ m)
    (h_pwr : .pwr ∈ m) (h_dies : .dies ∈ m) (h_ddr : .ddr ∈ m) (h_store : .store ∈ m) (h_ports : .ports ∈ m)
    (h_herds : .herds ∈ m) (h_io : .io ∈ m) (h_waits : .waits ∈ m) (h_flt : .flt ∈ m) (h_fw : .fw ∈ m)
    (h_sec : .sec ∈ m) (h_nv : .nv ∈ m) :
    pickO m (execFixedCauseEnded s) = some (pick m s) := by
  simp [execFixedCauseEnded, h_time, h_regs, h_latches, h_heldLow, h_access, h_clk, h_pwr, h_dies, h_ddr, h_store,
      h_ports, h_herds, h_io, h_waits, h_flt, h_fw, h_sec, h_nv]

@[simp] theorem pick_execFltArm (m : List Area) (c : Cmd) (source : BitVec 16) (base pin : BitVec 8) (n : BitVec 16)
    (w : BitVec 32) (s : State) (h_herds : .herds ∈ m) (h_io : .io ∈ m) (h_flt : .flt ∈ m) :
    pickO m (execFltArm c source base pin n w s) = some (pick m s) := by simp [execFltArm, h_herds, h_io, h_flt]

@[simp] theorem pick_ackRecords (m : List Area) (s : State) (l : List (BitVec 32)) (h_flt : .flt ∈ m) :
    pick m (ackRecords s l) = pick m s := by simp [ackRecords, h_flt]

@[simp] theorem pick_execFltAck (m : List Area) (c : Cmd) (record : BitVec 32) (all : BitVec 8) (s : State)
    (h_time : .time ∈ m) (h_fresh : .fresh ∈ m) (h_regs : .regs ∈ m) (h_latches : .latches ∈ m)
    (h_heldLow : .heldLow ∈ m) (h_access : .access ∈ m) (h_clk : .clk ∈ m) (h_pwr : .pwr ∈ m) (h_rails : .rails ∈ m)
    (h_dies : .dies ∈ m) (h_ddr : .ddr ∈ m) (h_store : .store ∈ m) (h_ports : .ports ∈ m) (h_herds : .herds ∈ m)
    (h_io : .io ∈ m) (h_waits : .waits ∈ m) (h_flt : .flt ∈ m) (h_fw : .fw ∈ m) (h_sec : .sec ∈ m) (h_nv : .nv ∈ m) :
    pickO m (execFltAck c record all s) = some (pick m s) := by
  unfold execFltAck
  simp only []
  repeat'
    first
    | (simp [h_time, h_fresh, h_regs, h_latches, h_heldLow, h_access, h_clk, h_pwr, h_rails, h_dies, h_ddr, h_store,
      h_ports, h_herds, h_io, h_waits, h_flt, h_fw, h_sec, h_nv]; done)
    | split

@[simp] theorem pick_execFltReadLog (m : List Area) (c : Cmd) (log : BitVec 8) (first count : BitVec 32)
    (bad : List Nat) (ecc : List (BitVec 32)) (s : State) (h_fresh : .fresh ∈ m) (h_ports : .ports ∈ m)
    (h_herds : .herds ∈ m) (h_io : .io ∈ m) (h_flt : .flt ∈ m) (h_fw : .fw ∈ m) (h_nv : .nv ∈ m) :
    pickO m (execFltReadLog c log first count bad ecc s) = some (pick m s) := by
  unfold execFltReadLog
  simp only []
  repeat'
    first
    | (simp [h_fresh, h_ports, h_herds, h_io, h_flt, h_fw, h_nv]; done)
    | split

/-! ### Configure -/

@[simp] theorem pick_execPortConfig (m : List Area) (c : Cmd) (p : PortId) (count : BitVec 8) (entries : List
    (BitVec 16 × BitVec 32)) (s : State) (h_ports : .ports ∈ m) (h_herds : .herds ∈ m) (h_io : .io ∈ m) :
    pickO m (execPortConfig c p count entries s) = some (pick m s) := by
  unfold execPortConfig
  repeat'
    first
    | (simp [h_ports, h_herds, h_io]; done)
    | split

@[simp] theorem pick_execHerdMode (m : List Area) (c : Cmd) (h : HerdId) (modeSet : BitVec 8) (s : State)
    (h_herds : .herds ∈ m) (h_io : .io ∈ m) :
    pickO m (execHerdMode c h modeSet s) = some (pick m s) := by
  unfold execHerdMode
  repeat'
    first
    | (simp [h_herds, h_io]; done)
    | split

@[simp] theorem pick_execHerdTiming (m : List Area) (c : Cmd) (h : HerdId) (policy : BitVec 8) (s : State)
    (h_herds : .herds ∈ m) (h_io : .io ∈ m) :
    pickO m (execHerdTiming c h policy s) = some (pick m s) := by
  unfold execHerdTiming
  repeat'
    first
    | (simp [h_herds, h_io]; done)
    | split

@[simp] theorem pick_endRuns (m : List Area) (s : State) (p : PortId) (h_fresh : .fresh ∈ m) (h_rails : .rails ∈ m)
    (h_dies : .dies ∈ m) (h_ports : .ports ∈ m) (h_herds : .herds ∈ m) (h_io : .io ∈ m) :
    pick m (endRuns s p) = pick m s := by simp [endRuns, h_fresh, h_rails, h_dies, h_ports, h_herds, h_io]

@[simp] theorem pick_endDigital (m : List Area) (s : State) (p : PortId) (h_ports : .ports ∈ m) :
    pick m (endDigital s p) = pick m s := by simp [endDigital, h_ports]

@[simp] theorem pick_applySet (m : List Area) (s : State) (p : PortId) (set : Tab (BitVec 32)) (staged : List Nat)
    (count : Bool) (h_ports : .ports ∈ m) :
    pick m (applySet s p set staged count) = pick m s := by simp [applySet, h_ports]

@[simp] theorem pick_applyShadow (m : List Area) (s : State) (p : PortId) (count : Bool) (h_ports : .ports ∈ m) :
    pick m (applyShadow s p count) = pick m s := by simp [applyShadow, h_ports]

@[simp] theorem pick_restartForMode (m : List Area) (s : State) (p : PortId) (h_fresh : .fresh ∈ m)
    (h_rails : .rails ∈ m) (h_dies : .dies ∈ m) (h_ports : .ports ∈ m) (h_herds : .herds ∈ m) (h_io : .io ∈ m)
    (h_waits : .waits ∈ m) :
    pick m (restartForMode s p) = pick m s := by
  simp [restartForMode, h_fresh, h_rails, h_dies, h_ports, h_herds, h_io, h_waits]

@[simp] theorem pick_restartForPolicy (m : List Area) (s : State) (p : PortId) (h_fresh : .fresh ∈ m)
    (h_rails : .rails ∈ m) (h_dies : .dies ∈ m) (h_ports : .ports ∈ m) (h_herds : .herds ∈ m) (h_io : .io ∈ m)
    (h_waits : .waits ∈ m) :
    pick m (restartForPolicy s p) = pick m s := by
  simp [restartForPolicy, h_fresh, h_rails, h_dies, h_ports, h_herds, h_io, h_waits]

@[simp] theorem pick_applyHerd (m : List Area) (s : State) (h : HerdId) (modeSet : BitVec 5) (policy : Bool)
    (h_clk : .clk ∈ m) (h_ports : .ports ∈ m) (h_herds : .herds ∈ m) :
    pick m (applyHerd s h modeSet policy) = pick m s := by simp [applyHerd, h_clk, h_ports, h_herds]

@[simp] theorem pick_herdRestarts (m : List Area) (s : State) (h : HerdId) (modeChanged policyChanged : Bool)
    (h_fresh : .fresh ∈ m) (h_rails : .rails ∈ m) (h_dies : .dies ∈ m) (h_ports : .ports ∈ m) (h_herds : .herds ∈ m)
    (h_io : .io ∈ m) (h_waits : .waits ∈ m) :
    pick m (herdRestarts s h modeChanged policyChanged) = pick m s := by
  unfold herdRestarts; split <;> simp [h_fresh, h_rails, h_dies, h_ports, h_herds, h_io, h_waits]

@[simp] theorem pick_herdApply (m : List Area) (s : State) (h : HerdId) (k : Commit) (h_fresh : .fresh ∈ m)
    (h_clk : .clk ∈ m) (h_rails : .rails ∈ m) (h_dies : .dies ∈ m) (h_ports : .ports ∈ m) (h_herds : .herds ∈ m)
    (h_io : .io ∈ m) (h_waits : .waits ∈ m) :
    pick m (herdApply s h k) = pick m s := by
  simp [herdApply, h_fresh, h_clk, h_rails, h_dies, h_ports, h_herds, h_io, h_waits]

@[simp] theorem pick_commitHerd (m : List Area) (s : State) (c : Cmd) (h : HerdId) (h_fresh : .fresh ∈ m)
    (h_clk : .clk ∈ m) (h_rails : .rails ∈ m) (h_dies : .dies ∈ m) (h_ports : .ports ∈ m) (h_herds : .herds ∈ m)
    (h_io : .io ∈ m) (h_waits : .waits ∈ m) :
    pick m (commitHerd s c h) = pick m s := by
  unfold commitHerd; split <;> simp [h_fresh, h_clk, h_rails, h_dies, h_ports, h_herds, h_io, h_waits]

@[simp] theorem pick_commitPort (m : List Area) (s : State) (c : Cmd) (p : PortId) (h_ports : .ports ∈ m)
    (h_herds : .herds ∈ m) (h_io : .io ∈ m) :
    pick m (commitPort s c p) = pick m s := by
  unfold commitPort
  simp only []
  repeat'
    first
    | (simp [h_ports, h_herds, h_io]; done)
    | split

@[simp] theorem pick_execPortCommit (m : List Area) (c : Cmd) (t : Target) (s : State) (h_fresh : .fresh ∈ m)
    (h_clk : .clk ∈ m) (h_rails : .rails ∈ m) (h_dies : .dies ∈ m) (h_ports : .ports ∈ m) (h_herds : .herds ∈ m)
    (h_io : .io ∈ m) (h_waits : .waits ∈ m) :
    pickO m (execPortCommit c t s) = some (pick m s) := by
  unfold execPortCommit
  repeat'
    first
    | (simp [h_fresh, h_clk, h_rails, h_dies, h_ports, h_herds, h_io, h_waits]; done)
    | split

@[simp] theorem pick_execPortEnable (m : List Area) (c : Cmd) (p : PortId) (s : State) (h_fresh : .fresh ∈ m)
    (h_rails : .rails ∈ m) (h_dies : .dies ∈ m) (h_ports : .ports ∈ m) (h_herds : .herds ∈ m) (h_io : .io ∈ m) :
    pickO m (execPortEnable c p s) = some (pick m s) := by
  unfold execPortEnable
  repeat'
    first
    | (simp [h_fresh, h_rails, h_dies, h_ports, h_herds, h_io]; done)
    | split

@[simp] theorem pick_toDisabled (m : List Area) (s : State) (p : PortId) (h_rails : .rails ∈ m) (h_dies : .dies ∈ m)
    (h_ports : .ports ∈ m) (h_herds : .herds ∈ m) (h_io : .io ∈ m) (h_waits : .waits ∈ m) :
    pick m (toDisabled s p) = pick m s := by simp [toDisabled, h_rails, h_dies, h_ports, h_herds, h_io, h_waits]

@[simp] theorem pick_execPortDisable (m : List Area) (c : Cmd) (p : PortId) (s : State) (h_fresh : .fresh ∈ m)
    (h_rails : .rails ∈ m) (h_dies : .dies ∈ m) (h_ports : .ports ∈ m) (h_herds : .herds ∈ m) (h_io : .io ∈ m)
    (h_waits : .waits ∈ m) :
    pickO m (execPortDisable c p s) = some (pick m s) := by
  unfold execPortDisable
  repeat'
    first
    | (simp [h_fresh, h_rails, h_dies, h_ports, h_herds, h_io, h_waits]; done)
    | split

@[simp] theorem pick_restartPort (m : List Area) (s : State) (p : PortId) (h_fresh : .fresh ∈ m)
    (h_rails : .rails ∈ m) (h_dies : .dies ∈ m) (h_ports : .ports ∈ m) (h_herds : .herds ∈ m) (h_io : .io ∈ m)
    (h_waits : .waits ∈ m) :
    pick m (restartPort s p) = pick m s := by
  simp [restartPort, h_fresh, h_rails, h_dies, h_ports, h_herds, h_io, h_waits]

@[simp] theorem pick_execPortRestart (m : List Area) (c : Cmd) (p : PortId) (s : State) (h_fresh : .fresh ∈ m)
    (h_rails : .rails ∈ m) (h_dies : .dies ∈ m) (h_ports : .ports ∈ m) (h_herds : .herds ∈ m) (h_io : .io ∈ m)
    (h_waits : .waits ∈ m) :
    pickO m (execPortRestart c p s) = some (pick m s) := by
  unfold execPortRestart
  repeat'
    first
    | (simp [h_fresh, h_rails, h_dies, h_ports, h_herds, h_io, h_waits]; done)
    | split

@[simp] theorem pick_execPortTrain (m : List Area) (c : Cmd) (p : PortId) (s : State) (h_fresh : .fresh ∈ m)
    (h_rails : .rails ∈ m) (h_dies : .dies ∈ m) (h_ports : .ports ∈ m) (h_herds : .herds ∈ m) (h_io : .io ∈ m)
    (h_waits : .waits ∈ m) :
    pickO m (execPortTrain c p s) = some (pick m s) := by
  unfold execPortTrain
  repeat'
    first
    | (simp [h_fresh, h_rails, h_dies, h_ports, h_herds, h_io, h_waits]; done)
    | split

@[simp] theorem pick_askLoop (m : List Area) (s : State) (c : Cmd) (p : PortId) (on : Bool) (h_ports : .ports ∈ m)
    (h_waits : .waits ∈ m) :
    pick m (askLoop s c p on) = pick m s := by simp [askLoop, h_ports, h_waits]

@[simp] theorem pick_execPortLoopbackOff (m : List Area) (c : Cmd) (p : PortId) (s : State) (h_ports : .ports ∈ m)
    (h_herds : .herds ∈ m) (h_io : .io ∈ m) (h_waits : .waits ∈ m) :
    pickO m (execPortLoopbackOff c p s) = some (pick m s) := by
  unfold execPortLoopbackOff
  repeat'
    first
    | (simp [h_ports, h_herds, h_io, h_waits]; done)
    | split

@[simp] theorem pick_execPortLoopbackDigital (m : List Area) (c : Cmd) (p : PortId) (s : State)
    (h_ports : .ports ∈ m) (h_herds : .herds ∈ m) (h_io : .io ∈ m) :
    pickO m (execPortLoopbackDigital c p s) = some (pick m s) := by
  unfold execPortLoopbackDigital
  repeat'
    first
    | (simp [h_ports, h_herds, h_io]; done)
    | split

@[simp] theorem pick_execPortLoopbackRemote (m : List Area) (c : Cmd) (p : PortId) (s : State)
    (h_ports : .ports ∈ m) (h_herds : .herds ∈ m) (h_io : .io ∈ m) (h_waits : .waits ∈ m) :
    pickO m (execPortLoopbackRemote c p s) = some (pick m s) := by
  unfold execPortLoopbackRemote
  repeat'
    first
    | (simp [h_ports, h_herds, h_io, h_waits]; done)
    | split

/-! ### Lanes -/

@[simp] theorem pick_setLane (m : List Area) (s : State) (p : PortId) (l : Lane) (h_ports : .ports ∈ m) :
    pick m (setLane s p l) = pick m s := by simp [setLane, h_ports]

@[simp] theorem pick_postFallback (m : List Area) (s : State) (p : PortId) (code : Nat) (h_io : .io ∈ m) :
    pick m (postFallback s p code) = pick m s := by simp [postFallback, h_io]

@[simp] theorem pick_enterDetect (m : List Area) (s : State) (p : PortId) (cause : Nat) (h_ports : .ports ∈ m)
    (h_io : .io ∈ m) :
    pick m (enterDetect s p cause) = pick m s := by simp [enterDetect, h_ports, h_io]

@[simp] theorem pick_enterActive (m : List Area) (s : State) (p : PortId) (h_ports : .ports ∈ m) (h_io : .io ∈ m) :
    pick m (enterActive s p) = pick m s := by simp [enterActive, h_ports, h_io]

@[simp] theorem pick_execBlindTimeout (m : List Area) (p : PortId) (s : State) (h_ports : .ports ∈ m)
    (h_io : .io ∈ m) :
    pickO m (execBlindTimeout p s) = some (pick m s) := by simp [execBlindTimeout, h_ports, h_io]

@[simp] theorem pick_laneAdapt (m : List Area) (s : State) (p : PortId) (l : Lane) (h_fresh : .fresh ∈ m)
    (h_ports : .ports ∈ m) :
    pick m (laneAdapt s p l) = pick m s := by simp [laneAdapt, h_fresh, h_ports]

@[simp] theorem pick_execLaneLockAcquired (m : List Area) (p : PortId) (rms levels : Nat) (snr : Int) (s : State)
    (h_fresh : .fresh ∈ m) (h_ports : .ports ∈ m) :
    pickO m (execLaneLockAcquired p rms levels snr s) = some (pick m s) := by
  simp [execLaneLockAcquired, h_fresh, h_ports]

@[simp] theorem pick_enterReady (m : List Area) (s : State) (p : PortId) (h_ports : .ports ∈ m) (h_io : .io ∈ m) :
    pick m (enterReady s p) = pick m s := by simp [enterReady, h_ports, h_io]

@[simp] theorem pick_execLaneLockHoldExpiry (m : List Area) (p : PortId) (s : State) (h_ports : .ports ∈ m)
    (h_io : .io ∈ m) :
    pickO m (execLaneLockHoldExpiry p s) = some (pick m s) := by
  unfold execLaneLockHoldExpiry
  simp only []
  repeat'
    first
    | (simp [h_ports, h_io]; done)
    | split

@[simp] theorem pick_execLaneLockLost (m : List Area) (p : PortId) (rms : Nat) (snr : Int) (errs : Nat) (s : State)
    (h_ports : .ports ∈ m) (h_io : .io ∈ m) :
    pickO m (execLaneLockLost p rms snr errs s) = some (pick m s) := by
  unfold execLaneLockLost
  simp only []
  repeat'
    first
    | (simp [h_ports, h_io]; done)
    | split

@[simp] theorem pick_execDetectProbe (m : List Area) (p : PortId) (found : Bool) (s : State) (h_ports : .ports ∈ m)
    (h_io : .io ∈ m) :
    pickO m (execDetectProbe p found s) = some (pick m s) := by simp [execDetectProbe, h_ports, h_io]

@[simp] theorem pick_seekAsk (m : List Area) (s : State) (p : PortId) (k : Seek) (t : Fin 4) (fresh : Bool)
    (h_fresh : .fresh ∈ m) (h_ports : .ports ∈ m) (h_io : .io ∈ m) :
    pick m (seekAsk s p k t fresh) = pick m s := by simp [seekAsk, h_fresh, h_ports, h_io]

@[simp] theorem pick_seekNext (m : List Area) (s : State) (p : PortId) (k : Seek) (t : Fin 4) (h_fresh : .fresh ∈ m)
    (h_ports : .ports ∈ m) (h_io : .io ∈ m) :
    pick m (seekNext s p k t) = pick m s := by unfold seekNext; split <;> simp [h_fresh, h_ports, h_io]

@[simp] theorem pick_seekStep (m : List Area) (s : State) (p : PortId) (f : TrainFrame) (h_fresh : .fresh ∈ m)
    (h_ports : .ports ∈ m) (h_io : .io ∈ m) :
    pick m (seekStep s p f) = pick m s := by
  unfold seekStep
  simp only []
  repeat'
    first
    | (simp [h_fresh, h_ports, h_io]; done)
    | split

@[simp] theorem pick_execTrainingFrameReceived (m : List Area) (p : PortId) (f : TrainFrame) (s : State)
    (h_fresh : .fresh ∈ m) (h_ports : .ports ∈ m) (h_io : .io ∈ m) :
    pickO m (execTrainingFrameReceived p f s) = some (pick m s) := by
  unfold execTrainingFrameReceived
  simp only []
  repeat'
    first
    | (simp [h_fresh, h_ports, h_io]; done)
    | split

@[simp] theorem pick_execTrainLockMet (m : List Area) (p : PortId) (rms levels : Nat) (snr : Int) (errs : Nat)
    (s : State) (h_fresh : .fresh ∈ m) (h_ports : .ports ∈ m) :
    pickO m (execTrainLockMet p rms levels snr errs s) = some (pick m s) := by
  simp [execTrainLockMet, h_fresh, h_ports]

@[simp] theorem pick_execLaneReadyDone (m : List Area) (p : PortId) (s : State) (h_ports : .ports ∈ m)
    (h_io : .io ∈ m) :
    pickO m (execLaneReadyDone p s) = some (pick m s) := by simp [execLaneReadyDone, h_ports, h_io]

@[simp] theorem pick_execFallbackLimitExpiry (m : List Area) (p : PortId) (s : State) (h_ports : .ports ∈ m)
    (h_io : .io ∈ m) :
    pickO m (execFallbackLimitExpiry p s) = some (pick m s) := by simp [execFallbackLimitExpiry, h_ports, h_io]

@[simp] theorem pick_execLaneTrain (m : List Area) (c : Cmd) (p : PortId) (s : State) (h_ports : .ports ∈ m)
    (h_herds : .herds ∈ m) (h_io : .io ∈ m) :
    pickO m (execLaneTrain c p s) = some (pick m s) := by
  unfold execLaneTrain
  repeat'
    first
    | (simp [h_ports, h_herds, h_io]; done)
    | split

@[simp] theorem pick_checkIn (m : List Area) (s : State) (p : PortId) (bits : List Bool) (h_fresh : .fresh ∈ m)
    (h_ports : .ports ∈ m) :
    pick m (checkIn s p bits) = pick m s := by simp [checkIn, h_fresh, h_ports]

@[simp] theorem pick_nearBits (m : List Area) (s : State) (p : PortId) (bits : List Bool) (h_fresh : .fresh ∈ m)
    (h_ports : .ports ∈ m) :
    pick m (nearBits s p bits) = pick m s := by simp [nearBits, h_fresh, h_ports]

@[simp] theorem pick_emitPattern (m : List Area) (s : State) (p : PortId) (h_fresh : .fresh ∈ m)
    (h_ports : .ports ∈ m) (h_io : .io ∈ m) :
    pick m (emitPattern s p) = pick m s := by simp [emitPattern, h_fresh, h_ports, h_io]

@[simp] theorem pick_execLanePrbs (m : List Area) (c : Cmd) (p : PortId)
    (apply gen chk inject burstLen periodK live : BitVec 8) (s : State) (h_fresh : .fresh ∈ m)
    (h_ports : .ports ∈ m) (h_herds : .herds ∈ m) (h_io : .io ∈ m) :
    pickO m (execLanePrbs c p apply gen chk inject burstLen periodK live s) = some (pick m s) := by
  unfold execLanePrbs
  repeat'
    first
    | (simp [h_fresh, h_ports, h_herds, h_io]; done)
    | split

@[simp] theorem pick_execCheckerLock (m : List Area) (p : PortId) (bits : List Bool) (s : State)
    (h_fresh : .fresh ∈ m) (h_ports : .ports ∈ m) :
    pickO m (execCheckerLock p bits s) = some (pick m s) := by simp [execCheckerLock, h_fresh, h_ports]

@[simp] theorem pick_execPeriodicInjection (m : List Area) (p : PortId) (s : State) (h_fresh : .fresh ∈ m)
    (h_ports : .ports ∈ m) (h_io : .io ∈ m) :
    pickO m (execPeriodicInjection p s) = some (pick m s) := by simp [execPeriodicInjection, h_fresh, h_ports, h_io]

@[simp] theorem pick_hostLoop (m : List Area) (s : State) (c : Cmd) (p : PortId) (which : LoopSt) (may : Bool)
    (h_ports : .ports ∈ m) (h_herds : .herds ∈ m) (h_io : .io ∈ m) :
    pick m (hostLoop s c p which may) = pick m s := by unfold hostLoop; split <;> simp [h_ports, h_herds, h_io]

@[simp] theorem pick_execLaneLoopbackOff (m : List Area) (c : Cmd) (p : PortId) (s : State) (h_ports : .ports ∈ m)
    (h_herds : .herds ∈ m) (h_io : .io ∈ m) :
    pickO m (execLaneLoopbackOff c p s) = some (pick m s) := by
  unfold execLaneLoopbackOff
  repeat'
    first
    | (simp [h_ports, h_herds, h_io]; done)
    | split

@[simp] theorem pick_execLaneLoopbackNear (m : List Area) (c : Cmd) (p : PortId) (s : State) (h_ports : .ports ∈ m)
    (h_herds : .herds ∈ m) (h_io : .io ∈ m) :
    pickO m (execLaneLoopbackNear c p s) = some (pick m s) := by simp [execLaneLoopbackNear, h_ports, h_herds, h_io]

@[simp] theorem pick_execLaneLoopbackFar (m : List Area) (c : Cmd) (p : PortId) (s : State) (h_ports : .ports ∈ m)
    (h_herds : .herds ∈ m) (h_io : .io ∈ m) :
    pickO m (execLaneLoopbackFar c p s) = some (pick m s) := by simp [execLaneLoopbackFar, h_ports, h_herds, h_io]

/-! ### LowPower -/

@[simp] theorem pick_enterQuiet (m : List Area) (s : State) (p : PortId) (h_ports : .ports ∈ m) (h_io : .io ∈ m) :
    pick m (enterQuiet s p) = pick m s := by simp [enterQuiet, h_ports, h_io]

@[simp] theorem pick_enterWake (m : List Area) (s : State) (p : PortId) (cause : Nat) (h_ports : .ports ∈ m)
    (h_io : .io ∈ m) :
    pick m (enterWake s p cause) = pick m s := by simp [enterWake, h_ports, h_io]

@[simp] theorem pick_wakeTrigger (m : List Area) (s : State) (p : PortId) (cause : Nat) (h_ports : .ports ∈ m)
    (h_io : .io ∈ m) :
    pick m (wakeTrigger s p cause) = pick m s := by
  unfold wakeTrigger
  simp only []
  repeat'
    first
    | (simp [h_ports, h_io]; done)
    | split

@[simp] theorem pick_wakeInstant (m : List Area) (s : State) (p : PortId) (h_fresh : .fresh ∈ m)
    (h_rails : .rails ∈ m) (h_dies : .dies ∈ m) (h_ports : .ports ∈ m) (h_herds : .herds ∈ m) (h_io : .io ∈ m)
    (h_waits : .waits ∈ m) :
    pick m (wakeInstant s p) = pick m s := by
  simp [wakeInstant, h_fresh, h_rails, h_dies, h_ports, h_herds, h_io, h_waits]

@[simp] theorem pick_signalMove (m : List Area) (s : State) (p : PortId) (was on : Bool) (h_ports : .ports ∈ m)
    (h_io : .io ∈ m) :
    pick m (signalMove s p was on) = pick m s := by
  unfold signalMove
  simp only []
  repeat'
    first
    | (simp [h_ports, h_io]; done)
    | split

@[simp] theorem pick_lpiReceive (m : List Area) (s : State) (p : PortId) (cls : Option (BitVec 16))
    (h_fresh : .fresh ∈ m) (h_rails : .rails ∈ m) (h_dies : .dies ∈ m) (h_ports : .ports ∈ m) (h_herds : .herds ∈ m)
    (h_io : .io ∈ m) (h_waits : .waits ∈ m) :
    pick m (lpiReceive s p cls) = pick m s := by
  unfold lpiReceive
  simp only []
  repeat'
    first
    | (simp [h_fresh, h_rails, h_dies, h_ports, h_herds, h_io, h_waits]; done)
    | split

@[simp] theorem pick_execLpiConfig (m : List Area) (c : Cmd) (p : PortId) (enable autoIdle events : BitVec 8)
    (timer : BitVec 32) (s : State) (h_ports : .ports ∈ m) (h_herds : .herds ∈ m) (h_io : .io ∈ m) :
    pickO m (execLpiConfig c p enable autoIdle events timer s) = some (pick m s) := by
  unfold execLpiConfig
  repeat'
    first
    | (simp [h_ports, h_herds, h_io]; done)
    | split

@[simp] theorem pick_execAutoIdleTimerExpiry (m : List Area) (p : PortId) (s : State) (h_ports : .ports ∈ m) :
    pickO m (execAutoIdleTimerExpiry p s) = some (pick m s) := by simp [execAutoIdleTimerExpiry, h_ports]

@[simp] theorem pick_execLpiRefreshInstant (m : List Area) (p : PortId) (s : State) (h_ports : .ports ∈ m) :
    pickO m (execLpiRefreshInstant p s) = some (pick m s) := by simp [execLpiRefreshInstant, h_ports]

@[simp] theorem pick_execLpiRefreshEnd (m : List Area) (p : PortId) (locks4us : Bool) (s : State)
    (h_fresh : .fresh ∈ m) (h_ports : .ports ∈ m) :
    pickO m (execLpiRefreshEnd p locks4us s) = some (pick m s) := by simp [execLpiRefreshEnd, h_fresh, h_ports]

@[simp] theorem pick_execLpiRefreshExtendExpiry (m : List Area) (p : PortId) (s : State) (h_fresh : .fresh ∈ m)
    (h_rails : .rails ∈ m) (h_dies : .dies ∈ m) (h_ports : .ports ∈ m) (h_herds : .herds ∈ m) (h_io : .io ∈ m)
    (h_waits : .waits ∈ m) :
    pickO m (execLpiRefreshExtendExpiry p s) = some (pick m s) := by
  simp [execLpiRefreshExtendExpiry, h_fresh, h_rails, h_dies, h_ports, h_herds, h_io, h_waits]

@[simp] theorem pick_execLpiPartnerSignalExpiry (m : List Area) (p : PortId) (s : State) (h_fresh : .fresh ∈ m)
    (h_rails : .rails ∈ m) (h_dies : .dies ∈ m) (h_ports : .ports ∈ m) (h_herds : .herds ∈ m) (h_io : .io ∈ m)
    (h_waits : .waits ∈ m) :
    pickO m (execLpiPartnerSignalExpiry p s) = some (pick m s) := by
  simp [execLpiPartnerSignalExpiry, h_fresh, h_rails, h_dies, h_ports, h_herds, h_io, h_waits]

@[simp] theorem pick_execLpiFirstCodewordInstant (m : List Area) (p : PortId) (s : State) (h_fresh : .fresh ∈ m)
    (h_rails : .rails ∈ m) (h_dies : .dies ∈ m) (h_ports : .ports ∈ m) (h_herds : .herds ∈ m) (h_io : .io ∈ m)
    (h_waits : .waits ∈ m) :
    pickO m (execLpiFirstCodewordInstant p s) = some (pick m s) := by
  simp [execLpiFirstCodewordInstant, h_fresh, h_rails, h_dies, h_ports, h_herds, h_io, h_waits]

/-! ### Startup -/

@[simp] theorem pick_setNeg (m : List Area) (s : State) (p : PortId) (n : Neg) (h_ports : .ports ∈ m) :
    pick m (setNeg s p n) = pick m s := by simp [setNeg, h_ports]

@[simp] theorem pick_sendPage (m : List Area) (s : State) (p : PortId) (bits : BitVec 48) (h_io : .io ∈ m) :
    pick m (sendPage s p bits) = pick m s := by simp [sendPage, h_io]

@[simp] theorem pick_sendOffer (m : List Area) (s : State) (p : PortId) (k : Nat) (h_ports : .ports ∈ m)
    (h_io : .io ∈ m) :
    pick m (sendOffer s p k) = pick m s := by simp [sendOffer, h_ports, h_io]

@[simp] theorem pick_execNegBreakLinkExpiry (m : List Area) (p : PortId) (s : State) (h_ports : .ports ∈ m)
    (h_io : .io ∈ m) :
    pickO m (execNegBreakLinkExpiry p s) = some (pick m s) := by simp [execNegBreakLinkExpiry, h_ports, h_io]

@[simp] theorem pick_execNegAttemptExpiry (m : List Area) (p : PortId) (s : State) (h_fresh : .fresh ∈ m)
    (h_rails : .rails ∈ m) (h_dies : .dies ∈ m) (h_ports : .ports ∈ m) (h_herds : .herds ∈ m) (h_io : .io ∈ m) :
    pickO m (execNegAttemptExpiry p s) = some (pick m s) := by
  simp [execNegAttemptExpiry, h_fresh, h_rails, h_dies, h_ports, h_herds, h_io]

@[simp] theorem pick_execBasePageReceived (m : List Area) (p : PortId) (page : BasePage) (s : State)
    (h_fresh : .fresh ∈ m) (h_rails : .rails ∈ m) (h_dies : .dies ∈ m) (h_ports : .ports ∈ m) (h_herds : .herds ∈ m)
    (h_io : .io ∈ m) :
    pickO m (execBasePageReceived p page s) = some (pick m s) := by
  simp [execBasePageReceived, h_fresh, h_rails, h_dies, h_ports, h_herds, h_io]

@[simp] theorem pick_offerFrom (m : List Area) (p : PortId) (partner : BitVec 48) (m_ : LineMode) (fec : BitVec 8)
    (reads : List (CtxKey × CtxRead)) (x5 : Nat) (x6 : State) (h_store : .store ∈ m) (h_io : .io ∈ m) :
    pick m ((offerFrom p partner m_ fec reads x5 x6).1) = pick m x6 := by
  induction x5 generalizing x6 with
  | zero => rfl
  | succ k ih =>
    unfold offerFrom
    split
    · rfl
    · simp only []
      split
      · simp [h_store, h_io]
      · simp [ih, h_store, h_io]

@[simp] theorem pick_loadOffer (m : List Area) (s : State) (p : PortId) (reads : List (CtxKey × CtxRead))
    (h_store : .store ∈ m) (h_ports : .ports ∈ m) (h_io : .io ∈ m) :
    pick m (loadOffer s p reads) = pick m s := by
  unfold loadOffer
  simp only []
  repeat'
    first
    | (simp [h_store, h_ports, h_io]; done)
    | split

@[simp] theorem pick_completeNeg (m : List Area) (s : State) (p : PortId) (n : Neg) (m_ : LineMode) (fec : BitVec 8)
    (role : Role) (h_clk : .clk ∈ m) (h_rails : .rails ∈ m) (h_dies : .dies ∈ m) (h_store : .store ∈ m)
    (h_ports : .ports ∈ m) (h_herds : .herds ∈ m) (h_io : .io ∈ m) :
    pick m (completeNeg s p n m_ fec role) = pick m s := by
  unfold completeNeg
  repeat'
    first
    | (simp [h_clk, h_rails, h_dies, h_store, h_ports, h_herds, h_io]; done)
    | split

@[simp] theorem pick_resolveNeg (m : List Area) (s : State) (p : PortId) (h_fresh : .fresh ∈ m) (h_clk : .clk ∈ m)
    (h_rails : .rails ∈ m) (h_dies : .dies ∈ m) (h_store : .store ∈ m) (h_ports : .ports ∈ m) (h_herds : .herds ∈ m)
    (h_io : .io ∈ m) :
    pick m (resolveNeg s p) = pick m s := by
  unfold resolveNeg
  simp only []
  repeat'
    first
    | (simp [h_fresh, h_clk, h_rails, h_dies, h_store, h_ports, h_herds, h_io]; done)
    | split

@[simp] theorem pick_execNextPageReceived (m : List Area) (p : PortId) (page : NextPage) (reads : List
    (CtxKey × CtxRead)) (s : State) (h_fresh : .fresh ∈ m) (h_clk : .clk ∈ m) (h_rails : .rails ∈ m)
    (h_dies : .dies ∈ m) (h_store : .store ∈ m) (h_ports : .ports ∈ m) (h_herds : .herds ∈ m) (h_io : .io ∈ m) :
    pickO m (execNextPageReceived p page reads s) = some (pick m s) := by
  unfold execNextPageReceived
  repeat'
    first
    | (simp [h_fresh, h_clk, h_rails, h_dies, h_store, h_ports, h_herds, h_io]; done)
    | split

@[simp] theorem pick_execDmeReceived (m : List Area) (p : PortId) (s : State) (h_fresh : .fresh ∈ m)
    (h_rails : .rails ∈ m) (h_dies : .dies ∈ m) (h_ports : .ports ∈ m) (h_herds : .herds ∈ m) (h_io : .io ∈ m) :
    pickO m (execDmeReceived p s) = some (pick m s) := by
  simp [execDmeReceived, h_fresh, h_rails, h_dies, h_ports, h_herds, h_io]

@[simp] theorem pick_execSpringbokStartInstant (m : List Area) (p : PortId) (read : CtxRead) (s : State)
    (h_rails : .rails ∈ m) (h_dies : .dies ∈ m) (h_store : .store ∈ m) (h_ports : .ports ∈ m) (h_herds : .herds ∈ m)
    (h_io : .io ∈ m) :
    pickO m (execSpringbokStartInstant p read s) = some (pick m s) := by
  unfold execSpringbokStartInstant
  simp only []
  repeat'
    first
    | (simp [h_rails, h_dies, h_store, h_ports, h_herds, h_io]; done)
    | split

@[simp] theorem pick_sendCaps (m : List Area) (s : State) (p : PortId) (gen : BitVec 32) (h_ports : .ports ∈ m) :
    pick m (sendCaps s p gen) = pick m s := by simp [sendCaps, h_ports]

@[simp] theorem pick_execSpringbokCheckPass (m : List Area) (p : PortId) (s : State) (h_ports : .ports ∈ m) :
    pickO m (execSpringbokCheckPass p s) = some (pick m s) := by simp [execSpringbokCheckPass, h_ports]

@[simp] theorem pick_execSpringbokCheckExpiry (m : List Area) (p : PortId) (s : State) (h_rails : .rails ∈ m)
    (h_dies : .dies ∈ m) (h_ports : .ports ∈ m) (h_herds : .herds ∈ m) (h_io : .io ∈ m) :
    pickO m (execSpringbokCheckExpiry p s) = some (pick m s) := by
  simp [execSpringbokCheckExpiry, h_rails, h_dies, h_ports, h_herds, h_io]

@[simp] theorem pick_startDone (m : List Area) (s : State) (p : PortId) (h_rails : .rails ∈ m) (h_dies : .dies ∈ m)
    (h_ports : .ports ∈ m) (h_herds : .herds ∈ m) (h_io : .io ∈ m) :
    pick m (startDone s p) = pick m s := by simp [startDone, h_rails, h_dies, h_ports, h_herds, h_io]

@[simp] theorem pick_capsArrive (m : List Area) (s : State) (p : PortId) (head : BitVec 96) (pay : BitVec 64)
    (h_rails : .rails ∈ m) (h_dies : .dies ∈ m) (h_ports : .ports ∈ m) (h_herds : .herds ∈ m) (h_io : .io ∈ m) :
    pick m (capsArrive s p head pay) = pick m s := by simp [capsArrive, h_rails, h_dies, h_ports, h_herds, h_io]

@[simp] theorem pick_infoAcked (m : List Area) (s : State) (p : PortId) (m_ : Msg) (h_ports : .ports ∈ m)
    (h_herds : .herds ∈ m) (h_io : .io ∈ m) (h_waits : .waits ∈ m) :
    pick m (infoAcked s p m_) = pick m s := by
  unfold infoAcked
  simp only []
  repeat'
    first
    | (simp [h_ports, h_herds, h_io, h_waits]; done)
    | split

@[simp] theorem pick_infoArrive (m : List Area) (s : State) (p : PortId) (head : BitVec 96) (type : BitVec 8)
    (pay : BitVec 64) (h_rails : .rails ∈ m) (h_dies : .dies ∈ m) (h_store : .store ∈ m) (h_ports : .ports ∈ m)
    (h_herds : .herds ∈ m) (h_io : .io ∈ m) (h_waits : .waits ∈ m) :
    pick m (infoArrive s p head type pay) = pick m s := by
  simp [infoArrive, h_rails, h_dies, h_store, h_ports, h_herds, h_io, h_waits]

@[simp] theorem pick_infoReceived (m : List Area) (s : State) (p : PortId) (bits : BitVec 128)
    (h_rails : .rails ∈ m) (h_dies : .dies ∈ m) (h_store : .store ∈ m) (h_ports : .ports ∈ m) (h_herds : .herds ∈ m)
    (h_io : .io ∈ m) (h_waits : .waits ∈ m) :
    pick m (infoReceived s p bits) = pick m s := by
  unfold infoReceived
  simp only []
  repeat'
    first
    | (simp [h_rails, h_dies, h_store, h_ports, h_herds, h_io, h_waits]; done)
    | split

@[simp] theorem pick_execInfofieldReceived (m : List Area) (p : PortId) (bits : BitVec 128) (s : State)
    (h_rails : .rails ∈ m) (h_dies : .dies ∈ m) (h_store : .store ∈ m) (h_ports : .ports ∈ m) (h_herds : .herds ∈ m)
    (h_io : .io ∈ m) (h_waits : .waits ∈ m) :
    pickO m (execInfofieldReceived p bits s) = some (pick m s) := by
  simp [execInfofieldReceived, h_rails, h_dies, h_store, h_ports, h_herds, h_io, h_waits]

@[simp] theorem pick_execInfofieldRetryExpiry (m : List Area) (p : PortId) (s : State) (h_ports : .ports ∈ m)
    (h_herds : .herds ∈ m) (h_io : .io ∈ m) (h_waits : .waits ∈ m) :
    pickO m (execInfofieldRetryExpiry p s) = some (pick m s) := by
  unfold execInfofieldRetryExpiry
  simp only []
  repeat'
    first
    | (simp [h_ports, h_herds, h_io, h_waits]; done)
    | split

@[simp] theorem pick_execT0CalibrationDone (m : List Area) (p : PortId) (s : State) (h_fresh : .fresh ∈ m)
    (h_ports : .ports ∈ m) :
    pickO m (execT0CalibrationDone p s) = some (pick m s) := by simp [execT0CalibrationDone, h_fresh, h_ports]

@[simp] theorem pick_sendTrain (m : List Area) (s : State) (p : PortId) (word : BitVec 32) (us : Nat)
    (h_ports : .ports ∈ m) :
    pick m (sendTrain s p word us) = pick m s := by simp [sendTrain, h_ports]

@[simp] theorem pick_enterT1 (m : List Area) (s : State) (p : PortId) (window : Nat) (h_rails : .rails ∈ m)
    (h_dies : .dies ∈ m) (h_ports : .ports ∈ m) (h_herds : .herds ∈ m) (h_io : .io ∈ m) :
    pick m (enterT1 s p window) = pick m s := by simp [enterT1, h_rails, h_dies, h_ports, h_herds, h_io]

@[simp] theorem pick_execT0Burst (m : List Area) (p : PortId) (s : State) (h_rails : .rails ∈ m)
    (h_dies : .dies ∈ m) (h_ports : .ports ∈ m) (h_herds : .herds ∈ m) (h_io : .io ∈ m) :
    pickO m (execT0Burst p s) = some (pick m s) := by simp [execT0Burst, h_rails, h_dies, h_ports, h_herds, h_io]

@[simp] theorem pick_execT0SlaveReply (m : List Area) (p : PortId) (s : State) (h_ports : .ports ∈ m) :
    pickO m (execT0SlaveReply p s) = some (pick m s) := by simp [execT0SlaveReply, h_ports]

@[simp] theorem pick_execT0DetectTimeout (m : List Area) (p : PortId) (s : State) (h_fresh : .fresh ∈ m)
    (h_rails : .rails ∈ m) (h_dies : .dies ∈ m) (h_ports : .ports ∈ m) (h_herds : .herds ∈ m) (h_io : .io ∈ m) :
    pickO m (execT0DetectTimeout p s) = some (pick m s) := by
  simp [execT0DetectTimeout, h_fresh, h_rails, h_dies, h_ports, h_herds, h_io]

@[simp] theorem pick_execTrainWordAccepted (m : List Area) (p : PortId) (copy1 copy2 : BitVec 32) (s : State)
    (h_rails : .rails ∈ m) (h_dies : .dies ∈ m) (h_ports : .ports ∈ m) (h_herds : .herds ∈ m) (h_io : .io ∈ m) :
    pickO m (execTrainWordAccepted p copy1 copy2 s) = some (pick m s) := by
  simp [execTrainWordAccepted, h_rails, h_dies, h_ports, h_herds, h_io]

@[simp] theorem pick_enterT2 (m : List Area) (s : State) (p : PortId) (h_rails : .rails ∈ m) (h_dies : .dies ∈ m)
    (h_ports : .ports ∈ m) (h_herds : .herds ∈ m) (h_io : .io ∈ m) :
    pick m (enterT2 s p) = pick m s := by simp [enterT2, h_rails, h_dies, h_ports, h_herds, h_io]

@[simp] theorem pick_execT1WindowStart (m : List Area) (p : PortId) (s : State) (h_rails : .rails ∈ m)
    (h_dies : .dies ∈ m) (h_ports : .ports ∈ m) (h_herds : .herds ∈ m) (h_io : .io ∈ m) :
    pickO m (execT1WindowStart p s) = some (pick m s) := by
  simp [execT1WindowStart, h_rails, h_dies, h_ports, h_herds, h_io]

@[simp] theorem pick_execT2CriteriaMet (m : List Area) (p : PortId) (s : State) (h_fresh : .fresh ∈ m)
    (h_rails : .rails ∈ m) (h_dies : .dies ∈ m) (h_ports : .ports ∈ m) (h_herds : .herds ∈ m) (h_io : .io ∈ m) :
    pickO m (execT2CriteriaMet p s) = some (pick m s) := by
  unfold execT2CriteriaMet
  simp only []
  repeat'
    first
    | (simp [h_fresh, h_rails, h_dies, h_ports, h_herds, h_io]; done)
    | split

@[simp] theorem pick_execT2ConvergenceTimeout (m : List Area) (p : PortId) (s : State) (h_fresh : .fresh ∈ m)
    (h_rails : .rails ∈ m) (h_dies : .dies ∈ m) (h_ports : .ports ∈ m) (h_herds : .herds ∈ m) (h_io : .io ∈ m) :
    pickO m (execT2ConvergenceTimeout p s) = some (pick m s) := by
  simp [execT2ConvergenceTimeout, h_fresh, h_rails, h_dies, h_ports, h_herds, h_io]

@[simp] theorem pick_execT3CapsTimeout (m : List Area) (p : PortId) (s : State) (h_fresh : .fresh ∈ m)
    (h_rails : .rails ∈ m) (h_dies : .dies ∈ m) (h_ports : .ports ∈ m) (h_herds : .herds ∈ m) (h_io : .io ∈ m) :
    pickO m (execT3CapsTimeout p s) = some (pick m s) := by
  simp [execT3CapsTimeout, h_fresh, h_rails, h_dies, h_ports, h_herds, h_io]

@[simp] theorem pick_leadLoss (m : List Area) (s : State) (p : PortId) (gained : Bool) (h_herds : .herds ∈ m) :
    pick m (leadLoss s p gained) = pick m s := by simp [leadLoss, h_herds]

@[simp] theorem pick_setLock (m : List Area) (s : State) (p : PortId) (l : Locks) (h_ports : .ports ∈ m) :
    pick m (setLock s p l) = pick m s := by simp [setLock, h_ports]

@[simp] theorem pick_execSuperframeLockChange (m : List Area) (p : PortId) (pair : PairId) (gained : Bool)
    (failed : Nat) (s : State) (h_ports : .ports ∈ m) (h_herds : .herds ∈ m) :
    pickO m (execSuperframeLockChange p pair gained failed s) = some (pick m s) := by
  simp [execSuperframeLockChange, h_ports, h_herds]

@[simp] theorem pick_execMarkerLockChange (m : List Area) (p : PortId) (errs skews : List Nat) (s : State)
    (h_fresh : .fresh ∈ m) (h_rails : .rails ∈ m) (h_dies : .dies ∈ m) (h_ports : .ports ∈ m) (h_herds : .herds ∈ m)
    (h_io : .io ∈ m) :
    pickO m (execMarkerLockChange p errs skews s) = some (pick m s) := by
  simp [execMarkerLockChange, h_fresh, h_rails, h_dies, h_ports, h_herds, h_io]

@[simp] theorem pick_execTimingLockChange (m : List Area) (p : PortId) (rms peak : Nat) (s : State)
    (h_ports : .ports ∈ m) (h_herds : .herds ∈ m) :
    pickO m (execTimingLockChange p rms peak s) = some (pick m s) := by
  simp [execTimingLockChange, h_ports, h_herds]

@[simp] theorem pick_execSignalDetectChange (m : List Area) (p : PortId) (pair : PairId) (s : State)
    (h_ports : .ports ∈ m) (h_herds : .herds ∈ m) (h_io : .io ∈ m) :
    pickO m (execSignalDetectChange p pair s) = some (pick m s) := by
  simp [execSignalDetectChange, h_ports, h_herds, h_io]

@[simp] theorem pick_execSignalLossExpiry (m : List Area) (p : PortId) (s : State) (h_fresh : .fresh ∈ m)
    (h_rails : .rails ∈ m) (h_dies : .dies ∈ m) (h_ports : .ports ∈ m) (h_herds : .herds ∈ m) (h_io : .io ∈ m)
    (h_waits : .waits ∈ m) :
    pickO m (execSignalLossExpiry p s) = some (pick m s) := by
  unfold execSignalLossExpiry
  simp only []
  repeat'
    first
    | (simp [h_fresh, h_rails, h_dies, h_ports, h_herds, h_io, h_waits]; done)
    | split

@[simp] theorem pick_execTimingLossExpiry (m : List Area) (p : PortId) (s : State) (h_fresh : .fresh ∈ m)
    (h_rails : .rails ∈ m) (h_dies : .dies ∈ m) (h_ports : .ports ∈ m) (h_herds : .herds ∈ m) (h_io : .io ∈ m)
    (h_waits : .waits ∈ m) :
    pickO m (execTimingLossExpiry p s) = some (pick m s) := by
  simp [execTimingLossExpiry, h_fresh, h_rails, h_dies, h_ports, h_herds, h_io, h_waits]

@[simp] theorem pick_execFrameLossExpiry (m : List Area) (p : PortId) (s : State) (h_fresh : .fresh ∈ m)
    (h_rails : .rails ∈ m) (h_dies : .dies ∈ m) (h_ports : .ports ∈ m) (h_herds : .herds ∈ m) (h_io : .io ∈ m)
    (h_waits : .waits ∈ m) :
    pickO m (execFrameLossExpiry p s) = some (pick m s) := by
  simp [execFrameLossExpiry, h_fresh, h_rails, h_dies, h_ports, h_herds, h_io, h_waits]

@[simp] theorem pick_execHandoverTrigger (m : List Area) (h : HerdId) (s : State) (h_herds : .herds ∈ m) :
    pickO m (execHandoverTrigger h s) = some (pick m s) := by simp [execHandoverTrigger, h_herds]

@[simp] theorem pick_execHandoverDone (m : List Area) (h : HerdId) (s : State) (h_ports : .ports ∈ m)
    (h_herds : .herds ∈ m) :
    pickO m (execHandoverDone h s) = some (pick m s) := by
  unfold execHandoverDone
  repeat'
    first
    | (simp [h_ports, h_herds]; done)
    | split

@[simp] theorem pick_execHoldoverTimeout (m : List Area) (h : HerdId) (s : State) (h_ports : .ports ∈ m)
    (h_herds : .herds ∈ m) :
    pickO m (execHoldoverTimeout h s) = some (pick m s) := by simp [execHoldoverTimeout, h_ports, h_herds]

/-! ### Line -/

@[simp] theorem pick_countBad (m : List Area) (s : State) (p : PortId) (h_fresh : .fresh ∈ m) (h_rails : .rails ∈ m)
    (h_dies : .dies ∈ m) (h_ports : .ports ∈ m) (h_herds : .herds ∈ m) (h_io : .io ∈ m) (h_waits : .waits ∈ m) :
    pick m (countBad s p) = pick m s := by
  simp [countBad, h_fresh, h_rails, h_dies, h_ports, h_herds, h_io, h_waits]

@[simp] theorem pick_slip (m : List Area) (s : State) (p : PortId) (h_ports : .ports ∈ m) (h_herds : .herds ∈ m)
    (h_io : .io ∈ m) (h_flt : .flt ∈ m) (h_fw : .fw ∈ m) (h_nv : .nv ∈ m) :
    pick m (slip s p) = pick m s := by simp [slip, h_ports, h_herds, h_io, h_flt, h_fw, h_nv]

@[simp] theorem pick_pushPass (m : List Area) (s : State) (p : PortId) (cw : HostCw) (h_ports : .ports ∈ m)
    (h_herds : .herds ∈ m) (h_io : .io ∈ m) (h_flt : .flt ∈ m) (h_fw : .fw ∈ m) (h_nv : .nv ∈ m) :
    pick m (pushPass s p cw) = pick m s := by simp [pushPass, h_ports, h_herds, h_io, h_flt, h_fw, h_nv]

@[simp] theorem pick_hostIn (m : List Area) (s : State) (p : PortId) (cw : HostCw) (h_ports : .ports ∈ m)
    (h_herds : .herds ∈ m) (h_io : .io ∈ m) (h_flt : .flt ∈ m) (h_fw : .fw ∈ m) (h_nv : .nv ∈ m) :
    pick m (hostIn s p cw) = pick m s := by simp [hostIn, h_ports, h_herds, h_io, h_flt, h_fw, h_nv]

@[simp] theorem pick_execHostinCwLockChange (m : List Area) (p : PortId) (gained : Bool) (s : State)
    (h_ports : .ports ∈ m) :
    pickO m (execHostinCwLockChange p gained s) = some (pick m s) := by simp [execHostinCwLockChange, h_ports]

@[simp] theorem pick_hostOut (m : List Area) (s : State) (p : PortId) (what : String) (kind : CwKind) (syms : List
    (BitVec 10)) (h_fresh : .fresh ∈ m) (h_ports : .ports ∈ m) (h_herds : .herds ∈ m) (h_io : .io ∈ m)
    (h_flt : .flt ∈ m) (h_fw : .fw ∈ m) (h_nv : .nv ∈ m) :
    pick m (hostOut s p what kind syms) = pick m s := by
  simp [hostOut, h_fresh, h_ports, h_herds, h_io, h_flt, h_fw, h_nv]

@[simp] theorem pick_segOut (m : List Area) (s : State) (p : PortId) (g : HostCw) (h_fresh : .fresh ∈ m)
    (h_ports : .ports ∈ m) (h_herds : .herds ∈ m) (h_io : .io ∈ m) (h_flt : .flt ∈ m) (h_fw : .fw ∈ m)
    (h_nv : .nv ∈ m) :
    pick m (segOut s p g) = pick m s := by
  unfold segOut; split <;> simp [h_fresh, h_ports, h_herds, h_io, h_flt, h_fw, h_nv]

@[simp] theorem pick_adapterOut (m : List Area) (s : State) (p : PortId) (h_fresh : .fresh ∈ m)
    (h_ports : .ports ∈ m) (h_herds : .herds ∈ m) (h_io : .io ∈ m) (h_flt : .flt ∈ m) (h_fw : .fw ∈ m)
    (h_nv : .nv ∈ m) :
    pick m (adapterOut s p) = pick m s := by
  unfold adapterOut
  simp only []
  repeat'
    first
    | (simp [h_fresh, h_ports, h_herds, h_io, h_flt, h_fw, h_nv]; done)
    | split

@[simp] theorem pick_adapterRun (m : List Area) (x0 : Nat) (x1 : State) (x2 : PortId) (h_fresh : .fresh ∈ m)
    (h_ports : .ports ∈ m) (h_herds : .herds ∈ m) (h_io : .io ∈ m) (h_flt : .flt ∈ m) (h_fw : .fw ∈ m)
    (h_nv : .nv ∈ m) :
    pick m (adapterRun x0 x1 x2) = pick m x1 := by
  induction x0 generalizing x1 with
  | zero => rfl
  | succ k ih => simp [adapterRun, ih, h_fresh, h_ports, h_herds, h_io, h_flt, h_fw, h_nv]

@[simp] theorem pick_adapterStep (m : List Area) (s : State) (p : PortId) (g : HostCw) (h_fresh : .fresh ∈ m)
    (h_ports : .ports ∈ m) (h_herds : .herds ∈ m) (h_io : .io ∈ m) (h_flt : .flt ∈ m) (h_fw : .fw ∈ m)
    (h_nv : .nv ∈ m) :
    pick m (adapterStep s p g) = pick m s := by
  simp [adapterStep, h_fresh, h_ports, h_herds, h_io, h_flt, h_fw, h_nv]

@[simp] theorem pick_deliver (m : List Area) (s : State) (p : PortId) (cw : HostCw) (h_fresh : .fresh ∈ m)
    (h_ports : .ports ∈ m) (h_herds : .herds ∈ m) (h_io : .io ∈ m) (h_flt : .flt ∈ m) (h_fw : .fw ∈ m)
    (h_nv : .nv ∈ m) :
    pick m (deliver s p cw) = pick m s := by
  unfold deliver
  repeat'
    first
    | (simp [h_fresh, h_ports, h_herds, h_io, h_flt, h_fw, h_nv]; done)
    | split

@[simp] theorem pick_gapOut (m : List Area) (s : State) (p : PortId) (h_fresh : .fresh ∈ m) (h_ports : .ports ∈ m)
    (h_herds : .herds ∈ m) (h_io : .io ∈ m) (h_flt : .flt ∈ m) (h_fw : .fw ∈ m) (h_nv : .nv ∈ m) :
    pick m (gapOut s p) = pick m s := by simp [gapOut, h_fresh, h_ports, h_herds, h_io, h_flt, h_fw, h_nv]

@[simp] theorem pick_loopBack (m : List Area) (s : State) (p : PortId) (cw : HostCw) (h_ports : .ports ∈ m) :
    pick m (loopBack s p cw) = pick m s := by simp [loopBack, h_ports]

@[simp] theorem pick_frameSlot (m : List Area) (s : State) (p : PortId) (shares : Quad (List Bool)) (slot : RxSlot)
    (h_fresh : .fresh ∈ m) (h_rails : .rails ∈ m) (h_dies : .dies ∈ m) (h_store : .store ∈ m) (h_ports : .ports ∈ m)
    (h_herds : .herds ∈ m) (h_io : .io ∈ m) (h_waits : .waits ∈ m) (h_flt : .flt ∈ m) (h_fw : .fw ∈ m)
    (h_nv : .nv ∈ m) :
    pick m (frameSlot s p shares slot) = pick m s := by
  unfold frameSlot
  simp only []
  repeat'
    first
    | (simp [h_fresh, h_rails, h_dies, h_store, h_ports, h_herds, h_io, h_waits, h_flt, h_fw, h_nv]; done)
    | split

@[simp] theorem pick_rxStretch (m : List Area) (s : State) (p : PortId) (ph : RxPhase) (slot : RxSlot)
    (h_fresh : .fresh ∈ m) (h_ports : .ports ∈ m) (h_herds : .herds ∈ m) :
    pick m ((rxStretch s p ph slot).1) = pick m s := by simp [rxStretch, h_fresh, h_ports, h_herds]

@[simp] theorem pick_rxShares (m : List Area) (s : State) (p : PortId) (l : Quad (List Dec)) (h_ports : .ports ∈ m) :
    pick m ((rxShares s p l).1) = pick m s := by simp [rxShares, h_ports]

@[simp] theorem pick_execLineSlotReceived (m : List Area) (p : PortId) (slot : RxSlot) (s : State)
    (h_fresh : .fresh ∈ m) (h_rails : .rails ∈ m) (h_dies : .dies ∈ m) (h_store : .store ∈ m) (h_ports : .ports ∈ m)
    (h_herds : .herds ∈ m) (h_io : .io ∈ m) (h_waits : .waits ∈ m) (h_flt : .flt ∈ m) (h_fw : .fw ∈ m)
    (h_nv : .nv ∈ m) :
    pickO m (execLineSlotReceived p slot s) = some (pick m s) := by
  unfold execLineSlotReceived
  simp only []
  repeat'
    first
    | (simp [h_fresh, h_rails, h_dies, h_store, h_ports, h_herds, h_io, h_waits, h_flt, h_fw, h_nv]; done)
    | split

@[simp] theorem pick_execHostCodewordReceived (m : List Area) (p : PortId) (cw : HostCw) (s : State)
    (h_ports : .ports ∈ m) (h_herds : .herds ∈ m) (h_io : .io ∈ m) (h_flt : .flt ∈ m) (h_fw : .fw ∈ m)
    (h_nv : .nv ∈ m) :
    pickO m (execHostCodewordReceived p cw s) = some (pick m s) := by
  simp [execHostCodewordReceived, h_ports, h_herds, h_io, h_flt, h_fw, h_nv]

@[simp] theorem pick_serviceSlot (m : List Area) (s : State) (p : PortId) (h_ports : .ports ∈ m)
    (h_herds : .herds ∈ m) (h_io : .io ∈ m) (h_flt : .flt ∈ m) (h_fw : .fw ∈ m) (h_nv : .nv ∈ m) :
    pick m ((serviceSlot s p).1) = pick m s := by
  unfold serviceSlot
  simp only []
  repeat'
    first
    | (simp [h_ports, h_herds, h_io, h_flt, h_fw, h_nv]; done)
    | split

@[simp] theorem pick_gapStep (m : List Area) (s : State) (p : PortId) (k : TxKind) (h_fresh : .fresh ∈ m)
    (h_ports : .ports ∈ m) :
    pick m (gapStep s p k) = pick m s := by simp [gapStep, h_fresh, h_ports]

@[simp] theorem pick_slotContent (m : List Area) (s : State) (p : PortId) (h_ports : .ports ∈ m)
    (h_herds : .herds ∈ m) (h_io : .io ∈ m) (h_flt : .flt ∈ m) (h_fw : .fw ∈ m) (h_nv : .nv ∈ m) :
    pick m ((slotContent s p).1) = pick m s := by
  unfold slotContent
  simp only []
  repeat'
    first
    | (simp [h_ports, h_herds, h_io, h_flt, h_fw, h_nv]; done)
    | split

@[simp] theorem pick_slotSent (m : List Area) (s : State) (p : PortId) (k : TxKind) (h_fresh : .fresh ∈ m)
    (h_rails : .rails ∈ m) (h_dies : .dies ∈ m) (h_ports : .ports ∈ m) (h_herds : .herds ∈ m) (h_io : .io ∈ m)
    (h_waits : .waits ∈ m) :
    pick m (slotSent s p k) = pick m s := by
  simp [slotSent, h_fresh, h_rails, h_dies, h_ports, h_herds, h_io, h_waits]

@[simp] theorem pick_driveLine (m : List Area) (s : State) (p : PortId) (codes : Quad (List Int))
    (h_fresh : .fresh ∈ m) (h_ports : .ports ∈ m) (h_herds : .herds ∈ m) (h_io : .io ∈ m) :
    pick m (driveLine s p codes) = pick m s := by simp [driveLine, h_fresh, h_ports, h_herds, h_io]

@[simp] theorem pick_sendTraining (m : List Area) (s : State) (p : PortId) (word : BitVec 32) (left : Nat)
    (h_fresh : .fresh ∈ m) (h_ports : .ports ∈ m) (h_herds : .herds ∈ m) (h_io : .io ∈ m) :
    pick m (sendTraining s p word left) = pick m s := by simp [sendTraining, h_fresh, h_ports, h_herds, h_io]

@[simp] theorem pick_quietSlot (m : List Area) (s : State) (p : PortId) (h_fresh : .fresh ∈ m)
    (h_ports : .ports ∈ m) (h_herds : .herds ∈ m) (h_io : .io ∈ m) (h_flt : .flt ∈ m) (h_fw : .fw ∈ m)
    (h_nv : .nv ∈ m) :
    pick m (quietSlot s p) = pick m s := by simp [quietSlot, h_fresh, h_ports, h_herds, h_io, h_flt, h_fw, h_nv]

@[simp] theorem pick_sendFrame (m : List Area) (s : State) (p : PortId) (h_fresh : .fresh ∈ m)
    (h_rails : .rails ∈ m) (h_dies : .dies ∈ m) (h_ports : .ports ∈ m) (h_herds : .herds ∈ m) (h_io : .io ∈ m)
    (h_waits : .waits ∈ m) (h_flt : .flt ∈ m) (h_fw : .fw ∈ m) (h_nv : .nv ∈ m) :
    pick m (sendFrame s p) = pick m s := by
  simp [sendFrame, h_fresh, h_rails, h_dies, h_ports, h_herds, h_io, h_waits, h_flt, h_fw, h_nv]

@[simp] theorem pick_turnSlot (m : List Area) (s : State) (p : PortId) (h_ports : .ports ∈ m) (h_herds : .herds ∈ m)
    (h_io : .io ∈ m) (h_flt : .flt ∈ m) (h_fw : .fw ∈ m) (h_nv : .nv ∈ m) :
    pick m (turnSlot s p) = pick m s := by
  unfold turnSlot
  simp only []
  repeat'
    first
    | (simp [h_ports, h_herds, h_io, h_flt, h_fw, h_nv]; done)
    | split

@[simp] theorem pick_execLineSlotTransmit (m : List Area) (p : PortId) (s : State) (h_fresh : .fresh ∈ m)
    (h_rails : .rails ∈ m) (h_dies : .dies ∈ m) (h_ports : .ports ∈ m) (h_herds : .herds ∈ m) (h_io : .io ∈ m)
    (h_waits : .waits ∈ m) (h_flt : .flt ∈ m) (h_fw : .fw ∈ m) (h_nv : .nv ∈ m) :
    pickO m (execLineSlotTransmit p s) = some (pick m s) := by
  unfold execLineSlotTransmit
  simp only []
  repeat'
    first
    | (simp [h_fresh, h_rails, h_dies, h_ports, h_herds, h_io, h_waits, h_flt, h_fw, h_nv]; done)
    | split

/-! ### Adapt -/

@[simp] theorem pick_execBundleSurveyDone (m : List Area) (p : PortId) (pair : PairId) (couplings : List
    (Fin 2048 × Int)) (s : State) (h_ports : .ports ∈ m) :
    pickO m (execBundleSurveyDone p pair couplings s) = some (pick m s) := by
  unfold execBundleSurveyDone
  simp only []
  repeat'
    first
    | (simp [h_ports]; done)
    | split

@[simp] theorem pick_execBundleResurveyExpiry (m : List Area) (p : PortId) (s : State) (h_ports : .ports ∈ m) :
    pickO m (execBundleResurveyExpiry p s) = some (pick m s) := by simp [execBundleResurveyExpiry, h_ports]

@[simp] theorem pick_execAdaptAcqTimeout (m : List Area) (p : PortId) (s : State) (h_ports : .ports ∈ m) :
    pickO m (execAdaptAcqTimeout p s) = some (pick m s) := by simp [execAdaptAcqTimeout, h_ports]

@[simp] theorem pick_execAdaptFineEntry (m : List Area) (p : PortId) (pair : PairId) (s : State)
    (h_ports : .ports ∈ m) :
    pickO m (execAdaptFineEntry p pair s) = some (pick m s) := by simp [execAdaptFineEntry, h_ports]

@[simp] theorem pick_execWanderSnapshot (m : List Area) (p : PortId) (s : State) (h_ports : .ports ∈ m) :
    pickO m (execWanderSnapshot p s) = some (pick m s) := by simp [execWanderSnapshot, h_ports]

@[simp] theorem pick_execWanderCheck (m : List Area) (p : PortId) (s : State) (h_ports : .ports ∈ m)
    (h_io : .io ∈ m) :
    pickO m (execWanderCheck p s) = some (pick m s) := by
  unfold execWanderCheck
  simp only []
  repeat'
    first
    | (simp [h_ports, h_io]; done)
    | split

/-! ### Bus -/

@[simp] theorem pick_touch (m : List Area) (s : State) (h_pwr : .pwr ∈ m) (h_io : .io ∈ m) :
    pick m (touch s) = pick m s := by simp [touch, h_pwr, h_io]

@[simp] theorem pick_funcReset (m : List Area) (s : State) (h_regs : .regs ∈ m) (h_latches : .latches ∈ m)
    (h_heldLow : .heldLow ∈ m) (h_io : .io ∈ m) :
    pick m (funcReset s) = pick m s := by simp [funcReset, h_regs, h_latches, h_heldLow, h_io]

@[simp] theorem pick_sendPending (m : List Area) (s : State) (v : Nat) (h_io : .io ∈ m) :
    pick m (sendPending s v) = pick m s := by simp [sendPending, h_io]

@[simp] theorem pick_sendAllPending (m : List Area) (s : State) (h_io : .io ∈ m) :
    pick m (sendAllPending s) = pick m s := by simp [sendAllPending, h_io]

@[simp] theorem pick_accessErr (m : List Area) (s : State) (off : Nat) (write : Bool) (cause : Nat)
    (h_access : .access ∈ m) (h_io : .io ∈ m) :
    pick m (accessErr s off write cause) = pick m s := by unfold accessErr; split <;> simp [h_access, h_io]

@[simp] theorem pick_wakeBegin (m : List Area) (s : State) (src : BitVec 4) (replayed : Bool) (from_ : Fin 5)
    (h_pwr : .pwr ∈ m) :
    pick m (wakeBegin s src replayed from_) = pick m s := by simp [wakeBegin, h_pwr]

@[simp] theorem pick_wakeSource (m : List Area) (s : State) (src : BitVec 4) (h_pwr : .pwr ∈ m) :
    pick m (wakeSource s src) = pick m s := by
  unfold wakeSource
  repeat'
    first
    | (simp [h_pwr]; done)
    | split

@[simp] theorem pick_ringFault (m : List Area) (s : State) (r : RingId) (cause : Nat) (h_io : .io ∈ m) :
    pick m (ringFault s r cause) = pick m s := by simp [ringFault, h_io]

@[simp] theorem pick_completeHead (m : List Area) (s : State) (r : RingId) (d : CmdDesc) (rest : List CmdDesc)
    (status : BitVec 8) (result : BitVec 64) (h_io : .io ∈ m) :
    pick m (completeHead s r d rest status result) = pick m s := by simp [completeHead, h_io]

@[simp] theorem pick_ringError (m : List Area) (s : State) (r : RingId) (cause : Nat) (h_io : .io ∈ m) :
    pick m (ringError s r cause) = pick m s := by
  unfold ringError
  simp only []
  repeat'
    first
    | (simp [h_io]; done)
    | split

@[simp] theorem pick_fetchFrom (m : List Area) (s : State) (r : RingId) (index n : Nat) (h_io : .io ∈ m) :
    pick m (fetchFrom s r index n) = pick m s := by simp [fetchFrom, h_io]

@[simp] theorem pick_doorbellPost (m : List Area) (s : State) (r : RingId) (idx : Nat) (descs : List (List Byte))
    (h_io : .io ∈ m) :
    pick m (doorbellPost s r idx descs) = pick m s := by simp [doorbellPost, h_io]

@[simp] theorem pick_doorbellReturn (m : List Area) (s : State) (r : RingId) (idx : Nat) (arm : Bool)
    (h_io : .io ∈ m) :
    pick m (doorbellReturn s r idx arm) = pick m s := by simp [doorbellReturn, h_io]

@[simp] theorem pick_doorbellAct (m : List Area) (s : State) (r : RingId) (word : BitVec 32) (descs : List
    (List Byte)) (h_pwr : .pwr ∈ m) (h_io : .io ∈ m) :
    pick m (doorbellAct s r word descs) = pick m s := by
  unfold doorbellAct
  simp only []
  repeat'
    first
    | (simp [h_pwr, h_io]; done)
    | split

@[simp] theorem pick_doorbellLatch (m : List Area) (s : State) (r : RingId) (word : BitVec 32) (descs : List
    (List Byte)) (h_io : .io ∈ m) :
    pick m (doorbellLatch s r word descs) = pick m s := by simp [doorbellLatch, h_io]

@[simp] theorem pick_actLatched (m : List Area) (s : State) (h_pwr : .pwr ∈ m) (h_io : .io ∈ m) :
    pick m (actLatched s) = pick m s := by simp [actLatched, h_pwr, h_io]

@[simp] theorem pick_resumeHost (m : List Area) (s : State) (h_pwr : .pwr ∈ m) (h_io : .io ∈ m) :
    pick m (resumeHost s) = pick m s := by simp [resumeHost, h_pwr, h_io]

/-! ### Host -/

@[simp] theorem pick_doorbellOne (m : List Area) (work : List Handed) (s : State) (e : RingId × BitVec 32)
    (h_pwr : .pwr ∈ m) (h_io : .io ∈ m) :
    pick m (doorbellOne work s e) = pick m s := by simp [doorbellOne, h_pwr, h_io]

@[simp] theorem pick_execDoorbellWrite (m : List Area) (addr : BitVec 18) (bytes : List Byte) (work : List Handed)
    (s : State) (h_heldLow : .heldLow ∈ m) (h_pwr : .pwr ∈ m) (h_io : .io ∈ m) :
    pickO m (execDoorbellWrite addr bytes work s) = some (pick m s) := by
  simp [execDoorbellWrite, h_heldLow, h_pwr, h_io]

@[simp] theorem pick_reserveEntry (m : List Area) (s : State) (r : RingId) (h_io : .io ∈ m) :
    pick m (reserveEntry s r) = pick m s := by simp [reserveEntry, h_io]

@[simp] theorem pick_dispatchHead (m : List Area) (s : State) (r : RingId) (d : CmdDesc) (rest : List CmdDesc)
    (t : Target) (h_herds : .herds ∈ m) (h_io : .io ∈ m) :
    pick m (dispatchHead s r d rest t) = pick m s := by unfold dispatchHead; split <;> simp [h_herds, h_io]

@[simp] theorem pick_headReady (m : List Area) (s : State) (r : RingId) (h_io : .io ∈ m) :
    pick m (headReady s r) = pick m s := by simp [headReady, h_io]

@[simp] theorem pick_dispatchStep (m : List Area) (s : State) (r : RingId) (h_herds : .herds ∈ m) (h_io : .io ∈ m) :
    pick m (dispatchStep s r) = pick m s := by
  unfold dispatchStep
  simp only []
  repeat'
    first
    | (simp [h_herds, h_io]; done)
    | split

@[simp] theorem pick_execRingDispatch (m : List Area) (r : RingId) (s : State) (h_herds : .herds ∈ m)
    (h_io : .io ∈ m) :
    pickO m (execRingDispatch r s) = some (pick m s) := by simp [execRingDispatch, h_herds, h_io]

@[simp] theorem pick_enableRing (m : List Area) (s : State) (r : RingId) (h_io : .io ∈ m) (h_flt : .flt ∈ m) :
    pick m (enableRing s r) = pick m s := by unfold enableRing; split <;> simp [h_io, h_flt]

@[simp] theorem pick_supersedeAll (m : List Area) (r : RingId) (x1 : List CmdDesc) (x2 : State) (h_io : .io ∈ m) :
    pick m (supersedeAll r x1 x2) = pick m x2 := by
  induction x1 generalizing x2 with
  | nil => rfl
  | cons d l ih => simp [supersedeAll, ih, h_io]

@[simp] theorem pick_returnAll (m : List Area) (kind : BitVec 3) (r : RingId) (x2 : List DataDesc) (x3 : State)
    (h_io : .io ∈ m) :
    pick m (returnAll kind r x2 x3) = pick m x3 := by
  induction x2 generalizing x3 with
  | nil => rfl
  | cons d l ih => simp [returnAll, ih, h_io]

@[simp] theorem pick_disableRing (m : List Area) (s : State) (r : RingId) (h_io : .io ∈ m) :
    pick m (disableRing s r) = pick m s := by
  unfold disableRing
  simp only []
  repeat'
    first
    | (simp [h_io]; done)
    | split

@[simp] theorem pick_execRingEnable (m : List Area) (r : RingId) (s : State) (h_heldLow : .heldLow ∈ m)
    (h_pwr : .pwr ∈ m) (h_io : .io ∈ m) (h_flt : .flt ∈ m) :
    pickO m (execRingEnable r s) = some (pick m s) := by simp [execRingEnable, h_heldLow, h_pwr, h_io, h_flt]

@[simp] theorem pick_execRingDisable (m : List Area) (r : RingId) (s : State) (h_heldLow : .heldLow ∈ m)
    (h_pwr : .pwr ∈ m) (h_io : .io ∈ m) :
    pickO m (execRingDisable r s) = some (pick m s) := by simp [execRingDisable, h_heldLow, h_pwr, h_io]

@[simp] theorem pick_execRingDrainDone (m : List Area) (r : RingId) (s : State) (h_io : .io ∈ m) :
    pickO m (execRingDrainDone r s) = some (pick m s) := by simp [execRingDrainDone, h_io]

@[simp] theorem pick_execRingDmaFault (m : List Area) (r : RingId) (s : State) (h_ports : .ports ∈ m)
    (h_herds : .herds ∈ m) (h_io : .io ∈ m) (h_flt : .flt ∈ m) (h_fw : .fw ∈ m) (h_nv : .nv ∈ m) :
    pickO m (execRingDmaFault r s) = some (pick m s) := by
  simp [execRingDmaFault, h_ports, h_herds, h_io, h_flt, h_fw, h_nv]

@[simp] theorem pick_snapFail (m : List Area) (s : State) (n : Snap) (h_herds : .herds ∈ m) (h_io : .io ∈ m) :
    pick m (snapFail s n) = pick m s := by simp [snapFail, h_herds, h_io]

@[simp] theorem pick_execVectorHoldoffExpiry (m : List Area) (v : Fin 2048) (s : State) (h_io : .io ∈ m) :
    pickO m (execVectorHoldoffExpiry v s) = some (pick m s) := by simp [execVectorHoldoffExpiry, h_io]

@[simp] theorem pick_execMsixMaskChange (m : List Area) (m_ : MsixChange) (s : State) (h_pwr : .pwr ∈ m)
    (h_io : .io ∈ m) :
    pickO m (execMsixMaskChange m_ s) = some (pick m s) := by
  unfold execMsixMaskChange
  repeat'
    first
    | (simp [h_pwr, h_io]; done)
    | split

@[simp] theorem pick_execFunctionLevelReset (m : List Area) (s : State) (h_regs : .regs ∈ m)
    (h_latches : .latches ∈ m) (h_heldLow : .heldLow ∈ m) (h_pwr : .pwr ∈ m) (h_io : .io ∈ m) :
    pickO m (execFunctionLevelReset s) = some (pick m s) := by
  simp [execFunctionLevelReset, h_regs, h_latches, h_heldLow, h_pwr, h_io]

@[simp] theorem pick_execPcieHotReset (m : List Area) (s : State) (h_regs : .regs ∈ m) (h_latches : .latches ∈ m)
    (h_heldLow : .heldLow ∈ m) (h_io : .io ∈ m) :
    pickO m (execPcieHotReset s) = some (pick m s) := by simp [execPcieHotReset, h_regs, h_latches, h_heldLow, h_io]

@[simp] theorem pick_execBusMasterEnableChange (m : List Area) (on : Bool) (s : State) (h_pwr : .pwr ∈ m)
    (h_io : .io ∈ m) :
    pickO m (execBusMasterEnableChange on s) = some (pick m s) := by simp [execBusMasterEnableChange, h_pwr, h_io]

/-! ### Events -/

@[simp] theorem pick_deliverFrom (m : List Area) (s : State) (x1 : List Event) (x2 : List RingId) (x3 : Nat)
    (h_io : .io ∈ m) :
    pick m ((deliverFrom s x1 x2 x3).st) = pick m s := by
  induction x1 generalizing s x2 x3 with
  | nil => rfl
  | cons e l ih =>
    unfold deliverFrom
    split
    · simp [ih, h_io]
    · split <;> simp [ih, h_io]

@[simp] theorem pick_setInHub (m : List Area) (s : State) (h : HerdId) (l : List Event) (h_io : .io ∈ m) :
    pick m (setInHub s h l) = pick m s := by simp [setInHub, h_io]

@[simp] theorem pick_deliverHerd (m : List Area) (s : State) (h : HerdId) (n : Nat) (h_io : .io ∈ m) :
    pick m ((deliverHerd s h n).1) = pick m s := by
  unfold deliverHerd
  repeat'
    first
    | (simp [h_io]; done)
    | split

@[simp] theorem pick_deliverHub (m : List Area) (s : State) (n : Nat) (h_io : .io ∈ m) :
    pick m (deliverHub s n) = pick m s := by simp [deliverHub, h_io]

@[simp] theorem pick_drainHerd (m : List Area) (s : State) (h : HerdId) (h_io : .io ∈ m) :
    pick m ((drainHerd s h).1) = pick m s := by simp [drainHerd, h_io]

@[simp] theorem pick_execEventDelivery (m : List Area) (h : Option HerdId) (s : State) (h_io : .io ∈ m) :
    pickO m (execEventDelivery h s) = some (pick m s) := by
  unfold execEventDelivery
  repeat'
    first
    | (simp [h_io]; done)
    | split

@[simp] theorem pick_execEventCoalesceExpiry (m : List Area) (source : Fin 8448) (kind : Fin 4) (s : State)
    (h_io : .io ∈ m) :
    pickO m (execEventCoalesceExpiry source kind s) = some (pick m s) := by
  unfold execEventCoalesceExpiry
  simp only []
  repeat'
    first
    | (simp [h_io]; done)
    | split

@[simp] theorem pick_keepKnown (m : List Area) (s : State) (d : DieId) (h_io : .io ∈ m) :
    pick m (keepKnown s d) = pick m s := by simp [keepKnown, h_io]

@[simp] theorem pick_splitBuf (m : List Area) (s : State) (h : HerdId) (h_fresh : .fresh ∈ m) (h_io : .io ∈ m) :
    pick m (splitBuf s h) = pick m s := by simp [splitBuf, h_fresh, h_io]

@[simp] theorem pick_d2dLost (m : List Area) (s : State) (d : DieId) (h_fresh : .fresh ∈ m) (h_dies : .dies ∈ m)
    (h_ports : .ports ∈ m) (h_herds : .herds ∈ m) (h_io : .io ∈ m) (h_flt : .flt ∈ m) (h_fw : .fw ∈ m)
    (h_nv : .nv ∈ m) :
    pick m (d2dLost s d) = pick m s := by simp [d2dLost, h_fresh, h_dies, h_ports, h_herds, h_io, h_flt, h_fw, h_nv]

@[simp] theorem pick_d2dBack (m : List Area) (s : State) (d : DieId) (h_dies : .dies ∈ m) (h_io : .io ∈ m)
    (h_flt : .flt ∈ m) :
    pick m (d2dBack s d) = pick m s := by
  unfold d2dBack
  simp only [pick_clearCause, pick_postGlobal, h_dies, h_io, h_flt]
  rw [pick_foldl_fst _ _ _ _ (fun s h => by simp [h_dies, h_io, h_flt])]
  simp [h_dies, h_io, h_flt]

@[simp] theorem pick_execD2dTrainingLost (m : List Area) (d : DieId) (s : State) (h_fresh : .fresh ∈ m)
    (h_dies : .dies ∈ m) (h_ports : .ports ∈ m) (h_herds : .herds ∈ m) (h_io : .io ∈ m) (h_flt : .flt ∈ m)
    (h_fw : .fw ∈ m) (h_nv : .nv ∈ m) :
    pickO m (execD2dTrainingLost d s) = some (pick m s) := by
  simp [execD2dTrainingLost, h_fresh, h_dies, h_ports, h_herds, h_io, h_flt, h_fw, h_nv]

@[simp] theorem pick_execD2dRetrainAttempt (m : List Area) (d : DieId) (ok : Bool) (s : State) (h_dies : .dies ∈ m)
    (h_io : .io ∈ m) (h_flt : .flt ∈ m) :
    pickO m (execD2dRetrainAttempt d ok s) = some (pick m s) := by simp [execD2dRetrainAttempt, h_dies, h_io, h_flt]

@[simp] theorem pick_execHerdTimeCorrection (m : List Area) (h : HerdId) (s : State) (h_fresh : .fresh ∈ m)
    (h_herds : .herds ∈ m) :
    pickO m (execHerdTimeCorrection h s) = some (pick m s) := by simp [execHerdTimeCorrection, h_fresh, h_herds]

/-! ### Clocks -/

@[simp] theorem pick_hubToPll (m : List Area) (s : State) (h_clk : .clk ∈ m) :
    pick m (hubToPll s) = pick m s := by simp [hubToPll, h_clk]

@[simp] theorem pick_lanesIdle (m : List Area) (s : State) (h : HerdId) (h_ports : .ports ∈ m) :
    pick m (lanesIdle s h) = pick m s := by simp [lanesIdle, h_ports]

@[simp] theorem pick_lanesStart (m : List Area) (s : State) (h : HerdId) (h_ports : .ports ∈ m) :
    pick m (lanesStart s h) = pick m s := by simp [lanesStart, h_ports]

@[simp] theorem pick_pllLossEffect (m : List Area) (s : State) (k : PllKind) (h_fresh : .fresh ∈ m)
    (h_regs : .regs ∈ m) (h_latches : .latches ∈ m) (h_heldLow : .heldLow ∈ m) (h_clk : .clk ∈ m)
    (h_dies : .dies ∈ m) (h_ddr : .ddr ∈ m) (h_store : .store ∈ m) (h_ports : .ports ∈ m) (h_herds : .herds ∈ m)
    (h_io : .io ∈ m) (h_waits : .waits ∈ m) (h_flt : .flt ∈ m) (h_fw : .fw ∈ m) (h_nv : .nv ∈ m) :
    pick m (pllLossEffect s k) = pick m s := by
  unfold pllLossEffect; split <;> simp [h_fresh, h_regs, h_latches, h_heldLow, h_clk, h_dies, h_ddr, h_store,
      h_ports, h_herds, h_io, h_waits, h_flt, h_fw, h_nv]

@[simp] theorem pick_pllGainEffect (m : List Area) (s : State) (k : PllKind) (h_clk : .clk ∈ m)
    (h_ports : .ports ∈ m) :
    pick m (pllGainEffect s k) = pick m s := by unfold pllGainEffect; split <;> simp [h_clk, h_ports]

@[simp] theorem pick_pllBad (m : List Area) (s : State) (k : PllKind) (h_fresh : .fresh ∈ m) (h_regs : .regs ∈ m)
    (h_latches : .latches ∈ m) (h_heldLow : .heldLow ∈ m) (h_clk : .clk ∈ m) (h_dies : .dies ∈ m) (h_ddr : .ddr ∈ m)
    (h_store : .store ∈ m) (h_ports : .ports ∈ m) (h_herds : .herds ∈ m) (h_io : .io ∈ m) (h_waits : .waits ∈ m)
    (h_flt : .flt ∈ m) (h_fw : .fw ∈ m) (h_nv : .nv ∈ m) :
    pick m (pllBad s k) = pick m s := by
  simp [pllBad, h_fresh, h_regs, h_latches, h_heldLow, h_clk, h_dies, h_ddr, h_store, h_ports, h_herds, h_io,
      h_waits, h_flt, h_fw, h_nv]

@[simp] theorem pick_pllJudged (m : List Area) (s : State) (k : PllKind) (h_clk : .clk ∈ m) (h_ports : .ports ∈ m)
    (h_io : .io ∈ m) (h_flt : .flt ∈ m) :
    pick m (pllJudged s k) = pick m s := by simp [pllJudged, h_clk, h_ports, h_io, h_flt]

@[simp] theorem pick_pllGood (m : List Area) (s : State) (k : PllKind) (h_clk : .clk ∈ m) (h_ports : .ports ∈ m)
    (h_io : .io ∈ m) (h_flt : .flt ∈ m) :
    pick m (pllGood s k) = pick m s := by simp [pllGood, h_clk, h_ports, h_io, h_flt]

@[simp] theorem pick_execPllLockWindow (m : List Area) (u : PllId) (inWindow : Bool) (s : State)
    (h_fresh : .fresh ∈ m) (h_regs : .regs ∈ m) (h_latches : .latches ∈ m) (h_heldLow : .heldLow ∈ m)
    (h_clk : .clk ∈ m) (h_dies : .dies ∈ m) (h_ddr : .ddr ∈ m) (h_store : .store ∈ m) (h_ports : .ports ∈ m)
    (h_herds : .herds ∈ m) (h_io : .io ∈ m) (h_waits : .waits ∈ m) (h_flt : .flt ∈ m) (h_fw : .fw ∈ m)
    (h_nv : .nv ∈ m) :
    pickO m (execPllLockWindow u inWindow s) = some (pick m s) := by
  unfold execPllLockWindow; split <;> simp [h_fresh, h_regs, h_latches, h_heldLow, h_clk, h_dies, h_ddr, h_store,
      h_ports, h_herds, h_io, h_waits, h_flt, h_fw, h_nv]

@[simp] theorem pick_execPllNoEdge (m : List Area) (u : PllId) (s : State) (h_fresh : .fresh ∈ m)
    (h_regs : .regs ∈ m) (h_latches : .latches ∈ m) (h_heldLow : .heldLow ∈ m) (h_clk : .clk ∈ m)
    (h_dies : .dies ∈ m) (h_ddr : .ddr ∈ m) (h_store : .store ∈ m) (h_ports : .ports ∈ m) (h_herds : .herds ∈ m)
    (h_io : .io ∈ m) (h_waits : .waits ∈ m) (h_flt : .flt ∈ m) (h_fw : .fw ∈ m) (h_nv : .nv ∈ m) :
    pickO m (execPllNoEdge u s) = some (pick m s) := by
  unfold execPllNoEdge; split <;> simp [h_fresh, h_regs, h_latches, h_heldLow, h_clk, h_dies, h_ddr, h_store,
      h_ports, h_herds, h_io, h_waits, h_flt, h_fw, h_nv]

@[simp] theorem pick_execPllReacquire (m : List Area) (u : PllId) (s : State) (h_clk : .clk ∈ m) :
    pickO m (execPllReacquire u s) = some (pick m s) := by
  unfold execPllReacquire
  repeat'
    first
    | (simp [h_clk]; done)
    | split

@[simp] theorem pick_switchForced (m : List Area) (s : State) (d : Domain) (onPll : Bool) (h_fresh : .fresh ∈ m)
    (h_clk : .clk ∈ m) (h_ports : .ports ∈ m) (h_herds : .herds ∈ m) (h_io : .io ∈ m) (h_flt : .flt ∈ m)
    (h_fw : .fw ∈ m) (h_nv : .nv ∈ m) :
    pick m (switchForced s d onPll) = pick m s := by
  simp [switchForced, h_fresh, h_clk, h_ports, h_herds, h_io, h_flt, h_fw, h_nv]

@[simp] theorem pick_execDomainSwitch (m : List Area) (d : Domain) (toPll : Bool) (s : State) (h_fresh : .fresh ∈ m)
    (h_clk : .clk ∈ m) (h_ports : .ports ∈ m) (h_herds : .herds ∈ m) (h_io : .io ∈ m) (h_flt : .flt ∈ m)
    (h_fw : .fw ∈ m) (h_nv : .nv ∈ m) :
    pickO m (execDomainSwitch d toPll s) = some (pick m s) := by
  simp [execDomainSwitch, h_fresh, h_clk, h_ports, h_herds, h_io, h_flt, h_fw, h_nv]

@[simp] theorem pick_execSwitchEdgeTimeout (m : List Area) (d : Domain) (s : State) (h_fresh : .fresh ∈ m)
    (h_clk : .clk ∈ m) (h_ports : .ports ∈ m) (h_herds : .herds ∈ m) (h_io : .io ∈ m) (h_flt : .flt ∈ m)
    (h_fw : .fw ∈ m) (h_nv : .nv ∈ m) :
    pickO m (execSwitchEdgeTimeout d s) = some (pick m s) := by
  unfold execSwitchEdgeTimeout
  repeat'
    first
    | (simp [h_fresh, h_clk, h_ports, h_herds, h_io, h_flt, h_fw, h_nv]; done)
    | split

@[simp] theorem pick_stopDomain (m : List Area) (s : State) (d : Domain) (h_clk : .clk ∈ m) :
    pick m (stopDomain s d) = pick m s := by simp [stopDomain, h_clk]

@[simp] theorem pick_execRefclkMissing (m : List Area) (s : State) (h_regs : .regs ∈ m) (h_latches : .latches ∈ m)
    (h_heldLow : .heldLow ∈ m) (h_clk : .clk ∈ m) (h_ddr : .ddr ∈ m) (h_ports : .ports ∈ m) (h_herds : .herds ∈ m)
    (h_io : .io ∈ m) (h_waits : .waits ∈ m) (h_flt : .flt ∈ m) :
    pickO m (execRefclkMissing s) = some (pick m s) := by
  simp [execRefclkMissing, h_regs, h_latches, h_heldLow, h_clk, h_ddr, h_ports, h_herds, h_io, h_waits, h_flt]

@[simp] theorem pick_toBypass (m : List Area) (s : State) (d : Domain) (h_clk : .clk ∈ m) (h_herds : .herds ∈ m) :
    pick m (toBypass s d) = pick m s := by simp [toBypass, h_clk, h_herds]

@[simp] theorem pick_execRefclkReturn (m : List Area) (s : State) (h_time : .time ∈ m) (h_regs : .regs ∈ m)
    (h_latches : .latches ∈ m) (h_heldLow : .heldLow ∈ m) (h_access : .access ∈ m) (h_clk : .clk ∈ m)
    (h_pwr : .pwr ∈ m) (h_dies : .dies ∈ m) (h_ddr : .ddr ∈ m) (h_store : .store ∈ m) (h_ports : .ports ∈ m)
    (h_herds : .herds ∈ m) (h_io : .io ∈ m) (h_waits : .waits ∈ m) (h_flt : .flt ∈ m) (h_fw : .fw ∈ m)
    (h_sec : .sec ∈ m) (h_nv : .nv ∈ m) :
    pickO m (execRefclkReturn s) = some (pick m s) := by
  simp [execRefclkReturn, h_time, h_regs, h_latches, h_heldLow, h_access, h_clk, h_pwr, h_dies, h_ddr, h_store,
      h_ports, h_herds, h_io, h_waits, h_flt, h_fw, h_sec, h_nv]

@[simp] theorem pick_railFault (m : List Area) (s : State) (r : RailId) (mv : Nat) (h_ports : .ports ∈ m)
    (h_herds : .herds ∈ m) (h_io : .io ∈ m) (h_waits : .waits ∈ m) (h_flt : .flt ∈ m) (h_fw : .fw ∈ m)
    (h_nv : .nv ∈ m) :
    pick m (railFault s r mv) = pick m s := by
  unfold railFault
  simp only []
  repeat'
    first
    | (simp [h_ports, h_herds, h_io, h_waits, h_flt, h_fw, h_nv]; done)
    | split

@[simp] theorem pick_supplyEvent (m : List Area) (s : State) (r : RailId) (left : Bool) (mv : BitVec 16)
    (h_io : .io ∈ m) :
    pick m (supplyEvent s r left mv) = pick m s := by simp [supplyEvent, h_io]

@[simp] theorem pick_execSupplyWindowExit (m : List Area) (r : RailId) (mv : BitVec 16) (s : State)
    (h_rails : .rails ∈ m) (h_ports : .ports ∈ m) (h_herds : .herds ∈ m) (h_io : .io ∈ m) (h_waits : .waits ∈ m)
    (h_flt : .flt ∈ m) (h_fw : .fw ∈ m) (h_nv : .nv ∈ m) :
    pickO m (execSupplyWindowExit r mv s) = some (pick m s) := by
  simp [execSupplyWindowExit, h_rails, h_ports, h_herds, h_io, h_waits, h_flt, h_fw, h_nv]

@[simp] theorem pick_execSupplyWindowReentry (m : List Area) (r : RailId) (mv : BitVec 16) (s : State)
    (h_rails : .rails ∈ m) (h_io : .io ∈ m) (h_flt : .flt ∈ m) :
    pickO m (execSupplyWindowReentry r mv s) = some (pick m s) := by
  simp [execSupplyWindowReentry, h_rails, h_io, h_flt]

@[simp] theorem pick_execAvsStatusAlert (m : List Area) (r : RailId) (regFault : Bool) (s : State)
    (h_fresh : .fresh ∈ m) (h_ports : .ports ∈ m) (h_herds : .herds ∈ m) (h_io : .io ∈ m) (h_waits : .waits ∈ m)
    (h_flt : .flt ∈ m) (h_fw : .fw ∈ m) (h_nv : .nv ∈ m) :
    pickO m (execAvsStatusAlert r regFault s) = some (pick m s) := by
  simp [execAvsStatusAlert, h_fresh, h_ports, h_herds, h_io, h_waits, h_flt, h_fw, h_nv]

/-! ### Restart -/

@[simp] theorem pick_bootHub (m : List Area) (s : State) (h_fresh : .fresh ∈ m) (h_clk : .clk ∈ m)
    (h_rails : .rails ∈ m) (h_ports : .ports ∈ m) (h_io : .io ∈ m) (h_flt : .flt ∈ m) (h_fw : .fw ∈ m)
    (h_sec : .sec ∈ m) :
    pick m (bootHub s) = pick m s := by
  unfold bootHub
  repeat'
    first
    | (simp [h_fresh, h_clk, h_rails, h_ports, h_io, h_flt, h_fw, h_sec]; done)
    | split
    | refine (pick_forEach _ _ _ _ ?_).trans ?_
    | refine (pick_foldl _ _ _ _ ?_).trans ?_
    | intro _ _
    | simp [h_fresh, h_clk, h_rails, h_ports, h_io, h_flt, h_fw, h_sec]

@[simp] theorem pick_bootIdentity (m : List Area) (s : State) (h_sec : .sec ∈ m) :
    pick m (bootIdentity s) = pick m s := by simp [bootIdentity, h_sec]

@[simp] theorem pick_postPasses (m : List Area) (s : State) (h_fresh : .fresh ∈ m) (h_io : .io ∈ m) (h_nv : .nv ∈ m) :
    pick m (postPasses s) = pick m s := by simp [postPasses, h_fresh, h_io, h_nv]

@[simp] theorem pick_ddrTrain (m : List Area) (s : State) (c : ChanId) (h_clk : .clk ∈ m) (h_ddr : .ddr ∈ m)
    (h_ports : .ports ∈ m) (h_io : .io ∈ m) (h_flt : .flt ∈ m) :
    pick m (ddrTrain s c) = pick m s := by simp [ddrTrain, h_clk, h_ddr, h_ports, h_io, h_flt]

@[simp] theorem pick_bootDdr (m : List Area) (s : State) (bad : Option ChanId) (h_clk : .clk ∈ m) (h_ddr : .ddr ∈ m)
    (h_store : .store ∈ m) (h_ports : .ports ∈ m) (h_herds : .herds ∈ m) (h_io : .io ∈ m) (h_waits : .waits ∈ m)
    (h_flt : .flt ∈ m) (h_fw : .fw ∈ m) :
    pick m (bootDdr s bad) = pick m s := by
  simp [bootDdr, h_clk, h_ddr, h_store, h_ports, h_herds, h_io, h_waits, h_flt, h_fw]

@[simp] theorem pick_bootLinks (m : List Area) (s : State) (h_clk : .clk ∈ m) (h_dies : .dies ∈ m)
    (h_ports : .ports ∈ m) (h_io : .io ∈ m) (h_flt : .flt ∈ m) :
    pick m (bootLinks s) = pick m s := by simp [bootLinks, h_clk, h_dies, h_ports, h_io, h_flt]

@[simp] theorem pick_bootHerds (m : List Area) (s : State) (h_herds : .herds ∈ m) :
    pick m (bootHerds s) = pick m s := by simp [bootHerds, h_herds]

@[simp] theorem pick_bootCal (m : List Area) (s : State) (h_dies : .dies ∈ m) (h_io : .io ∈ m) :
    pick m (bootCal s) = pick m s := by simp [bootCal, h_dies, h_io]

@[simp] theorem pick_clocksUp (m : List Area) (s : State) (h_fresh : .fresh ∈ m) (h_clk : .clk ∈ m)
    (h_ports : .ports ∈ m) (h_herds : .herds ∈ m) (h_io : .io ∈ m) (h_flt : .flt ∈ m) :
    pick m (clocksUp s) = pick m s := by simp [clocksUp, h_fresh, h_clk, h_ports, h_herds, h_io, h_flt]

@[simp] theorem pick_bootRun (m : List Area) (s : State) (h_fresh : .fresh ∈ m) (h_clk : .clk ∈ m)
    (h_pwr : .pwr ∈ m) (h_dies : .dies ∈ m) (h_ports : .ports ∈ m) (h_herds : .herds ∈ m) (h_io : .io ∈ m)
    (h_flt : .flt ∈ m) (h_fw : .fw ∈ m) :
    pick m (bootRun s) = pick m s := by
  simp [bootRun, h_fresh, h_clk, h_pwr, h_dies, h_ports, h_herds, h_io, h_flt, h_fw]

@[simp] theorem pick_bootThrough (m : List Area) (s : State) (h_fresh : .fresh ∈ m) (h_clk : .clk ∈ m)
    (h_pwr : .pwr ∈ m) (h_rails : .rails ∈ m) (h_dies : .dies ∈ m) (h_ddr : .ddr ∈ m) (h_store : .store ∈ m)
    (h_ports : .ports ∈ m) (h_herds : .herds ∈ m) (h_io : .io ∈ m) (h_waits : .waits ∈ m) (h_flt : .flt ∈ m)
    (h_fw : .fw ∈ m) (h_sec : .sec ∈ m) :
    pick m (bootThrough s) = pick m s := by
  simp [bootThrough, h_fresh, h_clk, h_pwr, h_rails, h_dies, h_ddr, h_store, h_ports, h_herds, h_io, h_waits, h_flt,
      h_fw, h_sec]

/-! ### Power -/

@[simp] theorem pick_postLevel (m : List Area) (s : State) (d : DieId) (n : Nat) (h_io : .io ∈ m) :
    pick m (postLevel s d n) = pick m s := by simp [postLevel, h_io]

@[simp] theorem pick_levelWaits (m : List Area) (s : State) (d : DieId) (h_herds : .herds ∈ m) (h_io : .io ∈ m)
    (h_waits : .waits ∈ m) :
    pick m (levelWaits s d) = pick m s := by simp [levelWaits, h_herds, h_io, h_waits]

@[simp] theorem pick_applyWaiting (m : List Area) (s : State) (h : HerdId) (h_fresh : .fresh ∈ m) (h_clk : .clk ∈ m)
    (h_rails : .rails ∈ m) (h_dies : .dies ∈ m) (h_ports : .ports ∈ m) (h_herds : .herds ∈ m) (h_io : .io ∈ m)
    (h_waits : .waits ∈ m) :
    pick m (applyWaiting s h) = pick m s := by
  unfold applyWaiting; split <;> simp [h_fresh, h_clk, h_rails, h_dies, h_ports, h_herds, h_io, h_waits]

@[simp] theorem pick_execSequencerStepEnd (m : List Area) (d : DieId) (s : State) (h_fresh : .fresh ∈ m)
    (h_clk : .clk ∈ m) (h_rails : .rails ∈ m) (h_dies : .dies ∈ m) (h_ports : .ports ∈ m) (h_herds : .herds ∈ m)
    (h_io : .io ∈ m) (h_waits : .waits ∈ m) :
    pickO m (execSequencerStepEnd d s) = some (pick m s) := by
  unfold execSequencerStepEnd
  simp only []
  repeat'
    first
    | (simp [h_fresh, h_clk, h_rails, h_dies, h_ports, h_herds, h_io, h_waits]; done)
    | split

@[simp] theorem pick_execPwrLevel (m : List Area) (c : Cmd) (die floor : BitVec 8) (s : State)
    (h_rails : .rails ∈ m) (h_dies : .dies ∈ m) (h_herds : .herds ∈ m) (h_io : .io ∈ m) (h_waits : .waits ∈ m) :
    pickO m (execPwrLevel c die floor s) = some (pick m s) := by
  simp [execPwrLevel, h_rails, h_dies, h_herds, h_io, h_waits]

@[simp] theorem pick_dieTo (m : List Area) (s : State) (d : DieId) (n : Nat) (h_rails : .rails ∈ m)
    (h_dies : .dies ∈ m) (h_io : .io ∈ m) :
    pick m (dieTo s d n) = pick m s := by simp [dieTo, h_rails, h_dies, h_io]

@[simp] theorem pick_portSleep (m : List Area) (s : State) (p : PortId) (h_rails : .rails ∈ m) (h_dies : .dies ∈ m)
    (h_store : .store ∈ m) (h_ports : .ports ∈ m) (h_herds : .herds ∈ m) (h_io : .io ∈ m) (h_waits : .waits ∈ m) :
    pick m (portSleep s p) = pick m s := by
  unfold portSleep
  simp only []
  repeat'
    first
    | (simp [h_rails, h_dies, h_store, h_ports, h_herds, h_io, h_waits]; done)
    | split

@[simp] theorem pick_entryBegin (m : List Area) (s : State) (t : Fin 5) (h_pwr : .pwr ∈ m) (h_rails : .rails ∈ m)
    (h_dies : .dies ∈ m) (h_store : .store ∈ m) (h_ports : .ports ∈ m) (h_herds : .herds ∈ m) (h_io : .io ∈ m)
    (h_waits : .waits ∈ m) :
    pick m (entryBegin s t) = pick m s := by
  simp [entryBegin, h_pwr, h_rails, h_dies, h_store, h_ports, h_herds, h_io, h_waits]

@[simp] theorem pick_powerPoll (m : List Area) (s : State) (h_pwr : .pwr ∈ m) (h_rails : .rails ∈ m)
    (h_dies : .dies ∈ m) (h_store : .store ∈ m) (h_ports : .ports ∈ m) (h_herds : .herds ∈ m) (h_io : .io ∈ m)
    (h_waits : .waits ∈ m) :
    pick m (powerPoll s) = pick m s := by
  unfold powerPoll; split <;> simp [h_pwr, h_rails, h_dies, h_store, h_ports, h_herds, h_io, h_waits]

@[simp] theorem pick_sleepCalled (m : List Area) (s : State) (h_pwr : .pwr ∈ m) (h_rails : .rails ∈ m)
    (h_dies : .dies ∈ m) (h_store : .store ∈ m) (h_ports : .ports ∈ m) (h_herds : .herds ∈ m) (h_io : .io ∈ m)
    (h_waits : .waits ∈ m) :
    pick m (sleepCalled s) = pick m s := by
  simp [sleepCalled, h_pwr, h_rails, h_dies, h_store, h_ports, h_herds, h_io, h_waits]

@[simp] theorem pick_execPwrStateSleep (m : List Area) (c : Cmd) (s : State) (h_pwr : .pwr ∈ m)
    (h_rails : .rails ∈ m) (h_dies : .dies ∈ m) (h_store : .store ∈ m) (h_ports : .ports ∈ m) (h_herds : .herds ∈ m)
    (h_io : .io ∈ m) (h_waits : .waits ∈ m) :
    pickO m (execPwrStateSleep c s) = some (pick m s) := by
  unfold execPwrStateSleep; split <;> simp [h_pwr, h_rails, h_dies, h_store, h_ports, h_herds, h_io, h_waits]

@[simp] theorem pick_execPwrStateDeepSleep (m : List Area) (c : Cmd) (s : State) (h_pwr : .pwr ∈ m)
    (h_rails : .rails ∈ m) (h_dies : .dies ∈ m) (h_store : .store ∈ m) (h_ports : .ports ∈ m) (h_herds : .herds ∈ m)
    (h_io : .io ∈ m) (h_waits : .waits ∈ m) :
    pickO m (execPwrStateDeepSleep c s) = some (pick m s) := by
  unfold execPwrStateDeepSleep; split <;> simp [h_pwr, h_rails, h_dies, h_store, h_ports, h_herds, h_io, h_waits]

@[simp] theorem pick_execPwrStateOff (m : List Area) (c : Cmd) (s : State) (h_pwr : .pwr ∈ m) (h_rails : .rails ∈ m)
    (h_dies : .dies ∈ m) (h_store : .store ∈ m) (h_ports : .ports ∈ m) (h_herds : .herds ∈ m) (h_io : .io ∈ m)
    (h_waits : .waits ∈ m) :
    pickO m (execPwrStateOff c s) = some (pick m s) := by
  unfold execPwrStateOff; split <;> simp [h_pwr, h_rails, h_dies, h_store, h_ports, h_herds, h_io, h_waits]

@[simp] theorem pick_sleepRec (m : List Area) (s : State) (h : HerdId) (h_herds : .herds ∈ m) (h_io : .io ∈ m) :
    pick m (sleepRec s h) = pick m s := by simp [sleepRec, h_herds, h_io]

@[simp] theorem pick_entrySettle (m : List Area) (s : State) (h_ports : .ports ∈ m) (h_herds : .herds ∈ m)
    (h_io : .io ∈ m) (h_nv : .nv ∈ m) :
    pick m (entrySettle s) = pick m s := by simp [entrySettle, h_ports, h_herds, h_io, h_nv]

@[simp] theorem pick_sleepReached (m : List Area) (s : State) (h_clk : .clk ∈ m) (h_pwr : .pwr ∈ m)
    (h_rails : .rails ∈ m) (h_dies : .dies ∈ m) (h_ddr : .ddr ∈ m) (h_herds : .herds ∈ m) (h_io : .io ∈ m) :
    pick m (sleepReached s) = pick m s := by
  simp [sleepReached, h_clk, h_pwr, h_rails, h_dies, h_ddr, h_herds, h_io]

@[simp] theorem pick_cancelSchedules (m : List Area) (s : State) (h_herds : .herds ∈ m) (h_fw : .fw ∈ m) :
    pick m (cancelSchedules s) = pick m s := by unfold cancelSchedules; split <;> simp [h_herds, h_fw]

@[simp] theorem pick_replayWake (m : List Area) (s : State) (t : Fin 5) (h_pwr : .pwr ∈ m) :
    pick m (replayWake s t) = pick m s := by unfold replayWake; split <;> simp [h_pwr]

@[simp] theorem pick_execPowerEntryDone (m : List Area) (s : State) (h_clk : .clk ∈ m) (h_pwr : .pwr ∈ m)
    (h_rails : .rails ∈ m) (h_dies : .dies ∈ m) (h_ddr : .ddr ∈ m) (h_store : .store ∈ m) (h_ports : .ports ∈ m)
    (h_herds : .herds ∈ m) (h_io : .io ∈ m) (h_waits : .waits ∈ m) (h_fw : .fw ∈ m) (h_sec : .sec ∈ m)
    (h_nv : .nv ∈ m) :
    pickO m (execPowerEntryDone s) = some (pick m s) := by
  unfold execPowerEntryDone
  repeat'
    first
    | (simp [h_clk, h_pwr, h_rails, h_dies, h_ddr, h_store, h_ports, h_herds, h_io, h_waits, h_fw, h_sec, h_nv]; done)
    | split

@[simp] theorem pick_execIdleTimerExpiry (m : List Area) (s : State) (h_pwr : .pwr ∈ m) (h_io : .io ∈ m) :
    pickO m (execIdleTimerExpiry s) = some (pick m s) := by simp [execIdleTimerExpiry, h_pwr, h_io]

@[simp] theorem pick_execSleepTimerExpiry (m : List Area) (s : State) (h_pwr : .pwr ∈ m) (h_rails : .rails ∈ m)
    (h_dies : .dies ∈ m) (h_store : .store ∈ m) (h_ports : .ports ∈ m) (h_herds : .herds ∈ m) (h_io : .io ∈ m)
    (h_waits : .waits ∈ m) :
    pickO m (execSleepTimerExpiry s) = some (pick m s) := by
  simp [execSleepTimerExpiry, h_pwr, h_rails, h_dies, h_store, h_ports, h_herds, h_io, h_waits]

@[simp] theorem pick_execDeepTimerExpiry (m : List Area) (s : State) (h_pwr : .pwr ∈ m) (h_rails : .rails ∈ m)
    (h_dies : .dies ∈ m) (h_store : .store ∈ m) (h_ports : .ports ∈ m) (h_herds : .herds ∈ m) (h_io : .io ∈ m)
    (h_waits : .waits ∈ m) :
    pickO m (execDeepTimerExpiry s) = some (pick m s) := by
  simp [execDeepTimerExpiry, h_pwr, h_rails, h_dies, h_store, h_ports, h_herds, h_io, h_waits]

@[simp] theorem pick_hostAccess (m : List Area) (s : State) (a : HostAccess) (h_io : .io ∈ m) :
    pick m (hostAccess s a) = pick m s := by unfold hostAccess; split <;> simp [h_io]

@[simp] theorem pick_execHostActivity (m : List Area) (a : HostAccess) (s : State) (h_pwr : .pwr ∈ m)
    (h_io : .io ∈ m) :
    pickO m (execHostActivity a s) = some (pick m s) := by unfold execHostActivity; split <;> simp [h_pwr, h_io]

@[simp] theorem pick_execWakeNAssert (m : List Area) (s : State) (h_pwr : .pwr ∈ m) :
    pickO m (execWakeNAssert s) = some (pick m s) := by simp [execWakeNAssert, h_pwr]

@[simp] theorem pick_execSidebandAddressMatch (m : List Area) (addr : BitVec 7) (s : State) (h_pwr : .pwr ∈ m)
    (h_io : .io ∈ m) :
    pickO m (execSidebandAddressMatch addr s) = some (pick m s) := by simp [execSidebandAddressMatch, h_pwr, h_io]

@[simp] theorem pick_postWake (m : List Area) (s : State) (h_io : .io ∈ m) :
    pick m (postWake s) = pick m s := by simp [postWake, h_io]

@[simp] theorem pick_portResume (m : List Area) (s : State) (p : PortId) (h_fresh : .fresh ∈ m)
    (h_rails : .rails ∈ m) (h_dies : .dies ∈ m) (h_ports : .ports ∈ m) (h_herds : .herds ∈ m) (h_io : .io ∈ m) :
    pick m (portResume s p) = pick m s := by simp [portResume, h_fresh, h_rails, h_dies, h_ports, h_herds, h_io]

@[simp] theorem pick_sleepRestore (m : List Area) (s : State) (h_fresh : .fresh ∈ m) (h_clk : .clk ∈ m)
    (h_pwr : .pwr ∈ m) (h_rails : .rails ∈ m) (h_dies : .dies ∈ m) (h_ddr : .ddr ∈ m) (h_ports : .ports ∈ m)
    (h_herds : .herds ∈ m) (h_io : .io ∈ m) (h_waits : .waits ∈ m) (h_flt : .flt ∈ m) :
    pick m (sleepRestore s) = pick m s := by
  simp [sleepRestore, h_fresh, h_clk, h_pwr, h_rails, h_dies, h_ddr, h_ports, h_herds, h_io, h_waits, h_flt]

@[simp] theorem pick_dieUp (m : List Area) (s : State) (d : DieId) (h_rails : .rails ∈ m) (h_dies : .dies ∈ m)
    (h_io : .io ∈ m) :
    pick m (dieUp s d) = pick m s := by simp [dieUp, h_rails, h_dies, h_io]

@[simp] theorem pick_bankFaults (m : List Area) (s : State) (mask : BitVec 4) (h_ports : .ports ∈ m)
    (h_herds : .herds ∈ m) (h_io : .io ∈ m) (h_flt : .flt ∈ m) (h_fw : .fw ∈ m) (h_nv : .nv ∈ m) :
    pick m (bankFaults s mask) = pick m s := by simp [bankFaults, h_ports, h_herds, h_io, h_flt, h_fw, h_nv]

@[simp] theorem pick_deepRestore (m : List Area) (s : State) (mask : BitVec 4) (h_time : .time ∈ m)
    (h_fresh : .fresh ∈ m) (h_regs : .regs ∈ m) (h_latches : .latches ∈ m) (h_heldLow : .heldLow ∈ m)
    (h_access : .access ∈ m) (h_clk : .clk ∈ m) (h_pwr : .pwr ∈ m) (h_rails : .rails ∈ m) (h_dies : .dies ∈ m)
    (h_ddr : .ddr ∈ m) (h_store : .store ∈ m) (h_ports : .ports ∈ m) (h_herds : .herds ∈ m) (h_io : .io ∈ m)
    (h_waits : .waits ∈ m) (h_flt : .flt ∈ m) (h_fw : .fw ∈ m) (h_sec : .sec ∈ m) (h_nv : .nv ∈ m) :
    pick m (deepRestore s mask) = pick m s := by
  simp [deepRestore, h_time, h_fresh, h_regs, h_latches, h_heldLow, h_access, h_clk, h_pwr, h_rails, h_dies, h_ddr,
      h_store, h_ports, h_herds, h_io, h_waits, h_flt, h_fw, h_sec, h_nv]

@[simp] theorem pick_lanesHeld (m : List Area) (s : State) (h_ports : .ports ∈ m) :
    pick m (lanesHeld s) = pick m s := by simp [lanesHeld, h_ports]

@[simp] theorem pick_wakeEnds (m : List Area) (s : State) (h_ports : .ports ∈ m) (h_io : .io ∈ m) :
    pick m (wakeEnds s) = pick m s := by simp [wakeEnds, h_ports, h_io]

@[simp] theorem pick_offRestore (m : List Area) (s : State) (h_time : .time ∈ m) (h_fresh : .fresh ∈ m)
    (h_regs : .regs ∈ m) (h_latches : .latches ∈ m) (h_heldLow : .heldLow ∈ m) (h_access : .access ∈ m)
    (h_clk : .clk ∈ m) (h_pwr : .pwr ∈ m) (h_rails : .rails ∈ m) (h_dies : .dies ∈ m) (h_ddr : .ddr ∈ m)
    (h_store : .store ∈ m) (h_ports : .ports ∈ m) (h_herds : .herds ∈ m) (h_io : .io ∈ m) (h_waits : .waits ∈ m)
    (h_flt : .flt ∈ m) (h_fw : .fw ∈ m) (h_sec : .sec ∈ m) (h_nv : .nv ∈ m) :
    pick m (offRestore s) = pick m s := by
  simp [offRestore, h_time, h_fresh, h_regs, h_latches, h_heldLow, h_access, h_clk, h_pwr, h_rails, h_dies, h_ddr,
      h_store, h_ports, h_herds, h_io, h_waits, h_flt, h_fw, h_sec, h_nv]

@[simp] theorem pick_portRelease (m : List Area) (s : State) (p : PortId) (h_fresh : .fresh ∈ m)
    (h_rails : .rails ∈ m) (h_dies : .dies ∈ m) (h_ports : .ports ∈ m) (h_herds : .herds ∈ m) (h_io : .io ∈ m) :
    pick m (portRelease s p) = pick m s := by simp [portRelease, h_fresh, h_rails, h_dies, h_ports, h_herds, h_io]

@[simp] theorem pick_releasePads (m : List Area) (s : State) (h_fresh : .fresh ∈ m) (h_pwr : .pwr ∈ m)
    (h_rails : .rails ∈ m) (h_dies : .dies ∈ m) (h_ports : .ports ∈ m) (h_herds : .herds ∈ m) (h_io : .io ∈ m) :
    pick m (releasePads s) = pick m s := by
  simp [releasePads, h_fresh, h_pwr, h_rails, h_dies, h_ports, h_herds, h_io]

@[simp] theorem pick_execPadRelease (m : List Area) (s : State) (h_fresh : .fresh ∈ m) (h_heldLow : .heldLow ∈ m)
    (h_pwr : .pwr ∈ m) (h_rails : .rails ∈ m) (h_dies : .dies ∈ m) (h_ports : .ports ∈ m) (h_herds : .herds ∈ m)
    (h_io : .io ∈ m) :
    pickO m (execPadRelease s) = some (pick m s) := by
  simp [execPadRelease, h_fresh, h_heldLow, h_pwr, h_rails, h_dies, h_ports, h_herds, h_io]

/-! ### Registers -/

@[simp] theorem pick_endAccess (m : List Area) (s : State) (off : Nat) (write : Bool) (cause : Nat)
    (h_access : .access ∈ m) (h_io : .io ∈ m) :
    pick m (endAccess s off write cause) = pick m s := by simp [endAccess, h_access, h_io]

@[simp] theorem pick_writeMirror (m : List Area) (s : State) (val : BitVec 32) (h_regs : .regs ∈ m) (h_io : .io ∈ m) :
    pick m (writeMirror s val) = pick m s := by simp [writeMirror, h_regs, h_io]

@[simp] theorem pick_writeFmc (m : List Area) (s : State) (val : BitVec 32) (h_regs : .regs ∈ m)
    (h_access : .access ∈ m) (h_clk : .clk ∈ m) (h_io : .io ∈ m) :
    pick m (writeFmc s val) = pick m s := by simp [writeFmc, h_regs, h_access, h_clk, h_io]

@[simp] theorem pick_inject (m : List Area) (s : State) (source : Nat) (network : Bool) (h_access : .access ∈ m)
    (h_ports : .ports ∈ m) (h_herds : .herds ∈ m) (h_io : .io ∈ m) (h_flt : .flt ∈ m) (h_fw : .fw ∈ m)
    (h_nv : .nv ∈ m) :
    pick m (inject s source network) = pick m s := by
  simp [inject, h_access, h_ports, h_herds, h_io, h_flt, h_fw, h_nv]

@[simp] theorem pick_writeInject (m : List Area) (s : State) (val : BitVec 32) (h_access : .access ∈ m)
    (h_ports : .ports ∈ m) (h_herds : .herds ∈ m) (h_io : .io ∈ m) (h_flt : .flt ∈ m) (h_fw : .fw ∈ m)
    (h_nv : .nv ∈ m) :
    pick m (writeInject s val) = pick m s := by
  simp [writeInject, h_access, h_ports, h_herds, h_io, h_flt, h_fw, h_nv]

@[simp] theorem pick_writeAccess (m : List Area) (s : State) (val : BitVec 32) (h_access : .access ∈ m) :
    pick m (writeAccess s val) = pick m s := by simp [writeAccess, h_access]

@[simp] theorem pick_storeAllowed (m : List Area) (s : State) (off : Nat) (val : BitVec 32) (h_regs : .regs ∈ m) :
    pick m (storeAllowed s off val) = pick m s := by simp [storeAllowed, h_regs]

@[simp] theorem pick_writeLow (m : List Area) (s : State) (off : BitVec 26) (val : BitVec 32)
    (h_heldLow : .heldLow ∈ m) :
    pick m (writeLow s off val) = pick m s := by simp [writeLow, h_heldLow]

@[simp] theorem pick_writeHigh (m : List Area) (s : State) (off : Nat) (val : BitVec 32) (h_regs : .regs ∈ m)
    (h_heldLow : .heldLow ∈ m) :
    pick m (writeHigh s off val) = pick m s := by
  unfold writeHigh
  simp only []
  repeat'
    first
    | (simp [h_regs, h_heldLow]; done)
    | split

@[simp] theorem pick_writePads (m : List Area) (s : State) (val : BitVec 32) (h_fresh : .fresh ∈ m)
    (h_pwr : .pwr ∈ m) (h_rails : .rails ∈ m) (h_dies : .dies ∈ m) (h_ports : .ports ∈ m) (h_herds : .herds ∈ m)
    (h_io : .io ∈ m) :
    pick m (writePads s val) = pick m s := by
  simp [writePads, h_fresh, h_pwr, h_rails, h_dies, h_ports, h_herds, h_io]

@[simp] theorem pick_writeRingCtrl (m : List Area) (s : State) (r : RingId) (val : BitVec 32) (h_io : .io ∈ m)
    (h_flt : .flt ∈ m) :
    pick m (writeRingCtrl s r val) = pick m s := by simp [writeRingCtrl, h_io, h_flt]

@[simp] theorem pick_writeFields (m : List Area) (s : State) (off : Nat) (val : BitVec 32) (h_regs : .regs ∈ m)
    (h_access : .access ∈ m) (h_io : .io ∈ m) :
    pick m (writeFields s off val) = pick m s := by
  unfold writeFields
  repeat'
    first
    | (simp [h_regs, h_access, h_io]; done)
    | split

@[simp] theorem pick_writePlain (m : List Area) (s : State) (off : BitVec 26) (val : BitVec 32)
    (h_fresh : .fresh ∈ m) (h_regs : .regs ∈ m) (h_access : .access ∈ m) (h_clk : .clk ∈ m) (h_pwr : .pwr ∈ m)
    (h_rails : .rails ∈ m) (h_dies : .dies ∈ m) (h_ports : .ports ∈ m) (h_herds : .herds ∈ m) (h_io : .io ∈ m)
    (h_flt : .flt ∈ m) (h_fw : .fw ∈ m) (h_nv : .nv ∈ m) :
    pick m (writePlain s off val) = pick m s := by
  unfold writePlain
  repeat'
    first
    | (simp [h_fresh, h_regs, h_access, h_clk, h_pwr, h_rails, h_dies, h_ports, h_herds, h_io, h_flt, h_fw,
      h_nv]; done)
    | split

@[simp] theorem pick_writeReg (m : List Area) (s : State) (off : BitVec 26) (val : BitVec 32) (h_fresh : .fresh ∈ m)
    (h_regs : .regs ∈ m) (h_heldLow : .heldLow ∈ m) (h_access : .access ∈ m) (h_clk : .clk ∈ m) (h_pwr : .pwr ∈ m)
    (h_rails : .rails ∈ m) (h_dies : .dies ∈ m) (h_ports : .ports ∈ m) (h_herds : .herds ∈ m) (h_io : .io ∈ m)
    (h_flt : .flt ∈ m) (h_fw : .fw ∈ m) (h_nv : .nv ∈ m) :
    pick m (writeReg s off val) = pick m s := by
  simp [writeReg, h_fresh, h_regs, h_heldLow, h_access, h_clk, h_pwr, h_rails, h_dies, h_ports, h_herds, h_io, h_flt,
      h_fw, h_nv]

@[simp] theorem pick_busWrite (m : List Area) (s : State) (off : BitVec 26) (val : BitVec 32) (h_fresh : .fresh ∈ m)
    (h_regs : .regs ∈ m) (h_heldLow : .heldLow ∈ m) (h_access : .access ∈ m) (h_clk : .clk ∈ m) (h_pwr : .pwr ∈ m)
    (h_rails : .rails ∈ m) (h_dies : .dies ∈ m) (h_ports : .ports ∈ m) (h_herds : .herds ∈ m) (h_io : .io ∈ m)
    (h_flt : .flt ∈ m) (h_fw : .fw ∈ m) (h_nv : .nv ∈ m) :
    pick m (busWrite s off val) = pick m s := by
  unfold busWrite
  simp only []
  repeat'
    first
    | (simp [h_fresh, h_regs, h_heldLow, h_access, h_clk, h_pwr, h_rails, h_dies, h_ports, h_herds, h_io, h_flt,
      h_fw, h_nv]; done)
    | split

@[simp] theorem pick_busRead (m : List Area) (s : State) (off : BitVec 26) (h_latches : .latches ∈ m)
    (h_access : .access ∈ m) (h_pwr : .pwr ∈ m) (h_io : .io ∈ m) :
    pick m (busRead s off) = pick m s := by
  unfold busRead
  simp only []
  repeat'
    first
    | (simp [h_latches, h_access, h_pwr, h_io]; done)
    | split

@[simp] theorem pick_execRegisterWrite (m : List Area) (off : BitVec 26) (val : BitVec 32) (s : State)
    (h_fresh : .fresh ∈ m) (h_regs : .regs ∈ m) (h_heldLow : .heldLow ∈ m) (h_access : .access ∈ m)
    (h_clk : .clk ∈ m) (h_pwr : .pwr ∈ m) (h_rails : .rails ∈ m) (h_dies : .dies ∈ m) (h_ports : .ports ∈ m)
    (h_herds : .herds ∈ m) (h_io : .io ∈ m) (h_flt : .flt ∈ m) (h_fw : .fw ∈ m) (h_nv : .nv ∈ m) :
    pickO m (execRegisterWrite off val s) = some (pick m s) := by
  simp [execRegisterWrite, h_fresh, h_regs, h_heldLow, h_access, h_clk, h_pwr, h_rails, h_dies, h_ports, h_herds,
      h_io, h_flt, h_fw, h_nv]

@[simp] theorem pick_execReg64LowRead (m : List Area) (off : BitVec 26) (s : State) (h_latches : .latches ∈ m)
    (h_access : .access ∈ m) (h_pwr : .pwr ∈ m) (h_io : .io ∈ m) :
    pickO m (execReg64LowRead off s) = some (pick m s) := by
  simp [execReg64LowRead, h_latches, h_access, h_pwr, h_io]

@[simp] theorem pick_execReg64LowWrite (m : List Area) (off : BitVec 26) (val : BitVec 32) (s : State)
    (h_fresh : .fresh ∈ m) (h_regs : .regs ∈ m) (h_heldLow : .heldLow ∈ m) (h_access : .access ∈ m)
    (h_clk : .clk ∈ m) (h_pwr : .pwr ∈ m) (h_rails : .rails ∈ m) (h_dies : .dies ∈ m) (h_ports : .ports ∈ m)
    (h_herds : .herds ∈ m) (h_io : .io ∈ m) (h_flt : .flt ∈ m) (h_fw : .fw ∈ m) (h_nv : .nv ∈ m) :
    pickO m (execReg64LowWrite off val s) = some (pick m s) := by
  simp [execReg64LowWrite, h_fresh, h_regs, h_heldLow, h_access, h_clk, h_pwr, h_rails, h_dies, h_ports, h_herds,
      h_io, h_flt, h_fw, h_nv]

@[simp] theorem pick_execReg64HighWrite (m : List Area) (off : BitVec 26) (val : BitVec 32) (s : State)
    (h_fresh : .fresh ∈ m) (h_regs : .regs ∈ m) (h_heldLow : .heldLow ∈ m) (h_access : .access ∈ m)
    (h_clk : .clk ∈ m) (h_pwr : .pwr ∈ m) (h_rails : .rails ∈ m) (h_dies : .dies ∈ m) (h_ports : .ports ∈ m)
    (h_herds : .herds ∈ m) (h_io : .io ∈ m) (h_flt : .flt ∈ m) (h_fw : .fw ∈ m) (h_nv : .nv ∈ m) :
    pickO m (execReg64HighWrite off val s) = some (pick m s) := by
  simp [execReg64HighWrite, h_fresh, h_regs, h_heldLow, h_access, h_clk, h_pwr, h_rails, h_dies, h_ports, h_herds,
      h_io, h_flt, h_fw, h_nv]

@[simp] theorem pick_execBar0BadAccess (m : List Area) (off : BitVec 26) (write : Bool) (s : State)
    (h_pwr : .pwr ∈ m) (h_io : .io ∈ m) :
    pickO m (execBar0BadAccess off write s) = some (pick m s) := by simp [execBar0BadAccess, h_pwr, h_io]

@[simp] theorem pick_execBlockAccessRefused (m : List Area) (off : BitVec 26) (write : Bool) (s : State)
    (h_access : .access ∈ m) (h_pwr : .pwr ∈ m) (h_io : .io ∈ m) :
    pickO m (execBlockAccessRefused off write s) = some (pick m s) := by
  unfold execBlockAccessRefused
  repeat'
    first
    | (simp [h_access, h_pwr, h_io]; done)
    | split

@[simp] theorem pick_execGateAccessTimeout (m : List Area) (off : BitVec 26) (write : Bool) (s : State)
    (h_access : .access ∈ m) (h_io : .io ∈ m) :
    pickO m (execGateAccessTimeout off write s) = some (pick m s) := by simp [execGateAccessTimeout, h_access, h_io]

@[simp] theorem pick_execMirrorEnable (m : List Area) (val : BitVec 32) (s : State) (h_fresh : .fresh ∈ m)
    (h_regs : .regs ∈ m) (h_heldLow : .heldLow ∈ m) (h_access : .access ∈ m) (h_clk : .clk ∈ m) (h_pwr : .pwr ∈ m)
    (h_rails : .rails ∈ m) (h_dies : .dies ∈ m) (h_ports : .ports ∈ m) (h_herds : .herds ∈ m) (h_io : .io ∈ m)
    (h_flt : .flt ∈ m) (h_fw : .fw ∈ m) (h_nv : .nv ∈ m) :
    pickO m (execMirrorEnable val s) = some (pick m s) := by
  simp [execMirrorEnable, h_fresh, h_regs, h_heldLow, h_access, h_clk, h_pwr, h_rails, h_dies, h_ports, h_herds,
      h_io, h_flt, h_fw, h_nv]

@[simp] theorem pick_execMirrorMeasuredUpdate (m : List Area) (o : MirrorObj) (s : State) (h_io : .io ∈ m) :
    pickO m (execMirrorMeasuredUpdate o s) = some (pick m s) := by simp [execMirrorMeasuredUpdate, h_io]

@[simp] theorem pick_execMirrorWriteError (m : List Area) (addr : BitVec 64) (s : State) (h_fresh : .fresh ∈ m)
    (h_regs : .regs ∈ m) (h_ports : .ports ∈ m) (h_herds : .herds ∈ m) (h_io : .io ∈ m) (h_flt : .flt ∈ m)
    (h_fw : .fw ∈ m) (h_nv : .nv ∈ m) :
    pickO m (execMirrorWriteError addr s) = some (pick m s) := by
  simp [execMirrorWriteError, h_fresh, h_regs, h_ports, h_herds, h_io, h_flt, h_fw, h_nv]

@[simp] theorem pick_execFmcStart (m : List Area) (val : BitVec 32) (s : State) (h_fresh : .fresh ∈ m)
    (h_regs : .regs ∈ m) (h_heldLow : .heldLow ∈ m) (h_access : .access ∈ m) (h_clk : .clk ∈ m) (h_pwr : .pwr ∈ m)
    (h_rails : .rails ∈ m) (h_dies : .dies ∈ m) (h_ports : .ports ∈ m) (h_herds : .herds ∈ m) (h_io : .io ∈ m)
    (h_flt : .flt ∈ m) (h_fw : .fw ∈ m) (h_nv : .nv ∈ m) :
    pickO m (execFmcStart val s) = some (pick m s) := by
  simp [execFmcStart, h_fresh, h_regs, h_heldLow, h_access, h_clk, h_pwr, h_rails, h_dies, h_ports, h_herds, h_io,
      h_flt, h_fw, h_nv]

@[simp] theorem pick_execFmcWindowEnd (m : List Area) (count : BitVec 24) (s : State) (h_clk : .clk ∈ m) :
    pickO m (execFmcWindowEnd count s) = some (pick m s) := by simp [execFmcWindowEnd, h_clk]

@[simp] theorem pick_execFltInjectEvent (m : List Area) (source : BitVec 16) (s : State) (h_fresh : .fresh ∈ m)
    (h_regs : .regs ∈ m) (h_heldLow : .heldLow ∈ m) (h_access : .access ∈ m) (h_clk : .clk ∈ m) (h_pwr : .pwr ∈ m)
    (h_rails : .rails ∈ m) (h_dies : .dies ∈ m) (h_ports : .ports ∈ m) (h_herds : .herds ∈ m) (h_io : .io ∈ m)
    (h_flt : .flt ∈ m) (h_fw : .fw ∈ m) (h_nv : .nv ∈ m) :
    pickO m (execFltInjectEvent source s) = some (pick m s) := by
  simp [execFltInjectEvent, h_fresh, h_regs, h_heldLow, h_access, h_clk, h_pwr, h_rails, h_dies, h_ports, h_herds,
      h_io, h_flt, h_fw, h_nv]

@[simp] theorem pick_execFltInjectPair (m : List Area) (source : BitVec 16) (s : State) (h_fresh : .fresh ∈ m)
    (h_regs : .regs ∈ m) (h_heldLow : .heldLow ∈ m) (h_access : .access ∈ m) (h_clk : .clk ∈ m) (h_pwr : .pwr ∈ m)
    (h_rails : .rails ∈ m) (h_dies : .dies ∈ m) (h_ports : .ports ∈ m) (h_herds : .herds ∈ m) (h_io : .io ∈ m)
    (h_flt : .flt ∈ m) (h_fw : .fw ∈ m) (h_nv : .nv ∈ m) :
    pickO m (execFltInjectPair source s) = some (pick m s) := by
  simp [execFltInjectPair, h_fresh, h_regs, h_heldLow, h_access, h_clk, h_pwr, h_rails, h_dies, h_ports, h_herds,
      h_io, h_flt, h_fw, h_nv]

@[simp] theorem pick_execLedFrame (m : List Area) (s : State) (h_ports : .ports ∈ m) (h_io : .io ∈ m) :
    pickO m (execLedFrame s) = some (pick m s) := by simp [execLedFrame, h_ports, h_io]

/-! ### Firmware -/

@[simp] theorem pick_noteRefusal (m : List Area) (s : State) (code : BitVec 8) (h_ports : .ports ∈ m)
    (h_herds : .herds ∈ m) (h_io : .io ∈ m) (h_flt : .flt ∈ m) (h_fw : .fw ∈ m) (h_nv : .nv ∈ m) :
    pick m (noteRefusal s code) = pick m s := by simp [noteRefusal, h_ports, h_herds, h_io, h_flt, h_fw, h_nv]

@[simp] theorem pick_dropKind (m : List Area) (s : State) (k : Fin 3) (h_fw : .fw ∈ m) :
    pick m (dropKind s k) = pick m s := by simp [dropKind, h_fw]

@[simp] theorem pick_stageKind (m : List Area) (s : State) (k : Fin 3) (i : Img) (h_fw : .fw ∈ m) :
    pick m (stageKind s k i) = pick m s := by simp [stageKind, h_fw]

@[simp] theorem pick_postSession (m : List Area) (s : State) (source : BitVec 8) (n : Nat) (digest : BitVec 256)
    (h_io : .io ∈ m) :
    pick m (postSession s source n digest) = pick m s := by simp [postSession, h_io]

@[simp] theorem pick_closeSession (m : List Area) (s : State) (h_io : .io ∈ m) (h_fw : .fw ∈ m) :
    pick m (closeSession s) = pick m s := by unfold closeSession; split <;> simp [h_io, h_fw]

@[simp] theorem pick_conflict (m : List Area) (s : State) (h : ImageHeader) (h_io : .io ∈ m) (h_fw : .fw ∈ m) :
    pick m (conflict s h) = pick m s := by
  unfold conflict
  repeat'
    first
    | (simp [h_io, h_fw]; done)
    | split

@[simp] theorem pick_openSession (m : List Area) (s : State) (source : BitVec 8) (h : ImageHeader) (c : Option Cmd)
    (h_ports : .ports ∈ m) (h_herds : .herds ∈ m) (h_io : .io ∈ m) (h_flt : .flt ∈ m) (h_fw : .fw ∈ m)
    (h_nv : .nv ∈ m) :
    pick m ((openSession s source h c).1) = pick m s := by
  unfold openSession; split <;> simp [h_ports, h_herds, h_io, h_flt, h_fw, h_nv]

@[simp] theorem pick_sessionRefuse (m : List Area) (s : State) (code : BitVec 8) (h_ports : .ports ∈ m)
    (h_herds : .herds ∈ m) (h_io : .io ∈ m) (h_flt : .flt ∈ m) (h_fw : .fw ∈ m) (h_nv : .nv ∈ m) :
    pick m (sessionRefuse s code) = pick m s := by
  unfold sessionRefuse
  repeat'
    first
    | (simp [h_ports, h_herds, h_io, h_flt, h_fw, h_nv]; done)
    | split

@[simp] theorem pick_sessionOk (m : List Area) (s : State) (x : Session) (h_herds : .herds ∈ m) (h_io : .io ∈ m) :
    pick m (sessionOk s x) = pick m s := by unfold sessionOk; split <;> simp [h_herds, h_io]

@[simp] theorem pick_ibexMark (m : List Area) (s : State) (h : ImageHeader) (h_fw : .fw ∈ m) :
    pick m (ibexMark s h) = pick m s := by simp [ibexMark, h_fw]

@[simp] theorem pick_bodyDone (m : List Area) (s : State) (digestOk : Bool) (h_ports : .ports ∈ m)
    (h_herds : .herds ∈ m) (h_io : .io ∈ m) (h_flt : .flt ∈ m) (h_fw : .fw ∈ m) (h_nv : .nv ∈ m) :
    pick m (bodyDone s digestOk) = pick m s := by
  unfold bodyDone; split <;> simp [h_ports, h_herds, h_io, h_flt, h_fw, h_nv]

@[simp] theorem pick_flashSlot (m : List Area) (s : State) (k : Fin 3) (digest : BitVec 256) (h_io : .io ∈ m) :
    pick m (flashSlot s k digest) = pick m s := by simp [flashSlot, h_io]

@[simp] theorem pick_programDone (m : List Area) (s : State) (ok : Bool) (h_ports : .ports ∈ m)
    (h_herds : .herds ∈ m) (h_io : .io ∈ m) (h_flt : .flt ∈ m) (h_fw : .fw ∈ m) (h_nv : .nv ∈ m) :
    pick m (programDone s ok) = pick m s := by
  unfold programDone
  repeat'
    first
    | (simp [h_ports, h_herds, h_io, h_flt, h_fw, h_nv]; done)
    | split

@[simp] theorem pick_returnRest (m : List Area) (r : RingId) (x1 : List DataDesc) (x2 : State) (h_io : .io ∈ m)
    (h_fw : .fw ∈ m) :
    pick m (returnRest r x1 x2) = pick m x2 := by
  induction x1 generalizing x2 with
  | nil => simp [returnRest, h_io, h_fw]
  | cons d l ih =>
    unfold returnRest
    split
    · simp [ih, h_io, h_fw]
    · split <;> simp [ih, h_io, h_fw]

@[simp] theorem pick_stageStop (m : List Area) (s : State) (r : Stage) (rest : List DataDesc) (last : Bool)
    (h_io : .io ∈ m) (h_fw : .fw ∈ m) :
    pick m (stageStop s r rest last) = pick m s := by simp [stageStop, h_io, h_fw]

@[simp] theorem pick_stageGate (m : List Area) (s : State) (r : Stage) (h_ports : .ports ∈ m) (h_herds : .herds ∈ m)
    (h_io : .io ∈ m) (h_flt : .flt ∈ m) (h_fw : .fw ∈ m) (h_nv : .nv ∈ m) :
    pick m ((stageGate s r).1) = pick m s := by
  unfold stageGate
  repeat'
    first
    | (simp [h_ports, h_herds, h_io, h_flt, h_fw, h_nv]; done)
    | split

@[simp] theorem pick_setGot (m : List Area) (s : State) (n : Nat) (h_fw : .fw ∈ m) :
    pick m (setGot s n) = pick m s := by simp [setGot, h_fw]

@[simp] theorem pick_stageBody (m : List Area) (s : State) (r : Stage) (rest : List DataDesc) (got : Nat)
    (last : Bool) (h_ports : .ports ∈ m) (h_herds : .herds ∈ m) (h_io : .io ∈ m) (h_flt : .flt ∈ m) (h_fw : .fw ∈ m)
    (h_nv : .nv ∈ m) :
    pick m ((stageBody s r rest got last).1) = pick m s := by
  unfold stageBody
  repeat'
    first
    | (simp [h_ports, h_herds, h_io, h_flt, h_fw, h_nv]; done)
    | split

@[simp] theorem pick_stageFeed (m : List Area) (r : Stage) (x1 : List DataDesc) (x2 : State) (h_ports : .ports ∈ m)
    (h_herds : .herds ∈ m) (h_io : .io ∈ m) (h_flt : .flt ∈ m) (h_fw : .fw ∈ m) (h_nv : .nv ∈ m) :
    pick m (stageFeed r x1 x2) = pick m x2 := by
  induction x1 generalizing r x2 with
  | nil => simp [stageFeed, h_ports, h_herds, h_io, h_flt, h_fw, h_nv]
  | cons d l ih =>
    unfold stageFeed
    simp only []
    repeat' (first | (simp [ih, h_ports, h_herds, h_io, h_flt, h_fw, h_nv]; done) | split)

@[simp] theorem pick_stagePoll (m : List Area) (s : State) (h_ports : .ports ∈ m) (h_herds : .herds ∈ m)
    (h_io : .io ∈ m) (h_flt : .flt ∈ m) (h_fw : .fw ∈ m) (h_nv : .nv ∈ m) :
    pick m (stagePoll s) = pick m s := by simp [stagePoll, h_ports, h_herds, h_io, h_flt, h_fw, h_nv]

@[simp] theorem pick_execFwStage (m : List Area) (c : Cmd) (img : ImageObj) (s : State) (h_ports : .ports ∈ m)
    (h_herds : .herds ∈ m) (h_io : .io ∈ m) (h_flt : .flt ∈ m) (h_fw : .fw ∈ m) (h_nv : .nv ∈ m) :
    pickO m (execFwStage c img s) = some (pick m s) := by
  unfold execFwStage
  repeat'
    first
    | (simp [h_ports, h_herds, h_io, h_flt, h_fw, h_nv]; done)
    | split

@[simp] theorem pick_execFwStageBufferTimeout (m : List Area) (s : State) (h_herds : .herds ∈ m) (h_io : .io ∈ m)
    (h_fw : .fw ∈ m) :
    pickO m (execFwStageBufferTimeout s) = some (pick m s) := by
  unfold execFwStageBufferTimeout
  repeat'
    first
    | (simp [h_herds, h_io, h_fw]; done)
    | split

@[simp] theorem pick_execFwProgramDone (m : List Area) (ok : Bool) (s : State) (h_ports : .ports ∈ m)
    (h_herds : .herds ∈ m) (h_io : .io ∈ m) (h_flt : .flt ∈ m) (h_fw : .fw ∈ m) (h_nv : .nv ∈ m) :
    pickO m (execFwProgramDone ok s) = some (pick m s) := by
  simp [execFwProgramDone, h_ports, h_herds, h_io, h_flt, h_fw, h_nv]

@[simp] theorem pick_stageDmaFault (m : List Area) (s : State) (r : Stage) (h_herds : .herds ∈ m) (h_io : .io ∈ m)
    (h_fw : .fw ∈ m) :
    pick m (stageDmaFault s r) = pick m s := by unfold stageDmaFault; split <;> simp [h_herds, h_io, h_fw]

@[simp] theorem pick_execDataBufferDmaFault (m : List Area) (r : RingId) (s : State) (h_ports : .ports ∈ m)
    (h_herds : .herds ∈ m) (h_io : .io ∈ m) (h_fw : .fw ∈ m) :
    pickO m (execDataBufferDmaFault r s) = some (pick m s) := by
  unfold execDataBufferDmaFault
  repeat'
    first
    | (simp [h_ports, h_herds, h_io, h_fw]; done)
    | split

@[simp] theorem pick_postReturn (m : List Area) (s : State) (cause : Nat) (h_io : .io ∈ m) :
    pick m (postReturn s cause) = pick m s := by simp [postReturn, h_io]

@[simp] theorem pick_postActivated (m : List Area) (s : State) (kind herd : Nat) (i : Img) (h_io : .io ∈ m) :
    pick m (postActivated s kind herd i) = pick m s := by simp [postActivated, h_io]

@[simp] theorem pick_openWindow (m : List Area) (s : State) (h_fw : .fw ∈ m) :
    pick m (openWindow s) = pick m s := by simp [openWindow, h_fw]

@[simp] theorem pick_seqEnd (m : List Area) (s : State) (h_fw : .fw ∈ m) :
    pick m (seqEnd s) = pick m s := by simp [seqEnd, h_fw]

@[simp] theorem pick_seqCheck (m : List Area) (s : State) (h_fw : .fw ∈ m) :
    pick m (seqCheck s) = pick m s := by simp [seqCheck, h_fw]

@[simp] theorem pick_yieldSession (m : List Area) (s : State) (h_ports : .ports ∈ m) (h_herds : .herds ∈ m)
    (h_io : .io ∈ m) (h_flt : .flt ∈ m) (h_fw : .fw ∈ m) (h_nv : .nv ∈ m) :
    pick m (yieldSession s) = pick m s := by
  unfold yieldSession
  repeat'
    first
    | (simp [h_ports, h_herds, h_io, h_flt, h_fw, h_nv]; done)
    | split

@[simp] theorem pick_seqStart (m : List Area) (s : State) (back : Bool) (tgt : Tri Img) (safe hub : Bool)
    (h_fw : .fw ∈ m) :
    pick m (seqStart s back tgt safe hub) = pick m s := by simp [seqStart, h_fw]

@[simp] theorem pick_activationStart (m : List Area) (s : State) (h_ports : .ports ∈ m) (h_herds : .herds ∈ m)
    (h_io : .io ∈ m) (h_flt : .flt ∈ m) (h_fw : .fw ∈ m) (h_nv : .nv ∈ m) :
    pick m (activationStart s) = pick m s := by simp [activationStart, h_ports, h_herds, h_io, h_flt, h_fw, h_nv]

@[simp] theorem pick_fallbackStart (m : List Area) (s : State) (cause : Nat) (h_ports : .ports ∈ m)
    (h_herds : .herds ∈ m) (h_io : .io ∈ m) (h_flt : .flt ∈ m) (h_fw : .fw ∈ m) (h_nv : .nv ∈ m) :
    pick m (fallbackStart s cause) = pick m s := by simp [fallbackStart, h_ports, h_herds, h_io, h_flt, h_fw, h_nv]

@[simp] theorem pick_seqFail (m : List Area) (s : State) (h_ports : .ports ∈ m) (h_herds : .herds ∈ m)
    (h_io : .io ∈ m) (h_flt : .flt ∈ m) (h_fw : .fw ∈ m) (h_nv : .nv ∈ m) :
    pick m (seqFail s) = pick m s := by simp [seqFail, h_ports, h_herds, h_io, h_flt, h_fw, h_nv]

@[simp] theorem pick_ibexLeave (m : List Area) (s : State) (h_time : .time ∈ m) (h_regs : .regs ∈ m)
    (h_latches : .latches ∈ m) (h_heldLow : .heldLow ∈ m) (h_access : .access ∈ m) (h_clk : .clk ∈ m)
    (h_pwr : .pwr ∈ m) (h_dies : .dies ∈ m) (h_ddr : .ddr ∈ m) (h_store : .store ∈ m) (h_ports : .ports ∈ m)
    (h_herds : .herds ∈ m) (h_io : .io ∈ m) (h_waits : .waits ∈ m) (h_flt : .flt ∈ m) (h_fw : .fw ∈ m)
    (h_sec : .sec ∈ m) (h_nv : .nv ∈ m) :
    pick m (ibexLeave s) = pick m s := by
  simp [ibexLeave, h_time, h_regs, h_latches, h_heldLow, h_access, h_clk, h_pwr, h_dies, h_ddr, h_store, h_ports,
      h_herds, h_io, h_waits, h_flt, h_fw, h_sec, h_nv]

@[simp] theorem pick_scheduledStart (m : List Area) (s : State) (h_time : .time ∈ m) (h_regs : .regs ∈ m)
    (h_latches : .latches ∈ m) (h_heldLow : .heldLow ∈ m) (h_access : .access ∈ m) (h_clk : .clk ∈ m)
    (h_pwr : .pwr ∈ m) (h_dies : .dies ∈ m) (h_ddr : .ddr ∈ m) (h_store : .store ∈ m) (h_ports : .ports ∈ m)
    (h_herds : .herds ∈ m) (h_io : .io ∈ m) (h_waits : .waits ∈ m) (h_flt : .flt ∈ m) (h_fw : .fw ∈ m)
    (h_sec : .sec ∈ m) (h_nv : .nv ∈ m) :
    pick m (scheduledStart s) = pick m s := by
  simp [scheduledStart, h_time, h_regs, h_latches, h_heldLow, h_access, h_clk, h_pwr, h_dies, h_ddr, h_store,
      h_ports, h_herds, h_io, h_waits, h_flt, h_fw, h_sec, h_nv]

@[simp] theorem pick_execFwActivationStart (m : List Area) (s : State) (h_time : .time ∈ m) (h_regs : .regs ∈ m)
    (h_latches : .latches ∈ m) (h_heldLow : .heldLow ∈ m) (h_access : .access ∈ m) (h_clk : .clk ∈ m)
    (h_pwr : .pwr ∈ m) (h_dies : .dies ∈ m) (h_ddr : .ddr ∈ m) (h_store : .store ∈ m) (h_ports : .ports ∈ m)
    (h_herds : .herds ∈ m) (h_io : .io ∈ m) (h_waits : .waits ∈ m) (h_flt : .flt ∈ m) (h_fw : .fw ∈ m)
    (h_sec : .sec ∈ m) (h_nv : .nv ∈ m) :
    pickO m (execFwActivationStart s) = some (pick m s) := by
  simp [execFwActivationStart, h_time, h_regs, h_latches, h_heldLow, h_access, h_clk, h_pwr, h_dies, h_ddr, h_store,
      h_ports, h_herds, h_io, h_waits, h_flt, h_fw, h_sec, h_nv]

@[simp] theorem pick_snapDrop (m : List Area) (s : State) (n : Snap) (h_io : .io ∈ m) :
    pick m (snapDrop s n) = pick m s := by simp [snapDrop, h_io]

@[simp] theorem pick_execHubPhaseManagementDown (m : List Area) (s : State) (h_herds : .herds ∈ m) (h_io : .io ∈ m)
    (h_waits : .waits ∈ m) (h_fw : .fw ∈ m) :
    pickO m (execHubPhaseManagementDown s) = some (pick m s) := by
  simp [execHubPhaseManagementDown, h_herds, h_io, h_waits, h_fw]

@[simp] theorem pick_settingsOver (m : List Area) (s : State) (tagOk : Bool) (h_ports : .ports ∈ m) (h_io : .io ∈ m)
    (h_fw : .fw ∈ m) (h_nv : .nv ∈ m) :
    pick m (settingsOver s tagOk) = pick m s := by simp [settingsOver, h_ports, h_io, h_fw, h_nv]

@[simp] theorem pick_settingsBack (m : List Area) (s : State) (tagOk : Bool) (h_ports : .ports ∈ m) (h_io : .io ∈ m)
    (h_fw : .fw ∈ m) (h_nv : .nv ∈ m) :
    pick m (settingsBack s tagOk) = pick m s := by unfold settingsBack; split <;> simp [h_ports, h_io, h_fw, h_nv]

@[simp] theorem pick_hubPhaseDone (m : List Area) (s : State) (tagOk : Bool) (h_pwr : .pwr ∈ m)
    (h_ports : .ports ∈ m) (h_herds : .herds ∈ m) (h_io : .io ∈ m) (h_waits : .waits ∈ m) (h_flt : .flt ∈ m)
    (h_fw : .fw ∈ m) (h_nv : .nv ∈ m) :
    pick m (hubPhaseDone s tagOk) = pick m s := by
  unfold hubPhaseDone
  by_cases c : (s.fw.seq == SeqSt.falling) = true
  · cases e : s.fw.prevPers <;> simp [c, e, h_pwr, h_ports, h_herds, h_io, h_waits, h_flt, h_fw, h_nv]
  · simp [c, h_pwr, h_ports, h_herds, h_io, h_waits, h_flt, h_fw, h_nv]

@[simp] theorem pick_execFwHubPhaseDone (m : List Area) (tagOk : Bool) (s : State) (h_pwr : .pwr ∈ m)
    (h_ports : .ports ∈ m) (h_herds : .herds ∈ m) (h_io : .io ∈ m) (h_waits : .waits ∈ m) (h_flt : .flt ∈ m)
    (h_fw : .fw ∈ m) (h_nv : .nv ∈ m) :
    pickO m (execFwHubPhaseDone tagOk s) = some (pick m s) := by
  simp [execFwHubPhaseDone, h_pwr, h_ports, h_herds, h_io, h_waits, h_flt, h_fw, h_nv]

@[simp] theorem pick_execFwHerdSlot (m : List Area) (h : HerdId) (s : State) (h_ports : .ports ∈ m)
    (h_herds : .herds ∈ m) (h_io : .io ∈ m) (h_flt : .flt ∈ m) (h_fw : .fw ∈ m) (h_nv : .nv ∈ m) :
    pickO m (execFwHerdSlot h s) = some (pick m s) := by
  simp [execFwHerdSlot, h_ports, h_herds, h_io, h_flt, h_fw, h_nv]

@[simp] theorem pick_releaseHeld (m : List Area) (s : State) (p : PortId) (h_fresh : .fresh ∈ m)
    (h_rails : .rails ∈ m) (h_dies : .dies ∈ m) (h_ports : .ports ∈ m) (h_herds : .herds ∈ m) (h_io : .io ∈ m) :
    pick m (releaseHeld s p) = pick m s := by simp [releaseHeld, h_fresh, h_rails, h_dies, h_ports, h_herds, h_io]

@[simp] theorem pick_execFwHerdRestartDone (m : List Area) (h : HerdId) (s : State) (h_fresh : .fresh ∈ m)
    (h_clk : .clk ∈ m) (h_rails : .rails ∈ m) (h_dies : .dies ∈ m) (h_ports : .ports ∈ m) (h_herds : .herds ∈ m)
    (h_io : .io ∈ m) (h_waits : .waits ∈ m) (h_fw : .fw ∈ m) :
    pickO m (execFwHerdRestartDone h s) = some (pick m s) := by
  simp [execFwHerdRestartDone, h_fresh, h_clk, h_rails, h_dies, h_ports, h_herds, h_io, h_waits, h_fw]

@[simp] theorem pick_execActivationRestartTimeout (m : List Area) (s : State) (h_ports : .ports ∈ m)
    (h_herds : .herds ∈ m) (h_io : .io ∈ m) (h_flt : .flt ∈ m) (h_fw : .fw ∈ m) (h_nv : .nv ∈ m) :
    pickO m (execActivationRestartTimeout s) = some (pick m s) := by
  simp [execActivationRestartTimeout, h_ports, h_herds, h_io, h_flt, h_fw, h_nv]

@[simp] theorem pick_confirm (m : List Area) (s : State) (h_fw : .fw ∈ m) :
    pick m (confirm s) = pick m s := by simp [confirm, h_fw]

@[simp] theorem pick_windowEnd (m : List Area) (s : State) (h_ports : .ports ∈ m) (h_herds : .herds ∈ m)
    (h_io : .io ∈ m) (h_flt : .flt ∈ m) (h_fw : .fw ∈ m) (h_nv : .nv ∈ m) :
    pick m (windowEnd s) = pick m s := by simp [windowEnd, h_ports, h_herds, h_io, h_flt, h_fw, h_nv]

@[simp] theorem pick_execFwConfirmExpiry (m : List Area) (s : State) (h_ports : .ports ∈ m) (h_herds : .herds ∈ m)
    (h_io : .io ∈ m) (h_flt : .flt ∈ m) (h_fw : .fw ∈ m) (h_nv : .nv ∈ m) :
    pickO m (execFwConfirmExpiry s) = some (pick m s) := by
  simp [execFwConfirmExpiry, h_ports, h_herds, h_io, h_flt, h_fw, h_nv]

@[simp] theorem pick_schedule (m : List Area) (s : State) (actTime : BitVec 64) (badKinds : List (Fin 3))
    (h_fw : .fw ∈ m) :
    pick m ((schedule s actTime badKinds).1) = pick m s := by
  unfold schedule
  simp only []
  repeat'
    first
    | (simp [h_fw]; done)
    | split

@[simp] theorem pick_execFwActivateSchedule (m : List Area) (c : Cmd) (actTime : BitVec 64) (badKinds : List
    (Fin 3)) (s : State) (h_herds : .herds ∈ m) (h_io : .io ∈ m) (h_fw : .fw ∈ m) :
    pickO m (execFwActivateSchedule c actTime badKinds s) = some (pick m s) := by
  unfold execFwActivateSchedule
  simp only []
  repeat'
    first
    | (simp [h_herds, h_io, h_fw]; done)
    | split

@[simp] theorem pick_execFwActivateConfirm (m : List Area) (c : Cmd) (s : State) (h_herds : .herds ∈ m)
    (h_io : .io ∈ m) (h_fw : .fw ∈ m) :
    pickO m (execFwActivateConfirm c s) = some (pick m s) := by simp [execFwActivateConfirm, h_herds, h_io, h_fw]

@[simp] theorem pick_execFwActivateCancel (m : List Area) (c : Cmd) (s : State) (h_herds : .herds ∈ m)
    (h_io : .io ∈ m) (h_fw : .fw ∈ m) :
    pickO m (execFwActivateCancel c s) = some (pick m s) := by simp [execFwActivateCancel, h_herds, h_io, h_fw]

@[simp] theorem pick_execFwFallback (m : List Area) (c : Cmd) (actTime : BitVec 64) (s : State) (h_time : .time ∈ m)
    (h_regs : .regs ∈ m) (h_latches : .latches ∈ m) (h_heldLow : .heldLow ∈ m) (h_access : .access ∈ m)
    (h_clk : .clk ∈ m) (h_pwr : .pwr ∈ m) (h_dies : .dies ∈ m) (h_ddr : .ddr ∈ m) (h_store : .store ∈ m)
    (h_ports : .ports ∈ m) (h_herds : .herds ∈ m) (h_io : .io ∈ m) (h_waits : .waits ∈ m) (h_flt : .flt ∈ m)
    (h_fw : .fw ∈ m) (h_sec : .sec ∈ m) (h_nv : .nv ∈ m) :
    pickO m (execFwFallback c actTime s) = some (pick m s) := by
  simp [execFwFallback, h_time, h_regs, h_latches, h_heldLow, h_access, h_clk, h_pwr, h_dies, h_ddr, h_store,
      h_ports, h_herds, h_io, h_waits, h_flt, h_fw, h_sec, h_nv]

@[simp] theorem pick_execFwStatus (m : List Area) (c : Cmd) (s : State) (h_ports : .ports ∈ m)
    (h_herds : .herds ∈ m) (h_io : .io ∈ m) :
    pickO m (execFwStatus c s) = some (pick m s) := by simp [execFwStatus, h_ports, h_herds, h_io]

@[simp] theorem pick_runDue (m : List Area) (s : State) (h_time : .time ∈ m) (h_regs : .regs ∈ m)
    (h_latches : .latches ∈ m) (h_heldLow : .heldLow ∈ m) (h_access : .access ∈ m) (h_clk : .clk ∈ m)
    (h_pwr : .pwr ∈ m) (h_dies : .dies ∈ m) (h_ddr : .ddr ∈ m) (h_store : .store ∈ m) (h_ports : .ports ∈ m)
    (h_herds : .herds ∈ m) (h_io : .io ∈ m) (h_waits : .waits ∈ m) (h_flt : .flt ∈ m) (h_fw : .fw ∈ m)
    (h_sec : .sec ∈ m) (h_nv : .nv ∈ m) :
    pick m (runDue s) = pick m s := by
  simp [runDue, h_time, h_regs, h_latches, h_heldLow, h_access, h_clk, h_pwr, h_dies, h_ddr, h_store, h_ports,
      h_herds, h_io, h_waits, h_flt, h_fw, h_sec, h_nv]

@[simp] theorem pick_execWakeRestoreDone (m : List Area) (failMask : BitVec 4) (reads : List
    (PortId × CtxKey × CtxRead)) (s : State) (h_time : .time ∈ m) (h_fresh : .fresh ∈ m) (h_regs : .regs ∈ m)
    (h_latches : .latches ∈ m) (h_heldLow : .heldLow ∈ m) (h_access : .access ∈ m) (h_clk : .clk ∈ m)
    (h_pwr : .pwr ∈ m) (h_rails : .rails ∈ m) (h_dies : .dies ∈ m) (h_ddr : .ddr ∈ m) (h_store : .store ∈ m)
    (h_ports : .ports ∈ m) (h_herds : .herds ∈ m) (h_io : .io ∈ m) (h_waits : .waits ∈ m) (h_flt : .flt ∈ m)
    (h_fw : .fw ∈ m) (h_sec : .sec ∈ m) (h_nv : .nv ∈ m) :
    pickO m (execWakeRestoreDone failMask reads s) = some (pick m s) := by
  unfold execWakeRestoreDone
  repeat'
    first
    | (simp [h_time, h_fresh, h_regs, h_latches, h_heldLow, h_access, h_clk, h_pwr, h_rails, h_dies, h_ddr, h_store,
      h_ports, h_herds, h_io, h_waits, h_flt, h_fw, h_sec, h_nv]; done)
    | split

/-! ### Chain -/

@[simp] theorem pick_chainSend (m : List Area) (s : State) (what : String) (word : Nat) (h_io : .io ∈ m) :
    pick m (chainSend s what word) = pick m s := by simp [chainSend, h_io]

@[simp] theorem pick_chainRelay (m : List Area) (s : State) (k : ChainCheck) (what : String) (word : Nat)
    (h_io : .io ∈ m) :
    pick m (chainRelay s k what word) = pick m s := by simp [chainRelay, h_io]

@[simp] theorem pick_execChainReceiverLock (m : List Area) (downstream valid : Bool) (run : Nat) (s : State)
    (h_io : .io ∈ m) (h_fw : .fw ∈ m) :
    pickO m (execChainReceiverLock downstream valid run s) = some (pick m s) := by
  unfold execChainReceiverLock; split <;> simp [h_io, h_fw]

@[simp] theorem pick_frameBad (m : List Area) (s : State) (source : BitVec 8) (h_ports : .ports ∈ m)
    (h_herds : .herds ∈ m) (h_io : .io ∈ m) (h_flt : .flt ∈ m) (h_fw : .fw ∈ m) (h_nv : .nv ∈ m) :
    pick m (frameBad s source) = pick m s := by simp [frameBad, h_ports, h_herds, h_io, h_flt, h_fw, h_nv]

@[simp] theorem pick_recvBody (m : List Area) (s : State) (source : BitVec 8) (k : ChainCheck) (offset : BitVec 32)
    (bytes : Nat) (h_ports : .ports ∈ m) (h_herds : .herds ∈ m) (h_io : .io ∈ m) (h_flt : .flt ∈ m) (h_fw : .fw ∈ m)
    (h_nv : .nv ∈ m) :
    pick m (recvBody s source k offset bytes) = pick m s := by
  unfold recvBody
  repeat'
    first
    | (simp [h_ports, h_herds, h_io, h_flt, h_fw, h_nv]; done)
    | split

@[simp] theorem pick_recvEnd (m : List Area) (s : State) (source : BitVec 8) (k : ChainCheck) (sent : BitVec 32)
    (digestOk : Bool) (h_ports : .ports ∈ m) (h_herds : .herds ∈ m) (h_io : .io ∈ m) (h_flt : .flt ∈ m)
    (h_fw : .fw ∈ m) (h_nv : .nv ∈ m) :
    pick m (recvEnd s source k sent digestOk) = pick m s := by
  unfold recvEnd
  repeat'
    first
    | (simp [h_ports, h_herds, h_io, h_flt, h_fw, h_nv]; done)
    | split

@[simp] theorem pick_execChainHeader (m : List Area) (k : ChainCheck) (hdr : ImageHeader) (s : State)
    (h_ports : .ports ∈ m) (h_herds : .herds ∈ m) (h_io : .io ∈ m) (h_flt : .flt ∈ m) (h_fw : .fw ∈ m)
    (h_nv : .nv ∈ m) :
    pickO m (execChainHeader k hdr s) = some (pick m s) := by
  simp [execChainHeader, h_ports, h_herds, h_io, h_flt, h_fw, h_nv]

@[simp] theorem pick_forwardedOnly (m : List Area) (s : State) (h : ImageHeader) (h_io : .io ∈ m) :
    pick m (forwardedOnly s h) = pick m s := by simp [forwardedOnly, h_io]

@[simp] theorem pick_execChainHeaderChecked (m : List Area) (s : State) (h_ports : .ports ∈ m)
    (h_herds : .herds ∈ m) (h_io : .io ∈ m) (h_flt : .flt ∈ m) (h_fw : .fw ∈ m) (h_nv : .nv ∈ m) :
    pickO m (execChainHeaderChecked s) = some (pick m s) := by
  unfold execChainHeaderChecked
  simp only []
  repeat'
    first
    | (simp [h_ports, h_herds, h_io, h_flt, h_fw, h_nv]; done)
    | split

@[simp] theorem pick_execChainBody (m : List Area) (k : ChainCheck) (offset : BitVec 32) (bytes : Nat) (s : State)
    (h_ports : .ports ∈ m) (h_herds : .herds ∈ m) (h_io : .io ∈ m) (h_flt : .flt ∈ m) (h_fw : .fw ∈ m)
    (h_nv : .nv ∈ m) :
    pickO m (execChainBody k offset bytes s) = some (pick m s) := by
  simp [execChainBody, h_ports, h_herds, h_io, h_flt, h_fw, h_nv]

@[simp] theorem pick_execChainEnd (m : List Area) (k : ChainCheck) (sent : BitVec 32) (digestOk : Bool) (s : State)
    (h_ports : .ports ∈ m) (h_herds : .herds ∈ m) (h_io : .io ∈ m) (h_flt : .flt ∈ m) (h_fw : .fw ∈ m)
    (h_nv : .nv ∈ m) :
    pickO m (execChainEnd k sent digestOk s) = some (pick m s) := by
  simp [execChainEnd, h_ports, h_herds, h_io, h_flt, h_fw, h_nv]

@[simp] theorem pick_execChainSessionTimeout (m : List Area) (s : State) (h_ports : .ports ∈ m)
    (h_herds : .herds ∈ m) (h_io : .io ∈ m) (h_flt : .flt ∈ m) (h_fw : .fw ∈ m) (h_nv : .nv ∈ m) :
    pickO m (execChainSessionTimeout s) = some (pick m s) := by
  simp [execChainSessionTimeout, h_ports, h_herds, h_io, h_flt, h_fw, h_nv]

@[simp] theorem pick_chainAct (m : List Area) (s : State) (ignored : Bool) (h_fw : .fw ∈ m) :
    pick m (chainAct s ignored) = pick m s := by simp [chainAct, h_fw]

@[simp] theorem pick_frameSchedule (m : List Area) (s : State) (t : BitVec 64) (badKinds : List (Fin 3))
    (h_fw : .fw ∈ m) :
    pick m (frameSchedule s t badKinds) = pick m s := by simp [frameSchedule, h_fw]

@[simp] theorem pick_execChainActivate (m : List Area) (k : ChainCheck) (actTime : BitVec 64) (badKinds : List
    (Fin 3)) (s : State) (h_io : .io ∈ m) (h_fw : .fw ∈ m) :
    pickO m (execChainActivate k actTime badKinds s) = some (pick m s) := by simp [execChainActivate, h_io, h_fw]

@[simp] theorem pick_execChainConfirm (m : List Area) (k : ChainCheck) (s : State) (h_io : .io ∈ m) (h_fw : .fw ∈ m) :
    pickO m (execChainConfirm k s) = some (pick m s) := by simp [execChainConfirm, h_io, h_fw]

@[simp] theorem pick_ibexHeader (m : List Area) (s : State) (k : ChainCheck) (h : ImageHeader)
    (h_ports : .ports ∈ m) (h_herds : .herds ∈ m) (h_io : .io ∈ m) (h_flt : .flt ∈ m) (h_fw : .fw ∈ m)
    (h_nv : .nv ∈ m) :
    pick m (ibexHeader s k h) = pick m s := by
  unfold ibexHeader
  simp only []
  repeat'
    first
    | (simp [h_ports, h_herds, h_io, h_flt, h_fw, h_nv]; done)
    | split

@[simp] theorem pick_execIbexI3cFrame (m : List Area) (f : IbexFrame) (s : State) (h_ports : .ports ∈ m)
    (h_herds : .herds ∈ m) (h_io : .io ∈ m) (h_flt : .flt ∈ m) (h_fw : .fw ∈ m) (h_nv : .nv ∈ m) :
    pickO m (execIbexI3cFrame f s) = some (pick m s) := by
  unfold execIbexI3cFrame
  repeat'
    first
    | (simp [h_ports, h_herds, h_io, h_flt, h_fw, h_nv]; done)
    | split

@[simp] theorem pick_execEnterIbex (m : List Area) (tag : BitVec 32) (s : State) (h_time : .time ∈ m)
    (h_regs : .regs ∈ m) (h_latches : .latches ∈ m) (h_heldLow : .heldLow ∈ m) (h_access : .access ∈ m)
    (h_clk : .clk ∈ m) (h_pwr : .pwr ∈ m) (h_dies : .dies ∈ m) (h_ddr : .ddr ∈ m) (h_store : .store ∈ m)
    (h_ports : .ports ∈ m) (h_herds : .herds ∈ m) (h_io : .io ∈ m) (h_waits : .waits ∈ m) (h_flt : .flt ∈ m)
    (h_fw : .fw ∈ m) (h_sec : .sec ∈ m) (h_nv : .nv ∈ m) :
    pickO m (execEnterIbex tag s) = some (pick m s) := by
  simp [execEnterIbex, h_time, h_regs, h_latches, h_heldLow, h_access, h_clk, h_pwr, h_dies, h_ddr, h_store, h_ports,
      h_herds, h_io, h_waits, h_flt, h_fw, h_sec, h_nv]

/-! ### Security -/

@[simp] theorem pick_execSecAttest (m : List Area) (c : Cmd) (nonce : BitVec 256) (s : State) (h_ports : .ports ∈ m)
    (h_herds : .herds ∈ m) (h_io : .io ∈ m) (h_sec : .sec ∈ m) :
    pickO m (execSecAttest c nonce s) = some (pick m s) := by
  unfold execSecAttest
  simp only []
  repeat'
    first
    | (simp [h_ports, h_herds, h_io, h_sec]; done)
    | split

@[simp] theorem pick_newChallenge (m : List Area) (s : State) (h_fresh : .fresh ∈ m) (h_sec : .sec ∈ m) :
    pick m (newChallenge s) = pick m s := by simp [newChallenge, h_fresh, h_sec]

@[simp] theorem pick_tokenAct (m : List Area) (s : State) (k : Token) (h_io : .io ∈ m) (h_sec : .sec ∈ m) :
    pick m (tokenAct s k) = pick m s := by unfold tokenAct; split <;> simp [h_io, h_sec]

@[simp] theorem pick_execSecDebugUnlock (m : List Area) (c : Cmd) (tok : Token) (s : State) (h_fresh : .fresh ∈ m)
    (h_ports : .ports ∈ m) (h_herds : .herds ∈ m) (h_io : .io ∈ m) (h_flt : .flt ∈ m) (h_fw : .fw ∈ m)
    (h_sec : .sec ∈ m) (h_nv : .nv ∈ m) :
    pickO m (execSecDebugUnlock c tok s) = some (pick m s) := by
  unfold execSecDebugUnlock
  simp only []
  repeat'
    first
    | (simp [h_fresh, h_ports, h_herds, h_io, h_flt, h_fw, h_sec, h_nv]; done)
    | split

@[simp] theorem pick_execOtpWriteComplete (m : List Area) (s : State) (h_io : .io ∈ m) (h_sec : .sec ∈ m) :
    pickO m (execOtpWriteComplete s) = some (pick m s) := by
  unfold execOtpWriteComplete
  repeat'
    first
    | (simp [h_io, h_sec]; done)
    | split

@[simp] theorem pick_execJtagInstruction (m : List Area) (op : JtagOp) (s : State) (h_io : .io ∈ m)
    (h_sec : .sec ∈ m) :
    pickO m (execJtagInstruction op s) = some (pick m s) := by simp [execJtagInstruction, h_io, h_sec]

/-! ### Boot -/

@[simp] theorem pick_execPorstAssert (m : List Area) (s : State) (h_time : .time ∈ m) (h_regs : .regs ∈ m)
    (h_latches : .latches ∈ m) (h_heldLow : .heldLow ∈ m) (h_access : .access ∈ m) (h_clk : .clk ∈ m)
    (h_pwr : .pwr ∈ m) (h_dies : .dies ∈ m) (h_ddr : .ddr ∈ m) (h_store : .store ∈ m) (h_ports : .ports ∈ m)
    (h_herds : .herds ∈ m) (h_io : .io ∈ m) (h_waits : .waits ∈ m) (h_flt : .flt ∈ m) (h_fw : .fw ∈ m)
    (h_sec : .sec ∈ m) (h_nv : .nv ∈ m) :
    pickO m (execPorstAssert s) = some (pick m s) := by
  simp [execPorstAssert, h_time, h_regs, h_latches, h_heldLow, h_access, h_clk, h_pwr, h_dies, h_ddr, h_store,
      h_ports, h_herds, h_io, h_waits, h_flt, h_fw, h_sec, h_nv]

@[simp] theorem pick_execPorstRelease (m : List Area) (bootSrc : BitVec 2) (chainEnd testEn : Bool) (s : State)
    (h_time : .time ∈ m) (h_straps : .straps ∈ m) (h_pwr : .pwr ∈ m) :
    pickO m (execPorstRelease bootSrc chainEnd testEn s) = some (pick m s) := by
  unfold execPorstRelease
  repeat'
    first
    | (simp [h_time, h_straps, h_pwr]; done)
    | split
    | refine (pick_forEach _ _ _ _ ?_).trans ?_
    | refine (pick_foldl _ _ _ _ ?_).trans ?_
    | intro _ _
    | simp [h_time, h_straps, h_pwr]

@[simp] theorem pick_execSysrstAssert (m : List Area) (s : State) (h_time : .time ∈ m) (h_regs : .regs ∈ m)
    (h_latches : .latches ∈ m) (h_heldLow : .heldLow ∈ m) (h_access : .access ∈ m) (h_clk : .clk ∈ m)
    (h_pwr : .pwr ∈ m) (h_dies : .dies ∈ m) (h_ddr : .ddr ∈ m) (h_store : .store ∈ m) (h_ports : .ports ∈ m)
    (h_herds : .herds ∈ m) (h_io : .io ∈ m) (h_waits : .waits ∈ m) (h_flt : .flt ∈ m) (h_fw : .fw ∈ m)
    (h_sec : .sec ∈ m) (h_nv : .nv ∈ m) :
    pickO m (execSysrstAssert s) = some (pick m s) := by
  simp [execSysrstAssert, h_time, h_regs, h_latches, h_heldLow, h_access, h_clk, h_pwr, h_dies, h_ddr, h_store,
      h_ports, h_herds, h_io, h_waits, h_flt, h_fw, h_sec, h_nv]

@[simp] theorem pick_execSysrstRelease (m : List Area) (s : State) (h_pwr : .pwr ∈ m) :
    pickO m (execSysrstRelease s) = some (pick m s) := by simp [execSysrstRelease, h_pwr]

@[simp] theorem pick_ibexEnter (m : List Area) (s : State) (cause : Nat) (h_fresh : .fresh ∈ m) (h_pwr : .pwr ∈ m)
    (h_io : .io ∈ m) (h_fw : .fw ∈ m) (h_sec : .sec ∈ m) :
    pick m (ibexEnter s cause) = pick m s := by simp [ibexEnter, h_fresh, h_pwr, h_io, h_fw, h_sec]

@[simp] theorem pick_bootFail (m : List Area) (s : State) (h_time : .time ∈ m) (h_fresh : .fresh ∈ m)
    (h_regs : .regs ∈ m) (h_latches : .latches ∈ m) (h_heldLow : .heldLow ∈ m) (h_access : .access ∈ m)
    (h_clk : .clk ∈ m) (h_pwr : .pwr ∈ m) (h_dies : .dies ∈ m) (h_ddr : .ddr ∈ m) (h_store : .store ∈ m)
    (h_ports : .ports ∈ m) (h_herds : .herds ∈ m) (h_io : .io ∈ m) (h_waits : .waits ∈ m) (h_flt : .flt ∈ m)
    (h_fw : .fw ∈ m) (h_sec : .sec ∈ m) (h_nv : .nv ∈ m) :
    pick m (bootFail s) = pick m s := by
  simp [bootFail, h_time, h_fresh, h_regs, h_latches, h_heldLow, h_access, h_clk, h_pwr, h_dies, h_ddr, h_store,
      h_ports, h_herds, h_io, h_waits, h_flt, h_fw, h_sec, h_nv]

@[simp] theorem pick_execBootFailTimeout (m : List Area) (s : State) (h_time : .time ∈ m) (h_fresh : .fresh ∈ m)
    (h_regs : .regs ∈ m) (h_latches : .latches ∈ m) (h_heldLow : .heldLow ∈ m) (h_access : .access ∈ m)
    (h_clk : .clk ∈ m) (h_pwr : .pwr ∈ m) (h_dies : .dies ∈ m) (h_ddr : .ddr ∈ m) (h_store : .store ∈ m)
    (h_ports : .ports ∈ m) (h_herds : .herds ∈ m) (h_io : .io ∈ m) (h_waits : .waits ∈ m) (h_flt : .flt ∈ m)
    (h_fw : .fw ∈ m) (h_sec : .sec ∈ m) (h_nv : .nv ∈ m) :
    pickO m (execBootFailTimeout s) = some (pick m s) := by
  unfold execBootFailTimeout
  repeat'
    first
    | (simp [h_time, h_fresh, h_regs, h_latches, h_heldLow, h_access, h_clk, h_pwr, h_dies, h_ddr, h_store, h_ports,
      h_herds, h_io, h_waits, h_flt, h_fw, h_sec, h_nv]; done)
    | split

@[simp] theorem pick_bootNext (m : List Area) (s : State) (n : Nat) (sys : Bool) (h_pwr : .pwr ∈ m) :
    pick m (bootNext s n sys) = pick m s := by simp [bootNext, h_pwr]

@[simp] theorem pick_postHold (m : List Area) (s : State) (h_pwr : .pwr ∈ m) (h_dies : .dies ∈ m) :
    pick m (postHold s) = pick m s := by simp [postHold, h_pwr, h_dies]

@[simp] theorem pick_bootTest (m : List Area) (s : State) (n : Nat) (sys : Bool) (b : BistOutcome)
    (herd : BitVec 16) (h_fresh : .fresh ∈ m) (h_pwr : .pwr ∈ m) (h_dies : .dies ∈ m) (h_io : .io ∈ m)
    (h_nv : .nv ∈ m) :
    pick m (bootTest s n sys b herd) = pick m s := by
  unfold bootTest
  repeat'
    first
    | (simp [h_fresh, h_pwr, h_dies, h_io, h_nv]; done)
    | split
    | refine (pick_forEach _ _ _ _ ?_).trans ?_
    | refine (pick_foldl _ _ _ _ ?_).trans ?_
    | intro _ _
    | simp [h_fresh, h_pwr, h_dies, h_io, h_nv]

@[simp] theorem pick_dropRepairs (m : List Area) (s : State) (bad : List Nat) (h_io : .io ∈ m) (h_nv : .nv ∈ m) :
    pick m (dropRepairs s bad) = pick m s := by simp [dropRepairs, h_io, h_nv]

@[simp] theorem pick_bootOtp (m : List Area) (s : State) (sys : Bool) (o : BootOutcome) (h_time : .time ∈ m)
    (h_fresh : .fresh ∈ m) (h_regs : .regs ∈ m) (h_latches : .latches ∈ m) (h_heldLow : .heldLow ∈ m)
    (h_access : .access ∈ m) (h_clk : .clk ∈ m) (h_pwr : .pwr ∈ m) (h_dies : .dies ∈ m) (h_ddr : .ddr ∈ m)
    (h_store : .store ∈ m) (h_ports : .ports ∈ m) (h_herds : .herds ∈ m) (h_io : .io ∈ m) (h_waits : .waits ∈ m)
    (h_flt : .flt ∈ m) (h_fw : .fw ∈ m) (h_sec : .sec ∈ m) (h_nv : .nv ∈ m) :
    pick m (bootOtp s sys o) = pick m s := by
  unfold bootOtp; split <;> simp [h_time, h_fresh, h_regs, h_latches, h_heldLow, h_access, h_clk, h_pwr, h_dies,
      h_ddr, h_store, h_ports, h_herds, h_io, h_waits, h_flt, h_fw, h_sec, h_nv]

@[simp] theorem pick_identityMake (m : List Area) (s : State) (h_io : .io ∈ m) (h_sec : .sec ∈ m) :
    pick m (identityMake s) = pick m s := by simp [identityMake, h_io, h_sec]

@[simp] theorem pick_identityNext (m : List Area) (s : State) (sys : Bool) (h_pwr : .pwr ∈ m) (h_io : .io ∈ m)
    (h_sec : .sec ∈ m) :
    pick m (identityNext s sys) = pick m s := by simp [identityNext, h_pwr, h_io, h_sec]

@[simp] theorem pick_bootIdent (m : List Area) (s : State) (sys : Bool) (o : BootOutcome) (h_pwr : .pwr ∈ m)
    (h_ports : .ports ∈ m) (h_herds : .herds ∈ m) (h_io : .io ∈ m) (h_flt : .flt ∈ m) (h_fw : .fw ∈ m)
    (h_sec : .sec ∈ m) (h_nv : .nv ∈ m) :
    pick m (bootIdent s sys o) = pick m s := by
  unfold bootIdent; split <;> simp [h_pwr, h_ports, h_herds, h_io, h_flt, h_fw, h_sec, h_nv]

@[simp] theorem pick_bootImage (m : List Area) (s : State) (sys : Bool) (o : BootOutcome) (h_time : .time ∈ m)
    (h_fresh : .fresh ∈ m) (h_regs : .regs ∈ m) (h_latches : .latches ∈ m) (h_heldLow : .heldLow ∈ m)
    (h_access : .access ∈ m) (h_clk : .clk ∈ m) (h_pwr : .pwr ∈ m) (h_rails : .rails ∈ m) (h_dies : .dies ∈ m)
    (h_ddr : .ddr ∈ m) (h_store : .store ∈ m) (h_ports : .ports ∈ m) (h_herds : .herds ∈ m) (h_io : .io ∈ m)
    (h_waits : .waits ∈ m) (h_flt : .flt ∈ m) (h_fw : .fw ∈ m) (h_sec : .sec ∈ m) (h_nv : .nv ∈ m) :
    pick m (bootImage s sys o) = pick m s := by
  simp [bootImage, h_time, h_fresh, h_regs, h_latches, h_heldLow, h_access, h_clk, h_pwr, h_rails, h_dies, h_ddr,
      h_store, h_ports, h_herds, h_io, h_waits, h_flt, h_fw, h_sec, h_nv]

@[simp] theorem pick_bootDone (m : List Area) (s : State) (h_fresh : .fresh ∈ m) (h_clk : .clk ∈ m)
    (h_pwr : .pwr ∈ m) (h_dies : .dies ∈ m) (h_ports : .ports ∈ m) (h_herds : .herds ∈ m) (h_io : .io ∈ m)
    (h_waits : .waits ∈ m) (h_flt : .flt ∈ m) (h_fw : .fw ∈ m) :
    pick m (bootDone s) = pick m s := by
  simp [bootDone, h_fresh, h_clk, h_pwr, h_dies, h_ports, h_herds, h_io, h_waits, h_flt, h_fw]

@[simp] theorem pick_execBootStepDone (m : List Area) (o : BootOutcome) (s : State) (h_time : .time ∈ m)
    (h_fresh : .fresh ∈ m) (h_regs : .regs ∈ m) (h_latches : .latches ∈ m) (h_heldLow : .heldLow ∈ m)
    (h_access : .access ∈ m) (h_clk : .clk ∈ m) (h_pwr : .pwr ∈ m) (h_rails : .rails ∈ m) (h_dies : .dies ∈ m)
    (h_ddr : .ddr ∈ m) (h_store : .store ∈ m) (h_ports : .ports ∈ m) (h_herds : .herds ∈ m) (h_io : .io ∈ m)
    (h_waits : .waits ∈ m) (h_flt : .flt ∈ m) (h_fw : .fw ∈ m) (h_sec : .sec ∈ m) (h_nv : .nv ∈ m) :
    pickO m (execBootStepDone o s) = some (pick m s) := by
  unfold execBootStepDone
  repeat'
    first
    | (simp [h_time, h_fresh, h_regs, h_latches, h_heldLow, h_access, h_clk, h_pwr, h_rails, h_dies, h_ddr, h_store,
      h_ports, h_herds, h_io, h_waits, h_flt, h_fw, h_sec, h_nv]; done)
    | split

@[simp] theorem pick_execEntropyRetry (m : List Area) (healthy : Bool) (s : State) (h_pwr : .pwr ∈ m)
    (h_ports : .ports ∈ m) (h_herds : .herds ∈ m) (h_io : .io ∈ m) (h_flt : .flt ∈ m) (h_fw : .fw ∈ m)
    (h_sec : .sec ∈ m) (h_nv : .nv ∈ m) :
    pickO m (execEntropyRetry healthy s) = some (pick m s) := by
  unfold execEntropyRetry
  repeat'
    first
    | (simp [h_pwr, h_ports, h_herds, h_io, h_flt, h_fw, h_sec, h_nv]; done)
    | split

@[simp] theorem pick_execSidebandStatusRead (m : List Area) (s : State) (h_io : .io ∈ m) :
    pickO m (execSidebandStatusRead s) = some (pick m s) := by unfold execSidebandStatusRead; split <;> simp [h_io]

/-! ### Time -/

@[simp] theorem pick_moveTime (m : List Area) (s : State) (t : BitVec 64) (h_time : .time ∈ m) (h_regs : .regs ∈ m)
    (h_latches : .latches ∈ m) (h_heldLow : .heldLow ∈ m) (h_access : .access ∈ m) (h_clk : .clk ∈ m)
    (h_pwr : .pwr ∈ m) (h_dies : .dies ∈ m) (h_ddr : .ddr ∈ m) (h_store : .store ∈ m) (h_ports : .ports ∈ m)
    (h_herds : .herds ∈ m) (h_io : .io ∈ m) (h_waits : .waits ∈ m) (h_flt : .flt ∈ m) (h_fw : .fw ∈ m)
    (h_sec : .sec ∈ m) (h_nv : .nv ∈ m) :
    pick m (moveTime s t) = pick m s := by
  simp [moveTime, h_time, h_regs, h_latches, h_heldLow, h_access, h_clk, h_pwr, h_dies, h_ddr, h_store, h_ports,
      h_herds, h_io, h_waits, h_flt, h_fw, h_sec, h_nv]

@[simp] theorem pick_execTimeSet (m : List Area) (c : Cmd) (value : BitVec 64) (atSync : BitVec 8) (s : State)
    (h_time : .time ∈ m) (h_regs : .regs ∈ m) (h_latches : .latches ∈ m) (h_heldLow : .heldLow ∈ m)
    (h_access : .access ∈ m) (h_clk : .clk ∈ m) (h_pwr : .pwr ∈ m) (h_dies : .dies ∈ m) (h_ddr : .ddr ∈ m)
    (h_store : .store ∈ m) (h_ports : .ports ∈ m) (h_herds : .herds ∈ m) (h_io : .io ∈ m) (h_waits : .waits ∈ m)
    (h_flt : .flt ∈ m) (h_fw : .fw ∈ m) (h_sec : .sec ∈ m) (h_nv : .nv ∈ m) :
    pickO m (execTimeSet c value atSync s) = some (pick m s) := by
  simp [execTimeSet, h_time, h_regs, h_latches, h_heldLow, h_access, h_clk, h_pwr, h_dies, h_ddr, h_store, h_ports,
      h_herds, h_io, h_waits, h_flt, h_fw, h_sec, h_nv]

@[simp] theorem pick_execTimeAdjustJump (m : List Area) (c : Cmd) (step : BitVec 32) (s : State)
    (h_time : .time ∈ m) (h_regs : .regs ∈ m) (h_latches : .latches ∈ m) (h_heldLow : .heldLow ∈ m)
    (h_access : .access ∈ m) (h_clk : .clk ∈ m) (h_pwr : .pwr ∈ m) (h_dies : .dies ∈ m) (h_ddr : .ddr ∈ m)
    (h_store : .store ∈ m) (h_ports : .ports ∈ m) (h_herds : .herds ∈ m) (h_io : .io ∈ m) (h_waits : .waits ∈ m)
    (h_flt : .flt ∈ m) (h_fw : .fw ∈ m) (h_sec : .sec ∈ m) (h_nv : .nv ∈ m) :
    pickO m (execTimeAdjustJump c step s) = some (pick m s) := by
  simp [execTimeAdjustJump, h_time, h_regs, h_latches, h_heldLow, h_access, h_clk, h_pwr, h_dies, h_ddr, h_store,
      h_ports, h_herds, h_io, h_waits, h_flt, h_fw, h_sec, h_nv]

@[simp] theorem pick_execTimeAdjustSlew (m : List Area) (c : Cmd) (step : BitVec 32) (s : State)
    (h_time : .time ∈ m) (h_herds : .herds ∈ m) (h_io : .io ∈ m) :
    pickO m (execTimeAdjustSlew c step s) = some (pick m s) := by simp [execTimeAdjustSlew, h_time, h_herds, h_io]

@[simp] theorem pick_execTimeSlewDone (m : List Area) (s : State) (h_time : .time ∈ m) :
    pickO m (execTimeSlewDone s) = some (pick m s) := by simp [execTimeSlewDone, h_time]

@[simp] theorem pick_execTimeSetSyncTimeout (m : List Area) (s : State) (h_herds : .herds ∈ m) (h_io : .io ∈ m)
    (h_waits : .waits ∈ m) :
    pickO m (execTimeSetSyncTimeout s) = some (pick m s) := by
  unfold execTimeSetSyncTimeout
  repeat'
    first
    | (simp [h_herds, h_io, h_waits]; done)
    | split

@[simp] theorem pick_syncApply (m : List Area) (s : State) (e : Cmd × BitVec 64) (h_time : .time ∈ m)
    (h_regs : .regs ∈ m) (h_latches : .latches ∈ m) (h_heldLow : .heldLow ∈ m) (h_access : .access ∈ m)
    (h_clk : .clk ∈ m) (h_pwr : .pwr ∈ m) (h_dies : .dies ∈ m) (h_ddr : .ddr ∈ m) (h_store : .store ∈ m)
    (h_ports : .ports ∈ m) (h_herds : .herds ∈ m) (h_io : .io ∈ m) (h_waits : .waits ∈ m) (h_flt : .flt ∈ m)
    (h_fw : .fw ∈ m) (h_sec : .sec ∈ m) (h_nv : .nv ∈ m) :
    pick m (syncApply s e) = pick m s := by
  simp [syncApply, h_time, h_regs, h_latches, h_heldLow, h_access, h_clk, h_pwr, h_dies, h_ddr, h_store, h_ports,
      h_herds, h_io, h_waits, h_flt, h_fw, h_sec, h_nv]

@[simp] theorem pick_execSyncInEdge (m : List Area) (rising : Bool) (s : State) (h_time : .time ∈ m)
    (h_regs : .regs ∈ m) (h_latches : .latches ∈ m) (h_heldLow : .heldLow ∈ m) (h_access : .access ∈ m)
    (h_clk : .clk ∈ m) (h_pwr : .pwr ∈ m) (h_dies : .dies ∈ m) (h_ddr : .ddr ∈ m) (h_store : .store ∈ m)
    (h_ports : .ports ∈ m) (h_herds : .herds ∈ m) (h_io : .io ∈ m) (h_waits : .waits ∈ m) (h_flt : .flt ∈ m)
    (h_fw : .fw ∈ m) (h_sec : .sec ∈ m) (h_nv : .nv ∈ m) :
    pickO m (execSyncInEdge rising s) = some (pick m s) := by
  simp [execSyncInEdge, h_time, h_regs, h_latches, h_heldLow, h_access, h_clk, h_pwr, h_dies, h_ddr, h_store,
      h_ports, h_herds, h_io, h_waits, h_flt, h_fw, h_sec, h_nv]

@[simp] theorem pick_tick (m : List Area) (s : State) (h_time : .time ∈ m) (h_mono : .mono ∈ m) (h_pwr : .pwr ∈ m)
    (h_rails : .rails ∈ m) (h_dies : .dies ∈ m) (h_store : .store ∈ m) (h_ports : .ports ∈ m) (h_herds : .herds ∈ m)
    (h_io : .io ∈ m) (h_waits : .waits ∈ m) (h_flt : .flt ∈ m) (h_fw : .fw ∈ m) (h_nv : .nv ∈ m) :
    pick m (tick s) = pick m s := by
  simp [tick, h_time, h_mono, h_pwr, h_rails, h_dies, h_store, h_ports, h_herds, h_io, h_waits, h_flt, h_fw, h_nv]

/-! ### Step -/

@[simp] theorem pick_State_withFetchWord (m : List Area) (s : State) (nbits w : Nat) (h_pending : .pending ∈ m) :
    pick m (State.withFetchWord s nbits w) = pick m s := by unfold State.withFetchWord; split <;> simp [h_pending]

end Sys2Proof.Machine
end

