-- ==== Sys2Proof/Laws/State.lean ====
section
/-!
SUPPORT. The state's updates: what each leaves alone, field by field, and what is read back after it.
-/

namespace Sys2Proof.Machine

/-! ### Sparse tables -/

@[simp] theorem tabGet_tabSet_self {α : Type} (d : α) (t : Tab α) (k : Nat) (v : α) : tabGet d (tabSet t k v) k = v := by
  induction t with
  | nil => simp [tabSet, tabGet]
  | cons e t ih =>
    obtain ⟨j, w⟩ := e
    unfold tabSet
    split
    · simp [tabGet]
    · split
      · simp [tabGet]
      · rename_i a b
        simp [tabGet, a, b, ih]

theorem tabGet_tabSet_ne {α : Type} (d : α) (t : Tab α) {k i : Nat} (v : α) (n : i ≠ k) :
    tabGet d (tabSet t k v) i = tabGet d t i := by
  induction t with
  | nil => simp [tabSet, tabGet, n]
  | cons e t ih =>
    obtain ⟨j, w⟩ := e
    unfold tabSet
    split
    · rename_i a
      unfold tabGet
      by_cases c : i < k
      · have : i < j := by omega
        simp [c, this]
      · simp [c, n, tabGet]
    · split
      · rename_i a b
        subst b
        unfold tabGet
        by_cases c : i < k
        · simp [c]
        · simp [c, n]
      · unfold tabGet
        split
        · rfl
        · split
          · rfl
          · exact ih

/-! ### Quads -/

@[simp] theorem quadGet_all {α : Type} (x : α) (i : PairId) : quadGet (Quad.all x) i = x := by
  unfold quadGet Quad.all
  split <;> rfl

@[simp] theorem quadGet_map {α β : Type} (f : α → β) (q : Quad α) (i : PairId) :
    quadGet (quadMap f q) i = f (quadGet q i) := by
  unfold quadGet quadMap
  split <;> rfl

@[simp] theorem quadGet_set_self {α : Type} (q : Quad α) (i : PairId) (x : α) : quadGet (quadSet q i x) i = x := by
  match i with
  | 0 => rfl
  | 1 => rfl
  | 2 => rfl
  | 3 => rfl

theorem quadGet_set_ne {α : Type} (q : Quad α) {i j : PairId} (x : α) (n : j ≠ i) :
    quadGet (quadSet q i x) j = quadGet q j := by
  match i, j with
  | 0, 0 => exact absurd rfl n
  | 1, 1 => exact absurd rfl n
  | 2, 2 => exact absurd rfl n
  | 3, 3 => exact absurd rfl n
  | 0, 1 => rfl
  | 0, 2 => rfl
  | 0, 3 => rfl
  | 1, 0 => rfl
  | 1, 2 => rfl
  | 1, 3 => rfl
  | 2, 0 => rfl
  | 2, 1 => rfl
  | 2, 3 => rfl
  | 3, 0 => rfl
  | 3, 1 => rfl
  | 3, 2 => rfl

/-! ### setPort -/

@[simp] theorem setPort_pending (s : State) (p : PortId) (x : Port) : (setPort s p x).pending = s.pending := rfl
@[simp] theorem setPort_time (s : State) (p : PortId) (x : Port) : (setPort s p x).time = s.time := rfl
@[simp] theorem setPort_mono (s : State) (p : PortId) (x : Port) : (setPort s p x).mono = s.mono := rfl
@[simp] theorem setPort_fresh (s : State) (p : PortId) (x : Port) : (setPort s p x).fresh = s.fresh := rfl
@[simp] theorem setPort_regs (s : State) (p : PortId) (x : Port) : (setPort s p x).regs = s.regs := rfl
@[simp] theorem setPort_latches (s : State) (p : PortId) (x : Port) : (setPort s p x).latches = s.latches := rfl
@[simp] theorem setPort_heldLow (s : State) (p : PortId) (x : Port) : (setPort s p x).heldLow = s.heldLow := rfl
@[simp] theorem setPort_access (s : State) (p : PortId) (x : Port) : (setPort s p x).access = s.access := rfl
@[simp] theorem setPort_straps (s : State) (p : PortId) (x : Port) : (setPort s p x).straps = s.straps := rfl
@[simp] theorem setPort_clk (s : State) (p : PortId) (x : Port) : (setPort s p x).clk = s.clk := rfl
@[simp] theorem setPort_pwr (s : State) (p : PortId) (x : Port) : (setPort s p x).pwr = s.pwr := rfl
@[simp] theorem setPort_rails (s : State) (p : PortId) (x : Port) : (setPort s p x).rails = s.rails := rfl
@[simp] theorem setPort_dies (s : State) (p : PortId) (x : Port) : (setPort s p x).dies = s.dies := rfl
@[simp] theorem setPort_hubTemp (s : State) (p : PortId) (x : Port) : (setPort s p x).hubTemp = s.hubTemp := rfl
@[simp] theorem setPort_ddr (s : State) (p : PortId) (x : Port) : (setPort s p x).ddr = s.ddr := rfl
@[simp] theorem setPort_store (s : State) (p : PortId) (x : Port) : (setPort s p x).store = s.store := rfl
@[simp] theorem setPort_herds (s : State) (p : PortId) (x : Port) : (setPort s p x).herds = s.herds := rfl
@[simp] theorem setPort_io (s : State) (p : PortId) (x : Port) : (setPort s p x).io = s.io := rfl
@[simp] theorem setPort_waits (s : State) (p : PortId) (x : Port) : (setPort s p x).waits = s.waits := rfl
@[simp] theorem setPort_flt (s : State) (p : PortId) (x : Port) : (setPort s p x).flt = s.flt := rfl
@[simp] theorem setPort_fw (s : State) (p : PortId) (x : Port) : (setPort s p x).fw = s.fw := rfl
@[simp] theorem setPort_sec (s : State) (p : PortId) (x : Port) : (setPort s p x).sec = s.sec := rfl
@[simp] theorem setPort_nv (s : State) (p : PortId) (x : Port) : (setPort s p x).nv = s.nv := rfl
@[simp] theorem getHerd_setPort (s : State) (p : PortId) (x : Port) (h' : HerdId) :
    getHerd (setPort s p x) h' = getHerd s h' := rfl
@[simp] theorem getDie_setPort (s : State) (p : PortId) (x : Port) (d' : DieId) :
    getDie (setPort s p x) d' = getDie s d' := rfl
@[simp] theorem getDdr_setPort (s : State) (p : PortId) (x : Port) (c' : ChanId) :
    getDdr (setPort s p x) c' = getDdr s c' := rfl
@[simp] theorem getRail_setPort (s : State) (p : PortId) (x : Port) (r' : RailId) :
    getRail (setPort s p x) r' = getRail s r' := rfl
@[simp] theorem getDir_setPort (s : State) (p : PortId) (x : Port) (p' : PortId) :
    getDir (setPort s p x) p' = getDir s p' := rfl
@[simp] theorem getRing_setPort (s : State) (p : PortId) (x : Port) (r' : RingId) :
    getRing (setPort s p x) r' = getRing s r' := rfl
@[simp] theorem getVec_setPort (s : State) (p : PortId) (x : Port) (v' : Nat) :
    getVec (setPort s p x) v' = getVec s v' := rfl
@[simp] theorem getPll_setPort (s : State) (p : PortId) (x : Port) (u' : PllId) :
    getPll (setPort s p x) u' = getPll s u' := rfl
@[simp] theorem getSwitch_setPort (s : State) (p : PortId) (x : Port) (d' : Domain) :
    getSwitch (setPort s p x) d' = getSwitch s d' := rfl
@[simp] theorem regVal_setPort (s : State) (p : PortId) (x : Port) (off : Nat) :
    regVal (setPort s p x) off = regVal s off := rfl

/-! ### modPort -/

@[simp] theorem modPort_pending (s : State) (p : PortId) (f : Port → Port) :
    (modPort s p f).pending = s.pending := rfl
@[simp] theorem modPort_time (s : State) (p : PortId) (f : Port → Port) : (modPort s p f).time = s.time := rfl
@[simp] theorem modPort_mono (s : State) (p : PortId) (f : Port → Port) : (modPort s p f).mono = s.mono := rfl
@[simp] theorem modPort_fresh (s : State) (p : PortId) (f : Port → Port) : (modPort s p f).fresh = s.fresh := rfl
@[simp] theorem modPort_regs (s : State) (p : PortId) (f : Port → Port) : (modPort s p f).regs = s.regs := rfl
@[simp] theorem modPort_latches (s : State) (p : PortId) (f : Port → Port) :
    (modPort s p f).latches = s.latches := rfl
@[simp] theorem modPort_heldLow (s : State) (p : PortId) (f : Port → Port) :
    (modPort s p f).heldLow = s.heldLow := rfl
@[simp] theorem modPort_access (s : State) (p : PortId) (f : Port → Port) : (modPort s p f).access = s.access := rfl
@[simp] theorem modPort_straps (s : State) (p : PortId) (f : Port → Port) : (modPort s p f).straps = s.straps := rfl
@[simp] theorem modPort_clk (s : State) (p : PortId) (f : Port → Port) : (modPort s p f).clk = s.clk := rfl
@[simp] theorem modPort_pwr (s : State) (p : PortId) (f : Port → Port) : (modPort s p f).pwr = s.pwr := rfl
@[simp] theorem modPort_rails (s : State) (p : PortId) (f : Port → Port) : (modPort s p f).rails = s.rails := rfl
@[simp] theorem modPort_dies (s : State) (p : PortId) (f : Port → Port) : (modPort s p f).dies = s.dies := rfl
@[simp] theorem modPort_hubTemp (s : State) (p : PortId) (f : Port → Port) :
    (modPort s p f).hubTemp = s.hubTemp := rfl
@[simp] theorem modPort_ddr (s : State) (p : PortId) (f : Port → Port) : (modPort s p f).ddr = s.ddr := rfl
@[simp] theorem modPort_store (s : State) (p : PortId) (f : Port → Port) : (modPort s p f).store = s.store := rfl
@[simp] theorem modPort_herds (s : State) (p : PortId) (f : Port → Port) : (modPort s p f).herds = s.herds := rfl
@[simp] theorem modPort_io (s : State) (p : PortId) (f : Port → Port) : (modPort s p f).io = s.io := rfl
@[simp] theorem modPort_waits (s : State) (p : PortId) (f : Port → Port) : (modPort s p f).waits = s.waits := rfl
@[simp] theorem modPort_flt (s : State) (p : PortId) (f : Port → Port) : (modPort s p f).flt = s.flt := rfl
@[simp] theorem modPort_fw (s : State) (p : PortId) (f : Port → Port) : (modPort s p f).fw = s.fw := rfl
@[simp] theorem modPort_sec (s : State) (p : PortId) (f : Port → Port) : (modPort s p f).sec = s.sec := rfl
@[simp] theorem modPort_nv (s : State) (p : PortId) (f : Port → Port) : (modPort s p f).nv = s.nv := rfl
@[simp] theorem getHerd_modPort (s : State) (p : PortId) (f : Port → Port) (h' : HerdId) :
    getHerd (modPort s p f) h' = getHerd s h' := rfl
@[simp] theorem getDie_modPort (s : State) (p : PortId) (f : Port → Port) (d' : DieId) :
    getDie (modPort s p f) d' = getDie s d' := rfl
@[simp] theorem getDdr_modPort (s : State) (p : PortId) (f : Port → Port) (c' : ChanId) :
    getDdr (modPort s p f) c' = getDdr s c' := rfl
@[simp] theorem getRail_modPort (s : State) (p : PortId) (f : Port → Port) (r' : RailId) :
    getRail (modPort s p f) r' = getRail s r' := rfl
@[simp] theorem getDir_modPort (s : State) (p : PortId) (f : Port → Port) (p' : PortId) :
    getDir (modPort s p f) p' = getDir s p' := rfl
@[simp] theorem getRing_modPort (s : State) (p : PortId) (f : Port → Port) (r' : RingId) :
    getRing (modPort s p f) r' = getRing s r' := rfl
@[simp] theorem getVec_modPort (s : State) (p : PortId) (f : Port → Port) (v' : Nat) :
    getVec (modPort s p f) v' = getVec s v' := rfl
@[simp] theorem getPll_modPort (s : State) (p : PortId) (f : Port → Port) (u' : PllId) :
    getPll (modPort s p f) u' = getPll s u' := rfl
@[simp] theorem getSwitch_modPort (s : State) (p : PortId) (f : Port → Port) (d' : Domain) :
    getSwitch (modPort s p f) d' = getSwitch s d' := rfl
@[simp] theorem regVal_modPort (s : State) (p : PortId) (f : Port → Port) (off : Nat) :
    regVal (modPort s p f) off = regVal s off := rfl

/-! ### setHerd -/

@[simp] theorem setHerd_pending (s : State) (h : HerdId) (x : Herd) : (setHerd s h x).pending = s.pending := rfl
@[simp] theorem setHerd_time (s : State) (h : HerdId) (x : Herd) : (setHerd s h x).time = s.time := rfl
@[simp] theorem setHerd_mono (s : State) (h : HerdId) (x : Herd) : (setHerd s h x).mono = s.mono := rfl
@[simp] theorem setHerd_fresh (s : State) (h : HerdId) (x : Herd) : (setHerd s h x).fresh = s.fresh := rfl
@[simp] theorem setHerd_regs (s : State) (h : HerdId) (x : Herd) : (setHerd s h x).regs = s.regs := rfl
@[simp] theorem setHerd_latches (s : State) (h : HerdId) (x : Herd) : (setHerd s h x).latches = s.latches := rfl
@[simp] theorem setHerd_heldLow (s : State) (h : HerdId) (x : Herd) : (setHerd s h x).heldLow = s.heldLow := rfl
@[simp] theorem setHerd_access (s : State) (h : HerdId) (x : Herd) : (setHerd s h x).access = s.access := rfl
@[simp] theorem setHerd_straps (s : State) (h : HerdId) (x : Herd) : (setHerd s h x).straps = s.straps := rfl
@[simp] theorem setHerd_clk (s : State) (h : HerdId) (x : Herd) : (setHerd s h x).clk = s.clk := rfl
@[simp] theorem setHerd_pwr (s : State) (h : HerdId) (x : Herd) : (setHerd s h x).pwr = s.pwr := rfl
@[simp] theorem setHerd_rails (s : State) (h : HerdId) (x : Herd) : (setHerd s h x).rails = s.rails := rfl
@[simp] theorem setHerd_dies (s : State) (h : HerdId) (x : Herd) : (setHerd s h x).dies = s.dies := rfl
@[simp] theorem setHerd_hubTemp (s : State) (h : HerdId) (x : Herd) : (setHerd s h x).hubTemp = s.hubTemp := rfl
@[simp] theorem setHerd_ddr (s : State) (h : HerdId) (x : Herd) : (setHerd s h x).ddr = s.ddr := rfl
@[simp] theorem setHerd_store (s : State) (h : HerdId) (x : Herd) : (setHerd s h x).store = s.store := rfl
@[simp] theorem setHerd_ports (s : State) (h : HerdId) (x : Herd) : (setHerd s h x).ports = s.ports := rfl
@[simp] theorem setHerd_io (s : State) (h : HerdId) (x : Herd) : (setHerd s h x).io = s.io := rfl
@[simp] theorem setHerd_waits (s : State) (h : HerdId) (x : Herd) : (setHerd s h x).waits = s.waits := rfl
@[simp] theorem setHerd_flt (s : State) (h : HerdId) (x : Herd) : (setHerd s h x).flt = s.flt := rfl
@[simp] theorem setHerd_fw (s : State) (h : HerdId) (x : Herd) : (setHerd s h x).fw = s.fw := rfl
@[simp] theorem setHerd_sec (s : State) (h : HerdId) (x : Herd) : (setHerd s h x).sec = s.sec := rfl
@[simp] theorem setHerd_nv (s : State) (h : HerdId) (x : Herd) : (setHerd s h x).nv = s.nv := rfl
@[simp] theorem getPort_setHerd (s : State) (h : HerdId) (x : Herd) (p' : PortId) :
    getPort (setHerd s h x) p' = getPort s p' := rfl
@[simp] theorem getDie_setHerd (s : State) (h : HerdId) (x : Herd) (d' : DieId) :
    getDie (setHerd s h x) d' = getDie s d' := rfl
@[simp] theorem getDdr_setHerd (s : State) (h : HerdId) (x : Herd) (c' : ChanId) :
    getDdr (setHerd s h x) c' = getDdr s c' := rfl
@[simp] theorem getRail_setHerd (s : State) (h : HerdId) (x : Herd) (r' : RailId) :
    getRail (setHerd s h x) r' = getRail s r' := rfl
@[simp] theorem getDir_setHerd (s : State) (h : HerdId) (x : Herd) (p' : PortId) :
    getDir (setHerd s h x) p' = getDir s p' := rfl
@[simp] theorem getRing_setHerd (s : State) (h : HerdId) (x : Herd) (r' : RingId) :
    getRing (setHerd s h x) r' = getRing s r' := rfl
@[simp] theorem getVec_setHerd (s : State) (h : HerdId) (x : Herd) (v' : Nat) :
    getVec (setHerd s h x) v' = getVec s v' := rfl
@[simp] theorem getPll_setHerd (s : State) (h : HerdId) (x : Herd) (u' : PllId) :
    getPll (setHerd s h x) u' = getPll s u' := rfl
@[simp] theorem getSwitch_setHerd (s : State) (h : HerdId) (x : Herd) (d' : Domain) :
    getSwitch (setHerd s h x) d' = getSwitch s d' := rfl
@[simp] theorem regVal_setHerd (s : State) (h : HerdId) (x : Herd) (off : Nat) :
    regVal (setHerd s h x) off = regVal s off := rfl

/-! ### modHerd -/

@[simp] theorem modHerd_pending (s : State) (h : HerdId) (f : Herd → Herd) :
    (modHerd s h f).pending = s.pending := rfl
@[simp] theorem modHerd_time (s : State) (h : HerdId) (f : Herd → Herd) : (modHerd s h f).time = s.time := rfl
@[simp] theorem modHerd_mono (s : State) (h : HerdId) (f : Herd → Herd) : (modHerd s h f).mono = s.mono := rfl
@[simp] theorem modHerd_fresh (s : State) (h : HerdId) (f : Herd → Herd) : (modHerd s h f).fresh = s.fresh := rfl
@[simp] theorem modHerd_regs (s : State) (h : HerdId) (f : Herd → Herd) : (modHerd s h f).regs = s.regs := rfl
@[simp] theorem modHerd_latches (s : State) (h : HerdId) (f : Herd → Herd) :
    (modHerd s h f).latches = s.latches := rfl
@[simp] theorem modHerd_heldLow (s : State) (h : HerdId) (f : Herd → Herd) :
    (modHerd s h f).heldLow = s.heldLow := rfl
@[simp] theorem modHerd_access (s : State) (h : HerdId) (f : Herd → Herd) : (modHerd s h f).access = s.access := rfl
@[simp] theorem modHerd_straps (s : State) (h : HerdId) (f : Herd → Herd) : (modHerd s h f).straps = s.straps := rfl
@[simp] theorem modHerd_clk (s : State) (h : HerdId) (f : Herd → Herd) : (modHerd s h f).clk = s.clk := rfl
@[simp] theorem modHerd_pwr (s : State) (h : HerdId) (f : Herd → Herd) : (modHerd s h f).pwr = s.pwr := rfl
@[simp] theorem modHerd_rails (s : State) (h : HerdId) (f : Herd → Herd) : (modHerd s h f).rails = s.rails := rfl
@[simp] theorem modHerd_dies (s : State) (h : HerdId) (f : Herd → Herd) : (modHerd s h f).dies = s.dies := rfl
@[simp] theorem modHerd_hubTemp (s : State) (h : HerdId) (f : Herd → Herd) :
    (modHerd s h f).hubTemp = s.hubTemp := rfl
@[simp] theorem modHerd_ddr (s : State) (h : HerdId) (f : Herd → Herd) : (modHerd s h f).ddr = s.ddr := rfl
@[simp] theorem modHerd_store (s : State) (h : HerdId) (f : Herd → Herd) : (modHerd s h f).store = s.store := rfl
@[simp] theorem modHerd_ports (s : State) (h : HerdId) (f : Herd → Herd) : (modHerd s h f).ports = s.ports := rfl
@[simp] theorem modHerd_io (s : State) (h : HerdId) (f : Herd → Herd) : (modHerd s h f).io = s.io := rfl
@[simp] theorem modHerd_waits (s : State) (h : HerdId) (f : Herd → Herd) : (modHerd s h f).waits = s.waits := rfl
@[simp] theorem modHerd_flt (s : State) (h : HerdId) (f : Herd → Herd) : (modHerd s h f).flt = s.flt := rfl
@[simp] theorem modHerd_fw (s : State) (h : HerdId) (f : Herd → Herd) : (modHerd s h f).fw = s.fw := rfl
@[simp] theorem modHerd_sec (s : State) (h : HerdId) (f : Herd → Herd) : (modHerd s h f).sec = s.sec := rfl
@[simp] theorem modHerd_nv (s : State) (h : HerdId) (f : Herd → Herd) : (modHerd s h f).nv = s.nv := rfl
@[simp] theorem getPort_modHerd (s : State) (h : HerdId) (f : Herd → Herd) (p' : PortId) :
    getPort (modHerd s h f) p' = getPort s p' := rfl
@[simp] theorem getDie_modHerd (s : State) (h : HerdId) (f : Herd → Herd) (d' : DieId) :
    getDie (modHerd s h f) d' = getDie s d' := rfl
@[simp] theorem getDdr_modHerd (s : State) (h : HerdId) (f : Herd → Herd) (c' : ChanId) :
    getDdr (modHerd s h f) c' = getDdr s c' := rfl
@[simp] theorem getRail_modHerd (s : State) (h : HerdId) (f : Herd → Herd) (r' : RailId) :
    getRail (modHerd s h f) r' = getRail s r' := rfl
@[simp] theorem getDir_modHerd (s : State) (h : HerdId) (f : Herd → Herd) (p' : PortId) :
    getDir (modHerd s h f) p' = getDir s p' := rfl
@[simp] theorem getRing_modHerd (s : State) (h : HerdId) (f : Herd → Herd) (r' : RingId) :
    getRing (modHerd s h f) r' = getRing s r' := rfl
@[simp] theorem getVec_modHerd (s : State) (h : HerdId) (f : Herd → Herd) (v' : Nat) :
    getVec (modHerd s h f) v' = getVec s v' := rfl
@[simp] theorem getPll_modHerd (s : State) (h : HerdId) (f : Herd → Herd) (u' : PllId) :
    getPll (modHerd s h f) u' = getPll s u' := rfl
@[simp] theorem getSwitch_modHerd (s : State) (h : HerdId) (f : Herd → Herd) (d' : Domain) :
    getSwitch (modHerd s h f) d' = getSwitch s d' := rfl
@[simp] theorem regVal_modHerd (s : State) (h : HerdId) (f : Herd → Herd) (off : Nat) :
    regVal (modHerd s h f) off = regVal s off := rfl

/-! ### setDie -/

@[simp] theorem setDie_pending (s : State) (d : DieId) (x : Die) : (setDie s d x).pending = s.pending := rfl
@[simp] theorem setDie_time (s : State) (d : DieId) (x : Die) : (setDie s d x).time = s.time := rfl
@[simp] theorem setDie_mono (s : State) (d : DieId) (x : Die) : (setDie s d x).mono = s.mono := rfl
@[simp] theorem setDie_fresh (s : State) (d : DieId) (x : Die) : (setDie s d x).fresh = s.fresh := rfl
@[simp] theorem setDie_regs (s : State) (d : DieId) (x : Die) : (setDie s d x).regs = s.regs := rfl
@[simp] theorem setDie_latches (s : State) (d : DieId) (x : Die) : (setDie s d x).latches = s.latches := rfl
@[simp] theorem setDie_heldLow (s : State) (d : DieId) (x : Die) : (setDie s d x).heldLow = s.heldLow := rfl
@[simp] theorem setDie_access (s : State) (d : DieId) (x : Die) : (setDie s d x).access = s.access := rfl
@[simp] theorem setDie_straps (s : State) (d : DieId) (x : Die) : (setDie s d x).straps = s.straps := rfl
@[simp] theorem setDie_clk (s : State) (d : DieId) (x : Die) : (setDie s d x).clk = s.clk := rfl
@[simp] theorem setDie_pwr (s : State) (d : DieId) (x : Die) : (setDie s d x).pwr = s.pwr := rfl
@[simp] theorem setDie_rails (s : State) (d : DieId) (x : Die) : (setDie s d x).rails = s.rails := rfl
@[simp] theorem setDie_hubTemp (s : State) (d : DieId) (x : Die) : (setDie s d x).hubTemp = s.hubTemp := rfl
@[simp] theorem setDie_ddr (s : State) (d : DieId) (x : Die) : (setDie s d x).ddr = s.ddr := rfl
@[simp] theorem setDie_store (s : State) (d : DieId) (x : Die) : (setDie s d x).store = s.store := rfl
@[simp] theorem setDie_ports (s : State) (d : DieId) (x : Die) : (setDie s d x).ports = s.ports := rfl
@[simp] theorem setDie_herds (s : State) (d : DieId) (x : Die) : (setDie s d x).herds = s.herds := rfl
@[simp] theorem setDie_io (s : State) (d : DieId) (x : Die) : (setDie s d x).io = s.io := rfl
@[simp] theorem setDie_waits (s : State) (d : DieId) (x : Die) : (setDie s d x).waits = s.waits := rfl
@[simp] theorem setDie_flt (s : State) (d : DieId) (x : Die) : (setDie s d x).flt = s.flt := rfl
@[simp] theorem setDie_fw (s : State) (d : DieId) (x : Die) : (setDie s d x).fw = s.fw := rfl
@[simp] theorem setDie_sec (s : State) (d : DieId) (x : Die) : (setDie s d x).sec = s.sec := rfl
@[simp] theorem setDie_nv (s : State) (d : DieId) (x : Die) : (setDie s d x).nv = s.nv := rfl
@[simp] theorem getPort_setDie (s : State) (d : DieId) (x : Die) (p' : PortId) :
    getPort (setDie s d x) p' = getPort s p' := rfl
@[simp] theorem getHerd_setDie (s : State) (d : DieId) (x : Die) (h' : HerdId) :
    getHerd (setDie s d x) h' = getHerd s h' := rfl
@[simp] theorem getDdr_setDie (s : State) (d : DieId) (x : Die) (c' : ChanId) :
    getDdr (setDie s d x) c' = getDdr s c' := rfl
@[simp] theorem getRail_setDie (s : State) (d : DieId) (x : Die) (r' : RailId) :
    getRail (setDie s d x) r' = getRail s r' := rfl
@[simp] theorem getDir_setDie (s : State) (d : DieId) (x : Die) (p' : PortId) :
    getDir (setDie s d x) p' = getDir s p' := rfl
@[simp] theorem getRing_setDie (s : State) (d : DieId) (x : Die) (r' : RingId) :
    getRing (setDie s d x) r' = getRing s r' := rfl
@[simp] theorem getVec_setDie (s : State) (d : DieId) (x : Die) (v' : Nat) :
    getVec (setDie s d x) v' = getVec s v' := rfl
@[simp] theorem getPll_setDie (s : State) (d : DieId) (x : Die) (u' : PllId) :
    getPll (setDie s d x) u' = getPll s u' := rfl
@[simp] theorem getSwitch_setDie (s : State) (d : DieId) (x : Die) (d' : Domain) :
    getSwitch (setDie s d x) d' = getSwitch s d' := rfl
@[simp] theorem regVal_setDie (s : State) (d : DieId) (x : Die) (off : Nat) :
    regVal (setDie s d x) off = regVal s off := rfl

/-! ### modDie -/

@[simp] theorem modDie_pending (s : State) (d : DieId) (f : Die → Die) : (modDie s d f).pending = s.pending := rfl
@[simp] theorem modDie_time (s : State) (d : DieId) (f : Die → Die) : (modDie s d f).time = s.time := rfl
@[simp] theorem modDie_mono (s : State) (d : DieId) (f : Die → Die) : (modDie s d f).mono = s.mono := rfl
@[simp] theorem modDie_fresh (s : State) (d : DieId) (f : Die → Die) : (modDie s d f).fresh = s.fresh := rfl
@[simp] theorem modDie_regs (s : State) (d : DieId) (f : Die → Die) : (modDie s d f).regs = s.regs := rfl
@[simp] theorem modDie_latches (s : State) (d : DieId) (f : Die → Die) : (modDie s d f).latches = s.latches := rfl
@[simp] theorem modDie_heldLow (s : State) (d : DieId) (f : Die → Die) : (modDie s d f).heldLow = s.heldLow := rfl
@[simp] theorem modDie_access (s : State) (d : DieId) (f : Die → Die) : (modDie s d f).access = s.access := rfl
@[simp] theorem modDie_straps (s : State) (d : DieId) (f : Die → Die) : (modDie s d f).straps = s.straps := rfl
@[simp] theorem modDie_clk (s : State) (d : DieId) (f : Die → Die) : (modDie s d f).clk = s.clk := rfl
@[simp] theorem modDie_pwr (s : State) (d : DieId) (f : Die → Die) : (modDie s d f).pwr = s.pwr := rfl
@[simp] theorem modDie_rails (s : State) (d : DieId) (f : Die → Die) : (modDie s d f).rails = s.rails := rfl
@[simp] theorem modDie_hubTemp (s : State) (d : DieId) (f : Die → Die) : (modDie s d f).hubTemp = s.hubTemp := rfl
@[simp] theorem modDie_ddr (s : State) (d : DieId) (f : Die → Die) : (modDie s d f).ddr = s.ddr := rfl
@[simp] theorem modDie_store (s : State) (d : DieId) (f : Die → Die) : (modDie s d f).store = s.store := rfl
@[simp] theorem modDie_ports (s : State) (d : DieId) (f : Die → Die) : (modDie s d f).ports = s.ports := rfl
@[simp] theorem modDie_herds (s : State) (d : DieId) (f : Die → Die) : (modDie s d f).herds = s.herds := rfl
@[simp] theorem modDie_io (s : State) (d : DieId) (f : Die → Die) : (modDie s d f).io = s.io := rfl
@[simp] theorem modDie_waits (s : State) (d : DieId) (f : Die → Die) : (modDie s d f).waits = s.waits := rfl
@[simp] theorem modDie_flt (s : State) (d : DieId) (f : Die → Die) : (modDie s d f).flt = s.flt := rfl
@[simp] theorem modDie_fw (s : State) (d : DieId) (f : Die → Die) : (modDie s d f).fw = s.fw := rfl
@[simp] theorem modDie_sec (s : State) (d : DieId) (f : Die → Die) : (modDie s d f).sec = s.sec := rfl
@[simp] theorem modDie_nv (s : State) (d : DieId) (f : Die → Die) : (modDie s d f).nv = s.nv := rfl
@[simp] theorem getPort_modDie (s : State) (d : DieId) (f : Die → Die) (p' : PortId) :
    getPort (modDie s d f) p' = getPort s p' := rfl
@[simp] theorem getHerd_modDie (s : State) (d : DieId) (f : Die → Die) (h' : HerdId) :
    getHerd (modDie s d f) h' = getHerd s h' := rfl
@[simp] theorem getDdr_modDie (s : State) (d : DieId) (f : Die → Die) (c' : ChanId) :
    getDdr (modDie s d f) c' = getDdr s c' := rfl
@[simp] theorem getRail_modDie (s : State) (d : DieId) (f : Die → Die) (r' : RailId) :
    getRail (modDie s d f) r' = getRail s r' := rfl
@[simp] theorem getDir_modDie (s : State) (d : DieId) (f : Die → Die) (p' : PortId) :
    getDir (modDie s d f) p' = getDir s p' := rfl
@[simp] theorem getRing_modDie (s : State) (d : DieId) (f : Die → Die) (r' : RingId) :
    getRing (modDie s d f) r' = getRing s r' := rfl
@[simp] theorem getVec_modDie (s : State) (d : DieId) (f : Die → Die) (v' : Nat) :
    getVec (modDie s d f) v' = getVec s v' := rfl
@[simp] theorem getPll_modDie (s : State) (d : DieId) (f : Die → Die) (u' : PllId) :
    getPll (modDie s d f) u' = getPll s u' := rfl
@[simp] theorem getSwitch_modDie (s : State) (d : DieId) (f : Die → Die) (d' : Domain) :
    getSwitch (modDie s d f) d' = getSwitch s d' := rfl
@[simp] theorem regVal_modDie (s : State) (d : DieId) (f : Die → Die) (off : Nat) :
    regVal (modDie s d f) off = regVal s off := rfl

/-! ### setDdr -/

@[simp] theorem setDdr_pending (s : State) (c : ChanId) (x : Ddr) : (setDdr s c x).pending = s.pending := rfl
@[simp] theorem setDdr_time (s : State) (c : ChanId) (x : Ddr) : (setDdr s c x).time = s.time := rfl
@[simp] theorem setDdr_mono (s : State) (c : ChanId) (x : Ddr) : (setDdr s c x).mono = s.mono := rfl
@[simp] theorem setDdr_fresh (s : State) (c : ChanId) (x : Ddr) : (setDdr s c x).fresh = s.fresh := rfl
@[simp] theorem setDdr_regs (s : State) (c : ChanId) (x : Ddr) : (setDdr s c x).regs = s.regs := rfl
@[simp] theorem setDdr_latches (s : State) (c : ChanId) (x : Ddr) : (setDdr s c x).latches = s.latches := rfl
@[simp] theorem setDdr_heldLow (s : State) (c : ChanId) (x : Ddr) : (setDdr s c x).heldLow = s.heldLow := rfl
@[simp] theorem setDdr_access (s : State) (c : ChanId) (x : Ddr) : (setDdr s c x).access = s.access := rfl
@[simp] theorem setDdr_straps (s : State) (c : ChanId) (x : Ddr) : (setDdr s c x).straps = s.straps := rfl
@[simp] theorem setDdr_clk (s : State) (c : ChanId) (x : Ddr) : (setDdr s c x).clk = s.clk := rfl
@[simp] theorem setDdr_pwr (s : State) (c : ChanId) (x : Ddr) : (setDdr s c x).pwr = s.pwr := rfl
@[simp] theorem setDdr_rails (s : State) (c : ChanId) (x : Ddr) : (setDdr s c x).rails = s.rails := rfl
@[simp] theorem setDdr_dies (s : State) (c : ChanId) (x : Ddr) : (setDdr s c x).dies = s.dies := rfl
@[simp] theorem setDdr_hubTemp (s : State) (c : ChanId) (x : Ddr) : (setDdr s c x).hubTemp = s.hubTemp := rfl
@[simp] theorem setDdr_store (s : State) (c : ChanId) (x : Ddr) : (setDdr s c x).store = s.store := rfl
@[simp] theorem setDdr_ports (s : State) (c : ChanId) (x : Ddr) : (setDdr s c x).ports = s.ports := rfl
@[simp] theorem setDdr_herds (s : State) (c : ChanId) (x : Ddr) : (setDdr s c x).herds = s.herds := rfl
@[simp] theorem setDdr_io (s : State) (c : ChanId) (x : Ddr) : (setDdr s c x).io = s.io := rfl
@[simp] theorem setDdr_waits (s : State) (c : ChanId) (x : Ddr) : (setDdr s c x).waits = s.waits := rfl
@[simp] theorem setDdr_flt (s : State) (c : ChanId) (x : Ddr) : (setDdr s c x).flt = s.flt := rfl
@[simp] theorem setDdr_fw (s : State) (c : ChanId) (x : Ddr) : (setDdr s c x).fw = s.fw := rfl
@[simp] theorem setDdr_sec (s : State) (c : ChanId) (x : Ddr) : (setDdr s c x).sec = s.sec := rfl
@[simp] theorem setDdr_nv (s : State) (c : ChanId) (x : Ddr) : (setDdr s c x).nv = s.nv := rfl
@[simp] theorem getPort_setDdr (s : State) (c : ChanId) (x : Ddr) (p' : PortId) :
    getPort (setDdr s c x) p' = getPort s p' := rfl
@[simp] theorem getHerd_setDdr (s : State) (c : ChanId) (x : Ddr) (h' : HerdId) :
    getHerd (setDdr s c x) h' = getHerd s h' := rfl
@[simp] theorem getDie_setDdr (s : State) (c : ChanId) (x : Ddr) (d' : DieId) :
    getDie (setDdr s c x) d' = getDie s d' := rfl
@[simp] theorem getRail_setDdr (s : State) (c : ChanId) (x : Ddr) (r' : RailId) :
    getRail (setDdr s c x) r' = getRail s r' := rfl
@[simp] theorem getDir_setDdr (s : State) (c : ChanId) (x : Ddr) (p' : PortId) :
    getDir (setDdr s c x) p' = getDir s p' := rfl
@[simp] theorem getRing_setDdr (s : State) (c : ChanId) (x : Ddr) (r' : RingId) :
    getRing (setDdr s c x) r' = getRing s r' := rfl
@[simp] theorem getVec_setDdr (s : State) (c : ChanId) (x : Ddr) (v' : Nat) :
    getVec (setDdr s c x) v' = getVec s v' := rfl
@[simp] theorem getPll_setDdr (s : State) (c : ChanId) (x : Ddr) (u' : PllId) :
    getPll (setDdr s c x) u' = getPll s u' := rfl
@[simp] theorem getSwitch_setDdr (s : State) (c : ChanId) (x : Ddr) (d' : Domain) :
    getSwitch (setDdr s c x) d' = getSwitch s d' := rfl
@[simp] theorem regVal_setDdr (s : State) (c : ChanId) (x : Ddr) (off : Nat) :
    regVal (setDdr s c x) off = regVal s off := rfl

/-! ### setRail -/

@[simp] theorem setRail_pending (s : State) (r : RailId) (x : Rail) : (setRail s r x).pending = s.pending := rfl
@[simp] theorem setRail_time (s : State) (r : RailId) (x : Rail) : (setRail s r x).time = s.time := rfl
@[simp] theorem setRail_mono (s : State) (r : RailId) (x : Rail) : (setRail s r x).mono = s.mono := rfl
@[simp] theorem setRail_fresh (s : State) (r : RailId) (x : Rail) : (setRail s r x).fresh = s.fresh := rfl
@[simp] theorem setRail_regs (s : State) (r : RailId) (x : Rail) : (setRail s r x).regs = s.regs := rfl
@[simp] theorem setRail_latches (s : State) (r : RailId) (x : Rail) : (setRail s r x).latches = s.latches := rfl
@[simp] theorem setRail_heldLow (s : State) (r : RailId) (x : Rail) : (setRail s r x).heldLow = s.heldLow := rfl
@[simp] theorem setRail_access (s : State) (r : RailId) (x : Rail) : (setRail s r x).access = s.access := rfl
@[simp] theorem setRail_straps (s : State) (r : RailId) (x : Rail) : (setRail s r x).straps = s.straps := rfl
@[simp] theorem setRail_clk (s : State) (r : RailId) (x : Rail) : (setRail s r x).clk = s.clk := rfl
@[simp] theorem setRail_pwr (s : State) (r : RailId) (x : Rail) : (setRail s r x).pwr = s.pwr := rfl
@[simp] theorem setRail_dies (s : State) (r : RailId) (x : Rail) : (setRail s r x).dies = s.dies := rfl
@[simp] theorem setRail_hubTemp (s : State) (r : RailId) (x : Rail) : (setRail s r x).hubTemp = s.hubTemp := rfl
@[simp] theorem setRail_ddr (s : State) (r : RailId) (x : Rail) : (setRail s r x).ddr = s.ddr := rfl
@[simp] theorem setRail_store (s : State) (r : RailId) (x : Rail) : (setRail s r x).store = s.store := rfl
@[simp] theorem setRail_ports (s : State) (r : RailId) (x : Rail) : (setRail s r x).ports = s.ports := rfl
@[simp] theorem setRail_herds (s : State) (r : RailId) (x : Rail) : (setRail s r x).herds = s.herds := rfl
@[simp] theorem setRail_io (s : State) (r : RailId) (x : Rail) : (setRail s r x).io = s.io := rfl
@[simp] theorem setRail_waits (s : State) (r : RailId) (x : Rail) : (setRail s r x).waits = s.waits := rfl
@[simp] theorem setRail_flt (s : State) (r : RailId) (x : Rail) : (setRail s r x).flt = s.flt := rfl
@[simp] theorem setRail_fw (s : State) (r : RailId) (x : Rail) : (setRail s r x).fw = s.fw := rfl
@[simp] theorem setRail_sec (s : State) (r : RailId) (x : Rail) : (setRail s r x).sec = s.sec := rfl
@[simp] theorem setRail_nv (s : State) (r : RailId) (x : Rail) : (setRail s r x).nv = s.nv := rfl
@[simp] theorem getPort_setRail (s : State) (r : RailId) (x : Rail) (p' : PortId) :
    getPort (setRail s r x) p' = getPort s p' := rfl
@[simp] theorem getHerd_setRail (s : State) (r : RailId) (x : Rail) (h' : HerdId) :
    getHerd (setRail s r x) h' = getHerd s h' := rfl
@[simp] theorem getDie_setRail (s : State) (r : RailId) (x : Rail) (d' : DieId) :
    getDie (setRail s r x) d' = getDie s d' := rfl
@[simp] theorem getDdr_setRail (s : State) (r : RailId) (x : Rail) (c' : ChanId) :
    getDdr (setRail s r x) c' = getDdr s c' := rfl
@[simp] theorem getDir_setRail (s : State) (r : RailId) (x : Rail) (p' : PortId) :
    getDir (setRail s r x) p' = getDir s p' := rfl
@[simp] theorem getRing_setRail (s : State) (r : RailId) (x : Rail) (r' : RingId) :
    getRing (setRail s r x) r' = getRing s r' := rfl
@[simp] theorem getVec_setRail (s : State) (r : RailId) (x : Rail) (v' : Nat) :
    getVec (setRail s r x) v' = getVec s v' := rfl
@[simp] theorem getPll_setRail (s : State) (r : RailId) (x : Rail) (u' : PllId) :
    getPll (setRail s r x) u' = getPll s u' := rfl
@[simp] theorem getSwitch_setRail (s : State) (r : RailId) (x : Rail) (d' : Domain) :
    getSwitch (setRail s r x) d' = getSwitch s d' := rfl
@[simp] theorem regVal_setRail (s : State) (r : RailId) (x : Rail) (off : Nat) :
    regVal (setRail s r x) off = regVal s off := rfl

/-! ### setDir -/

@[simp] theorem setDir_pending (s : State) (p : PortId) (x : CtxDir) : (setDir s p x).pending = s.pending := rfl
@[simp] theorem setDir_time (s : State) (p : PortId) (x : CtxDir) : (setDir s p x).time = s.time := rfl
@[simp] theorem setDir_mono (s : State) (p : PortId) (x : CtxDir) : (setDir s p x).mono = s.mono := rfl
@[simp] theorem setDir_fresh (s : State) (p : PortId) (x : CtxDir) : (setDir s p x).fresh = s.fresh := rfl
@[simp] theorem setDir_regs (s : State) (p : PortId) (x : CtxDir) : (setDir s p x).regs = s.regs := rfl
@[simp] theorem setDir_latches (s : State) (p : PortId) (x : CtxDir) : (setDir s p x).latches = s.latches := rfl
@[simp] theorem setDir_heldLow (s : State) (p : PortId) (x : CtxDir) : (setDir s p x).heldLow = s.heldLow := rfl
@[simp] theorem setDir_access (s : State) (p : PortId) (x : CtxDir) : (setDir s p x).access = s.access := rfl
@[simp] theorem setDir_straps (s : State) (p : PortId) (x : CtxDir) : (setDir s p x).straps = s.straps := rfl
@[simp] theorem setDir_clk (s : State) (p : PortId) (x : CtxDir) : (setDir s p x).clk = s.clk := rfl
@[simp] theorem setDir_pwr (s : State) (p : PortId) (x : CtxDir) : (setDir s p x).pwr = s.pwr := rfl
@[simp] theorem setDir_rails (s : State) (p : PortId) (x : CtxDir) : (setDir s p x).rails = s.rails := rfl
@[simp] theorem setDir_dies (s : State) (p : PortId) (x : CtxDir) : (setDir s p x).dies = s.dies := rfl
@[simp] theorem setDir_hubTemp (s : State) (p : PortId) (x : CtxDir) : (setDir s p x).hubTemp = s.hubTemp := rfl
@[simp] theorem setDir_ddr (s : State) (p : PortId) (x : CtxDir) : (setDir s p x).ddr = s.ddr := rfl
@[simp] theorem setDir_ports (s : State) (p : PortId) (x : CtxDir) : (setDir s p x).ports = s.ports := rfl
@[simp] theorem setDir_herds (s : State) (p : PortId) (x : CtxDir) : (setDir s p x).herds = s.herds := rfl
@[simp] theorem setDir_io (s : State) (p : PortId) (x : CtxDir) : (setDir s p x).io = s.io := rfl
@[simp] theorem setDir_waits (s : State) (p : PortId) (x : CtxDir) : (setDir s p x).waits = s.waits := rfl
@[simp] theorem setDir_flt (s : State) (p : PortId) (x : CtxDir) : (setDir s p x).flt = s.flt := rfl
@[simp] theorem setDir_fw (s : State) (p : PortId) (x : CtxDir) : (setDir s p x).fw = s.fw := rfl
@[simp] theorem setDir_sec (s : State) (p : PortId) (x : CtxDir) : (setDir s p x).sec = s.sec := rfl
@[simp] theorem setDir_nv (s : State) (p : PortId) (x : CtxDir) : (setDir s p x).nv = s.nv := rfl
@[simp] theorem getPort_setDir (s : State) (p : PortId) (x : CtxDir) (p' : PortId) :
    getPort (setDir s p x) p' = getPort s p' := rfl
@[simp] theorem getHerd_setDir (s : State) (p : PortId) (x : CtxDir) (h' : HerdId) :
    getHerd (setDir s p x) h' = getHerd s h' := rfl
@[simp] theorem getDie_setDir (s : State) (p : PortId) (x : CtxDir) (d' : DieId) :
    getDie (setDir s p x) d' = getDie s d' := rfl
@[simp] theorem getDdr_setDir (s : State) (p : PortId) (x : CtxDir) (c' : ChanId) :
    getDdr (setDir s p x) c' = getDdr s c' := rfl
@[simp] theorem getRail_setDir (s : State) (p : PortId) (x : CtxDir) (r' : RailId) :
    getRail (setDir s p x) r' = getRail s r' := rfl
@[simp] theorem getRing_setDir (s : State) (p : PortId) (x : CtxDir) (r' : RingId) :
    getRing (setDir s p x) r' = getRing s r' := rfl
@[simp] theorem getVec_setDir (s : State) (p : PortId) (x : CtxDir) (v' : Nat) :
    getVec (setDir s p x) v' = getVec s v' := rfl
@[simp] theorem getPll_setDir (s : State) (p : PortId) (x : CtxDir) (u' : PllId) :
    getPll (setDir s p x) u' = getPll s u' := rfl
@[simp] theorem getSwitch_setDir (s : State) (p : PortId) (x : CtxDir) (d' : Domain) :
    getSwitch (setDir s p x) d' = getSwitch s d' := rfl
@[simp] theorem regVal_setDir (s : State) (p : PortId) (x : CtxDir) (off : Nat) :
    regVal (setDir s p x) off = regVal s off := rfl

/-! ### setRing -/

@[simp] theorem setRing_pending (s : State) (r : RingId) (x : Ring) : (setRing s r x).pending = s.pending := rfl
@[simp] theorem setRing_time (s : State) (r : RingId) (x : Ring) : (setRing s r x).time = s.time := rfl
@[simp] theorem setRing_mono (s : State) (r : RingId) (x : Ring) : (setRing s r x).mono = s.mono := rfl
@[simp] theorem setRing_fresh (s : State) (r : RingId) (x : Ring) : (setRing s r x).fresh = s.fresh := rfl
@[simp] theorem setRing_regs (s : State) (r : RingId) (x : Ring) : (setRing s r x).regs = s.regs := rfl
@[simp] theorem setRing_latches (s : State) (r : RingId) (x : Ring) : (setRing s r x).latches = s.latches := rfl
@[simp] theorem setRing_heldLow (s : State) (r : RingId) (x : Ring) : (setRing s r x).heldLow = s.heldLow := rfl
@[simp] theorem setRing_access (s : State) (r : RingId) (x : Ring) : (setRing s r x).access = s.access := rfl
@[simp] theorem setRing_straps (s : State) (r : RingId) (x : Ring) : (setRing s r x).straps = s.straps := rfl
@[simp] theorem setRing_clk (s : State) (r : RingId) (x : Ring) : (setRing s r x).clk = s.clk := rfl
@[simp] theorem setRing_pwr (s : State) (r : RingId) (x : Ring) : (setRing s r x).pwr = s.pwr := rfl
@[simp] theorem setRing_rails (s : State) (r : RingId) (x : Ring) : (setRing s r x).rails = s.rails := rfl
@[simp] theorem setRing_dies (s : State) (r : RingId) (x : Ring) : (setRing s r x).dies = s.dies := rfl
@[simp] theorem setRing_hubTemp (s : State) (r : RingId) (x : Ring) : (setRing s r x).hubTemp = s.hubTemp := rfl
@[simp] theorem setRing_ddr (s : State) (r : RingId) (x : Ring) : (setRing s r x).ddr = s.ddr := rfl
@[simp] theorem setRing_store (s : State) (r : RingId) (x : Ring) : (setRing s r x).store = s.store := rfl
@[simp] theorem setRing_ports (s : State) (r : RingId) (x : Ring) : (setRing s r x).ports = s.ports := rfl
@[simp] theorem setRing_herds (s : State) (r : RingId) (x : Ring) : (setRing s r x).herds = s.herds := rfl
@[simp] theorem setRing_waits (s : State) (r : RingId) (x : Ring) : (setRing s r x).waits = s.waits := rfl
@[simp] theorem setRing_flt (s : State) (r : RingId) (x : Ring) : (setRing s r x).flt = s.flt := rfl
@[simp] theorem setRing_fw (s : State) (r : RingId) (x : Ring) : (setRing s r x).fw = s.fw := rfl
@[simp] theorem setRing_sec (s : State) (r : RingId) (x : Ring) : (setRing s r x).sec = s.sec := rfl
@[simp] theorem setRing_nv (s : State) (r : RingId) (x : Ring) : (setRing s r x).nv = s.nv := rfl
@[simp] theorem getPort_setRing (s : State) (r : RingId) (x : Ring) (p' : PortId) :
    getPort (setRing s r x) p' = getPort s p' := rfl
@[simp] theorem getHerd_setRing (s : State) (r : RingId) (x : Ring) (h' : HerdId) :
    getHerd (setRing s r x) h' = getHerd s h' := rfl
@[simp] theorem getDie_setRing (s : State) (r : RingId) (x : Ring) (d' : DieId) :
    getDie (setRing s r x) d' = getDie s d' := rfl
@[simp] theorem getDdr_setRing (s : State) (r : RingId) (x : Ring) (c' : ChanId) :
    getDdr (setRing s r x) c' = getDdr s c' := rfl
@[simp] theorem getRail_setRing (s : State) (r : RingId) (x : Ring) (r' : RailId) :
    getRail (setRing s r x) r' = getRail s r' := rfl
@[simp] theorem getDir_setRing (s : State) (r : RingId) (x : Ring) (p' : PortId) :
    getDir (setRing s r x) p' = getDir s p' := rfl
@[simp] theorem getVec_setRing (s : State) (r : RingId) (x : Ring) (v' : Nat) :
    getVec (setRing s r x) v' = getVec s v' := rfl
@[simp] theorem getPll_setRing (s : State) (r : RingId) (x : Ring) (u' : PllId) :
    getPll (setRing s r x) u' = getPll s u' := rfl
@[simp] theorem getSwitch_setRing (s : State) (r : RingId) (x : Ring) (d' : Domain) :
    getSwitch (setRing s r x) d' = getSwitch s d' := rfl
@[simp] theorem regVal_setRing (s : State) (r : RingId) (x : Ring) (off : Nat) :
    regVal (setRing s r x) off = regVal s off := rfl

/-! ### modRing -/

@[simp] theorem modRing_pending (s : State) (r : RingId) (f : Ring → Ring) :
    (modRing s r f).pending = s.pending := rfl
@[simp] theorem modRing_time (s : State) (r : RingId) (f : Ring → Ring) : (modRing s r f).time = s.time := rfl
@[simp] theorem modRing_mono (s : State) (r : RingId) (f : Ring → Ring) : (modRing s r f).mono = s.mono := rfl
@[simp] theorem modRing_fresh (s : State) (r : RingId) (f : Ring → Ring) : (modRing s r f).fresh = s.fresh := rfl
@[simp] theorem modRing_regs (s : State) (r : RingId) (f : Ring → Ring) : (modRing s r f).regs = s.regs := rfl
@[simp] theorem modRing_latches (s : State) (r : RingId) (f : Ring → Ring) :
    (modRing s r f).latches = s.latches := rfl
@[simp] theorem modRing_heldLow (s : State) (r : RingId) (f : Ring → Ring) :
    (modRing s r f).heldLow = s.heldLow := rfl
@[simp] theorem modRing_access (s : State) (r : RingId) (f : Ring → Ring) : (modRing s r f).access = s.access := rfl
@[simp] theorem modRing_straps (s : State) (r : RingId) (f : Ring → Ring) : (modRing s r f).straps = s.straps := rfl
@[simp] theorem modRing_clk (s : State) (r : RingId) (f : Ring → Ring) : (modRing s r f).clk = s.clk := rfl
@[simp] theorem modRing_pwr (s : State) (r : RingId) (f : Ring → Ring) : (modRing s r f).pwr = s.pwr := rfl
@[simp] theorem modRing_rails (s : State) (r : RingId) (f : Ring → Ring) : (modRing s r f).rails = s.rails := rfl
@[simp] theorem modRing_dies (s : State) (r : RingId) (f : Ring → Ring) : (modRing s r f).dies = s.dies := rfl
@[simp] theorem modRing_hubTemp (s : State) (r : RingId) (f : Ring → Ring) :
    (modRing s r f).hubTemp = s.hubTemp := rfl
@[simp] theorem modRing_ddr (s : State) (r : RingId) (f : Ring → Ring) : (modRing s r f).ddr = s.ddr := rfl
@[simp] theorem modRing_store (s : State) (r : RingId) (f : Ring → Ring) : (modRing s r f).store = s.store := rfl
@[simp] theorem modRing_ports (s : State) (r : RingId) (f : Ring → Ring) : (modRing s r f).ports = s.ports := rfl
@[simp] theorem modRing_herds (s : State) (r : RingId) (f : Ring → Ring) : (modRing s r f).herds = s.herds := rfl
@[simp] theorem modRing_waits (s : State) (r : RingId) (f : Ring → Ring) : (modRing s r f).waits = s.waits := rfl
@[simp] theorem modRing_flt (s : State) (r : RingId) (f : Ring → Ring) : (modRing s r f).flt = s.flt := rfl
@[simp] theorem modRing_fw (s : State) (r : RingId) (f : Ring → Ring) : (modRing s r f).fw = s.fw := rfl
@[simp] theorem modRing_sec (s : State) (r : RingId) (f : Ring → Ring) : (modRing s r f).sec = s.sec := rfl
@[simp] theorem modRing_nv (s : State) (r : RingId) (f : Ring → Ring) : (modRing s r f).nv = s.nv := rfl
@[simp] theorem getPort_modRing (s : State) (r : RingId) (f : Ring → Ring) (p' : PortId) :
    getPort (modRing s r f) p' = getPort s p' := rfl
@[simp] theorem getHerd_modRing (s : State) (r : RingId) (f : Ring → Ring) (h' : HerdId) :
    getHerd (modRing s r f) h' = getHerd s h' := rfl
@[simp] theorem getDie_modRing (s : State) (r : RingId) (f : Ring → Ring) (d' : DieId) :
    getDie (modRing s r f) d' = getDie s d' := rfl
@[simp] theorem getDdr_modRing (s : State) (r : RingId) (f : Ring → Ring) (c' : ChanId) :
    getDdr (modRing s r f) c' = getDdr s c' := rfl
@[simp] theorem getRail_modRing (s : State) (r : RingId) (f : Ring → Ring) (r' : RailId) :
    getRail (modRing s r f) r' = getRail s r' := rfl
@[simp] theorem getDir_modRing (s : State) (r : RingId) (f : Ring → Ring) (p' : PortId) :
    getDir (modRing s r f) p' = getDir s p' := rfl
@[simp] theorem getVec_modRing (s : State) (r : RingId) (f : Ring → Ring) (v' : Nat) :
    getVec (modRing s r f) v' = getVec s v' := rfl
@[simp] theorem getPll_modRing (s : State) (r : RingId) (f : Ring → Ring) (u' : PllId) :
    getPll (modRing s r f) u' = getPll s u' := rfl
@[simp] theorem getSwitch_modRing (s : State) (r : RingId) (f : Ring → Ring) (d' : Domain) :
    getSwitch (modRing s r f) d' = getSwitch s d' := rfl
@[simp] theorem regVal_modRing (s : State) (r : RingId) (f : Ring → Ring) (off : Nat) :
    regVal (modRing s r f) off = regVal s off := rfl

/-! ### setVec -/

@[simp] theorem setVec_pending (s : State) (v : Nat) (x : Vec) : (setVec s v x).pending = s.pending := rfl
@[simp] theorem setVec_time (s : State) (v : Nat) (x : Vec) : (setVec s v x).time = s.time := rfl
@[simp] theorem setVec_mono (s : State) (v : Nat) (x : Vec) : (setVec s v x).mono = s.mono := rfl
@[simp] theorem setVec_fresh (s : State) (v : Nat) (x : Vec) : (setVec s v x).fresh = s.fresh := rfl
@[simp] theorem setVec_regs (s : State) (v : Nat) (x : Vec) : (setVec s v x).regs = s.regs := rfl
@[simp] theorem setVec_latches (s : State) (v : Nat) (x : Vec) : (setVec s v x).latches = s.latches := rfl
@[simp] theorem setVec_heldLow (s : State) (v : Nat) (x : Vec) : (setVec s v x).heldLow = s.heldLow := rfl
@[simp] theorem setVec_access (s : State) (v : Nat) (x : Vec) : (setVec s v x).access = s.access := rfl
@[simp] theorem setVec_straps (s : State) (v : Nat) (x : Vec) : (setVec s v x).straps = s.straps := rfl
@[simp] theorem setVec_clk (s : State) (v : Nat) (x : Vec) : (setVec s v x).clk = s.clk := rfl
@[simp] theorem setVec_pwr (s : State) (v : Nat) (x : Vec) : (setVec s v x).pwr = s.pwr := rfl
@[simp] theorem setVec_rails (s : State) (v : Nat) (x : Vec) : (setVec s v x).rails = s.rails := rfl
@[simp] theorem setVec_dies (s : State) (v : Nat) (x : Vec) : (setVec s v x).dies = s.dies := rfl
@[simp] theorem setVec_hubTemp (s : State) (v : Nat) (x : Vec) : (setVec s v x).hubTemp = s.hubTemp := rfl
@[simp] theorem setVec_ddr (s : State) (v : Nat) (x : Vec) : (setVec s v x).ddr = s.ddr := rfl
@[simp] theorem setVec_store (s : State) (v : Nat) (x : Vec) : (setVec s v x).store = s.store := rfl
@[simp] theorem setVec_ports (s : State) (v : Nat) (x : Vec) : (setVec s v x).ports = s.ports := rfl
@[simp] theorem setVec_herds (s : State) (v : Nat) (x : Vec) : (setVec s v x).herds = s.herds := rfl
@[simp] theorem setVec_waits (s : State) (v : Nat) (x : Vec) : (setVec s v x).waits = s.waits := rfl
@[simp] theorem setVec_flt (s : State) (v : Nat) (x : Vec) : (setVec s v x).flt = s.flt := rfl
@[simp] theorem setVec_fw (s : State) (v : Nat) (x : Vec) : (setVec s v x).fw = s.fw := rfl
@[simp] theorem setVec_sec (s : State) (v : Nat) (x : Vec) : (setVec s v x).sec = s.sec := rfl
@[simp] theorem setVec_nv (s : State) (v : Nat) (x : Vec) : (setVec s v x).nv = s.nv := rfl
@[simp] theorem getPort_setVec (s : State) (v : Nat) (x : Vec) (p' : PortId) :
    getPort (setVec s v x) p' = getPort s p' := rfl
@[simp] theorem getHerd_setVec (s : State) (v : Nat) (x : Vec) (h' : HerdId) :
    getHerd (setVec s v x) h' = getHerd s h' := rfl
@[simp] theorem getDie_setVec (s : State) (v : Nat) (x : Vec) (d' : DieId) :
    getDie (setVec s v x) d' = getDie s d' := rfl
@[simp] theorem getDdr_setVec (s : State) (v : Nat) (x : Vec) (c' : ChanId) :
    getDdr (setVec s v x) c' = getDdr s c' := rfl
@[simp] theorem getRail_setVec (s : State) (v : Nat) (x : Vec) (r' : RailId) :
    getRail (setVec s v x) r' = getRail s r' := rfl
@[simp] theorem getDir_setVec (s : State) (v : Nat) (x : Vec) (p' : PortId) :
    getDir (setVec s v x) p' = getDir s p' := rfl
@[simp] theorem getRing_setVec (s : State) (v : Nat) (x : Vec) (r' : RingId) :
    getRing (setVec s v x) r' = getRing s r' := rfl
@[simp] theorem getPll_setVec (s : State) (v : Nat) (x : Vec) (u' : PllId) :
    getPll (setVec s v x) u' = getPll s u' := rfl
@[simp] theorem getSwitch_setVec (s : State) (v : Nat) (x : Vec) (d' : Domain) :
    getSwitch (setVec s v x) d' = getSwitch s d' := rfl
@[simp] theorem regVal_setVec (s : State) (v : Nat) (x : Vec) (off : Nat) :
    regVal (setVec s v x) off = regVal s off := rfl

/-! ### emit -/

@[simp] theorem emit_pending (s : State) (b : Bus) : (emit s b).pending = s.pending := rfl
@[simp] theorem emit_time (s : State) (b : Bus) : (emit s b).time = s.time := rfl
@[simp] theorem emit_mono (s : State) (b : Bus) : (emit s b).mono = s.mono := rfl
@[simp] theorem emit_fresh (s : State) (b : Bus) : (emit s b).fresh = s.fresh := rfl
@[simp] theorem emit_regs (s : State) (b : Bus) : (emit s b).regs = s.regs := rfl
@[simp] theorem emit_latches (s : State) (b : Bus) : (emit s b).latches = s.latches := rfl
@[simp] theorem emit_heldLow (s : State) (b : Bus) : (emit s b).heldLow = s.heldLow := rfl
@[simp] theorem emit_access (s : State) (b : Bus) : (emit s b).access = s.access := rfl
@[simp] theorem emit_straps (s : State) (b : Bus) : (emit s b).straps = s.straps := rfl
@[simp] theorem emit_clk (s : State) (b : Bus) : (emit s b).clk = s.clk := rfl
@[simp] theorem emit_pwr (s : State) (b : Bus) : (emit s b).pwr = s.pwr := rfl
@[simp] theorem emit_rails (s : State) (b : Bus) : (emit s b).rails = s.rails := rfl
@[simp] theorem emit_dies (s : State) (b : Bus) : (emit s b).dies = s.dies := rfl
@[simp] theorem emit_hubTemp (s : State) (b : Bus) : (emit s b).hubTemp = s.hubTemp := rfl
@[simp] theorem emit_ddr (s : State) (b : Bus) : (emit s b).ddr = s.ddr := rfl
@[simp] theorem emit_store (s : State) (b : Bus) : (emit s b).store = s.store := rfl
@[simp] theorem emit_ports (s : State) (b : Bus) : (emit s b).ports = s.ports := rfl
@[simp] theorem emit_herds (s : State) (b : Bus) : (emit s b).herds = s.herds := rfl
@[simp] theorem emit_waits (s : State) (b : Bus) : (emit s b).waits = s.waits := rfl
@[simp] theorem emit_flt (s : State) (b : Bus) : (emit s b).flt = s.flt := rfl
@[simp] theorem emit_fw (s : State) (b : Bus) : (emit s b).fw = s.fw := rfl
@[simp] theorem emit_sec (s : State) (b : Bus) : (emit s b).sec = s.sec := rfl
@[simp] theorem emit_nv (s : State) (b : Bus) : (emit s b).nv = s.nv := rfl
@[simp] theorem getPort_emit (s : State) (b : Bus) (p' : PortId) : getPort (emit s b) p' = getPort s p' := rfl
@[simp] theorem getHerd_emit (s : State) (b : Bus) (h' : HerdId) : getHerd (emit s b) h' = getHerd s h' := rfl
@[simp] theorem getDie_emit (s : State) (b : Bus) (d' : DieId) : getDie (emit s b) d' = getDie s d' := rfl
@[simp] theorem getDdr_emit (s : State) (b : Bus) (c' : ChanId) : getDdr (emit s b) c' = getDdr s c' := rfl
@[simp] theorem getRail_emit (s : State) (b : Bus) (r' : RailId) : getRail (emit s b) r' = getRail s r' := rfl
@[simp] theorem getDir_emit (s : State) (b : Bus) (p' : PortId) : getDir (emit s b) p' = getDir s p' := rfl
@[simp] theorem getRing_emit (s : State) (b : Bus) (r' : RingId) : getRing (emit s b) r' = getRing s r' := rfl
@[simp] theorem getVec_emit (s : State) (b : Bus) (v' : Nat) : getVec (emit s b) v' = getVec s v' := rfl
@[simp] theorem getPll_emit (s : State) (b : Bus) (u' : PllId) : getPll (emit s b) u' = getPll s u' := rfl
@[simp] theorem getSwitch_emit (s : State) (b : Bus) (d' : Domain) : getSwitch (emit s b) d' = getSwitch s d' := rfl
@[simp] theorem regVal_emit (s : State) (b : Bus) (off : Nat) : regVal (emit s b) off = regVal s off := rfl

/-! ### setPll -/

@[simp] theorem setPll_pending (s : State) (u : PllId) (x : Pll) : (setPll s u x).pending = s.pending := rfl
@[simp] theorem setPll_time (s : State) (u : PllId) (x : Pll) : (setPll s u x).time = s.time := rfl
@[simp] theorem setPll_mono (s : State) (u : PllId) (x : Pll) : (setPll s u x).mono = s.mono := rfl
@[simp] theorem setPll_fresh (s : State) (u : PllId) (x : Pll) : (setPll s u x).fresh = s.fresh := rfl
@[simp] theorem setPll_regs (s : State) (u : PllId) (x : Pll) : (setPll s u x).regs = s.regs := rfl
@[simp] theorem setPll_latches (s : State) (u : PllId) (x : Pll) : (setPll s u x).latches = s.latches := rfl
@[simp] theorem setPll_heldLow (s : State) (u : PllId) (x : Pll) : (setPll s u x).heldLow = s.heldLow := rfl
@[simp] theorem setPll_access (s : State) (u : PllId) (x : Pll) : (setPll s u x).access = s.access := rfl
@[simp] theorem setPll_straps (s : State) (u : PllId) (x : Pll) : (setPll s u x).straps = s.straps := rfl
@[simp] theorem setPll_pwr (s : State) (u : PllId) (x : Pll) : (setPll s u x).pwr = s.pwr := rfl
@[simp] theorem setPll_rails (s : State) (u : PllId) (x : Pll) : (setPll s u x).rails = s.rails := rfl
@[simp] theorem setPll_dies (s : State) (u : PllId) (x : Pll) : (setPll s u x).dies = s.dies := rfl
@[simp] theorem setPll_hubTemp (s : State) (u : PllId) (x : Pll) : (setPll s u x).hubTemp = s.hubTemp := rfl
@[simp] theorem setPll_ddr (s : State) (u : PllId) (x : Pll) : (setPll s u x).ddr = s.ddr := rfl
@[simp] theorem setPll_store (s : State) (u : PllId) (x : Pll) : (setPll s u x).store = s.store := rfl
@[simp] theorem setPll_ports (s : State) (u : PllId) (x : Pll) : (setPll s u x).ports = s.ports := rfl
@[simp] theorem setPll_herds (s : State) (u : PllId) (x : Pll) : (setPll s u x).herds = s.herds := rfl
@[simp] theorem setPll_io (s : State) (u : PllId) (x : Pll) : (setPll s u x).io = s.io := rfl
@[simp] theorem setPll_waits (s : State) (u : PllId) (x : Pll) : (setPll s u x).waits = s.waits := rfl
@[simp] theorem setPll_flt (s : State) (u : PllId) (x : Pll) : (setPll s u x).flt = s.flt := rfl
@[simp] theorem setPll_fw (s : State) (u : PllId) (x : Pll) : (setPll s u x).fw = s.fw := rfl
@[simp] theorem setPll_sec (s : State) (u : PllId) (x : Pll) : (setPll s u x).sec = s.sec := rfl
@[simp] theorem setPll_nv (s : State) (u : PllId) (x : Pll) : (setPll s u x).nv = s.nv := rfl
@[simp] theorem getPort_setPll (s : State) (u : PllId) (x : Pll) (p' : PortId) :
    getPort (setPll s u x) p' = getPort s p' := rfl
@[simp] theorem getHerd_setPll (s : State) (u : PllId) (x : Pll) (h' : HerdId) :
    getHerd (setPll s u x) h' = getHerd s h' := rfl
@[simp] theorem getDie_setPll (s : State) (u : PllId) (x : Pll) (d' : DieId) :
    getDie (setPll s u x) d' = getDie s d' := rfl
@[simp] theorem getDdr_setPll (s : State) (u : PllId) (x : Pll) (c' : ChanId) :
    getDdr (setPll s u x) c' = getDdr s c' := rfl
@[simp] theorem getRail_setPll (s : State) (u : PllId) (x : Pll) (r' : RailId) :
    getRail (setPll s u x) r' = getRail s r' := rfl
@[simp] theorem getDir_setPll (s : State) (u : PllId) (x : Pll) (p' : PortId) :
    getDir (setPll s u x) p' = getDir s p' := rfl
@[simp] theorem getRing_setPll (s : State) (u : PllId) (x : Pll) (r' : RingId) :
    getRing (setPll s u x) r' = getRing s r' := rfl
@[simp] theorem getVec_setPll (s : State) (u : PllId) (x : Pll) (v' : Nat) :
    getVec (setPll s u x) v' = getVec s v' := rfl
@[simp] theorem getSwitch_setPll (s : State) (u : PllId) (x : Pll) (d' : Domain) :
    getSwitch (setPll s u x) d' = getSwitch s d' := rfl
@[simp] theorem regVal_setPll (s : State) (u : PllId) (x : Pll) (off : Nat) :
    regVal (setPll s u x) off = regVal s off := rfl

/-! ### setSwitch -/

@[simp] theorem setSwitch_pending (s : State) (d : Domain) (x : Switch) : (setSwitch s d x).pending = s.pending := rfl
@[simp] theorem setSwitch_time (s : State) (d : Domain) (x : Switch) : (setSwitch s d x).time = s.time := rfl
@[simp] theorem setSwitch_mono (s : State) (d : Domain) (x : Switch) : (setSwitch s d x).mono = s.mono := rfl
@[simp] theorem setSwitch_fresh (s : State) (d : Domain) (x : Switch) : (setSwitch s d x).fresh = s.fresh := rfl
@[simp] theorem setSwitch_regs (s : State) (d : Domain) (x : Switch) : (setSwitch s d x).regs = s.regs := rfl
@[simp] theorem setSwitch_latches (s : State) (d : Domain) (x : Switch) : (setSwitch s d x).latches = s.latches := rfl
@[simp] theorem setSwitch_heldLow (s : State) (d : Domain) (x : Switch) : (setSwitch s d x).heldLow = s.heldLow := rfl
@[simp] theorem setSwitch_access (s : State) (d : Domain) (x : Switch) : (setSwitch s d x).access = s.access := rfl
@[simp] theorem setSwitch_straps (s : State) (d : Domain) (x : Switch) : (setSwitch s d x).straps = s.straps := rfl
@[simp] theorem setSwitch_pwr (s : State) (d : Domain) (x : Switch) : (setSwitch s d x).pwr = s.pwr := rfl
@[simp] theorem setSwitch_rails (s : State) (d : Domain) (x : Switch) : (setSwitch s d x).rails = s.rails := rfl
@[simp] theorem setSwitch_dies (s : State) (d : Domain) (x : Switch) : (setSwitch s d x).dies = s.dies := rfl
@[simp] theorem setSwitch_hubTemp (s : State) (d : Domain) (x : Switch) : (setSwitch s d x).hubTemp = s.hubTemp := rfl
@[simp] theorem setSwitch_ddr (s : State) (d : Domain) (x : Switch) : (setSwitch s d x).ddr = s.ddr := rfl
@[simp] theorem setSwitch_store (s : State) (d : Domain) (x : Switch) : (setSwitch s d x).store = s.store := rfl
@[simp] theorem setSwitch_ports (s : State) (d : Domain) (x : Switch) : (setSwitch s d x).ports = s.ports := rfl
@[simp] theorem setSwitch_herds (s : State) (d : Domain) (x : Switch) : (setSwitch s d x).herds = s.herds := rfl
@[simp] theorem setSwitch_io (s : State) (d : Domain) (x : Switch) : (setSwitch s d x).io = s.io := rfl
@[simp] theorem setSwitch_waits (s : State) (d : Domain) (x : Switch) : (setSwitch s d x).waits = s.waits := rfl
@[simp] theorem setSwitch_flt (s : State) (d : Domain) (x : Switch) : (setSwitch s d x).flt = s.flt := rfl
@[simp] theorem setSwitch_fw (s : State) (d : Domain) (x : Switch) : (setSwitch s d x).fw = s.fw := rfl
@[simp] theorem setSwitch_sec (s : State) (d : Domain) (x : Switch) : (setSwitch s d x).sec = s.sec := rfl
@[simp] theorem setSwitch_nv (s : State) (d : Domain) (x : Switch) : (setSwitch s d x).nv = s.nv := rfl
@[simp] theorem getPort_setSwitch (s : State) (d : Domain) (x : Switch) (p' : PortId) :
    getPort (setSwitch s d x) p' = getPort s p' := rfl
@[simp] theorem getHerd_setSwitch (s : State) (d : Domain) (x : Switch) (h' : HerdId) :
    getHerd (setSwitch s d x) h' = getHerd s h' := rfl
@[simp] theorem getDie_setSwitch (s : State) (d : Domain) (x : Switch) (d' : DieId) :
    getDie (setSwitch s d x) d' = getDie s d' := rfl
@[simp] theorem getDdr_setSwitch (s : State) (d : Domain) (x : Switch) (c' : ChanId) :
    getDdr (setSwitch s d x) c' = getDdr s c' := rfl
@[simp] theorem getRail_setSwitch (s : State) (d : Domain) (x : Switch) (r' : RailId) :
    getRail (setSwitch s d x) r' = getRail s r' := rfl
@[simp] theorem getDir_setSwitch (s : State) (d : Domain) (x : Switch) (p' : PortId) :
    getDir (setSwitch s d x) p' = getDir s p' := rfl
@[simp] theorem getRing_setSwitch (s : State) (d : Domain) (x : Switch) (r' : RingId) :
    getRing (setSwitch s d x) r' = getRing s r' := rfl
@[simp] theorem getVec_setSwitch (s : State) (d : Domain) (x : Switch) (v' : Nat) :
    getVec (setSwitch s d x) v' = getVec s v' := rfl
@[simp] theorem getPll_setSwitch (s : State) (d : Domain) (x : Switch) (u' : PllId) :
    getPll (setSwitch s d x) u' = getPll s u' := rfl
@[simp] theorem regVal_setSwitch (s : State) (d : Domain) (x : Switch) (off : Nat) :
    regVal (setSwitch s d x) off = regVal s off := rfl

/-! ### setHerdBuf -/

@[simp] theorem setHerdBuf_pending (s : State) (h : HerdId) (b : EvBuf) :
    (setHerdBuf s h b).pending = s.pending := rfl
@[simp] theorem setHerdBuf_time (s : State) (h : HerdId) (b : EvBuf) : (setHerdBuf s h b).time = s.time := rfl
@[simp] theorem setHerdBuf_mono (s : State) (h : HerdId) (b : EvBuf) : (setHerdBuf s h b).mono = s.mono := rfl
@[simp] theorem setHerdBuf_fresh (s : State) (h : HerdId) (b : EvBuf) : (setHerdBuf s h b).fresh = s.fresh := rfl
@[simp] theorem setHerdBuf_regs (s : State) (h : HerdId) (b : EvBuf) : (setHerdBuf s h b).regs = s.regs := rfl
@[simp] theorem setHerdBuf_latches (s : State) (h : HerdId) (b : EvBuf) :
    (setHerdBuf s h b).latches = s.latches := rfl
@[simp] theorem setHerdBuf_heldLow (s : State) (h : HerdId) (b : EvBuf) :
    (setHerdBuf s h b).heldLow = s.heldLow := rfl
@[simp] theorem setHerdBuf_access (s : State) (h : HerdId) (b : EvBuf) : (setHerdBuf s h b).access = s.access := rfl
@[simp] theorem setHerdBuf_straps (s : State) (h : HerdId) (b : EvBuf) : (setHerdBuf s h b).straps = s.straps := rfl
@[simp] theorem setHerdBuf_clk (s : State) (h : HerdId) (b : EvBuf) : (setHerdBuf s h b).clk = s.clk := rfl
@[simp] theorem setHerdBuf_pwr (s : State) (h : HerdId) (b : EvBuf) : (setHerdBuf s h b).pwr = s.pwr := rfl
@[simp] theorem setHerdBuf_rails (s : State) (h : HerdId) (b : EvBuf) : (setHerdBuf s h b).rails = s.rails := rfl
@[simp] theorem setHerdBuf_dies (s : State) (h : HerdId) (b : EvBuf) : (setHerdBuf s h b).dies = s.dies := rfl
@[simp] theorem setHerdBuf_hubTemp (s : State) (h : HerdId) (b : EvBuf) :
    (setHerdBuf s h b).hubTemp = s.hubTemp := rfl
@[simp] theorem setHerdBuf_ddr (s : State) (h : HerdId) (b : EvBuf) : (setHerdBuf s h b).ddr = s.ddr := rfl
@[simp] theorem setHerdBuf_store (s : State) (h : HerdId) (b : EvBuf) : (setHerdBuf s h b).store = s.store := rfl
@[simp] theorem setHerdBuf_ports (s : State) (h : HerdId) (b : EvBuf) : (setHerdBuf s h b).ports = s.ports := rfl
@[simp] theorem setHerdBuf_herds (s : State) (h : HerdId) (b : EvBuf) : (setHerdBuf s h b).herds = s.herds := rfl
@[simp] theorem setHerdBuf_waits (s : State) (h : HerdId) (b : EvBuf) : (setHerdBuf s h b).waits = s.waits := rfl
@[simp] theorem setHerdBuf_flt (s : State) (h : HerdId) (b : EvBuf) : (setHerdBuf s h b).flt = s.flt := rfl
@[simp] theorem setHerdBuf_fw (s : State) (h : HerdId) (b : EvBuf) : (setHerdBuf s h b).fw = s.fw := rfl
@[simp] theorem setHerdBuf_sec (s : State) (h : HerdId) (b : EvBuf) : (setHerdBuf s h b).sec = s.sec := rfl
@[simp] theorem setHerdBuf_nv (s : State) (h : HerdId) (b : EvBuf) : (setHerdBuf s h b).nv = s.nv := rfl
@[simp] theorem getPort_setHerdBuf (s : State) (h : HerdId) (b : EvBuf) (p' : PortId) :
    getPort (setHerdBuf s h b) p' = getPort s p' := rfl
@[simp] theorem getHerd_setHerdBuf (s : State) (h : HerdId) (b : EvBuf) (h' : HerdId) :
    getHerd (setHerdBuf s h b) h' = getHerd s h' := rfl
@[simp] theorem getDie_setHerdBuf (s : State) (h : HerdId) (b : EvBuf) (d' : DieId) :
    getDie (setHerdBuf s h b) d' = getDie s d' := rfl
@[simp] theorem getDdr_setHerdBuf (s : State) (h : HerdId) (b : EvBuf) (c' : ChanId) :
    getDdr (setHerdBuf s h b) c' = getDdr s c' := rfl
@[simp] theorem getRail_setHerdBuf (s : State) (h : HerdId) (b : EvBuf) (r' : RailId) :
    getRail (setHerdBuf s h b) r' = getRail s r' := rfl
@[simp] theorem getDir_setHerdBuf (s : State) (h : HerdId) (b : EvBuf) (p' : PortId) :
    getDir (setHerdBuf s h b) p' = getDir s p' := rfl
@[simp] theorem getRing_setHerdBuf (s : State) (h : HerdId) (b : EvBuf) (r' : RingId) :
    getRing (setHerdBuf s h b) r' = getRing s r' := rfl
@[simp] theorem getVec_setHerdBuf (s : State) (h : HerdId) (b : EvBuf) (v' : Nat) :
    getVec (setHerdBuf s h b) v' = getVec s v' := rfl
@[simp] theorem getPll_setHerdBuf (s : State) (h : HerdId) (b : EvBuf) (u' : PllId) :
    getPll (setHerdBuf s h b) u' = getPll s u' := rfl
@[simp] theorem getSwitch_setHerdBuf (s : State) (h : HerdId) (b : EvBuf) (d' : Domain) :
    getSwitch (setHerdBuf s h b) d' = getSwitch s d' := rfl
@[simp] theorem regVal_setHerdBuf (s : State) (h : HerdId) (b : EvBuf) (off : Nat) :
    regVal (setHerdBuf s h b) off = regVal s off := rfl

/-! ### setInterval -/

@[simp] theorem setInterval_pending (s : State) (k : Nat) (i : Interval) :
    (setInterval s k i).pending = s.pending := rfl
@[simp] theorem setInterval_time (s : State) (k : Nat) (i : Interval) : (setInterval s k i).time = s.time := rfl
@[simp] theorem setInterval_mono (s : State) (k : Nat) (i : Interval) : (setInterval s k i).mono = s.mono := rfl
@[simp] theorem setInterval_fresh (s : State) (k : Nat) (i : Interval) : (setInterval s k i).fresh = s.fresh := rfl
@[simp] theorem setInterval_regs (s : State) (k : Nat) (i : Interval) : (setInterval s k i).regs = s.regs := rfl
@[simp] theorem setInterval_latches (s : State) (k : Nat) (i : Interval) :
    (setInterval s k i).latches = s.latches := rfl
@[simp] theorem setInterval_heldLow (s : State) (k : Nat) (i : Interval) :
    (setInterval s k i).heldLow = s.heldLow := rfl
@[simp] theorem setInterval_access (s : State) (k : Nat) (i : Interval) : (setInterval s k i).access = s.access := rfl
@[simp] theorem setInterval_straps (s : State) (k : Nat) (i : Interval) : (setInterval s k i).straps = s.straps := rfl
@[simp] theorem setInterval_clk (s : State) (k : Nat) (i : Interval) : (setInterval s k i).clk = s.clk := rfl
@[simp] theorem setInterval_pwr (s : State) (k : Nat) (i : Interval) : (setInterval s k i).pwr = s.pwr := rfl
@[simp] theorem setInterval_rails (s : State) (k : Nat) (i : Interval) : (setInterval s k i).rails = s.rails := rfl
@[simp] theorem setInterval_dies (s : State) (k : Nat) (i : Interval) : (setInterval s k i).dies = s.dies := rfl
@[simp] theorem setInterval_hubTemp (s : State) (k : Nat) (i : Interval) :
    (setInterval s k i).hubTemp = s.hubTemp := rfl
@[simp] theorem setInterval_ddr (s : State) (k : Nat) (i : Interval) : (setInterval s k i).ddr = s.ddr := rfl
@[simp] theorem setInterval_store (s : State) (k : Nat) (i : Interval) : (setInterval s k i).store = s.store := rfl
@[simp] theorem setInterval_ports (s : State) (k : Nat) (i : Interval) : (setInterval s k i).ports = s.ports := rfl
@[simp] theorem setInterval_herds (s : State) (k : Nat) (i : Interval) : (setInterval s k i).herds = s.herds := rfl
@[simp] theorem setInterval_waits (s : State) (k : Nat) (i : Interval) : (setInterval s k i).waits = s.waits := rfl
@[simp] theorem setInterval_flt (s : State) (k : Nat) (i : Interval) : (setInterval s k i).flt = s.flt := rfl
@[simp] theorem setInterval_fw (s : State) (k : Nat) (i : Interval) : (setInterval s k i).fw = s.fw := rfl
@[simp] theorem setInterval_sec (s : State) (k : Nat) (i : Interval) : (setInterval s k i).sec = s.sec := rfl
@[simp] theorem setInterval_nv (s : State) (k : Nat) (i : Interval) : (setInterval s k i).nv = s.nv := rfl
@[simp] theorem getPort_setInterval (s : State) (k : Nat) (i : Interval) (p' : PortId) :
    getPort (setInterval s k i) p' = getPort s p' := rfl
@[simp] theorem getHerd_setInterval (s : State) (k : Nat) (i : Interval) (h' : HerdId) :
    getHerd (setInterval s k i) h' = getHerd s h' := rfl
@[simp] theorem getDie_setInterval (s : State) (k : Nat) (i : Interval) (d' : DieId) :
    getDie (setInterval s k i) d' = getDie s d' := rfl
@[simp] theorem getDdr_setInterval (s : State) (k : Nat) (i : Interval) (c' : ChanId) :
    getDdr (setInterval s k i) c' = getDdr s c' := rfl
@[simp] theorem getRail_setInterval (s : State) (k : Nat) (i : Interval) (r' : RailId) :
    getRail (setInterval s k i) r' = getRail s r' := rfl
@[simp] theorem getDir_setInterval (s : State) (k : Nat) (i : Interval) (p' : PortId) :
    getDir (setInterval s k i) p' = getDir s p' := rfl
@[simp] theorem getRing_setInterval (s : State) (k : Nat) (i : Interval) (r' : RingId) :
    getRing (setInterval s k i) r' = getRing s r' := rfl
@[simp] theorem getVec_setInterval (s : State) (k : Nat) (i : Interval) (v' : Nat) :
    getVec (setInterval s k i) v' = getVec s v' := rfl
@[simp] theorem getPll_setInterval (s : State) (k : Nat) (i : Interval) (u' : PllId) :
    getPll (setInterval s k i) u' = getPll s u' := rfl
@[simp] theorem getSwitch_setInterval (s : State) (k : Nat) (i : Interval) (d' : Domain) :
    getSwitch (setInterval s k i) d' = getSwitch s d' := rfl
@[simp] theorem regVal_setInterval (s : State) (k : Nat) (i : Interval) (off : Nat) :
    regVal (setInterval s k i) off = regVal s off := rfl

/-! ### bumpGen -/

@[simp] theorem bumpGen_pending (s : State) (src : Nat) : (bumpGen s src).pending = s.pending := rfl
@[simp] theorem bumpGen_time (s : State) (src : Nat) : (bumpGen s src).time = s.time := rfl
@[simp] theorem bumpGen_mono (s : State) (src : Nat) : (bumpGen s src).mono = s.mono := rfl
@[simp] theorem bumpGen_fresh (s : State) (src : Nat) : (bumpGen s src).fresh = s.fresh := rfl
@[simp] theorem bumpGen_regs (s : State) (src : Nat) : (bumpGen s src).regs = s.regs := rfl
@[simp] theorem bumpGen_latches (s : State) (src : Nat) : (bumpGen s src).latches = s.latches := rfl
@[simp] theorem bumpGen_heldLow (s : State) (src : Nat) : (bumpGen s src).heldLow = s.heldLow := rfl
@[simp] theorem bumpGen_access (s : State) (src : Nat) : (bumpGen s src).access = s.access := rfl
@[simp] theorem bumpGen_straps (s : State) (src : Nat) : (bumpGen s src).straps = s.straps := rfl
@[simp] theorem bumpGen_clk (s : State) (src : Nat) : (bumpGen s src).clk = s.clk := rfl
@[simp] theorem bumpGen_pwr (s : State) (src : Nat) : (bumpGen s src).pwr = s.pwr := rfl
@[simp] theorem bumpGen_rails (s : State) (src : Nat) : (bumpGen s src).rails = s.rails := rfl
@[simp] theorem bumpGen_dies (s : State) (src : Nat) : (bumpGen s src).dies = s.dies := rfl
@[simp] theorem bumpGen_hubTemp (s : State) (src : Nat) : (bumpGen s src).hubTemp = s.hubTemp := rfl
@[simp] theorem bumpGen_ddr (s : State) (src : Nat) : (bumpGen s src).ddr = s.ddr := rfl
@[simp] theorem bumpGen_store (s : State) (src : Nat) : (bumpGen s src).store = s.store := rfl
@[simp] theorem bumpGen_ports (s : State) (src : Nat) : (bumpGen s src).ports = s.ports := rfl
@[simp] theorem bumpGen_herds (s : State) (src : Nat) : (bumpGen s src).herds = s.herds := rfl
@[simp] theorem bumpGen_waits (s : State) (src : Nat) : (bumpGen s src).waits = s.waits := rfl
@[simp] theorem bumpGen_flt (s : State) (src : Nat) : (bumpGen s src).flt = s.flt := rfl
@[simp] theorem bumpGen_fw (s : State) (src : Nat) : (bumpGen s src).fw = s.fw := rfl
@[simp] theorem bumpGen_sec (s : State) (src : Nat) : (bumpGen s src).sec = s.sec := rfl
@[simp] theorem bumpGen_nv (s : State) (src : Nat) : (bumpGen s src).nv = s.nv := rfl
@[simp] theorem getPort_bumpGen (s : State) (src : Nat) (p' : PortId) :
    getPort (bumpGen s src) p' = getPort s p' := rfl
@[simp] theorem getHerd_bumpGen (s : State) (src : Nat) (h' : HerdId) :
    getHerd (bumpGen s src) h' = getHerd s h' := rfl
@[simp] theorem getDie_bumpGen (s : State) (src : Nat) (d' : DieId) : getDie (bumpGen s src) d' = getDie s d' := rfl
@[simp] theorem getDdr_bumpGen (s : State) (src : Nat) (c' : ChanId) : getDdr (bumpGen s src) c' = getDdr s c' := rfl
@[simp] theorem getRail_bumpGen (s : State) (src : Nat) (r' : RailId) :
    getRail (bumpGen s src) r' = getRail s r' := rfl
@[simp] theorem getDir_bumpGen (s : State) (src : Nat) (p' : PortId) : getDir (bumpGen s src) p' = getDir s p' := rfl
@[simp] theorem getRing_bumpGen (s : State) (src : Nat) (r' : RingId) :
    getRing (bumpGen s src) r' = getRing s r' := rfl
@[simp] theorem getVec_bumpGen (s : State) (src : Nat) (v' : Nat) : getVec (bumpGen s src) v' = getVec s v' := rfl
@[simp] theorem getPll_bumpGen (s : State) (src : Nat) (u' : PllId) : getPll (bumpGen s src) u' = getPll s u' := rfl
@[simp] theorem getSwitch_bumpGen (s : State) (src : Nat) (d' : Domain) :
    getSwitch (bumpGen s src) d' = getSwitch s d' := rfl
@[simp] theorem regVal_bumpGen (s : State) (src : Nat) (off : Nat) : regVal (bumpGen s src) off = regVal s off := rfl

/-! ### Reading back -/

@[simp] theorem getPort_setPort_self (s : State) (i : PortId) (x : Port) : getPort (setPort s i x) i = x := by
  simp [getPort, setPort]

theorem getPort_setPort_ne (s : State) {i j : PortId} (x : Port) (n : j ≠ i) : getPort (setPort s i x) j = getPort s j := by
  simp only [getPort, setPort]
  exact tabGet_tabSet_ne _ _ _ (fun h => n (Fin.ext h))

@[simp] theorem getPort_modPort_self (s : State) (i : PortId) (f : Port → Port) : getPort (modPort s i f) i = f (getPort s i) := by
  simp [modPort]

theorem getPort_modPort_ne (s : State) {i j : PortId} (f : Port → Port) (n : j ≠ i) : getPort (modPort s i f) j = getPort s j :=
  getPort_setPort_ne s _ n

@[simp] theorem getHerd_setHerd_self (s : State) (i : HerdId) (x : Herd) : getHerd (setHerd s i x) i = x := by
  simp [getHerd, setHerd]

theorem getHerd_setHerd_ne (s : State) {i j : HerdId} (x : Herd) (n : j ≠ i) : getHerd (setHerd s i x) j = getHerd s j := by
  simp only [getHerd, setHerd]
  exact tabGet_tabSet_ne _ _ _ (fun h => n (Fin.ext h))

@[simp] theorem getHerd_modHerd_self (s : State) (i : HerdId) (f : Herd → Herd) : getHerd (modHerd s i f) i = f (getHerd s i) := by
  simp [modHerd]

theorem getHerd_modHerd_ne (s : State) {i j : HerdId} (f : Herd → Herd) (n : j ≠ i) : getHerd (modHerd s i f) j = getHerd s j :=
  getHerd_setHerd_ne s _ n

@[simp] theorem getDie_setDie_self (s : State) (i : DieId) (x : Die) : getDie (setDie s i x) i = x := by
  simp [getDie, setDie]

theorem getDie_setDie_ne (s : State) {i j : DieId} (x : Die) (n : j ≠ i) : getDie (setDie s i x) j = getDie s j := by
  simp only [getDie, setDie]
  exact tabGet_tabSet_ne _ _ _ (fun h => n (Fin.ext h))

@[simp] theorem getDie_modDie_self (s : State) (i : DieId) (f : Die → Die) : getDie (modDie s i f) i = f (getDie s i) := by
  simp [modDie]

theorem getDie_modDie_ne (s : State) {i j : DieId} (f : Die → Die) (n : j ≠ i) : getDie (modDie s i f) j = getDie s j :=
  getDie_setDie_ne s _ n

@[simp] theorem getDdr_setDdr_self (s : State) (i : ChanId) (x : Ddr) : getDdr (setDdr s i x) i = x := by
  simp [getDdr, setDdr]

theorem getDdr_setDdr_ne (s : State) {i j : ChanId} (x : Ddr) (n : j ≠ i) : getDdr (setDdr s i x) j = getDdr s j := by
  simp only [getDdr, setDdr]
  exact tabGet_tabSet_ne _ _ _ (fun h => n (Fin.ext h))

@[simp] theorem getRail_setRail_self (s : State) (i : RailId) (x : Rail) : getRail (setRail s i x) i = x := by
  simp [getRail, setRail]

theorem getRail_setRail_ne (s : State) {i j : RailId} (x : Rail) (n : j ≠ i) : getRail (setRail s i x) j = getRail s j := by
  simp only [getRail, setRail]
  exact tabGet_tabSet_ne _ _ _ (fun h => n (Fin.ext h))

@[simp] theorem getDir_setDir_self (s : State) (i : PortId) (x : CtxDir) : getDir (setDir s i x) i = x := by
  simp [getDir, setDir]

theorem getDir_setDir_ne (s : State) {i j : PortId} (x : CtxDir) (n : j ≠ i) : getDir (setDir s i x) j = getDir s j := by
  simp only [getDir, setDir]
  exact tabGet_tabSet_ne _ _ _ (fun h => n (Fin.ext h))

@[simp] theorem getRing_setRing_self (s : State) (i : RingId) (x : Ring) : getRing (setRing s i x) i = x := by
  simp [getRing, setRing]

theorem getRing_setRing_ne (s : State) {i j : RingId} (x : Ring) (n : j ≠ i) : getRing (setRing s i x) j = getRing s j := by
  simp only [getRing, setRing]
  exact tabGet_tabSet_ne _ _ _ (fun h => n (Fin.ext h))

@[simp] theorem getRing_modRing_self (s : State) (i : RingId) (f : Ring → Ring) : getRing (modRing s i f) i = f (getRing s i) := by
  simp [modRing]

theorem getRing_modRing_ne (s : State) {i j : RingId} (f : Ring → Ring) (n : j ≠ i) : getRing (modRing s i f) j = getRing s j :=
  getRing_setRing_ne s _ n

end Sys2Proof.Machine
end

