-- ==== Sys2Proof/Laws/Shared.lean ====
section
/-!
SUPPORT. What the operations that every command shares leave alone: completions, events, mirror writes, buffers, free
values.
-/

namespace Sys2Proof.Machine

open Sys2Proof.Safety

/-! ### draw -/

theorem draw_only (s : State) : OnlyIn [.fresh] s ((draw s).2) :=
  onlyIn_of_pick (by simp)

@[simp] theorem draw_pending (s : State) : ((draw s).2).pending = s.pending :=
  draw_only _ .pending (by decide)

@[simp] theorem draw_time (s : State) : ((draw s).2).time = s.time :=
  draw_only _ .time (by decide)

@[simp] theorem draw_mono (s : State) : ((draw s).2).mono = s.mono :=
  draw_only _ .mono (by decide)

@[simp] theorem draw_regs (s : State) : ((draw s).2).regs = s.regs :=
  draw_only _ .regs (by decide)

@[simp] theorem draw_latches (s : State) : ((draw s).2).latches = s.latches :=
  draw_only _ .latches (by decide)

@[simp] theorem draw_heldLow (s : State) : ((draw s).2).heldLow = s.heldLow :=
  draw_only _ .heldLow (by decide)

@[simp] theorem draw_access (s : State) : ((draw s).2).access = s.access :=
  draw_only _ .access (by decide)

@[simp] theorem draw_straps (s : State) : ((draw s).2).straps = s.straps :=
  draw_only _ .straps (by decide)

@[simp] theorem draw_clk (s : State) : ((draw s).2).clk = s.clk :=
  draw_only _ .clk (by decide)

@[simp] theorem draw_pwr (s : State) : ((draw s).2).pwr = s.pwr :=
  draw_only _ .pwr (by decide)

@[simp] theorem draw_rails (s : State) : ((draw s).2).rails = s.rails :=
  draw_only _ .rails (by decide)

@[simp] theorem draw_dies (s : State) : ((draw s).2).dies = s.dies :=
  draw_only _ .dies (by decide)

@[simp] theorem draw_hubTemp (s : State) : ((draw s).2).hubTemp = s.hubTemp :=
  draw_only _ .hubTemp (by decide)

@[simp] theorem draw_ddr (s : State) : ((draw s).2).ddr = s.ddr :=
  draw_only _ .ddr (by decide)

@[simp] theorem draw_store (s : State) : ((draw s).2).store = s.store :=
  draw_only _ .store (by decide)

@[simp] theorem draw_ports (s : State) : ((draw s).2).ports = s.ports :=
  draw_only _ .ports (by decide)

@[simp] theorem draw_herds (s : State) : ((draw s).2).herds = s.herds :=
  draw_only _ .herds (by decide)

@[simp] theorem draw_io (s : State) : ((draw s).2).io = s.io :=
  draw_only _ .io (by decide)

@[simp] theorem draw_waits (s : State) : ((draw s).2).waits = s.waits :=
  draw_only _ .waits (by decide)

@[simp] theorem draw_flt (s : State) : ((draw s).2).flt = s.flt :=
  draw_only _ .flt (by decide)

@[simp] theorem draw_fw (s : State) : ((draw s).2).fw = s.fw :=
  draw_only _ .fw (by decide)

@[simp] theorem draw_sec (s : State) : ((draw s).2).sec = s.sec :=
  draw_only _ .sec (by decide)

@[simp] theorem draw_nv (s : State) : ((draw s).2).nv = s.nv :=
  draw_only _ .nv (by decide)

@[simp] theorem getPort_draw (s : State) (p' : PortId) : getPort ((draw s).2) p' = getPort s p' := by
  simp [getPort]

@[simp] theorem getHerd_draw (s : State) (h' : HerdId) : getHerd ((draw s).2) h' = getHerd s h' := by
  simp [getHerd]

@[simp] theorem getDie_draw (s : State) (d' : DieId) : getDie ((draw s).2) d' = getDie s d' := by
  simp [getDie]

@[simp] theorem getDdr_draw (s : State) (c' : ChanId) : getDdr ((draw s).2) c' = getDdr s c' := by
  simp [getDdr]

@[simp] theorem getDir_draw (s : State) (p' : PortId) : getDir ((draw s).2) p' = getDir s p' := by
  simp [getDir]

@[simp] theorem getPll_draw (s : State) (u' : PllId) : getPll ((draw s).2) u' = getPll s u' := by
  simp [getPll]

@[simp] theorem regVal_draw (s : State) (off : Nat) : regVal ((draw s).2) off = regVal s off := by
  simp [regVal]

/-! ### freeNat -/

theorem freeNat_only (s : State) : OnlyIn [.fresh] s ((freeNat s).2) :=
  onlyIn_of_pick (by simp)

@[simp] theorem freeNat_pending (s : State) : ((freeNat s).2).pending = s.pending :=
  freeNat_only _ .pending (by decide)

@[simp] theorem freeNat_time (s : State) : ((freeNat s).2).time = s.time :=
  freeNat_only _ .time (by decide)

@[simp] theorem freeNat_mono (s : State) : ((freeNat s).2).mono = s.mono :=
  freeNat_only _ .mono (by decide)

@[simp] theorem freeNat_regs (s : State) : ((freeNat s).2).regs = s.regs :=
  freeNat_only _ .regs (by decide)

@[simp] theorem freeNat_latches (s : State) : ((freeNat s).2).latches = s.latches :=
  freeNat_only _ .latches (by decide)

@[simp] theorem freeNat_heldLow (s : State) : ((freeNat s).2).heldLow = s.heldLow :=
  freeNat_only _ .heldLow (by decide)

@[simp] theorem freeNat_access (s : State) : ((freeNat s).2).access = s.access :=
  freeNat_only _ .access (by decide)

@[simp] theorem freeNat_straps (s : State) : ((freeNat s).2).straps = s.straps :=
  freeNat_only _ .straps (by decide)

@[simp] theorem freeNat_clk (s : State) : ((freeNat s).2).clk = s.clk :=
  freeNat_only _ .clk (by decide)

@[simp] theorem freeNat_pwr (s : State) : ((freeNat s).2).pwr = s.pwr :=
  freeNat_only _ .pwr (by decide)

@[simp] theorem freeNat_rails (s : State) : ((freeNat s).2).rails = s.rails :=
  freeNat_only _ .rails (by decide)

@[simp] theorem freeNat_dies (s : State) : ((freeNat s).2).dies = s.dies :=
  freeNat_only _ .dies (by decide)

@[simp] theorem freeNat_hubTemp (s : State) : ((freeNat s).2).hubTemp = s.hubTemp :=
  freeNat_only _ .hubTemp (by decide)

@[simp] theorem freeNat_ddr (s : State) : ((freeNat s).2).ddr = s.ddr :=
  freeNat_only _ .ddr (by decide)

@[simp] theorem freeNat_store (s : State) : ((freeNat s).2).store = s.store :=
  freeNat_only _ .store (by decide)

@[simp] theorem freeNat_ports (s : State) : ((freeNat s).2).ports = s.ports :=
  freeNat_only _ .ports (by decide)

@[simp] theorem freeNat_herds (s : State) : ((freeNat s).2).herds = s.herds :=
  freeNat_only _ .herds (by decide)

@[simp] theorem freeNat_io (s : State) : ((freeNat s).2).io = s.io :=
  freeNat_only _ .io (by decide)

@[simp] theorem freeNat_waits (s : State) : ((freeNat s).2).waits = s.waits :=
  freeNat_only _ .waits (by decide)

@[simp] theorem freeNat_flt (s : State) : ((freeNat s).2).flt = s.flt :=
  freeNat_only _ .flt (by decide)

@[simp] theorem freeNat_fw (s : State) : ((freeNat s).2).fw = s.fw :=
  freeNat_only _ .fw (by decide)

@[simp] theorem freeNat_sec (s : State) : ((freeNat s).2).sec = s.sec :=
  freeNat_only _ .sec (by decide)

@[simp] theorem freeNat_nv (s : State) : ((freeNat s).2).nv = s.nv :=
  freeNat_only _ .nv (by decide)

@[simp] theorem getPort_freeNat (s : State) (p' : PortId) : getPort ((freeNat s).2) p' = getPort s p' := by
  simp [getPort]

@[simp] theorem getHerd_freeNat (s : State) (h' : HerdId) : getHerd ((freeNat s).2) h' = getHerd s h' := by
  simp [getHerd]

@[simp] theorem getDie_freeNat (s : State) (d' : DieId) : getDie ((freeNat s).2) d' = getDie s d' := by
  simp [getDie]

@[simp] theorem getDdr_freeNat (s : State) (c' : ChanId) : getDdr ((freeNat s).2) c' = getDdr s c' := by
  simp [getDdr]

@[simp] theorem getDir_freeNat (s : State) (p' : PortId) : getDir ((freeNat s).2) p' = getDir s p' := by
  simp [getDir]

@[simp] theorem getPll_freeNat (s : State) (u' : PllId) : getPll ((freeNat s).2) u' = getPll s u' := by
  simp [getPll]

@[simp] theorem regVal_freeNat (s : State) (off : Nat) : regVal ((freeNat s).2) off = regVal s off := by
  simp [regVal]

/-! ### mirrorWrite -/

theorem mirrorWrite_only (s : State) (o : MirrorObj) : OnlyIn [.io] s (mirrorWrite s o) :=
  onlyIn_of_pick (by simp)

@[simp] theorem mirrorWrite_pending (s : State) (o : MirrorObj) : ((mirrorWrite s o)).pending = s.pending :=
  mirrorWrite_only _ _ .pending (by decide)

@[simp] theorem mirrorWrite_time (s : State) (o : MirrorObj) : ((mirrorWrite s o)).time = s.time :=
  mirrorWrite_only _ _ .time (by decide)

@[simp] theorem mirrorWrite_mono (s : State) (o : MirrorObj) : ((mirrorWrite s o)).mono = s.mono :=
  mirrorWrite_only _ _ .mono (by decide)

@[simp] theorem mirrorWrite_fresh (s : State) (o : MirrorObj) : ((mirrorWrite s o)).fresh = s.fresh :=
  mirrorWrite_only _ _ .fresh (by decide)

@[simp] theorem mirrorWrite_regs (s : State) (o : MirrorObj) : ((mirrorWrite s o)).regs = s.regs :=
  mirrorWrite_only _ _ .regs (by decide)

@[simp] theorem mirrorWrite_latches (s : State) (o : MirrorObj) : ((mirrorWrite s o)).latches = s.latches :=
  mirrorWrite_only _ _ .latches (by decide)

@[simp] theorem mirrorWrite_heldLow (s : State) (o : MirrorObj) : ((mirrorWrite s o)).heldLow = s.heldLow :=
  mirrorWrite_only _ _ .heldLow (by decide)

@[simp] theorem mirrorWrite_access (s : State) (o : MirrorObj) : ((mirrorWrite s o)).access = s.access :=
  mirrorWrite_only _ _ .access (by decide)

@[simp] theorem mirrorWrite_straps (s : State) (o : MirrorObj) : ((mirrorWrite s o)).straps = s.straps :=
  mirrorWrite_only _ _ .straps (by decide)

@[simp] theorem mirrorWrite_clk (s : State) (o : MirrorObj) : ((mirrorWrite s o)).clk = s.clk :=
  mirrorWrite_only _ _ .clk (by decide)

@[simp] theorem mirrorWrite_pwr (s : State) (o : MirrorObj) : ((mirrorWrite s o)).pwr = s.pwr :=
  mirrorWrite_only _ _ .pwr (by decide)

@[simp] theorem mirrorWrite_rails (s : State) (o : MirrorObj) : ((mirrorWrite s o)).rails = s.rails :=
  mirrorWrite_only _ _ .rails (by decide)

@[simp] theorem mirrorWrite_dies (s : State) (o : MirrorObj) : ((mirrorWrite s o)).dies = s.dies :=
  mirrorWrite_only _ _ .dies (by decide)

@[simp] theorem mirrorWrite_hubTemp (s : State) (o : MirrorObj) : ((mirrorWrite s o)).hubTemp = s.hubTemp :=
  mirrorWrite_only _ _ .hubTemp (by decide)

@[simp] theorem mirrorWrite_ddr (s : State) (o : MirrorObj) : ((mirrorWrite s o)).ddr = s.ddr :=
  mirrorWrite_only _ _ .ddr (by decide)

@[simp] theorem mirrorWrite_store (s : State) (o : MirrorObj) : ((mirrorWrite s o)).store = s.store :=
  mirrorWrite_only _ _ .store (by decide)

@[simp] theorem mirrorWrite_ports (s : State) (o : MirrorObj) : ((mirrorWrite s o)).ports = s.ports :=
  mirrorWrite_only _ _ .ports (by decide)

@[simp] theorem mirrorWrite_herds (s : State) (o : MirrorObj) : ((mirrorWrite s o)).herds = s.herds :=
  mirrorWrite_only _ _ .herds (by decide)

@[simp] theorem mirrorWrite_waits (s : State) (o : MirrorObj) : ((mirrorWrite s o)).waits = s.waits :=
  mirrorWrite_only _ _ .waits (by decide)

@[simp] theorem mirrorWrite_flt (s : State) (o : MirrorObj) : ((mirrorWrite s o)).flt = s.flt :=
  mirrorWrite_only _ _ .flt (by decide)

@[simp] theorem mirrorWrite_fw (s : State) (o : MirrorObj) : ((mirrorWrite s o)).fw = s.fw :=
  mirrorWrite_only _ _ .fw (by decide)

@[simp] theorem mirrorWrite_sec (s : State) (o : MirrorObj) : ((mirrorWrite s o)).sec = s.sec :=
  mirrorWrite_only _ _ .sec (by decide)

@[simp] theorem mirrorWrite_nv (s : State) (o : MirrorObj) : ((mirrorWrite s o)).nv = s.nv :=
  mirrorWrite_only _ _ .nv (by decide)

@[simp] theorem getPort_mirrorWrite (s : State) (o : MirrorObj) (p' : PortId) :
    getPort ((mirrorWrite s o)) p' = getPort s p' := by
  simp [getPort]

@[simp] theorem getHerd_mirrorWrite (s : State) (o : MirrorObj) (h' : HerdId) :
    getHerd ((mirrorWrite s o)) h' = getHerd s h' := by
  simp [getHerd]

@[simp] theorem getDie_mirrorWrite (s : State) (o : MirrorObj) (d' : DieId) :
    getDie ((mirrorWrite s o)) d' = getDie s d' := by
  simp [getDie]

@[simp] theorem getDdr_mirrorWrite (s : State) (o : MirrorObj) (c' : ChanId) :
    getDdr ((mirrorWrite s o)) c' = getDdr s c' := by
  simp [getDdr]

@[simp] theorem getDir_mirrorWrite (s : State) (o : MirrorObj) (p' : PortId) :
    getDir ((mirrorWrite s o)) p' = getDir s p' := by
  simp [getDir]

@[simp] theorem getPll_mirrorWrite (s : State) (o : MirrorObj) (u' : PllId) :
    getPll ((mirrorWrite s o)) u' = getPll s u' := by
  simp [getPll]

@[simp] theorem regVal_mirrorWrite (s : State) (o : MirrorObj) (off : Nat) :
    regVal ((mirrorWrite s o)) off = regVal s off := by
  simp [regVal]

/-! ### putReserved -/

theorem putReserved_only (s : State) (q : RingId) (rec : Completion) : OnlyIn [.io] s (putReserved s q rec) :=
  onlyIn_of_pick (by simp)

@[simp] theorem putReserved_pending (s : State) (q : RingId) (rec : Completion) :
    ((putReserved s q rec)).pending = s.pending :=
  putReserved_only _ _ _ .pending (by decide)

@[simp] theorem putReserved_time (s : State) (q : RingId) (rec : Completion) :
    ((putReserved s q rec)).time = s.time :=
  putReserved_only _ _ _ .time (by decide)

@[simp] theorem putReserved_mono (s : State) (q : RingId) (rec : Completion) :
    ((putReserved s q rec)).mono = s.mono :=
  putReserved_only _ _ _ .mono (by decide)

@[simp] theorem putReserved_fresh (s : State) (q : RingId) (rec : Completion) :
    ((putReserved s q rec)).fresh = s.fresh :=
  putReserved_only _ _ _ .fresh (by decide)

@[simp] theorem putReserved_regs (s : State) (q : RingId) (rec : Completion) :
    ((putReserved s q rec)).regs = s.regs :=
  putReserved_only _ _ _ .regs (by decide)

@[simp] theorem putReserved_latches (s : State) (q : RingId) (rec : Completion) :
    ((putReserved s q rec)).latches = s.latches :=
  putReserved_only _ _ _ .latches (by decide)

@[simp] theorem putReserved_heldLow (s : State) (q : RingId) (rec : Completion) :
    ((putReserved s q rec)).heldLow = s.heldLow :=
  putReserved_only _ _ _ .heldLow (by decide)

@[simp] theorem putReserved_access (s : State) (q : RingId) (rec : Completion) :
    ((putReserved s q rec)).access = s.access :=
  putReserved_only _ _ _ .access (by decide)

@[simp] theorem putReserved_straps (s : State) (q : RingId) (rec : Completion) :
    ((putReserved s q rec)).straps = s.straps :=
  putReserved_only _ _ _ .straps (by decide)

@[simp] theorem putReserved_clk (s : State) (q : RingId) (rec : Completion) : ((putReserved s q rec)).clk = s.clk :=
  putReserved_only _ _ _ .clk (by decide)

@[simp] theorem putReserved_pwr (s : State) (q : RingId) (rec : Completion) : ((putReserved s q rec)).pwr = s.pwr :=
  putReserved_only _ _ _ .pwr (by decide)

@[simp] theorem putReserved_rails (s : State) (q : RingId) (rec : Completion) :
    ((putReserved s q rec)).rails = s.rails :=
  putReserved_only _ _ _ .rails (by decide)

@[simp] theorem putReserved_dies (s : State) (q : RingId) (rec : Completion) :
    ((putReserved s q rec)).dies = s.dies :=
  putReserved_only _ _ _ .dies (by decide)

@[simp] theorem putReserved_hubTemp (s : State) (q : RingId) (rec : Completion) :
    ((putReserved s q rec)).hubTemp = s.hubTemp :=
  putReserved_only _ _ _ .hubTemp (by decide)

@[simp] theorem putReserved_ddr (s : State) (q : RingId) (rec : Completion) : ((putReserved s q rec)).ddr = s.ddr :=
  putReserved_only _ _ _ .ddr (by decide)

@[simp] theorem putReserved_store (s : State) (q : RingId) (rec : Completion) :
    ((putReserved s q rec)).store = s.store :=
  putReserved_only _ _ _ .store (by decide)

@[simp] theorem putReserved_ports (s : State) (q : RingId) (rec : Completion) :
    ((putReserved s q rec)).ports = s.ports :=
  putReserved_only _ _ _ .ports (by decide)

@[simp] theorem putReserved_herds (s : State) (q : RingId) (rec : Completion) :
    ((putReserved s q rec)).herds = s.herds :=
  putReserved_only _ _ _ .herds (by decide)

@[simp] theorem putReserved_waits (s : State) (q : RingId) (rec : Completion) :
    ((putReserved s q rec)).waits = s.waits :=
  putReserved_only _ _ _ .waits (by decide)

@[simp] theorem putReserved_flt (s : State) (q : RingId) (rec : Completion) : ((putReserved s q rec)).flt = s.flt :=
  putReserved_only _ _ _ .flt (by decide)

@[simp] theorem putReserved_fw (s : State) (q : RingId) (rec : Completion) : ((putReserved s q rec)).fw = s.fw :=
  putReserved_only _ _ _ .fw (by decide)

@[simp] theorem putReserved_sec (s : State) (q : RingId) (rec : Completion) : ((putReserved s q rec)).sec = s.sec :=
  putReserved_only _ _ _ .sec (by decide)

@[simp] theorem putReserved_nv (s : State) (q : RingId) (rec : Completion) : ((putReserved s q rec)).nv = s.nv :=
  putReserved_only _ _ _ .nv (by decide)

@[simp] theorem getPort_putReserved (s : State) (q : RingId) (rec : Completion) (p' : PortId) :
    getPort ((putReserved s q rec)) p' = getPort s p' := by
  simp [getPort]

@[simp] theorem getHerd_putReserved (s : State) (q : RingId) (rec : Completion) (h' : HerdId) :
    getHerd ((putReserved s q rec)) h' = getHerd s h' := by
  simp [getHerd]

@[simp] theorem getDie_putReserved (s : State) (q : RingId) (rec : Completion) (d' : DieId) :
    getDie ((putReserved s q rec)) d' = getDie s d' := by
  simp [getDie]

@[simp] theorem getDdr_putReserved (s : State) (q : RingId) (rec : Completion) (c' : ChanId) :
    getDdr ((putReserved s q rec)) c' = getDdr s c' := by
  simp [getDdr]

@[simp] theorem getDir_putReserved (s : State) (q : RingId) (rec : Completion) (p' : PortId) :
    getDir ((putReserved s q rec)) p' = getDir s p' := by
  simp [getDir]

@[simp] theorem getPll_putReserved (s : State) (q : RingId) (rec : Completion) (u' : PllId) :
    getPll ((putReserved s q rec)) u' = getPll s u' := by
  simp [getPll]

@[simp] theorem regVal_putReserved (s : State) (q : RingId) (rec : Completion) (off : Nat) :
    regVal ((putReserved s q rec)) off = regVal s off := by
  simp [regVal]

/-! ### dequeue -/

theorem dequeue_only (s : State) (c : Cmd) : OnlyIn [.herds, .io] s (dequeue s c) :=
  onlyIn_of_pick (by simp)

@[simp] theorem dequeue_pending (s : State) (c : Cmd) : ((dequeue s c)).pending = s.pending :=
  dequeue_only _ _ .pending (by decide)

@[simp] theorem dequeue_time (s : State) (c : Cmd) : ((dequeue s c)).time = s.time :=
  dequeue_only _ _ .time (by decide)

@[simp] theorem dequeue_mono (s : State) (c : Cmd) : ((dequeue s c)).mono = s.mono :=
  dequeue_only _ _ .mono (by decide)

@[simp] theorem dequeue_fresh (s : State) (c : Cmd) : ((dequeue s c)).fresh = s.fresh :=
  dequeue_only _ _ .fresh (by decide)

@[simp] theorem dequeue_regs (s : State) (c : Cmd) : ((dequeue s c)).regs = s.regs :=
  dequeue_only _ _ .regs (by decide)

@[simp] theorem dequeue_latches (s : State) (c : Cmd) : ((dequeue s c)).latches = s.latches :=
  dequeue_only _ _ .latches (by decide)

@[simp] theorem dequeue_heldLow (s : State) (c : Cmd) : ((dequeue s c)).heldLow = s.heldLow :=
  dequeue_only _ _ .heldLow (by decide)

@[simp] theorem dequeue_access (s : State) (c : Cmd) : ((dequeue s c)).access = s.access :=
  dequeue_only _ _ .access (by decide)

@[simp] theorem dequeue_straps (s : State) (c : Cmd) : ((dequeue s c)).straps = s.straps :=
  dequeue_only _ _ .straps (by decide)

@[simp] theorem dequeue_clk (s : State) (c : Cmd) : ((dequeue s c)).clk = s.clk :=
  dequeue_only _ _ .clk (by decide)

@[simp] theorem dequeue_pwr (s : State) (c : Cmd) : ((dequeue s c)).pwr = s.pwr :=
  dequeue_only _ _ .pwr (by decide)

@[simp] theorem dequeue_rails (s : State) (c : Cmd) : ((dequeue s c)).rails = s.rails :=
  dequeue_only _ _ .rails (by decide)

@[simp] theorem dequeue_dies (s : State) (c : Cmd) : ((dequeue s c)).dies = s.dies :=
  dequeue_only _ _ .dies (by decide)

@[simp] theorem dequeue_hubTemp (s : State) (c : Cmd) : ((dequeue s c)).hubTemp = s.hubTemp :=
  dequeue_only _ _ .hubTemp (by decide)

@[simp] theorem dequeue_ddr (s : State) (c : Cmd) : ((dequeue s c)).ddr = s.ddr :=
  dequeue_only _ _ .ddr (by decide)

@[simp] theorem dequeue_store (s : State) (c : Cmd) : ((dequeue s c)).store = s.store :=
  dequeue_only _ _ .store (by decide)

@[simp] theorem dequeue_ports (s : State) (c : Cmd) : ((dequeue s c)).ports = s.ports :=
  dequeue_only _ _ .ports (by decide)

@[simp] theorem dequeue_waits (s : State) (c : Cmd) : ((dequeue s c)).waits = s.waits :=
  dequeue_only _ _ .waits (by decide)

@[simp] theorem dequeue_flt (s : State) (c : Cmd) : ((dequeue s c)).flt = s.flt :=
  dequeue_only _ _ .flt (by decide)

@[simp] theorem dequeue_fw (s : State) (c : Cmd) : ((dequeue s c)).fw = s.fw :=
  dequeue_only _ _ .fw (by decide)

@[simp] theorem dequeue_sec (s : State) (c : Cmd) : ((dequeue s c)).sec = s.sec :=
  dequeue_only _ _ .sec (by decide)

@[simp] theorem dequeue_nv (s : State) (c : Cmd) : ((dequeue s c)).nv = s.nv :=
  dequeue_only _ _ .nv (by decide)

@[simp] theorem getPort_dequeue (s : State) (c : Cmd) (p' : PortId) : getPort ((dequeue s c)) p' = getPort s p' := by
  simp [getPort]

@[simp] theorem getDie_dequeue (s : State) (c : Cmd) (d' : DieId) : getDie ((dequeue s c)) d' = getDie s d' := by
  simp [getDie]

@[simp] theorem getDdr_dequeue (s : State) (c : Cmd) (c' : ChanId) : getDdr ((dequeue s c)) c' = getDdr s c' := by
  simp [getDdr]

@[simp] theorem getDir_dequeue (s : State) (c : Cmd) (p' : PortId) : getDir ((dequeue s c)) p' = getDir s p' := by
  simp [getDir]

@[simp] theorem getPll_dequeue (s : State) (c : Cmd) (u' : PllId) : getPll ((dequeue s c)) u' = getPll s u' := by
  simp [getPll]

@[simp] theorem regVal_dequeue (s : State) (c : Cmd) (off : Nat) : regVal ((dequeue s c)) off = regVal s off := by
  simp [regVal]

/-! ### complete -/

theorem complete_only (s : State) (opcode : Nat) (c : Cmd) (changed : List MirrorObj) (status : BitVec 8)
    (result : BitVec 64) :
    OnlyIn [.herds, .io] s (complete s opcode c changed status result) :=
  onlyIn_of_pick (by simp)

@[simp] theorem complete_pending (s : State) (opcode : Nat) (c : Cmd) (changed : List MirrorObj) (status : BitVec 8)
    (result : BitVec 64) :
    ((complete s opcode c changed status result)).pending = s.pending :=
  complete_only _ _ _ _ _ _ .pending (by decide)

@[simp] theorem complete_time (s : State) (opcode : Nat) (c : Cmd) (changed : List MirrorObj) (status : BitVec 8)
    (result : BitVec 64) :
    ((complete s opcode c changed status result)).time = s.time :=
  complete_only _ _ _ _ _ _ .time (by decide)

@[simp] theorem complete_mono (s : State) (opcode : Nat) (c : Cmd) (changed : List MirrorObj) (status : BitVec 8)
    (result : BitVec 64) :
    ((complete s opcode c changed status result)).mono = s.mono :=
  complete_only _ _ _ _ _ _ .mono (by decide)

@[simp] theorem complete_fresh (s : State) (opcode : Nat) (c : Cmd) (changed : List MirrorObj) (status : BitVec 8)
    (result : BitVec 64) :
    ((complete s opcode c changed status result)).fresh = s.fresh :=
  complete_only _ _ _ _ _ _ .fresh (by decide)

@[simp] theorem complete_regs (s : State) (opcode : Nat) (c : Cmd) (changed : List MirrorObj) (status : BitVec 8)
    (result : BitVec 64) :
    ((complete s opcode c changed status result)).regs = s.regs :=
  complete_only _ _ _ _ _ _ .regs (by decide)

@[simp] theorem complete_latches (s : State) (opcode : Nat) (c : Cmd) (changed : List MirrorObj) (status : BitVec 8)
    (result : BitVec 64) :
    ((complete s opcode c changed status result)).latches = s.latches :=
  complete_only _ _ _ _ _ _ .latches (by decide)

@[simp] theorem complete_heldLow (s : State) (opcode : Nat) (c : Cmd) (changed : List MirrorObj) (status : BitVec 8)
    (result : BitVec 64) :
    ((complete s opcode c changed status result)).heldLow = s.heldLow :=
  complete_only _ _ _ _ _ _ .heldLow (by decide)

@[simp] theorem complete_access (s : State) (opcode : Nat) (c : Cmd) (changed : List MirrorObj) (status : BitVec 8)
    (result : BitVec 64) :
    ((complete s opcode c changed status result)).access = s.access :=
  complete_only _ _ _ _ _ _ .access (by decide)

@[simp] theorem complete_straps (s : State) (opcode : Nat) (c : Cmd) (changed : List MirrorObj) (status : BitVec 8)
    (result : BitVec 64) :
    ((complete s opcode c changed status result)).straps = s.straps :=
  complete_only _ _ _ _ _ _ .straps (by decide)

@[simp] theorem complete_clk (s : State) (opcode : Nat) (c : Cmd) (changed : List MirrorObj) (status : BitVec 8)
    (result : BitVec 64) :
    ((complete s opcode c changed status result)).clk = s.clk :=
  complete_only _ _ _ _ _ _ .clk (by decide)

@[simp] theorem complete_pwr (s : State) (opcode : Nat) (c : Cmd) (changed : List MirrorObj) (status : BitVec 8)
    (result : BitVec 64) :
    ((complete s opcode c changed status result)).pwr = s.pwr :=
  complete_only _ _ _ _ _ _ .pwr (by decide)

@[simp] theorem complete_rails (s : State) (opcode : Nat) (c : Cmd) (changed : List MirrorObj) (status : BitVec 8)
    (result : BitVec 64) :
    ((complete s opcode c changed status result)).rails = s.rails :=
  complete_only _ _ _ _ _ _ .rails (by decide)

@[simp] theorem complete_dies (s : State) (opcode : Nat) (c : Cmd) (changed : List MirrorObj) (status : BitVec 8)
    (result : BitVec 64) :
    ((complete s opcode c changed status result)).dies = s.dies :=
  complete_only _ _ _ _ _ _ .dies (by decide)

@[simp] theorem complete_hubTemp (s : State) (opcode : Nat) (c : Cmd) (changed : List MirrorObj) (status : BitVec 8)
    (result : BitVec 64) :
    ((complete s opcode c changed status result)).hubTemp = s.hubTemp :=
  complete_only _ _ _ _ _ _ .hubTemp (by decide)

@[simp] theorem complete_ddr (s : State) (opcode : Nat) (c : Cmd) (changed : List MirrorObj) (status : BitVec 8)
    (result : BitVec 64) :
    ((complete s opcode c changed status result)).ddr = s.ddr :=
  complete_only _ _ _ _ _ _ .ddr (by decide)

@[simp] theorem complete_store (s : State) (opcode : Nat) (c : Cmd) (changed : List MirrorObj) (status : BitVec 8)
    (result : BitVec 64) :
    ((complete s opcode c changed status result)).store = s.store :=
  complete_only _ _ _ _ _ _ .store (by decide)

@[simp] theorem complete_ports (s : State) (opcode : Nat) (c : Cmd) (changed : List MirrorObj) (status : BitVec 8)
    (result : BitVec 64) :
    ((complete s opcode c changed status result)).ports = s.ports :=
  complete_only _ _ _ _ _ _ .ports (by decide)

@[simp] theorem complete_waits (s : State) (opcode : Nat) (c : Cmd) (changed : List MirrorObj) (status : BitVec 8)
    (result : BitVec 64) :
    ((complete s opcode c changed status result)).waits = s.waits :=
  complete_only _ _ _ _ _ _ .waits (by decide)

@[simp] theorem complete_flt (s : State) (opcode : Nat) (c : Cmd) (changed : List MirrorObj) (status : BitVec 8)
    (result : BitVec 64) :
    ((complete s opcode c changed status result)).flt = s.flt :=
  complete_only _ _ _ _ _ _ .flt (by decide)

@[simp] theorem complete_fw (s : State) (opcode : Nat) (c : Cmd) (changed : List MirrorObj) (status : BitVec 8)
    (result : BitVec 64) :
    ((complete s opcode c changed status result)).fw = s.fw :=
  complete_only _ _ _ _ _ _ .fw (by decide)

@[simp] theorem complete_sec (s : State) (opcode : Nat) (c : Cmd) (changed : List MirrorObj) (status : BitVec 8)
    (result : BitVec 64) :
    ((complete s opcode c changed status result)).sec = s.sec :=
  complete_only _ _ _ _ _ _ .sec (by decide)

@[simp] theorem complete_nv (s : State) (opcode : Nat) (c : Cmd) (changed : List MirrorObj) (status : BitVec 8)
    (result : BitVec 64) :
    ((complete s opcode c changed status result)).nv = s.nv :=
  complete_only _ _ _ _ _ _ .nv (by decide)

@[simp] theorem getPort_complete (s : State) (opcode : Nat) (c : Cmd) (changed : List MirrorObj) (status : BitVec 8)
    (result : BitVec 64) (p' : PortId) :
    getPort ((complete s opcode c changed status result)) p' = getPort s p' := by
  simp [getPort]

@[simp] theorem getDie_complete (s : State) (opcode : Nat) (c : Cmd) (changed : List MirrorObj) (status : BitVec 8)
    (result : BitVec 64) (d' : DieId) :
    getDie ((complete s opcode c changed status result)) d' = getDie s d' := by
  simp [getDie]

@[simp] theorem getDdr_complete (s : State) (opcode : Nat) (c : Cmd) (changed : List MirrorObj) (status : BitVec 8)
    (result : BitVec 64) (c' : ChanId) :
    getDdr ((complete s opcode c changed status result)) c' = getDdr s c' := by
  simp [getDdr]

@[simp] theorem getDir_complete (s : State) (opcode : Nat) (c : Cmd) (changed : List MirrorObj) (status : BitVec 8)
    (result : BitVec 64) (p' : PortId) :
    getDir ((complete s opcode c changed status result)) p' = getDir s p' := by
  simp [getDir]

@[simp] theorem getPll_complete (s : State) (opcode : Nat) (c : Cmd) (changed : List MirrorObj) (status : BitVec 8)
    (result : BitVec 64) (u' : PllId) :
    getPll ((complete s opcode c changed status result)) u' = getPll s u' := by
  simp [getPll]

@[simp] theorem regVal_complete (s : State) (opcode : Nat) (c : Cmd) (changed : List MirrorObj) (status : BitVec 8)
    (result : BitVec 64) (off : Nat) :
    regVal ((complete s opcode c changed status result)) off = regVal s off := by
  simp [regVal]

/-! ### completeOk -/

theorem completeOk_only (s : State) (opcode : Nat) (c : Cmd) (changed : List MirrorObj) (result : Nat) :
    OnlyIn [.herds, .io] s (completeOk s opcode c changed result) :=
  onlyIn_of_pick (by simp)

@[simp] theorem completeOk_pending (s : State) (opcode : Nat) (c : Cmd) (changed : List MirrorObj) (result : Nat) :
    ((completeOk s opcode c changed result)).pending = s.pending :=
  completeOk_only _ _ _ _ _ .pending (by decide)

@[simp] theorem completeOk_time (s : State) (opcode : Nat) (c : Cmd) (changed : List MirrorObj) (result : Nat) :
    ((completeOk s opcode c changed result)).time = s.time :=
  completeOk_only _ _ _ _ _ .time (by decide)

@[simp] theorem completeOk_mono (s : State) (opcode : Nat) (c : Cmd) (changed : List MirrorObj) (result : Nat) :
    ((completeOk s opcode c changed result)).mono = s.mono :=
  completeOk_only _ _ _ _ _ .mono (by decide)

@[simp] theorem completeOk_fresh (s : State) (opcode : Nat) (c : Cmd) (changed : List MirrorObj) (result : Nat) :
    ((completeOk s opcode c changed result)).fresh = s.fresh :=
  completeOk_only _ _ _ _ _ .fresh (by decide)

@[simp] theorem completeOk_regs (s : State) (opcode : Nat) (c : Cmd) (changed : List MirrorObj) (result : Nat) :
    ((completeOk s opcode c changed result)).regs = s.regs :=
  completeOk_only _ _ _ _ _ .regs (by decide)

@[simp] theorem completeOk_latches (s : State) (opcode : Nat) (c : Cmd) (changed : List MirrorObj) (result : Nat) :
    ((completeOk s opcode c changed result)).latches = s.latches :=
  completeOk_only _ _ _ _ _ .latches (by decide)

@[simp] theorem completeOk_heldLow (s : State) (opcode : Nat) (c : Cmd) (changed : List MirrorObj) (result : Nat) :
    ((completeOk s opcode c changed result)).heldLow = s.heldLow :=
  completeOk_only _ _ _ _ _ .heldLow (by decide)

@[simp] theorem completeOk_access (s : State) (opcode : Nat) (c : Cmd) (changed : List MirrorObj) (result : Nat) :
    ((completeOk s opcode c changed result)).access = s.access :=
  completeOk_only _ _ _ _ _ .access (by decide)

@[simp] theorem completeOk_straps (s : State) (opcode : Nat) (c : Cmd) (changed : List MirrorObj) (result : Nat) :
    ((completeOk s opcode c changed result)).straps = s.straps :=
  completeOk_only _ _ _ _ _ .straps (by decide)

@[simp] theorem completeOk_clk (s : State) (opcode : Nat) (c : Cmd) (changed : List MirrorObj) (result : Nat) :
    ((completeOk s opcode c changed result)).clk = s.clk :=
  completeOk_only _ _ _ _ _ .clk (by decide)

@[simp] theorem completeOk_pwr (s : State) (opcode : Nat) (c : Cmd) (changed : List MirrorObj) (result : Nat) :
    ((completeOk s opcode c changed result)).pwr = s.pwr :=
  completeOk_only _ _ _ _ _ .pwr (by decide)

@[simp] theorem completeOk_rails (s : State) (opcode : Nat) (c : Cmd) (changed : List MirrorObj) (result : Nat) :
    ((completeOk s opcode c changed result)).rails = s.rails :=
  completeOk_only _ _ _ _ _ .rails (by decide)

@[simp] theorem completeOk_dies (s : State) (opcode : Nat) (c : Cmd) (changed : List MirrorObj) (result : Nat) :
    ((completeOk s opcode c changed result)).dies = s.dies :=
  completeOk_only _ _ _ _ _ .dies (by decide)

@[simp] theorem completeOk_hubTemp (s : State) (opcode : Nat) (c : Cmd) (changed : List MirrorObj) (result : Nat) :
    ((completeOk s opcode c changed result)).hubTemp = s.hubTemp :=
  completeOk_only _ _ _ _ _ .hubTemp (by decide)

@[simp] theorem completeOk_ddr (s : State) (opcode : Nat) (c : Cmd) (changed : List MirrorObj) (result : Nat) :
    ((completeOk s opcode c changed result)).ddr = s.ddr :=
  completeOk_only _ _ _ _ _ .ddr (by decide)

@[simp] theorem completeOk_store (s : State) (opcode : Nat) (c : Cmd) (changed : List MirrorObj) (result : Nat) :
    ((completeOk s opcode c changed result)).store = s.store :=
  completeOk_only _ _ _ _ _ .store (by decide)

@[simp] theorem completeOk_ports (s : State) (opcode : Nat) (c : Cmd) (changed : List MirrorObj) (result : Nat) :
    ((completeOk s opcode c changed result)).ports = s.ports :=
  completeOk_only _ _ _ _ _ .ports (by decide)

@[simp] theorem completeOk_waits (s : State) (opcode : Nat) (c : Cmd) (changed : List MirrorObj) (result : Nat) :
    ((completeOk s opcode c changed result)).waits = s.waits :=
  completeOk_only _ _ _ _ _ .waits (by decide)

@[simp] theorem completeOk_flt (s : State) (opcode : Nat) (c : Cmd) (changed : List MirrorObj) (result : Nat) :
    ((completeOk s opcode c changed result)).flt = s.flt :=
  completeOk_only _ _ _ _ _ .flt (by decide)

@[simp] theorem completeOk_fw (s : State) (opcode : Nat) (c : Cmd) (changed : List MirrorObj) (result : Nat) :
    ((completeOk s opcode c changed result)).fw = s.fw :=
  completeOk_only _ _ _ _ _ .fw (by decide)

@[simp] theorem completeOk_sec (s : State) (opcode : Nat) (c : Cmd) (changed : List MirrorObj) (result : Nat) :
    ((completeOk s opcode c changed result)).sec = s.sec :=
  completeOk_only _ _ _ _ _ .sec (by decide)

@[simp] theorem completeOk_nv (s : State) (opcode : Nat) (c : Cmd) (changed : List MirrorObj) (result : Nat) :
    ((completeOk s opcode c changed result)).nv = s.nv :=
  completeOk_only _ _ _ _ _ .nv (by decide)

@[simp] theorem getPort_completeOk (s : State) (opcode : Nat) (c : Cmd) (changed : List MirrorObj) (result : Nat)
    (p' : PortId) :
    getPort ((completeOk s opcode c changed result)) p' = getPort s p' := by
  simp [getPort]

@[simp] theorem getDie_completeOk (s : State) (opcode : Nat) (c : Cmd) (changed : List MirrorObj) (result : Nat)
    (d' : DieId) :
    getDie ((completeOk s opcode c changed result)) d' = getDie s d' := by
  simp [getDie]

@[simp] theorem getDdr_completeOk (s : State) (opcode : Nat) (c : Cmd) (changed : List MirrorObj) (result : Nat)
    (c' : ChanId) :
    getDdr ((completeOk s opcode c changed result)) c' = getDdr s c' := by
  simp [getDdr]

@[simp] theorem getDir_completeOk (s : State) (opcode : Nat) (c : Cmd) (changed : List MirrorObj) (result : Nat)
    (p' : PortId) :
    getDir ((completeOk s opcode c changed result)) p' = getDir s p' := by
  simp [getDir]

@[simp] theorem getPll_completeOk (s : State) (opcode : Nat) (c : Cmd) (changed : List MirrorObj) (result : Nat)
    (u' : PllId) :
    getPll ((completeOk s opcode c changed result)) u' = getPll s u' := by
  simp [getPll]

@[simp] theorem regVal_completeOk (s : State) (opcode : Nat) (c : Cmd) (changed : List MirrorObj) (result : Nat)
    (off : Nat) :
    regVal ((completeOk s opcode c changed result)) off = regVal s off := by
  simp [regVal]

/-! ### reject -/

theorem reject_only (s : State) (opcode : Nat) (c : Cmd) (status : BitVec 8) (result : BitVec 64) :
    OnlyIn [.herds, .io] s (reject s opcode c status result) :=
  onlyIn_of_pick (by simp)

@[simp] theorem reject_pending (s : State) (opcode : Nat) (c : Cmd) (status : BitVec 8) (result : BitVec 64) :
    ((reject s opcode c status result)).pending = s.pending :=
  reject_only _ _ _ _ _ .pending (by decide)

@[simp] theorem reject_time (s : State) (opcode : Nat) (c : Cmd) (status : BitVec 8) (result : BitVec 64) :
    ((reject s opcode c status result)).time = s.time :=
  reject_only _ _ _ _ _ .time (by decide)

@[simp] theorem reject_mono (s : State) (opcode : Nat) (c : Cmd) (status : BitVec 8) (result : BitVec 64) :
    ((reject s opcode c status result)).mono = s.mono :=
  reject_only _ _ _ _ _ .mono (by decide)

@[simp] theorem reject_fresh (s : State) (opcode : Nat) (c : Cmd) (status : BitVec 8) (result : BitVec 64) :
    ((reject s opcode c status result)).fresh = s.fresh :=
  reject_only _ _ _ _ _ .fresh (by decide)

@[simp] theorem reject_regs (s : State) (opcode : Nat) (c : Cmd) (status : BitVec 8) (result : BitVec 64) :
    ((reject s opcode c status result)).regs = s.regs :=
  reject_only _ _ _ _ _ .regs (by decide)

@[simp] theorem reject_latches (s : State) (opcode : Nat) (c : Cmd) (status : BitVec 8) (result : BitVec 64) :
    ((reject s opcode c status result)).latches = s.latches :=
  reject_only _ _ _ _ _ .latches (by decide)

@[simp] theorem reject_heldLow (s : State) (opcode : Nat) (c : Cmd) (status : BitVec 8) (result : BitVec 64) :
    ((reject s opcode c status result)).heldLow = s.heldLow :=
  reject_only _ _ _ _ _ .heldLow (by decide)

@[simp] theorem reject_access (s : State) (opcode : Nat) (c : Cmd) (status : BitVec 8) (result : BitVec 64) :
    ((reject s opcode c status result)).access = s.access :=
  reject_only _ _ _ _ _ .access (by decide)

@[simp] theorem reject_straps (s : State) (opcode : Nat) (c : Cmd) (status : BitVec 8) (result : BitVec 64) :
    ((reject s opcode c status result)).straps = s.straps :=
  reject_only _ _ _ _ _ .straps (by decide)

@[simp] theorem reject_clk (s : State) (opcode : Nat) (c : Cmd) (status : BitVec 8) (result : BitVec 64) :
    ((reject s opcode c status result)).clk = s.clk :=
  reject_only _ _ _ _ _ .clk (by decide)

@[simp] theorem reject_pwr (s : State) (opcode : Nat) (c : Cmd) (status : BitVec 8) (result : BitVec 64) :
    ((reject s opcode c status result)).pwr = s.pwr :=
  reject_only _ _ _ _ _ .pwr (by decide)

@[simp] theorem reject_rails (s : State) (opcode : Nat) (c : Cmd) (status : BitVec 8) (result : BitVec 64) :
    ((reject s opcode c status result)).rails = s.rails :=
  reject_only _ _ _ _ _ .rails (by decide)

@[simp] theorem reject_dies (s : State) (opcode : Nat) (c : Cmd) (status : BitVec 8) (result : BitVec 64) :
    ((reject s opcode c status result)).dies = s.dies :=
  reject_only _ _ _ _ _ .dies (by decide)

@[simp] theorem reject_hubTemp (s : State) (opcode : Nat) (c : Cmd) (status : BitVec 8) (result : BitVec 64) :
    ((reject s opcode c status result)).hubTemp = s.hubTemp :=
  reject_only _ _ _ _ _ .hubTemp (by decide)

@[simp] theorem reject_ddr (s : State) (opcode : Nat) (c : Cmd) (status : BitVec 8) (result : BitVec 64) :
    ((reject s opcode c status result)).ddr = s.ddr :=
  reject_only _ _ _ _ _ .ddr (by decide)

@[simp] theorem reject_store (s : State) (opcode : Nat) (c : Cmd) (status : BitVec 8) (result : BitVec 64) :
    ((reject s opcode c status result)).store = s.store :=
  reject_only _ _ _ _ _ .store (by decide)

@[simp] theorem reject_ports (s : State) (opcode : Nat) (c : Cmd) (status : BitVec 8) (result : BitVec 64) :
    ((reject s opcode c status result)).ports = s.ports :=
  reject_only _ _ _ _ _ .ports (by decide)

@[simp] theorem reject_waits (s : State) (opcode : Nat) (c : Cmd) (status : BitVec 8) (result : BitVec 64) :
    ((reject s opcode c status result)).waits = s.waits :=
  reject_only _ _ _ _ _ .waits (by decide)

@[simp] theorem reject_flt (s : State) (opcode : Nat) (c : Cmd) (status : BitVec 8) (result : BitVec 64) :
    ((reject s opcode c status result)).flt = s.flt :=
  reject_only _ _ _ _ _ .flt (by decide)

@[simp] theorem reject_fw (s : State) (opcode : Nat) (c : Cmd) (status : BitVec 8) (result : BitVec 64) :
    ((reject s opcode c status result)).fw = s.fw :=
  reject_only _ _ _ _ _ .fw (by decide)

@[simp] theorem reject_sec (s : State) (opcode : Nat) (c : Cmd) (status : BitVec 8) (result : BitVec 64) :
    ((reject s opcode c status result)).sec = s.sec :=
  reject_only _ _ _ _ _ .sec (by decide)

@[simp] theorem reject_nv (s : State) (opcode : Nat) (c : Cmd) (status : BitVec 8) (result : BitVec 64) :
    ((reject s opcode c status result)).nv = s.nv :=
  reject_only _ _ _ _ _ .nv (by decide)

@[simp] theorem getPort_reject (s : State) (opcode : Nat) (c : Cmd) (status : BitVec 8) (result : BitVec 64)
    (p' : PortId) :
    getPort ((reject s opcode c status result)) p' = getPort s p' := by
  simp [getPort]

@[simp] theorem getDie_reject (s : State) (opcode : Nat) (c : Cmd) (status : BitVec 8) (result : BitVec 64)
    (d' : DieId) :
    getDie ((reject s opcode c status result)) d' = getDie s d' := by
  simp [getDie]

@[simp] theorem getDdr_reject (s : State) (opcode : Nat) (c : Cmd) (status : BitVec 8) (result : BitVec 64)
    (c' : ChanId) :
    getDdr ((reject s opcode c status result)) c' = getDdr s c' := by
  simp [getDdr]

@[simp] theorem getDir_reject (s : State) (opcode : Nat) (c : Cmd) (status : BitVec 8) (result : BitVec 64)
    (p' : PortId) :
    getDir ((reject s opcode c status result)) p' = getDir s p' := by
  simp [getDir]

@[simp] theorem getPll_reject (s : State) (opcode : Nat) (c : Cmd) (status : BitVec 8) (result : BitVec 64)
    (u' : PllId) :
    getPll ((reject s opcode c status result)) u' = getPll s u' := by
  simp [getPll]

@[simp] theorem regVal_reject (s : State) (opcode : Nat) (c : Cmd) (status : BitVec 8) (result : BitVec 64)
    (off : Nat) :
    regVal ((reject s opcode c status result)) off = regVal s off := by
  simp [regVal]

/-! ### postGlobal -/

theorem postGlobal_only (s : State) (g : Nat) (payload : List Fld) : OnlyIn [.io] s (postGlobal s g payload) :=
  onlyIn_of_pick (by simp)

@[simp] theorem postGlobal_pending (s : State) (g : Nat) (payload : List Fld) :
    ((postGlobal s g payload)).pending = s.pending :=
  postGlobal_only _ _ _ .pending (by decide)

@[simp] theorem postGlobal_time (s : State) (g : Nat) (payload : List Fld) :
    ((postGlobal s g payload)).time = s.time :=
  postGlobal_only _ _ _ .time (by decide)

@[simp] theorem postGlobal_mono (s : State) (g : Nat) (payload : List Fld) :
    ((postGlobal s g payload)).mono = s.mono :=
  postGlobal_only _ _ _ .mono (by decide)

@[simp] theorem postGlobal_fresh (s : State) (g : Nat) (payload : List Fld) :
    ((postGlobal s g payload)).fresh = s.fresh :=
  postGlobal_only _ _ _ .fresh (by decide)

@[simp] theorem postGlobal_regs (s : State) (g : Nat) (payload : List Fld) :
    ((postGlobal s g payload)).regs = s.regs :=
  postGlobal_only _ _ _ .regs (by decide)

@[simp] theorem postGlobal_latches (s : State) (g : Nat) (payload : List Fld) :
    ((postGlobal s g payload)).latches = s.latches :=
  postGlobal_only _ _ _ .latches (by decide)

@[simp] theorem postGlobal_heldLow (s : State) (g : Nat) (payload : List Fld) :
    ((postGlobal s g payload)).heldLow = s.heldLow :=
  postGlobal_only _ _ _ .heldLow (by decide)

@[simp] theorem postGlobal_access (s : State) (g : Nat) (payload : List Fld) :
    ((postGlobal s g payload)).access = s.access :=
  postGlobal_only _ _ _ .access (by decide)

@[simp] theorem postGlobal_straps (s : State) (g : Nat) (payload : List Fld) :
    ((postGlobal s g payload)).straps = s.straps :=
  postGlobal_only _ _ _ .straps (by decide)

@[simp] theorem postGlobal_clk (s : State) (g : Nat) (payload : List Fld) : ((postGlobal s g payload)).clk = s.clk :=
  postGlobal_only _ _ _ .clk (by decide)

@[simp] theorem postGlobal_pwr (s : State) (g : Nat) (payload : List Fld) : ((postGlobal s g payload)).pwr = s.pwr :=
  postGlobal_only _ _ _ .pwr (by decide)

@[simp] theorem postGlobal_rails (s : State) (g : Nat) (payload : List Fld) :
    ((postGlobal s g payload)).rails = s.rails :=
  postGlobal_only _ _ _ .rails (by decide)

@[simp] theorem postGlobal_dies (s : State) (g : Nat) (payload : List Fld) :
    ((postGlobal s g payload)).dies = s.dies :=
  postGlobal_only _ _ _ .dies (by decide)

@[simp] theorem postGlobal_hubTemp (s : State) (g : Nat) (payload : List Fld) :
    ((postGlobal s g payload)).hubTemp = s.hubTemp :=
  postGlobal_only _ _ _ .hubTemp (by decide)

@[simp] theorem postGlobal_ddr (s : State) (g : Nat) (payload : List Fld) : ((postGlobal s g payload)).ddr = s.ddr :=
  postGlobal_only _ _ _ .ddr (by decide)

@[simp] theorem postGlobal_store (s : State) (g : Nat) (payload : List Fld) :
    ((postGlobal s g payload)).store = s.store :=
  postGlobal_only _ _ _ .store (by decide)

@[simp] theorem postGlobal_ports (s : State) (g : Nat) (payload : List Fld) :
    ((postGlobal s g payload)).ports = s.ports :=
  postGlobal_only _ _ _ .ports (by decide)

@[simp] theorem postGlobal_herds (s : State) (g : Nat) (payload : List Fld) :
    ((postGlobal s g payload)).herds = s.herds :=
  postGlobal_only _ _ _ .herds (by decide)

@[simp] theorem postGlobal_waits (s : State) (g : Nat) (payload : List Fld) :
    ((postGlobal s g payload)).waits = s.waits :=
  postGlobal_only _ _ _ .waits (by decide)

@[simp] theorem postGlobal_flt (s : State) (g : Nat) (payload : List Fld) : ((postGlobal s g payload)).flt = s.flt :=
  postGlobal_only _ _ _ .flt (by decide)

@[simp] theorem postGlobal_fw (s : State) (g : Nat) (payload : List Fld) : ((postGlobal s g payload)).fw = s.fw :=
  postGlobal_only _ _ _ .fw (by decide)

@[simp] theorem postGlobal_sec (s : State) (g : Nat) (payload : List Fld) : ((postGlobal s g payload)).sec = s.sec :=
  postGlobal_only _ _ _ .sec (by decide)

@[simp] theorem postGlobal_nv (s : State) (g : Nat) (payload : List Fld) : ((postGlobal s g payload)).nv = s.nv :=
  postGlobal_only _ _ _ .nv (by decide)

@[simp] theorem getPort_postGlobal (s : State) (g : Nat) (payload : List Fld) (p' : PortId) :
    getPort ((postGlobal s g payload)) p' = getPort s p' := by
  simp [getPort]

@[simp] theorem getHerd_postGlobal (s : State) (g : Nat) (payload : List Fld) (h' : HerdId) :
    getHerd ((postGlobal s g payload)) h' = getHerd s h' := by
  simp [getHerd]

@[simp] theorem getDie_postGlobal (s : State) (g : Nat) (payload : List Fld) (d' : DieId) :
    getDie ((postGlobal s g payload)) d' = getDie s d' := by
  simp [getDie]

@[simp] theorem getDdr_postGlobal (s : State) (g : Nat) (payload : List Fld) (c' : ChanId) :
    getDdr ((postGlobal s g payload)) c' = getDdr s c' := by
  simp [getDdr]

@[simp] theorem getDir_postGlobal (s : State) (g : Nat) (payload : List Fld) (p' : PortId) :
    getDir ((postGlobal s g payload)) p' = getDir s p' := by
  simp [getDir]

@[simp] theorem getPll_postGlobal (s : State) (g : Nat) (payload : List Fld) (u' : PllId) :
    getPll ((postGlobal s g payload)) u' = getPll s u' := by
  simp [getPll]

@[simp] theorem regVal_postGlobal (s : State) (g : Nat) (payload : List Fld) (off : Nat) :
    regVal ((postGlobal s g payload)) off = regVal s off := by
  simp [regVal]

/-! ### pushEvent -/

theorem pushEvent_only (s : State) (e : Event) : OnlyIn [.io] s (pushEvent s e) :=
  onlyIn_of_pick (by simp)

@[simp] theorem pushEvent_pending (s : State) (e : Event) : ((pushEvent s e)).pending = s.pending :=
  pushEvent_only _ _ .pending (by decide)

@[simp] theorem pushEvent_time (s : State) (e : Event) : ((pushEvent s e)).time = s.time :=
  pushEvent_only _ _ .time (by decide)

@[simp] theorem pushEvent_mono (s : State) (e : Event) : ((pushEvent s e)).mono = s.mono :=
  pushEvent_only _ _ .mono (by decide)

@[simp] theorem pushEvent_fresh (s : State) (e : Event) : ((pushEvent s e)).fresh = s.fresh :=
  pushEvent_only _ _ .fresh (by decide)

@[simp] theorem pushEvent_regs (s : State) (e : Event) : ((pushEvent s e)).regs = s.regs :=
  pushEvent_only _ _ .regs (by decide)

@[simp] theorem pushEvent_latches (s : State) (e : Event) : ((pushEvent s e)).latches = s.latches :=
  pushEvent_only _ _ .latches (by decide)

@[simp] theorem pushEvent_heldLow (s : State) (e : Event) : ((pushEvent s e)).heldLow = s.heldLow :=
  pushEvent_only _ _ .heldLow (by decide)

@[simp] theorem pushEvent_access (s : State) (e : Event) : ((pushEvent s e)).access = s.access :=
  pushEvent_only _ _ .access (by decide)

@[simp] theorem pushEvent_straps (s : State) (e : Event) : ((pushEvent s e)).straps = s.straps :=
  pushEvent_only _ _ .straps (by decide)

@[simp] theorem pushEvent_clk (s : State) (e : Event) : ((pushEvent s e)).clk = s.clk :=
  pushEvent_only _ _ .clk (by decide)

@[simp] theorem pushEvent_pwr (s : State) (e : Event) : ((pushEvent s e)).pwr = s.pwr :=
  pushEvent_only _ _ .pwr (by decide)

@[simp] theorem pushEvent_rails (s : State) (e : Event) : ((pushEvent s e)).rails = s.rails :=
  pushEvent_only _ _ .rails (by decide)

@[simp] theorem pushEvent_dies (s : State) (e : Event) : ((pushEvent s e)).dies = s.dies :=
  pushEvent_only _ _ .dies (by decide)

@[simp] theorem pushEvent_hubTemp (s : State) (e : Event) : ((pushEvent s e)).hubTemp = s.hubTemp :=
  pushEvent_only _ _ .hubTemp (by decide)

@[simp] theorem pushEvent_ddr (s : State) (e : Event) : ((pushEvent s e)).ddr = s.ddr :=
  pushEvent_only _ _ .ddr (by decide)

@[simp] theorem pushEvent_store (s : State) (e : Event) : ((pushEvent s e)).store = s.store :=
  pushEvent_only _ _ .store (by decide)

@[simp] theorem pushEvent_ports (s : State) (e : Event) : ((pushEvent s e)).ports = s.ports :=
  pushEvent_only _ _ .ports (by decide)

@[simp] theorem pushEvent_herds (s : State) (e : Event) : ((pushEvent s e)).herds = s.herds :=
  pushEvent_only _ _ .herds (by decide)

@[simp] theorem pushEvent_waits (s : State) (e : Event) : ((pushEvent s e)).waits = s.waits :=
  pushEvent_only _ _ .waits (by decide)

@[simp] theorem pushEvent_flt (s : State) (e : Event) : ((pushEvent s e)).flt = s.flt :=
  pushEvent_only _ _ .flt (by decide)

@[simp] theorem pushEvent_fw (s : State) (e : Event) : ((pushEvent s e)).fw = s.fw :=
  pushEvent_only _ _ .fw (by decide)

@[simp] theorem pushEvent_sec (s : State) (e : Event) : ((pushEvent s e)).sec = s.sec :=
  pushEvent_only _ _ .sec (by decide)

@[simp] theorem pushEvent_nv (s : State) (e : Event) : ((pushEvent s e)).nv = s.nv :=
  pushEvent_only _ _ .nv (by decide)

@[simp] theorem getPort_pushEvent (s : State) (e : Event) (p' : PortId) :
    getPort ((pushEvent s e)) p' = getPort s p' := by
  simp [getPort]

@[simp] theorem getHerd_pushEvent (s : State) (e : Event) (h' : HerdId) :
    getHerd ((pushEvent s e)) h' = getHerd s h' := by
  simp [getHerd]

@[simp] theorem getDie_pushEvent (s : State) (e : Event) (d' : DieId) :
    getDie ((pushEvent s e)) d' = getDie s d' := by
  simp [getDie]

@[simp] theorem getDdr_pushEvent (s : State) (e : Event) (c' : ChanId) :
    getDdr ((pushEvent s e)) c' = getDdr s c' := by
  simp [getDdr]

@[simp] theorem getDir_pushEvent (s : State) (e : Event) (p' : PortId) :
    getDir ((pushEvent s e)) p' = getDir s p' := by
  simp [getDir]

@[simp] theorem getPll_pushEvent (s : State) (e : Event) (u' : PllId) :
    getPll ((pushEvent s e)) u' = getPll s u' := by
  simp [getPll]

@[simp] theorem regVal_pushEvent (s : State) (e : Event) (off : Nat) :
    regVal ((pushEvent s e)) off = regVal s off := by
  simp [regVal]

/-! ### postPort -/

theorem postPort_only (s : State) (p : PortId) (n : Nat) (payload : List Fld) :
    OnlyIn [.io] s (postPort s p n payload) :=
  onlyIn_of_pick (by simp)

@[simp] theorem postPort_pending (s : State) (p : PortId) (n : Nat) (payload : List Fld) :
    ((postPort s p n payload)).pending = s.pending :=
  postPort_only _ _ _ _ .pending (by decide)

@[simp] theorem postPort_time (s : State) (p : PortId) (n : Nat) (payload : List Fld) :
    ((postPort s p n payload)).time = s.time :=
  postPort_only _ _ _ _ .time (by decide)

@[simp] theorem postPort_mono (s : State) (p : PortId) (n : Nat) (payload : List Fld) :
    ((postPort s p n payload)).mono = s.mono :=
  postPort_only _ _ _ _ .mono (by decide)

@[simp] theorem postPort_fresh (s : State) (p : PortId) (n : Nat) (payload : List Fld) :
    ((postPort s p n payload)).fresh = s.fresh :=
  postPort_only _ _ _ _ .fresh (by decide)

@[simp] theorem postPort_regs (s : State) (p : PortId) (n : Nat) (payload : List Fld) :
    ((postPort s p n payload)).regs = s.regs :=
  postPort_only _ _ _ _ .regs (by decide)

@[simp] theorem postPort_latches (s : State) (p : PortId) (n : Nat) (payload : List Fld) :
    ((postPort s p n payload)).latches = s.latches :=
  postPort_only _ _ _ _ .latches (by decide)

@[simp] theorem postPort_heldLow (s : State) (p : PortId) (n : Nat) (payload : List Fld) :
    ((postPort s p n payload)).heldLow = s.heldLow :=
  postPort_only _ _ _ _ .heldLow (by decide)

@[simp] theorem postPort_access (s : State) (p : PortId) (n : Nat) (payload : List Fld) :
    ((postPort s p n payload)).access = s.access :=
  postPort_only _ _ _ _ .access (by decide)

@[simp] theorem postPort_straps (s : State) (p : PortId) (n : Nat) (payload : List Fld) :
    ((postPort s p n payload)).straps = s.straps :=
  postPort_only _ _ _ _ .straps (by decide)

@[simp] theorem postPort_clk (s : State) (p : PortId) (n : Nat) (payload : List Fld) :
    ((postPort s p n payload)).clk = s.clk :=
  postPort_only _ _ _ _ .clk (by decide)

@[simp] theorem postPort_pwr (s : State) (p : PortId) (n : Nat) (payload : List Fld) :
    ((postPort s p n payload)).pwr = s.pwr :=
  postPort_only _ _ _ _ .pwr (by decide)

@[simp] theorem postPort_rails (s : State) (p : PortId) (n : Nat) (payload : List Fld) :
    ((postPort s p n payload)).rails = s.rails :=
  postPort_only _ _ _ _ .rails (by decide)

@[simp] theorem postPort_dies (s : State) (p : PortId) (n : Nat) (payload : List Fld) :
    ((postPort s p n payload)).dies = s.dies :=
  postPort_only _ _ _ _ .dies (by decide)

@[simp] theorem postPort_hubTemp (s : State) (p : PortId) (n : Nat) (payload : List Fld) :
    ((postPort s p n payload)).hubTemp = s.hubTemp :=
  postPort_only _ _ _ _ .hubTemp (by decide)

@[simp] theorem postPort_ddr (s : State) (p : PortId) (n : Nat) (payload : List Fld) :
    ((postPort s p n payload)).ddr = s.ddr :=
  postPort_only _ _ _ _ .ddr (by decide)

@[simp] theorem postPort_store (s : State) (p : PortId) (n : Nat) (payload : List Fld) :
    ((postPort s p n payload)).store = s.store :=
  postPort_only _ _ _ _ .store (by decide)

@[simp] theorem postPort_ports (s : State) (p : PortId) (n : Nat) (payload : List Fld) :
    ((postPort s p n payload)).ports = s.ports :=
  postPort_only _ _ _ _ .ports (by decide)

@[simp] theorem postPort_herds (s : State) (p : PortId) (n : Nat) (payload : List Fld) :
    ((postPort s p n payload)).herds = s.herds :=
  postPort_only _ _ _ _ .herds (by decide)

@[simp] theorem postPort_waits (s : State) (p : PortId) (n : Nat) (payload : List Fld) :
    ((postPort s p n payload)).waits = s.waits :=
  postPort_only _ _ _ _ .waits (by decide)

@[simp] theorem postPort_flt (s : State) (p : PortId) (n : Nat) (payload : List Fld) :
    ((postPort s p n payload)).flt = s.flt :=
  postPort_only _ _ _ _ .flt (by decide)

@[simp] theorem postPort_fw (s : State) (p : PortId) (n : Nat) (payload : List Fld) :
    ((postPort s p n payload)).fw = s.fw :=
  postPort_only _ _ _ _ .fw (by decide)

@[simp] theorem postPort_sec (s : State) (p : PortId) (n : Nat) (payload : List Fld) :
    ((postPort s p n payload)).sec = s.sec :=
  postPort_only _ _ _ _ .sec (by decide)

@[simp] theorem postPort_nv (s : State) (p : PortId) (n : Nat) (payload : List Fld) :
    ((postPort s p n payload)).nv = s.nv :=
  postPort_only _ _ _ _ .nv (by decide)

@[simp] theorem getPort_postPort (s : State) (p : PortId) (n : Nat) (payload : List Fld) (p' : PortId) :
    getPort ((postPort s p n payload)) p' = getPort s p' := by
  simp [getPort]

@[simp] theorem getHerd_postPort (s : State) (p : PortId) (n : Nat) (payload : List Fld) (h' : HerdId) :
    getHerd ((postPort s p n payload)) h' = getHerd s h' := by
  simp [getHerd]

@[simp] theorem getDie_postPort (s : State) (p : PortId) (n : Nat) (payload : List Fld) (d' : DieId) :
    getDie ((postPort s p n payload)) d' = getDie s d' := by
  simp [getDie]

@[simp] theorem getDdr_postPort (s : State) (p : PortId) (n : Nat) (payload : List Fld) (c' : ChanId) :
    getDdr ((postPort s p n payload)) c' = getDdr s c' := by
  simp [getDdr]

@[simp] theorem getDir_postPort (s : State) (p : PortId) (n : Nat) (payload : List Fld) (p' : PortId) :
    getDir ((postPort s p n payload)) p' = getDir s p' := by
  simp [getDir]

@[simp] theorem getPll_postPort (s : State) (p : PortId) (n : Nat) (payload : List Fld) (u' : PllId) :
    getPll ((postPort s p n payload)) u' = getPll s u' := by
  simp [getPll]

@[simp] theorem regVal_postPort (s : State) (p : PortId) (n : Nat) (payload : List Fld) (off : Nat) :
    regVal ((postPort s p n payload)) off = regVal s off := by
  simp [regVal]

/-! ### postLimited -/

theorem postLimited_only (s : State) (src : Nat) (kind : Nat) (payload : List Fld) (at_ : Option Nat) (n : Nat) :
    OnlyIn [.io] s (postLimited s src kind payload at_ n) :=
  onlyIn_of_pick (by simp)

@[simp] theorem postLimited_pending (s : State) (src : Nat) (kind : Nat) (payload : List Fld) (at_ : Option Nat)
    (n : Nat) :
    ((postLimited s src kind payload at_ n)).pending = s.pending :=
  postLimited_only _ _ _ _ _ _ .pending (by decide)

@[simp] theorem postLimited_time (s : State) (src : Nat) (kind : Nat) (payload : List Fld) (at_ : Option Nat)
    (n : Nat) :
    ((postLimited s src kind payload at_ n)).time = s.time :=
  postLimited_only _ _ _ _ _ _ .time (by decide)

@[simp] theorem postLimited_mono (s : State) (src : Nat) (kind : Nat) (payload : List Fld) (at_ : Option Nat)
    (n : Nat) :
    ((postLimited s src kind payload at_ n)).mono = s.mono :=
  postLimited_only _ _ _ _ _ _ .mono (by decide)

@[simp] theorem postLimited_fresh (s : State) (src : Nat) (kind : Nat) (payload : List Fld) (at_ : Option Nat)
    (n : Nat) :
    ((postLimited s src kind payload at_ n)).fresh = s.fresh :=
  postLimited_only _ _ _ _ _ _ .fresh (by decide)

@[simp] theorem postLimited_regs (s : State) (src : Nat) (kind : Nat) (payload : List Fld) (at_ : Option Nat)
    (n : Nat) :
    ((postLimited s src kind payload at_ n)).regs = s.regs :=
  postLimited_only _ _ _ _ _ _ .regs (by decide)

@[simp] theorem postLimited_latches (s : State) (src : Nat) (kind : Nat) (payload : List Fld) (at_ : Option Nat)
    (n : Nat) :
    ((postLimited s src kind payload at_ n)).latches = s.latches :=
  postLimited_only _ _ _ _ _ _ .latches (by decide)

@[simp] theorem postLimited_heldLow (s : State) (src : Nat) (kind : Nat) (payload : List Fld) (at_ : Option Nat)
    (n : Nat) :
    ((postLimited s src kind payload at_ n)).heldLow = s.heldLow :=
  postLimited_only _ _ _ _ _ _ .heldLow (by decide)

@[simp] theorem postLimited_access (s : State) (src : Nat) (kind : Nat) (payload : List Fld) (at_ : Option Nat)
    (n : Nat) :
    ((postLimited s src kind payload at_ n)).access = s.access :=
  postLimited_only _ _ _ _ _ _ .access (by decide)

@[simp] theorem postLimited_straps (s : State) (src : Nat) (kind : Nat) (payload : List Fld) (at_ : Option Nat)
    (n : Nat) :
    ((postLimited s src kind payload at_ n)).straps = s.straps :=
  postLimited_only _ _ _ _ _ _ .straps (by decide)

@[simp] theorem postLimited_clk (s : State) (src : Nat) (kind : Nat) (payload : List Fld) (at_ : Option Nat)
    (n : Nat) :
    ((postLimited s src kind payload at_ n)).clk = s.clk :=
  postLimited_only _ _ _ _ _ _ .clk (by decide)

@[simp] theorem postLimited_pwr (s : State) (src : Nat) (kind : Nat) (payload : List Fld) (at_ : Option Nat)
    (n : Nat) :
    ((postLimited s src kind payload at_ n)).pwr = s.pwr :=
  postLimited_only _ _ _ _ _ _ .pwr (by decide)

@[simp] theorem postLimited_rails (s : State) (src : Nat) (kind : Nat) (payload : List Fld) (at_ : Option Nat)
    (n : Nat) :
    ((postLimited s src kind payload at_ n)).rails = s.rails :=
  postLimited_only _ _ _ _ _ _ .rails (by decide)

@[simp] theorem postLimited_dies (s : State) (src : Nat) (kind : Nat) (payload : List Fld) (at_ : Option Nat)
    (n : Nat) :
    ((postLimited s src kind payload at_ n)).dies = s.dies :=
  postLimited_only _ _ _ _ _ _ .dies (by decide)

@[simp] theorem postLimited_hubTemp (s : State) (src : Nat) (kind : Nat) (payload : List Fld) (at_ : Option Nat)
    (n : Nat) :
    ((postLimited s src kind payload at_ n)).hubTemp = s.hubTemp :=
  postLimited_only _ _ _ _ _ _ .hubTemp (by decide)

@[simp] theorem postLimited_ddr (s : State) (src : Nat) (kind : Nat) (payload : List Fld) (at_ : Option Nat)
    (n : Nat) :
    ((postLimited s src kind payload at_ n)).ddr = s.ddr :=
  postLimited_only _ _ _ _ _ _ .ddr (by decide)

@[simp] theorem postLimited_store (s : State) (src : Nat) (kind : Nat) (payload : List Fld) (at_ : Option Nat)
    (n : Nat) :
    ((postLimited s src kind payload at_ n)).store = s.store :=
  postLimited_only _ _ _ _ _ _ .store (by decide)

@[simp] theorem postLimited_ports (s : State) (src : Nat) (kind : Nat) (payload : List Fld) (at_ : Option Nat)
    (n : Nat) :
    ((postLimited s src kind payload at_ n)).ports = s.ports :=
  postLimited_only _ _ _ _ _ _ .ports (by decide)

@[simp] theorem postLimited_herds (s : State) (src : Nat) (kind : Nat) (payload : List Fld) (at_ : Option Nat)
    (n : Nat) :
    ((postLimited s src kind payload at_ n)).herds = s.herds :=
  postLimited_only _ _ _ _ _ _ .herds (by decide)

@[simp] theorem postLimited_waits (s : State) (src : Nat) (kind : Nat) (payload : List Fld) (at_ : Option Nat)
    (n : Nat) :
    ((postLimited s src kind payload at_ n)).waits = s.waits :=
  postLimited_only _ _ _ _ _ _ .waits (by decide)

@[simp] theorem postLimited_flt (s : State) (src : Nat) (kind : Nat) (payload : List Fld) (at_ : Option Nat)
    (n : Nat) :
    ((postLimited s src kind payload at_ n)).flt = s.flt :=
  postLimited_only _ _ _ _ _ _ .flt (by decide)

@[simp] theorem postLimited_fw (s : State) (src : Nat) (kind : Nat) (payload : List Fld) (at_ : Option Nat)
    (n : Nat) :
    ((postLimited s src kind payload at_ n)).fw = s.fw :=
  postLimited_only _ _ _ _ _ _ .fw (by decide)

@[simp] theorem postLimited_sec (s : State) (src : Nat) (kind : Nat) (payload : List Fld) (at_ : Option Nat)
    (n : Nat) :
    ((postLimited s src kind payload at_ n)).sec = s.sec :=
  postLimited_only _ _ _ _ _ _ .sec (by decide)

@[simp] theorem postLimited_nv (s : State) (src : Nat) (kind : Nat) (payload : List Fld) (at_ : Option Nat)
    (n : Nat) :
    ((postLimited s src kind payload at_ n)).nv = s.nv :=
  postLimited_only _ _ _ _ _ _ .nv (by decide)

@[simp] theorem getPort_postLimited (s : State) (src : Nat) (kind : Nat) (payload : List Fld) (at_ : Option Nat)
    (n : Nat) (p' : PortId) :
    getPort ((postLimited s src kind payload at_ n)) p' = getPort s p' := by
  simp [getPort]

@[simp] theorem getHerd_postLimited (s : State) (src : Nat) (kind : Nat) (payload : List Fld) (at_ : Option Nat)
    (n : Nat) (h' : HerdId) :
    getHerd ((postLimited s src kind payload at_ n)) h' = getHerd s h' := by
  simp [getHerd]

@[simp] theorem getDie_postLimited (s : State) (src : Nat) (kind : Nat) (payload : List Fld) (at_ : Option Nat)
    (n : Nat) (d' : DieId) :
    getDie ((postLimited s src kind payload at_ n)) d' = getDie s d' := by
  simp [getDie]

@[simp] theorem getDdr_postLimited (s : State) (src : Nat) (kind : Nat) (payload : List Fld) (at_ : Option Nat)
    (n : Nat) (c' : ChanId) :
    getDdr ((postLimited s src kind payload at_ n)) c' = getDdr s c' := by
  simp [getDdr]

@[simp] theorem getDir_postLimited (s : State) (src : Nat) (kind : Nat) (payload : List Fld) (at_ : Option Nat)
    (n : Nat) (p' : PortId) :
    getDir ((postLimited s src kind payload at_ n)) p' = getDir s p' := by
  simp [getDir]

@[simp] theorem getPll_postLimited (s : State) (src : Nat) (kind : Nat) (payload : List Fld) (at_ : Option Nat)
    (n : Nat) (u' : PllId) :
    getPll ((postLimited s src kind payload at_ n)) u' = getPll s u' := by
  simp [getPll]

@[simp] theorem regVal_postLimited (s : State) (src : Nat) (kind : Nat) (payload : List Fld) (at_ : Option Nat)
    (n : Nat) (off : Nat) :
    regVal ((postLimited s src kind payload at_ n)) off = regVal s off := by
  simp [regVal]

/-! ### completeBuf -/

theorem completeBuf_only (s : State) (kind : BitVec 3) (k : Taken) (status : BitVec 8) (bytes : Nat) :
    OnlyIn [.io] s (completeBuf s kind k status bytes) :=
  onlyIn_of_pick (by simp)

@[simp] theorem completeBuf_pending (s : State) (kind : BitVec 3) (k : Taken) (status : BitVec 8) (bytes : Nat) :
    ((completeBuf s kind k status bytes)).pending = s.pending :=
  completeBuf_only _ _ _ _ _ .pending (by decide)

@[simp] theorem completeBuf_time (s : State) (kind : BitVec 3) (k : Taken) (status : BitVec 8) (bytes : Nat) :
    ((completeBuf s kind k status bytes)).time = s.time :=
  completeBuf_only _ _ _ _ _ .time (by decide)

@[simp] theorem completeBuf_mono (s : State) (kind : BitVec 3) (k : Taken) (status : BitVec 8) (bytes : Nat) :
    ((completeBuf s kind k status bytes)).mono = s.mono :=
  completeBuf_only _ _ _ _ _ .mono (by decide)

@[simp] theorem completeBuf_fresh (s : State) (kind : BitVec 3) (k : Taken) (status : BitVec 8) (bytes : Nat) :
    ((completeBuf s kind k status bytes)).fresh = s.fresh :=
  completeBuf_only _ _ _ _ _ .fresh (by decide)

@[simp] theorem completeBuf_regs (s : State) (kind : BitVec 3) (k : Taken) (status : BitVec 8) (bytes : Nat) :
    ((completeBuf s kind k status bytes)).regs = s.regs :=
  completeBuf_only _ _ _ _ _ .regs (by decide)

@[simp] theorem completeBuf_latches (s : State) (kind : BitVec 3) (k : Taken) (status : BitVec 8) (bytes : Nat) :
    ((completeBuf s kind k status bytes)).latches = s.latches :=
  completeBuf_only _ _ _ _ _ .latches (by decide)

@[simp] theorem completeBuf_heldLow (s : State) (kind : BitVec 3) (k : Taken) (status : BitVec 8) (bytes : Nat) :
    ((completeBuf s kind k status bytes)).heldLow = s.heldLow :=
  completeBuf_only _ _ _ _ _ .heldLow (by decide)

@[simp] theorem completeBuf_access (s : State) (kind : BitVec 3) (k : Taken) (status : BitVec 8) (bytes : Nat) :
    ((completeBuf s kind k status bytes)).access = s.access :=
  completeBuf_only _ _ _ _ _ .access (by decide)

@[simp] theorem completeBuf_straps (s : State) (kind : BitVec 3) (k : Taken) (status : BitVec 8) (bytes : Nat) :
    ((completeBuf s kind k status bytes)).straps = s.straps :=
  completeBuf_only _ _ _ _ _ .straps (by decide)

@[simp] theorem completeBuf_clk (s : State) (kind : BitVec 3) (k : Taken) (status : BitVec 8) (bytes : Nat) :
    ((completeBuf s kind k status bytes)).clk = s.clk :=
  completeBuf_only _ _ _ _ _ .clk (by decide)

@[simp] theorem completeBuf_pwr (s : State) (kind : BitVec 3) (k : Taken) (status : BitVec 8) (bytes : Nat) :
    ((completeBuf s kind k status bytes)).pwr = s.pwr :=
  completeBuf_only _ _ _ _ _ .pwr (by decide)

@[simp] theorem completeBuf_rails (s : State) (kind : BitVec 3) (k : Taken) (status : BitVec 8) (bytes : Nat) :
    ((completeBuf s kind k status bytes)).rails = s.rails :=
  completeBuf_only _ _ _ _ _ .rails (by decide)

@[simp] theorem completeBuf_dies (s : State) (kind : BitVec 3) (k : Taken) (status : BitVec 8) (bytes : Nat) :
    ((completeBuf s kind k status bytes)).dies = s.dies :=
  completeBuf_only _ _ _ _ _ .dies (by decide)

@[simp] theorem completeBuf_hubTemp (s : State) (kind : BitVec 3) (k : Taken) (status : BitVec 8) (bytes : Nat) :
    ((completeBuf s kind k status bytes)).hubTemp = s.hubTemp :=
  completeBuf_only _ _ _ _ _ .hubTemp (by decide)

@[simp] theorem completeBuf_ddr (s : State) (kind : BitVec 3) (k : Taken) (status : BitVec 8) (bytes : Nat) :
    ((completeBuf s kind k status bytes)).ddr = s.ddr :=
  completeBuf_only _ _ _ _ _ .ddr (by decide)

@[simp] theorem completeBuf_store (s : State) (kind : BitVec 3) (k : Taken) (status : BitVec 8) (bytes : Nat) :
    ((completeBuf s kind k status bytes)).store = s.store :=
  completeBuf_only _ _ _ _ _ .store (by decide)

@[simp] theorem completeBuf_ports (s : State) (kind : BitVec 3) (k : Taken) (status : BitVec 8) (bytes : Nat) :
    ((completeBuf s kind k status bytes)).ports = s.ports :=
  completeBuf_only _ _ _ _ _ .ports (by decide)

@[simp] theorem completeBuf_herds (s : State) (kind : BitVec 3) (k : Taken) (status : BitVec 8) (bytes : Nat) :
    ((completeBuf s kind k status bytes)).herds = s.herds :=
  completeBuf_only _ _ _ _ _ .herds (by decide)

@[simp] theorem completeBuf_waits (s : State) (kind : BitVec 3) (k : Taken) (status : BitVec 8) (bytes : Nat) :
    ((completeBuf s kind k status bytes)).waits = s.waits :=
  completeBuf_only _ _ _ _ _ .waits (by decide)

@[simp] theorem completeBuf_flt (s : State) (kind : BitVec 3) (k : Taken) (status : BitVec 8) (bytes : Nat) :
    ((completeBuf s kind k status bytes)).flt = s.flt :=
  completeBuf_only _ _ _ _ _ .flt (by decide)

@[simp] theorem completeBuf_fw (s : State) (kind : BitVec 3) (k : Taken) (status : BitVec 8) (bytes : Nat) :
    ((completeBuf s kind k status bytes)).fw = s.fw :=
  completeBuf_only _ _ _ _ _ .fw (by decide)

@[simp] theorem completeBuf_sec (s : State) (kind : BitVec 3) (k : Taken) (status : BitVec 8) (bytes : Nat) :
    ((completeBuf s kind k status bytes)).sec = s.sec :=
  completeBuf_only _ _ _ _ _ .sec (by decide)

@[simp] theorem completeBuf_nv (s : State) (kind : BitVec 3) (k : Taken) (status : BitVec 8) (bytes : Nat) :
    ((completeBuf s kind k status bytes)).nv = s.nv :=
  completeBuf_only _ _ _ _ _ .nv (by decide)

@[simp] theorem getPort_completeBuf (s : State) (kind : BitVec 3) (k : Taken) (status : BitVec 8) (bytes : Nat)
    (p' : PortId) :
    getPort ((completeBuf s kind k status bytes)) p' = getPort s p' := by
  simp [getPort]

@[simp] theorem getHerd_completeBuf (s : State) (kind : BitVec 3) (k : Taken) (status : BitVec 8) (bytes : Nat)
    (h' : HerdId) :
    getHerd ((completeBuf s kind k status bytes)) h' = getHerd s h' := by
  simp [getHerd]

@[simp] theorem getDie_completeBuf (s : State) (kind : BitVec 3) (k : Taken) (status : BitVec 8) (bytes : Nat)
    (d' : DieId) :
    getDie ((completeBuf s kind k status bytes)) d' = getDie s d' := by
  simp [getDie]

@[simp] theorem getDdr_completeBuf (s : State) (kind : BitVec 3) (k : Taken) (status : BitVec 8) (bytes : Nat)
    (c' : ChanId) :
    getDdr ((completeBuf s kind k status bytes)) c' = getDdr s c' := by
  simp [getDdr]

@[simp] theorem getDir_completeBuf (s : State) (kind : BitVec 3) (k : Taken) (status : BitVec 8) (bytes : Nat)
    (p' : PortId) :
    getDir ((completeBuf s kind k status bytes)) p' = getDir s p' := by
  simp [getDir]

@[simp] theorem getPll_completeBuf (s : State) (kind : BitVec 3) (k : Taken) (status : BitVec 8) (bytes : Nat)
    (u' : PllId) :
    getPll ((completeBuf s kind k status bytes)) u' = getPll s u' := by
  simp [getPll]

@[simp] theorem regVal_completeBuf (s : State) (kind : BitVec 3) (k : Taken) (status : BitVec 8) (bytes : Nat)
    (off : Nat) :
    regVal ((completeBuf s kind k status bytes)) off = regVal s off := by
  simp [regVal]

/-! ### finishIn -/

theorem finishIn_only (s : State) (k : Taken) (bytes : Nat) (fs : List Fld) :
    OnlyIn [.io] s (finishIn s k bytes fs) :=
  onlyIn_of_pick (by simp)

@[simp] theorem finishIn_pending (s : State) (k : Taken) (bytes : Nat) (fs : List Fld) :
    ((finishIn s k bytes fs)).pending = s.pending :=
  finishIn_only _ _ _ _ .pending (by decide)

@[simp] theorem finishIn_time (s : State) (k : Taken) (bytes : Nat) (fs : List Fld) :
    ((finishIn s k bytes fs)).time = s.time :=
  finishIn_only _ _ _ _ .time (by decide)

@[simp] theorem finishIn_mono (s : State) (k : Taken) (bytes : Nat) (fs : List Fld) :
    ((finishIn s k bytes fs)).mono = s.mono :=
  finishIn_only _ _ _ _ .mono (by decide)

@[simp] theorem finishIn_fresh (s : State) (k : Taken) (bytes : Nat) (fs : List Fld) :
    ((finishIn s k bytes fs)).fresh = s.fresh :=
  finishIn_only _ _ _ _ .fresh (by decide)

@[simp] theorem finishIn_regs (s : State) (k : Taken) (bytes : Nat) (fs : List Fld) :
    ((finishIn s k bytes fs)).regs = s.regs :=
  finishIn_only _ _ _ _ .regs (by decide)

@[simp] theorem finishIn_latches (s : State) (k : Taken) (bytes : Nat) (fs : List Fld) :
    ((finishIn s k bytes fs)).latches = s.latches :=
  finishIn_only _ _ _ _ .latches (by decide)

@[simp] theorem finishIn_heldLow (s : State) (k : Taken) (bytes : Nat) (fs : List Fld) :
    ((finishIn s k bytes fs)).heldLow = s.heldLow :=
  finishIn_only _ _ _ _ .heldLow (by decide)

@[simp] theorem finishIn_access (s : State) (k : Taken) (bytes : Nat) (fs : List Fld) :
    ((finishIn s k bytes fs)).access = s.access :=
  finishIn_only _ _ _ _ .access (by decide)

@[simp] theorem finishIn_straps (s : State) (k : Taken) (bytes : Nat) (fs : List Fld) :
    ((finishIn s k bytes fs)).straps = s.straps :=
  finishIn_only _ _ _ _ .straps (by decide)

@[simp] theorem finishIn_clk (s : State) (k : Taken) (bytes : Nat) (fs : List Fld) :
    ((finishIn s k bytes fs)).clk = s.clk :=
  finishIn_only _ _ _ _ .clk (by decide)

@[simp] theorem finishIn_pwr (s : State) (k : Taken) (bytes : Nat) (fs : List Fld) :
    ((finishIn s k bytes fs)).pwr = s.pwr :=
  finishIn_only _ _ _ _ .pwr (by decide)

@[simp] theorem finishIn_rails (s : State) (k : Taken) (bytes : Nat) (fs : List Fld) :
    ((finishIn s k bytes fs)).rails = s.rails :=
  finishIn_only _ _ _ _ .rails (by decide)

@[simp] theorem finishIn_dies (s : State) (k : Taken) (bytes : Nat) (fs : List Fld) :
    ((finishIn s k bytes fs)).dies = s.dies :=
  finishIn_only _ _ _ _ .dies (by decide)

@[simp] theorem finishIn_hubTemp (s : State) (k : Taken) (bytes : Nat) (fs : List Fld) :
    ((finishIn s k bytes fs)).hubTemp = s.hubTemp :=
  finishIn_only _ _ _ _ .hubTemp (by decide)

@[simp] theorem finishIn_ddr (s : State) (k : Taken) (bytes : Nat) (fs : List Fld) :
    ((finishIn s k bytes fs)).ddr = s.ddr :=
  finishIn_only _ _ _ _ .ddr (by decide)

@[simp] theorem finishIn_store (s : State) (k : Taken) (bytes : Nat) (fs : List Fld) :
    ((finishIn s k bytes fs)).store = s.store :=
  finishIn_only _ _ _ _ .store (by decide)

@[simp] theorem finishIn_ports (s : State) (k : Taken) (bytes : Nat) (fs : List Fld) :
    ((finishIn s k bytes fs)).ports = s.ports :=
  finishIn_only _ _ _ _ .ports (by decide)

@[simp] theorem finishIn_herds (s : State) (k : Taken) (bytes : Nat) (fs : List Fld) :
    ((finishIn s k bytes fs)).herds = s.herds :=
  finishIn_only _ _ _ _ .herds (by decide)

@[simp] theorem finishIn_waits (s : State) (k : Taken) (bytes : Nat) (fs : List Fld) :
    ((finishIn s k bytes fs)).waits = s.waits :=
  finishIn_only _ _ _ _ .waits (by decide)

@[simp] theorem finishIn_flt (s : State) (k : Taken) (bytes : Nat) (fs : List Fld) :
    ((finishIn s k bytes fs)).flt = s.flt :=
  finishIn_only _ _ _ _ .flt (by decide)

@[simp] theorem finishIn_fw (s : State) (k : Taken) (bytes : Nat) (fs : List Fld) :
    ((finishIn s k bytes fs)).fw = s.fw :=
  finishIn_only _ _ _ _ .fw (by decide)

@[simp] theorem finishIn_sec (s : State) (k : Taken) (bytes : Nat) (fs : List Fld) :
    ((finishIn s k bytes fs)).sec = s.sec :=
  finishIn_only _ _ _ _ .sec (by decide)

@[simp] theorem finishIn_nv (s : State) (k : Taken) (bytes : Nat) (fs : List Fld) :
    ((finishIn s k bytes fs)).nv = s.nv :=
  finishIn_only _ _ _ _ .nv (by decide)

@[simp] theorem getPort_finishIn (s : State) (k : Taken) (bytes : Nat) (fs : List Fld) (p' : PortId) :
    getPort ((finishIn s k bytes fs)) p' = getPort s p' := by
  simp [getPort]

@[simp] theorem getHerd_finishIn (s : State) (k : Taken) (bytes : Nat) (fs : List Fld) (h' : HerdId) :
    getHerd ((finishIn s k bytes fs)) h' = getHerd s h' := by
  simp [getHerd]

@[simp] theorem getDie_finishIn (s : State) (k : Taken) (bytes : Nat) (fs : List Fld) (d' : DieId) :
    getDie ((finishIn s k bytes fs)) d' = getDie s d' := by
  simp [getDie]

@[simp] theorem getDdr_finishIn (s : State) (k : Taken) (bytes : Nat) (fs : List Fld) (c' : ChanId) :
    getDdr ((finishIn s k bytes fs)) c' = getDdr s c' := by
  simp [getDdr]

@[simp] theorem getDir_finishIn (s : State) (k : Taken) (bytes : Nat) (fs : List Fld) (p' : PortId) :
    getDir ((finishIn s k bytes fs)) p' = getDir s p' := by
  simp [getDir]

@[simp] theorem getPll_finishIn (s : State) (k : Taken) (bytes : Nat) (fs : List Fld) (u' : PllId) :
    getPll ((finishIn s k bytes fs)) u' = getPll s u' := by
  simp [getPll]

@[simp] theorem regVal_finishIn (s : State) (k : Taken) (bytes : Nat) (fs : List Fld) (off : Nat) :
    regVal ((finishIn s k bytes fs)) off = regVal s off := by
  simp [regVal]

/-! ### takeIn -/

theorem takeIn_only (s : State) (ring : Option RingId) (need : Nat) :
    OnlyIn [.ports, .io] s ((takeIn s ring need).st) :=
  onlyIn_of_pick (by simp)

@[simp] theorem takeIn_pending (s : State) (ring : Option RingId) (need : Nat) :
    ((takeIn s ring need).st).pending = s.pending :=
  takeIn_only _ _ _ .pending (by decide)

@[simp] theorem takeIn_time (s : State) (ring : Option RingId) (need : Nat) :
    ((takeIn s ring need).st).time = s.time :=
  takeIn_only _ _ _ .time (by decide)

@[simp] theorem takeIn_mono (s : State) (ring : Option RingId) (need : Nat) :
    ((takeIn s ring need).st).mono = s.mono :=
  takeIn_only _ _ _ .mono (by decide)

@[simp] theorem takeIn_fresh (s : State) (ring : Option RingId) (need : Nat) :
    ((takeIn s ring need).st).fresh = s.fresh :=
  takeIn_only _ _ _ .fresh (by decide)

@[simp] theorem takeIn_regs (s : State) (ring : Option RingId) (need : Nat) :
    ((takeIn s ring need).st).regs = s.regs :=
  takeIn_only _ _ _ .regs (by decide)

@[simp] theorem takeIn_latches (s : State) (ring : Option RingId) (need : Nat) :
    ((takeIn s ring need).st).latches = s.latches :=
  takeIn_only _ _ _ .latches (by decide)

@[simp] theorem takeIn_heldLow (s : State) (ring : Option RingId) (need : Nat) :
    ((takeIn s ring need).st).heldLow = s.heldLow :=
  takeIn_only _ _ _ .heldLow (by decide)

@[simp] theorem takeIn_access (s : State) (ring : Option RingId) (need : Nat) :
    ((takeIn s ring need).st).access = s.access :=
  takeIn_only _ _ _ .access (by decide)

@[simp] theorem takeIn_straps (s : State) (ring : Option RingId) (need : Nat) :
    ((takeIn s ring need).st).straps = s.straps :=
  takeIn_only _ _ _ .straps (by decide)

@[simp] theorem takeIn_clk (s : State) (ring : Option RingId) (need : Nat) : ((takeIn s ring need).st).clk = s.clk :=
  takeIn_only _ _ _ .clk (by decide)

@[simp] theorem takeIn_pwr (s : State) (ring : Option RingId) (need : Nat) : ((takeIn s ring need).st).pwr = s.pwr :=
  takeIn_only _ _ _ .pwr (by decide)

@[simp] theorem takeIn_rails (s : State) (ring : Option RingId) (need : Nat) :
    ((takeIn s ring need).st).rails = s.rails :=
  takeIn_only _ _ _ .rails (by decide)

@[simp] theorem takeIn_dies (s : State) (ring : Option RingId) (need : Nat) :
    ((takeIn s ring need).st).dies = s.dies :=
  takeIn_only _ _ _ .dies (by decide)

@[simp] theorem takeIn_hubTemp (s : State) (ring : Option RingId) (need : Nat) :
    ((takeIn s ring need).st).hubTemp = s.hubTemp :=
  takeIn_only _ _ _ .hubTemp (by decide)

@[simp] theorem takeIn_ddr (s : State) (ring : Option RingId) (need : Nat) : ((takeIn s ring need).st).ddr = s.ddr :=
  takeIn_only _ _ _ .ddr (by decide)

@[simp] theorem takeIn_store (s : State) (ring : Option RingId) (need : Nat) :
    ((takeIn s ring need).st).store = s.store :=
  takeIn_only _ _ _ .store (by decide)

@[simp] theorem takeIn_herds (s : State) (ring : Option RingId) (need : Nat) :
    ((takeIn s ring need).st).herds = s.herds :=
  takeIn_only _ _ _ .herds (by decide)

@[simp] theorem takeIn_waits (s : State) (ring : Option RingId) (need : Nat) :
    ((takeIn s ring need).st).waits = s.waits :=
  takeIn_only _ _ _ .waits (by decide)

@[simp] theorem takeIn_flt (s : State) (ring : Option RingId) (need : Nat) : ((takeIn s ring need).st).flt = s.flt :=
  takeIn_only _ _ _ .flt (by decide)

@[simp] theorem takeIn_fw (s : State) (ring : Option RingId) (need : Nat) : ((takeIn s ring need).st).fw = s.fw :=
  takeIn_only _ _ _ .fw (by decide)

@[simp] theorem takeIn_sec (s : State) (ring : Option RingId) (need : Nat) : ((takeIn s ring need).st).sec = s.sec :=
  takeIn_only _ _ _ .sec (by decide)

@[simp] theorem takeIn_nv (s : State) (ring : Option RingId) (need : Nat) : ((takeIn s ring need).st).nv = s.nv :=
  takeIn_only _ _ _ .nv (by decide)

@[simp] theorem getHerd_takeIn (s : State) (ring : Option RingId) (need : Nat) (h' : HerdId) :
    getHerd ((takeIn s ring need).st) h' = getHerd s h' := by
  simp [getHerd]

@[simp] theorem getDie_takeIn (s : State) (ring : Option RingId) (need : Nat) (d' : DieId) :
    getDie ((takeIn s ring need).st) d' = getDie s d' := by
  simp [getDie]

@[simp] theorem getDdr_takeIn (s : State) (ring : Option RingId) (need : Nat) (c' : ChanId) :
    getDdr ((takeIn s ring need).st) c' = getDdr s c' := by
  simp [getDdr]

@[simp] theorem getDir_takeIn (s : State) (ring : Option RingId) (need : Nat) (p' : PortId) :
    getDir ((takeIn s ring need).st) p' = getDir s p' := by
  simp [getDir]

@[simp] theorem getPll_takeIn (s : State) (ring : Option RingId) (need : Nat) (u' : PllId) :
    getPll ((takeIn s ring need).st) u' = getPll s u' := by
  simp [getPll]

@[simp] theorem regVal_takeIn (s : State) (ring : Option RingId) (need : Nat) (off : Nat) :
    regVal ((takeIn s ring need).st) off = regVal s off := by
  simp [regVal]

/-! ### dropIn -/

theorem dropIn_only (s : State) (k : Taken) (status : BitVec 8) : OnlyIn [.io] s (dropIn s k status) :=
  onlyIn_of_pick (by simp)

@[simp] theorem dropIn_pending (s : State) (k : Taken) (status : BitVec 8) :
    ((dropIn s k status)).pending = s.pending :=
  dropIn_only _ _ _ .pending (by decide)

@[simp] theorem dropIn_time (s : State) (k : Taken) (status : BitVec 8) : ((dropIn s k status)).time = s.time :=
  dropIn_only _ _ _ .time (by decide)

@[simp] theorem dropIn_mono (s : State) (k : Taken) (status : BitVec 8) : ((dropIn s k status)).mono = s.mono :=
  dropIn_only _ _ _ .mono (by decide)

@[simp] theorem dropIn_fresh (s : State) (k : Taken) (status : BitVec 8) : ((dropIn s k status)).fresh = s.fresh :=
  dropIn_only _ _ _ .fresh (by decide)

@[simp] theorem dropIn_regs (s : State) (k : Taken) (status : BitVec 8) : ((dropIn s k status)).regs = s.regs :=
  dropIn_only _ _ _ .regs (by decide)

@[simp] theorem dropIn_latches (s : State) (k : Taken) (status : BitVec 8) :
    ((dropIn s k status)).latches = s.latches :=
  dropIn_only _ _ _ .latches (by decide)

@[simp] theorem dropIn_heldLow (s : State) (k : Taken) (status : BitVec 8) :
    ((dropIn s k status)).heldLow = s.heldLow :=
  dropIn_only _ _ _ .heldLow (by decide)

@[simp] theorem dropIn_access (s : State) (k : Taken) (status : BitVec 8) : ((dropIn s k status)).access = s.access :=
  dropIn_only _ _ _ .access (by decide)

@[simp] theorem dropIn_straps (s : State) (k : Taken) (status : BitVec 8) : ((dropIn s k status)).straps = s.straps :=
  dropIn_only _ _ _ .straps (by decide)

@[simp] theorem dropIn_clk (s : State) (k : Taken) (status : BitVec 8) : ((dropIn s k status)).clk = s.clk :=
  dropIn_only _ _ _ .clk (by decide)

@[simp] theorem dropIn_pwr (s : State) (k : Taken) (status : BitVec 8) : ((dropIn s k status)).pwr = s.pwr :=
  dropIn_only _ _ _ .pwr (by decide)

@[simp] theorem dropIn_rails (s : State) (k : Taken) (status : BitVec 8) : ((dropIn s k status)).rails = s.rails :=
  dropIn_only _ _ _ .rails (by decide)

@[simp] theorem dropIn_dies (s : State) (k : Taken) (status : BitVec 8) : ((dropIn s k status)).dies = s.dies :=
  dropIn_only _ _ _ .dies (by decide)

@[simp] theorem dropIn_hubTemp (s : State) (k : Taken) (status : BitVec 8) :
    ((dropIn s k status)).hubTemp = s.hubTemp :=
  dropIn_only _ _ _ .hubTemp (by decide)

@[simp] theorem dropIn_ddr (s : State) (k : Taken) (status : BitVec 8) : ((dropIn s k status)).ddr = s.ddr :=
  dropIn_only _ _ _ .ddr (by decide)

@[simp] theorem dropIn_store (s : State) (k : Taken) (status : BitVec 8) : ((dropIn s k status)).store = s.store :=
  dropIn_only _ _ _ .store (by decide)

@[simp] theorem dropIn_ports (s : State) (k : Taken) (status : BitVec 8) : ((dropIn s k status)).ports = s.ports :=
  dropIn_only _ _ _ .ports (by decide)

@[simp] theorem dropIn_herds (s : State) (k : Taken) (status : BitVec 8) : ((dropIn s k status)).herds = s.herds :=
  dropIn_only _ _ _ .herds (by decide)

@[simp] theorem dropIn_waits (s : State) (k : Taken) (status : BitVec 8) : ((dropIn s k status)).waits = s.waits :=
  dropIn_only _ _ _ .waits (by decide)

@[simp] theorem dropIn_flt (s : State) (k : Taken) (status : BitVec 8) : ((dropIn s k status)).flt = s.flt :=
  dropIn_only _ _ _ .flt (by decide)

@[simp] theorem dropIn_fw (s : State) (k : Taken) (status : BitVec 8) : ((dropIn s k status)).fw = s.fw :=
  dropIn_only _ _ _ .fw (by decide)

@[simp] theorem dropIn_sec (s : State) (k : Taken) (status : BitVec 8) : ((dropIn s k status)).sec = s.sec :=
  dropIn_only _ _ _ .sec (by decide)

@[simp] theorem dropIn_nv (s : State) (k : Taken) (status : BitVec 8) : ((dropIn s k status)).nv = s.nv :=
  dropIn_only _ _ _ .nv (by decide)

@[simp] theorem getPort_dropIn (s : State) (k : Taken) (status : BitVec 8) (p' : PortId) :
    getPort ((dropIn s k status)) p' = getPort s p' := by
  simp [getPort]

@[simp] theorem getHerd_dropIn (s : State) (k : Taken) (status : BitVec 8) (h' : HerdId) :
    getHerd ((dropIn s k status)) h' = getHerd s h' := by
  simp [getHerd]

@[simp] theorem getDie_dropIn (s : State) (k : Taken) (status : BitVec 8) (d' : DieId) :
    getDie ((dropIn s k status)) d' = getDie s d' := by
  simp [getDie]

@[simp] theorem getDdr_dropIn (s : State) (k : Taken) (status : BitVec 8) (c' : ChanId) :
    getDdr ((dropIn s k status)) c' = getDdr s c' := by
  simp [getDdr]

@[simp] theorem getDir_dropIn (s : State) (k : Taken) (status : BitVec 8) (p' : PortId) :
    getDir ((dropIn s k status)) p' = getDir s p' := by
  simp [getDir]

@[simp] theorem getPll_dropIn (s : State) (k : Taken) (status : BitVec 8) (u' : PllId) :
    getPll ((dropIn s k status)) u' = getPll s u' := by
  simp [getPll]

@[simp] theorem regVal_dropIn (s : State) (k : Taken) (status : BitVec 8) (off : Nat) :
    regVal ((dropIn s k status)) off = regVal s off := by
  simp [regVal]

/-! ### takeOut -/

theorem takeOut_only (s : State) (ring : Option RingId) : OnlyIn [.io] s ((takeOut s ring).st) :=
  onlyIn_of_pick (by simp)

@[simp] theorem takeOut_pending (s : State) (ring : Option RingId) : ((takeOut s ring).st).pending = s.pending :=
  takeOut_only _ _ .pending (by decide)

@[simp] theorem takeOut_time (s : State) (ring : Option RingId) : ((takeOut s ring).st).time = s.time :=
  takeOut_only _ _ .time (by decide)

@[simp] theorem takeOut_mono (s : State) (ring : Option RingId) : ((takeOut s ring).st).mono = s.mono :=
  takeOut_only _ _ .mono (by decide)

@[simp] theorem takeOut_fresh (s : State) (ring : Option RingId) : ((takeOut s ring).st).fresh = s.fresh :=
  takeOut_only _ _ .fresh (by decide)

@[simp] theorem takeOut_regs (s : State) (ring : Option RingId) : ((takeOut s ring).st).regs = s.regs :=
  takeOut_only _ _ .regs (by decide)

@[simp] theorem takeOut_latches (s : State) (ring : Option RingId) : ((takeOut s ring).st).latches = s.latches :=
  takeOut_only _ _ .latches (by decide)

@[simp] theorem takeOut_heldLow (s : State) (ring : Option RingId) : ((takeOut s ring).st).heldLow = s.heldLow :=
  takeOut_only _ _ .heldLow (by decide)

@[simp] theorem takeOut_access (s : State) (ring : Option RingId) : ((takeOut s ring).st).access = s.access :=
  takeOut_only _ _ .access (by decide)

@[simp] theorem takeOut_straps (s : State) (ring : Option RingId) : ((takeOut s ring).st).straps = s.straps :=
  takeOut_only _ _ .straps (by decide)

@[simp] theorem takeOut_clk (s : State) (ring : Option RingId) : ((takeOut s ring).st).clk = s.clk :=
  takeOut_only _ _ .clk (by decide)

@[simp] theorem takeOut_pwr (s : State) (ring : Option RingId) : ((takeOut s ring).st).pwr = s.pwr :=
  takeOut_only _ _ .pwr (by decide)

@[simp] theorem takeOut_rails (s : State) (ring : Option RingId) : ((takeOut s ring).st).rails = s.rails :=
  takeOut_only _ _ .rails (by decide)

@[simp] theorem takeOut_dies (s : State) (ring : Option RingId) : ((takeOut s ring).st).dies = s.dies :=
  takeOut_only _ _ .dies (by decide)

@[simp] theorem takeOut_hubTemp (s : State) (ring : Option RingId) : ((takeOut s ring).st).hubTemp = s.hubTemp :=
  takeOut_only _ _ .hubTemp (by decide)

@[simp] theorem takeOut_ddr (s : State) (ring : Option RingId) : ((takeOut s ring).st).ddr = s.ddr :=
  takeOut_only _ _ .ddr (by decide)

@[simp] theorem takeOut_store (s : State) (ring : Option RingId) : ((takeOut s ring).st).store = s.store :=
  takeOut_only _ _ .store (by decide)

@[simp] theorem takeOut_ports (s : State) (ring : Option RingId) : ((takeOut s ring).st).ports = s.ports :=
  takeOut_only _ _ .ports (by decide)

@[simp] theorem takeOut_herds (s : State) (ring : Option RingId) : ((takeOut s ring).st).herds = s.herds :=
  takeOut_only _ _ .herds (by decide)

@[simp] theorem takeOut_waits (s : State) (ring : Option RingId) : ((takeOut s ring).st).waits = s.waits :=
  takeOut_only _ _ .waits (by decide)

@[simp] theorem takeOut_flt (s : State) (ring : Option RingId) : ((takeOut s ring).st).flt = s.flt :=
  takeOut_only _ _ .flt (by decide)

@[simp] theorem takeOut_fw (s : State) (ring : Option RingId) : ((takeOut s ring).st).fw = s.fw :=
  takeOut_only _ _ .fw (by decide)

@[simp] theorem takeOut_sec (s : State) (ring : Option RingId) : ((takeOut s ring).st).sec = s.sec :=
  takeOut_only _ _ .sec (by decide)

@[simp] theorem takeOut_nv (s : State) (ring : Option RingId) : ((takeOut s ring).st).nv = s.nv :=
  takeOut_only _ _ .nv (by decide)

@[simp] theorem getPort_takeOut (s : State) (ring : Option RingId) (p' : PortId) :
    getPort ((takeOut s ring).st) p' = getPort s p' := by
  simp [getPort]

@[simp] theorem getHerd_takeOut (s : State) (ring : Option RingId) (h' : HerdId) :
    getHerd ((takeOut s ring).st) h' = getHerd s h' := by
  simp [getHerd]

@[simp] theorem getDie_takeOut (s : State) (ring : Option RingId) (d' : DieId) :
    getDie ((takeOut s ring).st) d' = getDie s d' := by
  simp [getDie]

@[simp] theorem getDdr_takeOut (s : State) (ring : Option RingId) (c' : ChanId) :
    getDdr ((takeOut s ring).st) c' = getDdr s c' := by
  simp [getDdr]

@[simp] theorem getDir_takeOut (s : State) (ring : Option RingId) (p' : PortId) :
    getDir ((takeOut s ring).st) p' = getDir s p' := by
  simp [getDir]

@[simp] theorem getPll_takeOut (s : State) (ring : Option RingId) (u' : PllId) :
    getPll ((takeOut s ring).st) u' = getPll s u' := by
  simp [getPll]

@[simp] theorem regVal_takeOut (s : State) (ring : Option RingId) (off : Nat) :
    regVal ((takeOut s ring).st) off = regVal s off := by
  simp [regVal]

/-! ### answerIn -/

theorem answerIn_only (s : State) (opcode : Nat) (c : Cmd) (t : Target) (need : Nat) (fs : List Fld) (result : Nat) :
    OnlyIn [.ports, .herds, .io] s (answerIn s opcode c t need fs result) :=
  onlyIn_of_pick (by simp)

@[simp] theorem answerIn_pending (s : State) (opcode : Nat) (c : Cmd) (t : Target) (need : Nat) (fs : List Fld)
    (result : Nat) :
    ((answerIn s opcode c t need fs result)).pending = s.pending :=
  answerIn_only _ _ _ _ _ _ _ .pending (by decide)

@[simp] theorem answerIn_time (s : State) (opcode : Nat) (c : Cmd) (t : Target) (need : Nat) (fs : List Fld)
    (result : Nat) :
    ((answerIn s opcode c t need fs result)).time = s.time :=
  answerIn_only _ _ _ _ _ _ _ .time (by decide)

@[simp] theorem answerIn_mono (s : State) (opcode : Nat) (c : Cmd) (t : Target) (need : Nat) (fs : List Fld)
    (result : Nat) :
    ((answerIn s opcode c t need fs result)).mono = s.mono :=
  answerIn_only _ _ _ _ _ _ _ .mono (by decide)

@[simp] theorem answerIn_fresh (s : State) (opcode : Nat) (c : Cmd) (t : Target) (need : Nat) (fs : List Fld)
    (result : Nat) :
    ((answerIn s opcode c t need fs result)).fresh = s.fresh :=
  answerIn_only _ _ _ _ _ _ _ .fresh (by decide)

@[simp] theorem answerIn_regs (s : State) (opcode : Nat) (c : Cmd) (t : Target) (need : Nat) (fs : List Fld)
    (result : Nat) :
    ((answerIn s opcode c t need fs result)).regs = s.regs :=
  answerIn_only _ _ _ _ _ _ _ .regs (by decide)

@[simp] theorem answerIn_latches (s : State) (opcode : Nat) (c : Cmd) (t : Target) (need : Nat) (fs : List Fld)
    (result : Nat) :
    ((answerIn s opcode c t need fs result)).latches = s.latches :=
  answerIn_only _ _ _ _ _ _ _ .latches (by decide)

@[simp] theorem answerIn_heldLow (s : State) (opcode : Nat) (c : Cmd) (t : Target) (need : Nat) (fs : List Fld)
    (result : Nat) :
    ((answerIn s opcode c t need fs result)).heldLow = s.heldLow :=
  answerIn_only _ _ _ _ _ _ _ .heldLow (by decide)

@[simp] theorem answerIn_access (s : State) (opcode : Nat) (c : Cmd) (t : Target) (need : Nat) (fs : List Fld)
    (result : Nat) :
    ((answerIn s opcode c t need fs result)).access = s.access :=
  answerIn_only _ _ _ _ _ _ _ .access (by decide)

@[simp] theorem answerIn_straps (s : State) (opcode : Nat) (c : Cmd) (t : Target) (need : Nat) (fs : List Fld)
    (result : Nat) :
    ((answerIn s opcode c t need fs result)).straps = s.straps :=
  answerIn_only _ _ _ _ _ _ _ .straps (by decide)

@[simp] theorem answerIn_clk (s : State) (opcode : Nat) (c : Cmd) (t : Target) (need : Nat) (fs : List Fld)
    (result : Nat) :
    ((answerIn s opcode c t need fs result)).clk = s.clk :=
  answerIn_only _ _ _ _ _ _ _ .clk (by decide)

@[simp] theorem answerIn_pwr (s : State) (opcode : Nat) (c : Cmd) (t : Target) (need : Nat) (fs : List Fld)
    (result : Nat) :
    ((answerIn s opcode c t need fs result)).pwr = s.pwr :=
  answerIn_only _ _ _ _ _ _ _ .pwr (by decide)

@[simp] theorem answerIn_rails (s : State) (opcode : Nat) (c : Cmd) (t : Target) (need : Nat) (fs : List Fld)
    (result : Nat) :
    ((answerIn s opcode c t need fs result)).rails = s.rails :=
  answerIn_only _ _ _ _ _ _ _ .rails (by decide)

@[simp] theorem answerIn_dies (s : State) (opcode : Nat) (c : Cmd) (t : Target) (need : Nat) (fs : List Fld)
    (result : Nat) :
    ((answerIn s opcode c t need fs result)).dies = s.dies :=
  answerIn_only _ _ _ _ _ _ _ .dies (by decide)

@[simp] theorem answerIn_hubTemp (s : State) (opcode : Nat) (c : Cmd) (t : Target) (need : Nat) (fs : List Fld)
    (result : Nat) :
    ((answerIn s opcode c t need fs result)).hubTemp = s.hubTemp :=
  answerIn_only _ _ _ _ _ _ _ .hubTemp (by decide)

@[simp] theorem answerIn_ddr (s : State) (opcode : Nat) (c : Cmd) (t : Target) (need : Nat) (fs : List Fld)
    (result : Nat) :
    ((answerIn s opcode c t need fs result)).ddr = s.ddr :=
  answerIn_only _ _ _ _ _ _ _ .ddr (by decide)

@[simp] theorem answerIn_store (s : State) (opcode : Nat) (c : Cmd) (t : Target) (need : Nat) (fs : List Fld)
    (result : Nat) :
    ((answerIn s opcode c t need fs result)).store = s.store :=
  answerIn_only _ _ _ _ _ _ _ .store (by decide)

@[simp] theorem answerIn_waits (s : State) (opcode : Nat) (c : Cmd) (t : Target) (need : Nat) (fs : List Fld)
    (result : Nat) :
    ((answerIn s opcode c t need fs result)).waits = s.waits :=
  answerIn_only _ _ _ _ _ _ _ .waits (by decide)

@[simp] theorem answerIn_flt (s : State) (opcode : Nat) (c : Cmd) (t : Target) (need : Nat) (fs : List Fld)
    (result : Nat) :
    ((answerIn s opcode c t need fs result)).flt = s.flt :=
  answerIn_only _ _ _ _ _ _ _ .flt (by decide)

@[simp] theorem answerIn_fw (s : State) (opcode : Nat) (c : Cmd) (t : Target) (need : Nat) (fs : List Fld)
    (result : Nat) :
    ((answerIn s opcode c t need fs result)).fw = s.fw :=
  answerIn_only _ _ _ _ _ _ _ .fw (by decide)

@[simp] theorem answerIn_sec (s : State) (opcode : Nat) (c : Cmd) (t : Target) (need : Nat) (fs : List Fld)
    (result : Nat) :
    ((answerIn s opcode c t need fs result)).sec = s.sec :=
  answerIn_only _ _ _ _ _ _ _ .sec (by decide)

@[simp] theorem answerIn_nv (s : State) (opcode : Nat) (c : Cmd) (t : Target) (need : Nat) (fs : List Fld)
    (result : Nat) :
    ((answerIn s opcode c t need fs result)).nv = s.nv :=
  answerIn_only _ _ _ _ _ _ _ .nv (by decide)

@[simp] theorem getDie_answerIn (s : State) (opcode : Nat) (c : Cmd) (t : Target) (need : Nat) (fs : List Fld)
    (result : Nat) (d' : DieId) :
    getDie ((answerIn s opcode c t need fs result)) d' = getDie s d' := by
  simp [getDie]

@[simp] theorem getDdr_answerIn (s : State) (opcode : Nat) (c : Cmd) (t : Target) (need : Nat) (fs : List Fld)
    (result : Nat) (c' : ChanId) :
    getDdr ((answerIn s opcode c t need fs result)) c' = getDdr s c' := by
  simp [getDdr]

@[simp] theorem getDir_answerIn (s : State) (opcode : Nat) (c : Cmd) (t : Target) (need : Nat) (fs : List Fld)
    (result : Nat) (p' : PortId) :
    getDir ((answerIn s opcode c t need fs result)) p' = getDir s p' := by
  simp [getDir]

@[simp] theorem getPll_answerIn (s : State) (opcode : Nat) (c : Cmd) (t : Target) (need : Nat) (fs : List Fld)
    (result : Nat) (u' : PllId) :
    getPll ((answerIn s opcode c t need fs result)) u' = getPll s u' := by
  simp [getPll]

@[simp] theorem regVal_answerIn (s : State) (opcode : Nat) (c : Cmd) (t : Target) (need : Nat) (fs : List Fld)
    (result : Nat) (off : Nat) :
    regVal ((answerIn s opcode c t need fs result)) off = regVal s off := by
  simp [regVal]

/-! ### sendInfo -/

theorem sendInfo_only (s : State) (p : PortId) (type : BitVec 8) (payload : BitVec 64) (cmd : Option Cmd) :
    OnlyIn [.ports] s (sendInfo s p type payload cmd) :=
  onlyIn_of_pick (by simp)

@[simp] theorem sendInfo_pending (s : State) (p : PortId) (type : BitVec 8) (payload : BitVec 64) (cmd : Option Cmd) :
    ((sendInfo s p type payload cmd)).pending = s.pending :=
  sendInfo_only _ _ _ _ _ .pending (by decide)

@[simp] theorem sendInfo_time (s : State) (p : PortId) (type : BitVec 8) (payload : BitVec 64) (cmd : Option Cmd) :
    ((sendInfo s p type payload cmd)).time = s.time :=
  sendInfo_only _ _ _ _ _ .time (by decide)

@[simp] theorem sendInfo_mono (s : State) (p : PortId) (type : BitVec 8) (payload : BitVec 64) (cmd : Option Cmd) :
    ((sendInfo s p type payload cmd)).mono = s.mono :=
  sendInfo_only _ _ _ _ _ .mono (by decide)

@[simp] theorem sendInfo_fresh (s : State) (p : PortId) (type : BitVec 8) (payload : BitVec 64) (cmd : Option Cmd) :
    ((sendInfo s p type payload cmd)).fresh = s.fresh :=
  sendInfo_only _ _ _ _ _ .fresh (by decide)

@[simp] theorem sendInfo_regs (s : State) (p : PortId) (type : BitVec 8) (payload : BitVec 64) (cmd : Option Cmd) :
    ((sendInfo s p type payload cmd)).regs = s.regs :=
  sendInfo_only _ _ _ _ _ .regs (by decide)

@[simp] theorem sendInfo_latches (s : State) (p : PortId) (type : BitVec 8) (payload : BitVec 64) (cmd : Option Cmd) :
    ((sendInfo s p type payload cmd)).latches = s.latches :=
  sendInfo_only _ _ _ _ _ .latches (by decide)

@[simp] theorem sendInfo_heldLow (s : State) (p : PortId) (type : BitVec 8) (payload : BitVec 64) (cmd : Option Cmd) :
    ((sendInfo s p type payload cmd)).heldLow = s.heldLow :=
  sendInfo_only _ _ _ _ _ .heldLow (by decide)

@[simp] theorem sendInfo_access (s : State) (p : PortId) (type : BitVec 8) (payload : BitVec 64) (cmd : Option Cmd) :
    ((sendInfo s p type payload cmd)).access = s.access :=
  sendInfo_only _ _ _ _ _ .access (by decide)

@[simp] theorem sendInfo_straps (s : State) (p : PortId) (type : BitVec 8) (payload : BitVec 64) (cmd : Option Cmd) :
    ((sendInfo s p type payload cmd)).straps = s.straps :=
  sendInfo_only _ _ _ _ _ .straps (by decide)

@[simp] theorem sendInfo_clk (s : State) (p : PortId) (type : BitVec 8) (payload : BitVec 64) (cmd : Option Cmd) :
    ((sendInfo s p type payload cmd)).clk = s.clk :=
  sendInfo_only _ _ _ _ _ .clk (by decide)

@[simp] theorem sendInfo_pwr (s : State) (p : PortId) (type : BitVec 8) (payload : BitVec 64) (cmd : Option Cmd) :
    ((sendInfo s p type payload cmd)).pwr = s.pwr :=
  sendInfo_only _ _ _ _ _ .pwr (by decide)

@[simp] theorem sendInfo_rails (s : State) (p : PortId) (type : BitVec 8) (payload : BitVec 64) (cmd : Option Cmd) :
    ((sendInfo s p type payload cmd)).rails = s.rails :=
  sendInfo_only _ _ _ _ _ .rails (by decide)

@[simp] theorem sendInfo_dies (s : State) (p : PortId) (type : BitVec 8) (payload : BitVec 64) (cmd : Option Cmd) :
    ((sendInfo s p type payload cmd)).dies = s.dies :=
  sendInfo_only _ _ _ _ _ .dies (by decide)

@[simp] theorem sendInfo_hubTemp (s : State) (p : PortId) (type : BitVec 8) (payload : BitVec 64) (cmd : Option Cmd) :
    ((sendInfo s p type payload cmd)).hubTemp = s.hubTemp :=
  sendInfo_only _ _ _ _ _ .hubTemp (by decide)

@[simp] theorem sendInfo_ddr (s : State) (p : PortId) (type : BitVec 8) (payload : BitVec 64) (cmd : Option Cmd) :
    ((sendInfo s p type payload cmd)).ddr = s.ddr :=
  sendInfo_only _ _ _ _ _ .ddr (by decide)

@[simp] theorem sendInfo_store (s : State) (p : PortId) (type : BitVec 8) (payload : BitVec 64) (cmd : Option Cmd) :
    ((sendInfo s p type payload cmd)).store = s.store :=
  sendInfo_only _ _ _ _ _ .store (by decide)

@[simp] theorem sendInfo_herds (s : State) (p : PortId) (type : BitVec 8) (payload : BitVec 64) (cmd : Option Cmd) :
    ((sendInfo s p type payload cmd)).herds = s.herds :=
  sendInfo_only _ _ _ _ _ .herds (by decide)

@[simp] theorem sendInfo_io (s : State) (p : PortId) (type : BitVec 8) (payload : BitVec 64) (cmd : Option Cmd) :
    ((sendInfo s p type payload cmd)).io = s.io :=
  sendInfo_only _ _ _ _ _ .io (by decide)

@[simp] theorem sendInfo_waits (s : State) (p : PortId) (type : BitVec 8) (payload : BitVec 64) (cmd : Option Cmd) :
    ((sendInfo s p type payload cmd)).waits = s.waits :=
  sendInfo_only _ _ _ _ _ .waits (by decide)

@[simp] theorem sendInfo_flt (s : State) (p : PortId) (type : BitVec 8) (payload : BitVec 64) (cmd : Option Cmd) :
    ((sendInfo s p type payload cmd)).flt = s.flt :=
  sendInfo_only _ _ _ _ _ .flt (by decide)

@[simp] theorem sendInfo_fw (s : State) (p : PortId) (type : BitVec 8) (payload : BitVec 64) (cmd : Option Cmd) :
    ((sendInfo s p type payload cmd)).fw = s.fw :=
  sendInfo_only _ _ _ _ _ .fw (by decide)

@[simp] theorem sendInfo_sec (s : State) (p : PortId) (type : BitVec 8) (payload : BitVec 64) (cmd : Option Cmd) :
    ((sendInfo s p type payload cmd)).sec = s.sec :=
  sendInfo_only _ _ _ _ _ .sec (by decide)

@[simp] theorem sendInfo_nv (s : State) (p : PortId) (type : BitVec 8) (payload : BitVec 64) (cmd : Option Cmd) :
    ((sendInfo s p type payload cmd)).nv = s.nv :=
  sendInfo_only _ _ _ _ _ .nv (by decide)

@[simp] theorem getHerd_sendInfo (s : State) (p : PortId) (type : BitVec 8) (payload : BitVec 64) (cmd : Option Cmd)
    (h' : HerdId) :
    getHerd ((sendInfo s p type payload cmd)) h' = getHerd s h' := by
  simp [getHerd]

@[simp] theorem getDie_sendInfo (s : State) (p : PortId) (type : BitVec 8) (payload : BitVec 64) (cmd : Option Cmd)
    (d' : DieId) :
    getDie ((sendInfo s p type payload cmd)) d' = getDie s d' := by
  simp [getDie]

@[simp] theorem getDdr_sendInfo (s : State) (p : PortId) (type : BitVec 8) (payload : BitVec 64) (cmd : Option Cmd)
    (c' : ChanId) :
    getDdr ((sendInfo s p type payload cmd)) c' = getDdr s c' := by
  simp [getDdr]

@[simp] theorem getDir_sendInfo (s : State) (p : PortId) (type : BitVec 8) (payload : BitVec 64) (cmd : Option Cmd)
    (p' : PortId) :
    getDir ((sendInfo s p type payload cmd)) p' = getDir s p' := by
  simp [getDir]

@[simp] theorem getPll_sendInfo (s : State) (p : PortId) (type : BitVec 8) (payload : BitVec 64) (cmd : Option Cmd)
    (u' : PllId) :
    getPll ((sendInfo s p type payload cmd)) u' = getPll s u' := by
  simp [getPll]

@[simp] theorem regVal_sendInfo (s : State) (p : PortId) (type : BitVec 8) (payload : BitVec 64) (cmd : Option Cmd)
    (off : Nat) :
    regVal ((sendInfo s p type payload cmd)) off = regVal s off := by
  simp [regVal]

/-! ### raiseFault -/

theorem raiseFault_only (s : State) (src : Nat) (detail : Nat) :
    OnlyIn [.ports, .herds, .io, .flt, .fw, .nv] s (raiseFault s src detail) :=
  onlyIn_of_pick (by simp)

@[simp] theorem raiseFault_pending (s : State) (src : Nat) (detail : Nat) :
    ((raiseFault s src detail)).pending = s.pending :=
  raiseFault_only _ _ _ .pending (by decide)

@[simp] theorem raiseFault_time (s : State) (src : Nat) (detail : Nat) : ((raiseFault s src detail)).time = s.time :=
  raiseFault_only _ _ _ .time (by decide)

@[simp] theorem raiseFault_mono (s : State) (src : Nat) (detail : Nat) : ((raiseFault s src detail)).mono = s.mono :=
  raiseFault_only _ _ _ .mono (by decide)

@[simp] theorem raiseFault_fresh (s : State) (src : Nat) (detail : Nat) :
    ((raiseFault s src detail)).fresh = s.fresh :=
  raiseFault_only _ _ _ .fresh (by decide)

@[simp] theorem raiseFault_regs (s : State) (src : Nat) (detail : Nat) : ((raiseFault s src detail)).regs = s.regs :=
  raiseFault_only _ _ _ .regs (by decide)

@[simp] theorem raiseFault_latches (s : State) (src : Nat) (detail : Nat) :
    ((raiseFault s src detail)).latches = s.latches :=
  raiseFault_only _ _ _ .latches (by decide)

@[simp] theorem raiseFault_heldLow (s : State) (src : Nat) (detail : Nat) :
    ((raiseFault s src detail)).heldLow = s.heldLow :=
  raiseFault_only _ _ _ .heldLow (by decide)

@[simp] theorem raiseFault_access (s : State) (src : Nat) (detail : Nat) :
    ((raiseFault s src detail)).access = s.access :=
  raiseFault_only _ _ _ .access (by decide)

@[simp] theorem raiseFault_straps (s : State) (src : Nat) (detail : Nat) :
    ((raiseFault s src detail)).straps = s.straps :=
  raiseFault_only _ _ _ .straps (by decide)

@[simp] theorem raiseFault_clk (s : State) (src : Nat) (detail : Nat) : ((raiseFault s src detail)).clk = s.clk :=
  raiseFault_only _ _ _ .clk (by decide)

@[simp] theorem raiseFault_pwr (s : State) (src : Nat) (detail : Nat) : ((raiseFault s src detail)).pwr = s.pwr :=
  raiseFault_only _ _ _ .pwr (by decide)

@[simp] theorem raiseFault_rails (s : State) (src : Nat) (detail : Nat) :
    ((raiseFault s src detail)).rails = s.rails :=
  raiseFault_only _ _ _ .rails (by decide)

@[simp] theorem raiseFault_dies (s : State) (src : Nat) (detail : Nat) : ((raiseFault s src detail)).dies = s.dies :=
  raiseFault_only _ _ _ .dies (by decide)

@[simp] theorem raiseFault_hubTemp (s : State) (src : Nat) (detail : Nat) :
    ((raiseFault s src detail)).hubTemp = s.hubTemp :=
  raiseFault_only _ _ _ .hubTemp (by decide)

@[simp] theorem raiseFault_ddr (s : State) (src : Nat) (detail : Nat) : ((raiseFault s src detail)).ddr = s.ddr :=
  raiseFault_only _ _ _ .ddr (by decide)

@[simp] theorem raiseFault_store (s : State) (src : Nat) (detail : Nat) :
    ((raiseFault s src detail)).store = s.store :=
  raiseFault_only _ _ _ .store (by decide)

@[simp] theorem raiseFault_waits (s : State) (src : Nat) (detail : Nat) :
    ((raiseFault s src detail)).waits = s.waits :=
  raiseFault_only _ _ _ .waits (by decide)

@[simp] theorem raiseFault_sec (s : State) (src : Nat) (detail : Nat) : ((raiseFault s src detail)).sec = s.sec :=
  raiseFault_only _ _ _ .sec (by decide)

@[simp] theorem getDie_raiseFault (s : State) (src : Nat) (detail : Nat) (d' : DieId) :
    getDie ((raiseFault s src detail)) d' = getDie s d' := by
  simp [getDie]

@[simp] theorem getDdr_raiseFault (s : State) (src : Nat) (detail : Nat) (c' : ChanId) :
    getDdr ((raiseFault s src detail)) c' = getDdr s c' := by
  simp [getDdr]

@[simp] theorem getDir_raiseFault (s : State) (src : Nat) (detail : Nat) (p' : PortId) :
    getDir ((raiseFault s src detail)) p' = getDir s p' := by
  simp [getDir]

@[simp] theorem getPll_raiseFault (s : State) (src : Nat) (detail : Nat) (u' : PllId) :
    getPll ((raiseFault s src detail)) u' = getPll s u' := by
  simp [getPll]

@[simp] theorem regVal_raiseFault (s : State) (src : Nat) (detail : Nat) (off : Nat) :
    regVal ((raiseFault s src detail)) off = regVal s off := by
  simp [regVal]

/-! ### A herd's record but for its queue -/

/-- A herd without its queue. -/
def herdRest (x : Herd) : Herd := { x with queue := [] }

@[simp] theorem herdRest_queue (x : Herd) (q : List Cmd) : herdRest { x with queue := q } = herdRest x := rfl

theorem herdRest_dequeue (s : State) (c : Cmd) (h : HerdId) :
    herdRest (getHerd (dequeue s c) h) = herdRest (getHerd s h) := by
  unfold dequeue
  split
  · rename_i g _
    split
    · by_cases e : h = g
      · subst e; simp
      · rw [getHerd_modHerd_ne _ _ e]
    · rfl
  · split <;> rfl

theorem complete_herds (s : State) (op : Nat) (c : Cmd) (l : List MirrorObj) (a : BitVec 8) (r : BitVec 64) :
    (complete s op c l a r).herds = (dequeue s c).herds := by
  have k : ∀ t : State, ∀ l : List MirrorObj, (forEach l mirrorWrite t).herds = t.herds := by
    intro t l
    have := onlyIn_of_pick (m := [.io]) (pick_forEach [.io] l mirrorWrite t (fun s x => by simp))
    exact this .herds (by decide)
  unfold complete
  simp only []
  split
  · simp [k]
  · exact k _ _

theorem herdRest_complete (s : State) (op : Nat) (c : Cmd) (l : List MirrorObj) (a : BitVec 8) (r : BitVec 64)
    (h : HerdId) : herdRest (getHerd (complete s op c l a r) h) = herdRest (getHerd s h) := by
  rw [← herdRest_dequeue s c h]
  simp [getHerd, complete_herds]

@[simp] theorem complete_herd_modeSet (s : State) (op : Nat) (c : Cmd) (l : List MirrorObj) (a : BitVec 8)
    (r : BitVec 64) (h : HerdId) :
    (getHerd (complete s op c l a r) h).modeSet = (getHerd s h).modeSet := by
  have k := congrArg Herd.modeSet (herdRest_complete s op c l a r h)
  exact k

@[simp] theorem completeOk_herd_modeSet (s : State) (op : Nat) (c : Cmd) (l : List MirrorObj) (r : Nat) (h : HerdId) :
    (getHerd (completeOk s op c l r) h).modeSet = (getHerd s h).modeSet :=
  complete_herd_modeSet s op c l stOk (BitVec.ofNat 64 r) h

@[simp] theorem reject_herd_modeSet (s : State) (op : Nat) (c : Cmd) (a : BitVec 8) (r : BitVec 64) (h : HerdId) :
    (getHerd (reject s op c a r) h).modeSet = (getHerd s h).modeSet :=
  complete_herd_modeSet s op c [] a r h

@[simp] theorem dequeue_herd_modeSet (s : State) (c : Cmd) (h : HerdId) :
    (getHerd (dequeue s c) h).modeSet = (getHerd s h).modeSet := by
  have k := congrArg Herd.modeSet (herdRest_dequeue s c h)
  exact k

@[simp] theorem complete_herd_policy (s : State) (op : Nat) (c : Cmd) (l : List MirrorObj) (a : BitVec 8)
    (r : BitVec 64) (h : HerdId) :
    (getHerd (complete s op c l a r) h).policy = (getHerd s h).policy := by
  have k := congrArg Herd.policy (herdRest_complete s op c l a r h)
  exact k

@[simp] theorem completeOk_herd_policy (s : State) (op : Nat) (c : Cmd) (l : List MirrorObj) (r : Nat) (h : HerdId) :
    (getHerd (completeOk s op c l r) h).policy = (getHerd s h).policy :=
  complete_herd_policy s op c l stOk (BitVec.ofNat 64 r) h

@[simp] theorem reject_herd_policy (s : State) (op : Nat) (c : Cmd) (a : BitVec 8) (r : BitVec 64) (h : HerdId) :
    (getHerd (reject s op c a r) h).policy = (getHerd s h).policy :=
  complete_herd_policy s op c [] a r h

@[simp] theorem dequeue_herd_policy (s : State) (c : Cmd) (h : HerdId) :
    (getHerd (dequeue s c) h).policy = (getHerd s h).policy := by
  have k := congrArg Herd.policy (herdRest_dequeue s c h)
  exact k

@[simp] theorem complete_herd_shModeSet (s : State) (op : Nat) (c : Cmd) (l : List MirrorObj) (a : BitVec 8)
    (r : BitVec 64) (h : HerdId) :
    (getHerd (complete s op c l a r) h).shModeSet = (getHerd s h).shModeSet := by
  have k := congrArg Herd.shModeSet (herdRest_complete s op c l a r h)
  exact k

@[simp] theorem completeOk_herd_shModeSet (s : State) (op : Nat) (c : Cmd) (l : List MirrorObj) (r : Nat)
    (h : HerdId) :
    (getHerd (completeOk s op c l r) h).shModeSet = (getHerd s h).shModeSet :=
  complete_herd_shModeSet s op c l stOk (BitVec.ofNat 64 r) h

@[simp] theorem reject_herd_shModeSet (s : State) (op : Nat) (c : Cmd) (a : BitVec 8) (r : BitVec 64) (h : HerdId) :
    (getHerd (reject s op c a r) h).shModeSet = (getHerd s h).shModeSet :=
  complete_herd_shModeSet s op c [] a r h

@[simp] theorem dequeue_herd_shModeSet (s : State) (c : Cmd) (h : HerdId) :
    (getHerd (dequeue s c) h).shModeSet = (getHerd s h).shModeSet := by
  have k := congrArg Herd.shModeSet (herdRest_dequeue s c h)
  exact k

@[simp] theorem complete_herd_shPolicy (s : State) (op : Nat) (c : Cmd) (l : List MirrorObj) (a : BitVec 8)
    (r : BitVec 64) (h : HerdId) :
    (getHerd (complete s op c l a r) h).shPolicy = (getHerd s h).shPolicy := by
  have k := congrArg Herd.shPolicy (herdRest_complete s op c l a r h)
  exact k

@[simp] theorem completeOk_herd_shPolicy (s : State) (op : Nat) (c : Cmd) (l : List MirrorObj) (r : Nat)
    (h : HerdId) :
    (getHerd (completeOk s op c l r) h).shPolicy = (getHerd s h).shPolicy :=
  complete_herd_shPolicy s op c l stOk (BitVec.ofNat 64 r) h

@[simp] theorem reject_herd_shPolicy (s : State) (op : Nat) (c : Cmd) (a : BitVec 8) (r : BitVec 64) (h : HerdId) :
    (getHerd (reject s op c a r) h).shPolicy = (getHerd s h).shPolicy :=
  complete_herd_shPolicy s op c [] a r h

@[simp] theorem dequeue_herd_shPolicy (s : State) (c : Cmd) (h : HerdId) :
    (getHerd (dequeue s c) h).shPolicy = (getHerd s h).shPolicy := by
  have k := congrArg Herd.shPolicy (herdRest_dequeue s c h)
  exact k

@[simp] theorem complete_herd_staged (s : State) (op : Nat) (c : Cmd) (l : List MirrorObj) (a : BitVec 8)
    (r : BitVec 64) (h : HerdId) :
    (getHerd (complete s op c l a r) h).staged = (getHerd s h).staged := by
  have k := congrArg Herd.staged (herdRest_complete s op c l a r h)
  exact k

@[simp] theorem completeOk_herd_staged (s : State) (op : Nat) (c : Cmd) (l : List MirrorObj) (r : Nat) (h : HerdId) :
    (getHerd (completeOk s op c l r) h).staged = (getHerd s h).staged :=
  complete_herd_staged s op c l stOk (BitVec.ofNat 64 r) h

@[simp] theorem reject_herd_staged (s : State) (op : Nat) (c : Cmd) (a : BitVec 8) (r : BitVec 64) (h : HerdId) :
    (getHerd (reject s op c a r) h).staged = (getHerd s h).staged :=
  complete_herd_staged s op c [] a r h

@[simp] theorem dequeue_herd_staged (s : State) (c : Cmd) (h : HerdId) :
    (getHerd (dequeue s c) h).staged = (getHerd s h).staged := by
  have k := congrArg Herd.staged (herdRest_dequeue s c h)
  exact k

@[simp] theorem complete_herd_resolved (s : State) (op : Nat) (c : Cmd) (l : List MirrorObj) (a : BitVec 8)
    (r : BitVec 64) (h : HerdId) :
    (getHerd (complete s op c l a r) h).resolved = (getHerd s h).resolved := by
  have k := congrArg Herd.resolved (herdRest_complete s op c l a r h)
  exact k

@[simp] theorem completeOk_herd_resolved (s : State) (op : Nat) (c : Cmd) (l : List MirrorObj) (r : Nat)
    (h : HerdId) :
    (getHerd (completeOk s op c l r) h).resolved = (getHerd s h).resolved :=
  complete_herd_resolved s op c l stOk (BitVec.ofNat 64 r) h

@[simp] theorem reject_herd_resolved (s : State) (op : Nat) (c : Cmd) (a : BitVec 8) (r : BitVec 64) (h : HerdId) :
    (getHerd (reject s op c a r) h).resolved = (getHerd s h).resolved :=
  complete_herd_resolved s op c [] a r h

@[simp] theorem dequeue_herd_resolved (s : State) (c : Cmd) (h : HerdId) :
    (getHerd (dequeue s c) h).resolved = (getHerd s h).resolved := by
  have k := congrArg Herd.resolved (herdRest_dequeue s c h)
  exact k

@[simp] theorem complete_herd_pllMode (s : State) (op : Nat) (c : Cmd) (l : List MirrorObj) (a : BitVec 8)
    (r : BitVec 64) (h : HerdId) :
    (getHerd (complete s op c l a r) h).pllMode = (getHerd s h).pllMode := by
  have k := congrArg Herd.pllMode (herdRest_complete s op c l a r h)
  exact k

@[simp] theorem completeOk_herd_pllMode (s : State) (op : Nat) (c : Cmd) (l : List MirrorObj) (r : Nat) (h : HerdId) :
    (getHerd (completeOk s op c l r) h).pllMode = (getHerd s h).pllMode :=
  complete_herd_pllMode s op c l stOk (BitVec.ofNat 64 r) h

@[simp] theorem reject_herd_pllMode (s : State) (op : Nat) (c : Cmd) (a : BitVec 8) (r : BitVec 64) (h : HerdId) :
    (getHerd (reject s op c a r) h).pllMode = (getHerd s h).pllMode :=
  complete_herd_pllMode s op c [] a r h

@[simp] theorem dequeue_herd_pllMode (s : State) (c : Cmd) (h : HerdId) :
    (getHerd (dequeue s c) h).pllMode = (getHerd s h).pllMode := by
  have k := congrArg Herd.pllMode (herdRest_dequeue s c h)
  exact k

@[simp] theorem complete_herd_pllOld (s : State) (op : Nat) (c : Cmd) (l : List MirrorObj) (a : BitVec 8)
    (r : BitVec 64) (h : HerdId) :
    (getHerd (complete s op c l a r) h).pllOld = (getHerd s h).pllOld := by
  have k := congrArg Herd.pllOld (herdRest_complete s op c l a r h)
  exact k

@[simp] theorem completeOk_herd_pllOld (s : State) (op : Nat) (c : Cmd) (l : List MirrorObj) (r : Nat) (h : HerdId) :
    (getHerd (completeOk s op c l r) h).pllOld = (getHerd s h).pllOld :=
  complete_herd_pllOld s op c l stOk (BitVec.ofNat 64 r) h

@[simp] theorem reject_herd_pllOld (s : State) (op : Nat) (c : Cmd) (a : BitVec 8) (r : BitVec 64) (h : HerdId) :
    (getHerd (reject s op c a r) h).pllOld = (getHerd s h).pllOld :=
  complete_herd_pllOld s op c [] a r h

@[simp] theorem dequeue_herd_pllOld (s : State) (c : Cmd) (h : HerdId) :
    (getHerd (dequeue s c) h).pllOld = (getHerd s h).pllOld := by
  have k := congrArg Herd.pllOld (herdRest_dequeue s c h)
  exact k

@[simp] theorem complete_herd_cfgGen (s : State) (op : Nat) (c : Cmd) (l : List MirrorObj) (a : BitVec 8)
    (r : BitVec 64) (h : HerdId) :
    (getHerd (complete s op c l a r) h).cfgGen = (getHerd s h).cfgGen := by
  have k := congrArg Herd.cfgGen (herdRest_complete s op c l a r h)
  exact k

@[simp] theorem completeOk_herd_cfgGen (s : State) (op : Nat) (c : Cmd) (l : List MirrorObj) (r : Nat) (h : HerdId) :
    (getHerd (completeOk s op c l r) h).cfgGen = (getHerd s h).cfgGen :=
  complete_herd_cfgGen s op c l stOk (BitVec.ofNat 64 r) h

@[simp] theorem reject_herd_cfgGen (s : State) (op : Nat) (c : Cmd) (a : BitVec 8) (r : BitVec 64) (h : HerdId) :
    (getHerd (reject s op c a r) h).cfgGen = (getHerd s h).cfgGen :=
  complete_herd_cfgGen s op c [] a r h

@[simp] theorem dequeue_herd_cfgGen (s : State) (c : Cmd) (h : HerdId) :
    (getHerd (dequeue s c) h).cfgGen = (getHerd s h).cfgGen := by
  have k := congrArg Herd.cfgGen (herdRest_dequeue s c h)
  exact k

@[simp] theorem complete_herd_timing (s : State) (op : Nat) (c : Cmd) (l : List MirrorObj) (a : BitVec 8)
    (r : BitVec 64) (h : HerdId) :
    (getHerd (complete s op c l a r) h).timing = (getHerd s h).timing := by
  have k := congrArg Herd.timing (herdRest_complete s op c l a r h)
  exact k

@[simp] theorem completeOk_herd_timing (s : State) (op : Nat) (c : Cmd) (l : List MirrorObj) (r : Nat) (h : HerdId) :
    (getHerd (completeOk s op c l r) h).timing = (getHerd s h).timing :=
  complete_herd_timing s op c l stOk (BitVec.ofNat 64 r) h

@[simp] theorem reject_herd_timing (s : State) (op : Nat) (c : Cmd) (a : BitVec 8) (r : BitVec 64) (h : HerdId) :
    (getHerd (reject s op c a r) h).timing = (getHerd s h).timing :=
  complete_herd_timing s op c [] a r h

@[simp] theorem dequeue_herd_timing (s : State) (c : Cmd) (h : HerdId) :
    (getHerd (dequeue s c) h).timing = (getHerd s h).timing := by
  have k := congrArg Herd.timing (herdRest_dequeue s c h)
  exact k

@[simp] theorem complete_herd_lead (s : State) (op : Nat) (c : Cmd) (l : List MirrorObj) (a : BitVec 8)
    (r : BitVec 64) (h : HerdId) :
    (getHerd (complete s op c l a r) h).lead = (getHerd s h).lead := by
  have k := congrArg Herd.lead (herdRest_complete s op c l a r h)
  exact k

@[simp] theorem completeOk_herd_lead (s : State) (op : Nat) (c : Cmd) (l : List MirrorObj) (r : Nat) (h : HerdId) :
    (getHerd (completeOk s op c l r) h).lead = (getHerd s h).lead :=
  complete_herd_lead s op c l stOk (BitVec.ofNat 64 r) h

@[simp] theorem reject_herd_lead (s : State) (op : Nat) (c : Cmd) (a : BitVec 8) (r : BitVec 64) (h : HerdId) :
    (getHerd (reject s op c a r) h).lead = (getHerd s h).lead :=
  complete_herd_lead s op c [] a r h

@[simp] theorem dequeue_herd_lead (s : State) (c : Cmd) (h : HerdId) :
    (getHerd (dequeue s c) h).lead = (getHerd s h).lead := by
  have k := congrArg Herd.lead (herdRest_dequeue s c h)
  exact k

@[simp] theorem complete_herd_loopFreq (s : State) (op : Nat) (c : Cmd) (l : List MirrorObj) (a : BitVec 8)
    (r : BitVec 64) (h : HerdId) :
    (getHerd (complete s op c l a r) h).loopFreq = (getHerd s h).loopFreq := by
  have k := congrArg Herd.loopFreq (herdRest_complete s op c l a r h)
  exact k

@[simp] theorem completeOk_herd_loopFreq (s : State) (op : Nat) (c : Cmd) (l : List MirrorObj) (r : Nat)
    (h : HerdId) :
    (getHerd (completeOk s op c l r) h).loopFreq = (getHerd s h).loopFreq :=
  complete_herd_loopFreq s op c l stOk (BitVec.ofNat 64 r) h

@[simp] theorem reject_herd_loopFreq (s : State) (op : Nat) (c : Cmd) (a : BitVec 8) (r : BitVec 64) (h : HerdId) :
    (getHerd (reject s op c a r) h).loopFreq = (getHerd s h).loopFreq :=
  complete_herd_loopFreq s op c [] a r h

@[simp] theorem dequeue_herd_loopFreq (s : State) (c : Cmd) (h : HerdId) :
    (getHerd (dequeue s c) h).loopFreq = (getHerd s h).loopFreq := by
  have k := congrArg Herd.loopFreq (herdRest_dequeue s c h)
  exact k

@[simp] theorem complete_herd_negSeq (s : State) (op : Nat) (c : Cmd) (l : List MirrorObj) (a : BitVec 8)
    (r : BitVec 64) (h : HerdId) :
    (getHerd (complete s op c l a r) h).negSeq = (getHerd s h).negSeq := by
  have k := congrArg Herd.negSeq (herdRest_complete s op c l a r h)
  exact k

@[simp] theorem completeOk_herd_negSeq (s : State) (op : Nat) (c : Cmd) (l : List MirrorObj) (r : Nat) (h : HerdId) :
    (getHerd (completeOk s op c l r) h).negSeq = (getHerd s h).negSeq :=
  complete_herd_negSeq s op c l stOk (BitVec.ofNat 64 r) h

@[simp] theorem reject_herd_negSeq (s : State) (op : Nat) (c : Cmd) (a : BitVec 8) (r : BitVec 64) (h : HerdId) :
    (getHerd (reject s op c a r) h).negSeq = (getHerd s h).negSeq :=
  complete_herd_negSeq s op c [] a r h

@[simp] theorem dequeue_herd_negSeq (s : State) (c : Cmd) (h : HerdId) :
    (getHerd (dequeue s c) h).negSeq = (getHerd s h).negSeq := by
  have k := congrArg Herd.negSeq (herdRest_dequeue s c h)
  exact k

@[simp] theorem complete_herd_handovers (s : State) (op : Nat) (c : Cmd) (l : List MirrorObj) (a : BitVec 8)
    (r : BitVec 64) (h : HerdId) :
    (getHerd (complete s op c l a r) h).handovers = (getHerd s h).handovers := by
  have k := congrArg Herd.handovers (herdRest_complete s op c l a r h)
  exact k

@[simp] theorem completeOk_herd_handovers (s : State) (op : Nat) (c : Cmd) (l : List MirrorObj) (r : Nat)
    (h : HerdId) :
    (getHerd (completeOk s op c l r) h).handovers = (getHerd s h).handovers :=
  complete_herd_handovers s op c l stOk (BitVec.ofNat 64 r) h

@[simp] theorem reject_herd_handovers (s : State) (op : Nat) (c : Cmd) (a : BitVec 8) (r : BitVec 64) (h : HerdId) :
    (getHerd (reject s op c a r) h).handovers = (getHerd s h).handovers :=
  complete_herd_handovers s op c [] a r h

@[simp] theorem dequeue_herd_handovers (s : State) (c : Cmd) (h : HerdId) :
    (getHerd (dequeue s c) h).handovers = (getHerd s h).handovers := by
  have k := congrArg Herd.handovers (herdRest_dequeue s c h)
  exact k

@[simp] theorem complete_herd_trunk (s : State) (op : Nat) (c : Cmd) (l : List MirrorObj) (a : BitVec 8)
    (r : BitVec 64) (h : HerdId) :
    (getHerd (complete s op c l a r) h).trunk = (getHerd s h).trunk := by
  have k := congrArg Herd.trunk (herdRest_complete s op c l a r h)
  exact k

@[simp] theorem completeOk_herd_trunk (s : State) (op : Nat) (c : Cmd) (l : List MirrorObj) (r : Nat) (h : HerdId) :
    (getHerd (completeOk s op c l r) h).trunk = (getHerd s h).trunk :=
  complete_herd_trunk s op c l stOk (BitVec.ofNat 64 r) h

@[simp] theorem reject_herd_trunk (s : State) (op : Nat) (c : Cmd) (a : BitVec 8) (r : BitVec 64) (h : HerdId) :
    (getHerd (reject s op c a r) h).trunk = (getHerd s h).trunk :=
  complete_herd_trunk s op c [] a r h

@[simp] theorem dequeue_herd_trunk (s : State) (c : Cmd) (h : HerdId) :
    (getHerd (dequeue s c) h).trunk = (getHerd s h).trunk := by
  have k := congrArg Herd.trunk (herdRest_dequeue s c h)
  exact k

@[simp] theorem complete_herd_st (s : State) (op : Nat) (c : Cmd) (l : List MirrorObj) (a : BitVec 8)
    (r : BitVec 64) (h : HerdId) :
    (getHerd (complete s op c l a r) h).st = (getHerd s h).st := by
  have k := congrArg Herd.st (herdRest_complete s op c l a r h)
  exact k

@[simp] theorem completeOk_herd_st (s : State) (op : Nat) (c : Cmd) (l : List MirrorObj) (r : Nat) (h : HerdId) :
    (getHerd (completeOk s op c l r) h).st = (getHerd s h).st :=
  complete_herd_st s op c l stOk (BitVec.ofNat 64 r) h

@[simp] theorem reject_herd_st (s : State) (op : Nat) (c : Cmd) (a : BitVec 8) (r : BitVec 64) (h : HerdId) :
    (getHerd (reject s op c a r) h).st = (getHerd s h).st :=
  complete_herd_st s op c [] a r h

@[simp] theorem dequeue_herd_st (s : State) (c : Cmd) (h : HerdId) :
    (getHerd (dequeue s c) h).st = (getHerd s h).st := by
  have k := congrArg Herd.st (herdRest_dequeue s c h)
  exact k

@[simp] theorem complete_herd_commit (s : State) (op : Nat) (c : Cmd) (l : List MirrorObj) (a : BitVec 8)
    (r : BitVec 64) (h : HerdId) :
    (getHerd (complete s op c l a r) h).commit = (getHerd s h).commit := by
  have k := congrArg Herd.commit (herdRest_complete s op c l a r h)
  exact k

@[simp] theorem completeOk_herd_commit (s : State) (op : Nat) (c : Cmd) (l : List MirrorObj) (r : Nat) (h : HerdId) :
    (getHerd (completeOk s op c l r) h).commit = (getHerd s h).commit :=
  complete_herd_commit s op c l stOk (BitVec.ofNat 64 r) h

@[simp] theorem reject_herd_commit (s : State) (op : Nat) (c : Cmd) (a : BitVec 8) (r : BitVec 64) (h : HerdId) :
    (getHerd (reject s op c a r) h).commit = (getHerd s h).commit :=
  complete_herd_commit s op c [] a r h

@[simp] theorem dequeue_herd_commit (s : State) (c : Cmd) (h : HerdId) :
    (getHerd (dequeue s c) h).commit = (getHerd s h).commit := by
  have k := congrArg Herd.commit (herdRest_dequeue s c h)
  exact k

@[simp] theorem complete_herd_image (s : State) (op : Nat) (c : Cmd) (l : List MirrorObj) (a : BitVec 8)
    (r : BitVec 64) (h : HerdId) :
    (getHerd (complete s op c l a r) h).image = (getHerd s h).image := by
  have k := congrArg Herd.image (herdRest_complete s op c l a r h)
  exact k

@[simp] theorem completeOk_herd_image (s : State) (op : Nat) (c : Cmd) (l : List MirrorObj) (r : Nat) (h : HerdId) :
    (getHerd (completeOk s op c l r) h).image = (getHerd s h).image :=
  complete_herd_image s op c l stOk (BitVec.ofNat 64 r) h

@[simp] theorem reject_herd_image (s : State) (op : Nat) (c : Cmd) (a : BitVec 8) (r : BitVec 64) (h : HerdId) :
    (getHerd (reject s op c a r) h).image = (getHerd s h).image :=
  complete_herd_image s op c [] a r h

@[simp] theorem dequeue_herd_image (s : State) (c : Cmd) (h : HerdId) :
    (getHerd (dequeue s c) h).image = (getHerd s h).image := by
  have k := congrArg Herd.image (herdRest_dequeue s c h)
  exact k

@[simp] theorem complete_herd_imageDig (s : State) (op : Nat) (c : Cmd) (l : List MirrorObj) (a : BitVec 8)
    (r : BitVec 64) (h : HerdId) :
    (getHerd (complete s op c l a r) h).imageDig = (getHerd s h).imageDig := by
  have k := congrArg Herd.imageDig (herdRest_complete s op c l a r h)
  exact k

@[simp] theorem completeOk_herd_imageDig (s : State) (op : Nat) (c : Cmd) (l : List MirrorObj) (r : Nat)
    (h : HerdId) :
    (getHerd (completeOk s op c l r) h).imageDig = (getHerd s h).imageDig :=
  complete_herd_imageDig s op c l stOk (BitVec.ofNat 64 r) h

@[simp] theorem reject_herd_imageDig (s : State) (op : Nat) (c : Cmd) (a : BitVec 8) (r : BitVec 64) (h : HerdId) :
    (getHerd (reject s op c a r) h).imageDig = (getHerd s h).imageDig :=
  complete_herd_imageDig s op c [] a r h

@[simp] theorem dequeue_herd_imageDig (s : State) (c : Cmd) (h : HerdId) :
    (getHerd (dequeue s c) h).imageDig = (getHerd s h).imageDig := by
  have k := congrArg Herd.imageDig (herdRest_dequeue s c h)
  exact k

@[simp] theorem complete_herd_obs (s : State) (op : Nat) (c : Cmd) (l : List MirrorObj) (a : BitVec 8)
    (r : BitVec 64) (h : HerdId) :
    (getHerd (complete s op c l a r) h).obs = (getHerd s h).obs := by
  have k := congrArg Herd.obs (herdRest_complete s op c l a r h)
  exact k

@[simp] theorem completeOk_herd_obs (s : State) (op : Nat) (c : Cmd) (l : List MirrorObj) (r : Nat) (h : HerdId) :
    (getHerd (completeOk s op c l r) h).obs = (getHerd s h).obs :=
  complete_herd_obs s op c l stOk (BitVec.ofNat 64 r) h

@[simp] theorem reject_herd_obs (s : State) (op : Nat) (c : Cmd) (a : BitVec 8) (r : BitVec 64) (h : HerdId) :
    (getHerd (reject s op c a r) h).obs = (getHerd s h).obs :=
  complete_herd_obs s op c [] a r h

@[simp] theorem dequeue_herd_obs (s : State) (c : Cmd) (h : HerdId) :
    (getHerd (dequeue s c) h).obs = (getHerd s h).obs := by
  have k := congrArg Herd.obs (herdRest_dequeue s c h)
  exact k

@[simp] theorem complete_herd_test (s : State) (op : Nat) (c : Cmd) (l : List MirrorObj) (a : BitVec 8)
    (r : BitVec 64) (h : HerdId) :
    (getHerd (complete s op c l a r) h).test = (getHerd s h).test := by
  have k := congrArg Herd.test (herdRest_complete s op c l a r h)
  exact k

@[simp] theorem completeOk_herd_test (s : State) (op : Nat) (c : Cmd) (l : List MirrorObj) (r : Nat) (h : HerdId) :
    (getHerd (completeOk s op c l r) h).test = (getHerd s h).test :=
  complete_herd_test s op c l stOk (BitVec.ofNat 64 r) h

@[simp] theorem reject_herd_test (s : State) (op : Nat) (c : Cmd) (a : BitVec 8) (r : BitVec 64) (h : HerdId) :
    (getHerd (reject s op c a r) h).test = (getHerd s h).test :=
  complete_herd_test s op c [] a r h

@[simp] theorem dequeue_herd_test (s : State) (c : Cmd) (h : HerdId) :
    (getHerd (dequeue s c) h).test = (getHerd s h).test := by
  have k := congrArg Herd.test (herdRest_dequeue s c h)
  exact k

@[simp] theorem complete_herd_herdRec (s : State) (op : Nat) (c : Cmd) (l : List MirrorObj) (a : BitVec 8)
    (r : BitVec 64) (h : HerdId) :
    (getHerd (complete s op c l a r) h).herdRec = (getHerd s h).herdRec := by
  have k := congrArg Herd.herdRec (herdRest_complete s op c l a r h)
  exact k

@[simp] theorem completeOk_herd_herdRec (s : State) (op : Nat) (c : Cmd) (l : List MirrorObj) (r : Nat) (h : HerdId) :
    (getHerd (completeOk s op c l r) h).herdRec = (getHerd s h).herdRec :=
  complete_herd_herdRec s op c l stOk (BitVec.ofNat 64 r) h

@[simp] theorem reject_herd_herdRec (s : State) (op : Nat) (c : Cmd) (a : BitVec 8) (r : BitVec 64) (h : HerdId) :
    (getHerd (reject s op c a r) h).herdRec = (getHerd s h).herdRec :=
  complete_herd_herdRec s op c [] a r h

@[simp] theorem dequeue_herd_herdRec (s : State) (c : Cmd) (h : HerdId) :
    (getHerd (dequeue s c) h).herdRec = (getHerd s h).herdRec := by
  have k := congrArg Herd.herdRec (herdRest_dequeue s c h)
  exact k

@[simp] theorem complete_herd_waitRec (s : State) (op : Nat) (c : Cmd) (l : List MirrorObj) (a : BitVec 8)
    (r : BitVec 64) (h : HerdId) :
    (getHerd (complete s op c l a r) h).waitRec = (getHerd s h).waitRec := by
  have k := congrArg Herd.waitRec (herdRest_complete s op c l a r h)
  exact k

@[simp] theorem completeOk_herd_waitRec (s : State) (op : Nat) (c : Cmd) (l : List MirrorObj) (r : Nat) (h : HerdId) :
    (getHerd (completeOk s op c l r) h).waitRec = (getHerd s h).waitRec :=
  complete_herd_waitRec s op c l stOk (BitVec.ofNat 64 r) h

@[simp] theorem reject_herd_waitRec (s : State) (op : Nat) (c : Cmd) (a : BitVec 8) (r : BitVec 64) (h : HerdId) :
    (getHerd (reject s op c a r) h).waitRec = (getHerd s h).waitRec :=
  complete_herd_waitRec s op c [] a r h

@[simp] theorem dequeue_herd_waitRec (s : State) (c : Cmd) (h : HerdId) :
    (getHerd (dequeue s c) h).waitRec = (getHerd s h).waitRec := by
  have k := congrArg Herd.waitRec (herdRest_dequeue s c h)
  exact k

@[simp] theorem complete_herd_diagSeq (s : State) (op : Nat) (c : Cmd) (l : List MirrorObj) (a : BitVec 8)
    (r : BitVec 64) (h : HerdId) :
    (getHerd (complete s op c l a r) h).diagSeq = (getHerd s h).diagSeq := by
  have k := congrArg Herd.diagSeq (herdRest_complete s op c l a r h)
  exact k

@[simp] theorem completeOk_herd_diagSeq (s : State) (op : Nat) (c : Cmd) (l : List MirrorObj) (r : Nat) (h : HerdId) :
    (getHerd (completeOk s op c l r) h).diagSeq = (getHerd s h).diagSeq :=
  complete_herd_diagSeq s op c l stOk (BitVec.ofNat 64 r) h

@[simp] theorem reject_herd_diagSeq (s : State) (op : Nat) (c : Cmd) (a : BitVec 8) (r : BitVec 64) (h : HerdId) :
    (getHerd (reject s op c a r) h).diagSeq = (getHerd s h).diagSeq :=
  complete_herd_diagSeq s op c [] a r h

@[simp] theorem dequeue_herd_diagSeq (s : State) (c : Cmd) (h : HerdId) :
    (getHerd (dequeue s c) h).diagSeq = (getHerd s h).diagSeq := by
  have k := congrArg Herd.diagSeq (herdRest_dequeue s c h)
  exact k

@[simp] theorem complete_herd_timeSkew (s : State) (op : Nat) (c : Cmd) (l : List MirrorObj) (a : BitVec 8)
    (r : BitVec 64) (h : HerdId) :
    (getHerd (complete s op c l a r) h).timeSkew = (getHerd s h).timeSkew := by
  have k := congrArg Herd.timeSkew (herdRest_complete s op c l a r h)
  exact k

@[simp] theorem completeOk_herd_timeSkew (s : State) (op : Nat) (c : Cmd) (l : List MirrorObj) (r : Nat)
    (h : HerdId) :
    (getHerd (completeOk s op c l r) h).timeSkew = (getHerd s h).timeSkew :=
  complete_herd_timeSkew s op c l stOk (BitVec.ofNat 64 r) h

@[simp] theorem reject_herd_timeSkew (s : State) (op : Nat) (c : Cmd) (a : BitVec 8) (r : BitVec 64) (h : HerdId) :
    (getHerd (reject s op c a r) h).timeSkew = (getHerd s h).timeSkew :=
  complete_herd_timeSkew s op c [] a r h

@[simp] theorem dequeue_herd_timeSkew (s : State) (c : Cmd) (h : HerdId) :
    (getHerd (dequeue s c) h).timeSkew = (getHerd s h).timeSkew := by
  have k := congrArg Herd.timeSkew (herdRest_dequeue s c h)
  exact k

@[simp] theorem complete_herd_restart (s : State) (op : Nat) (c : Cmd) (l : List MirrorObj) (a : BitVec 8)
    (r : BitVec 64) (h : HerdId) :
    (getHerd (complete s op c l a r) h).restart = (getHerd s h).restart := by
  have k := congrArg Herd.restart (herdRest_complete s op c l a r h)
  exact k

@[simp] theorem completeOk_herd_restart (s : State) (op : Nat) (c : Cmd) (l : List MirrorObj) (r : Nat) (h : HerdId) :
    (getHerd (completeOk s op c l r) h).restart = (getHerd s h).restart :=
  complete_herd_restart s op c l stOk (BitVec.ofNat 64 r) h

@[simp] theorem reject_herd_restart (s : State) (op : Nat) (c : Cmd) (a : BitVec 8) (r : BitVec 64) (h : HerdId) :
    (getHerd (reject s op c a r) h).restart = (getHerd s h).restart :=
  complete_herd_restart s op c [] a r h

@[simp] theorem dequeue_herd_restart (s : State) (c : Cmd) (h : HerdId) :
    (getHerd (dequeue s c) h).restart = (getHerd s h).restart := by
  have k := congrArg Herd.restart (herdRest_dequeue s c h)
  exact k

@[simp] theorem complete_herd_deaf (s : State) (op : Nat) (c : Cmd) (l : List MirrorObj) (a : BitVec 8)
    (r : BitVec 64) (h : HerdId) :
    (getHerd (complete s op c l a r) h).deaf = (getHerd s h).deaf := by
  have k := congrArg Herd.deaf (herdRest_complete s op c l a r h)
  exact k

@[simp] theorem completeOk_herd_deaf (s : State) (op : Nat) (c : Cmd) (l : List MirrorObj) (r : Nat) (h : HerdId) :
    (getHerd (completeOk s op c l r) h).deaf = (getHerd s h).deaf :=
  complete_herd_deaf s op c l stOk (BitVec.ofNat 64 r) h

@[simp] theorem reject_herd_deaf (s : State) (op : Nat) (c : Cmd) (a : BitVec 8) (r : BitVec 64) (h : HerdId) :
    (getHerd (reject s op c a r) h).deaf = (getHerd s h).deaf :=
  complete_herd_deaf s op c [] a r h

@[simp] theorem dequeue_herd_deaf (s : State) (c : Cmd) (h : HerdId) :
    (getHerd (dequeue s c) h).deaf = (getHerd s h).deaf := by
  have k := congrArg Herd.deaf (herdRest_dequeue s c h)
  exact k

end Sys2Proof.Machine
end

