-- ==== Sys2Proof/Laws/Answer.lean ====
section
/-!
SUPPORT. What completing a command writes: exactly one record, and the ring is free again (R289, R291).
-/

namespace Sys2Proof.Machine

open Sys2Proof.Safety

/-- Outputs only grow, no ring takes up or ends a command, no waiting record is lost, no register changes. -/
structure Quiet (s t : State) : Prop where
  bus : ∀ x ∈ s.io.bus, x ∈ t.io.bus
  run : ∀ r, (getRing t r).running = (getRing s r).running
  log : ∀ r, (getRing t r).backlog = (getRing s r).backlog
  reg : t.regs = s.regs

theorem Quiet.refl (s : State) : Quiet s s := ⟨fun _ h => h, fun _ => rfl, fun _ => rfl, rfl⟩

theorem Quiet.trans {s t u : State} (h : Quiet s t) (k : Quiet t u) : Quiet s u :=
  ⟨fun x m => k.bus x (h.bus x m), fun r => (k.run r).trans (h.run r), fun r => (k.log r).trans (h.log r),
    k.reg.trans h.reg⟩

/-- Equal rings, outputs and registers. -/
theorem Quiet.of_same {s t : State} (h : t.io.rings = s.io.rings) (k : t.io.bus = s.io.bus) (g : t.regs = s.regs) :
    Quiet s t :=
  ⟨fun x m => k ▸ m, fun r => by simp [getRing, h], fun r => by simp [getRing, h], g⟩

theorem quiet_emit (s : State) (b : Bus) : Quiet s (emit s b) :=
  ⟨fun _ h => List.mem_cons_of_mem _ h, fun _ => rfl, fun _ => rfl, rfl⟩

theorem quiet_setVec (s : State) (v : Nat) (x : Vec) : Quiet s (setVec s v x) := .of_same rfl rfl rfl

/-- A ring rewritten with the same running command and backlog. -/
theorem quiet_setRing (s : State) (q : RingId) (x : Ring) (h : x.running = (getRing s q).running)
    (k : x.backlog = (getRing s q).backlog) : Quiet s (setRing s q x) := by
  refine ⟨fun _ m => m, fun r => ?_, fun r => ?_, rfl⟩
  · by_cases e : r = q
    · subst e; simpa using h
    · rw [getRing_setRing_ne _ _ e]
  · by_cases e : r = q
    · subst e; simpa using k
    · rw [getRing_setRing_ne _ _ e]

theorem quiet_msixSend (s : State) (v : Nat) : Quiet s (msixSend s v) := by
  unfold msixSend
  split
  · split
    · exact quiet_setVec _ _ _
    · exact quiet_emit _ _
  · exact .refl _

theorem quiet_vecCheck (s : State) (v : Nat) : Quiet s (vecCheck s v) := by
  unfold vecCheck
  simp only []
  split
  · exact .refl _
  · split
    · exact (quiet_setVec _ _ _).trans (quiet_msixSend _ _)
    · exact quiet_setVec _ _ _

theorem quiet_ringRequest (s : State) (r : RingId) : Quiet s (ringRequest s r) := by
  unfold ringRequest
  simp only []
  split
  · refine Quiet.trans (t := setRing s r { getRing s r with armed := false }) (quiet_setRing s r _ rfl rfl) ?_
    exact Quiet.trans (quiet_setVec _ _ _) (quiet_vecCheck _ _)
  · split
    · exact quiet_vecCheck _ _
    · exact .refl _

theorem quiet_mirrorWrite (s : State) (o : MirrorObj) : Quiet s (mirrorWrite s o) := by
  unfold mirrorWrite
  split
  · exact ⟨fun x h => by simp [mirrorPut, h], fun _ => rfl, fun _ => rfl, rfl⟩
  · exact .refl _

theorem quiet_forEach {α : Type} (l : List α) (f : State → α → State) (s : State) (h : ∀ s x, Quiet s (f s x)) :
    Quiet s (forEach l f s) := by
  unfold forEach
  induction l generalizing s with
  | nil => exact .refl _
  | cons x l ih => exact (h s x).trans (ih _)

theorem quiet_dequeue (s : State) (c : Cmd) : Quiet s (dequeue s c) := by
  unfold dequeue
  split <;> split <;> exact .of_same rfl rfl rfl

theorem quiet_putRecord (s : State) (q : RingId) (r : Completion) :
    Quiet s (putRecord s q r) ∧
      ∃ index phase addr, Bus.completion q index phase addr r ∈ (putRecord s q r).io.bus := by
  unfold putRecord
  simp only []
  generalize hb : Bus.completion q (getRing s q).dev (getRing s q).phase _ r = b
  have a : Quiet (emit s b) (setRing (emit s b) q (advDev (emit s b) q (getRing s q))) := quiet_setRing _ q _ rfl rfl
  have k := a.trans (quiet_ringRequest _ q)
  refine ⟨(quiet_emit _ _).trans k, (getRing s q).dev, (getRing s q).phase, entryAddr s q (getRing s q).dev, ?_⟩
  rw [hb]
  exact k.bus _ (List.mem_cons_self ..)

/-- The reserved record is written or waits; no ring's command changes. -/
theorem putReserved_recorded (s : State) (q : RingId) (r : Completion) :
    (∀ i, (getRing (putReserved s q r) i).running = (getRing s i).running) ∧ Recorded (putReserved s q r) q r := by
  unfold putReserved
  simp only []
  have a : Quiet s (setRing s q { getRing s q with reserved := (getRing s q).reserved - 1 }) :=
    quiet_setRing s q _ rfl rfl
  split
  · obtain ⟨b, c⟩ := quiet_putRecord (setRing s q { getRing s q with reserved := (getRing s q).reserved - 1 }) q r
    exact ⟨fun i => (a.trans b).run i, .inr c⟩
  · constructor
    · intro i
      by_cases e : i = q
      · subst e; simp
      · rw [getRing_setRing_ne _ _ e, getRing_setRing_ne _ _ e]
    · left
      simp

/-- Completing the command that its ring runs answers it, with the status and RESULT given (R289, R291, R292). -/
theorem answered_complete {s : State} {c : Cmd} (h : Runs s c) (op : Nat) (l : List MirrorObj) (a : BitVec 8)
    (r : BitVec 64) : Answered s (complete s op c l a r) c op a r := by
  unfold complete
  simp only []
  have q := quiet_dequeue s c
  have e : (getRing (dequeue s c) c.ring).running = some c := (q.run _).trans h
  rw [if_pos (by simp [e])]
  have m := quiet_forEach l mirrorWrite (dequeue s c) quiet_mirrorWrite
  generalize forEach l mirrorWrite (dequeue s c) = u at m ⊢
  have g : u.regs = s.regs := m.reg.trans q.reg
  have k : ringCq (modRing u c.ring fun x => { x with running := none }) c.ring = ringCq s c.ring := by
    simp [ringCq, regVal, g]
  rw [k]
  obtain ⟨x, y⟩ := putReserved_recorded (modRing u c.ring fun x => { x with running := none }) (ringCq s c.ring)
    (cmdRecord (modRing u c.ring fun x => { x with running := none }) op c a r)
  exact ⟨by rw [x]; simp, _, y, rfl, rfl, rfl, rfl, rfl, rfl, rfl⟩

theorem answered_completeOk {s : State} {c : Cmd} (h : Runs s c) (op : Nat) (l : List MirrorObj) (r : Nat) :
    Answered s (completeOk s op c l r) c op stOk (BitVec.ofNat 64 r) := answered_complete h op l _ _

theorem answered_reject {s : State} {c : Cmd} (h : Runs s c) (op : Nat) (a : BitVec 8) (r : BitVec 64) :
    Answered s (reject s op c a r) c op a r := answered_complete h op [] a r

/-- What a command does before it is completed leaves its record due, if it leaves its ring and the registers alone. -/
theorem Answered.after {s u t : State} {c : Cmd} {op : Nat} {a : BitVec 8} {r : BitVec 64} (g : u.regs = s.regs)
    (h : Answered u t c op a r) : Answered s t c op a r := by
  have k : ringCq u c.ring = ringCq s c.ring := by simp [ringCq, regVal, g]
  rw [Answered, k] at h
  exact h

end Sys2Proof.Machine
end

