-- ==== Sys2Proof/Laws/Carry.lean ====
section
/-!
SUPPORT. What every definition of the machine keeps, the ones that `kept` does not cover included: the queue as it is,
stored registers in range, the OTP store sound and never erased. One lemma per definition that writes a register, resets
the device or programs the OTP store.
-/

namespace Sys2Proof.Machine

open Sys2Proof.Safety

/-- What a definition carries from a state to the next. -/
structure Carry (s t : State) : Prop where
  pending : t.pending = s.pending
  regs    : RegsOk s.regs → RegsOk t.regs
  otp     : OtpOk s → OtpOk t ∧ OtpForward s t

/-- What an outcome carries: the next state, where it answers one. -/
def CarryO (s : State) (o : Host.Outcome State Fault Refusal) : Prop := ∀ t, o = .next t → Carry s t

theorem OtpForward.refl (s : State) : OtpForward s s := by simp [OtpForward]

theorem OtpForward.trans {s t u : State} (h : OtpForward s t) (k : OtpForward t u) : OtpForward s u := by
  obtain ⟨h1, h2, h3, h4, h5, h6, h7, h8, h9, h10, h11⟩ := h
  obtain ⟨k1, k2, k3, k4, k5, k6, k7, k8, k9, k10, k11⟩ := k
  exact ⟨h1.trans k1, fun x e => k2 x (h2 x e), fun e => k3 (h3 e), fun e => k4 (h4 e), fun e => k5 (h5 e),
    h6.trans k6, h7.trans k7, h8.trans k8, h9.trans k9, h10.trans k10, h11.trans k11⟩

theorem Carry.refl (s : State) : Carry s s := ⟨rfl, id, fun h => ⟨h, OtpForward.refl s⟩⟩

theorem Carry.trans {s t u : State} (h : Carry s t) (k : Carry t u) : Carry s u :=
  ⟨k.pending.trans h.pending, fun r => k.regs (h.regs r), fun o =>
    ⟨(k.otp (h.otp o).1).1, OtpForward.trans (h.otp o).2 (k.otp (h.otp o).1).2⟩⟩

/-- Equal projections: the state is carried. -/
theorem Carry.of_kept {s t : State} (h : kept t = kept s) : Carry s t := by
  simp only [kept, secK, floorK, Kept.mk.injEq, SecK.mk.injEq, FloorK.mk.injEq] at h
  obtain ⟨h1, h2, ⟨a, b, c, d, e, f, g⟩, i, j⟩ := h
  refine ⟨h1, fun r => h2 ▸ r, fun o => ?_⟩
  constructor
  · simpa only [OtpOk, a, b, c, d, e, f, g, i, j] using o
  · simp [OtpForward, a, b, c, d, e, i, j]

theorem Carry.keep {s t u : State} (h : Carry s t) (k : kept u = kept t) : Carry s u := h.trans (.of_kept k)

theorem Carry.before {s t u : State} (k : kept t = kept s) (h : Carry t u) : Carry s u := (Carry.of_kept k).trans h

theorem CarryO.next {s t : State} (h : Carry s t) : CarryO s (.next t) := by
  intro u e; cases e; exact h

theorem CarryO.of_kept {s : State} {o : Host.Outcome State Fault Refusal} (h : keptO o = some (kept s)) : CarryO s o := by
  intro t e; subst e; exact .of_kept (by simpa using h)

/-! ### Registers -/

theorem tabSet_mem {α : Type} (t : Tab α) (k : Nat) (v : α) (e : Nat × α) (h : e ∈ tabSet t k v) :
    e = (k, v) ∨ e ∈ t := by
  induction t with
  | nil => simpa [tabSet] using h
  | cons a t ih =>
    obtain ⟨j, w⟩ := a
    simp only [tabSet] at h
    split at h
    · simpa using h
    · split at h
      · simp only [List.mem_cons] at h ⊢; tauto
      · simp only [List.mem_cons] at h ⊢
        rcases h with h | h
        · tauto
        · rcases ih h with h | h <;> tauto

theorem RegsOk.filter {r : Tab (BitVec 32)} (h : RegsOk r) (p : Nat × BitVec 32 → Bool) : RegsOk (r.filter p) :=
  fun e m => h e (List.mem_filter.mp m).1

/-- A field that lies inside a mask reads the same from the masked word. -/
theorem fld_and (v m : BitVec 32) (lo w : Nat) (h : ∀ i < w, m.toNat.testBit (lo + i) = true) :
    fld (v &&& m) lo w = fld v lo w := by
  apply Nat.eq_of_testBit_eq
  intro i
  simp only [fld, Nat.testBit_mod_two_pow, Nat.testBit_shiftRight, BitVec.toNat_and, Nat.testBit_and]
  by_cases hi : i < w
  · simp [hi, h i hi]
  · simp [hi]

theorem and_ones (v : BitVec 32) : v &&& 0xFFFFFFFF = v := by
  rw [show (0xFFFFFFFF : BitVec 32) = BitVec.allOnes 32 from rfl, BitVec.and_allOnes]

/-- The fields of a masked word are in range where those of the word are. -/
theorem regOk_masked (off : Nat) (v : BitVec 32) (h : regOk off v = true) : regOk off (v &&& regMask off) = true := by
  unfold regOk at h ⊢
  split at h <;> rename_i e <;> simp only [regMask, e]
  all_goals first
    | rfl
    | (rw [and_ones]; exact h)
    | skip
  all_goals (repeat rw [fld_and _ _ _ _ (by decide)]) 
  all_goals exact h

theorem carry_regStore (s : State) (off : Nat) (v : BitVec 32) (h : regOk off v = true) : Carry s (regStore s off v) := by
  refine ⟨rfl, fun r e m => ?_, fun o => ⟨o, OtpForward.refl s⟩⟩
  rcases tabSet_mem _ _ _ _ m with rfl | m
  · exact ⟨by simp [BitVec.and_assoc], regOk_masked off v h⟩
  · exact r e m

theorem carry_storeAllowed (s : State) (off : Nat) (v : BitVec 32) (h : regOk off v = true) :
    Carry s (storeAllowed s off v) := by
  unfold storeAllowed; split
  · exact carry_regStore s off v h
  · exact .refl s

theorem regOk_308 (v : BitVec 32) : regOk 0x308 v = true := rfl

theorem carry_writeMirror (s : State) (v : BitVec 32) : Carry s (writeMirror s v) := by
  unfold writeMirror
  simp only []
  split
  · exact (Carry.before (by simp) (carry_regStore _ _ _ (regOk_308 v))).keep (kept_mirrorAll _)
  · exact Carry.before (by simp) (carry_regStore _ _ _ (regOk_308 v))

theorem carry_writeFmc (s : State) (v : BitVec 32) : Carry s (writeFmc s v) := by
  unfold writeFmc
  split
  · exact .of_kept (by simp)
  · rename_i h
    have h : regOk 0x208 v = true := by simpa using h
    simp only []
    split
    · exact (carry_regStore _ _ _ h).trans (.of_kept (by simp))
    · exact carry_regStore _ _ _ h

theorem carry_writeHigh (s : State) (off : Nat) (v : BitVec 32)
    (h : ∀ o w, o + 4 = off → regOk o w = true) (k : regOk off v = true) : Carry s (writeHigh s off v) := by
  unfold writeHigh
  simp only []
  split
  · split
    · rename_i e
      exact Carry.before (by simp) ((carry_storeAllowed _ _ _ (h _ _ e)).trans (carry_storeAllowed _ _ _ k))
    · exact Carry.before (by simp) (carry_storeAllowed _ _ _ k)
  · exact Carry.before (by simp) (carry_storeAllowed _ _ _ k)

/-- The pairs that can be written are the mirror base and the ring bases. -/
theorem pairLow_cases (off : Nat) (h : isPairLow off = true) :
    off = 0x300 ∨ (0x400000 ≤ off ∧ off < 0x500000 ∧ (off - 0x400000) % 64 = 0) := by
  unfold isPairLow at h
  split at h
  · rename_i o e
    left
    unfold regLoc at e
    split at e
    · simp at e h; omega
    · split at e <;> try (split at e <;> try (split at e <;> try (split at e))) <;> simp at e
      all_goals simp at e
  · rename_i r o e
    right
    unfold regLoc at e
    split at e
    · simp at e
    · split at e
      · simp at e h; omega
      · split at e
        · simp at e
        · split at e
          · simp at e
          · split at e <;> simp at e
  · simp at h
theorem regOk_ring (off : Nat) (v : BitVec 32) (h : 0x400000 ≤ off ∧ off < 0x500000)
    (k : (off - 0x400000) % 64 = 0 ∨ (off - 0x400000) % 64 = 4) : regOk off v = true := by
  have e : regLoc off = .ring ⟨(off - 0x400000) / 64, by omega⟩ ((off - 0x400000) % 64) := by
    unfold regLoc
    rw [if_neg (by omega), dif_pos h]
  unfold regOk
  rw [e]
  rcases k with k | k <;> rw [k] <;> rfl
/-- Any value of a base is in range. -/
theorem regOk_low (off : Nat) (v : BitVec 32) (h : isPairLow off = true) : regOk off v = true := by
  rcases pairLow_cases off h with rfl | ⟨a, b, c⟩
  · rfl
  · exact regOk_ring off v ⟨a, b⟩ (.inl c)
theorem regOk_304 (v : BitVec 32) : regOk 0x304 v = true := rfl

theorem regOk_high (off : Nat) (v : BitVec 32) (h : isPairLow off = true) : regOk (off + 4) v = true := by
  rcases pairLow_cases off h with rfl | ⟨a, b, c⟩
  · exact regOk_304 v
  · have e : (off - 0x400000 + 4) % 64 = 4 := by omega
    rw [← Nat.sub_add_comm a] at e
    exact regOk_ring (off + 4) v ⟨by omega, by omega⟩ (.inr e)

theorem carry_writeFields (s : State) (off : Nat) (v : BitVec 32) : Carry s (writeFields s off v) := by
  unfold writeFields
  split
  · exact .refl _
  · split
    · rename_i h
      simp only []
      split
      · exact (carry_storeAllowed _ _ _ h).keep (by simp)
      · exact carry_storeAllowed _ _ _ h
    · exact .of_kept (by simp)

theorem carry_writePlain (s : State) (off : BitVec 26) (v : BitVec 32) : Carry s (writePlain s off v) := by
  unfold writePlain
  split
  · exact .of_kept (kept_writeAccess _ _)
  · split
    · exact carry_writeFmc _ _
    · split
      · exact carry_writeMirror _ _
      · split
        · exact .of_kept (by simp [writePads])
        · split
          · exact .of_kept (kept_writeInject _ _)
          · split
            · exact .of_kept (by simp [writeRingCtrl])
            · exact carry_writeFields _ _ _

theorem carry_writeReg (s : State) (off : BitVec 26) (v : BitVec 32) : Carry s (writeReg s off v) := by
  unfold writeReg
  split
  · exact .of_kept (kept_writeLow s off v)
  · split
    · rename_i h
      by_cases k : 4 ≤ off.toNat
      · refine carry_writeHigh s _ v (fun o w e => ?_) ?_
        · rw [show o = off.toNat - 4 by omega]
          exact regOk_low _ w h
        · have := regOk_high (off.toNat - 4) v h
          rwa [Nat.sub_add_cancel k] at this
      · rw [show off.toNat - 4 = 0 by omega] at h
        exact absurd h (by decide)
    · exact Carry.before (t := { s with heldLow := none }) (by simp) (carry_writePlain _ _ _)

theorem carry_busWrite (s : State) (off : BitVec 26) (v : BitVec 32) : Carry s (busWrite s off v) := by
  unfold busWrite
  split
  · exact .refl _
  · simp only []
    split
    · exact .of_kept (by simp)
    · split
      · exact .of_kept (by simp)
      · exact Carry.before (kept_touch s) (carry_writeReg _ _ _)


/-! ### The OTP store -/

/-- A definition that leaves the queue, the stored registers, the floors and everything of the OTP store but readiness
alone, and makes the identity ready only with its seed intact, carries the state. -/
theorem Carry.of_ready {s t : State} (hp : t.pending = s.pending) (hr : RegsOk s.regs → RegsOk t.regs)
    (hf : floorK t.fw = floorK s.fw)
    (hl : t.sec.lifecycle = s.sec.lifecycle) (ho : t.sec.owner = s.sec.owner)
    (hk : s.sec.keyProg = true → t.sec.keyProg = true) (hs : s.sec.seedProg = true → t.sec.seedProg = true)
    (hg : t.sec.seedGone = s.sec.seedGone) (hw : t.sec.otp = s.sec.otp ∨ t.sec.otp = none)
    (hd : s.sec.seedGone = true → s.sec.ready = false → t.sec.ready = false) : Carry s t := by
  simp only [floorK, FloorK.mk.injEq] at hf
  obtain ⟨f1, f2⟩ := hf
  refine ⟨hp, hr, fun ⟨o1, o2, o3, o4, o5, o6⟩ => ⟨⟨?_, ?_, ?_, ?_, ?_, ?_⟩, ?_⟩⟩
  · rwa [hl]
  · rcases hw with hw | hw <;> rw [hw]
    · rw [hl]; exact o2
    · simp
  · rcases hw with hw | hw <;> rw [hw]
    · rw [ho]; exact o3
    · simp
  · rw [hl, hg]; exact o4
  · intro e; rw [hg] at e; exact hd e (o5 e)
  · rwa [f2]
  · simp only [OtpForward, hl, ho, hg, f1, f2]
    exact ⟨le_refl _, fun _ h => h, hk, hs, id, le_refl _, le_refl _, le_refl _, le_refl _, le_refl _, le_refl _⟩

theorem carry_identityMake (s : State) : Carry s (identityMake s) := by
  unfold identityMake
  refine Carry.keep (t := _) ?_ (kept_postGlobal _ _ _)
  exact .of_ready rfl id rfl rfl rfl (fun _ => rfl) (fun _ => rfl) rfl (.inl rfl) (fun h _ => by simp [h])

theorem carry_bootIdentity (s : State) : Carry s (bootIdentity s) :=
  .of_ready rfl id rfl rfl rfl id id rfl (.inl rfl) (fun h _ => by simp [bootIdentity, h])

/-! ### Resets -/

theorem carry_funcReset (s : State) : Carry s (funcReset s) := by
  refine .of_ready rfl (fun r => RegsOk.filter r _) rfl rfl rfl id id rfl (.inl rfl) (fun _ h => h)

theorem kept_loadSettings' (s : State) (g : Settings) : kept (loadSettings s g) = kept s := by simp [loadSettings]

theorem kept_fwRevert (s : State) : kept (fwRevert s) = kept s := by
  unfold fwRevert
  simp only []
  split
  · cases s.fw.prevPers <;> simp [loadSettings]
  · rfl

theorem carry_sysReset (s : State) (st : DevSt) : Carry s (sysReset s st) := by
  unfold sysReset
  refine Carry.before (t := lineRestart (fwRevert s)) (by simp [kept_fwRevert]) ?_
  generalize lineRestart (fwRevert s) = u
  exact .of_ready rfl (fun r => RegsOk.filter r _) (by simp) rfl rfl id id rfl (.inr rfl) (fun _ _ => rfl)

theorem carry_porReset (s : State) : Carry s (porReset s) := by
  unfold porReset
  refine (carry_sysReset s .inPorst).trans ?_
  generalize sysReset s .inPorst = t
  exact .of_ready rfl (fun _ _ m => nomatch m) rfl rfl rfl id id rfl (.inl rfl) (fun _ h => h)

theorem carry_bootThrough (s : State) : Carry s (bootThrough s) := by
  unfold bootThrough
  refine Carry.before (kept_bootHub s) ((carry_bootIdentity _).trans (.of_kept ?_))
  simp

/-- The stored registers of a carried state may be others that are as sound. -/
theorem Carry.regs_swap {s t u : State} (h : Carry s t) (hp : u.pending = t.pending) (hs : u.sec = t.sec)
    (hf : floorK u.fw = floorK t.fw) (hr : RegsOk s.regs → RegsOk u.regs) : Carry s u := by
  simp only [floorK, FloorK.mk.injEq] at hf
  obtain ⟨f1, f2⟩ := hf
  refine ⟨hp.trans h.pending, hr, fun o => ?_⟩
  obtain ⟨a, b⟩ := h.otp o
  simp only [OtpOk, OtpForward, hs, f1, f2] at a b ⊢
  exact ⟨a, b⟩

theorem carry_deepState {s r : State} (h : Carry s r) (mask : BitVec 4) : Carry s (deepState s r mask) := by
  refine h.regs_swap rfl rfl ?_ (fun r => RegsOk.filter r _)
  unfold deepState deepFw
  simp only []
  split <;> simp

theorem carry_deepRestore (s : State) (mask : BitVec 4) : Carry s (deepRestore s mask) :=
  ((carry_deepState (carry_sysReset s (.restoring 3)) mask).trans (carry_bootThrough _)).keep (by simp [deepRestore])

theorem carry_offState {s r : State} (h : Carry s r) : Carry s (offState s r) :=
  h.regs_swap rfl rfl rfl (fun r => RegsOk.filter r _)

theorem carry_offRestore (s : State) : Carry s (offRestore s) := by
  refine (((carry_offState (carry_porReset s)).keep (u := postPasses (offState s (porReset s))) (by simp)).trans
    (carry_bootThrough _)).keep ?_
  unfold offRestore
  simp

theorem carry_fixedRestart (s : State) : Carry s (fixedRestart s) := by
  unfold fixedRestart; split
  · exact carry_sysReset _ _
  · exact .refl _

theorem carry_ibexEnter (s : State) (n : Nat) : Carry s (ibexEnter s n) := by
  unfold ibexEnter
  refine ((carry_bootIdentity s).keep (u := newChallenge (bootIdentity s)) (by simp)).keep ?_
  simp

theorem carry_bootFail (s : State) : Carry s (bootFail s) := by
  unfold bootFail
  simp only []
  split
  · refine Carry.before (kept_raiseFault s 0xA63 0) ?_
    exact ((carry_sysReset _ (.boot 5 true)).keep (by simp)).trans (carry_ibexEnter _ _)
  · refine Carry.before (kept_raiseFault s 0xA63 0) ?_
    exact (carry_sysReset _ (.boot 3 true)).keep (by simp)

theorem carry_ibexLeave (s : State) : Carry s (ibexLeave s) := by
  unfold ibexLeave
  exact (carry_sysReset s (.boot 3 true)).keep (by simp)

theorem carry_scheduledStart (s : State) : Carry s (scheduledStart s) := by
  unfold scheduledStart
  split
  · exact .refl _
  · split
    · exact carry_ibexLeave _
    · exact .of_kept (by simp)

theorem carry_runDue (s : State) : Carry s (runDue s) := by
  unfold runDue
  simp only []
  split
  · exact (carry_scheduledStart s).keep (by simp)
  · exact .of_kept (by simp)

theorem carry_moveTime (s : State) (t : BitVec 64) : Carry s (moveTime s t) := by
  unfold moveTime
  simp only []
  split
  · exact Carry.before (by simp) (carry_runDue _)
  · exact .of_kept (by simp)

theorem carry_syncApply (s : State) (e : Cmd × BitVec 64) : Carry s (syncApply s e) :=
  Carry.before (by simp) (carry_moveTime _ _)

theorem carry_pllLossEffect (s : State) (k : PllKind) : Carry s (pllLossEffect s k) := by
  cases k
  case pcie => exact carry_funcReset s
  all_goals exact .of_kept (by simp [pllLossEffect])

theorem carry_pllBad (s : State) (k : PllKind) : Carry s (pllBad s k) := by
  unfold pllBad
  simp only []
  split
  · exact Carry.before (by simp) (carry_pllLossEffect _ _)
  · exact .of_kept (by simp)

theorem carry_forEach {α : Type} (l : List α) (f : State → α → State) (s : State) (h : ∀ s x, Carry s (f s x)) :
    Carry s (forEach l f s) := by
  unfold forEach
  induction l generalizing s with
  | nil => exact .refl _
  | cons x l ih => exact (h s x).trans (ih _)

/-! ### Floors and OTP writes -/

theorem carry_floor (s : State) (f : Fw) (hf : s.fw.floors.hub.toNat ≤ f.floors.hub.toNat)
    (hg : s.fw.floors.herd.toNat ≤ f.floors.herd.toNat) (hh : s.fw.floors.ddr.toNat ≤ f.floors.ddr.toNat)
    (ra : s.fw.rises.hub ≤ f.rises.hub) (rb : s.fw.rises.herd ≤ f.rises.herd) (rc : s.fw.rises.ddr ≤ f.rises.ddr)
    (ba : s.fw.rises.hub ≤ 64 → f.rises.hub ≤ 64) (bb : s.fw.rises.herd ≤ 64 → f.rises.herd ≤ 64)
    (bc : s.fw.rises.ddr ≤ 64 → f.rises.ddr ≤ 64) : Carry s { s with fw := f } := by
  refine ⟨rfl, id, fun ⟨o1, o2, o3, o4, o5, o6, o7, o8⟩ => ⟨⟨o1, o2, o3, o4, o5, ba o6, bb o7, bc o8⟩, ?_⟩⟩
  exact ⟨le_refl _, fun _ h => h, id, id, id, hf, hg, hh, ra, rb, rc⟩

theorem carry_raiseFloor (s : State) (k : Fin 3) : Carry s { s with fw := raiseFloor s.fw k } := by
  unfold raiseFloor
  simp only []
  split
  · rename_i h
    simp only [Bool.and_eq_true, decide_eq_true_eq] at h
    obtain ⟨⟨_, h⟩, n⟩ := h
    fin_cases k <;> simp only [triGet] at h n <;> refine carry_floor s _ ?_ ?_ ?_ ?_ ?_ ?_ ?_ ?_ ?_ <;>
      simp [triSet, triGet] <;> omega
  · exact .refl s

theorem carry_raiseFloors (l : List (Fin 3)) (s : State) : Carry s { s with fw := l.foldl raiseFloor s.fw } := by
  induction l generalizing s with
  | nil => exact .refl s
  | cons k l ih => exact (carry_raiseFloor s k).trans (ih { s with fw := raiseFloor s.fw k })

theorem carry_confirm (s : State) : Carry s (confirm s) := by
  unfold confirm
  exact (carry_raiseFloors (List.finRange 3) s).keep (by simp)

/-- A token that passed check 2 of Table 4 and has a type of Table 3 is written into OTP soundly. -/
theorem carry_tokenAct (s : State) (k : Token) (h : tokenRefused s k = false) (lo : 1 ≤ (tokType k).toNat)
    (hi : (tokType k).toNat ≤ 4) : Carry s (tokenAct s k) := by
  unfold tokenAct
  simp only [tokenRefused, Bool.or_eq_false_iff, Bool.and_eq_false_iff, beq_eq_false_iff_ne, bne_eq_false_iff_eq,
    decide_eq_false_iff_not, not_le] at h
  obtain ⟨⟨⟨⟨h1, -⟩, h3⟩, h4⟩, -⟩ := h
  split
  · exact .of_kept (by simp)
  · exact .of_kept (by simp)
  · rename_i e
    have o : s.sec.owner = none := by
      rcases h3 with h3 | h3
      · exact absurd (BitVec.eq_of_toNat_eq (by simpa using e)) h3
      · simpa using h3
    refine ⟨rfl, id, fun ⟨o1, o2, o3, o4, o5, o6⟩ => ⟨⟨o1, ?_, fun _ _ => o, o4, o5, o6⟩, OtpForward.refl s⟩⟩
    simp
  · rename_i e1 e2 e3
    have e1 : (tokType k).toNat ≠ 1 := e1
    have e2 : (tokType k).toNat ≠ 2 := e2
    have e3 : (tokType k).toNat ≠ 3 := e3
    have t : (tokTarget k).toNat = s.sec.lifecycle.toNat + 1 := by
      rcases h4 with h4 | h4
      · exact absurd (BitVec.eq_of_toNat_eq (by show (tokType k).toNat = 4; omega)) h4
      · exact h4
    refine ⟨rfl, id, fun ⟨o1, o2, o3, o4, o5, o6⟩ => ⟨⟨o1, ?_, ?_, o4, o5, o6⟩, OtpForward.refl s⟩⟩
    · intro d e
      have l : s.sec.lifecycle.toNat ≠ 2 := fun c => h1 (BitVec.eq_of_toNat_eq (by simpa using c))
      simp only [Option.some.injEq, OtpWrite.lifecycle.injEq] at e
      subst e
      simp only [BitVec.toNat_setWidth]
      omega
    · simp

theorem carryO_otpWriteComplete (s : State) : CarryO s (execOtpWriteComplete s) := by
  unfold execOtpWriteComplete
  refine .next ?_
  split
  · exact .refl s
  split
  · exact .refl s
  · rename_i hash e
    refine ⟨rfl, id, fun ⟨o1, o2, o3, o4, o5, o6⟩ => ⟨⟨o1, ?_, ?_, o4, o5, o6⟩, ?_⟩⟩
    · simp
    · simp
    · refine ⟨le_refl _, fun h k => ?_, id, id, id, le_refl _, le_refl _, le_refl _, le_refl _, le_refl _, le_refl _⟩
      rw [o3 hash e] at k
      exact absurd k (by simp)
  · rename_i d e
    simp only []
    refine Carry.keep (t := _) ?_ (kept_postGlobal _ _ _)
    refine ⟨rfl, id, fun ⟨o1, o2, o3, o4, o5, o6⟩ => ?_⟩
    obtain ⟨a, b⟩ := o2 d e
    by_cases hd : d = 2
    · rw [if_pos hd]
      subst hd
      exact ⟨⟨Nat.le_refl 2, by simp, by simp, fun _ => rfl, fun _ => rfl, o6⟩, o1, fun _ h => h, id, id, fun _ => rfl,
        le_refl _, le_refl _, le_refl _, le_refl _, le_refl _, le_refl _⟩
    · rw [if_neg hd]
      refine ⟨⟨b, by simp, by simp, fun h => absurd h hd, o5, o6⟩, ?_, fun _ h => h, id, id, id,
        le_refl _, le_refl _, le_refl _, le_refl _, le_refl _, le_refl _⟩
      show s.sec.lifecycle.toNat ≤ d.toNat
      omega

/-! ### Commands that write a register, reset the device or program the OTP store -/

theorem tokenBad_type (k : Token) (n : Nat) (h : tokenBad k n = none) :
    1 ≤ (tokType k).toNat ∧ (tokType k).toNat ≤ 4 := by
  simp only [tokenBad, List.min?_eq_none_iff, tokenFaults, List.append_eq_nil_iff] at h
  obtain ⟨⟨⟨-, h⟩, -⟩, -⟩ := h
  split at h
  · cases h
  · omega

theorem carryO_secDebugUnlock (c : Cmd) (tok : Token) (s : State) : CarryO s (execSecDebugUnlock c tok s) := by
  unfold execSecDebugUnlock
  simp only []
  refine .next ?_
  split
  · exact .of_kept (by simp)
  · split
    · exact .of_kept (by simp)
    · rename_i b
      split
      · exact .of_kept (by simp)
      · rename_i r
        split
        · exact .of_kept (by simp)
        · obtain ⟨lo, hi⟩ := tokenBad_type _ _ b
          refine (Carry.before (by simp) (carry_tokenAct (takeOut s (dataRingOf s c .hub 4)).st tok ?_ lo hi)).keep (by simp)
          simpa using r

theorem carryO_porstAssert (s : State) : CarryO s (execPorstAssert s) := .next (carry_porReset s)

theorem carryO_sysrstAssert (s : State) : CarryO s (execSysrstAssert s) := by
  unfold execSysrstAssert
  refine .next ?_
  split
  · exact .refl _
  · exact carry_sysReset _ _

theorem carryO_enterIbex (tag : BitVec 32) (s : State) : CarryO s (execEnterIbex tag s) := by
  unfold execEnterIbex
  refine .next ?_
  split
  · exact (carry_sysReset s (.boot 3 true)).keep (by simp)
  · exact .refl _

theorem carryO_functionLevelReset (s : State) : CarryO s (execFunctionLevelReset s) := by
  unfold execFunctionLevelReset
  refine .next ?_
  split
  · exact Carry.before (kept_touch s) (carry_funcReset _)
  · exact .refl _

theorem carryO_pcieHotReset (s : State) : CarryO s (execPcieHotReset s) := by
  unfold execPcieHotReset
  refine .next ?_
  split
  · exact carry_funcReset _
  · exact .refl _

theorem carryO_refclkMissing (s : State) : CarryO s (execRefclkMissing s) := by
  unfold execRefclkMissing
  refine .next ?_
  split
  · exact .refl _
  · simp only []
    refine Carry.before (t := forEach (.hubCore :: dspDomains) stopDomain s) (by simp) ?_
    generalize forEach (.hubCore :: dspDomains) stopDomain s = u
    exact (Carry.before (t := { u with clk := { u.clk with refclkOk := false } }) (by simp) (carry_funcReset _)).keep
      (by simp)

theorem carryO_refclkReturn (s : State) : CarryO s (execRefclkReturn s) := by
  unfold execRefclkReturn
  refine .next ?_
  split
  · exact .refl _
  · simp only []
    split
    · exact Carry.before (by simp) (carry_sysReset _ _)
    · exact .of_kept (by simp)

theorem carryO_wakeRestoreDone (m : BitVec 4) (l : List (PortId × CtxKey × CtxRead)) (s : State) :
    CarryO s (execWakeRestoreDone m l s) := by
  unfold execWakeRestoreDone
  refine .next ?_
  split
  · exact .refl _
  split
  · exact Carry.before (by simp) (carry_runDue _)
  · exact (carry_deepRestore s m).trans (carry_runDue _)
  · exact carry_offRestore s
  · exact .refl _

theorem carryO_bootFailTimeout (s : State) : CarryO s (execBootFailTimeout s) := by
  unfold execBootFailTimeout
  refine .next ?_
  split
  · exact .refl _
  split
  · split
    · exact carry_bootFail s
    · exact .refl _
  · split
    · exact (carry_deepState (carry_sysReset s _) 0).trans (carry_bootFail _)
    · split
      · exact (carry_offState (carry_porReset s)).trans (carry_bootFail _)
      · exact .refl _
  · exact .refl _

theorem carry_bootImage (s : State) (b : Bool) (o : BootOutcome) : Carry s (bootImage s b o) := by
  unfold bootImage
  split
  · exact carry_ibexEnter _ _
  · split
    · exact carry_ibexEnter _ _
    · split
      · exact carry_bootFail _
      · exact .of_kept (by simp)

theorem carry_identityNext (s : State) (b : Bool) : Carry s (identityNext s b) := by
  unfold identityNext
  split
  · exact (carry_identityMake s).keep (by simp)
  · exact (carry_bootIdentity s).keep (by simp)

theorem carry_bootOtp (s : State) (b : Bool) (o : BootOutcome) : Carry s (bootOtp s b o) := by
  unfold bootOtp
  split
  · exact Carry.before (kept_raiseFault s 0xA37 0) (carry_bootFail _)
  · exact .of_kept (by simp)
  · exact .of_kept (by simp)

theorem carry_bootIdent (s : State) (b : Bool) (o : BootOutcome) : Carry s (bootIdent s b o) := by
  unfold bootIdent
  split
  · refine Carry.trans (t := { s with sec := { s.sec with ready := false } }) ?_ (.of_kept (by simp))
    exact .of_ready rfl id rfl rfl rfl id id rfl (.inl rfl) (fun _ _ => rfl)
  · split
    · exact .of_kept (by simp)
    · exact carry_identityNext s b
  · exact carry_identityNext s b

theorem carryO_bootStepDone (o : BootOutcome) (s : State) : CarryO s (execBootStepDone o s) := by
  unfold execBootStepDone
  refine .next ?_
  split
  · split
    · exact .refl _
    · split
      · exact .of_kept (by simp)
      · exact carry_bootOtp _ _ _
      · split <;> exact .of_kept (by simp)
      · exact carry_bootImage _ _ _
      · exact carry_bootIdent _ _ _
      · exact .of_kept (by simp)
      · exact .of_kept (by simp)
      · split <;> exact .of_kept (by simp)
      · exact .of_kept (by simp)
      · exact .of_kept (by simp)
      · exact .of_kept (by simp)
  · split
    · exact (carry_offState (carry_porReset s)).keep (by simp)
    · exact .refl _
  · exact .refl _

theorem carryO_entropyRetry (h : Bool) (s : State) : CarryO s (execEntropyRetry h s) := by
  unfold execEntropyRetry
  refine .next ?_
  split
  · exact .refl _
  split
  · split
    · split
      · exact (Carry.before (kept_clearCause s 0xA73) (carry_identityMake _)).keep (by simp)
      · exact .of_kept (by simp)
    · exact .refl _
  · exact .refl _

theorem carryO_fltAck (c : Cmd) (r : BitVec 32) (a : BitVec 8) (s : State) : CarryO s (execFltAck c r a s) := by
  unfold execFltAck
  refine .next ?_
  split
  · exact .of_kept (by simp)
  · simp only []
    split
    · exact Carry.before (by simp) (carry_fixedRestart _)
    · split
      · exact .of_kept (by simp)
      · split
        · exact .of_kept (by simp)
        · exact Carry.before (by simp) (carry_fixedRestart _)

theorem carryO_fixedCauseEnded (s : State) : CarryO s (execFixedCauseEnded s) := by
  unfold execFixedCauseEnded
  refine .next ?_
  split
  · exact Carry.before (by simp) (carry_fixedRestart _)
  · exact .refl _

theorem carryO_pllNoEdge (u : PllId) (s : State) : CarryO s (execPllNoEdge u s) := by
  unfold execPllNoEdge
  refine .next ?_
  split
  · split
    · exact carry_pllBad _ _
    · exact .refl _
  · exact .refl _

theorem carryO_pllLockWindow (u : PllId) (w : Bool) (s : State) : CarryO s (execPllLockWindow u w s) := by
  unfold execPllLockWindow
  refine .next ?_
  split
  · split
    · split
      · exact .of_kept (by simp)
      · exact carry_pllBad _ _
    · exact .refl _
  · exact .refl _

theorem carryO_fwActivateConfirm (c : Cmd) (s : State) : CarryO s (execFwActivateConfirm c s) := by
  unfold execFwActivateConfirm
  refine .next ?_
  split
  · exact (carry_confirm s).keep (by simp)
  · exact .of_kept (by simp)

theorem carryO_chainConfirm (k : ChainCheck) (s : State) : CarryO s (execChainConfirm k s) := by
  unfold execChainConfirm
  refine .next ?_
  split
  · exact .refl _
  · simp only []
    split
    · exact (Carry.before (by simp) (carry_confirm _)).keep (kept_chainAct _ _)
    · exact .of_kept (by simp)

theorem carryO_ibexI3cFrame (f : IbexFrame) (s : State) : CarryO s (execIbexI3cFrame f s) := by
  unfold execIbexI3cFrame
  refine .next ?_
  split
  · exact .refl _
  split
  · split
    · exact .of_kept (by simp)
    · exact .of_kept (by simp)
    · exact .of_kept (by simp)
    · exact .of_kept (by simp)
    · split
      · exact (carry_confirm s).keep (by simp)
      · exact .of_kept (by simp)
    · exact .refl _
  · exact .refl _

theorem carryO_fwFallback (c : Cmd) (t : BitVec 64) (s : State) : CarryO s (execFwFallback c t s) := by
  unfold execFwFallback
  refine .next ?_
  split
  · exact .of_kept (by simp)
  · simp only []
    split
    · exact Carry.before (by simp) (carry_scheduledStart _)
    · exact .of_kept (by simp)

theorem carryO_fwActivationStart (s : State) : CarryO s (execFwActivationStart s) := by
  unfold execFwActivationStart
  refine .next ?_
  split
  · exact .refl _
  split
  · exact .refl _
  · exact carry_scheduledStart _

theorem carryO_syncInEdge (r : Bool) (s : State) : CarryO s (execSyncInEdge r s) := by
  unfold execSyncInEdge
  refine .next ?_
  split
  · exact .refl _
  · simp only []
    refine Carry.trans ?_ (carry_forEach _ _ _ carry_syncApply)
    split
    · exact (Carry.before (t := { s with time := { s.time with
        syncCount := s.time.syncCount + 1, syncLast := now s, syncMono := some s.mono } }) (by simp)
        (carry_scheduledStart _)).keep (by simp)
    · exact .of_kept (by simp)

theorem carryO_timeSet (c : Cmd) (v : BitVec 64) (a : BitVec 8) (s : State) : CarryO s (execTimeSet c v a s) := by
  unfold execTimeSet
  refine .next ?_
  split
  · exact .of_kept (by simp)
  · split
    · exact .of_kept (by simp)
    · exact Carry.before (by simp) (carry_moveTime _ _)

theorem carryO_timeAdjustJump (c : Cmd) (t : BitVec 32) (s : State) : CarryO s (execTimeAdjustJump c t s) := by
  unfold execTimeAdjustJump
  exact .next (Carry.before (by simp) (carry_moveTime _ _))

theorem carryO_mirrorWriteError (a : BitVec 64) (s : State) : CarryO s (execMirrorWriteError a s) := by
  unfold execMirrorWriteError
  refine .next ?_
  split
  · exact .refl _
  split
  · simp only []
    refine Carry.keep (t := regStore { (freeNat s).2 with io := { (freeNat s).2.io with dmaErr := true } } 0x308 0)
      (Carry.before (t := { (freeNat s).2 with io := { (freeNat s).2.io with dmaErr := true } }) ?_
        (carry_regStore _ 0x308 0 (regOk_308 0))) (by simp)
    exact kept_freeNat s
  · exact .refl _

theorem carryO_registerWrite (o : BitVec 26) (v : BitVec 32) (s : State) : CarryO s (execRegisterWrite o v s) :=
  .next (carry_busWrite _ _ _)

theorem carryO_reg64LowWrite (o : BitVec 26) (v : BitVec 32) (s : State) : CarryO s (execReg64LowWrite o v s) :=
  .next (carry_busWrite _ _ _)

theorem carryO_reg64HighWrite (o : BitVec 26) (v : BitVec 32) (s : State) : CarryO s (execReg64HighWrite o v s) :=
  .next (carry_busWrite _ _ _)

theorem carryO_mirrorEnable (v : BitVec 32) (s : State) : CarryO s (execMirrorEnable v s) :=
  .next (carry_busWrite _ _ _)

theorem carryO_fmcStart (v : BitVec 32) (s : State) : CarryO s (execFmcStart v s) := .next (carry_busWrite _ _ _)

theorem carryO_fltInjectEvent (n : BitVec 16) (s : State) : CarryO s (execFltInjectEvent n s) :=
  .next (carry_busWrite _ _ _)

theorem carryO_fltInjectPair (n : BitVec 16) (s : State) : CarryO s (execFltInjectPair n s) :=
  .next (carry_busWrite _ _ _)

/-! ### Every command -/

/-- Every command's meaning carries: the whole-machine invariants follow from this and `kept_tick`. -/
theorem carry_exec (i : Instr) (s : State) : CarryO s (exec i s) := by
  cases i with
  | portConfig => exact .of_kept (by simp [exec])
  | portCommit => exact .of_kept (by simp [exec])
  | portEnable => exact .of_kept (by simp [exec])
  | portDisable => exact .of_kept (by simp [exec])
  | portRestart => exact .of_kept (by simp [exec])
  | portTrain => exact .of_kept (by simp [exec])
  | portLoopbackOff => exact .of_kept (by simp [exec])
  | portLoopbackDigital => exact .of_kept (by simp [exec])
  | portLoopbackRemote => exact .of_kept (by simp [exec])
  | herdMode => exact .of_kept (by simp [exec])
  | herdTiming => exact .of_kept (by simp [exec])
  | ctxSave => exact .of_kept (by simp [exec])
  | ctxLoad => exact .of_kept (by simp [exec])
  | ctxPin => exact .of_kept (by simp [exec])
  | ctxUnpin => exact .of_kept (by simp [exec])
  | ctxEvict => exact .of_kept (by simp [exec])
  | ctxList => exact .of_kept (by simp [exec])
  | diagPassive => exact .of_kept (by simp [exec])
  | diagChamois => exact .of_kept (by simp [exec])
  | obsSelect => exact .of_kept (by simp [exec])
  | obsLoadBank => exact .of_kept (by simp [exec])
  | obsSwap => exact .of_kept (by simp [exec])
  | obsStart => exact .of_kept (by simp [exec])
  | obsStop => exact .of_kept (by simp [exec])
  | calRun => exact .of_kept (by simp [exec])
  | bistRun => exact .of_kept (by simp [exec])
  | statRead => exact .of_kept (by simp [exec])
  | statSnapshot => exact .of_kept (by simp [exec])
  | lpiConfig => exact .of_kept (by simp [exec])
  | lanePrbs => exact .of_kept (by simp [exec])
  | laneTrain => exact .of_kept (by simp [exec])
  | laneLoopbackOff => exact .of_kept (by simp [exec])
  | laneLoopbackNear => exact .of_kept (by simp [exec])
  | laneLoopbackFar => exact .of_kept (by simp [exec])
  | pwrStateSleep => exact .of_kept (by simp [exec])
  | pwrStateDeepSleep => exact .of_kept (by simp [exec])
  | pwrStateOff => exact .of_kept (by simp [exec])
  | pwrLevel => exact .of_kept (by simp [exec])
  | fltArm => exact .of_kept (by simp [exec])
  | fltAck => apply carryO_fltAck
  | fltReadLog => exact .of_kept (by simp [exec])
  | fwStage => exact .of_kept (by simp [exec])
  | fwActivateSchedule => exact .of_kept (by simp [exec])
  | fwActivateConfirm => apply carryO_fwActivateConfirm
  | fwActivateCancel => exact .of_kept (by simp [exec])
  | fwFallback => apply carryO_fwFallback
  | fwStatus => exact .of_kept (by simp [exec])
  | secAttest => exact .of_kept (by simp [exec])
  | secDebugUnlock => apply carryO_secDebugUnlock
  | timeSet => apply carryO_timeSet
  | timeAdjustJump => apply carryO_timeAdjustJump
  | timeAdjustSlew => exact .of_kept (by simp [exec])
  | doorbellWrite => exact .of_kept (by simp [exec])
  | ringDispatch => exact .of_kept (by simp [exec])
  | ringEnable => exact .of_kept (by simp [exec])
  | ringDisable => exact .of_kept (by simp [exec])
  | ringDrainDone => exact .of_kept (by simp [exec])
  | ringDmaFault => exact .of_kept (by simp [exec])
  | dataBufferDmaFault => exact .of_kept (by simp [exec])
  | vectorHoldoffExpiry => exact .of_kept (by simp [exec])
  | functionLevelReset => apply carryO_functionLevelReset
  | pcieHotReset => apply carryO_pcieHotReset
  | registerWrite => apply carryO_registerWrite
  | reg64LowRead => exact .of_kept (by simp [exec])
  | reg64LowWrite => apply carryO_reg64LowWrite
  | reg64HighWrite => apply carryO_reg64HighWrite
  | bar0BadAccess => exact .of_kept (by simp [exec])
  | blockAccessRefused => exact .of_kept (by simp [exec])
  | gateAccessTimeout => exact .of_kept (by simp [exec])
  | mirrorEnable => apply carryO_mirrorEnable
  | mirrorMeasuredUpdate => exact .of_kept (by simp [exec])
  | mirrorWriteError => apply carryO_mirrorWriteError
  | fmcStart => apply carryO_fmcStart
  | fmcWindowEnd => exact .of_kept (by simp [exec])
  | padRelease => exact .of_kept (by simp [exec])
  | fltInjectEvent => apply carryO_fltInjectEvent
  | fltInjectPair => apply carryO_fltInjectPair
  | eventDelivery => exact .of_kept (by simp [exec])
  | eventCoalesceExpiry => exact .of_kept (by simp [exec])
  | d2dTrainingLost => exact .of_kept (by simp [exec])
  | d2dRetrainAttempt => exact .of_kept (by simp [exec])
  | herdTimeCorrection => exact .of_kept (by simp [exec])
  | negBreakLinkExpiry => exact .of_kept (by simp [exec])
  | negAttemptExpiry => exact .of_kept (by simp [exec])
  | basePageReceived => exact .of_kept (by simp [exec])
  | nextPageReceived => exact .of_kept (by simp [exec])
  | dmeReceived => exact .of_kept (by simp [exec])
  | springbokStartInstant => exact .of_kept (by simp [exec])
  | springbokCheckPass => exact .of_kept (by simp [exec])
  | springbokCheckExpiry => exact .of_kept (by simp [exec])
  | infofieldReceived => exact .of_kept (by simp [exec])
  | infofieldRetryExpiry => exact .of_kept (by simp [exec])
  | t0CalibrationDone => exact .of_kept (by simp [exec])
  | t0Burst => exact .of_kept (by simp [exec])
  | t0SlaveReply => exact .of_kept (by simp [exec])
  | t0DetectTimeout => exact .of_kept (by simp [exec])
  | trainWordAccepted => exact .of_kept (by simp [exec])
  | t1WindowStart => exact .of_kept (by simp [exec])
  | t2CriteriaMet => exact .of_kept (by simp [exec])
  | t2ConvergenceTimeout => exact .of_kept (by simp [exec])
  | t3CapsTimeout => exact .of_kept (by simp [exec])
  | superframeLockChange => exact .of_kept (by simp [exec])
  | markerLockChange => exact .of_kept (by simp [exec])
  | timingLockChange => exact .of_kept (by simp [exec])
  | signalDetectChange => exact .of_kept (by simp [exec])
  | signalLossExpiry => exact .of_kept (by simp [exec])
  | timingLossExpiry => exact .of_kept (by simp [exec])
  | frameLossExpiry => exact .of_kept (by simp [exec])
  | lineSlotReceived => exact .of_kept (by simp [exec])
  | lineSlotTransmit => exact .of_kept (by simp [exec])
  | hostCodewordReceived => exact .of_kept (by simp [exec])
  | hostinCwLockChange => exact .of_kept (by simp [exec])
  | bundleSurveyDone => exact .of_kept (by simp [exec])
  | bundleResurveyExpiry => exact .of_kept (by simp [exec])
  | adaptAcqTimeout => exact .of_kept (by simp [exec])
  | adaptFineEntry => exact .of_kept (by simp [exec])
  | wanderSnapshot => exact .of_kept (by simp [exec])
  | wanderCheck => exact .of_kept (by simp [exec])
  | handoverTrigger => exact .of_kept (by simp [exec])
  | handoverDone => exact .of_kept (by simp [exec])
  | holdoverTimeout => exact .of_kept (by simp [exec])
  | blindTimeout => exact .of_kept (by simp [exec])
  | laneLockAcquired => exact .of_kept (by simp [exec])
  | laneLockHoldExpiry => exact .of_kept (by simp [exec])
  | laneLockLost => exact .of_kept (by simp [exec])
  | detectProbe => exact .of_kept (by simp [exec])
  | trainingFrameReceived => exact .of_kept (by simp [exec])
  | trainLockMet => exact .of_kept (by simp [exec])
  | laneReadyDone => exact .of_kept (by simp [exec])
  | fallbackLimitExpiry => exact .of_kept (by simp [exec])
  | autoIdleTimerExpiry => exact .of_kept (by simp [exec])
  | lpiRefreshInstant => exact .of_kept (by simp [exec])
  | lpiRefreshEnd => exact .of_kept (by simp [exec])
  | lpiRefreshExtendExpiry => exact .of_kept (by simp [exec])
  | lpiPartnerSignalExpiry => exact .of_kept (by simp [exec])
  | lpiFirstCodewordInstant => exact .of_kept (by simp [exec])
  | marginCompare => exact .of_kept (by simp [exec])
  | histogramPeriodEnd => exact .of_kept (by simp [exec])
  | counterPersist => exact .of_kept (by simp [exec])
  | eyeMeasure => exact .of_kept (by simp [exec])
  | diagPassiveDone => exact .of_kept (by simp [exec])
  | chamoisStepEnd => exact .of_kept (by simp [exec])
  | chamoisSweepGrant => exact .of_kept (by simp [exec])
  | chamoisResultDelivery => exact .of_kept (by simp [exec])
  | obsScheduledStart => exact .of_kept (by simp [exec])
  | obsSettlingDone => exact .of_kept (by simp [exec])
  | obsFadeDone => exact .of_kept (by simp [exec])
  | obsBufferComplete => exact .of_kept (by simp [exec])
  | obsCountDone => exact .of_kept (by simp [exec])
  | ctxSaveCheck => exact .of_kept (by simp [exec])
  | ctxPeriodicSave => exact .of_kept (by simp [exec])
  | ctxSaveVisible => exact .of_kept (by simp [exec])
  | ddrTrainingDone => exact .of_kept (by simp [exec])
  | ddrChannelFailure => exact .of_kept (by simp [exec])
  | ddrEccCorrected => exact .of_kept (by simp [exec])
  | faultRaised => exact .of_kept (by simp [exec])
  | dualRailFault => exact .of_kept (by simp [exec])
  | reactionComplete => exact .of_kept (by simp [exec])
  | shadowWindowExpiry => exact .of_kept (by simp [exec])
  | fixedReaction => exact .of_kept (by simp [exec])
  | fixedCauseEnded => apply carryO_fixedCauseEnded
  | supplyWindowExit => exact .of_kept (by simp [exec])
  | supplyWindowReentry => exact .of_kept (by simp [exec])
  | portTemperatureRead => exact .of_kept (by simp [exec])
  | dieTemperatureRead => exact .of_kept (by simp [exec])
  | pllLockWindow => apply carryO_pllLockWindow
  | pllNoEdge => apply carryO_pllNoEdge
  | pllReacquire => exact .of_kept (by simp [exec])
  | domainSwitch => exact .of_kept (by simp [exec])
  | switchEdgeTimeout => exact .of_kept (by simp [exec])
  | refclkMissing => apply carryO_refclkMissing
  | refclkReturn => apply carryO_refclkReturn
  | sequencerStepEnd => exact .of_kept (by simp [exec])
  | idleTimerExpiry => exact .of_kept (by simp [exec])
  | hostActivity => exact .of_kept (by simp [exec])
  | sleepTimerExpiry => exact .of_kept (by simp [exec])
  | deepTimerExpiry => exact .of_kept (by simp [exec])
  | powerEntryDone => exact .of_kept (by simp [exec])
  | wakeNAssert => exact .of_kept (by simp [exec])
  | sidebandAddressMatch => exact .of_kept (by simp [exec])
  | wakeRestoreDone => apply carryO_wakeRestoreDone
  | calMarkerCountExpiry => exact .of_kept (by simp [exec])
  | dieFullRunEnd => exact .of_kept (by simp [exec])
  | calUnitDone => exact .of_kept (by simp [exec])
  | bistStepDone => exact .of_kept (by simp [exec])
  | bistRecordDelivery => exact .of_kept (by simp [exec])
  | fwProgramDone => exact .of_kept (by simp [exec])
  | fwStageBufferTimeout => exact .of_kept (by simp [exec])
  | chainReceiverLock => exact .of_kept (by simp [exec])
  | chainHeader => exact .of_kept (by simp [exec])
  | chainHeaderChecked => exact .of_kept (by simp [exec])
  | chainBody => exact .of_kept (by simp [exec])
  | chainEnd => exact .of_kept (by simp [exec])
  | chainActivate => exact .of_kept (by simp [exec])
  | chainConfirm => apply carryO_chainConfirm
  | enterIbex => apply carryO_enterIbex
  | chainSessionTimeout => exact .of_kept (by simp [exec])
  | ibexI3cFrame => apply carryO_ibexI3cFrame
  | sidebandStatusRead => exact .of_kept (by simp [exec])
  | syncInEdge => apply carryO_syncInEdge
  | fwActivationStart => apply carryO_fwActivationStart
  | fwHubPhaseDone => exact .of_kept (by simp [exec])
  | fwHerdSlot => exact .of_kept (by simp [exec])
  | fwHerdRestartDone => exact .of_kept (by simp [exec])
  | fwConfirmExpiry => exact .of_kept (by simp [exec])
  | timeSlewDone => exact .of_kept (by simp [exec])
  | timeSetSyncTimeout => exact .of_kept (by simp [exec])
  | statSnapshotCapture => exact .of_kept (by simp [exec])
  | ledFrame => exact .of_kept (by simp [exec])
  | entropyRetry => apply carryO_entropyRetry
  | porstAssert => apply carryO_porstAssert
  | porstRelease => exact .of_kept (by simp [exec])
  | sysrstAssert => apply carryO_sysrstAssert
  | bootStepDone => apply carryO_bootStepDone
  | bootFailTimeout => apply carryO_bootFailTimeout
  | sysrstRelease => exact .of_kept (by simp [exec])
  | avsStatusAlert => exact .of_kept (by simp [exec])
  | otpWriteComplete => apply carryO_otpWriteComplete
  | hubPhaseManagementDown => exact .of_kept (by simp [exec])
  | activationRestartTimeout => exact .of_kept (by simp [exec])
  | faultCauseEnded => exact .of_kept (by simp [exec])
  | busMasterEnableChange => exact .of_kept (by simp [exec])
  | msixMaskChange => exact .of_kept (by simp [exec])
  | checkerLock => exact .of_kept (by simp [exec])
  | periodicInjection => exact .of_kept (by simp [exec])
  | jtagInstruction => exact .of_kept (by simp [exec])

end Sys2Proof.Machine
end

