-- ==== Sys2Proof/Machine/Package.lean ====
section
/-!
DEFINITION. The ball map of the package (22, R526 to R529): which ball carries which pin of the device.
-/

namespace Sys2Proof.Machine

/-- What a ball carries (R527): a line pair's leg, a host lane's leg, a pin of a DDR5 channel, another signal by its
name, a supply, ground, or nothing. -/
inductive Ball where
  | line (p : PortId) (pair : Fin 4) (neg : Bool)
  | host (p : PortId) (tx neg : Bool)
  | ddr (c : ChanId) (pin : String)
  | signal (pin : String)
  | supply (rail : String)
  | vss
  | nc
  deriving DecidableEq, Repr

/-! ### Names (R526) -/

/-- The alphabet of the row letters. -/
def rowAlphabet : List Char := "ABCDEFGHJKLMNPTUVWY".toList

/-- Letter n of the alphabet, counted from 1. -/
def rowLetter (n : Nat) : Char := rowAlphabet.getD (n - 1) '?'

/-- The letters of row index i, 1 to 112. -/
def rowName (i : Nat) : String :=
  if i ≤ 19 then String.ofList [rowLetter i] else String.ofList [rowLetter ((i - 20) / 19 + 1),
      rowLetter ((i - 20) % 19 + 1)]

/-- A ball's name. -/
def ballName (row col : Nat) : String := rowName row ++ toString col

/-! ### The port tile (R528) -/

/-- The row index and the column of the ball at tile row q and tile column c (1 to 7) of a port's tile. -/
def tileBall (p : PortId) (q c : Nat) : Nat × Nat :=
  let d := p.val / 64
  let j := p.val / 8 % 8
  let k := p.val % 8
  let col := 28 * (d % 4) + 14 * (j % 2) + 7 * (k % 2)
  let t := 12 * (j / 2) + 3 * (k / 2)
  (if d ≤ 3 then t + q + 1 else 112 - t - q, col + c)

/-- What a place of a port's tile carries (Table 2). -/
def tilePin (p : PortId) : Nat → Nat → Ball
  | 0, 1 => .line p 0 false
  | 0, 2 => .line p 0 true
  | 0, 4 => .line p 1 false
  | 0, 5 => .line p 1 true
  | 0, 7 => .supply "VDD_HV"
  | 1, 1 => .line p 2 false
  | 1, 2 => .line p 2 true
  | 1, 4 => .line p 3 false
  | 1, 5 => .line p 3 true
  | 1, 6 => .supply "VDD_ANA"
  | 1, 7 => .supply ("VDD_DSP" ++ toString (p.val / 64))
  | 2, 1 => .host p true false
  | 2, 2 => .host p true true
  | 2, 4 => .host p false false
  | 2, 5 => .host p false true
  | 2, 6 => .supply "VDD_HL"
  | _, _ => .vss

/-- A ball of a line region: the tile it lies in is the one that `tileBall` maps there. -/
def lineBall (row col : Nat) : Ball :=
  let r := if row ≤ 48 then row - 1 else 112 - row
  let c := (col - 1) % 28
  let d := (col - 1) / 28 + (if row ≤ 48 then 0 else 4)
  let j := 2 * (r / 12) + c / 14
  let k := 2 * (r % 12 / 3) + c % 14 / 7
  tilePin (Fin.ofNat 512 (64 * d + 8 * j + k)) (r % 3) (c % 7 + 1)

/-! ### The hub band (R529) -/

/-- What a place of DDR5 byte tile n carries (Table 3). -/
def bytePin (c : ChanId) (n : Nat) : Nat → Nat → Ball
  | 0, 1 => .ddr c ("DQ" ++ toString (8 * n))
  | 0, 2 => .ddr c ("DQ" ++ toString (8 * n + 1))
  | 0, 4 => .ddr c ("DQS" ++ toString (2 * n) ++ "_T")
  | 0, 5 => .ddr c ("DQS" ++ toString (2 * n) ++ "_C")
  | 0, 7 => .ddr c ("DQ" ++ toString (8 * n + 2))
  | 0, 8 => .ddr c ("DQ" ++ toString (8 * n + 3))
  | 1, i => if i % 2 = 0 then .supply "VDDQ_DDR" else .vss
  | 2, 1 => .ddr c ("DQ" ++ toString (8 * n + 4))
  | 2, 2 => .ddr c ("DQ" ++ toString (8 * n + 5))
  | 2, 4 => .ddr c ("DQS" ++ toString (2 * n + 1) ++ "_T")
  | 2, 5 => .ddr c ("DQS" ++ toString (2 * n + 1) ++ "_C")
  | 2, 7 => .ddr c ("DQ" ++ toString (8 * n + 6))
  | 2, 8 => .ddr c ("DQ" ++ toString (8 * n + 7))
  | _, _ => .vss

/-- A command and address row of a subchannel, A or B (Table 4). -/
def commandPin (c : ChanId) (sub : String) (i : Nat) : Ball :=
  if i ≤ 14 then .ddr c ("CA" ++ toString (i - 1) ++ "_" ++ sub)
  else match i with
    | 15 => .ddr c ("CS0_N_" ++ sub)
    | 16 => .ddr c ("CS1_N_" ++ sub)
    | 18 => .ddr c ("CK_T_" ++ sub)
    | 19 => .ddr c ("CK_C_" ++ sub)
    | _ => .vss

/-- A ball of a DDR5 region, its column counted from the region's base. -/
def ddrBall (c : ChanId) (row i : Nat) : Ball :=
  if row ≤ 60 then bytePin c (3 * ((row - 49) / 4) + (i - 1) / 8) ((row - 49) % 4) ((i - 1) % 8 + 1)
  else if row = 61 then commandPin c "A" i
  else if row = 62 then (if i % 2 = 0 then .supply "VDDQ_DDR" else .vss)
  else if row = 63 then
    (if i = 21 then .ddr c "RESET_N" else if i = 22 then .ddr c "ALERT_N" else commandPin c "B" i)
  else .vss

/-- A leg of the pairs 0 to 3 at columns 41, 44, 47 and 50 of a central row. -/
def lanePin (what : String) (col : Nat) : Ball :=
  if 41 ≤ col ∧ col ≤ 51 ∧ (col - 41) % 3 ≤ 1 then
    .signal (what ++ toString ((col - 41) / 3) ++ (if (col - 41) % 3 = 0 then "P" else "N"))
  else .vss

/-- The sideband, control, xSPI, AVSBus and JTAG pins of row CF, by column. -/
def controlPins : List (Nat × String) :=
  [(25, "XSPI_CLK"), (26, "XSPI_CS_N"), (27, "XSPI_DQS"), (28, "XSPI_DQ0"), (29, "XSPI_DQ1"), (30, "XSPI_DQ2"),
   (31, "XSPI_DQ3"), (32, "XSPI_DQ4"), (33, "XSPI_DQ5"), (34, "XSPI_DQ6"), (35, "XSPI_DQ7"), (36, "XSPI_RESET_N"),
   (38, "I3C_SCL"), (39, "I3C_SDA"), (66, "PORST_N"), (67, "SYSRST_N"), (68, "WAKE_N"), (69, "FAULT_N"),
   (70, "SYNC_IN"), (71, "TEST_EN"), (72, "BOOT_SRC0"), (73, "BOOT_SRC1"), (74, "CHAIN_END"), (76, "LED_CLK"),
   (77, "LED_DAT"), (79, "AVS_CLK"), (80, "AVS_MDATA"), (81, "AVS_SDATA"), (83, "TCK"), (84, "TMS"), (85, "TDI"),
   (86, "TDO"), (87, "TRST_N")]

/-- A sense pair of row BW: VSNS_CORE at 60 and 61, VSNS_DSPd from 62 on. -/
def sensePin (col : Nat) : Ball :=
  let leg := if col % 2 = 0 then "_P" else "_N"
  if 60 ≤ col ∧ col ≤ 61 then .signal ("VSNS_CORE" ++ leg)
  else if 62 ≤ col ∧ col ≤ 77 then .signal ("VSNS_DSP" ++ toString ((col - 62) / 2) ++ leg)
  else .vss

/-- A ball of the central region (Table 5). -/
def centralBall (row col : Nat) : Ball :=
  let upTo := fun (n : Nat) (b : Ball) => if col ≤ n then b else .vss
  match row with
  | 51 => lanePin "PE_TX" col
  | 53 => lanePin "PE_RX" col
  | 54 => .supply "VDD_CORE"
  | 55 => .supply "VDD_CORE"
  | 56 => sensePin col
  | 57 => upTo 56 (.supply "VDD_CORE")
  | 58 => if col = 56 then .signal "REFCLKP" else if col = 57 then .signal "REFCLKN" else upTo 40 (.supply "VDD_ANA")
  | 59 => upTo 40 (.supply "VDD_ANA")
  | 61 =>
    match col with
    | 41 => .signal "CHN_IN_P"
    | 42 => .signal "CHN_IN_N"
    | 44 => .signal "CHN_OUT_P"
    | 45 => .signal "CHN_OUT_N"
    | _ => .vss
  | 62 => upTo 48 (.supply "VDD_IO")
  | 63 => ((controlPins.find? fun e => e.1 == col).map fun e => Ball.signal e.2).getD .vss
  | 64 => if 41 ≤ col ∧ col ≤ 64 then .nc else upTo 40 (.supply "VDD_AON")
  | _ => .vss

/-- What the ball at a row index and a column carries, both 1 to 112. -/
def ballAt (row col : Nat) : Ball :=
  if row ≤ 48 ∨ 65 ≤ row then lineBall row col
  else if col ≤ 24 then ddrBall 0 row col
  else if 89 ≤ col then ddrBall 1 row (col - 88)
  else centralBall row col

end Sys2Proof.Machine
end

