-- ==== Sys2Proof/Machine/Pins.lean ====
section
/-!
DEFINITION. What the pins do in reset, during the boot, in POST hold and after it (21, R524, Table 4).
-/

namespace Sys2Proof.Machine

/-- The pins of Table 4, by their behaviour. -/
inductive PinGroup where
  | line (p : PortId)
  | hostTx (p : PortId)
  | hostRx (p : PortId)
  | pcieTx
  | pcieRx
  | ddrReset
  | ddr
  | xspi
  | i3c
  | wake
  | syncIn
  | faultN
  | chainIn
  | chainOut
  | led
  | avs
  | jtag
  deriving DecidableEq, Repr

/-- What a pin does: the words of Table 4, or `live` where the chapter of its unit says it. -/
inductive PinSt where
  | driverOff
  | electricalIdle
  | receiverOff
  | terminationOff
  | highZ
  | low
  | released
  | ignored
  | served
  | idleHigh
  | boundaryOnly
  | bypass
  | live
  deriving DecidableEq, Repr

/-- The columns of Table 4: reset, a boot in which the events up to a step have passed, POST hold, Ibex (whose line dies
and pads are held as in reset, with DDR5 untrained: R492), and what follows the boot. -/
inductive PinPhase where
  | reset
  | boot (passed : Nat)
  | hold
  | ibex
  | after
  deriving DecidableEq, Repr

/-- The column that holds. SYSRST_N low stands before the first step of its boot, with the supplies and straps as they
were. -/
def pinPhase (s : State) : PinPhase :=
  match s.pwr.st with
  | .inPorst => .reset
  | .inSysrst => .boot 2
  | .boot n _ => .boot (n - 1)
  | .postHold => .hold
  | .ibex => .ibex
  | _ => .after

/-- A pin that is live from the event of a boot step on, and held otherwise. -/
def fromStep (ph : PinPhase) (n : Nat) (held : PinSt) : PinSt :=
  match ph with
  | .boot k => if n ≤ k then .live else held
  | .ibex => if n ≤ 5 then .live else held
  | .after => .live
  | _ => held

/-- What a pin does (R524, Table 4). -/
def pinState (s : State) (g : PinGroup) : PinSt :=
  let ph := pinPhase s
  match g with
  | .line p => if ph == .after && (getPort s p).line.on then .live else .driverOff
  | .hostTx _ => fromStep ph 10 .electricalIdle
  | .hostRx _ => fromStep ph 10 .receiverOff
  | .pcieTx => fromStep ph 5 .electricalIdle
  | .pcieRx => fromStep ph 5 .terminationOff
  | .ddrReset => fromStep ph 7 .low
  | .ddr => fromStep ph 7 .highZ
  | .xspi => if ph == .hold then .idleHigh else fromStep ph 3 .highZ
  | .i3c => if ph == .hold then .served else fromStep ph 3 .highZ
  | .wake => fromStep ph 11 .ignored
  | .syncIn => fromStep ph 11 .ignored
  | .faultN => if faultPin s && ph != .reset && s.pwr.st != .inSysrst && !(getRail s 5).low then .low else .released
  | .chainIn => fromStep ph 5 .ignored
  | .chainOut => if chainAlive s && chainForwards s then .live else .low
  | .led => if (regVal s 0x704).getLsbD 0 && !s.pwr.padsHeld && ph != .reset && ph != .hold then .live else .low
  | .avs => fromStep ph 5 .low
  | .jtag => if ph == .reset then .bypass else if jtagBoundary s then .boundaryOnly else .live

end Sys2Proof.Machine
end

