-- ==== Sys2Proof/Tests/Slice0.lean ====
section
/-!
SUPPORT. Small states and operands for the tests, the tests, and for each statement's hypotheses a state and operands
that meet all of them together.
-/

namespace Sys2Proof.Tests

open Sys2Proof.Machine Sys2Proof.Safety

set_option maxRecDepth 20000

/-- A command of ring 0 for an object, with a data ring. -/
def cmdOf (opcode target data : BitVec 16) : Cmd :=
  { ring := 0, index := 5, tag := 77, opcode := opcode, target := target, flags := 0, dataRing := data, params := [] }

/-- The same with FORCE. -/
def forceOf (opcode target data : BitVec 16) : Cmd := { cmdOf opcode target data with flags := 1 }

/-- An empty data buffer of n bytes; LAST of its object. -/
def buf (n : BitVec 32) : DataDesc := { addr := 0x10000, length := n, flags := 0, tag := 9, rsvdZero := true }
def lastBuf (n : BitVec 32) : DataDesc := { buf n with flags := 1 }

/-- Ring 0 takes commands, ring 1 their completions, rings 2 and 3 hold a data-in and a data-out buffer; all are bound
to the hub and ACTIVE. -/
def rig (c : Option Cmd) (in_ out : List DataDesc) : State :=
  { State.reset with
    regs := [(0x400008, 0x30), (0x40000C, 1), (0x400048, 0x31), (0x400088, 0x33), (0x40008C, 1), (0x4000C8, 0x34),
             (0x4000CC, 1)]
    io := { State.reset.io with
      busMaster := true
      rings := [(0, { Ring.reset with st := .active, running := c }), (1, { Ring.reset with st := .active, phase := true }),
                (2, { Ring.reset with st := .active, bufs := in_ }), (3, { Ring.reset with st := .active, bufs := out })] } }

/-- A state in which ring 0 runs a command. -/
def run (c : Cmd) : State := rig (some c) [buf 8192] [buf 8192]

/-- A state after reset in which nothing runs. -/
def idle : State := rig none [buf 8192] [buf 8192]

/-- Port 300 changed. -/
def p300 (s : State) (f : Port → Port) : State := modPort s 300 f

/-- Herd 37, that of port 300, changed. -/
def h37 (s : State) (f : Herd → Herd) : State := modHerd s 37 f

/-- A hub image signed with the root key (Table 3 of Firmware Images): SVN 3, VERSION 7, 1,000 bytes of body. -/
def img : ImageHeader :=
  { raw := 0x10001000900000001000003E800000007000000030000020000000010512401015A574649
    keyHash := Config.rootHash, sigOk := true, digest := 0xABCD }

@[simp] theorem img_format : hdrFormatOk img = true := by decide
@[simp] theorem img_kind : hdrKind img = 1 := by decide
@[simp] theorem img_size : hdrBodySize img = 1000 := by decide
@[simp] theorem img_confirm : hdrConfirmS img = 0 := by decide
@[simp] theorem img_slot : hdrKeySlot img = 0 := by decide
@[simp] theorem img_hash : img.keyHash = Config.rootHash := rfl
@[simp] theorem img_sig : img.sigOk = true := rfl

/-- What the device keeps of it. -/
def newImg : Img := imgOf img false

/-- The three running images with the hub image exchanged. -/
def newSet : Tri Img := ⟨newImg, Img.first, Img.first⟩

/-- Firmware state changed. -/
def fwOf (s : State) (f : Fw → Fw) : State := { s with fw := f s.fw }

/-- A power state. -/
def inSt (s : State) (x : DevSt) : State := { s with pwr := { s.pwr with st := x } }

/-- An open session of a source that has received n bytes. -/
def sess (source : BitVec 8) (n : Nat) (c : Option Cmd) (program : Bool) : Session :=
  { source := source, header := img, got := n, seq := 4, cmd := c, program := program, same := false }

/-- Device time moved. -/
def at_ (s : State) (t : BitVec 64) : State := { s with time := { s.time with now := t } }

/-- A register set on top of those of `rig`: its offset lies below theirs. -/
def lowReg (s : State) (off : Nat) (v : BitVec 32) : State := { s with regs := (off, v) :: s.regs }

/-- A token's bytes from its first 16, its CHALLENGE and its BIND_HASH. -/
def tokenOf (head c h : Nat) : Nat := head + c * 2 ^ 128 + h * 2 ^ 256

theorem tokenOf_lt {l c h : Nat} (a : l < 2 ^ 128) (b : c < 2 ^ 128) (d : h < 2 ^ 256) :
    tokenOf l c h < 2 ^ 256 * 2 ^ 256 := by
  unfold tokenOf; omega

theorem tokenOf_head {l c h n k : Nat} (e : 8 * n + 8 * k ≤ 128) :
    rawField (tokenOf l c h) n k = rawField l n k := by
  have m : ∀ x, rawField x n k = (x % 2 ^ 128) >>> (8 * n) % 2 ^ (8 * k) := by
    intro x
    simp only [rawField, Nat.shiftRight_eq_div_pow]
    rw [← Nat.mod_mul_right_div_self, ← Nat.mod_mul_right_div_self, ← Nat.pow_add,
      Nat.mod_mod_of_dvd _ (Nat.pow_dvd_pow 2 e)]
  rw [m, m]
  congr 2
  unfold tokenOf
  omega

theorem tokenOf_challenge {l c h : Nat} (a : l < 2 ^ 128) (b : c < 2 ^ 128) : rawField (tokenOf l c h) 0x10 16 = c := by
  unfold rawField tokenOf
  rw [Nat.shiftRight_eq_div_pow]
  omega

theorem tokenOf_hash {l c h : Nat} (a : l < 2 ^ 128) (b : c < 2 ^ 128) (d : h < 2 ^ 256) :
    rawField (tokenOf l c h) 0x20 32 = h := by
  unfold rawField tokenOf
  rw [Nat.shiftRight_eq_div_pow]
  omega

theorem tokenOf_word {l c h : Nat} (a : l < 2 ^ 128) (b : c < 2 ^ 128) (d : h < 2 ^ 256) (i : Nat) :
    rawField (tokenOf l c h) (4 * (24 + i)) 4 = 0 := by
  have e : 2 ^ 256 * 2 ^ 256 ≤ 2 ^ (8 * (4 * (24 + i))) := by
    rw [show 8 * (4 * (24 + i)) = 256 + (512 + 32 * i) by omega, Nat.pow_add]
    exact Nat.mul_le_mul_left _ (Nat.pow_le_pow_right (by decide) (by omega))
  unfold rawField
  rw [Nat.shiftRight_eq_div_pow, Nat.div_eq_of_lt (Nat.lt_of_lt_of_le (tokenOf_lt a b d) e)]
  exact Nat.zero_mod _

/-- A valid DEBUG_UNLOCK token for the unit's challenge (Table 3 of Identity, Attestation and Debug Access), SCOPE 1. -/
def token (s : State) : Token :=
  { raw := tokenOf 0x1000000015A544B31 s.sec.challenge.toNat Config.identityHash.toNat
    keyHash := Config.rootHash, sigOk := true }

@[simp] theorem token_type (s : State) : tokType (token s) = 1 := by
  rw [tokType, token, tokenOf_head (by decide)]
  rfl

@[simp] theorem token_slot (s : State) : tokKeySlot (token s) = 0 := by
  rw [tokKeySlot, token, tokenOf_head (by decide)]
  rfl

@[simp] theorem token_challenge (s : State) : tokChallenge (token s) = s.sec.challenge := by
  rw [tokChallenge, token, tokenOf_challenge (by decide) s.sec.challenge.isLt]
  exact BitVec.ofNat_toNat _ _

@[simp] theorem token_bind (s : State) : tokBindHash (token s) = Config.identityHash := by
  rw [tokBindHash, token, tokenOf_hash (by decide) s.sec.challenge.isLt Config.identityHash.isLt]
  exact BitVec.ofNat_toNat _ _

theorem token_good (s : State) : tokenBad (token s) 3988 = none := by
  have w : ∀ i, rawField (token s).raw (4 * (24 + i)) 4 = 0 :=
    tokenOf_word (by decide) s.sec.challenge.isLt Config.identityHash.isLt
  have q : rawField 0x1000000015A544B31 0 4 = 0x5A544B31 := by decide
  have r : rawField 0x1000000015A544B31 7 1 = 0 := by decide
  have m : rawField (token s).raw 0 4 = 0x5A544B31 := by rw [token, tokenOf_head (by decide), q]
  have z : rawField (token s).raw 7 1 = 0 := by rw [token, tokenOf_head (by decide), r]
  have f : ((List.range 40).map (24 + ·)).filter (fun i => rawField (token s).raw (4 * i) 4 != 0) = [] := by
    rw [List.filter_eq_nil_iff]
    intro i h
    obtain ⟨j, -, rfl⟩ := List.mem_map.mp h
    rw [w j]
    decide
  rw [tokenBad, tokenFaults, m, z, f, token_type]
  rfl

theorem token_key (s : State) : (token s).keyHash = Config.rootHash := rfl
theorem token_sig (s : State) : (token s).sigOk = true := rfl

/-- A token of the root key for the unit and its challenge passes the checks of its authority. -/
theorem auth_of {s : State} {x : Token} (a : tokKeySlot x = 0) (b : tokBindHash x = Config.identityHash)
    (c : tokChallenge x = s.sec.challenge) (k : x.keyHash = Config.rootHash) (g : x.sigOk = true) :
    tokenAuth s x = true := by
  simp [tokenAuth, slotHash, a, b, c, k, g]

theorem token_auth (s : State) : tokenAuth s (token s) = true :=
  auth_of (token_slot s) (token_bind s) (token_challenge s) (token_key s) (token_sig s)

/-- Nothing of the unit's state forbids an unlock unless it is decommissioned. -/
theorem allowed_of {s : State} {x : Token} (a : tokType x = 1) (l : s.sec.lifecycle ≠ 2) : tokenRefused s x = false := by
  simpa [tokenRefused, a] using l

theorem token_allowed (s : State) (l : s.sec.lifecycle ≠ 2) : tokenRefused s (token s) = false :=
  allowed_of (token_type s) l

/-- A PLL's judgement changed. -/
def pllAt (s : State) (u : PllId) (x : Pll) : State := setPll s u x

/-- A register set above those of `rig` is not needed: this one stands alone. -/
def only (s : State) (off : Nat) (v : BitVec 32) : State := { s with regs := [(off, v)] }

/-- Collector state changed. -/
def fltOf (s : State) (f : Flt → Flt) : State := { s with flt := f s.flt }

/-- A fault record of a herd controller's watchdog, not acknowledged. -/
def rec37 : FltRec :=
  { record := 1, source := 0x894, cls := 6, level := 2, conseq := false, promoted := false, escalated := false,
    first := false, acked := false, fixed := false, network := false, deferred := false, subsumed := false,
    injected := false, pin := true, reaction := 1, scope := .herd 37, count := 1, link := 0, detail := 0, time := 0 }

/-- A foreground calibration run of tasks 0 and 3. -/
def calOf : CalRun :=
  { tasks := 9, done := 0, inLpi := false, unitsLeft := 35, quiet := 0, quietUnits := 0, start := 0, startMono := 0, endState := .disabled }

/-- A buffer taken for a capture, with room for one sample, and a sample. -/
def tb : Taken := { ring := 2, index := 0, desc := buf 66 }
def oneOut : ObsOut :=
  { val := 5, clip := false, bank := false, fade := none, time := 700, source := 0, decim := 6, mode := .l100, supp := 0,
    drop := 0, stepped := false }

/-- A self-test of herd 37 at a step, and a herd under it. -/
def bistAt (n : Nat) : BistRun :=
  { step := n, start := 0, startMono := 0, saved := false, logicFail := 0, memFails := [], repairs := 0, dieTemp := 0 }
def tested (n : Nat) : State := h37 idle fun x => { x with st := .selfTest, test := some (bistAt n) }

theorem tabGet_or {α : Type} (d : α) (t : Tab α) (k : Nat) : tabGet d t k = d ∨ ∃ e ∈ t, e.2 = tabGet d t k := by
  induction t with
  | nil => exact .inl rfl
  | cons a t ih =>
    obtain ⟨j, v⟩ := a
    simp only [tabGet]
    split
    · exact .inl rfl
    · split
      · exact .inr ⟨(j, v), by simp, rfl⟩
      · rcases ih with h | ⟨e, m, h⟩
        · exact .inl h
        · exact .inr ⟨e, by simp [m], h⟩

/-- Whether no wait, fade, save or herd commit that a state lists holds a command. -/
def newCmd (s : State) (c : Cmd) : Bool :=
  (s.waits.all fun w => waitCmd w != c) &&
  (s.ports.all fun e => e.2.save.all fun x => x.cmd != some c) &&
  s.herds.all fun e => (e.2.obs.waits.all fun w => obsCmd w != c) && !e.2.obs.stoppers.contains c && e.2.commit.all fun k => k.cmd != c

theorem newCmd_of {s : State} {c : Cmd} (h : newCmd s c = true) : NewCmd s c := by
  simp only [newCmd, Bool.and_eq_true, List.all_eq_true] at h
  obtain ⟨⟨h1, h2⟩, h3⟩ := h
  refine ⟨fun w m => by simpa using h1 w m, fun g => ?_, fun p => ?_, fun g => ?_⟩
  · rcases tabGet_or Herd.reset s.herds g.val with e | ⟨e, n, q⟩
    · rw [getObs, getHerd, e]
      exact ⟨by simp [Herd.reset, Obs.reset], by simp [Herd.reset, Obs.reset]⟩
    · rw [getObs, getHerd, ← q]
      exact ⟨fun w m => by simpa using (h3 e n).1.1 w m, by simpa using (h3 e n).1.2⟩
  · rcases tabGet_or Port.reset s.ports p.val with e | ⟨e, n, q⟩
    · rw [getPort, e]; rfl
    · rw [getPort, ← q]; exact h2 e n
  · rcases tabGet_or Herd.reset s.herds g.val with e | ⟨e, n, q⟩
    · rw [getHerd, e]; rfl
    · rw [getHerd, ← q]; exact (h3 e n).2

/-! ### Terms that a sender can send, and terms that it cannot: one for each check -/

/-- A slot's time in which nothing comes in. -/
def slotSent : RxSlot :=
  { samples := List.replicate 4 [], verdict := .uncorrectable, kind := .data, agc := List.replicate 4 0 }

/-- PORT.ENABLE of port 300 as the 64 bytes of its descriptor (Table 13 of Rings, Doorbells and the Ring Engine). -/
def descSent : List Byte := [0x03, 0x01, 0, 0, 0x2C, 0x01, 0xFF, 0xFF, 1] ++ List.replicate 55 0

/-- A command with fields in its PARAMS. -/
def withParams (c : Cmd) (l : List Fld) : Cmd := { c with params := fieldBytes 48 l }

theorem test_wellFormed_command : wellFormed (.portEnable (withParams (cmdOf 0x103 300 0xFFFF) []) 300) = true := by decide
theorem test_wellFormed_herd : wellFormed (.obsStop (withParams (cmdOf 0x505 0x4025 0xFFFF) []) 37) = true := by decide
theorem test_wellFormed_params :
    wellFormed (.obsSwap (withParams (cmdOf 0x503 0x4025 0xFFFF) [(0, 2, 0x1234)]) 37 0x1234) = true := by decide
theorem test_wellFormed_event : wellFormed .sysrstAssert = true := by decide
theorem test_illFormed_opcode : wellFormed (.portEnable (withParams (cmdOf 0x104 300 0xFFFF) []) 300) = false := by decide
theorem test_illFormed_target : wellFormed (.obsStop (withParams (cmdOf 0x505 37 0xFFFF) []) 37) = false := by decide
theorem test_illFormed_params :
    wellFormed (.obsSwap (withParams (cmdOf 0x503 0x4025 0xFFFF) [(0, 2, 0x3412)]) 37 0x1234) = false := by decide
theorem test_illFormed_entries :
    wellFormed (.portConfig (withParams (cmdOf 0x101 300 0xFFFF) [(0, 1, 1), (8, 2, 0x43), (12, 4, 200)]) 300 1
      [(0x43, 200)]) = false := by decide
theorem test_illFormed_ranges :
    wellFormed (.statSnapshot (withParams (cmdOf 0x802 0x7FFF 0xFFFF) [(0, 1, 1), (6, 2, 7)]) 1 [(0, 7)]) = false := by
  decide
theorem test_wellFormed_descriptor :
    wellFormed (.doorbellWrite 0 [1, 0, 0, 0] [{ ring := 0, descs := [descSent] }]) = true := by decide
theorem test_illFormed_descriptor :
    wellFormed (.doorbellWrite 0 [1, 0, 0, 0] [{ ring := 0, descs := [descSent.take 63] }]) = false := by decide
/-- R9, R287: the fields stand little-endian at the offsets of Table 13. -/
theorem test_descriptor : cmdDescOf descSent =
    { opcode := 0x103, flags := 0, target := 300, dataRing := 0xFFFF, tag := 1, params := List.replicate 48 0 } := by
  decide
theorem test_wellFormed_slot : wellFormed (.lineSlotReceived 300 slotSent) = true := by decide
theorem test_illFormed_slotSamples :
    wellFormed (.lineSlotReceived 300 { slotSent with samples := [] }) = false := by decide
theorem test_illFormed_slotAgc : wellFormed (.lineSlotReceived 300 { slotSent with agc := [] }) = false := by decide
set_option exponentiation.threshold 40000 in
theorem test_illFormed_header : wellFormed (.chainHeader { crcOk := true, seq := 0 } { img with raw := 2 ^ 32768 }) =
    false := by decide
set_option exponentiation.threshold 40000 in
theorem test_illFormed_token :
    wellFormed (.secDebugUnlock (withParams (cmdOf 0xE02 0x7FFF 3) [])
      { raw := 2 ^ 31904, keyHash := 0, sigOk := true }) = false := by decide
theorem test_illFormed_chamois : wellFormed (.chamoisStepEnd 300 { pairs := [], next := [], profile := [] }) = false := by
  decide
theorem test_illFormed_body : wellFormed (.chainBody { crcOk := true, seq := 1 } 0 4093) = false := by decide

/-! ### No word spells a command (no row of the table gives bits) -/

theorem test_decode_none : decodeTableWord 32 0x103 = none := rfl
theorem test_withFetchWord : State.reset.withFetchWord 32 0x103 = State.reset := rfl

/-! ### Small steps, with results from the spec -/

/-- The state after the one command of a queue. -/
def after (i : Instr) (s : State) : State :=
  match step { s with pending := [i] } with
  | .next t => t
  | _ => s

/-- STATUS and RESULT of the last completion record written. -/
def lastDone (s : State) : Option (BitVec 8 × BitVec 64) :=
  s.io.bus.findSome? fun
    | .completion _ _ _ _ r => some (r.status, r.result)
    | _ => none

/-- The worked example after R339: port 303 has LANE_PRECODE_TX = 1 live, herd 37 is to run L25 only; the commit fails
with RESULT 0x0001_012F_0033_FFFF. -/
theorem test_herdCommit_precode :
    (let c := cmdOf 0x102 0x4025 0xFFFF
     let s := modPort (h37 (run c) fun x => { x with shModeSet := 16, staged := true }) 303 fun x =>
       { x with live := [(0x33, 1)], shadow := [(0x33, 1)] }
     lastDone (after (.portCommit c (.herd 37)) s)) = some (stBadParam, 0x0001012F0033FFFF) := by decide

/-- R14, R356: a read of a block behind a link that is down returns 0x0FF00FF0. -/
theorem test_read_d2dDown :
    (after (.reg64LowRead 0x2000000) (setDie idle 0 { getDie idle 0 with d2dUp := false })).io.bus.head? =
      some (.readData 0x0FF00FF0) := by decide

/-- R5: the events of port 300 have the source numbers from 4,800 on, global ones those from 8,192 on. -/
theorem test_sources : portSrc 300 2 = 4802 ∧ globalSrc 32 = 8224 := by decide

/-- R97, R135: PORT.ENABLE of a port in DISABLED leads to NEGOTIATE and completes with ST_OK. -/
theorem test_portEnable :
    (let t := after (.portEnable (cmdOf 0x103 300 0xFFFF) 300) (run (cmdOf 0x103 300 0xFFFF))
     ((getPort t 300).st, lastDone t)) = (.negotiate, some (stOk, 0)) := by decide

/-- Table 9: PORT.RESTART of a port in DISABLED is refused with its PORT_STATE 0. -/
theorem test_portRestart_refused :
    lastDone (after (.portRestart (cmdOf 0x106 300 0xFFFF) 300) (run (cmdOf 0x106 300 0xFFFF))) =
      some (stRefused, 0) := by decide

/-- R258, R321: OBS.SWAP refuses a FADE_LEN of 15 with the offset of its field. -/
theorem test_obsSwap_fadeLen :
    lastDone (after (.obsSwap (cmdOf 0x503 0x4025 0xFFFF) 37 15) (run (cmdOf 0x503 0x4025 0xFFFF))) =
      some (stBadParam, 0x10) := by decide

/-- R331: a slew of 100 ppm adds 1 ns in 10,000. -/
theorem test_slew :
    timeTick { idle with time := { idle.time with slewLeft := 1, slewPhase := 9999, now := 7 } } =
      { idle.time with slewLeft := 0, slewPhase := 0, now := 9 } := by decide

/-- R412: on the bypass device time counts in steps of 6.4 ns. -/
theorem test_bypassTime :
    (let s := setSwitch idle .hubCore { getSwitch idle .hubCore with onPll := false }
     let run := fun n => (List.range n).foldl (fun s _ => { s with time := timeTick s }) s
     ((run 6).time.now, (run 7).time.now, (run 32).time.now)) = (0, 6, 32) := by decide

/-- The worked example after R39: the bits 10 11 00 10 01 go out as +3, +1, −3, +3, −1. -/
theorem test_dacCodes :
    dacCodes [true, false, true, true, false, false, true, false, false, true] = [48, 16, -48, 48, -16] := by decide

/-- The example of Rings and Doorbells: ring 1,200 has its window at 0x0041_2C00. -/
theorem test_ringWindow : ringOff 1200 0 = 0x412C00 := by decide

/-- The example of Electrical and Package: L300AP sits at ball DF15, H300RXN at DD19. -/
theorem test_balls :
    ballAt 82 15 = .line 300 0 false ∧ ballName 82 15 = "DF15" ∧ ballAt 80 19 = .host 300 false true ∧
      ballName 80 19 = "DD19" := by decide

/-- R13: a low word waits for its high word. -/
theorem test_pairWrite :
    (let s := after (.reg64LowWrite 0x300 0x4000) idle
     (regVal s 0x300, regVal (after (.reg64HighWrite 0x304 7) s) 0x300)) = (0, 0x4000) := by decide

/-- R513: while PORST_N is low SYSRST_N has no effect. -/
theorem test_sysrst_ignored : after .sysrstAssert (inSt idle .inPorst) = { inSt idle .inPorst with pending := [] } :=
  rfl

/-- An uncorrectable MRAM read posts MRAM_ECC (Table 2 of Events, Faults and Reactions). -/
theorem test_mramEcc : genOf (after (.faultRaised [(0xA33, 0x40)]) idle) (globalSrc 56) = 1 ∧
    genOf (after (.faultRaised [(0xA33, 0x40)]) idle) (globalSrc 32) = 1 := by decide

/-- Host-out carries Local Fault outside UP (R167), but electrical idle in IDLE (R179). -/
theorem test_hostOut :
    hostOutNow (p300 idle fun x => { x with st := .hold, lane := { x.lane with st := .active } }) 300 = .localFault ∧
    hostOutNow (p300 idle fun x => { x with st := .up, lane := { x.lane with st := .active } }) 300 = .lineStream ∧
    hostOutNow (p300 idle fun x => { x with st := .safe, lane := { x.lane with st := .idle } }) 300 = .electricalIdle := by
  decide

/-! ### States and operands that meet the statements' hypotheses -/

theorem wit_TimeRows_4 : ∃ (c : Cmd) (step : BitVec 32) (s : State), Runs s c :=
  ⟨cmdOf 0xF02 0x7FFF 0xFFFF, 0x80000000, run (cmdOf 0xF02 0x7FFF 0xFFFF), by decide⟩

theorem wit_TimeRows_5 : ∃ (s : State), s.time.slewLeft = 0 :=
  ⟨{ idle with time := { idle.time with slewPhase := 5, now := 9 } }, by rfl⟩

theorem wit_TimeRows_6 : ∃ (s : State), s.time.slewLeft ≠ 0 :=
  ⟨{ idle with time := { idle.time with slewLeft := -5, now := 9 } }, by decide⟩

theorem wit_TimeRows_7 : ∃ (c : Cmd) (v : BitVec 64) (s : State), s.waits.findSome? syncOf = some (c, v) ∧ Runs s c
  ∧ s.clk.refclkOk = true :=
  ⟨cmdOf 0xF01 0x7FFF 0xFFFF, 1000,
    { run (cmdOf 0xF01 0x7FFF 0xFFFF) with waits := [.sync (cmdOf 0xF01 0x7FFF 0xFFFF) 1000] }, by decide⟩

theorem wit_TimeRows_8 : ∃ (rising : Bool) (s : State), hubRuns s = true ∧ syncEn s = true ∧ rising ≠ (regVal s
  0x108).getLsbD 1 :=
  ⟨true,
    { lowReg (run (cmdOf 0xF01 0x7FFF 0xFFFF)) 0x108 1 with waits := [.sync (cmdOf 0xF01 0x7FFF 0xFFFF) 1000] }, by
    decide⟩

theorem wit_TimeRows_9 : ∃ (h : HerdId) (s : State), (getDie s (dieOfHerd h)).d2dUp = true ∧ herdsRun s = true :=
  ⟨63, idle, by decide⟩

theorem wit_FwCommands_1 : ∃ (c : Cmd) (img : ImageObj) (s : State) (r : RingId) (d : DataDesc), Runs s c ∧
  s.fw.session = none ∧ ibexListens s 1 = true ∧ dataRingOf s c .hub 4 = some r ∧ canWrite s = true ∧ s.fw.dropping
  = [] ∧ s.fw.stages = [] ∧ (getRing s r).bufs = [d] ∧ descOk false d = true ∧ d.flags = 1 ∧ d.length.toNat = 4096
  + hdrBodySize img.header ∧ img.digestOk = true ∧ headerKey s img.header = none ∧ headerUnit s img.header = none ∧
  stagingClosed s.fw = false ∧ (kindOf (hdrKind img.header)).bind (triGet s.fw.staged) = none :=
  ⟨cmdOf 0xD01 0x7FFF 3, { header := img, digestOk := true }, rig (some (cmdOf 0xD01 0x7FFF 3)) [] [lastBuf 5096],
    3, lastBuf 5096, by decide, by decide, by decide, by decide, by decide, by decide, by decide, by decide, by
    decide, by decide, by decide, by decide, by simp [headerKey, slotHash, kindOf, maxBody], by decide, by decide,
    by decide⟩

theorem wit_FwCommands_2 : ∃ (c : Cmd) (a : BitVec 64) (s : State), Runs s c ∧ ibexListens s 1 = true ∧ s.pwr.st ≠
  .ibex ∧ s.fw.seq ≠ .running ∧ s.fw.seq ≠ .falling ∧ windowOpen s.fw = false ∧ s.fw.fallback = false ∧
  s.time.now.toNat ≤ a.toNat ∧ anyChanged (stagedSet s.fw) s.fw.running = true ∧ setCompatible s.fw.running
  (stagedSet s.fw) = true :=
  ⟨cmdOf 0xD02 0x7FFF 0xFFFF, 500, at_ (fwOf (run (cmdOf 0xD02 0x7FFF 0xFFFF)) fun f =>
    { f with staged := ⟨some newImg, none, none⟩, seq := .staged }) 500, by decide⟩

theorem wit_FwCommands_3 : ∃ (c : Cmd) (s : State), Runs s c ∧ canConfirm s = true :=
  ⟨cmdOf 0xD02 0x7FFF 0xFFFF, at_ (fwOf (run (cmdOf 0xD02 0x7FFF 0xFFFF)) fun f =>
    { f with deadline := 501, prevValid := true, seq := .awaiting }) 500, by decide⟩

theorem wit_FwCommands_4 : ∃ (c : Cmd) (s : State), Runs s c ∧ s.fw.seq = .scheduled ∧ s.fw.fallback = false :=
  ⟨cmdOf 0xD02 0x7FFF 0xFFFF, fwOf (run (cmdOf 0xD02 0x7FFF 0xFFFF)) fun f =>
    { f with staged := ⟨some newImg, none, none⟩, seq := .scheduled, startT := 700 }, by decide⟩

theorem wit_FwCommands_5 : ∃ (c : Cmd) (a : BitVec 64) (s : State), Runs s c ∧ s.fw.prevValid = true ∧
  s.fw.rejected = false ∧ s.fw.seq ≠ .running ∧ s.fw.seq ≠ .falling ∧ s.time.now.toNat < a.toNat :=
  ⟨cmdOf 0xD03 0x7FFF 0xFFFF, 1, fwOf (run (cmdOf 0xD03 0x7FFF 0xFFFF)) fun f => { f with prevValid := true }, by
    decide⟩

theorem wit_FwCommands_6 : ∃ (c : Cmd) (s : State) (r : RingId) (d : DataDesc) (rest : List DataDesc), Runs s c ∧
  dataRingOf s c .hub 3 = some r ∧ (getRing s r).bufs = d :: rest ∧ descOk true d = true ∧ 256 ≤ d.length.toNat ∧
  (getRing s r).dmaBad = false :=
  ⟨cmdOf 0xD04 0x7FFF 2, rig (some (cmdOf 0xD04 0x7FFF 2)) [buf 256, buf 64] [], 2, buf 256, [buf 64], by decide⟩

theorem wit_FwEvents_1 : ∃ (s : State) (x : Session) (k : Fin 3), s.fw.session = some x ∧ x.program = true ∧ kindOf
  (hdrKind x.header) = some k ∧ s.clk.refclkOk = true :=
  ⟨fwOf idle fun f => { f with session := some (sess 2 1000 none true) }, sess 2 1000 none true, 0, rfl, by decide,
    by decide, by decide⟩

theorem wit_FwEvents_2 : ∃ (s : State) (r : Stage) (l : List Stage), s.fw.stages = r :: l ∧ Runs s r.cmd ∧
  s.fw.session = none ∧ s.clk.refclkOk = true :=
  ⟨fwOf (rig (some (cmdOf 0xD01 0x7FFF 3)) [] []) fun f =>
    { f with stages := [{ cmd := cmdOf 0xD01 0x7FFF 3, ring := 3, obj := { header := img, digestOk := true }, got := 0 }] },
    { cmd := cmdOf 0xD01 0x7FFF 3, ring := 3, obj := { header := img, digestOk := true }, got := 0 }, [], by refine
    ⟨rfl, ?_, ?_⟩ <;> decide⟩

theorem wit_FwEvents_3 : ∃ (s : State), s.fw.seq = .scheduled ∧ inService s = true ∧ s.fw.fallback = false ∧
  s.fw.session = none ∧ s.fw.startT.toNat ≤ s.time.now.toNat ∧ waitsEdge s = false ∧ changed (stagedSet s.fw).hub
  s.fw.running.hub = true ∧ setCompatible s.fw.running (stagedSet s.fw) = true ∧ s.clk.refclkOk = true :=
  ⟨at_ (fwOf idle fun f => { f with staged := ⟨some newImg, none, none⟩, seq := .scheduled, startT := 700 }) 700,
    by decide⟩

theorem wit_FwEvents_4 : ∃ (s : State), s.fw.seq = .running ∧ s.fw.hubPhase = true ∧ s.fw.mgmtDown = false ∧
  s.clk.refclkOk = true :=
  ⟨fwOf idle fun f => { f with seq := .running, hubPhase := true, target := newSet }, by decide⟩

theorem wit_FwEvents_5 : ∃ (s : State), s.fw.seq = .running ∧ s.fw.hubPhase = true ∧ s.fw.mgmtDown = true ∧
  s.clk.refclkOk = true :=
  ⟨fwOf idle fun f => { f with seq := .running, hubPhase := true, mgmtDown := true, target := newSet }, by decide⟩

theorem wit_FwEvents_6 : ∃ (h : HerdId) (s : State), s.fw.seq = .running ∧ s.fw.hubPhase = false ∧ herdDone s h =
  false ∧ slotComes s h = true ∧ (getHerd s h).st = .normal ∧ herdReacts s h = false ∧ compatible s.fw.target.herd
  s.fw.running.hub = true ∧ herdsRun s = true :=
  ⟨0, fwOf idle fun f => { f with seq := .running, target := ⟨f.running.hub, newImg, f.running.ddr⟩ }, by decide⟩

theorem wit_FwEvents_7 : ∃ (h : HerdId) (s : State), s.fw.seq = .running ∧ s.fw.hubPhase = false ∧ herdDone s h =
  false ∧ slotComes s h = true ∧ (getHerd s h).st ≠ .normal ∧ (getHerd s h).st ≠ .fwRestart ∧ h ∉ s.fw.deferred ∧
  compatible s.fw.target.herd s.fw.running.hub = true ∧ herdsRun s = true :=
  ⟨0, fwOf (modHerd idle 0 fun x => { x with st := .safe }) fun f =>
    { f with seq := .running, target := ⟨f.running.hub, newImg, f.running.ddr⟩ }, by decide⟩

theorem wit_FwEvents_8 : ∃ (h : HerdId) (s : State), (getHerd s h).st = .fwRestart ∧ herdsRun s = true :=
  ⟨37, fwOf (h37 idle fun x => { x with st := .fwRestart }) fun f =>
    { f with seq := .running, target := ⟨f.running.hub, newImg, f.running.ddr⟩ }, by decide⟩

theorem wit_FwEvents_9 : ∃ (s : State), s.fw.seq = .running ∧ s.fw.mgmtDown = true ∧ s.clk.refclkOk = true :=
  ⟨fwOf idle fun f => { f with seq := .running, hubPhase := true, mgmtDown := true, target := newSet }, by decide⟩

theorem wit_FwEvents_10 : ∃ (s : State), windowOpen s.fw = true ∧ s.fw.deadline.toNat ≤ s.time.now.toNat ∧
  inService s = true ∧ s.fw.session = none ∧ changed (previousSet s.fw).hub s.fw.running.hub = true ∧
  s.clk.refclkOk = true :=
  ⟨at_ (fwOf idle fun f =>
    { f with seq := .awaiting, deadline := 700, previous := triMap some newSet, prevValid := true }) 700, by
    decide⟩

theorem wit_ChainRows_1 : ∃ (down : Bool) (valid : Bool) (run : Nat) (s : State), chainAlive s = true ∧ (if down
  then s.fw.outLock else s.fw.inLock) = !valid ∧ (if valid then 64 else 16) ≤ run :=
  ⟨false, true, 64, idle, by decide⟩

theorem wit_ChainRows_2 : ∃ (down : Bool) (valid : Bool) (run : Nat) (s : State), (if down then s.fw.outLock else
  s.fw.inLock) = !valid ∧ run < (if valid then 64 else 16) :=
  ⟨false, true, 63, idle, by decide⟩

theorem wit_ChainRows_3 : ∃ (k : ChainCheck) (hdr : ImageHeader) (s : State), chainAlive s = true ∧ receiving s 2 =
  false ∧ k.crcOk = true ∧ k.seq = 0 :=
  ⟨{ crcOk := true, seq := 0 }, img, idle, by decide⟩

theorem wit_ChainRows_4 : ∃ (s : State) (k : ChainCheck) (h : ImageHeader), s.fw.chainHdr = some (k, h) ∧
  chainAlive s = true ∧ headerKey s h = none ∧ headerUnit s h = none ∧ mayStage s = true ∧ stagingClosed s.fw =
  false ∧ (kindOf (hdrKind h)).bind (triGet s.fw.staged) = none :=
  ⟨fwOf (lowReg idle 0x708 3) fun f => { f with chainHdr := some ({ crcOk := true, seq := 0 }, img) },
    { crcOk := true, seq := 0 }, img, rfl, by decide, by simp [headerKey, slotHash, kindOf, maxBody], by decide, by
    decide, by decide, by decide⟩

theorem wit_ChainRows_5 : ∃ (k : ChainCheck) (off : BitVec 32) (n : Nat) (s : State) (x : Session), chainAlive s =
  true ∧ s.fw.session = some x ∧ x.source = 2 ∧ x.program = false ∧ follows x k = true ∧ off.toNat = x.got ∧ 0 < n
  ∧ n ≤ 4092 ∧ x.got + n ≤ hdrBodySize x.header :=
  ⟨{ crcOk := true, seq := 5 }, 10, 990, fwOf idle fun f => { f with session := some (sess 2 10 none false) }, sess
    2 10 none false, by decide, rfl, by decide, by decide, by decide, by decide, by decide, by decide, by decide⟩

theorem wit_ChainRows_6 : ∃ (k : ChainCheck) (sent : BitVec 32) (s : State) (x : Session), chainAlive s = true ∧
  s.fw.session = some x ∧ x.source = 2 ∧ x.program = false ∧ follows x k = true ∧ sent.toNat = x.got ∧ x.got =
  hdrBodySize x.header ∧ x.same = false :=
  ⟨{ crcOk := true, seq := 5 }, 1000, fwOf idle fun f => { f with session := some (sess 2 1000 none false) }, sess
    2 1000 none false, by decide, rfl, by decide, by decide, by decide, by decide, by decide, by decide⟩

theorem wit_ChainRows_7 : ∃ (k : ChainCheck) (a : BitVec 64) (s : State), chainAlive s = true ∧ k.crcOk = true ∧
  stageEn s = true ∧ s.pwr.st ≠ .ibex ∧ stagedChain s.fw = true ∧ s.fw.mgmtDown = false ∧ s.fw.seq ≠ .running ∧
  s.fw.seq ≠ .falling ∧ windowOpen s.fw = false ∧ s.fw.fallback = false ∧ s.time.now.toNat ≤ a.toNat ∧ anyChanged
  (stagedSet s.fw) s.fw.running = true ∧ setCompatible s.fw.running (stagedSet s.fw) = true :=
  ⟨{ crcOk := true, seq := 5 }, 500, at_ (fwOf (lowReg idle 0x708 1) fun f =>
    { f with staged := ⟨some (imgOf img true), none, none⟩, seq := .staged }) 500, by decide⟩

theorem wit_ChainRows_8 : ∃ (k : ChainCheck) (s : State), chainAlive s = true ∧ k.crcOk = true ∧ stageEn s = true ∧
  pendingChain s.fw = true ∧ canConfirm s = true :=
  ⟨{ crcOk := true, seq := 5 }, at_ (fwOf (lowReg idle 0x708 1) fun f =>
    { f with running := ⟨imgOf img true, Img.first, Img.first⟩, previous := ⟨some Img.first, some Img.first, some Img.first⟩, deadline := 501, seq := .awaiting })
    500, by decide⟩

theorem wit_ChainRows_9 : ∃ (tag : BitVec 32) (s : State), inService s = true ∧ tag = Config.deviceTag.setWidth 32
  :=
  ⟨Config.deviceTag.setWidth 32, at_ idle 500, by exact ⟨by decide, rfl⟩⟩

theorem wit_ChainRows_10 : ∃ (s : State) (x : Session), s.fw.session = some x ∧ x.source = 2 ∧ x.program = false ∧
  x.cmd = none ∧ s.clk.refclkOk = true :=
  ⟨fwOf idle fun f => { f with session := some (sess 2 10 none false) }, sess 2 10 none false, rfl, by decide, by
    decide, by decide, by decide⟩

theorem wit_ChainRows_11 : ∃ (k : ChainCheck) (off : BitVec 32) (n : Nat) (s : State) (x : Session), s.pwr.st =
  .ibex ∧ ibexListens s 2 = true ∧ (regVal s 0x700).getLsbD 9 = false ∧ s.fw.session = some x ∧ x.source = 3 ∧
  x.program = false ∧ follows x k = true ∧ off.toNat = x.got ∧ 0 < n ∧ n ≤ 4092 ∧ x.got + n ≤ hdrBodySize x.header
  ∧ s.clk.refclkOk = true :=
  ⟨{ crcOk := true, seq := 5 }, 10, 1, fwOf (inSt idle .ibex) fun f =>
    { f with session := some (sess 3 10 none false), ibexCause := 2 }, sess 3 10 none false, by decide, by decide,
    by decide, rfl, by decide, by decide, by decide, by decide, by decide, by decide, by decide, by decide⟩

theorem wit_SecRows_1 : ∃ (c : Cmd) (n : BitVec 256) (s : State) (r : RingId) (d : DataDesc) (rest : List
  DataDesc), Runs s c ∧ s.sec.ready = true ∧ dataRingOf s c .hub 3 = some r ∧ (getRing s r).bufs = d :: rest ∧
  descOk true d = true ∧ 4096 ≤ d.length.toNat :=
  ⟨cmdOf 0xE01 0x7FFF 2, 7, rig (some (cmdOf 0xE01 0x7FFF 2)) [buf 4096] [], 2, buf 4096, [], by decide⟩

theorem wit_SecRows_2 : ∃ (c : Cmd) (k : Token) (s : State) (r : RingId) (d : DataDesc) (rest : List DataDesc),
  dataRingOf s c .hub 4 = some r ∧ (getRing s r).bufs = d :: rest ∧ descOk false d = true ∧ tokenBad k
  d.length.toNat = none ∧ tokenRefused s k = false ∧ tokenAuth s k = true ∧ tokType k = 1 :=
  ⟨cmdOf 0xE02 0x7FFF 3, token (rig (some (cmdOf 0xE02 0x7FFF 3)) [] [buf 3988]), rig (some (cmdOf 0xE02 0x7FFF 3))
    [] [buf 3988], 3, buf 3988, [], by exact ⟨by decide, rfl, by decide, token_good _, token_allowed _ (by decide),
    token_auth _, token_type _⟩⟩

theorem wit_SecRows_3 : ∃ (s : State) (hash : BitVec 256), s.sec.otp = some (.owner hash) ∧ s.clk.refclkOk = true
  :=
  ⟨{ idle with sec := { idle.sec with otp := some (.owner 9) } }, 9, by decide⟩

theorem wit_SecRows_4 : ∃ (s : State), s.sec.otp = some (.lifecycle 2) ∧ s.clk.refclkOk = true :=
  ⟨{ idle with sec := { idle.sec with otp := some (.lifecycle 2) } }, by decide⟩

theorem wit_SecRows_5 : ∃ (op : JtagOp) (s : State), s.pwr.st ≠ .inPorst :=
  ⟨.hubScan, idle, by decide⟩

theorem wit_SecRows_6 : ∃ (healthy : Bool) (sys : Bool) (s : State), s.pwr.st = .boot 6 sys ∧ firstBoot s = true ∧
  s.sec.seedProg = false ∧ s.clk.refclkOk = true :=
  ⟨true, false, inSt { idle with sec := { idle.sec with keyProg := false, seedProg := false } } (.boot 6 false), by
    decide⟩

theorem wit_BootRows_2 : ∃ (b : BitVec 2) (ce : Bool) (te : Bool) (s : State), s.pwr.st = .inPorst :=
  ⟨3, true, false, inSt idle .inPorst, by decide⟩

theorem wit_BootRows_3 : ∃ (s : State), sysrstIgnored s = false :=
  ⟨p300 (run (cmdOf 1 0x7FFF 0xFFFF)) fun x => { x with st := .up }, by decide⟩

theorem wit_BootRows_4 : ∃ (s : State), s.pwr.st = .inSysrst :=
  ⟨inSt idle .inSysrst, by decide⟩

theorem wit_BootRows_5 : ∃ (o : BootOutcome) (n : Nat) (sys : Bool) (s : State), s.pwr.st = .boot n sys ∧
  s.clk.refclkOk = true ∧ ((n = 2 ∨ n = 8 ∨ n = 10)) :=
  ⟨.ok, 8, true, inSt idle (.boot 8 true), by decide⟩

theorem wit_BootRows_6 : ∃ (o : BootOutcome) (sys : Bool) (s : State), s.pwr.st = .boot 11 sys ∧ s.clk.refclkOk =
  true :=
  ⟨.ok, true, inSt idle (.boot 11 true), by decide⟩

theorem wit_BootRows_7 : ∃ (n : Nat) (sys : Bool) (s : State), s.pwr.st = .boot n sys ∧ 6 ≤ n ∧ n ≤ 10 ∧
  s.fw.bootFails.toNat < 2 ∧ s.clk.refclkOk = true :=
  ⟨10, false, fwOf (inSt idle (.boot 10 false)) fun f => { f with bootFails := 1 }, by decide⟩

theorem wit_BootRows_8 : ∃ (s : State), s.pwr.st = .postHold :=
  ⟨inSt idle .postHold, by decide⟩

theorem wit_PowerCommands_1 : ∃ (c : Cmd) (s : State), refuseTest s = none ∧ fwRuns s = false ∧ allHerds.all (fun h
  => !pathBusy (getHerd s h)) = true ∧ inService s = true ∧ sleepReady s = true ∧ s.clk.refclkOk = true :=
  ⟨cmdOf 0xB01 0x7FFF 0xFFFF, run (cmdOf 0xB01 0x7FFF 0xFFFF), by decide⟩

theorem wit_PowerCommands_2 : ∃ (c : Cmd) (s : State), Runs s c ∧ refuseTest s = none ∧ fwRuns s = false ∧
  allHerds.all (fun h => !pathBusy (getHerd s h)) = true ∧ inService s = true ∧ sleepReady s = false :=
  ⟨cmdOf 0xB01 0x7FFF 0xFFFF, p300 (run (cmdOf 0xB01 0x7FFF 0xFFFF)) fun x =>
    { x with diag := { x.diag with st := .passive } }, by decide⟩

theorem wit_PowerCommands_3 : ∃ (c : Cmd) (s : State), Runs s c ∧ refuseTest s = none ∧ fwRuns s = false ∧ s.pwr.st
  = .sleep ∧ s.pwr.dark = true :=
  ⟨cmdOf 0xB01 0x7FFF 0xFFFF,
    { run (cmdOf 0xB01 0x7FFF 0xFFFF) with pwr := { idle.pwr with st := .sleep, dark := true } }, by decide⟩

theorem wit_PowerCommands_4 : ∃ (c : Cmd) (s : State), Runs s c ∧ refuseTest s = none ∧ fwRuns s = false ∧ s.pwr.st
  = .sleep ∧ s.pwr.dark = true :=
  ⟨cmdOf 0xB01 0x7FFF 0xFFFF,
    { run (cmdOf 0xB01 0x7FFF 0xFFFF) with pwr := { idle.pwr with st := .sleep, dark := true } }, by decide⟩

theorem wit_PowerCommands_5 : ∃ (c : Cmd) (s : State), refuseTest s = none ∧ fwRuns s = false ∧ inService s = true
  :=
  ⟨cmdOf 0xB01 0x7FFF 0xFFFF, run (cmdOf 0xB01 0x7FFF 0xFFFF), by decide⟩

theorem wit_LevelAndTimerEvents_1 : ∃ (d : DieId) (n : Nat) (s : State), (getDie s d).step = some n ∧
  s.clk.refclkOk = true :=
  ⟨7, 1, setDie idle 7 { getDie idle 7 with step := some 1, target := 1 }, by decide⟩

theorem wit_LevelAndTimerEvents_2 : ∃ (s : State), s.pwr.st = .run ∧ regVal s 0x400 ≠ 0 ∧ s.clk.refclkOk = true :=
  ⟨lowReg idle 0x400 1, by decide⟩

theorem wit_LevelAndTimerEvents_3 : ∃ (a : HostAccess) (s : State), busUp s = true ∧ s.pwr.st = .idle :=
  ⟨.configRead .id, inSt idle .idle, by decide⟩

theorem wit_LevelAndTimerEvents_4 : ∃ (s : State), s.clk.refclkOk = true ∧ inService s = true ∧ regVal s 0x404 ≠ 0
  ∧ sleepReady s = true :=
  ⟨lowReg idle 0x404 1, by decide⟩

theorem wit_LevelAndTimerEvents_5 : ∃ (s : State), s.clk.refclkOk = true ∧ s.pwr.st = .sleep ∧ s.pwr.deepCnt = true
  ∧ s.pwr.dark = true :=
  ⟨{ idle with pwr := { idle.pwr with st := .sleep, deepCnt := true, dark := true } }, by decide⟩

theorem wit_LevelAndTimerEvents_6 : ∃ (s : State), busUp s = true ∧ s.pwr.padsHeld = true :=
  ⟨{ idle with pwr := { idle.pwr with padsHeld := true } }, by decide⟩

theorem wit_PowerEntries_1 : ∃ (s : State), s.pwr.st = .entering 2 ∧ s.pwr.dark = false ∧ s.pwr.latched = none ∧
  s.pwr.pending = none ∧ s.clk.refclkOk = true :=
  ⟨inSt idle (.entering 2), by decide⟩

theorem wit_PowerEntries_2 : ∃ (s : State), s.pwr.st = .entering 3 ∧ s.pwr.dark = true ∧ s.pwr.latched = none ∧
  s.clk.refclkOk = true :=
  ⟨{ idle with pwr := { idle.pwr with st := .entering 3, dark := true } }, by decide⟩

theorem wit_PowerEntries_3 : ∃ (s : State), s.pwr.st = .entering 4 ∧ s.pwr.latched = none ∧ s.clk.refclkOk = true
  :=
  ⟨inSt idle (.entering 4), by decide⟩

theorem wit_PowerEntries_4 : ∃ (s : State), s.pwr.st = .off ∧ s.clk.refclkOk = true :=
  ⟨inSt idle .off, by decide⟩

theorem wit_PowerEntries_5 : ∃ (s : State), s.pwr.st = .entering 4 ∧ s.pwr.latched = none ∧ s.clk.refclkOk = true
  :=
  ⟨inSt idle (.entering 4), by decide⟩

theorem wit_PowerEntries_6 : ∃ (addr : BitVec 7) (s : State), s.pwr.st = .deepSleep ∧ addr = s.pwr.sideAddr ∧
  (regVal s 0x700).getLsbD 8 = true :=
  ⟨0x4A, only (inSt { idle with pwr := { idle.pwr with sideAddr := 0x4A } } .deepSleep) 0x700 0x34B, by decide⟩

theorem wit_PowerEntries_7 : ∃ (m : BitVec 4) (reads : List (PortId × CtxKey × CtxRead)) (s : State), s.pwr.st =
  .restoring 2 ∧ s.clk.refclkOk = true :=
  ⟨0, [], inSt idle (.restoring 2), by decide⟩

theorem wit_PowerEntries_8 : ∃ (m : BitVec 4) (reads : List (PortId × CtxKey × CtxRead)) (s : State), s.pwr.st =
  .restoring 3 ∧ s.clk.refclkOk = true :=
  ⟨5, [], inSt idle (.restoring 3), by decide⟩

theorem wit_PowerEntries_9 : ∃ (m : BitVec 4) (reads : List (PortId × CtxKey × CtxRead)) (s : State), s.pwr.st =
  .restoring 4 ∧ s.clk.refclkOk = true :=
  ⟨0, [], inSt (at_ idle 900) (.restoring 4), by decide⟩

theorem wit_ClockRows_1 : ∃ (u : PllId) (k : PllKind) (s : State), pllKind u = some k ∧ pllOn s k = true ∧ (getPll
  s (pllId k)).locked = false ∧ 2 ≤ (getPll s (pllId k)).good :=
  ⟨⟨8, 37⟩, .herd 37, pllAt idle ⟨8, 37⟩ { locked := false, good := 2, retuning := false }, by decide⟩

theorem wit_ClockRows_2 : ∃ (u : PllId) (k : PllKind) (s : State), pllKind u = some k ∧ pllOn s k = true ∧ (getPll
  s (pllId k)).locked = true :=
  ⟨⟨5, 9⟩, .ddr 0, idle, by decide⟩

theorem wit_ClockRows_3 : ∃ (u : PllId) (k : PllKind) (s : State), pllKind u = some k ∧ pllOn s k = true ∧ (getPll
  s (pllId k)).locked = true :=
  ⟨⟨11, 7⟩, .ucie 7, idle, by decide⟩

theorem wit_ClockRows_4 : ∃ (u : PllId) (k : PllKind) (s : State), pllKind u = some k ∧ (getPll s (pllId k)).locked
  = false ∧ s.clk.refclkOk = true :=
  ⟨⟨1, 0⟩, .root, pllAt idle ⟨1, 0⟩ { locked := false, good := 2, retuning := false }, by decide⟩

theorem wit_ClockRows_5 : ∃ (d : Domain) (toPll : Bool) (s : State), (getSwitch s d).running = some toPll ∧
  (getSwitch s d).waiting = none ∧ s.clk.refclkOk = true ∧ (toPll && !(getPll s (domainPll d)).locked) = false :=
  ⟨.herdDsp 63, true, setSwitch idle (.herdDsp 63) { onPll := false, running := some true, waiting := none }, by
    decide⟩

theorem wit_ClockRows_6 : ∃ (d : Domain) (toPll : Bool) (s : State), (getSwitch s d).running = some toPll ∧
  s.clk.refclkOk = true :=
  ⟨.hubCore, false, setSwitch idle .hubCore { onPll := true, running := some false, waiting := none }, by decide⟩

theorem wit_ClockRows_7 : ∃ (s : State), s.pwr.st ≠ .off ∧ s.clk.refclkOk = true :=
  ⟨idle, by decide⟩

theorem wit_ClockRows_8 : ∃ (s : State), s.clk.refclkOk = false ∧ s.pwr.st ≠ .deepSleep :=
  ⟨{ idle with clk := { idle.clk with refclkOk := false } }, by decide⟩

theorem wit_SupplyRows_1 : ∃ (r : RailId) (mv : BitVec 16) (s : State), s.clk.refclkOk = true ∧ (getRail s r).out =
  false ∧ railsWatched s = true ∧ inWindow s r mv = false ∧ fixedRail r = false :=
  ⟨6, 700, idle, by decide⟩

theorem wit_SupplyRows_2 : ∃ (r : RailId) (mv : BitVec 16) (s : State), s.clk.refclkOk = true ∧ (getRail s r).out =
  false ∧ railsWatched s = true ∧ inWindow s r mv = false ∧ fixedRail r = true ∧ (fltUnit (fixedSource (.supply
  r))).all (fun u => !fltIgnored s u) = true ∧ tabGet false s.flt.raised (fixedSource (.supply r)) = false :=
  ⟨14, 700, idle, by decide⟩

theorem wit_SupplyRows_3 : ∃ (r : RailId) (mv : BitVec 16) (s : State), s.clk.refclkOk = true ∧ (getRail s r).out =
  true ∧ railsWatched s = true ∧ inWindow s r mv = true :=
  ⟨0, 800, setRail idle 0 { getRail idle 0 with out := true }, by decide⟩

theorem wit_SupplyRows_4 : ∃ (s : State), s.clk.refclkOk = true ∧ railsWatched s = true ∧ tabGet false s.flt.raised
  0xA00 = false ∧ tabGet false s.flt.network 0xA00 = false :=
  ⟨idle, by decide⟩

theorem wit_SupplyRows_5 : ∃ (s : State), tabGet false s.flt.raised 0xA21 = false :=
  ⟨idle, by decide⟩

theorem wit_SupplyRows_6 : ∃ (s : State), s.clk.refclkOk = true ∧ s.flt.fixedHold = true ∧ s.flt.latch ≠ [] :=
  ⟨fltOf idle fun f => { f with fixedHold := true, latch := [(.refclk, 0, 0)], raised := [(0xA10, true)] }, by
    decide⟩

theorem wit_SupplyRows_7 : ∃ (s : State), s.clk.refclkOk = true ∧ s.flt.fixedHold = true ∧ s.flt.latch = [] ∧
  s.flt.fixedRecs.all (fun n => !(s.flt.volatile.any fun r => r.record == n && unacked r)) = true :=
  ⟨fltOf idle fun f => { f with fixedHold := true, fixedRecs := [1], volatile := [{ rec37 with acked := true }] },
    by decide⟩

theorem wit_SupplyRows_8 : ∃ (p : PortId) (x : BitVec 16) (s : State), herdsRun s = true :=
  ⟨300, 0x7FFF, idle, by decide⟩

theorem wit_SupplyRows_9 : ∃ (d : DieId) (x : BitVec 16) (s : State), s.clk.refclkOk = true ∧ linePowered s = true
  :=
  ⟨7, 900, idle, by decide⟩

theorem wit_SupplyRows_10 : ∃ (x : BitVec 16) (s : State), s.clk.refclkOk = true ∧ hubPowered s = true :=
  ⟨900, idle, by decide⟩

theorem wit_CalRows_1 : ∃ (c : Cmd) (p : PortId) (tasks : BitVec 8) (s : State), Runs s c ∧ myTurn s c = true ∧
  calGate s (.port p) = none ∧ tasks.toNat ≤ 0x1F ∧ calRefuses s p (forced c) = none ∧ (((getPort s p).st =
  .disabled ∨ (getPort s p).st = .hold)) :=
  ⟨cmdOf 0x601 300 0xFFFF, 300, 0, run (cmdOf 0x601 300 0xFFFF), by decide⟩

theorem wit_CalRows_2 : ∃ (c : Cmd) (h : HerdId) (tasks : BitVec 8) (s : State), myTurn s c = true ∧ calGate s
  (.herd h) = none ∧ tasks.toNat ≤ 0x1F ∧ (portsOf h).findSome? (fun p => calRefuses s p (forced c)) = none :=
  ⟨cmdOf 0x601 0x4025 0xFFFF, 37, 0x1F, run (cmdOf 0x601 0x4025 0xFFFF), by decide⟩

theorem wit_CalRows_3 : ∃ (p : PortId) (s : State), calRuns s p = true ∧ calPeriods (getPort s p).mode ≤ (getPort s
  p).calMarks :=
  ⟨300, p300 idle fun x => { x with st := .t3, calRot := 3, calMarks := 224 }, by decide⟩

theorem wit_CalRows_4 : ∃ (d : DieId) (trig : BitVec 8) (s : State), (getDie s d).calRun = some trig ∧
  s.clk.refclkOk = true ∧ linePowered s = true :=
  ⟨7, 1, setDie idle 7 { getDie idle 7 with calRun := some 1 }, by decide⟩

theorem wit_CalRows_5 : ∃ (p : PortId) (r : CalRun) (k : Fin 5) (j : Fin 5) (s : State), (getPort s p).cal = some r
  ∧ r.inLpi = false ∧ calTask r = some k ∧ calTask { r with done := r.done ||| BitVec.ofNat 8 (2 ^ k.val) } = some
  j ∧ herdsRun s = true :=
  ⟨300, calOf, 0, 3, p300 idle fun x => { x with cal := some calOf }, by decide⟩

theorem wit_CalRows_6 : ∃ (p : PortId) (r : CalRun) (s : State), (getPort s p).cal = some r ∧ r.inLpi = true ∧
  (getPort s p).lpi.st = .quiet ∧ 1 < r.unitsLeft ∧ (calTask r).isSome = true ∧ unitFits s (getPort s p) r = true ∧
  herdsRun s = true :=
  ⟨300, { calOf with inLpi := true, unitsLeft := 2 }, p300 idle fun x =>
    { x with cal := some { calOf with inLpi := true, unitsLeft := 2 }, lpi := { x.lpi with st := .quiet } }, by
    decide⟩

theorem wit_BistRows_1 : ∃ (c : Cmd) (h : HerdId) (s : State), testTurn s c = true ∧ herdGate s h = none ∧
  testedHerd s = none ∧ (portsOf h).all (fun p => (getPort s p).st == .disabled) = true ∧ commitRuns s h = false :=
  ⟨cmdOf 0x701 0x4025 0xFFFF, 37, run (cmdOf 0x701 0x4025 0xFFFF), by decide⟩

theorem wit_BistRows_2 : ∃ (h : HerdId) (o : BistOutcome) (reads : List (PortId × CtxKey × CtxRead)) (b : BistRun)
  (s : State), (getHerd s h).st = .selfTest ∧ (getHerd s h).test = some b ∧ b.step = 3 ∧ herdsRun s = true :=
  ⟨37, { logicFail := 4, memFails := [] }, [], bistAt 3, tested 3, by decide⟩

theorem wit_BistRows_3 : ∃ (h : HerdId) (o : BistOutcome) (reads : List (PortId × CtxKey × CtxRead)) (b : BistRun)
  (s : State), (getHerd s h).st = .selfTest ∧ (getHerd s h).test = some b ∧ b.step = 4 ∧ b.memFails = [] ∧
  o.memFails = [⟨BitVec.ofNat 16 h.val, 7, 12, 3, true⟩] ∧ s.nv.repairs.length < 4096 ∧ Repair.mk (BitVec.ofNat 16
  h.val) 7 12 3 ∉ s.nv.repairs ∧ herdsRun s = true :=
  ⟨37, { logicFail := 0, memFails := [⟨37, 7, 12, 3, true⟩] }, [], bistAt 4, tested 4, by decide⟩

theorem wit_BistRows_4 : ∃ (h : HerdId) (o : BistOutcome) (reads : List (PortId × CtxKey × CtxRead)) (b : BistRun)
  (s : State), (getHerd s h).st = .selfTest ∧ (getHerd s h).test = some b ∧ b.step = 7 ∧ b.logicFail = 0 ∧
  b.memFails.any unrepaired = false ∧ herdsRun s = true :=
  ⟨37, { logicFail := 0, memFails := [] }, [], bistAt 7, tested 7, by decide⟩

theorem wit_BistRows_5 : ∃ (h : HerdId) (o : BistOutcome) (reads : List (PortId × CtxKey × CtxRead)) (b : BistRun)
  (s : State), (getHerd s h).st = .selfTest ∧ (getHerd s h).test = some b ∧ b.step = 7 ∧ b.logicFail ≠ 0 ∧ herdsRun
  s = true :=
  ⟨37, { logicFail := 0, memFails := [] }, [], { bistAt 7 with logicFail := 1 }, h37 idle fun x =>
    { x with st := .selfTest, test := some { bistAt 7 with logicFail := 1 } }, by decide⟩

theorem wit_BistRows_6 : ∃ (h : HerdId) (s : State) (fs : List Fld) (r : RingId) (d : DataDesc) (rest : List
  DataDesc), (getHerd s h).waitRec = some fs ∧ activeRing s 3 (.herd h) = some r ∧ (getRing s r).bufs = d :: rest ∧
  descOk true d = true ∧ 320 ≤ d.length.toNat ∧ s.clk.refclkOk = true :=
  ⟨37, { h37 idle (fun x => { x with waitRec := some [(0, 2, 37)] }) with regs := [(0x400088, 0x9533)] }, [(0, 2,
    37)], 2, buf 8192, [], by decide⟩

theorem wit_FaultRows_1 : ∃ (c : Cmd) (source : BitVec 16) (n : BitVec 16) (base : BitVec 8) (pin : BitVec 8) (w :
  BitVec 32) (s : State), Runs s c ∧ (fltUnit source.toNat).isSome = true ∧ base.toNat ≤ 3 ∧ pin.toNat ≤ 1 ∧ n ≠ 0
  ∧ w ≠ 0 ∧ w.toNat ≤ 3600000000 :=
  ⟨cmdOf 0xC01 0x7FFF 0xFFFF, 0x894, 5, 3, 0, 3600000000, run (cmdOf 0xC01 0x7FFF 0xFFFF), by decide⟩

theorem wit_FaultRows_2 : ∃ (c : Cmd) (n : BitVec 16) (base : BitVec 8) (pin : BitVec 8) (w : BitVec 32) (s :
  State), Runs s c ∧ base.toNat ≤ 3 ∧ pin.toNat ≤ 1 ∧ n ≠ 0 ∧ w ≠ 0 ∧ w.toNat ≤ 3600000000 :=
  ⟨cmdOf 0xC01 0x7FFF 0xFFFF, 1, 0, 1, 1, run (cmdOf 0xC01 0x7FFF 0xFFFF), by decide⟩

theorem wit_FaultRows_3 : ∃ (c : Cmd) (record : BitVec 32) (q : FltRec) (s : State), Runs s c ∧
  (s.flt.volatile.filter unacked).find? (fun r => r.record == record) = some q ∧ causeHolds s q = false ∧
  s.flt.safe = [] ∧ s.flt.fixedHold = false :=
  ⟨cmdOf 0xC02 0x7FFF 0xFFFF, 1, rec37, fltOf (run (cmdOf 0xC02 0x7FFF 0xFFFF)) fun f =>
    { f with volatile := [rec37], persist := [rec37] }, by decide⟩

theorem wit_FaultRows_4 : ∃ (c : Cmd) (log : BitVec 8) (first : BitVec 32) (count : BitVec 32) (bad : List Nat)
  (ecc : List (BitVec 32)) (b : Taken) (s : State), Runs s c ∧ (log = 0 ∨ (log = 1 ∧ bad = [])) ∧ count ≠ 0 ∧
  (takeIn s (dataRingOf s c .hub 3) (32 * count.toNat)).got = some b ∧ (getRing s b.ring).dmaBad = false :=
  ⟨cmdOf 0xC03 0x7FFF 2, 1, 1, 256, [], [64], { ring := 2, index := 0, desc := buf 8192 }, fltOf (run (cmdOf 0xC03
    0x7FFF 2)) fun f => { f with persist := [rec37], logged := 1 }, by decide⟩

theorem wit_FaultRows_5 : ∃ (c : Cmd) (first : BitVec 32) (count : BitVec 32) (bad : List Nat) (ecc : List (BitVec
  32)) (r : RingId) (d : DataDesc) (rest : List DataDesc) (s : State), Runs s c ∧ bad ≠ [] ∧ count ≠ 0 ∧ dataRingOf
  s c .hub 3 = some r ∧ ringBindKind s r ≠ 2 ∧ (getRing s r).bufs = d :: rest ∧ descOk true d = true ∧ 32 *
  count.toNat ≤ d.length.toNat ∧ (getRing s r).dmaBad = false :=
  ⟨cmdOf 0xC03 0x7FFF 2, 1, 256, [0], [], 2, buf 8192, [], fltOf (run (cmdOf 0xC03 0x7FFF 2)) fun f =>
    { f with persist := [rec37], logged := 1 }, by decide⟩

theorem wit_FaultRows_6 : ∃ (source : BitVec 16) (detail : BitVec 32) (s : State), raises s
  { source := source.toNat, detail := detail, injected := false, network := false } = true ∧ s.clk.refclkOk = true
  :=
  ⟨0x902, 7, idle, by decide⟩

theorem wit_FaultRows_7 : ∃ (source : BitVec 16) (s : State), raises s
  { source := source.toNat, detail := 0, injected := false, network := true } = true ∧ s.clk.refclkOk = true :=
  ⟨0xA72, idle, by decide⟩

theorem wit_FaultRows_8 : ∃ (source : BitVec 16) (s : State), s.clk.refclkOk = true :=
  ⟨0x894, fltOf idle fun f => { f with raised := [(0x894, true)] }, by decide⟩

theorem wit_FaultRows_9 : ∃ (p : PortId) (w : Shadow) (s : State), s.flt.running = some w ∧ w.scope = .port p ∧
  s.flt.deferred = [] ∧ s.flt.safe.all (fun x => !allAcked s x) = true ∧ s.clk.refclkOk = true ∧ s.flt.fixedHold =
  false :=
  ⟨300, ⟨.port 300, 1, 0⟩, fltOf idle fun f =>
    { f with running := some ⟨.port 300, 1, 0⟩, runCode := 1, volatile := [rec37], safe := [{ scope := .port 300, records := [1] }] },
    by decide⟩

theorem wit_FaultRows_10 : ∃ (w : Shadow) (s : State), w ∈ s.flt.shadows ∧ s.flt.shadows.all (fun v => v == w ||
  decide (w.ends < v.ends)) = true ∧ s.clk.refclkOk = true :=
  ⟨⟨.herd 37, 1, 5⟩, fltOf idle fun f => { f with shadows := [⟨.device, 2, 9⟩, ⟨.herd 37, 1, 5⟩] }, by decide⟩

theorem wit_FaultRows_11 : ∃ (s : State), s.flt.shadows = [] :=
  ⟨idle, by decide⟩

theorem wit_DoorbellRows_1 : ∃ (r : RingId) (word : BitVec 32) (descs : List (List Byte)) (s : State), busUp s =
  true ∧ s.fw.mgmtDown = false ∧ s.pwr.st = .run ∧ (getRing s r).st = .active ∧ ringType s r = 0 ∧ fld word 0 16 <
  ringSize s r ∧ ((getRing s r).host.toNat + ringSize s r - (getRing s r).dev.toNat) % ringSize s r + (fld word 0
  16 + ringSize s r - (getRing s r).host.toNat) % ringSize s r < ringSize s r :=
  ⟨0, 2, [(List.replicate 64 0).set 0 1, (List.replicate 64 0).set 0 1], rig none [] [], by decide⟩

theorem wit_DoorbellRows_2 : ∃ (r : RingId) (word : BitVec 32) (descs : List (List Byte)) (s : State), busUp s =
  true ∧ s.fw.mgmtDown = false ∧ s.pwr.st = .run ∧ (getRing s r).st = .active ∧ (ringType s r = 3 ∨ ringType s r =
  4) ∧ ((getRing s r).bufs ++ (entries ((fld word 0 16 + ringSize s r - (getRing s r).host.toNat) % ringSize s r)
  descs).map dataDescOf).all (descOk (isInRing s r)) = true ∧ fld word 0 16 < ringSize s r ∧ ((getRing s
  r).host.toNat + ringSize s r - (getRing s r).dev.toNat) % ringSize s r + (fld word 0 16 + ringSize s r - (getRing
  s r).host.toNat) % ringSize s r < ringSize s r :=
  ⟨2, 1, [(List.replicate 32 0).set 9 16], rig none [] [], by decide⟩

theorem wit_DoorbellRows_3 : ∃ (r : RingId) (word : BitVec 32) (descs : List (List Byte)) (s : State), busUp s =
  true ∧ s.fw.mgmtDown = false ∧ (getRing s r).st = .active ∧ (ringType s r = 0 ∨ ringType s r = 3 ∨ ringType s r =
  4) ∧ ringSize s r ≤ fld word 0 16 :=
  ⟨0, 64, [], rig none [] [], by decide⟩

theorem wit_DoorbellRows_4 : ∃ (r : RingId) (word : BitVec 32) (descs : List (List Byte)) (s : State), busUp s =
  true ∧ s.fw.mgmtDown = false ∧ (getRing s r).st = .active ∧ (ringType s r = 1 ∨ ringType s r = 2) ∧ fld word 0 16
  < ringSize s r ∧ (fld word 0 16 + ringSize s r - (getRing s r).host.toNat) % ringSize s r ≤ unconsumed s r :=
  ⟨1, 0x10003, [], modRing (rig none [] []) 1 fun x => { x with dev := 5 }, by decide⟩

theorem wit_DoorbellRows_5 : ∃ (r : RingId) (word : BitVec 32) (descs : List (List Byte)) (s : State), busUp s =
  true ∧ s.fw.mgmtDown = true ∧ s.pwr.st = .run :=
  ⟨0, 1, [(List.replicate 64 0).set 0 1], fwOf (rig none [] []) fun f => { f with mgmtDown := true }, by decide⟩

theorem wit_DoorbellRows_6 : ∃ (r : RingId) (q : RingId) (v : BitVec 32) (w : BitVec 32) (work : List Handed) (s :
  State), busUp s = true ∧ q.val = r.val + 1 :=
  ⟨2, 3, 1, 2, [⟨2, [[]]⟩, ⟨3, [[], []]⟩], rig none [] [], by decide⟩

theorem wit_DoorbellRows_7 : ∃ (addr : BitVec 18) (bytes : List Byte) (work : List Handed) (s : State), busUp s =
  true ∧ bytes.length < 4 :=
  ⟨0, [1, 2, 3], [], rig none [] [], by decide⟩

theorem wit_DoorbellRows_8 : ∃ (r : RingId) (d : CmdDesc) (rest : List CmdDesc) (g : Target) (s : State), canWrite
  s = true ∧ (getRing s r).st = .active ∧ ringType s r = 0 ∧ (getRing s r).running = none ∧ (getRing s r).cmds = d
  :: rest ∧ (localRing s r && (blocksOff s || enteringLow s)) = false ∧ (getRing (headReady s r) r).entry = true ∧
  engineCheck (headReady s r) r (headCmd r (getRing s r).dev d) d = none ∧ targetOf d.target = some g ∧ targetHolds
  (headReady s r) g = false ∧ rotaTurn (headReady s r) r g = true ∧ modeBad (headReady s r) d g = none :=
  ⟨0,
    { opcode := 0x0F01, flags := 0, target := 0x7FFF, dataRing := 0xFFFF, tag := 9, params := List.replicate 48 0 },
    [], .hub, (setRing (rig none [] []) 0
    { Ring.reset with st := .active, host := 1, cmds := [{ opcode := 0x0F01, flags := 0, target := 0x7FFF, dataRing := 0xFFFF, tag := 9, params := List.replicate 48 0 }] }),
    by decide⟩

theorem wit_DoorbellRows_9 : ∃ (r : RingId) (d : CmdDesc) (rest : List CmdDesc) (e : BitVec 8 × BitVec 64) (s :
  State), canWrite s = true ∧ (getRing s r).st = .active ∧ ringType s r = 0 ∧ (getRing s r).running = none ∧
  (getRing s r).cmds = d :: rest ∧ (localRing s r && (blocksOff s || enteringLow s)) = false ∧ (getRing (headReady
  s r) r).entry = true ∧ engineCheck (headReady s r) r (headCmd r (getRing s r).dev d) d = some e :=
  ⟨0,
    { opcode := 0x0F01, flags := 2, target := 0x7FFF, dataRing := 0xFFFF, tag := 9, params := List.replicate 48 0 },
    [], (stBadParam, resField 2), (setRing (rig none [] []) 0
    { Ring.reset with st := .active, host := 1, cmds := [{ opcode := 0x0F01, flags := 2, target := 0x7FFF, dataRing := 0xFFFF, tag := 9, params := List.replicate 48 0 }] }),
    by decide⟩

theorem wit_DoorbellRows_10 : ∃ (off : BitVec 26) (write : Bool) (s : State), busUp s = true :=
  ⟨0x301, true, idle, by decide⟩

theorem wit_DoorbellRows_11 : ∃ (r : RingId) (s : State), (getRing s r).running ≠ none :=
  ⟨0, run (cmdOf 0x103 300 0xFFFF), by decide⟩

theorem wit_RingStateRows_1 : ∃ (r : RingId) (s : State), busUp s = true ∧ (getRing s r).st = .disabled ∧
  enableCause s r = none :=
  ⟨1, setRing (rig none [] []) 1 { Ring.reset with st := .disabled }, by decide⟩

theorem wit_RingStateRows_2 : ∃ (r : RingId) (n : Nat) (s : State), busUp s = true ∧ (getRing s r).st = .disabled ∧
  enableCause s r = some n :=
  ⟨0, 3, setRing (setRing (rig none [] []) 1 Ring.reset) 0 Ring.reset, by decide⟩

theorem wit_RingStateRows_3 : ∃ (r : RingId) (s : State), busUp s = true ∧ (getRing s r).st = .active ∧ ringType s
  r = 0 :=
  ⟨0, (setRing (rig none [] []) 0
    { Ring.reset with st := .active, host := 1, cmds := [{ opcode := 0x0F01, flags := 0, target := 0x7FFF, dataRing := 0xFFFF, tag := 9, params := List.replicate 48 0 }] }),
    by decide⟩

theorem wit_RingStateRows_4 : ∃ (r : RingId) (s : State), busUp s = true ∧ (getRing s r).st = .active ∧ ringType s
  r = 1 :=
  ⟨1, rig none [] [], by decide⟩

theorem wit_RingStateRows_5 : ∃ (r : RingId) (s : State), busUp s = true ∧ (getRing s r).st = .active ∧ (ringType s
  r = 3 ∨ ringType s r = 4) :=
  ⟨2, idle, by decide⟩

theorem wit_RingStateRows_6 : ∃ (r : RingId) (s : State), busUp s = true ∧ ((getRing s r).st = .error ∨ ((getRing s
  r).st = .active ∧ ringType s r = 2)) :=
  ⟨0,
    { only State.reset 0x400008 0x32 with io := { State.reset.io with busMaster := true, rings := [(0, { Ring.reset with st := .active })] } },
    by decide⟩

theorem wit_RingStateRows_7 : ∃ (r : RingId) (s : State), (getRing s r).st = .draining ∧ drained s r = true ∧
  s.clk.refclkOk = true :=
  ⟨0, setRing (rig none [] []) 0 { Ring.reset with st := .draining }, by decide⟩

theorem wit_RingStateRows_8 : ∃ (r : RingId) (s : State), (getRing s r).st = .active ∧ s.clk.refclkOk = true :=
  ⟨0, (setRing (rig none [] []) 0
    { Ring.reset with st := .active, host := 1, cmds := [{ opcode := 0x0F01, flags := 0, target := 0x7FFF, dataRing := 0xFFFF, tag := 9, params := List.replicate 48 0 }] }),
    by decide⟩

theorem wit_RingStateRows_9 : ∃ (r : RingId) (k : Taken) (l : List Taken) (s : State), (getRing s r).taken = k :: l
  ∧ k.ring = r ∧ s.io.snaps.find? (fun n => n.buf == k) = none ∧ s.clk.refclkOk = true :=
  ⟨2, { ring := 2, index := 4, desc := buf 64 }, [], modRing idle 2 fun x =>
    { x with taken := [{ ring := 2, index := 4, desc := buf 64 }] }, by decide⟩

theorem wit_FunctionRows_1 : ∃ (v : Fin 2048) (s : State), (getVec s v.val).holdoff = true ∧ (getVec s v.val).rings
  ≠ [] ∧ s.io.msixEnable = true ∧ (getVec s v.val).masked = false ∧ s.io.fnMask = false ∧ canWrite s = true ∧
  s.clk.refclkOk = true :=
  ⟨5,
    { State.reset with io := { State.reset.io with busMaster := true, msixEnable := true, vecs := [(5, { masked := false, pending := false, rings := [1], holdoff := true, addr := 0xFEE0, data := 5 })] } },
    by decide⟩

theorem wit_FunctionRows_2 : ∃ (v : Fin 2048) (s : State), (getVec s v.val).holdoff = true ∧ (getVec s v.val).rings
  ≠ [] ∧ s.io.msixEnable = true ∧ (getVec s v.val).masked = true ∧ s.clk.refclkOk = true :=
  ⟨5,
    { State.reset with io := { State.reset.io with busMaster := true, msixEnable := true, vecs := [(5, { masked := true, pending := false, rings := [1], holdoff := true, addr := 0xFEE0, data := 5 })] } },
    by decide⟩

theorem wit_FunctionRows_3 : ∃ (v : Fin 2048) (s : State), busUp s = true ∧ s.pwr.st = .run ∧ (getVec s
  v.val).pending = true ∧ s.io.msixEnable = true ∧ s.io.fnMask = false ∧ canWrite s = true :=
  ⟨5,
    { State.reset with io := { State.reset.io with busMaster := true, msixEnable := true, vecs := [(5, { masked := true, pending := true, rings := [1], holdoff := true, addr := 0xFEE0, data := 5 })] } },
    by decide⟩

theorem wit_FunctionRows_4 : ∃ (v : Fin 2048) (s : State), busUp s = true ∧ s.pwr.st = .run :=
  ⟨5,
    { State.reset with io := { State.reset.io with busMaster := true, msixEnable := true, vecs := [(5, { masked := false, pending := true, rings := [1], holdoff := true, addr := 0xFEE0, data := 5 })] } },
    by decide⟩

theorem wit_FunctionRows_5 : ∃ (b : Bool) (s : State), busUp s = true :=
  ⟨true, idle, by decide⟩

theorem wit_FunctionRows_6 : ∃ (b : Bool) (s : State), busUp s = true :=
  ⟨true, idle, by decide⟩

theorem wit_FunctionRows_7 : ∃ (s : State), busUp s = true :=
  ⟨idle, by decide⟩

theorem wit_FunctionRows_8 : ∃ (s : State), busUp s = true :=
  ⟨idle, by decide⟩

theorem wit_FunctionRows_9 : ∃ (b : Bool) (s : State), busUp s = true :=
  ⟨false, idle, by decide⟩

theorem wit_EventRows_1 : ∃ (e : Event) (l : List Event) (r : RingId) (s : State), canWrite s = true ∧
  s.io.hubBuf.recs = e :: l ∧ eventRing s e.source = some r ∧ 0 < freeEntries s r ∧ e.names = none ∧ s.clk.refclkOk
  = true :=
  ⟨{ source := 8192 + 32, conseq := false, gen := 1, time := 0, payload := [], names := none }, [], 0,
    { only State.reset 0x400008 0x32 with io := { State.reset.io with busMaster := true, rings := [(0, { Ring.reset with st := .active, phase := true })], hubBuf := { recs := [{ source := 8192 + 32, conseq := false, gen := 1, time := 0, payload := [], names := none }], collapsed := false } } },
    by decide⟩

theorem wit_EventRows_2 : ∃ (h : HerdId) (e : Event) (l : List Event) (r : RingId) (s : State), canWrite s = true ∧
  hubListens s h = true ∧ (getHerdBuf s h).recs = e :: l ∧ eventRing s e.source = some r ∧ 0 < freeEntries s r ∧
  e.names = none ∧ s.clk.refclkOk = true :=
  ⟨37, { source := 16 * 300 + 3, conseq := false, gen := 1, time := 0, payload := [], names := none }, [], 0,
    { only State.reset 0x400008 0x32 with io := { State.reset.io with busMaster := true, rings := [(0, { Ring.reset with st := .active, phase := true })], herdBuf := [(37, { recs := [{ source := 16 * 300 + 3, conseq := false, gen := 1, time := 0, payload := [], names := none }], collapsed := false })] } },
    by decide⟩

theorem wit_EventRows_3 : ∃ (source : Fin 8448) (kind : Fin 4) (e : Event) (s : State), (getInterval s (4 *
  source.val + kind.val)).open_ = true ∧ (getInterval s (4 * source.val + kind.val)).held = some e ∧ 8192 ≤
  e.source ∧ (eventRing s e.source).isSome = true ∧ s.clk.refclkOk = true :=
  ⟨8224, 0, { source := 8192 + 32, conseq := false, gen := 1, time := 0, payload := [], names := none },
    { only State.reset 0x400008 0x32 with io := { State.reset.io with busMaster := true, rings := [(0, { Ring.reset with st := .active, phase := true })], srcs := [(32896, { open_ := true, held := some { source := 8192 + 32, conseq := false, gen := 1, time := 0, payload := [], names := none }, count := 4 })] } },
    by decide⟩

theorem wit_EventRows_4 : ∃ (source : Fin 8448) (kind : Fin 4) (s : State), (getInterval s (4 * source.val +
  kind.val)).held = none ∧ s.clk.refclkOk = true :=
  ⟨0, 3, { idle with io := { idle.io with srcs := [(3, { open_ := true, held := none, count := 0 })] } }, by
    decide⟩

theorem wit_EventRows_5 : ∃ (d : DieId) (s : State), (getDie s d).d2dUp = true ∧ s.clk.refclkOk = true ∧
  linePowered s = true :=
  ⟨7, idle, by decide⟩

theorem wit_EventRows_6 : ∃ (d : DieId) (s : State), (getDie s d).d2dUp = false ∧ (getPll s (pllUcie d)).locked =
  true ∧ s.clk.refclkOk = true ∧ linePowered s = true :=
  ⟨7, setDie idle 7 { getDie idle 7 with d2dUp := false }, by decide⟩

theorem wit_ObsFilterCommands_1 : ∃ (c : Cmd) (h : HerdId) (source : BitVec 8) (decim : BitVec 8) (s : State),
  targetOf c.target = some (.herd h) ∧ Runs s c ∧ myTurn s c = true ∧ obsGate s h = none ∧ source.toNat ≤ 63 ∧ 2 ≤
  decim.toNat ∧ decim.toNat ≤ 8 ∧ (getPort s (sourcePort h source.toNat)).st ≠ .safe ∧ (selBank (getObs s h)).taps
  ≤ maxTaps decim.toNat ∧ (getObs s h).st ≠ .fading :=
  ⟨cmdOf 1281 0x4025 0xFFFF, 37, 63, 2, setObs (run (cmdOf 1281 0x4025 0xFFFF)) 37
    { Obs.reset with st := .running }, by decide⟩

theorem wit_ObsFilterCommands_2 : ∃ (c : Cmd) (h : HerdId) (bank : BitVec 8) (taps : BitVec 16) (data : List Byte)
  (b : Taken) (s : State), targetOf c.target = some (.herd h) ∧ Runs s c ∧ myTurn s c = true ∧ herdGate s h = none
  ∧ bank.toNat ≤ 1 ∧ taps ≠ 0 ∧ taps.toNat ≤ 384 ∧ (getObs s h).st ≠ .fading ∧ (getObs s h).sel ≠ decide
  (bank.toNat = 1) ∧ (takeOut s (dataRingOf s c (.herd h) 4)).got = some b ∧ badWord taps.toNat
  (b.desc.length.toNat / 4) (leWords data) = none :=
  ⟨cmdOf 1282 0x4025 3, 37, 1, 2, [0xFF, 0xFF, 1, 0, 0, 0, 0xFE, 0xFF],
    { ring := 3, index := 0, desc := buf 8192 }, setObs (run (cmdOf 1282 0x4025 3)) 37
    { Obs.reset with st := .running }, by decide⟩

theorem wit_ObsFilterCommands_3 : ∃ (c : Cmd) (h : HerdId) (fadeLen : BitVec 16) (s : State), targetOf c.target =
  some (.herd h) ∧ Runs s c ∧ myTurn s c = true ∧ obsGate s h = none ∧ 16 ≤ fadeLen.toNat ∧ fadeLen.toNat ≤ 1024 ∧
  (getObs s h).st = .running ∧ (otherBank (getObs s h)).taps ≤ maxTaps (getObs s h).decim :=
  ⟨cmdOf 1283 0x4025 0xFFFF, 37, 16, setObs (run (cmdOf 1283 0x4025 0xFFFF)) 37 { Obs.reset with st := .running },
    by decide⟩

theorem wit_ObsFilterCommands_4 : ∃ (c : Cmd) (h : HerdId) (s : State), Runs s c ∧ myTurn s c = true ∧ obsGate s h
  = none ∧ (getObs s h).st = .running ∧ (otherBank (getObs s h)).taps ≤ maxTaps (getObs s h).decim :=
  ⟨cmdOf 1283 0x4025 0xFFFF, 37, setObs (run (cmdOf 1283 0x4025 0xFFFF)) 37 { Obs.reset with st := .running }, by
    decide⟩

theorem wit_ObsFilterCommands_5 : ∃ (c : Cmd) (h : HerdId) (fadeLen : BitVec 16) (s : State), Runs s c ∧ myTurn s c
  = true ∧ obsGate s h = none ∧ 16 ≤ fadeLen.toNat ∧ fadeLen.toNat ≤ 1024 ∧ (getObs s h).st = .settling ∧
  (otherBank (getObs s h)).taps ≤ maxTaps (getObs s h).decim :=
  ⟨cmdOf 1283 0x4025 0xFFFF, 37, 1024, setObs (run (cmdOf 1283 0x4025 0xFFFF)) 37
    { Obs.reset with st := .settling, settle := 16 }, by decide⟩

theorem wit_ObsFilterCommands_6 : ∃ (c : Cmd) (h : HerdId) (fadeLen : BitVec 16) (s : State), Runs s c ∧ myTurn s c
  = true ∧ obsGate s h = none ∧ (fadeLen = 0 ∨ (16 ≤ fadeLen.toNat ∧ fadeLen.toNat ≤ 1024)) ∧ (getObs s h).st =
  .stopped :=
  ⟨cmdOf 1283 0x4025 0xFFFF, 37, 0, run (cmdOf 1283 0x4025 0xFFFF), by decide⟩

theorem wit_ObsFilterCommands_7 : ∃ (c : Cmd) (h : HerdId) (fadeLen : BitVec 16) (s : State), Runs s c ∧ myTurn s c
  = true ∧ obsGate s h = none ∧ (fadeLen = 0 ∨ (16 ≤ fadeLen.toNat ∧ fadeLen.toNat ≤ 1024)) ∧ (getObs s h).st =
  .fading :=
  ⟨cmdOf 1283 0x4025 0xFFFF, 37, 16, setObs (run (cmdOf 1283 0x4025 0xFFFF)) 37
    { Obs.reset with st := .fading, fadeLen := 100 }, by decide⟩

theorem wit_ObsCaptureCommands_1 : ∃ (c : Cmd) (h : HerdId) (count : BitVec 32) (r : RingId) (s : State), targetOf
  c.target = some (.herd h) ∧ Runs s c ∧ myTurn s c = true ∧ obsGate s h = none ∧ count ≠ 0 ∧ count.toNat ≤ 131072
  ∧ (selBank (getObs s h)).taps ≤ maxTaps (getObs s h).decim ∧ dataRingOf s c (.herd h) 3 = some r ∧ (getObs s
  h).st = .stopped ∧ (getObs s h).final = none :=
  ⟨cmdOf 1284 0x4025 2, 37, 131072, 2, run (cmdOf 1284 0x4025 2), by decide⟩

theorem wit_ObsCaptureCommands_2 : ∃ (c : Cmd) (h : HerdId) (count : BitVec 32) (startTime : BitVec 64) (r :
  RingId) (s : State), targetOf c.target = some (.herd h) ∧ Runs s c ∧ myTurn s c = true ∧ obsGate s h = none ∧
  startTime ≠ 0 ∧ s.time.now.toNat < startTime.toNat ∧ (selBank (getObs s h)).taps ≤ maxTaps (getObs s h).decim ∧
  adcRate (pllRuns (getHerd s h)) ≤ 200000 * 2 ^ (getObs s h).decim ∧ dataRingOf s c (.herd h) 3 = some r ∧ (getObs
  s h).st = .stopped :=
  ⟨cmdOf 1284 0x4025 2, 37, 0, 900, 2, run (cmdOf 1284 0x4025 2), by decide⟩

theorem wit_ObsCaptureCommands_3 : ∃ (c : Cmd) (h : HerdId) (r : RingId) (d : DataDesc) (rest : List DataDesc) (s :
  State), Runs s c ∧ myTurn s c = true ∧ herdGate s h = none ∧ sweepsHold s h = false ∧ ((getObs s h).st =
  .settling ∨ (getObs s h).st = .running) ∧ (getObs s h).stoppers = [] ∧ captureRing (getObs s h) = some r ∧
  hubListens s h = true ∧ (getRing s r).st = .active ∧ ringBindKind s r ≠ 2 ∧ (getObs s h).buf = none ∧ (getObs s
  h).held.length ≤ (d.length.toNat - 64) / 2 ∧ (getRing s r).bufs = d :: rest ∧ (d :: rest).all (descOk true) =
  true ∧ 4096 ≤ d.length.toNat :=
  ⟨cmdOf 1285 0x4025 0xFFFF, 37, 2, buf 8192, [], setObs (run (cmdOf 1285 0x4025 0xFFFF)) 37
    { Obs.reset with st := .running, ring := 2 }, by decide⟩

theorem wit_ObsCaptureCommands_4 : ∃ (c : Cmd) (h : HerdId) (s : State), Runs s c ∧ myTurn s c = true ∧ herdGate s
  h = none ∧ sweepsHold s h = false ∧ ((getObs s h).st = .settling ∨ (getObs s h).st = .running) ∧ (getObs s
  h).stoppers = [] ∧ captureLives s (getObs s h) = false ∧ (getObs s h).buf = none :=
  ⟨cmdOf 1285 0x4025 0xFFFF, 37, setObs (run (cmdOf 1285 0x4025 0xFFFF)) 37
    { Obs.reset with st := .running, ring := 9 }, by decide⟩

theorem wit_ObsCaptureCommands_5 : ∃ (c : Cmd) (h : HerdId) (s : State), myTurn s c = true ∧ herdGate s h = none ∧
  sweepsHold s h = false ∧ (getObs s h).st = .running ∧ captureLives s (getObs s h) = true ∧ hubListens s h = false
  :=
  ⟨cmdOf 1285 0x4025 0xFFFF, 37, setDie (setObs (run (cmdOf 1285 0x4025 0xFFFF)) 37
    { Obs.reset with st := .running, ring := 2 }) 4 { getDie idle 4 with d2dUp := false }, by decide⟩

theorem wit_ObsCaptureCommands_6 : ∃ (c : Cmd) (h : HerdId) (s : State), Runs s c ∧ myTurn s c = true ∧ herdGate s
  h = none ∧ (getObs s h).st = .stopped ∧ (getObs s h).final = none :=
  ⟨cmdOf 1285 0x4025 0xFFFF, 37, run (cmdOf 1285 0x4025 0xFFFF), by decide⟩

theorem wit_ObsCaptureCommands_7 : ∃ (c : Cmd) (h : HerdId) (s : State), myTurn s c = true ∧ herdGate s h = none ∧
  sweepsHold s h = false ∧ (getObs s h).st = .fading :=
  ⟨cmdOf 1285 0x4025 0xFFFF, 37, setObs (run (cmdOf 1285 0x4025 0xFFFF)) 37 { Obs.reset with st := .fading }, by
    decide⟩

theorem wit_ObsEvents_1 : ∃ (h : HerdId) (tm : BitVec 64) (mode : BitVec 8) (count : BitVec 32) (ring : BitVec 16)
  (s : State), (getObs s h).sched = [(tm, mode, count, ring)] ∧ tm.toNat ≤ s.time.now.toNat ∧ (getObs s h).st =
  .stopped ∧ obsGate s h = none ∧ (selBank (getObs s h)).taps ≤ maxTaps (getObs s h).decim ∧ (getObs s h).final =
  none ∧ herdsRun s = true :=
  ⟨37, 5, 0, 9, 2, at_ (setObs idle 37 { Obs.reset with sched := [(5, 0, 9, 2)] }) 5, by decide⟩

theorem wit_ObsEvents_2 : ∃ (h : HerdId) (v : BitVec 8) (adc : List (List (BitVec 8))) (s : State), herdsRun s =
  true ∧ (getObs s h).st = .settling ∧ (getObs s h).settle = 1 ∧ (getObs s h).source < 32 ∧ adc.getD ((getObs s
  h).source % 4) [] = [v] ∧ (chainPush (chainOf (getObs s h)) (256 * v.toInt)).2.isSome = true :=
  ⟨37, 9, [[9]], setObs (idle) 37
    { Obs.reset with st := .settling, settle := 1, decim := 2, chain := [⟨[], true⟩, ⟨[], true⟩] }, by decide⟩

theorem wit_ObsEvents_3 : ∃ (h : HerdId) (v : BitVec 8) (adc : List (List (BitVec 8))) (s : State), herdsRun s =
  true ∧ (getObs s h).st = .fading ∧ (getObs s h).fadeLen = (getObs s h).fadeGone + 1 ∧ (getObs s h).source < 32 ∧
  adc.getD ((getObs s h).source % 4) [] = [v] ∧ (chainPush (chainOf (getObs s h)) (256 * v.toInt)).2.isSome = true
  ∧ (getObs s h).waits = [] ∧ (getObs s h).sched = [] :=
  ⟨37, 9, [[9]], setObs (idle) 37
    { Obs.reset with st := .fading, mode := 1, sel := true, fadeLen := 16, fadeGone := 15, decim := 2, chain := [⟨[], true⟩, ⟨[], true⟩] },
    by decide⟩

theorem wit_ObsEvents_4 : ∃ (h : HerdId) (b : Taken) (s : State), (getObs s h).st = .running ∧ (getObs s h).final =
  none ∧ (getObs s h).mode = 1 ∧ (getObs s h).buf = some b ∧ 64 < b.desc.length.toNat ∧ (getObs s h).held.length =
  sampleRoom b ∧ 0 < sampleRoom b ∧ hubListens s h = true ∧ (getRing s b.ring).taken.contains b = true ∧
  s.clk.refclkOk = true :=
  ⟨37, tb, modRing (setObs (idle) 37
    { Obs.reset with st := .running, mode := 1, ring := 2, buf := some tb, held := [oneOut] }) 2 fun x =>
    { x with taken := [tb] }, by decide⟩

theorem wit_ObsEvents_5 : ∃ (h : HerdId) (s : State), obsHeld (getHerd s h) = true ∧ (getObs s h).mode = 0 ∧
  (getObs s h).count ≤ (getObs s h).sent ∧ (getObs s h).waits = [] ∧ (getObs s h).stoppers = [] ∧ herdsRun s = true
  :=
  ⟨37, setObs (idle) 37 { Obs.reset with st := .running, count := 3, sent := 3 }, by decide⟩

theorem wit_RegisterAccess_1 : ∃ (off : BitVec 26) (val : BitVec 32) (s : State), busUp s = true ∧ s.pwr.st = .run
  ∧ off.toNat % 4 = 0 ∧ refusedCause s off.toNat = none ∧ isPairLow off.toNat = false ∧ isPairLow (off.toNat - 4) =
  false ∧ off ≠ 0x208 ∧ off ≠ 0x308 ∧ regMask off.toNat ≠ 0 ∧ (∀ r, off.toNat ≠ ringOff r 0x10) ∧ regOk off.toNat
  val = true ∧ writable s off.toNat = true :=
  ⟨0x418, 110, idle, by decide, by decide, by decide, by decide, by decide, by decide, by decide, by decide, by
    decide, by intro r h; simp [ringOff] at h; omega, by decide, by decide⟩

theorem wit_RegisterAccess_2 : ∃ (off : BitVec 26) (val : BitVec 32) (s : State), busUp s = true ∧ s.pwr.st = .run
  ∧ off.toNat % 4 = 0 ∧ refusedCause s off.toNat = none ∧ isPairLow off.toNat = false ∧ isPairLow (off.toNat - 4) =
  false ∧ off ≠ 0x208 ∧ off ≠ 0x308 ∧ regMask off.toNat ≠ 0 ∧ (∀ r, off.toNat ≠ ringOff r 0x10) ∧ regOk off.toNat
  val = false :=
  ⟨0x418, 111, idle, by decide, by decide, by decide, by decide, by decide, by decide, by decide, by decide, by
    decide, by intro r h; simp [ringOff] at h; omega, by decide⟩

theorem wit_RegisterAccess_3 : ∃ (val : BitVec 32) (s : State), busUp s = true ∧ s.pwr.st = .run ∧ regOk 0x208 val
  = true ∧ val.getLsbD 15 = true :=
  ⟨0xFFFF8000, idle, by decide⟩

theorem wit_RegisterAccess_4 : ∃ (count : BitVec 24) (s : State), s.clk.fmcRunning = true ∧ s.clk.refclkOk = true
  :=
  ⟨0xFFFFFF, { idle with clk := { idle.clk with fmcRunning := true } }, by decide⟩

theorem wit_RegisterAccess_5 : ∃ (off : BitVec 26) (n : Nat) (s : State), busUp s = true ∧ s.pwr.st = .run ∧
  refusedCause s off.toNat = some n ∧ s.access.err = false :=
  ⟨0x2000000, 3, setDie idle 0 { getDie idle 0 with d2dUp := false }, by decide⟩

theorem wit_RegisterAccess_6 : ∃ (off : BitVec 26) (n : Nat) (s : State), busUp s = true ∧ s.pwr.st = .run ∧
  refusedCause s off.toNat = some n ∧ s.access.err = true :=
  ⟨0x800000, 2,
    { setHerd idle 0 { getHerd idle 0 with st := .selfTest } with access := { idle.access with err := true } }, by
    decide⟩

theorem wit_RegisterAccess_7 : ∃ (off : BitVec 26) (b : Bool) (s : State), busUp s = true ∧ s.pwr.st = .run ∧
  s.access.err = false :=
  ⟨0x800004, true, idle, by decide⟩

theorem wit_MirrorRows_1 : ∃ (val : BitVec 32) (s : State), busUp s = true ∧ s.pwr.st = .run ∧ canWrite s = true ∧
  mirrorEnabled s = false ∧ val.getLsbD 0 = true :=
  ⟨1, idle, by decide⟩

theorem wit_MirrorRows_2 : ∃ (o : MirrorObj) (s : State), mirrorOn s = true :=
  ⟨.port 300, lowReg idle 0x308 1, by decide⟩

theorem wit_MirrorRows_3 : ∃ (a : BitVec 64) (s : State), mirrorEnabled s = true ∧ s.clk.refclkOk = true :=
  ⟨0x1000, lowReg idle 0x308 1, by decide⟩

theorem wit_MirrorRows_4 : ∃ (s : State), (regVal s 0x704).getLsbD 0 = true ∧ s.pwr.padsHeld = false ∧ hubRuns s =
  true :=
  ⟨lowReg (p300 idle fun x => { x with st := .up, active := true }) 0x704 0x1431, by decide⟩

theorem wit_MirrorRows_5 : ∃ (source : BitVec 16) (s : State), busUp s = true ∧ s.pwr.st = .run ∧ factoryOn s =
  true ∧ (fltDef source.toNat).fixed = false ∧ raises s
  { source := source.toNat, detail := 0, injected := true, network := false } = true :=
  ⟨0x894, { idle with sec := { idle.sec with factory := true } }, by decide⟩

theorem wit_MirrorRows_6 : ∃ (source : BitVec 16) (s : State), busUp s = true ∧ s.pwr.st = .run ∧ factoryOn s =
  true ∧ (fltDef source.toNat).fixed = false ∧ raises s
  { source := source.toNat, detail := 0, injected := true, network := true } = true :=
  ⟨0x894, { idle with sec := { idle.sec with factory := true } }, by decide⟩

theorem wit_StagingAndCommits_1 : ∃ (c : Cmd) (p : PortId) (count : BitVec 8) (entries : List (BitVec 16 × BitVec
  32)) (s : State), Runs s c ∧ myTurn s c = true ∧ portGate s p = none ∧ count ≠ 0 ∧ count.toNat ≤ 5 ∧ badEntry
  count.toNat entries = none :=
  ⟨cmdOf 257 300 0xFFFF, 300, 2, [(0x01, 0), (0x43, 200)], run (cmdOf 257 300 0xFFFF), by decide⟩

theorem wit_StagingAndCommits_2 : ∃ (c : Cmd) (p : PortId) (id : BitVec 16) (val : BitVec 32) (s : State), Runs s c
  ∧ myTurn s c = true ∧ portGate s p = none ∧ paramIds.contains id.toNat = true :=
  ⟨cmdOf 257 300 0xFFFF, 300, 0x43, 999, run (cmdOf 257 300 0xFFFF), by decide⟩

theorem wit_StagingAndCommits_3 : ∃ (c : Cmd) (h : HerdId) (modeSet : BitVec 8) (s : State), targetOf c.target =
  some (.herd h) ∧ Runs s c ∧ myTurn s c = true ∧ herdGate s h = none ∧ modeSet ≠ 0 ∧ modeSet.toNat ≤ 0x1F :=
  ⟨cmdOf 513 0x4025 0xFFFF, 37, 0x1F, run (cmdOf 513 0x4025 0xFFFF), by decide⟩

theorem wit_StagingAndCommits_4 : ∃ (c : Cmd) (h : HerdId) (policy : BitVec 8) (s : State), targetOf c.target =
  some (.herd h) ∧ Runs s c ∧ myTurn s c = true ∧ herdGate s h = none ∧ policy.toNat ≤ 1 :=
  ⟨cmdOf 514 0x4025 0xFFFF, 37, 1, run (cmdOf 514 0x4025 0xFFFF), by decide⟩

theorem wit_StagingAndCommits_5 : ∃ (c : Cmd) (p : PortId) (s : State), Runs s c ∧ myTurn s c = true ∧ portGate s p
  = none ∧ firstBadParam (getPort s p).shadow (getHerd s (herdOf p)).modeSet ((getPort s p).lane.mode == .l25) =
  none ∧ (getPort s p).staged ≠ [] :=
  ⟨cmdOf 258 300 0xFFFF, 300, p300 (run (cmdOf 258 300 0xFFFF)) fun x =>
    { x with shadow := [(1, 0)], staged := [1], cfgGen := 0xFFFFFFFF }, by decide⟩

theorem wit_StagingAndCommits_6 : ∃ (c : Cmd) (p : PortId) (s : State), Runs s c ∧ myTurn s c = true ∧ portGate s p
  = none ∧ firstBadParam (getPort s p).shadow (getHerd s (herdOf p)).modeSet ((getPort s p).lane.mode == .l25) =
  none ∧ (getPort s p).staged = [] :=
  ⟨cmdOf 258 300 0xFFFF, 300, p300 (run (cmdOf 258 300 0xFFFF)) fun x =>
    { x with cfgGen := 7, mustCommit := true }, by decide⟩

theorem wit_StagingAndCommits_7 : ∃ (c : Cmd) (h : HerdId) (s : State), Runs s c ∧ NewCmd s c ∧ myTurn s c = true ∧
  herdGate s h = none ∧ badHerdParam s h = none ∧ herdStaged s h = true ∧ runLevel (getDie s (dieOfHerd h)) = 0 :=
  ⟨cmdOf 258 0x4025 0xFFFF, 37, h37 (p300 (run (cmdOf 258 0x4025 0xFFFF)) fun x => { x with st := .up }) fun x =>
    { x with shModeSet := 8, shPolicy := true, staged := true }, by decide, newCmd_of (by decide), by decide, by
    decide, by decide, by decide, by decide⟩

theorem wit_StagingAndCommits_8 : ∃ (c : Cmd) (h : HerdId) (s : State), myTurn s c = true ∧ herdGate s h = none ∧
  badHerdParam s h = none ∧ (getHerd s h).shModeSet ≠ (getHerd s h).modeSet ∧ (getHerd s h).staged = true ∧
  setLevel (getHerd s h).shModeSet < runLevel (getDie s (dieOfHerd h)) :=
  ⟨cmdOf 258 0x4025 0xFFFF, 37, setDie (h37 (run (cmdOf 258 0x4025 0xFFFF)) fun x =>
    { x with modeSet := 16, resolved := some .l25, shModeSet := 1, staged := true }) 4
    { getDie idle 4 with level := 3, target := 3 }, by decide⟩

theorem wit_StagingAndCommits_9 : ∃ (c : Cmd) (h : HerdId) (s : State), Runs s c ∧ myTurn s c = true ∧ herdGate s h
  = none ∧ badHerdParam s h = none ∧ herdStaged s h = false :=
  ⟨cmdOf 258 0x4025 0xFFFF, 37, run (cmdOf 258 0x4025 0xFFFF), by decide⟩

theorem wit_PortStartRows_1 : ∃ (c : Cmd) (p : PortId) (s : State), Runs s c ∧ myTurn s c = true ∧ portGate s p =
  none ∧ (getPort s p).mustCommit = false ∧ (getPort s p).st = .disabled :=
  ⟨cmdOf 259 300 0xFFFF, 300, p300 (run (cmdOf 259 300 0xFFFF)) fun x => { x with attempts := 9 }, by decide⟩

theorem wit_PortStartRows_2 : ∃ (c : Cmd) (p : PortId) (s : State), Runs s c ∧ myTurn s c = true ∧ portGate s p =
  none ∧ (getPort s p).mustCommit = false ∧ (getPort s p).st ≠ .disabled ∧ (getPort s p).loop ≠ .digital ∧
  chamoisRuns (getPort s p) = false ∧ (getPort s p).cal = none :=
  ⟨cmdOf 259 300 0xFFFF, 300, p300 (run (cmdOf 259 300 0xFFFF)) fun x => { x with st := .up }, by decide⟩

theorem wit_PortStartRows_3 : ∃ (c : Cmd) (p : PortId) (s : State), Runs s c ∧ myTurn s c = true ∧ portGate s p =
  none ∧ (getPort s p).mustCommit = true :=
  ⟨cmdOf 259 300 0xFFFF, 300, p300 (run (cmdOf 259 300 0xFFFF)) fun x => { x with mustCommit := true }, by decide⟩

theorem wit_PortStartRows_4 : ∃ (c : Cmd) (p : PortId) (s : State), Runs s c ∧ NewCmd s c ∧ myTurn s c = true ∧
  portGate s p = none :=
  ⟨cmdOf 260 300 0xFFFF, 300, p300 (run (cmdOf 260 300 0xFFFF)) fun x => { x with st := .up }, by decide, newCmd_of
    (by decide), by decide, by decide⟩

theorem wit_PortStartRows_5 : ∃ (c : Cmd) (p : PortId) (s : State), Runs s c ∧ NewCmd s c ∧ myTurn s c = true ∧
  portGate s p = none ∧ (getPort s p).st ≠ .disabled :=
  ⟨cmdOf 262 300 0xFFFF, 300, p300 (run (cmdOf 262 300 0xFFFF)) fun x => { x with st := .up, attempts := 3 }, by
    decide, newCmd_of (by decide), by decide, by decide, by decide⟩

theorem wit_PortStartRows_6 : ∃ (c : Cmd) (p : PortId) (s : State), Runs s c ∧ myTurn s c = true ∧ portGate s p =
  none ∧ (getPort s p).st = .disabled :=
  ⟨cmdOf 262 300 0xFFFF, 300, run (cmdOf 262 300 0xFFFF), by decide⟩

theorem wit_PortStartRows_7 : ∃ (c : Cmd) (p : PortId) (s : State), Runs s c ∧ NewCmd s c ∧ myTurn s c = true ∧
  portGate s p = none ∧ (getPort s p).st ≠ .disabled ∧ ((getPort s p).st ≠ .up ∨ forced c = true) :=
  ⟨forceOf 0x105 300 0xFFFF, 300, p300 (run (forceOf 0x105 300 0xFFFF)) fun x => { x with st := .up }, by decide,
    newCmd_of (by decide), by decide, by decide, by decide, by decide⟩

theorem wit_PortStartRows_8 : ∃ (c : Cmd) (p : PortId) (s : State), Runs s c ∧ myTurn s c = true ∧ portGate s p =
  none ∧ (getPort s p).st = .up ∧ forced c = false :=
  ⟨cmdOf 261 300 0xFFFF, 300, p300 (run (cmdOf 261 300 0xFFFF)) fun x => { x with st := .up }, by decide⟩

theorem wit_LoopbackRows_1 : ∃ (c : Cmd) (p : PortId) (s : State), Runs s c ∧ myTurn s c = true ∧ loopGate s p =
  none ∧ ((getPort s p).loop = .digital ∨ (getPort s p).loop = .looping) :=
  ⟨cmdOf 263 300 0xFFFF, 300, p300 (run (cmdOf 263 300 0xFFFF)) fun x => { x with loop := .digital }, by decide⟩

theorem wit_LoopbackRows_2 : ∃ (c : Cmd) (p : PortId) (s : State), myTurn s c = true ∧ loopGate s p = none ∧
  (getPort s p).loop = .remote :=
  ⟨cmdOf 263 300 0xFFFF, 300, p300 (run (cmdOf 263 300 0xFFFF)) fun x => { x with st := .up, loop := .remote }, by
    decide⟩

theorem wit_LoopbackRows_3 : ∃ (c : Cmd) (p : PortId) (s : State), Runs s c ∧ myTurn s c = true ∧ loopGate s p =
  none ∧ (getPort s p).loop = .none ∧ loopPending s p = false :=
  ⟨cmdOf 263 300 0xFFFF, 300, run (cmdOf 263 300 0xFFFF), by decide⟩

theorem wit_LoopbackRows_4 : ∃ (c : Cmd) (p : PortId) (s : State), myTurn s c = true ∧ loopGate s p = none ∧
  (getPort s p).loop = .none ∧ loopPending s p = true :=
  ⟨cmdOf 263 300 0xFFFF, 300,
    { p300 (run (cmdOf 263 300 0xFFFF)) fun x => { x with st := .up } with waits := [.loop 300 (cmdOf 264 300 0xFFFF) true] },
    by decide⟩

theorem wit_LoopbackRows_5 : ∃ (c : Cmd) (p : PortId) (s : State), Runs s c ∧ myTurn s c = true ∧ loopGate s p =
  none ∧ (getPort s p).loop = .none ∧ loopPending s p = false ∧ ((getPort s p).st = .disabled ∨ (getPort s p).st =
  .hold) :=
  ⟨cmdOf 263 300 0xFFFF, 300, run (cmdOf 263 300 0xFFFF), by decide⟩

theorem wit_LoopbackRows_6 : ∃ (c : Cmd) (p : PortId) (s : State), Runs s c ∧ myTurn s c = true ∧ loopGate s p =
  none ∧ (getPort s p).st = .up ∧ (getPort s p).loop = .none :=
  ⟨cmdOf 263 300 0xFFFF, 300, p300 (run (cmdOf 263 300 0xFFFF)) fun x => { x with st := .up }, by decide⟩

theorem wit_LoopbackRows_7 : ∃ (c : Cmd) (p : PortId) (k : Caps) (s : State), myTurn s c = true ∧ loopGate s p =
  none ∧ (getPort s p).loop = .none ∧ (getPort s p).st = .up ∧ (getPort s p).caps = some k ∧ k.loop = true :=
  ⟨cmdOf 263 300 0xFFFF, 300, { version := 1, lpi := true, loop := true, wakeNs := 0, gen := 0 }, p300 (run (cmdOf
    263 300 0xFFFF)) fun x =>
    { x with st := .up, caps := some { version := 1, lpi := true, loop := true, wakeNs := 0, gen := 0 } }, by
    decide⟩

theorem wit_LoopbackRows_8 : ∃ (c : Cmd) (p : PortId) (s : State), Runs s c ∧ myTurn s c = true ∧ (getHerd s
  (herdOf p)).st = .selfTest :=
  ⟨cmdOf 259 300 0xFFFF, 300, h37 (run (cmdOf 259 300 0xFFFF)) fun x =>
    { x with st := .selfTest, test := some (bistAt 3) }, by decide⟩

theorem wit_LoopbackRows_9 : ∃ (c : Cmd) (p : PortId) (s : State), Runs s c ∧ myTurn s c = true ∧ (getHerd s
  (herdOf p)).st ≠ .selfTest ∧ (getPort s p).st = .safe :=
  ⟨cmdOf 260 300 0xFFFF, 300, p300 (run (cmdOf 260 300 0xFFFF)) fun x => { x with st := .safe }, by decide⟩

theorem wit_LoopbackRows_10 : ∃ (c : Cmd) (h : HerdId) (m : BitVec 8) (s : State), Runs s c ∧ myTurn s c = true ∧
  (getHerd s h).st = .safe :=
  ⟨cmdOf 513 0x4025 0xFFFF, 37, 1, h37 (run (cmdOf 513 0x4025 0xFFFF)) fun x => { x with st := .safe }, by decide⟩

theorem wit_CtxSaveAndLoad_1 : ∃ (c : Cmd) (p : PortId) (s : State), myTurn s c = true ∧ portGate s p = none ∧
  (getPort s p).st = .up ∧ storeUp s (chanOf p) = true ∧ (getPort s p).save = none :=
  ⟨cmdOf 769 300 0xFFFF, 300, p300 (run (cmdOf 769 300 0xFFFF)) fun x => { x with st := .up }, by decide⟩

theorem wit_CtxSaveAndLoad_2 : ∃ (c : Cmd) (p : PortId) (s : State), myTurn s c = true ∧ portGate s p = none ∧
  (getPort s p).st = .up ∧ storeUp s (chanOf p) = true ∧ (getPort s p).save = none :=
  ⟨cmdOf 769 300 0xFFFF, 300, p300 (run (cmdOf 769 300 0xFFFF)) fun x => { x with st := .up }, by decide⟩

theorem wit_CtxSaveAndLoad_3 : ∃ (c : Cmd) (p : PortId) (k : CtxKey) (read : CtxRead) (e : Ctx) (s : State), Runs s
  c ∧ NewCmd s c ∧ myTurn s c = true ∧ portGate s p = none ∧ (getPort s p).st = .up ∧ (getPort s p).partner =
  k.partner ∧ (getPort s p).sig = k.sig ∧ e.mode = (getPort s p).mode ∧ e.fec = (getPort s p).fec ∧ ctxNamed
  (saveVisible s p) p k = .inr e ∧ readCause p e read = 0 :=
  ⟨cmdOf 770 300 0xFFFF, 300, { partner := 77, sig := 5 },
    { crcOk := true, dirOk := true, magic := ctxMagic, format := ctxFormat, port := 300, partner := 77, sig := 5 },
    { captureCtx State.reset 300 3 with entry := 4, slot := 7, partner := 77, sig := 5, pinned := false }, setDir
    (p300 (run (cmdOf 770 300 0xFFFF)) fun x => { x with st := .up, partner := 77, sig := 5 }) 300
    { entries := [{ captureCtx State.reset 300 3 with entry := 4, slot := 7, partner := 77, sig := 5, pinned := false }], freeSlot := 24 },
    by decide, newCmd_of (by decide), by decide, by decide, by decide, by decide, by decide, by decide, by decide,
    by decide, by decide⟩

theorem wit_CtxSaveAndLoad_4 : ∃ (c : Cmd) (p : PortId) (k : CtxKey) (read : CtxRead) (e : Ctx) (s : State), Runs s
  c ∧ NewCmd s c ∧ myTurn s c = true ∧ portGate s p = none ∧ (getPort s p).st ≠ .up ∧ isTraining (getPort s p).st =
  false ∧ ctxNamed (saveVisible s p) p k = .inr e ∧ readCause p e read = 0 :=
  ⟨cmdOf 770 300 0xFFFF, 300, { partner := 77, sig := 5 },
    { crcOk := true, dirOk := true, magic := ctxMagic, format := ctxFormat, port := 300, partner := 77, sig := 5 },
    { captureCtx State.reset 300 3 with entry := 4, slot := 7, partner := 77, sig := 5, pinned := false }, setDir
    (run (cmdOf 770 300 0xFFFF)) 300
    { entries := [{ captureCtx State.reset 300 3 with entry := 4, slot := 7, partner := 77, sig := 5, pinned := false }], freeSlot := 24 },
    by decide, newCmd_of (by decide), by decide, by decide, by decide, by decide, by decide, by decide⟩

theorem wit_CtxSaveAndLoad_5 : ∃ (c : Cmd) (p : PortId) (k : CtxKey) (read : CtxRead) (e : Ctx) (s : State), Runs s
  c ∧ NewCmd s c ∧ myTurn s c = true ∧ portGate s p = none ∧ (getPort s p).st ≠ .up ∧ isTraining (getPort s p).st =
  false ∧ ctxNamed (saveVisible s p) p k = .inr e ∧ readCause p e read ≠ 0 :=
  ⟨cmdOf 770 300 0xFFFF, 300, { partner := 77, sig := 5 },
    { crcOk := false, dirOk := true, magic := ctxMagic, format := ctxFormat, port := 300, partner := 77, sig := 5 },
    { captureCtx State.reset 300 3 with entry := 4, slot := 7, partner := 77, sig := 5, pinned := false }, setDir
    (run (cmdOf 770 300 0xFFFF)) 300
    { entries := [{ captureCtx State.reset 300 3 with entry := 4, slot := 7, partner := 77, sig := 5, pinned := false }], freeSlot := 24 },
    by decide, newCmd_of (by decide), by decide, by decide, by decide, by decide, by decide, by decide⟩

theorem wit_CtxSaveAndLoad_6 : ∃ (c : Cmd) (p : PortId) (b : Taken) (u : State) (s : State), Runs s c ∧ NewCmd s c
  ∧ myTurn s c = true ∧ portGate s p = none ∧ storeUp s (chanOf p) = true ∧ u = saveVisible s p ∧ (takeIn u
  (dataRingOf u c (.port p) 3) (32 * (ctxAll u [p]).length)).got = some b ∧ (getRing s b.ring).dmaBad = false :=
  ⟨cmdOf 774 300 2, 300, { ring := 2, index := 0, desc := buf 8192 }, setDir (run (cmdOf 774 300 2)) 300
    { entries := [{ captureCtx State.reset 300 3 with entry := 4, slot := 7, partner := 77, sig := 5, pinned := false }], freeSlot := 24 },
    setDir (run (cmdOf 774 300 2)) 300
    { entries := [{ captureCtx State.reset 300 3 with entry := 4, slot := 7, partner := 77, sig := 5, pinned := false }], freeSlot := 24 },
    by decide, newCmd_of (by decide), by decide, by decide, by decide, rfl, by decide, by decide⟩

theorem wit_CtxSaveAndLoad_7 : ∃ (c : Cmd) (b : Taken) (s : State), Runs s c ∧ myTurn s c = true ∧ storeUp s 0 =
  true ∧ storeUp s 1 = true ∧ (takeIn s (dataRingOf s c .hub 3) (32 * (ctxAll s (allPorts.filter fun p => storeUp s
  (chanOf p))).length)).got = some b ∧ (getRing s b.ring).dmaBad = false :=
  ⟨cmdOf 0x306 0x7FFF 2, { ring := 2, index := 0, desc := buf 8192 }, setDir (run (cmdOf 0x306 0x7FFF 2)) 300
    { entries := [{ captureCtx State.reset 300 3 with entry := 4, slot := 7, partner := 77, sig := 5, pinned := false }], freeSlot := 24 },
    by decide⟩

theorem wit_CtxPinAndEvict_1 : ∃ (c : Cmd) (p : PortId) (k : CtxKey) (e : Ctx) (s : State), Runs s c ∧ NewCmd s c ∧
  myTurn s c = true ∧ portGate s p = none ∧ ((getDir (saveVisible s p) p).entries.filter (·.pinned)).length < 8 ∧
  ctxNamed (saveVisible s p) p k = .inr e :=
  ⟨cmdOf 771 300 0xFFFF, 300, { partner := 77, sig := 5 },
    { captureCtx State.reset 300 3 with entry := 4, slot := 7, partner := 77, sig := 5, pinned := false }, setDir
    (run (cmdOf 771 300 0xFFFF)) 300
    { entries := [{ captureCtx State.reset 300 3 with entry := 4, slot := 7, partner := 77, sig := 5, pinned := false }], freeSlot := 24 },
    by decide, newCmd_of (by decide), by decide, by decide, by decide, by decide⟩

theorem wit_CtxPinAndEvict_2 : ∃ (c : Cmd) (p : PortId) (k : CtxKey) (e : Ctx) (s : State), Runs s c ∧ NewCmd s c ∧
  myTurn s c = true ∧ portGate s p = none ∧ 8 ≤ ((getDir (saveVisible s p) p).entries.filter (·.pinned)).length ∧
  e.pinned = false ∧ ctxNamed (saveVisible s p) p k = .inr e :=
  ⟨cmdOf 771 300 0xFFFF, 300, { partner := 77, sig := 5 },
    { captureCtx State.reset 300 3 with entry := 4, slot := 7, partner := 77, sig := 5, pinned := false }, setDir
    (run (cmdOf 771 300 0xFFFF)) 300
    { entries := ({ captureCtx State.reset 300 3 with entry := 4, slot := 7, partner := 77, sig := 5, pinned := false }) :: (List.range 8).map fun n => { captureCtx State.reset 300 3 with entry := 10 + n, slot := 10 + n, sig := 9, pinned := true }, freeSlot := 24 },
    by decide, newCmd_of (by decide), by decide, by decide, by decide, by decide, by decide⟩

theorem wit_CtxPinAndEvict_3 : ∃ (c : Cmd) (p : PortId) (k : CtxKey) (e : Ctx) (s : State), Runs s c ∧ NewCmd s c ∧
  myTurn s c = true ∧ portGate s p = none ∧ ctxNamed (saveVisible s p) p k = .inr e :=
  ⟨cmdOf 772 300 0xFFFF, 300, { partner := 77, sig := 5 },
    { captureCtx State.reset 300 3 with entry := 4, slot := 7, partner := 77, sig := 5, pinned := true }, setDir
    (run (cmdOf 772 300 0xFFFF)) 300
    { entries := [{ captureCtx State.reset 300 3 with entry := 4, slot := 7, partner := 77, sig := 5, pinned := true }], freeSlot := 24 },
    by decide, newCmd_of (by decide), by decide, by decide, by decide⟩

theorem wit_CtxPinAndEvict_4 : ∃ (c : Cmd) (p : PortId) (k : CtxKey) (e : Ctx) (s : State), Runs s c ∧ NewCmd s c ∧
  myTurn s c = true ∧ portGate s p = none ∧ e.pinned = false ∧ ctxNamed (saveVisible s p) p k = .inr e :=
  ⟨cmdOf 773 300 0xFFFF, 300, { partner := 77, sig := 5 },
    { captureCtx State.reset 300 3 with entry := 4, slot := 7, partner := 77, sig := 5, pinned := false }, setDir
    (run (cmdOf 773 300 0xFFFF)) 300
    { entries := [{ captureCtx State.reset 300 3 with entry := 4, slot := 7, partner := 77, sig := 5, pinned := false }], freeSlot := 24 },
    by decide, newCmd_of (by decide), by decide, by decide, by decide, by decide⟩

theorem wit_CtxPinAndEvict_5 : ∃ (c : Cmd) (p : PortId) (k : CtxKey) (e : Ctx) (s : State), Runs s c ∧ NewCmd s c ∧
  myTurn s c = true ∧ portGate s p = none ∧ e.pinned = true ∧ ctxNamed (saveVisible s p) p k = .inr e :=
  ⟨cmdOf 773 300 0xFFFF, 300, { partner := 77, sig := 5 },
    { captureCtx State.reset 300 3 with entry := 4, slot := 7, partner := 77, sig := 5, pinned := true }, setDir
    (run (cmdOf 773 300 0xFFFF)) 300
    { entries := [{ captureCtx State.reset 300 3 with entry := 4, slot := 7, partner := 77, sig := 5, pinned := true }], freeSlot := 24 },
    by decide, newCmd_of (by decide), by decide, by decide, by decide, by decide⟩

theorem wit_CtxEvents_1 : ∃ (p : PortId) (s : State), saveReady s p = true ∧ (getPort s p).partnerHeld = true ∧
  herdsRun s = true :=
  ⟨300, { p300 idle fun x => { x with st := .up, partnerHeld := true } with mono := 1000000000 }, by decide⟩

theorem wit_CtxEvents_2 : ∃ (p : PortId) (s : State), saveReady s p = true ∧ (getPort s p).partnerHeld = false ∧
  saveClean (getPort s p) = true ∧ (getPort s p).firstSaved = false ∧ 1000000000 ≤ s.mono - (getPort s p).upMono ∧
  herdsRun s = true :=
  ⟨300,
    { p300 idle fun x => { x with st := .up, pairs := quadMap (fun q => { q with canLevel := 1, eqLevel := 1 }) x.pairs } with mono := 1000000000 },
    by decide⟩

theorem wit_CtxEvents_3 : ∃ (p : PortId) (s : State), saveReady s p = true ∧ (getPort s p).partnerHeld = false ∧
  saveClean (getPort s p) = true ∧ (getPort s p).firstSaved = true ∧ (getPort s p).saveHeld = true ∧ herdsRun s =
  true :=
  ⟨300,
    { p300 idle fun x => { x with st := .up, firstSaved := true, saveHeld := true, pairs := quadMap (fun q => { q with canLevel := 1, eqLevel := 1 }) x.pairs } with mono := 1000000000 },
    by decide⟩

theorem wit_CtxEvents_4 : ∃ (p : PortId) (s : State), saveReady s p = true ∧ saveClean (getPort s p) = true ∧
  (getPort s p).lastSave.isSome = true ∧ livePar (getPort s p) 0x20 ≠ 0 :=
  ⟨300,
    { p300 idle fun x => { x with st := .up, lastSave := some 5, pairs := quadMap (fun q => { q with canLevel := 1, eqLevel := 1 }) x.pairs } with mono := 1000000000 },
    by decide⟩

theorem wit_CtxEvents_5 : ∃ (p : PortId) (s : State), (getPort s p).st = .up ∧ saveClean (getPort s p) = false ∧
  (getPort s p).lastSave.isSome = true ∧ livePar (getPort s p) 0x20 ≠ 0 ∧ herdsRun s = true :=
  ⟨300, p300 idle fun x => { x with st := .up, lastSave := some 5 }, by decide⟩

theorem wit_CtxEvents_6 : ∃ (p : PortId) (v : Save) (c : Cmd) (s : State), (getPort s p).save = some v ∧ v.cmd =
  some c ∧ v.paired = false ∧ storeUp s (chanOf p) = true ∧ Runs s c ∧ herdsRun s = true :=
  ⟨300,
    { cause := 3, ctx := { captureCtx State.reset 300 3 with sig := 5 }, cmd := some (cmdOf 769 300 0xFFFF), paired := false },
    cmdOf 769 300 0xFFFF, p300 (run (cmdOf 769 300 0xFFFF)) fun x =>
    { x with save := some { cause := 3, ctx := { captureCtx State.reset 300 3 with sig := 5 }, cmd := some (cmdOf 769 300 0xFFFF), paired := false } },
    by decide⟩

theorem wit_CtxEvents_7 : ∃ (p : PortId) (v : Save) (s : State), (getPort s p).save = some v ∧ v.cmd = none ∧
  v.paired = false ∧ storeUp s (chanOf p) = true ∧ herdsRun s = true :=
  ⟨300, { cause := 3, ctx := { captureCtx State.reset 300 3 with sig := 5 }, cmd := none, paired := false }, p300
    idle fun x =>
    { x with save := some { cause := 3, ctx := { captureCtx State.reset 300 3 with sig := 5 }, cmd := none, paired := false } },
    by decide⟩

theorem wit_CtxEvents_8 : ∃ (q : ChanId) (gib : BitVec 6) (s : State), s.clk.refclkOk = true :=
  ⟨1, 32, setDir (idle) 300
    { entries := [{ captureCtx State.reset 300 3 with entry := 4, slot := 7, partner := 77, sig := 5, pinned := false }], freeSlot := 24 },
    by decide⟩

theorem wit_CtxEvents_9 : ∃ (q : ChanId) (x : BitVec 8) (s : State), s.clk.refclkOk = true :=
  ⟨1, 1, setDir (idle) 300
    { entries := [{ captureCtx State.reset 300 3 with entry := 4, slot := 7, partner := 77, sig := 5, pinned := false }], freeSlot := 24 },
    by decide⟩

theorem wit_CtxEvents_10 : ∃ (q : ChanId) (n : BitVec 32) (s : State), s.clk.refclkOk = true :=
  ⟨0, 3, idle, by decide⟩

theorem wit_DiagRows_1 : ∃ (c : Cmd) (p : PortId) (profile : BitVec 8) (b : Taken) (s : State), Runs s c ∧ myTurn s
  c = true ∧ portGate s p = none ∧ (getPort s p).diag.st = .none ∧ profile.toNat ≤ 1 ∧ (getPort s p).st = .up ∧
  (takeIn s (dataRingOf s c (.port p) 3) (diagSize (getPort s p) false (profile == 1))).got = some b :=
  ⟨cmdOf 1025 300 2, 300, 0, { ring := 2, index := 0, desc := buf 8192 }, p300 (run (cmdOf 1025 300 2)) fun x =>
    { x with st := .up }, by decide⟩

theorem wit_DiagRows_2 : ∃ (c : Cmd) (p : PortId) (skipSweep : BitVec 8) (profile : BitVec 8) (b : Taken) (s :
  State), Runs s c ∧ myTurn s c = true ∧ portGate s p = none ∧ (getPort s p).diag.st = .none ∧ skipSweep.toNat ≤ 1
  ∧ profile.toNat ≤ 1 ∧ ((getPort s p).st = .disabled ∨ (getPort s p).st = .hold) ∧ (getPort s p).loop ≠ .digital ∧
  (skipSweep = 1 ∨ obsHeld (getHerd s (herdOf p)) = false) ∧ (takeIn s (dataRingOf s c (.port p) 3) (diagSize
  (getPort s p) true (profile == 1))).got = some b :=
  ⟨cmdOf 1026 300 2, 300, 0, 0, { ring := 2, index := 0, desc := buf 8192 }, run (cmdOf 1026 300 2), by decide⟩

theorem wit_DiagRows_3 : ∃ (c : Cmd) (p : PortId) (skipSweep : BitVec 8) (profile : BitVec 8) (b : Taken) (s :
  State), Runs s c ∧ NewCmd s c ∧ myTurn s c = true ∧ portGate s p = none ∧ (getPort s p).diag.st = .none ∧
  skipSweep.toNat ≤ 1 ∧ profile.toNat ≤ 1 ∧ (getPort s p).st = .up ∧ forced c = true ∧ (getPort s p).loop ≠
  .digital ∧ (skipSweep = 1 ∨ obsHeld (getHerd s (herdOf p)) = false) ∧ (takeIn s (dataRingOf s c (.port p) 3)
  (diagSize (getPort s p) true (profile == 1))).got = some b :=
  ⟨forceOf 0x402 300 2, 300, 1, 0, { ring := 2, index := 0, desc := buf 8192 }, p300 (run (forceOf 0x402 300 2))
    fun x => { x with st := .up }, by decide, newCmd_of (by decide), by decide, by decide, by decide, by decide, by
    decide, by decide, by decide, by decide, by decide, by decide⟩

theorem wit_DiagRows_4 : ∃ (p : PortId) (s : State), (getPort s p).diag.st = .passive ∧ herdsRun s = true :=
  ⟨300, p300 idle fun x => { x with st := .up, diag := { Diag.none with st := .passive } }, by decide⟩

theorem wit_DiagRows_5 : ∃ (p : PortId) (f : DiagFinding) (s : State), (getPort s p).diag.st = .chamois ∧ (getPort
  s p).diag.step = 1 ∧ herdsRun s = true :=
  ⟨300, { pairs := [], next := [], profile := [] }, p300 idle fun x =>
    { x with diag := { Diag.none with st := .chamois, step := 1 } }, by decide⟩

theorem wit_DiagRows_6 : ∃ (p : PortId) (f : DiagFinding) (s : State), (getPort s p).diag.st = .chamois ∧ (getPort
  s p).diag.step = 2 ∧ 3 ≤ (getPort s p).diag.tdr ∧ (getPort s p).diag.skip = false ∧ sweepHead s p = true ∧
  obsHeld (getHerd s (herdOf p)) = false ∧ herdsRun s = true :=
  ⟨300, { pairs := [], next := [], profile := [] }, setObs (p300 idle fun x =>
    { x with diag := { Diag.none with st := .chamois, step := 2, tdr := 3 } }) 37
    { Obs.reset with sweeps := [300] }, by decide⟩

theorem wit_DiagRows_7 : ∃ (p : PortId) (f : DiagFinding) (s : State), (getPort s p).diag.st = .chamois ∧ (getPort
  s p).diag.step = 2 ∧ (getPort s p).diag.tdr < 3 ∧ herdsRun s = true :=
  ⟨300, { pairs := [], next := [], profile := [] }, p300 idle fun x =>
    { x with diag := { Diag.none with st := .chamois, step := 2, tdr := 2 } }, by decide⟩

theorem wit_DiagRows_8 : ∃ (p : PortId) (f : DiagFinding) (s : State), (getPort s p).diag.st = .chamois ∧ (getPort
  s p).diag.step = 5 ∧ (getPort s p).diag.endState = .disabled ∧ herdsRun s = true :=
  ⟨300, { pairs := [], next := [], profile := [] }, p300 idle fun x =>
    { x with diag := { Diag.none with st := .chamois, step := 5 } }, by decide⟩

theorem wit_DiagRows_9 : ∃ (h : HerdId) (p : PortId) (l : List PortId) (s : State), (getObs s h).sweeps = p :: l ∧
  (getPort s p).diag.st = .waiting ∧ herdOf p = h ∧ herdsRun s = true :=
  ⟨37, 300, [301], setObs (p300 idle fun x => { x with diag := { Diag.none with st := .waiting, step := 3 } }) 37
    { Obs.reset with sweeps := [300, 301] }, by decide⟩

theorem wit_DiagRows_10 : ∃ (p : PortId) (r : RingId) (fs : List Fld) (b : Taken) (s : State), (getPort s
  p).diag.kept = some fs ∧ activeRing s 3 (.port p) = some r ∧ (takeBuf s (some r) 1280).got = some b ∧
  s.clk.refclkOk = true :=
  ⟨300, 2, [(0, 1, 1)], { ring := 2, index := 0, desc := buf 8192 }, p300
    { rig none [buf 8192] [] with regs := [(0x40000C, 1), (0x400048, 0x31), (0x400088, 0x4B233), (0x40008C, 1)] }
    fun x => { x with diag := { Diag.none with kept := some [(0, 1, 1)] } }, by decide⟩

theorem wit_StatRows_1 : ∃ (c : Cmd) (g : Target) (b : Taken) (s : State), Runs s c ∧ myTurn s c = true ∧ diesUp s
  (targetPorts g) = true ∧ (takeIn s (dataRingOf s c g 3) (640 * (targetPorts g).length)).got = some b ∧ (getRing s
  b.ring).dmaBad = false :=
  ⟨cmdOf 0x801 0x4025 2, .herd 37, { ring := 2, index := 0, desc := buf 8192 }, run (cmdOf 0x801 0x4025 2), by
    decide⟩

theorem wit_StatRows_2 : ∃ (c : Cmd) (count : BitVec 8) (ranges : List (BitVec 16 × BitVec 16)) (b : Taken) (s :
  State), count.toNat ≤ 10 ∧ badRange (ranges.take count.toNat) = none ∧ diesUp s (snapPorts count.toNat ranges) =
  true ∧ (takeIn s (dataRingOf s c .hub 3) (64 + 640 * (snapPorts count.toNat ranges).length)).got = some b :=
  ⟨cmdOf 0x802 0x7FFF 2, 2, [(300, 303), (302, 304)], { ring := 2, index := 0, desc := buf 8192 }, run (cmdOf 0x802
    0x7FFF 2), by decide⟩

theorem wit_StatRows_3 : ∃ (n : Snap) (l : List Snap) (s : State), s.io.snaps = n :: l ∧ n.time.toNat ≤
  s.time.now.toNat ∧ diesUp s n.ports = true ∧ Runs s n.cmd ∧ s.clk.refclkOk = true :=
  ⟨{ cmd := cmdOf 0x802 0x7FFF 2, ports := [300], buf := { ring := 2, index := 0, desc := buf 8192 }, time := 20000 },
    [], at_
    { run (cmdOf 0x802 0x7FFF 2) with io := { (run (cmdOf 0x802 0x7FFF 2)).io with snaps := [{ cmd := cmdOf 0x802 0x7FFF 2, ports := [300], buf := { ring := 2, index := 0, desc := buf 8192 }, time := 20000 }], epoch := 1 } }
    20000, by decide⟩

theorem wit_StatRows_4 : ∃ (s : State), s.clk.refclkOk = true :=
  ⟨p300 idle fun x => { x with pers := [(0xC8, 4)] }, by decide⟩

theorem wit_StatRows_5 : ∃ (p : PortId) (s : State), (getPort s p).st = .up ∧ (getPort s p).lpi.st ≠ .quiet ∧
  livePar (getPort s p) 0x40 ≠ 0 ∧ herdsRun s = true ∧ (getPort s p).mlow.armed = true ∧ 3 ≤ (getPort s
  p).mlow.below ∧ (lowestMargin (quadMap (·.margin) (getPort s p).pairs)).toInt < (livePar (getPort s p) 0x40 :
  Int) :=
  ⟨300, p300 idle fun x =>
    { x with st := .up, mlow := { MarginLow.reset with below := 3, crossings := 1, wasBelow := true } }, by decide⟩

theorem wit_StatRows_6 : ∃ (p : PortId) (s : State), (getPort s p).st = .up ∧ (getPort s p).lpi.st ≠ .quiet ∧
  livePar (getPort s p) 0x40 ≠ 0 ∧ herdsRun s = true ∧ (livePar (getPort s p) 0x40 : Int) ≤ (lowestMargin (quadMap
  (·.margin) (getPort s p).pairs)).toInt :=
  ⟨300, p300 idle fun x =>
    { x with st := .up, mlow := { MarginLow.reset with below := 3 }, pairs := quadMap (fun q => { q with margin := 20 }) x.pairs },
    by decide⟩

theorem wit_StatRows_7 : ∃ (p : PortId) (s : State), herdsRun s = true ∧ (getPort s p).st = .up :=
  ⟨300, p300 idle fun x => { x with st := .up, period := (5570560, 0, 0) }, by decide⟩

theorem wit_StatRows_8 : ∃ (p : PortId) (u : BitVec 16) (m : BitVec 16) (l : BitVec 16) (w : BitVec 16) (s :
  State), (getPort s p).lane.st = .active ∧ (getPort s p).lane.mode ≠ .l25 ∧ herdsRun s = true :=
  ⟨300, 1, 2, 3, 4, p300 idle fun x => { x with lane := { Lane.reset with st := .active } }, by decide⟩

theorem wit_StatRows_9 : ∃ (p : PortId) (u : BitVec 16) (m : BitVec 16) (l : BitVec 16) (w : BitVec 16) (s :
  State), (getPort s p).lane.st = .active ∧ (getPort s p).lane.mode = .l25 ∧ herdsRun s = true :=
  ⟨300, 1, 2, 3, 4, p300 idle fun x => { x with lane := { Lane.reset with st := .active, mode := .l25 } }, by
    decide⟩

theorem wit_LaneCommands_1 : ∃ (c : Cmd) (p : PortId) (apply : BitVec 8) (gen : BitVec 8) (chk : BitVec 8) (inject
  : BitVec 8) (burstLen : BitVec 8) (periodK : BitVec 8) (live : BitVec 8) (s : State), Runs s c ∧ myTurn s c =
  true ∧ portGate s p = none ∧ (getPort s p).loop ≠ .near ∧ badPrbs apply gen chk inject burstLen periodK live =
  none ∧ inFallback (getLane s p).st = false ∧ (((apply.getLsbD 0 && gen == 6) || (apply.getLsbD 1 && chk == 6)) &&
  (getLane s p).mode == .l25) = false :=
  ⟨cmdOf 2561 300 0xFFFF, 300, 7, 6, 1, 2, 64, 0, 1, run (cmdOf 2561 300 0xFFFF), by decide⟩

theorem wit_LaneCommands_2 : ∃ (c : Cmd) (p : PortId) (s : State), Runs s c ∧ myTurn s c = true ∧ portGate s p =
  none ∧ (getLane s p).st ≠ .idle :=
  ⟨cmdOf 2562 300 0xFFFF, 300, p300 (run (cmdOf 2562 300 0xFFFF)) fun x =>
    { x with lane := { Lane.reset with st := .active, retries := 9, gen := 3 } }, by decide⟩

theorem wit_LaneCommands_3 : ∃ (c : Cmd) (p : PortId) (s : State), Runs s c ∧ myTurn s c = true ∧ portGate s p =
  none ∧ (getLane s p).st = .idle :=
  ⟨cmdOf 2562 300 0xFFFF, 300, p300 (run (cmdOf 2562 300 0xFFFF)) fun x =>
    { x with lane := { Lane.reset with st := .idle } }, by decide⟩

theorem wit_LaneCommands_4 : ∃ (c : Cmd) (p : PortId) (s : State), Runs s c ∧ myTurn s c = true ∧ portGate s p =
  none :=
  ⟨cmdOf 2563 300 0xFFFF, 300, p300 (run (cmdOf 2563 300 0xFFFF)) fun x => { x with loop := .near }, by decide⟩

theorem wit_LaneCommands_5 : ∃ (c : Cmd) (p : PortId) (s : State), Runs s c ∧ myTurn s c = true ∧ portGate s p =
  none ∧ (getPort s p).loop = .none ∧ loopPending s p = false ∧ (getLane s p).st ≠ .idle :=
  ⟨cmdOf 2563 300 0xFFFF, 300, run (cmdOf 2563 300 0xFFFF), by decide⟩

theorem wit_LaneCommands_6 : ∃ (c : Cmd) (p : PortId) (s : State), Runs s c ∧ myTurn s c = true ∧ portGate s p =
  none ∧ (getPort s p).loop = .none ∧ loopPending s p = false ∧ (getLane s p).locked = true :=
  ⟨cmdOf 2563 300 0xFFFF, 300, p300 (run (cmdOf 2563 300 0xFFFF)) fun x =>
    { x with lane := { Lane.reset with locked := true } }, by decide⟩

theorem wit_LaneCommands_7 : ∃ (c : Cmd) (p : PortId) (s : State), Runs s c ∧ myTurn s c = true ∧ portGate s p =
  none ∧ (getPort s p).loop = .none ∧ (getLane s p).locked = false :=
  ⟨cmdOf 2563 300 0xFFFF, 300, run (cmdOf 2563 300 0xFFFF), by decide⟩

theorem wit_BlindStart_1 : ∃ (p : PortId) (s : State), (getLane s p).st = .blind ∧ (getLane s p).auto = true ∧
  herdsRun s = true :=
  ⟨300, idle, by decide⟩

theorem wit_BlindStart_2 : ∃ (p : PortId) (s : State), (getLane s p).st = .blind ∧ (getLane s p).auto = false ∧
  herdsRun s = true :=
  ⟨300, p300 idle fun x => { x with lane := { Lane.reset with auto := false } }, by decide⟩

theorem wit_BlindStart_3 : ∃ (p : PortId) (rms : Nat) (levels : Nat) (snr : Int) (s : State), (getLane s p).st =
  .blind ∧ laneLockMet (getLane s p) 0 rms levels snr = true ∧ herdsRun s = true :=
  ⟨300, 49, 4, 170, idle, by decide⟩

theorem wit_BlindStart_4 : ∃ (p : PortId) (rms : Nat) (levels : Nat) (snr : Int) (s : State), (50 ≤ rms ∨ levels <
  laneLevels (getLane s p) ∨ snr < ((getLane s p).lockSnr : Int)) :=
  ⟨300, 49, 4, 169, idle, by decide⟩

theorem wit_BlindStart_5 : ∃ (p : PortId) (s : State), (getLane s p).st = .blind ∧ (getLane s p).locked = true ∧
  herdsRun s = true :=
  ⟨300, p300 idle fun x => { x with lane := { Lane.reset with locked := true, retries := 3 } }, by decide⟩

theorem wit_BlindStart_6 : ∃ (p : PortId) (s : State), (getLane s p).st = .lock ∧ (getLane s p).locked = true ∧
  (getLane s p).mode ≠ .l25 ∧ herdsRun s = true :=
  ⟨300, p300 idle fun x => { x with lane := { Lane.reset with st := .lock, locked := true, preReq := some true } },
    by decide⟩

theorem wit_BlindStart_7 : ∃ (p : PortId) (s : State), (getLane s p).st = .train ∧ (getLane s p).locked = true ∧
  (getLane s p).mode = .l25 ∧ herdsRun s = true :=
  ⟨300, p300 idle fun x => { x with lane := { Lane.reset with st := .train, locked := true, mode := .l25 } }, by
    decide⟩

theorem wit_BlindStart_8 : ∃ (p : PortId) (s : State), (getLane s p).st = .lock ∧ (getLane s p).locked = true ∧
  (getLane s p).mode = .l25 ∧ herdsRun s = true :=
  ⟨300, p300 idle fun x => { x with lane := { Lane.reset with st := .lock, locked := true, mode := .l25 } }, by
    decide⟩

theorem wit_BlindStart_9 : ∃ (p : PortId) (rms : Nat) (errs : Nat) (snr : Int) (s : State), (getLane s p).st =
  .active ∧ (150 < rms ∨ snr ≤ ((getLane s p).lockSnr : Int) - 30) ∧ herdsRun s = true :=
  ⟨300, 10, 0, 140, p300 idle fun x =>
    { x with lane := { Lane.reset with st := .active, locked := true, ctle := 9 } }, by decide⟩

theorem wit_BlindStart_10 : ∃ (p : PortId) (rms : Nat) (errs : Nat) (snr : Int) (s : State), (getLane s p).st =
  .active ∧ rms ≤ 150 ∧ ((getLane s p).lockSnr : Int) - 30 < snr :=
  ⟨300, 150, 0, 141, p300 idle fun x => { x with lane := { Lane.reset with st := .active, locked := true } }, by
    decide⟩

theorem wit_BlindStart_11 : ∃ (p : PortId) (rms : Nat) (errs : Nat) (snr : Int) (s : State), (getLane s p).st =
  .lock ∧ (150 < rms ∨ snr ≤ ((getLane s p).lockSnr : Int) + 10 - 30 ∨ 10 < errs) ∧ herdsRun s = true :=
  ⟨300, 10, 11, 200, p300 idle fun x => { x with lane := { Lane.reset with st := .lock, locked := true } }, by
    decide⟩

theorem wit_FallBackTraining_1 : ∃ (p : PortId) (s : State), (getLane s p).st = .detect ∧ herdsRun s = true :=
  ⟨300, p300 idle fun x => { x with lane := { Lane.reset with st := .detect } }, by decide⟩

theorem wit_FallBackTraining_2 : ∃ (p : PortId) (s : State), (getLane s p).st = .detect ∧ herdsRun s = true :=
  ⟨300, p300 idle fun x => { x with lane := { Lane.reset with st := .detect } }, by decide⟩

theorem wit_FallBackTraining_3 : ∃ (p : PortId) (f : TrainFrame) (s : State), (getLane s p).st = .train ∧
  f.checksOk = true ∧ (getLane s p).mode ≠ .l25 ∧ herdsRun s = true :=
  ⟨300, { checksOk := true, req := .inc 0, ready := true, status := .updated, snr := none }, p300 idle fun x =>
    { x with lane := { Lane.reset with st := .train } }, by decide⟩

theorem wit_FallBackTraining_4 : ∃ (p : PortId) (f : TrainFrame) (k : Seek) (s : State), (getLane s p).st = .train
  ∧ f.checksOk = true ∧ (getLane s p).mode ≠ .l25 ∧ (getLane s p).seek = some k ∧ k.done = false ∧ k.acked = false
  ∧ f.status ≠ .notUpdated ∧ f.req = .hold ∧ f.snr = none ∧ herdsRun s = true :=
  ⟨300, { checksOk := true, req := .hold, ready := false, status := .updated, snr := none }, Seek.start, p300 idle
    fun x => { x with lane := { Lane.reset with st := .train, seek := some Seek.start } }, by decide⟩

theorem wit_FallBackTraining_5 : ∃ (p : PortId) (f : TrainFrame) (on : Bool) (s : State), (getLane s p).st = .ready
  ∧ f.checksOk = true ∧ (getLane s p).mode ≠ .l25 ∧ f.req = .precode on ∧ herdsRun s = true :=
  ⟨300, { checksOk := true, req := .precode true, ready := true, status := .notUpdated, snr := none }, true, p300
    idle fun x => { x with lane := { Lane.reset with st := .ready } }, by decide⟩

theorem wit_FallBackTraining_6 : ∃ (p : PortId) (f : TrainFrame) (s : State), f.checksOk = false :=
  ⟨300, { checksOk := false, req := .preset 2, ready := true, status := .updated, snr := none }, p300 idle fun x =>
    { x with lane := { Lane.reset with st := .train } }, by decide⟩

theorem wit_FallBackTraining_7 : ∃ (p : PortId) (rms : Nat) (levels : Nat) (errs : Nat) (snr : Int) (s : State),
  (getLane s p).st = .train ∧ (getLane s p).mode ≠ .l25 ∧ laneLockMet (getLane s p) 10 rms levels snr = true ∧ errs
  ≤ 10 ∧ herdsRun s = true :=
  ⟨300, 49, 4, 10, 180, p300 idle fun x => { x with lane := { Lane.reset with st := .train } }, by decide⟩

theorem wit_FallBackTraining_8 : ∃ (p : PortId) (rms : Nat) (levels : Nat) (errs : Nat) (snr : Int) (s : State),
  (10 < errs ∨ snr < ((getLane s p).lockSnr : Int) + 10) :=
  ⟨300, 49, 4, 11, 180, p300 idle fun x => { x with lane := { Lane.reset with st := .train } }, by decide⟩

theorem wit_FallBackTraining_9 : ∃ (p : PortId) (s : State), (getLane s p).st = .ready ∧ ((getLane s p).partReady =
  true ∨ (getLane s p).mode = .l25) ∧ herdsRun s = true :=
  ⟨300, p300 idle fun x => { x with lane := { Lane.reset with st := .ready, partReady := true } }, by decide⟩

theorem wit_FallBackTraining_10 : ∃ (p : PortId) (s : State), inFallback (getLane s p).st = true ∧ ((getLane s
  p).limit = 0 ∨ ((getLane s p).retries + 1).toNat < (getLane s p).limit) ∧ herdsRun s = true :=
  ⟨300, p300 idle fun x => { x with lane := { Lane.reset with st := .train } }, by decide⟩

theorem wit_FallBackTraining_11 : ∃ (p : PortId) (s : State), inFallback (getLane s p).st = true ∧ (getLane s
  p).limit ≠ 0 ∧ (getLane s p).limit ≤ ((getLane s p).retries + 1).toNat ∧ herdsRun s = true :=
  ⟨300, p300 idle fun x => { x with lane := { Lane.reset with st := .lock, limit := 1 } }, by decide⟩

theorem wit_FallBackTraining_12 : ∃ (p : PortId) (bits : List Bool) (s : State), herdsRun s = true ∧ (getPort s
  p).loop ≠ .near ∧ (getLane s p).chk ≠ 0 :=
  ⟨300, [true, false, true], p300 idle fun x => { x with lane := { Lane.reset with chk := 1, chkLock := true } },
    by decide⟩

theorem wit_FallBackTraining_13 : ∃ (p : PortId) (s : State), (getLane s p).periodic.isSome = true ∧ laneSends
  (getLane s p) = true ∧ (getLane s p).live = true ∧ herdsRun s = true :=
  ⟨300, p300 idle fun x => { x with lane := { Lane.reset with st := .active, periodic := some 10, live := true } },
    by decide⟩

theorem wit_FallBackTraining_14 : ∃ (p : PortId) (s : State), (getLane s p).periodic.isSome = true ∧ laneSends
  (getLane s p) = true ∧ (getLane s p).live = false ∧ (getLane s p).gen ≠ 0 ∧ s.pwr.padsHeld = false ∧ herdsRun s =
  true :=
  ⟨300, p300 idle fun x =>
    { x with lane := { Lane.reset with st := .active, periodic := some 10, gen := 3, genReg := 1 } }, by decide⟩

theorem wit_NegotiationRows_1 : ∃ (p : PortId) (s : State), negOpen (getPort s p) = true ∧ (getPort s
  p).neg.basePages = false ∧ herdsRun s = true ∧ s.pwr.padsHeld = false :=
  ⟨300, p300 idle fun x => { x with st := .negotiate, neg := { Neg.none with open_ := true, nonce := 3 } }, by
    decide⟩

theorem wit_NegotiationRows_2 : ∃ (p : PortId) (s : State), negOpen (getPort s p) = true ∧ (getPort s
  p).neg.gotBase = false ∧ herdsRun s = true ∧ (attPar (getPort s p) 0x01 = 0 ∨ (getPort s p).attempts + 1 < attPar
  (getPort s p) 0x01) :=
  ⟨300, p300 idle fun x => { x with st := .negotiate, neg := { Neg.none with open_ := true, nonce := 3 } }, by
    decide⟩

theorem wit_NegotiationRows_3 : ∃ (p : PortId) (s : State), negOpen (getPort s p) = true ∧ (getPort s
  p).neg.gotBase = true ∧ herdsRun s = true ∧ (attPar (getPort s p) 0x01 = 0 ∨ (getPort s p).attempts + 1 < attPar
  (getPort s p) 0x01) :=
  ⟨300, p300 idle fun x => { x with st := .negotiate, neg := { Neg.none with open_ := true, gotBase := true } }, by
    decide⟩

theorem wit_NegotiationRows_4 : ∃ (p : PortId) (s : State), negOpen (getPort s p) = true ∧ (getPort s
  p).neg.gotBase = false ∧ herdsRun s = true ∧ attPar (getPort s p) 0x01 ≠ 0 ∧ attPar (getPort s p) 0x01 ≤ (getPort
  s p).attempts + 1 :=
  ⟨300, p300 idle fun x =>
    { x with st := .negotiate, attempts := 7, att := [(1, 8)], neg := { Neg.none with open_ := true, nonce := 3 } },
    by decide⟩

theorem wit_NegotiationRows_5 : ∃ (p : PortId) (page : BasePage) (s : State), negOpen (getPort s p) = true ∧
  (getPort s p).neg.basePages = true ∧ page.selector = 1 ∧ herdsRun s = true ∧ s.pwr.padsHeld = false ∧ page.nonce
  ≠ (getPort s p).neg.nonce ∧ page.np = true ∧ (page.ack = false ∨ page.echoed = (getPort s p).neg.nonce) ∧
  (getPort s p).neg.gotBase = false :=
  ⟨300, { selector := 1, echoed := 3, nonce := 4, ack := true, np := true }, p300 idle fun x =>
    { x with st := .negotiate, neg := { Neg.none with open_ := true, nonce := 3, basePages := true } }, by decide⟩

theorem wit_NegotiationRows_6 : ∃ (p : PortId) (page : BasePage) (s : State), negOpen (getPort s p) = true ∧
  (getPort s p).neg.basePages = true ∧ page.selector = 1 ∧ herdsRun s = true ∧ page.nonce = (getPort s p).neg.nonce
  ∧ (attPar (getPort s p) 0x01 = 0 ∨ (getPort s p).attempts + 1 < attPar (getPort s p) 0x01) :=
  ⟨300, { selector := 1, echoed := 0, nonce := 3, ack := false, np := true }, p300 idle fun x =>
    { x with st := .negotiate, neg := { Neg.none with open_ := true, nonce := 3, basePages := true } }, by decide⟩

theorem wit_NegotiationRows_7 : ∃ (p : PortId) (page : BasePage) (s : State), negOpen (getPort s p) = true ∧
  (getPort s p).neg.basePages = true ∧ page.selector = 1 ∧ herdsRun s = true ∧ page.nonce ≠ (getPort s p).neg.nonce
  ∧ page.ack = true ∧ page.echoed ≠ (getPort s p).neg.nonce :=
  ⟨300, { selector := 1, echoed := 9, nonce := 4, ack := true, np := true }, p300 idle fun x =>
    { x with st := .negotiate, neg := { Neg.none with open_ := true, nonce := 3, basePages := true } }, by decide⟩

theorem wit_NegotiationRows_8 : ∃ (p : PortId) (reads : List (CtxKey × CtxRead)) (k : BitVec 11) (u : BitVec 32) (s
  : State), negOpen (getPort s p) = true ∧ (getPort s p).neg.gotBase = true ∧ herdsRun s = true ∧ s.pwr.padsHeld =
  false ∧ k ≠ 5 :=
  ⟨300, [], 6, 1, p300 idle fun x =>
    { x with st := .negotiate, neg := { Neg.none with open_ := true, gotBase := true } }, by decide⟩

theorem wit_NegotiationRows_9 : ∃ (p : PortId) (reads : List (CtxKey × CtxRead)) (s : State), negOpen (getPort s p)
  = true ∧ (getPort s p).neg.gotBase = true ∧ herdsRun s = true ∧ s.pwr.padsHeld = false :=
  ⟨300, [], p300 idle fun x =>
    { x with st := .negotiate, neg := { Neg.none with open_ := true, gotBase := true } }, by decide⟩

theorem wit_NegotiationRows_10 : ∃ (p : PortId) (reads : List (CtxKey × CtxRead)) (d : BitVec 11) (u : BitVec 32)
  (s : State), negOpen (getPort s p) = true ∧ (getPort s p).neg.gotBase = true ∧ (getPort s p).neg.gotOffer = true
  ∧ herdsRun s = true ∧ s.pwr.padsHeld = false :=
  ⟨300, [], 1, 77, p300 idle fun x =>
    { x with st := .negotiate, neg := { Neg.none with open_ := true, gotBase := true, gotOffer := true } }, by
    decide⟩

theorem wit_NegotiationRows_11 : ∃ (p : PortId) (reads : List (CtxKey × CtxRead)) (d : BitVec 11) (u : BitVec 32)
  (n : Neg) (s : State), negOpen (getPort s p) = true ∧ (getPort s p).neg.gotBase = true ∧ (getPort s
  p).neg.gotOffer = true ∧ herdsRun s = true ∧ s.pwr.padsHeld = false ∧ n =
  { (getPort s p).neg with tag := ((getPort s p).neg.tag &&& 0xFFFFFFFF) ||| ((d.setWidth 7).setWidth 39 <<< 32), port := u.setWidth 9, modes := (u >>> 9).setWidth 5, modeFixed := u.getLsbD 14, fecs := (u >>> 15).setWidth 2 }
  :=
  ⟨300, [], 1, 0x18205,
    { Neg.none with open_ := true, gotBase := true, gotOffer := true, tag := 0x100000000, port := 5, modes := 1, fecs := 3 },
    p300 idle fun x =>
    { x with st := .negotiate, neg := { Neg.none with open_ := true, gotBase := true, gotOffer := true } }, by
    decide⟩

theorem wit_NegotiationRows_12 : ∃ (p : PortId) (reads : List (CtxKey × CtxRead)) (d : BitVec 11) (u : BitVec 32)
  (s : State), negOpen (getPort s p) = true ∧ (getPort s p).neg.gotBase = true ∧ (getPort s p).neg.gotOffer = true
  ∧ herdsRun s = true ∧ s.pwr.padsHeld = false :=
  ⟨300, [], 1, 77, p300 idle fun x =>
    { x with st := .negotiate, neg := { Neg.none with open_ := true, gotBase := true, gotOffer := true } }, by
    decide⟩

theorem wit_NegotiationRows_13 : ∃ (p : PortId) (reads : List (CtxKey × CtxRead)) (u : BitVec 32) (n : Neg) (m :
  LineMode) (f : BitVec 8) (r : Role) (s : State), negOpen (getPort s p) = true ∧ (getPort s p).neg.gotBase = true
  ∧ (getPort s p).neg.gotOffer = true ∧ herdsRun s = true ∧ s.pwr.padsHeld = false ∧ n =
  { (getPort s p).neg with pGen := u } ∧ commonMode n = some m ∧ commonFec (attPar (getPort s p) 0x05) n.fecs m =
  some f ∧ resolveRole n = some r ∧ ((getHerd s (herdOf p)).resolved = some m ∨ (getHerd s (herdOf p)).resolved =
  none) ∧ ctxMatch n = none :=
  ⟨300, [], 7,
    { Neg.none with open_ := true, basePages := true, gotBase := true, gotOffer := true, nonce := 3, seed := 9, pSeed := 4, modes := 1, fecs := 3, myModes := 1, tag := 5, port := 6, pGen := 7 },
    .l100, 0, .master, p300 idle fun x =>
    { x with st := .negotiate, neg := { Neg.none with open_ := true, basePages := true, gotBase := true, gotOffer := true, nonce := 3, seed := 9, pSeed := 4, modes := 1, fecs := 3, myModes := 1, tag := 5, port := 6 } },
    by decide⟩

theorem wit_NegotiationRows_14 : ∃ (p : PortId) (reads : List (CtxKey × CtxRead)) (u : BitVec 32) (n : Neg) (m :
  LineMode) (f : BitVec 8) (r : Role) (e : Ctx) (s : State), negOpen (getPort s p) = true ∧ (getPort s
  p).neg.gotBase = true ∧ (getPort s p).neg.gotOffer = true ∧ herdsRun s = true ∧ s.pwr.padsHeld = false ∧ n =
  { (getPort s p).neg with pGen := u } ∧ commonMode n = some m ∧ commonFec (attPar (getPort s p) 0x05) n.fecs m =
  some f ∧ resolveRole n = some r ∧ ((getHerd s (herdOf p)).resolved = some m ∨ (getHerd s (herdOf p)).resolved =
  none) ∧ ctxMatch n = some e :=
  ⟨300, [], 8,
    { Neg.none with open_ := true, basePages := true, gotBase := true, gotOffer := true, nonce := 3, seed := 9, pSeed := 4, modes := 1, fecs := 3, myModes := 1, tag := 5, port := 6, pGen := 8, pSig := 5, ctxValid := true, offer := some { captureCtx State.reset 300 3 with partner := 2566, sig := 5, gen := 8 } },
    .l100, 0, .master, { captureCtx State.reset 300 3 with partner := 2566, sig := 5, gen := 8 }, p300 idle fun x
    =>
    { x with st := .negotiate, neg := { Neg.none with open_ := true, basePages := true, gotBase := true, gotOffer := true, nonce := 3, seed := 9, pSeed := 4, modes := 1, fecs := 3, myModes := 1, tag := 5, port := 6, pSig := 5, ctxValid := true, offer := some { captureCtx State.reset 300 3 with partner := 2566, sig := 5, gen := 8 } } },
    by decide⟩

theorem wit_NegotiationRows_15 : ∃ (p : PortId) (s : State), herdsRun s = true ∧ (getPort s p).st = .hold :=
  ⟨300, p300 idle fun x => { x with st := .hold }, by decide⟩

theorem wit_NegotiationRows_16 : ∃ (p : PortId) (s : State), herdsRun s = true ∧ (getPort s p).st = .t0 ∧ (attPar
  (getPort s p) 0x01 = 0 ∨ (getPort s p).attempts + 1 < attPar (getPort s p) 0x01) :=
  ⟨300, p300 idle fun x => { x with st := .t0 }, by decide⟩

theorem wit_SpringbokRows_1 : ∃ (p : PortId) (e : Ctx) (read : CtxRead) (s : State), (getPort s p).st = .springbok
  ∧ (getPort s p).line.on = false ∧ (getPort s p).start.ctx = some e ∧ readCause p e read = 0 ∧ herdsRun s = true
  :=
  ⟨300, { captureCtx State.reset 300 3 with partner := 2566, sig := 5, gen := 8 },
    { crcOk := true, dirOk := true, magic := ctxMagic, format := ctxFormat, port := 300, partner := 2566, sig := 5 },
    p300 idle fun x =>
    { x with st := .springbok, role := some .slave, start := { Start.none with ctx := some { captureCtx State.reset 300 3 with partner := 2566, sig := 5, gen := 8 } } },
    by decide⟩

theorem wit_SpringbokRows_2 : ∃ (p : PortId) (e : Ctx) (read : CtxRead) (s : State), (getPort s p).st = .springbok
  ∧ (getPort s p).line.on = false ∧ (getPort s p).start.ctx = some e ∧ readCause p e read ≠ 0 ∧ herdsRun s = true
  :=
  ⟨300, { captureCtx State.reset 300 3 with partner := 2566, sig := 5, gen := 8 },
    { crcOk := false, dirOk := true, magic := ctxMagic, format := ctxFormat, port := 300, partner := 2566, sig := 5 },
    setDir (p300 idle fun x =>
    { x with st := .springbok, start := { Start.none with ctx := some { captureCtx State.reset 300 3 with partner := 2566, sig := 5, gen := 8 } } })
    300 { entries := [{ captureCtx State.reset 300 3 with partner := 2566, sig := 5, gen := 8 }], freeSlot := 24 },
    by decide⟩

theorem wit_SpringbokRows_3 : ∃ (p : PortId) (s : State), (getPort s p).st = .springbok ∧ (getPort s p).line.on =
  true ∧ (getPort s p).start.checkPass = false ∧ (getPort s p).role = some .master ∧ marginCheck (getPort s p) =
  true ∧ herdsRun s = true :=
  ⟨300, p300 idle fun x =>
    { x with st := .springbok, role := some .master, lock := { Locks.none with timing := true, frame := Quad.all true }, pairs := quadMap (fun q => { q with dsp := { PairDsp.reset with sq := List.replicate 2048 0 }, margin := 0x7FFF }) x.pairs, line := { LineIo.off with on := true }, start := { Start.none with ctx := some { captureCtx State.reset 300 3 with partner := 2566, sig := 5, gen := 8 } } },
    by decide⟩

theorem wit_SpringbokRows_4 : ∃ (p : PortId) (s : State), marginCheck (getPort s p) = false :=
  ⟨300, p300 idle fun x => { x with st := .springbok }, by decide⟩

theorem wit_SpringbokRows_5 : ∃ (p : PortId) (s : State), (getPort s p).st = .springbok ∧ herdsRun s = true :=
  ⟨300, p300 idle fun x => { x with st := .springbok }, by decide⟩

theorem wit_TahrPhases_1 : ∃ (p : PortId) (s : State), (getPort s p).st = .t0 ∧ herdsRun s = true :=
  ⟨300, p300 idle fun x => { x with st := .t0 }, by decide⟩

theorem wit_TahrPhases_2 : ∃ (p : PortId) (s : State), (getPort s p).st = .t0 ∧ (getPort s p).start.calibrated =
  true ∧ (getPort s p).role = some .master ∧ herdsRun s = true ∧ (getPort s p).start.locked = false :=
  ⟨300, p300 idle fun x =>
    { x with st := .t0, role := some .master, start := { Start.none with calibrated := true } }, by decide⟩

theorem wit_TahrPhases_3 : ∃ (p : PortId) (s : State), (getPort s p).st = .t0 ∧ (getPort s p).start.calibrated =
  true ∧ (getPort s p).role = some .master ∧ herdsRun s = true ∧ (getPort s p).start.locked = true :=
  ⟨300, p300 idle fun x =>
    { x with st := .t0, role := some .master, start := { Start.none with calibrated := true, locked := true } }, by
    decide⟩

theorem wit_TahrPhases_4 : ∃ (p : PortId) (s : State), (getPort s p).st = .t0 ∧ (getPort s p).start.calibrated =
  true ∧ herdsRun s = true ∧ trainLocked (getPort s p) = true ∧ (getPort s p).role = some .slave :=
  ⟨300, p300 idle fun x =>
    { x with st := .t0, role := some .slave, lock := { Locks.none with marker := true, frame := Quad.all true }, start := { Start.none with calibrated := true } },
    by decide⟩

theorem wit_TahrPhases_5 : ∃ (p : PortId) (s : State), (getPort s p).st = .t0 ∧ (getPort s p).start.calibrated =
  true ∧ herdsRun s = true ∧ trainLocked (getPort s p) = true ∧ (getPort s p).role = some .master :=
  ⟨300, p300 idle fun x =>
    { x with st := .t0, role := some .master, lock := { Locks.none with marker := true, frame := Quad.all true }, start := { Start.none with calibrated := true } },
    by decide⟩

theorem wit_TahrPhases_6 : ∃ (p : PortId) (s : State), trainLocked (getPort s p) = false :=
  ⟨300, p300 idle fun x =>
    { x with st := .t0, role := some .slave, start := { Start.none with calibrated := true } }, by decide⟩

theorem wit_TahrPhases_7 : ∃ (p : PortId) (a : BitVec 32) (s : State), (getPort s p).st = .t0 ∧ (getPort s p).role
  = some .slave ∧ (getPort s p).start.calibrated = true ∧ herdsRun s = true ∧ trainOk a a = true ∧ fld a 28 4 = 2
  :=
  ⟨300, trainWord 2 4 false true false, p300 idle fun x =>
    { x with st := .t0, role := some .slave, start := { Start.none with calibrated := true } }, by decide⟩

theorem wit_TahrPhases_8 : ∃ (p : PortId) (a : BitVec 32) (s : State), (getPort s p).st = .t1 ∧ herdsRun s = true ∧
  trainOk a a = true ∧ fld a 28 4 = 2 :=
  ⟨300, trainWord 2 4 false true false, p300 idle fun x => { x with st := .t1 }, by decide⟩

theorem wit_TahrPhases_9 : ∃ (p : PortId) (a : BitVec 32) (b : BitVec 32) (s : State), trainOk a b = false :=
  ⟨300, 5, 6, p300 idle fun x => { x with st := .t1 }, by decide⟩

theorem wit_TahrPhases_10 : ∃ (p : PortId) (s : State), (getPort s p).st = .t1 ∧ herdsRun s = true ∧ (getPort s
  p).start.lastAt = 0 ∧ (getPort s p).start.window + 1 < 31 ∧ (getPort s p).start.window ≠ 1 :=
  ⟨300, p300 idle fun x => { x with st := .t1, role := some .slave, start := { Start.none with window := 27 } }, by
    decide⟩

theorem wit_TahrPhases_11 : ∃ (p : PortId) (s : State), (getPort s p).st = .t1 ∧ herdsRun s = true ∧ (((getPort s
  p).start.lastAt ≠ 0 ∧ (getPort s p).start.lastAt + 2 ≤ (getPort s p).start.window + 1) ∨ 31 ≤ (getPort s
  p).start.window + 1) :=
  ⟨300, p300 idle fun x => { x with st := .t1, start := { Start.none with window := 10, lastAt := 9 } }, by decide⟩

theorem wit_TahrPhases_12 : ∃ (p : PortId) (s : State), (getPort s p).st = .t2 ∧ (getPort s p).role = some .master
  ∧ t2Met (getPort s p) = true ∧ herdsRun s = true :=
  ⟨300, p300 idle fun x =>
    { x with st := .t2, role := some .master, lock := { Locks.none with timing := true, frame := Quad.all true }, pairs := quadMap (fun q => { q with canLevel := 1, eqLevel := 1, dsp := { PairDsp.reset with ms := [190, 190, 190, 190] } }) x.pairs },
    by decide⟩

theorem wit_TahrPhases_13 : ∃ (p : PortId) (s : State), t2Met (getPort s p) = false :=
  ⟨300, p300 idle fun x => { x with st := .t2, role := some .master }, by decide⟩

theorem wit_TahrAborts_1 : ∃ (p : PortId) (errs : List Nat) (skews : List Nat) (s : State), (getPort s p).st = .t0
  ∧ herdsRun s = true ∧ (quadList (getPort s p).lock.frame).all id = true ∧ markerFound errs = true ∧ (skews.take
  4).any (fun k => decide (64 < k)) = true ∧ (attPar (getPort s p) 0x01 = 0 ∨ (getPort s p).attempts + 1 < attPar
  (getPort s p) 0x01) :=
  ⟨300, [0, 3, 3, 9], [64, 0, 65, 0], p300 idle fun x =>
    { x with st := .t0, lock := { Locks.none with marker := true, frame := Quad.all true } }, by decide⟩

theorem wit_TahrAborts_2 : ∃ (p : PortId) (s : State), (getPort s p).st = .t0 ∧ herdsRun s = true ∧ (attPar
  (getPort s p) 0x01 = 0 ∨ (getPort s p).attempts + 1 < attPar (getPort s p) 0x01) :=
  ⟨300, p300 idle fun x => { x with st := .t0 }, by decide⟩

theorem wit_TahrAborts_3 : ∃ (p : PortId) (s : State), (getPort s p).st = .t2 ∧ herdsRun s = true ∧ (attPar
  (getPort s p) 0x01 = 0 ∨ (getPort s p).attempts + 1 < attPar (getPort s p) 0x01) :=
  ⟨300, p300 idle fun x => { x with st := .t2 }, by decide⟩

theorem wit_TahrAborts_4 : ∃ (p : PortId) (s : State), (getPort s p).st = .t3 ∧ herdsRun s = true ∧ (attPar
  (getPort s p) 0x01 = 0 ∨ (getPort s p).attempts + 1 < attPar (getPort s p) 0x01) :=
  ⟨300, p300 idle fun x => { x with st := .t3 }, by decide⟩

theorem wit_InfoFieldRows_1 : ∃ (p : PortId) (bits : BitVec 128) (s : State), crc32c (beBytes 12 (((bits >>>
  32).setWidth 96 : BitVec 96)).toNat) ≠ bits.setWidth 32 :=
  ⟨300, 0x1007000000000000000000012a43b219 ^^^ 1, p300 idle fun x =>
    { x with st := .up, lock := { Locks.none with marker := true } }, by decide⟩

theorem wit_InfoFieldRows_2 : ∃ (p : PortId) (bits : BitVec 128) (s : State), crc32c (beBytes 12 (((bits >>>
  32).setWidth 96 : BitVec 96)).toNat) = bits.setWidth 32 ∧ (getPort s p).st = .up ∧ (getPort s p).lock.marker =
  true ∧ herdsRun s = true ∧ (getPort s p).info.current = none ∧ (bits >>> 120).setWidth 8 = (0x10 : BitVec 8) ∧
  (bits >>> 112).setWidth 8 ≠ (getPort s p).info.ackSeq ∧ bits.getLsbD 32 = true ∧ (getPort s p).loop = .none ∧
  (getPort s p).info.myCaps.getLsbD 54 = true :=
  ⟨300, 0x1007000000000000000000012a43b219, p300 idle fun x =>
    { x with st := .up, lock := { Locks.none with marker := true }, info := { Info.fresh with myCaps := 0x40000000000000 } },
    by decide⟩

theorem wit_InfoFieldRows_3 : ∃ (p : PortId) (bits : BitVec 128) (s : State), crc32c (beBytes 12 (((bits >>>
  32).setWidth 96 : BitVec 96)).toNat) = bits.setWidth 32 ∧ (getPort s p).st = .up ∧ (getPort s p).info.current =
  none ∧ (bits >>> 112).setWidth 8 = (getPort s p).info.ackSeq :=
  ⟨300, 0x1007000000000000000000012a43b219, p300 idle fun x =>
    { x with st := .up, lock := { Locks.none with marker := true }, info := { Info.fresh with ackSeq := 7 } }, by
    decide⟩

theorem wit_InfoFieldRows_4 : ∃ (c : Cmd) (p : PortId) (m : Msg) (s : State), Runs s c ∧ (getPort s p).info.current
  = some m ∧ m.type = 0x10 ∧ m.cmd = some c ∧ Wait.loop p c (m.payload.getLsbD 0) ∈ s.waits ∧ herdsRun s = true :=
  ⟨cmdOf 263 300 0xFFFF, 300, { type := 0x10, payload := 1, cmd := some (cmdOf 263 300 0xFFFF) },
    { p300 (run (cmdOf 263 300 0xFFFF)) fun x => { x with st := .up, info := { Info.fresh with current := some { type := 0x10, payload := 1, cmd := some (cmdOf 263 300 0xFFFF) } } } with waits := [.loop 300 (cmdOf 263 300 0xFFFF) true] },
    by decide⟩

theorem wit_InfoFieldRows_5 : ∃ (c : Cmd) (p : PortId) (m : Msg) (s : State), Runs s c ∧ (getPort s p).info.current
  = some m ∧ m.type = 0x20 ∧ m.cmd = some c ∧ (pairedOf s c).isSome = true ∧ herdsRun s = true :=
  ⟨cmdOf 769 300 0xFFFF, 300, { type := 0x20, payload := 1, cmd := some (cmdOf 769 300 0xFFFF) },
    { p300 (run (cmdOf 769 300 0xFFFF)) fun x => { x with st := .up, info := { Info.fresh with current := some { type := 0x20, payload := 1, cmd := some (cmdOf 769 300 0xFFFF) } } } with waits := [.paired 300 (cmdOf 769 300 0xFFFF) true false] },
    by decide⟩

theorem wit_InfoFieldRows_6 : ∃ (p : PortId) (m : Msg) (s : State), (getPort s p).info.current = some m ∧ m.cmd =
  none ∧ herdsRun s = true :=
  ⟨300, { type := 1, payload := 5, cmd := none }, p300 idle fun x =>
    { x with st := .t3, info := { Info.fresh with current := some { type := 1, payload := 5, cmd := none } } }, by
    decide⟩

theorem wit_LockRows_1 : ∃ (p : PortId) (i : PairId) (b : Bool) (n : Nat) (s : State), herdsRun s = true :=
  ⟨300, 3, false, 8, p300 idle fun x =>
    { x with lock := { Locks.none with frame := Quad.all true, marker := true, missed := 2 } }, by decide⟩

theorem wit_LockRows_2 : ∃ (p : PortId) (errs : List Nat) (skews : List Nat) (s : State), (quadList (getPort s
  p).lock.frame).all id = true ∧ markerFound errs = true ∧ (getPort s p).st ≠ .t0 ∧ herdsRun s = true :=
  ⟨300, [3, 9, 0, 1], [0, 64, 1, 2], p300 idle fun x =>
    { x with st := .up, lock := { Locks.none with frame := Quad.all true, marker := true, missed := 2 } }, by
    decide⟩

theorem wit_LockRows_3 : ∃ (p : PortId) (errs : List Nat) (skews : List Nat) (s : State), (quadList (getPort s
  p).lock.frame).all id = true ∧ markerFound errs = false ∧ lineSleeps (getPort s p) = false ∧ herdsRun s = true :=
  ⟨300, [4, 4, 0, 1], [], p300 idle fun x =>
    { x with st := .up, lock := { Locks.none with frame := Quad.all true, marker := true, missed := 2 } }, by
    decide⟩

theorem wit_LockRows_4 : ∃ (p : PortId) (rms : Nat) (peak : Nat) (s : State), (150 < rms ∨ 500 < peak) ∧ herdsRun s
  = true :=
  ⟨300, 10, 501, idle, by decide⟩

theorem wit_LockRows_5 : ∃ (p : PortId) (rms : Nat) (peak : Nat) (s : State), rms < 50 ∧ peak ≤ 500 ∧ herdsRun s =
  true :=
  ⟨300, 49, 500, idle, by decide⟩

theorem wit_LockRows_6 : ∃ (p : PortId) (rms : Nat) (peak : Nat) (s : State), 50 ≤ rms ∧ rms ≤ 150 ∧ peak ≤ 500 ∧
  herdsRun s = true :=
  ⟨300, 150, 500, idle, by decide⟩

theorem wit_LockRows_7 : ∃ (p : PortId) (i : PairId) (s : State), (quadGet (getPort s p).pairs i).far.length = 4 ∧
  (quadGet (getPort s p).pairs i).far.all (farAtLeast · 12) = true ∧ herdsRun s = true :=
  ⟨300, 0, p300 idle fun x =>
    { x with pairs := quadMap (fun q => { q with far := [1300000, 1300000, 1300000, 1300000] }) x.pairs }, by
    decide⟩

theorem wit_LockRows_8 : ∃ (p : PortId) (i : PairId) (s : State), (quadGet (getPort s p).pairs i).far.length = 4 ∧
  (quadGet (getPort s p).pairs i).far.all (!farAtLeast · 6) = true ∧ herdsRun s = true :=
  ⟨300, 0, p300 idle fun x =>
    { x with lock := { Locks.none with signal := Quad.all true }, pairs := quadMap (fun q => { q with far := [300, 0, 5, 9] }) x.pairs },
    by decide⟩

theorem wit_LockRows_9 : ∃ (p : PortId) (s : State), (((getPort s p).st = .t1 ∧ ownWindow (getPort s p) = false) ∨
  (getPort s p).st = .t2 ∨ (getPort s p).st = .t3) ∧ allSignal (getPort s p) = false ∧ herdsRun s = true :=
  ⟨300, p300 idle fun x => { x with st := .t2 }, by decide⟩

theorem wit_LockRows_10 : ∃ (p : PortId) (s : State), (getPort s p).st = .t1 ∧ ownWindow (getPort s p) = true :=
  ⟨300, p300 idle fun x => { x with st := .t1, role := some .master, start := { Start.none with window := 3 } }, by
    decide⟩

theorem wit_LineRows_1 : ∃ (p : PortId) (slot : RxSlot) (s : State), rxPhase (getPort s p) = some .duplex ∧
  lineClocked s p = true ∧ slotFramed (getPort s p) = true :=
  ⟨300, { samples := [], verdict := .ok [], kind := .data, agc := [] }, p300 idle fun x =>
    { x with st := .up, lock := { Locks.none with signal := Quad.all true, frame := Quad.all true, timing := true } },
    by decide⟩

theorem wit_LineRows_2 : ∃ (p : PortId) (slot : RxSlot) (l : List (Fin 544 × BitVec 10)) (s : State), rxPhase
  (getPort s p) = some .duplex ∧ lineClocked s p = true ∧ slotFramed (getPort s p) = true ∧ slotClass ((quadList
  (rxShares (rxStretch s p .duplex slot).1 p (rxStretch s p .duplex slot).2).2).flatMap leadWords) = none ∧
  slot.verdict = .ok l ∧ (getPort s p).st = .up ∧ (getPort s p).lpi.st = .active ∧ (getPort s p).loop = .none ∧
  (getPort s p).fec = 0 ∧ laneSends (getPort s p).lane = true ∧ (getPort s p).lane.gen = 0 ∧ (getPort s
  p).lane.live = false :=
  ⟨300, { samples := [], verdict := .ok [(5, 2)], kind := .data, agc := [] }, [(5, 2)], p300 idle fun x =>
    { x with st := .up, lock := { Locks.none with signal := Quad.all true, frame := Quad.all true, timing := true }, lane := { Lane.reset with st := .active } },
    by decide⟩

theorem wit_LineRows_3 : ∃ (p : PortId) (sh : Quad (List Bool)) (slot : RxSlot) (s : State), slotClass ((quadList
  sh).flatMap leadWords) = none ∧ slot.verdict = .uncorrectable ∧ ((true :: (getPort s p).dp.uncorr).take
  4096).count true ≤ livePar (getPort s p) 0x08 ∧ (getPort s p).st = .up ∧ (getPort s p).lpi.st = .active ∧
  (getPort s p).loop = .none ∧ (getPort s p).fec = 0 :=
  ⟨300, Quad.all [], { samples := [], verdict := .uncorrectable, kind := .data, agc := [] }, p300 idle fun x =>
    { x with st := .up, lock := { Locks.none with signal := Quad.all true, frame := Quad.all true, timing := true }, lane := { Lane.reset with st := .active } },
    by decide⟩

theorem wit_LineRows_4 : ∃ (p : PortId) (sh : Quad (List Bool)) (slot : RxSlot) (s : State), slotClass ((quadList
  sh).flatMap leadWords) = some codeIdle ∧ (getPort s p).line.rxSleeping = false ∧ (getPort s p).st = .up ∧
  (getPort s p).lpi.st = .active ∧ (getPort s p).loop = .none ∧ (getPort s p).fec = 0 ∧ laneSends (getPort s
  p).lane = true ∧ (getPort s p).lane.gen = 0 ∧ (getPort s p).lane.live = false :=
  ⟨300, (Quad.all ((List.replicate 5 codeIdle).flatMap fun k => (List.range 16).map fun n => (k : BitVec
    16).getLsbD (15 - n))), { samples := [], verdict := .uncorrectable, kind := .data, agc := [] }, p300 idle fun x
    =>
    { x with st := .up, lock := { Locks.none with signal := Quad.all true, frame := Quad.all true, timing := true }, lane := { Lane.reset with st := .active } },
    by decide⟩

theorem wit_LineRows_5 : ∃ (p : PortId) (sh : Quad (List Bool)) (slot : RxSlot) (s : State), slotClass ((quadList
  sh).flatMap leadWords) = some codeAlert ∧ (getPort s p).st = .up ∧ (getPort s p).lpi.st = .quiet ∧ (getPort s
  p).loop = .none :=
  ⟨300, (Quad.all ((List.replicate 5 codeAlert).flatMap fun k => (List.range 16).map fun n => (k : BitVec
    16).getLsbD (15 - n))), { samples := [], verdict := .uncorrectable, kind := .data, agc := [] }, p300 idle fun x
    => { x with st := .up, lpi := { Lpi.reset with st := .quiet } }, by decide⟩

theorem wit_LineRows_6 : ∃ (p : PortId) (q : HostCw) (l : List HostCw) (s : State), lineClocked s p = true ∧
  (getPort s p).loop ≠ .digital ∧ (getPort s p).line.train = none ∧ (getPort s p).line.on = true ∧ (getPort s p).st
  = .up ∧ (getPort s p).lpi.st = .active ∧ (getPort s p).line.infoLeft = 0 ∧ (getPort s p).dp.cwLock = true ∧
  (getPort s p).dp.elastic = q :: l ∧ q.kind ≠ .idle :=
  ⟨300, { verdict := .ok [], kind := .data, symbols := [], ppm := 3 }, [], p300 idle fun x =>
    { x with st := .up, dp := { DataPath.empty with cwLock := true, elastic := [{ verdict := .ok [], kind := .data, symbols := [], ppm := 3 }] }, line := { LineIo.off with on := true, slotNo := 16383 } },
    by decide⟩

theorem wit_LineRows_7 : ∃ (p : PortId) (s : State), lineClocked s p = true ∧ (getPort s p).loop ≠ .digital ∧
  (getPort s p).line.train = none ∧ (getPort s p).line.on = true ∧ (getPort s p).st = .up ∧ (getPort s p).lpi.st =
  .quiet ∧ (getPort s p).loop = .none :=
  ⟨300, p300 idle fun x =>
    { x with st := .up, line := { LineIo.off with on := true }, lpi := { Lpi.reset with st := .quiet } }, by
    decide⟩

theorem wit_LineRows_8 : ∃ (p : PortId) (w : BitVec 32) (n : Nat) (s : State), lineClocked s p = true ∧ (getPort s
  p).loop ≠ .digital ∧ (getPort s p).line.train = some (w, n) :=
  ⟨300, trainWord 1 0 false false false, 5000, p300 idle fun x =>
    { x with st := .t0, line := { LineIo.off with train := some (trainWord 1 0 false false false, 5000) } }, by
    decide⟩

theorem wit_LineRows_9 : ∃ (p : PortId) (q : HostCw) (s : State), (getPort s p).dp.cwLock = true ∧ (getPort s
  p).lane.st ≠ .idle ∧ herdsRun s = true ∧ (getPort s p).st = .up ∧ (getPort s p).loop = .none ∧ (getPort s
  p).lpi.st = .active ∧ (getPort s p).line.infoLeft = 0 ∧ (getPort s p).fec = 1 ∧ (hostGroup (getPort s p) q).kind
  = .data ∧ (getPort s p).dp.wake = [] ∧ (getPort s p).dp.elastic.length < adapterRoom :=
  ⟨300, { verdict := .ok [], kind := .data, symbols := [], ppm := 3 }, p300 idle fun x =>
    { x with st := .up, fec := 1, lane := { Lane.reset with st := .active }, dp := { DataPath.empty with cwLock := true } },
    by decide⟩

theorem wit_LineRows_10 : ∃ (p : PortId) (q : HostCw) (s : State), (getPort s p).dp.cwLock = true ∧ (getPort s
  p).lane.st ≠ .idle ∧ herdsRun s = true ∧ (getPort s p).st = .up ∧ (getPort s p).loop = .none ∧ (getPort s
  p).lpi.st = .active ∧ (getPort s p).line.infoLeft = 0 ∧ (getPort s p).fec = 0 ∧ (hostGroup (getPort s p) q).kind
  = .data ∧ 2 ≤ (getPort s p).dp.elastic.length :=
  ⟨300, { verdict := .ok [], kind := .data, symbols := [], ppm := 3 }, p300 idle fun x =>
    { x with st := .up, lane := { Lane.reset with st := .active }, dp := { DataPath.empty with cwLock := true, elastic := [{ verdict := .ok [], kind := .data, symbols := [], ppm := 3 }, { verdict := .ok [], kind := .data, symbols := [], ppm := 3 }] } },
    by decide⟩

theorem wit_LineRows_11 : ∃ (p : PortId) (b : Bool) (s : State), herdsRun s = true :=
  ⟨300, true, p300 idle fun x => { x with st := .up }, by decide⟩

theorem wit_LpiRows_1 : ∃ (c : Cmd) (p : PortId) (autoIdle : BitVec 8) (events : BitVec 8) (timer : BitVec 32) (s :
  State), Runs s c ∧ myTurn s c = true ∧ portGate s p = none ∧ autoIdle.toNat ≤ 1 ∧ events.toNat ≤ 1 ∧ 5 ≤
  timer.toNat ∧ timer.toNat ≤ 10000 :=
  ⟨cmdOf 2305 300 0xFFFF, 300, 0, 1, 10000, run (cmdOf 2305 300 0xFFFF), by decide⟩

theorem wit_LpiRows_2 : ∃ (c : Cmd) (p : PortId) (autoIdle : BitVec 8) (events : BitVec 8) (timer : BitVec 32) (s :
  State), Runs s c ∧ myTurn s c = true ∧ portGate s p = none ∧ autoIdle.toNat ≤ 1 ∧ events.toNat ≤ 1 ∧ 5 ≤
  timer.toNat ∧ timer.toNat ≤ 10000 ∧ (getPort s p).lpi.st = .quiet :=
  ⟨cmdOf 2305 300 0xFFFF, 300, 1, 0, 5, p300 (run (cmdOf 2305 300 0xFFFF)) fun x =>
    { x with st := .up, lpi := { Lpi.reset with st := .quiet } }, by decide⟩

theorem wit_LpiRows_3 : ∃ (p : PortId) (s : State), (getPort s p).dp.cwLock = true ∧ herdsRun s = true ∧ (getPort s
  p).st = .up ∧ (getPort s p).lpi.st = .active ∧ (getPort s p).lpiCfg.enable = true ∧ (getPort s p).lpiCfg.autoIdle
  = true ∧ (getPort s p).fec = 1 ∧ (getPort s p).dp.wake = [] ∧ (getPort s p).dp.lpiRun < 4 :=
  ⟨300, p300 idle fun x => { x with st := .up, fec := 1, dp := { DataPath.empty with cwLock := true } }, by decide⟩

theorem wit_LpiRows_4 : ∃ (p : PortId) (s : State), (getPort s p).st = .up ∧ (getPort s p).lpi.st = .quiet ∧
  herdsRun s = true ∧ ((getPort s p).role ≠ some .slave ∨ anySignal (getPort s p) = true) :=
  ⟨300, p300 idle fun x => { x with st := .up, role := some .master, lpi := { Lpi.reset with st := .quiet } }, by
    decide⟩

theorem wit_LpiRows_5 : ∃ (p : PortId) (s : State), (getPort s p).st = .up ∧ (getPort s p).lpi.st = .quiet ∧
  herdsRun s = true ∧ (getPort s p).role = some .slave ∧ anySignal (getPort s p) = false :=
  ⟨300, p300 idle fun x => { x with st := .up, role := some .slave, lpi := { Lpi.reset with st := .quiet } }, by
    decide⟩

theorem wit_LpiRows_6 : ∃ (p : PortId) (s : State), (getPort s p).st = .up ∧ (getPort s p).lpi.st = .refresh ∧
  herdsRun s = true ∧ (getHerd s (herdOf p)).st ≠ .fwRestart ∧ ((getPort s p).lpi.extended = false ∨ atSuperframe
  (getPort s p) = true) ∧ refreshPasses (getPort s p) true = true ∧ ((getPort s p).role ≠ some .slave ∨ anySignal
  (getPort s p) = false) :=
  ⟨300, p300 idle fun x =>
    { x with st := .up, lpi := { Lpi.reset with st := .refresh }, pairs := quadMap (fun q => { q with canLevel := 1, eqLevel := 1 }) x.pairs },
    by decide⟩

theorem wit_LpiRows_7 : ∃ (p : PortId) (s : State), (getPort s p).st = .up ∧ (getPort s p).lpi.st = .refresh ∧
  herdsRun s = true ∧ (getHerd s (herdOf p)).st ≠ .fwRestart ∧ ((getPort s p).lpi.extended = false ∨ atSuperframe
  (getPort s p) = true) ∧ refreshPasses (getPort s p) true = true ∧ (getPort s p).role = some .slave ∧ anySignal
  (getPort s p) = true :=
  ⟨300, p300 idle fun x =>
    { x with st := .up, role := some .slave, lock := { Locks.none with signal := ⟨true, false, false, false⟩ }, lpi := { Lpi.reset with st := .refresh }, pairs := quadMap (fun q => { q with canLevel := 1, eqLevel := 1 }) x.pairs },
    by decide⟩

theorem wit_LpiRows_8 : ∃ (p : PortId) (s : State), (getPort s p).st = .up ∧ (getPort s p).lpi.st = .refresh ∧
  herdsRun s = true ∧ (getPort s p).lpi.extended = false ∧ (getHerd s (herdOf p)).st ≠ .fwRestart :=
  ⟨300, p300 idle fun x => { x with st := .up, lpi := { Lpi.reset with st := .refresh } }, by decide⟩

theorem wit_LpiRows_9 : ∃ (p : PortId) (s : State), (getPort s p).st = .up ∧ (getPort s p).lpi.st = .wake ∧
  (getPort s p).line.wakeGo = false ∧ (getPort s p).line.wakeRx = false ∧ locksHeld (getPort s p) = true ∧
  lpiBlocked (getPort s p) = false ∧ herdsRun s = true :=
  ⟨300, p300 idle fun x =>
    { x with st := .up, lpi := { Lpi.reset with st := .wake }, lock := { Locks.none with signal := Quad.all true, frame := Quad.all true, timing := true }, caps := some { version := 1, lpi := true, loop := true, wakeNs := 0, gen := 0 } },
    by decide⟩

theorem wit_AdaptRows_1 : ∃ (p : PortId) (i : PairId) (l : List (Fin 2048 × Int)) (b : Bool) (s : State), quadGet
  (getPort s p).survey i = some b ∧ herdsRun s = true :=
  ⟨300, 2, [(1190, -300)], false, p300 idle fun x => { x with survey := ⟨none, none, some false, none⟩ }, by
    decide⟩

theorem wit_AdaptRows_2 : ∃ (p : PortId) (s : State), (getPort s p).st = .up ∧ livePar (getPort s p) 0x12 ≠ 0 ∧
  herdsRun s = true :=
  ⟨300, p300 idle fun x => { x with st := .up }, by decide⟩

theorem wit_AdaptRows_3 : ∃ (p : PortId) (s : State), adapts (getPort s p) = true ∧ (getPort s p).st ≠ .t1 ∧
  herdsRun s = true :=
  ⟨300, p300 idle fun x => { x with st := .t2 }, by decide⟩

theorem wit_AdaptRows_4 : ∃ (p : PortId) (i : PairId) (s : State), (getPort s p).st = .up ∧ stable (getPort s
  p).mode (quadGet (getPort s p).pairs i).dsp = true ∧ freezeBits s p (quadGet (getPort s p).pairs i) = 0 ∧
  herdsRun s = true :=
  ⟨300, 1, p300 idle fun x =>
    { x with st := .up, mode := .l25, pairs := quadMap (fun q => { q with dsp := { PairDsp.reset with means := List.replicate 2533 200 } }) x.pairs },
    by decide⟩

theorem wit_AdaptRows_5 : ∃ (p : PortId) (s : State), (getPort s p).st = .up ∧ (getPort s p).wander.snap = none ∧
  (quadList (getPort s p).pairs).all (fun q => adaptLevel q == 2) = true ∧ controllerRuns s (herdOf p) = true ∧
  herdsRun s = true :=
  ⟨300, p300 idle fun x =>
    { x with st := .up, pairs := quadMap (fun q => { q with canLevel := 2, eqLevel := 2 }) x.pairs }, by decide⟩

theorem wit_AdaptRows_6 : ∃ (p : PortId) (k : Coefs) (s : State), (getPort s p).wander.snap = some k ∧ s.mono <
  (getPort s p).wander.snapAt + livePar (getPort s p) 0x16 * 1000000 :=
  ⟨300, { liveCoefs Port.reset with marg := Quad.all 100 }, p300 idle fun x =>
    { x with st := .up, pairs := quadMap (fun q => { q with canLevel := 2, eqLevel := 2 }) x.pairs, wander := { Wander.reset with snap := some { liveCoefs Port.reset with marg := Quad.all 100 }, snapAt := 1 } },
    by decide⟩

theorem wit_AdaptRows_7 : ∃ (p : PortId) (k : Coefs) (s : State), (getPort s p).st = .up ∧ (getPort s
  p).wander.snap = some k ∧ livePar (getPort s p) 0x13 = 1 ∧ (getPort s p).wander.suspended = false ∧ frozen s p =
  false ∧ (quadList (getPort s p).pairs).any (fun q => adaptLevel q == 0) = false ∧ (getPort s p).wander.heldUntil
  ≤ s.mono ∧ controllerRuns s (herdOf p) = true ∧ wandered (getPort s p) k ≠ [] ∧ herdsRun s = true :=
  ⟨300, { liveCoefs Port.reset with marg := Quad.all 100 }, p300 idle fun x =>
    { x with st := .up, wander := { Wander.reset with snap := some { liveCoefs Port.reset with marg := Quad.all 100 } }, pairs := quadMap (fun q => { q with canLevel := 2, eqLevel := 2, margin := 0, coef := [(0, 50)] }) x.pairs },
    by decide⟩

theorem wit_HerdTimingRows_1 : ∃ (h : HerdId) (s : State), ((getHerd s h).timing = .trunkSlave ∨ (getHerd s
  h).timing = .handover) ∧ herdsRun s = true :=
  ⟨37, h37 idle fun x => { x with timing := .trunkSlave, lead := some 3 }, by decide⟩

theorem wit_HerdTimingRows_2 : ∃ (h : HerdId) (k : Fin 8) (s : State), (getHerd s h).timing = .handover ∧ nextLead
  s h = some k ∧ herdsRun s = true :=
  ⟨37, 4, h37 (p300 idle fun x =>
    { x with st := .up, lock := { Locks.none with signal := Quad.all true, frame := Quad.all true, timing := true } })
    fun x => { x with timing := .handover, lead := some 3 }, by decide⟩

theorem wit_HerdTimingRows_3 : ∃ (h : HerdId) (s : State), (getHerd s h).timing = .handover ∧ nextLead s h = none ∧
  herdsRun s = true :=
  ⟨37, h37 idle fun x => { x with timing := .handover, lead := some 3 }, by decide⟩

theorem wit_HerdTimingRows_4 : ∃ (h : HerdId) (s : State), (getHerd s h).timing = .holdover ∧ herdsRun s = true ∧
  trunkForms (dissolve s h) h = false :=
  ⟨37, h37 idle fun x => { x with timing := .holdover }, by decide⟩

theorem wit_HerdTimingRows_5 : ∃ (h : HerdId) (s : State), (getHerd s h).timing = .holdover ∧ herdsRun s = true ∧
  trunkForms (dissolve s h) h = true ∧ (getPort s (portOf h 0)).role = some .master :=
  ⟨37, (portsOf 37).foldl (fun s p => modPort s p fun x => { x with st := .up, role := some .master }) (h37 idle
    fun x => { x with timing := .holdover }), by decide⟩

theorem wit_AcknowledgedFaults_2 : ∃ (c : Cmd) (record : BitVec 32) (q : FltRec) (all : BitVec 8) (s : State), Runs
  s c ∧ all = 0 ∧ (s.flt.volatile.filter unacked).find? (fun r => r.record == record) = some q ∧ causeHolds s q =
  true :=
  ⟨cmdOf 0xC02 0x7FFF 0xFFFF, 1, rec37, 0, fltOf (run (cmdOf 0xC02 0x7FFF 0xFFFF)) fun f =>
    { f with volatile := [rec37], raised := [(0x894, true)] }, by decide⟩

theorem wit_RelinkAfterLoss_1 : ∃ (p : PortId) (s : State), (getPort s p).st = .up ∧ allSignal (getPort s p) =
  false ∧ herdsRun s = true ∧ lpiJudges (getPort s p) = false :=
  ⟨300, p300 idle fun x => { x with st := .up }, by decide⟩

theorem wit_RelinkAfterLoss_2 : ∃ (p : PortId) (s : State), (getPort s p).st = .up ∧ allSignal (getPort s p) = true
  ∧ (getPort s p).lock.timing = false ∧ herdsRun s = true :=
  ⟨300, p300 idle fun x =>
    { x with st := .up, att := [(2, 0), (3, 0)], lock := { Locks.none with signal := Quad.all true } }, by decide⟩

theorem wit_RelinkAfterLoss_3 : ∃ (p : PortId) (s : State), (getPort s p).st = .up ∧ allSignal (getPort s p) = true
  ∧ (quadList (getPort s p).lock.frame).all id = false ∧ herdsRun s = true :=
  ⟨300, p300 idle fun x =>
    { x with st := .up, lock := { Locks.none with signal := Quad.all true, frame := ⟨true, true, false, true⟩ } },
    by decide⟩

theorem wit_RelinkAfterLoss_4 : ∃ (p : PortId) (slot : RxSlot) (s : State), rxPhase (getPort s p) = some .duplex ∧
  lineClocked s p = true ∧ slotFramed (getPort s p) = true ∧ slotClass ((quadList (rxShares (rxStretch s p .duplex
  slot).1 p (rxStretch s p .duplex slot).2).2).flatMap leadWords) = none ∧ slot.verdict = .uncorrectable ∧ livePar
  (getPort s p) 0x08 < ((true :: (getPort s p).dp.uncorr).take 4096).count true ∧ (getPort s p).st = .up ∧ (getPort
  s p).lpi.st = .active ∧ (getPort s p).loop = .none ∧ (getPort s p).fec = 0 :=
  ⟨300, { samples := [], verdict := .uncorrectable, kind := .data, agc := [] }, p300 idle fun x =>
    { x with st := .up, lock := { Locks.none with signal := Quad.all true, frame := Quad.all true, timing := true }, lane := { Lane.reset with st := .active }, live := [(8, 64)], dp := { DataPath.empty with uncorr := List.replicate 64 true } },
    by decide⟩

theorem wit_RelinkAfterLoss_5 : ∃ (p : PortId) (s : State), (getPort s p).st = .up ∧ (getPort s p).lpi.st =
  .refresh ∧ (getPort s p).lpi.extended = true ∧ (getPort s p).lpi.passed = false ∧ (getHerd s (herdOf p)).st ≠
  .fwRestart ∧ herdsRun s = true :=
  ⟨300, p300 idle fun x => { x with st := .up, lpi := { Lpi.reset with st := .refresh, extended := true } }, by
    decide⟩

theorem wit_RelinkAfterLoss_6 : ∃ (p : PortId) (s : State), (getPort s p).st = .up ∧ (getPort s p).lpi.due = true ∧
  anySignal (getPort s p) = false ∧ herdsRun s = true :=
  ⟨300, p300 idle fun x => { x with st := .up, lpi := { Lpi.reset with st := .refresh, due := true } }, by decide⟩

theorem wit_RelinkAfterLoss_7 : ∃ (p : PortId) (s : State), (getPort s p).st = .up ∧ (getPort s p).lpi.st = .wake ∧
  (getPort s p).line.wakeGo = false ∧ (getPort s p).line.wakeRx = false ∧ locksHeld (getPort s p) = false ∧
  herdsRun s = true :=
  ⟨300, p300 idle fun x => { x with st := .up, lpi := { Lpi.reset with st := .wake } }, by decide⟩

theorem wit_LatchedHighWords_1 : ∃ (off : BitVec 26) (s : State), busUp s = true ∧ off.toNat % 4 = 0 ∧ refusedCause
  (touch s) off.toNat = none ∧ isLow64 off.toNat = true ∧ isHigh64 off.toNat = false :=
  ⟨0x110, { idle with time := { idle.time with syncLast := 0x123456789A } }, by decide⟩

theorem wit_LatchedHighWords_2 : ∃ (off : BitVec 26) (s : State), busUp s = true ∧ off.toNat % 4 = 0 ∧ refusedCause
  (touch s) off.toNat = none ∧ isHigh64 off.toNat = true :=
  ⟨0x114, { inSt idle .idle with latches := [(0x110, 0x12)] }, by decide⟩

theorem wit_LatchedHighWords_4 : ∃ (s : State), sysrstIgnored s = false :=
  ⟨{ idle with latches := [(0x110, 0x12)] }, by decide⟩

theorem wit_LatchedHighWords_5 : ∃ (i : Instr) (s t : State), (∀ off, i ≠ .reg64LowRead off) ∧
    Rising s.latches ∧ exec i s = .next t :=
  ⟨.functionLevelReset, { idle with latches := [(0x110, 0x12)] }, _, by simp, by simp [Rising], rfl⟩

theorem wit_PairWrites_1 : ∃ (off : BitVec 26) (val : BitVec 32) (s : State), busUp s = true ∧ off.toNat % 4 = 0 ∧
  refusedCause (touch s) off.toNat = none ∧ isPairLow off.toNat = true :=
  ⟨0x300, 0x1000, { idle with heldLow := some (0x400000, 9) }, by decide⟩

theorem wit_PairWrites_2 : ∃ (off : BitVec 26) (v : BitVec 32) (val : BitVec 32) (s : State), busUp s = true ∧
  off.toNat % 4 = 0 ∧ refusedCause (touch s) off.toNat = none ∧ isPairLow off.toNat = false ∧ isPairLow (off.toNat
  - 4) = true ∧ s.heldLow = some (off - 4, v) ∧ writable s (off.toNat - 4) = true ∧ writable s off.toNat = true :=
  ⟨0x304, 0x12345678, 7, { idle with heldLow := some (0x300, 0x12345678) }, by decide⟩

theorem wit_PairWrites_3 : ∃ (off : BitVec 26) (val : BitVec 32) (s : State), busUp s = true ∧ off.toNat % 4 = 0 ∧
  refusedCause (touch s) off.toNat = none ∧ isPairLow off.toNat = false ∧ isPairLow (off.toNat - 4) = false :=
  ⟨0x418, 110, { idle with heldLow := some (0x300, 0x12345678) }, by decide⟩

theorem wit_PairWrites_4 : ∃ (off : BitVec 26) (o : BitVec 26) (v : BitVec 32) (val : BitVec 32) (s : State), busUp
  s = true ∧ off.toNat % 4 = 0 ∧ refusedCause (touch s) off.toNat = none ∧ isPairLow off.toNat = false ∧ isPairLow
  (off.toNat - 4) = true ∧ s.heldLow = some (o, v) ∧ o.toNat + 4 ≠ off.toNat ∧ writable s off.toNat = true :=
  ⟨0x304, 0x400000, 5, 7, { idle with heldLow := some (0x400000, 5) }, by decide⟩

theorem wit_PairWrites_5 : ∃ (off : BitVec 26) (val : BitVec 32) (s : State), busUp s = true ∧ off.toNat % 4 = 0 ∧
  refusedCause (touch s) off.toNat = none ∧ isPairLow off.toNat = false ∧ isPairLow (off.toNat - 4) = true ∧
  s.heldLow = none ∧ writable s off.toNat = true :=
  ⟨0x304, 7, lowReg idle 0x300 0x40, by decide⟩

theorem wit_AccessSizes_1 : ∃ (off : BitVec 26) (s : State), busUp s = true :=
  ⟨0x300, idle, by decide⟩

theorem wit_AccessSizes_2 : ∃ (off : BitVec 26) (s : State), busUp s = true :=
  ⟨0x301, inSt idle .idle, by decide⟩

theorem wit_AccessSizes_3 : ∃ (off : BitVec 26) (val : BitVec 32) (s : State), busUp s = true ∧ off.toNat % 4 ≠ 0
  :=
  ⟨0x41A, 7, idle, by decide⟩

theorem wit_AccessSizes_4 : ∃ (off : BitVec 26) (val : BitVec 32) (s : State), busUp s = true ∧ off.toNat % 4 ≠ 0
  :=
  ⟨0x302, 7, idle, by decide⟩

theorem wit_AccessSizes_5 : ∃ (off : BitVec 26) (val : BitVec 32) (s : State), busUp s = true ∧ off.toNat % 4 ≠ 0
  :=
  ⟨0x306, 7, idle, by decide⟩

theorem wit_AccessSizes_6 : ∃ (off : BitVec 26) (s : State), busUp s = true ∧ off.toNat % 4 ≠ 0 :=
  ⟨0x102, idle, by decide⟩

theorem wit_RejectedCommits_1 : ∃ (c : Cmd) (p : PortId) (id : Nat) (s : State), Runs s c ∧ myTurn s c = true ∧
  portGate s p = none ∧ firstBadParam (getPort s p).shadow (getHerd s (herdOf p)).modeSet ((getPort s p).lane.mode
  == .l25) = some id :=
  ⟨cmdOf 258 300 0xFFFF, 300, 0x43, p300 (run (cmdOf 258 300 0xFFFF)) fun x =>
    { x with shadow := [(0x43, 999)], staged := [0x43] }, by decide⟩

theorem wit_RejectedCommits_2 : ∃ (c : Cmd) (h : HerdId) (p : PortId) (id : Nat) (s : State), Runs s c ∧ myTurn s c
  = true ∧ herdGate s h = none ∧ badHerdParam s h = some (p, id) :=
  ⟨cmdOf 258 0x4025 0xFFFF, 37, 300, 0x33, p300 (h37 (run (cmdOf 258 0x4025 0xFFFF)) fun x =>
    { x with shModeSet := 16, staged := true }) fun x => { x with live := [(0x33, 1)], shadow := [(0x33, 1)] }, by
    decide⟩

theorem wit_StepRunsFront : ∃ (i : Instr) (rest : List Instr) (s : State), s.pending = i :: rest :=
  ⟨.ledFrame, [.timeSlewDone], { idle with pending := [.ledFrame, .timeSlewDone] }, rfl⟩

theorem wit_IdleTick_1 : ∃ s : State, s.pending = [] := ⟨idle, rfl⟩

theorem wit_IdleTick_2 : ∃ s : State, s.pending = [] ∧ s.pwr.pending = none ∧ s.fw.stages = [] ∧ s.fw.dropping = [] ∧
    s.clk.refclkOk = true ∧ s.pwr.st ≠ .inPorst ∧ s.pwr.st ≠ .deepSleep ∧
    (getSwitch s .hubCore).onPll = true ∧ s.time.acc = 0 ∧ s.time.frac < 1000 ∧ s.time.slewLeft = 0 :=
  ⟨idle, by decide⟩

theorem wit_IdleTick_3 : ∃ s : State, s.pending = [] ∧ s.pwr.pending = none ∧ s.fw.stages = [] ∧ s.fw.dropping = [] ∧
    s.clk.refclkOk = true ∧ s.pwr.st ≠ .inPorst ∧ s.pwr.st ≠ .deepSleep ∧
    (getSwitch s .hubCore).onPll = true ∧ s.time.acc = 0 ∧ s.time.frac < 1000 ∧ 0 < s.time.slewLeft ∧ s.time.slewPhase = 9999 :=
  ⟨{ idle with time := { idle.time with slewLeft := 1, slewPhase := 9999 } }, by decide⟩

theorem wit_IdleTick_4 : ∃ s : State, s.pending = [] ∧ s.pwr.pending = none ∧ s.fw.stages = [] ∧ s.fw.dropping = [] ∧
    s.clk.refclkOk = true ∧ s.pwr.st ≠ .inPorst ∧ s.pwr.st ≠ .deepSleep ∧
    (getSwitch s .hubCore).onPll = true ∧ s.time.acc = 0 ∧ s.time.frac < 1000 ∧ s.time.slewLeft < 0 ∧ s.time.slewPhase = 9999 :=
  ⟨{ idle with time := { idle.time with slewLeft := -1, slewPhase := 9999 } }, by decide⟩

theorem wit_IdleTick_5 : ∃ s : State, s.pending = [] ∧ s.pwr.pending = none ∧ s.fw.stages = [] ∧ s.fw.dropping = [] ∧
    s.clk.refclkOk = false :=
  ⟨{ idle with clk := { idle.clk with refclkOk := false } }, by decide⟩

theorem wit_RegistersStaySound : ∃ s t : State, RegsOk s.regs ∧ s.regs ≠ [] ∧ step s = .next t :=
  ⟨lowReg State.reset 0x418 110, _,
    by simp only [RegsOk]; decide, by decide, rfl⟩

theorem wit_TablesStayRising : ∃ s t : State, (Rising s.regs ∧ Rising s.latches) ∧ step s = .next t :=
  ⟨lowReg State.reset 0x418 110, _, by simp [Rising, lowReg, State.reset], rfl⟩

theorem wit_OtpOnlyMovesForward : ∃ s t : State, OtpOk s ∧ step s = .next t :=
  ⟨State.reset, _, by simp [OtpOk, State.reset, Sec.reset, Fw.reset], rfl⟩

theorem wit_QueueIsFifo : ∃ s t : State, step s = .next t ∧ s.pending ≠ [] :=
  ⟨{ idle with pending := [.ledFrame, .ledFrame] }, _, rfl, by decide⟩

theorem wit_EveryRowFrame : ∃ (i : Instr) (s t : State), exec i s = .next t :=
  ⟨.ledFrame, idle, _, rfl⟩

end Sys2Proof.Tests
end

section
/-!
PROOFS of the family 00_scope: the register tables and their invariants (O56, O57, O55), accesses to registers of 32 and
of 64 bits (O22, O47, O48), and the tick of an empty queue (O53).
-/

namespace Sys2Proof.Proofs

open Sys2Proof.Machine Sys2Proof.Safety

/-! ### What a step can do -/

/-- A step is the tick of an empty queue, or the front command's effect on the state with the queue's rest. -/
theorem step_cases {s t : State} (h : step s = .next t) :
    t = tick s ∨ ∃ i rest, exec i { s with pending := rest } = .next t := by
  unfold step at h
  split at h
  · exact .inl (by simpa using h.symm)
  · exact .inr ⟨_, _, h⟩

/-- Of each command `mayWrite` hides what it writes: a command's `pick` lemma gives its frame, once its parts are looked
up in the list. -/
theorem pickO_exec (i : Instr) (s : State) : pickO (mayWrite i) (exec i s) = some (pick (mayWrite i) s) := by
  cases i <;> simp [exec, mayWrite]

/-- The frame of every command. -/
theorem exec_onlyIn {i : Instr} {s t : State} (e : exec i s = .next t) : OnlyIn (mayWrite i) s t :=
  onlyIn_of_pickO (pickO_exec i s) e

/-- Frames of two steps in a row add up. -/
theorem onlyIn_trans {m n : List Area} {s t u : State} (h : OnlyIn m s t) (k : OnlyIn n t u) : OnlyIn (m ++ n) s u := by
  intro a out
  have x := h a (fun c => out (List.mem_append_left _ c))
  have y := k a (fun c => out (List.mem_append_right _ c))
  cases a <;> exact y.trans x

/-! ### Registers in range -/

/-- Settles O56: the tick leaves the stored registers alone, and every command carries their soundness (`carry_exec`: a
value is stored only where `regOk` accepts it, and masked). -/
theorem registersStaySound : Obligations.RegistersStaySound := by
  unfold Obligations.RegistersStaySound
  intro s t ok h
  obtain rfl | ⟨i, rest, e⟩ := step_cases h
  · exact (Carry.of_kept (kept_tick s)).regs ok
  · exact (carry_exec i _ t e).regs ok

/-- Settles O55: both tables are empty after reset, and nothing is programmed. -/
theorem resetIsSound : Obligations.ResetIsSound := by
  unfold Obligations.ResetIsSound
  refine ⟨?_, ?_, List.Pairwise.nil, List.Pairwise.nil⟩
  · intro e m
    exact absurd m List.not_mem_nil
  · simp [OtpOk, State.reset, Sec.reset, Fw.reset]

/-! ### Host activity and ended accesses change no register -/

theorem touch_onlyIn (s : State) : OnlyIn [.pwr, .io] s (touch s) := onlyIn_of_pick (by simp)
@[simp] theorem touch_regs (s : State) : (touch s).regs = s.regs := touch_onlyIn s .regs (by simp)
@[simp] theorem touch_latches (s : State) : (touch s).latches = s.latches := touch_onlyIn s .latches (by simp)
@[simp] theorem touch_heldLow (s : State) : (touch s).heldLow = s.heldLow := touch_onlyIn s .heldLow (by simp)
@[simp] theorem regVal_touch (s : State) (off : Nat) : regVal (touch s) off = regVal s off := by simp [regVal]

@[simp] theorem getRing_touch (s : State) (r : RingId) : getRing (touch s) r = getRing s r := by
  unfold touch mirrorWrite
  split
  · split <;> rfl
  · rfl

theorem endAccess_onlyIn (s : State) (off : Nat) (write : Bool) (cause : Nat) :
    OnlyIn [.access, .io] s (endAccess s off write cause) := onlyIn_of_pick (by simp)

/-! ### Tables that lose entries -/

/-- Below all its numbers a table reads as the default. -/
theorem tabGet_below {α : Type} (d : α) {l : Tab α} {k : Nat} (h : ∀ e ∈ l, k < e.1) : tabGet d l k = d := by
  cases l with
  | nil => rfl
  | cons e l => exact if_pos (h e List.mem_cons_self)

/-- A part of a rising table reads as the table does, or as the default. -/
theorem tabGet_sublist {α : Type} (d : α) {l m : Tab α} (h : l.Sublist m) (r : Rising m) (k : Nat) :
    tabGet d l k = tabGet d m k ∨ tabGet d l k = d := by
  induction h with
  | slnil => exact .inl rfl
  | @cons l m e h ih =>
    obtain ⟨above, r⟩ := List.pairwise_cons.mp r
    by_cases c : e.1 < k
    · have skip : tabGet d (e :: m) k = tabGet d m k := by
        rw [tabGet, if_neg (by omega), if_neg (by omega)]
      exact skip ▸ ih r
    · exact .inr (tabGet_below d fun x hx => lt_of_le_of_lt (not_lt.mp c) (above x (h.subset hx)))
  | @cons_cons l m e h ih =>
    obtain ⟨-, r⟩ := List.pairwise_cons.mp r
    simp only [tabGet]
    split
    · exact .inl rfl
    · split
      · exact .inl rfl
      · exact ih r

/-- Setting one number's value keeps a table rising. -/
theorem rising_tabSet {α : Type} {l : Tab α} (r : Rising l) (k : Nat) (v : α) : Rising (tabSet l k v) := by
  induction l with
  | nil => exact List.pairwise_singleton _ _
  | cons e l ih =>
    obtain ⟨j, w⟩ := e
    obtain ⟨above, rest⟩ := List.pairwise_cons.mp r
    unfold tabSet
    split
    · rename_i lt
      refine List.pairwise_cons.mpr ⟨fun x hx => ?_, r⟩
      rcases List.mem_cons.mp hx with rfl | hx
      · exact lt
      · exact lt.trans (above x hx)
    · split
      · rename_i eq
        exact List.pairwise_cons.mpr ⟨fun x hx => eq ▸ above x hx, rest⟩
      · refine List.pairwise_cons.mpr ⟨fun x hx => ?_, ih rest⟩
        rcases tabSet_mem l k v x hx with rfl | hx
        · show j < k
          omega
        · exact above x hx

/-! ### Definitions that only take entries out of the register tables -/

/-- Every part of the state but the two register tables. -/
def besideTables : List Area :=
  [.pending, .time, .mono, .fresh, .heldLow, .access, .straps, .clk, .pwr, .rails, .dies, .hubTemp, .ddr, .store,
    .ports, .herds, .io, .waits, .flt, .fw, .sec, .nv]

@[simp] theorem mem_besideTables (a : Area) : a ∈ besideTables ↔ a ≠ .regs ∧ a ≠ .latches := by
  cases a <;> simp [besideTables]

/-- No stored register and no latched high word is new: both tables have lost entries at most. -/
structure Shrinks (s t : State) : Prop where
  regs    : t.regs.Sublist s.regs
  latches : t.latches.Sublist s.latches

theorem Shrinks.refl (s : State) : Shrinks s s := ⟨.refl _, .refl _⟩

theorem Shrinks.trans {s t u : State} (h : Shrinks s t) (k : Shrinks t u) : Shrinks s u :=
  ⟨k.regs.trans h.regs, k.latches.trans h.latches⟩

/-- Equal tables. -/
theorem Shrinks.of_eq {s t : State} (h : t.regs = s.regs) (k : t.latches = s.latches) : Shrinks s t :=
  ⟨h ▸ .refl _, k ▸ .refl _⟩

/-- A definition whose frame has neither table. -/
theorem Shrinks.of_pick {s t : State} (h : pick besideTables t = pick besideTables s) : Shrinks s t :=
  .of_eq (onlyIn_of_pick h .regs (by simp)) (onlyIn_of_pick h .latches (by simp))

theorem Shrinks.keep {s t u : State} (h : Shrinks s t) (k : pick besideTables u = pick besideTables t) : Shrinks s u :=
  h.trans (.of_pick k)

theorem Shrinks.before {s t u : State} (k : pick besideTables t = pick besideTables s) (h : Shrinks t u) :
    Shrinks s u :=
  (Shrinks.of_pick k).trans h

theorem shrinks_forEach {α : Type} (l : List α) (f : State → α → State) (s : State) (h : ∀ s x, Shrinks s (f s x)) :
    Shrinks s (forEach l f s) := by
  unfold forEach
  induction l generalizing s with
  | nil => exact .refl _
  | cons x l ih => exact (h s x).trans (ih _)

theorem shrinks_funcReset (s : State) : Shrinks s (funcReset s) := ⟨List.filter_sublist, List.filter_sublist⟩

theorem shrinks_sysReset (s : State) (st : DevSt) : Shrinks s (sysReset s st) := by
  unfold sysReset
  refine Shrinks.before (t := lineRestart (fwRevert s)) (by simp) ?_
  generalize lineRestart (fwRevert s) = u
  exact ⟨List.filter_sublist, List.nil_sublist _⟩

theorem shrinks_porReset (s : State) : Shrinks s (porReset s) := ⟨List.nil_sublist _, List.nil_sublist _⟩

theorem shrinks_deepState {s r : State} (h : Shrinks s r) (mask : BitVec 4) : Shrinks s (deepState s r mask) :=
  ⟨List.filter_sublist, h.latches⟩

theorem shrinks_offState {s r : State} (h : Shrinks s r) : Shrinks s (offState s r) :=
  ⟨List.filter_sublist, h.latches⟩

theorem shrinks_deepRestore (s : State) (mask : BitVec 4) : Shrinks s (deepRestore s mask) :=
  (shrinks_deepState (shrinks_sysReset s (.restoring 3)) mask).keep (by simp [deepRestore])

theorem shrinks_offRestore (s : State) : Shrinks s (offRestore s) :=
  (shrinks_offState (shrinks_porReset s)).keep (by simp [offRestore])

theorem shrinks_fixedRestart (s : State) : Shrinks s (fixedRestart s) := by
  unfold fixedRestart
  split
  · exact shrinks_sysReset _ _
  · exact .refl _

theorem shrinks_bootFail (s : State) : Shrinks s (bootFail s) := by
  unfold bootFail
  simp only []
  refine Shrinks.before (t := raiseFault s 0xA63 0) (by simp) ?_
  split
  · exact (shrinks_sysReset _ (.boot 5 true)).keep (by simp)
  · exact (shrinks_sysReset _ (.boot 3 true)).keep (by simp)

theorem shrinks_ibexLeave (s : State) : Shrinks s (ibexLeave s) :=
  (shrinks_sysReset s (.boot 3 true)).keep (by simp [ibexLeave])

theorem shrinks_scheduledStart (s : State) : Shrinks s (scheduledStart s) := by
  unfold scheduledStart
  split
  · exact .refl _
  · split
    · exact shrinks_ibexLeave _
    · exact .of_pick (by simp)

theorem shrinks_runDue (s : State) : Shrinks s (runDue s) := by
  unfold runDue
  simp only []
  split
  · exact (shrinks_scheduledStart s).keep (by simp)
  · exact .of_pick (by simp)

theorem shrinks_moveTime (s : State) (t : BitVec 64) : Shrinks s (moveTime s t) := by
  unfold moveTime
  simp only []
  split
  · exact Shrinks.before (by simp) (shrinks_runDue _)
  · exact .of_pick (by simp)

theorem shrinks_pllLossEffect (s : State) (k : PllKind) : Shrinks s (pllLossEffect s k) := by
  cases k with
  | pcie => exact shrinks_funcReset s
  | _ => exact .of_pick (by simp [pllLossEffect])

theorem shrinks_pllBad (s : State) (k : PllKind) : Shrinks s (pllBad s k) := by
  unfold pllBad
  simp only []
  split
  · exact Shrinks.before (by simp) (shrinks_pllLossEffect _ _)
  · exact .of_pick (by simp)

/-! ### Rows that reset the device or the function -/

/-- What an outcome does to the tables: the next state's, where it answers one. -/
def ShrinksO (s : State) (o : Host.Outcome State Fault Refusal) : Prop := ∀ t, o = .next t → Shrinks s t

theorem ShrinksO.next {s t : State} (h : Shrinks s t) : ShrinksO s (.next t) := by
  intro u e
  cases e
  exact h

/-- A command whose frame has neither table. -/
theorem ShrinksO.of_frame {i : Instr} (s : State) (h : .regs ∉ mayWrite i) (k : .latches ∉ mayWrite i) :
    ShrinksO s (exec i s) :=
  fun _ e => .of_eq (exec_onlyIn e .regs h) (exec_onlyIn e .latches k)

theorem shrinks_porstAssert (s : State) : ShrinksO s (execPorstAssert s) := .next (shrinks_porReset s)

theorem shrinks_sysrstAssert (s : State) : ShrinksO s (execSysrstAssert s) := by
  refine .next ?_
  split
  · exact .refl s
  · exact shrinks_sysReset s .inSysrst

theorem shrinks_enterIbex (tag : BitVec 32) (s : State) : ShrinksO s (execEnterIbex tag s) := by
  refine .next ?_
  split
  · exact (shrinks_sysReset s (.boot 3 true)).keep (by simp)
  · exact .refl s

theorem shrinks_functionLevelReset (s : State) : ShrinksO s (execFunctionLevelReset s) := by
  refine .next ?_
  split
  · exact Shrinks.before (by simp) (shrinks_funcReset (touch s))
  · exact .refl s

theorem shrinks_pcieHotReset (s : State) : ShrinksO s (execPcieHotReset s) := by
  refine .next ?_
  split
  · exact shrinks_funcReset s
  · exact .refl s

theorem shrinks_refclkMissing (s : State) : ShrinksO s (execRefclkMissing s) := by
  refine .next ?_
  split
  · exact .refl s
  · simp only []
    refine Shrinks.before (t := forEach (.hubCore :: dspDomains) stopDomain s) (by simp) ?_
    generalize forEach (.hubCore :: dspDomains) stopDomain s = u
    exact (Shrinks.before (t := { u with clk := { u.clk with refclkOk := false } }) (by simp)
      (shrinks_funcReset _)).keep (by simp)

theorem shrinks_refclkReturn (s : State) : ShrinksO s (execRefclkReturn s) := by
  refine .next ?_
  split
  · exact .refl s
  · simp only []
    split
    · exact Shrinks.before (by simp) (shrinks_sysReset _ (.boot 3 true))
    · exact .of_pick (by simp)

theorem shrinks_wakeRestoreDone (m : BitVec 4) (l : List (PortId × CtxKey × CtxRead)) (s : State) :
    ShrinksO s (execWakeRestoreDone m l s) := by
  refine .next ?_
  split
  · exact .refl s
  split
  · exact Shrinks.before (by simp) (shrinks_runDue _)
  · exact (shrinks_deepRestore s m).trans (shrinks_runDue _)
  · exact shrinks_offRestore s
  · exact .refl s

theorem shrinks_bootFailTimeout (s : State) : ShrinksO s (execBootFailTimeout s) := by
  refine .next ?_
  split
  · exact .refl s
  split
  · split
    · exact shrinks_bootFail s
    · exact .refl s
  · split
    · exact (shrinks_deepState (shrinks_sysReset s _) 0).trans (shrinks_bootFail _)
    · split
      · exact (shrinks_offState (shrinks_porReset s)).trans (shrinks_bootFail _)
      · exact .refl s
  · exact .refl s

theorem shrinks_bootOtp (s : State) (sys : Bool) (o : BootOutcome) : Shrinks s (bootOtp s sys o) := by
  unfold bootOtp
  split
  · exact Shrinks.before (by simp) (shrinks_bootFail _)
  · exact .of_pick (by simp)
  · exact .of_pick (by simp)

theorem shrinks_bootImage (s : State) (sys : Bool) (o : BootOutcome) : Shrinks s (bootImage s sys o) := by
  unfold bootImage
  split
  · exact .of_pick (by simp)
  · split
    · exact .of_pick (by simp)
    · split
      · exact shrinks_bootFail s
      · exact .of_pick (by simp)

theorem shrinks_bootStepDone (o : BootOutcome) (s : State) : ShrinksO s (execBootStepDone o s) := by
  refine .next ?_
  split
  · split
    · exact .refl s
    · split
      · exact .of_pick (by simp)
      · exact shrinks_bootOtp s _ o
      · split <;> exact .of_pick (by simp)
      · exact shrinks_bootImage s _ o
      · exact .of_pick (by simp)
      · exact .of_pick (by simp)
      · exact .of_pick (by simp)
      · split <;> exact .of_pick (by simp)
      · exact .of_pick (by simp)
      · exact .of_pick (by simp)
      · exact .of_pick (by simp)
  · split
    · exact (shrinks_offState (shrinks_porReset s)).keep (by simp)
    · exact .refl s
  · exact .refl s

theorem shrinks_fltAck (c : Cmd) (r : BitVec 32) (a : BitVec 8) (s : State) : ShrinksO s (execFltAck c r a s) := by
  refine .next ?_
  split
  · exact .of_pick (by simp)
  · simp only []
    split
    · exact Shrinks.before (by simp) (shrinks_fixedRestart _)
    · split
      · exact .of_pick (by simp)
      · split
        · exact .of_pick (by simp)
        · exact Shrinks.before (by simp) (shrinks_fixedRestart _)

theorem shrinks_fixedCauseEnded (s : State) : ShrinksO s (execFixedCauseEnded s) := by
  refine .next ?_
  split
  · exact Shrinks.before (by simp) (shrinks_fixedRestart _)
  · exact .refl s

theorem shrinks_pllNoEdge (u : PllId) (s : State) : ShrinksO s (execPllNoEdge u s) := by
  refine .next ?_
  split
  · split
    · exact shrinks_pllBad s _
    · exact .refl s
  · exact .refl s

theorem shrinks_pllLockWindow (u : PllId) (w : Bool) (s : State) : ShrinksO s (execPllLockWindow u w s) := by
  refine .next ?_
  split
  · split
    · split
      · exact .of_pick (by simp)
      · exact shrinks_pllBad s _
    · exact .refl s
  · exact .refl s

theorem shrinks_fwFallback (c : Cmd) (t : BitVec 64) (s : State) : ShrinksO s (execFwFallback c t s) := by
  refine .next ?_
  split
  · exact .of_pick (by simp)
  · simp only []
    split
    · exact Shrinks.before (by simp) (shrinks_scheduledStart _)
    · exact .of_pick (by simp)

theorem shrinks_fwActivationStart (s : State) : ShrinksO s (execFwActivationStart s) := by
  refine .next ?_
  split
  · exact .refl s
  split
  · exact .refl s
  · exact shrinks_scheduledStart s

theorem shrinks_syncInEdge (rising : Bool) (s : State) : ShrinksO s (execSyncInEdge rising s) := by
  refine .next ?_
  split
  · exact .refl s
  · simp only []
    refine Shrinks.trans ?_ (shrinks_forEach _ _ _ fun _ _ => Shrinks.before (by simp) (shrinks_moveTime _ _))
    split
    · refine Shrinks.trans (t := { s with time := { s.time with
        syncCount := s.time.syncCount + 1, syncLast := now s, syncMono := some s.mono } }) (.of_eq rfl rfl) ?_
      exact (shrinks_scheduledStart _).trans (.of_eq rfl rfl)
    · exact .of_eq rfl rfl

theorem shrinks_timeSet (c : Cmd) (v : BitVec 64) (a : BitVec 8) (s : State) : ShrinksO s (execTimeSet c v a s) := by
  refine .next ?_
  split
  · exact .of_pick (by simp)
  · split
    · exact .of_pick (by simp)
    · exact Shrinks.before (by simp) (shrinks_moveTime _ _)

theorem shrinks_timeAdjustJump (c : Cmd) (t : BitVec 32) (s : State) : ShrinksO s (execTimeAdjustJump c t s) :=
  .next (Shrinks.before (by simp) (shrinks_moveTime _ _))

/-! ### Every command -/

/-- The rows that put a value into a register table: register writes, the mirror's error, which clears ENABLE, and the
read of a low word. -/
def fillsTables : Instr → Bool
  | .registerWrite .. | .reg64LowWrite .. | .reg64HighWrite .. | .mirrorEnable .. | .fmcStart .. | .fltInjectEvent ..
  | .fltInjectPair .. | .mirrorWriteError .. | .reg64LowRead .. => true
  | _ => false

theorem shrinks_exec {i : Instr} (s : State) (h : fillsTables i = false) : ShrinksO s (exec i s) := by
  by_cases n : .regs ∉ mayWrite i ∧ .latches ∉ mayWrite i
  · exact .of_frame s n.1 n.2
  · cases i with
    | fltAck c r a => exact shrinks_fltAck c r a s
    | fwFallback c t => exact shrinks_fwFallback c t s
    | timeSet c v a => exact shrinks_timeSet c v a s
    | timeAdjustJump c t => exact shrinks_timeAdjustJump c t s
    | functionLevelReset => exact shrinks_functionLevelReset s
    | pcieHotReset => exact shrinks_pcieHotReset s
    | fixedCauseEnded => exact shrinks_fixedCauseEnded s
    | pllLockWindow u w => exact shrinks_pllLockWindow u w s
    | pllNoEdge u => exact shrinks_pllNoEdge u s
    | refclkMissing => exact shrinks_refclkMissing s
    | refclkReturn => exact shrinks_refclkReturn s
    | wakeRestoreDone m l => exact shrinks_wakeRestoreDone m l s
    | enterIbex tag => exact shrinks_enterIbex tag s
    | syncInEdge r => exact shrinks_syncInEdge r s
    | fwActivationStart => exact shrinks_fwActivationStart s
    | porstAssert => exact shrinks_porstAssert s
    | sysrstAssert => exact shrinks_sysrstAssert s
    | bootStepDone o => exact shrinks_bootStepDone o s
    | bootFailTimeout => exact shrinks_bootFailTimeout s
    | registerWrite | reg64LowWrite | reg64HighWrite | mirrorEnable | fmcStart | fltInjectEvent | fltInjectPair
    | mirrorWriteError | reg64LowRead => simp [fillsTables] at h
    | _ => simp [mayWrite] at n

/-! ### What register writes do to the table of stored registers -/

theorem regs_of_kept {s t : State} (h : kept t = kept s) : t.regs = s.regs := congrArg Kept.regs h

/-- The step keeps the table of stored registers in its canonical form. -/
def KeepsRising (s t : State) : Prop := Rising s.regs → Rising t.regs

theorem KeepsRising.of_kept {s t : State} (h : kept t = kept s) : KeepsRising s t := fun r => regs_of_kept h ▸ r

theorem KeepsRising.trans {s t u : State} (h : KeepsRising s t) (k : KeepsRising t u) : KeepsRising s u :=
  fun r => k (h r)

theorem regStore_keepsRising (s : State) (off : Nat) (v : BitVec 32) : KeepsRising s (regStore s off v) :=
  fun r => rising_tabSet r off _

theorem storeAllowed_keepsRising (s : State) (off : Nat) (v : BitVec 32) : KeepsRising s (storeAllowed s off v) := by
  unfold storeAllowed
  split
  · exact regStore_keepsRising s off v
  · exact id

theorem writeMirror_keepsRising (s : State) (v : BitVec 32) : KeepsRising s (writeMirror s v) := by
  unfold writeMirror
  simp only []
  split
  · exact (regStore_keepsRising _ 0x308 v).trans (.of_kept (kept_mirrorAll _))
  · exact regStore_keepsRising _ 0x308 v

theorem writeFmc_keepsRising (s : State) (v : BitVec 32) : KeepsRising s (writeFmc s v) := by
  unfold writeFmc
  split
  · exact .of_kept (by simp)
  · simp only []
    split <;> exact regStore_keepsRising s 0x208 v

theorem writeFields_keepsRising (s : State) (off : Nat) (v : BitVec 32) : KeepsRising s (writeFields s off v) := by
  unfold writeFields
  split
  · exact id
  · split
    · simp only []
      split
      · exact (storeAllowed_keepsRising s off v).trans (.of_kept (by simp))
      · exact storeAllowed_keepsRising s off v
    · exact .of_kept (by simp)

theorem writePlain_keepsRising (s : State) (off : BitVec 26) (v : BitVec 32) : KeepsRising s (writePlain s off v) := by
  unfold writePlain
  split
  · exact .of_kept (kept_writeAccess s v)
  split
  · exact writeFmc_keepsRising s v
  split
  · exact writeMirror_keepsRising s v
  split
  · exact .of_kept (by simp [writePads])
  split
  · exact .of_kept (kept_writeInject s v)
  split
  · exact .of_kept (by simp [writeRingCtrl])
  · exact writeFields_keepsRising s off.toNat v

theorem writeHigh_keepsRising (s : State) (off : Nat) (v : BitVec 32) : KeepsRising s (writeHigh s off v) := by
  unfold writeHigh
  simp only []
  split
  · split
    · exact (storeAllowed_keepsRising { s with heldLow := none } _ _).trans (storeAllowed_keepsRising _ off v)
    · exact storeAllowed_keepsRising { s with heldLow := none } off v
  · exact storeAllowed_keepsRising { s with heldLow := none } off v

theorem writeReg_keepsRising (s : State) (off : BitVec 26) (v : BitVec 32) : KeepsRising s (writeReg s off v) := by
  unfold writeReg
  split
  · exact .of_kept (kept_writeLow s off v)
  split
  · exact writeHigh_keepsRising s off.toNat v
  · exact writePlain_keepsRising { s with heldLow := none } off v

theorem busWrite_keepsRising (s : State) (off : BitVec 26) (v : BitVec 32) : KeepsRising s (busWrite s off v) := by
  unfold busWrite
  split
  · exact id
  simp only []
  split
  · exact .of_kept (by simp)
  split
  · exact .of_kept (by simp)
  · exact (KeepsRising.of_kept (kept_touch s)).trans (writeReg_keepsRising (touch s) off v)

theorem mirrorWriteError_keepsRising (a : BitVec 64) {s t : State} (e : execMirrorWriteError a s = .next t) :
    KeepsRising s t := by
  cases e
  split
  · exact id
  split
  · simp only []
    refine KeepsRising.trans
      (t := regStore { (freeNat s).2 with io := { (freeNat s).2.io with dmaErr := true } } 0x308 0) ?_
      (.of_kept (by simp))
    exact (KeepsRising.of_kept (kept_freeNat s)).trans (regStore_keepsRising _ 0x308 0)
  · exact id

/-- A read leaves the registers alone, and its latch is set in its place. -/
theorem rising_latches_busRead {s : State} (r : Rising s.latches) (off : BitVec 26) :
    Rising (busRead s off).latches := by
  have same := touch_latches s
  unfold busRead
  split
  · exact r
  simp only []
  split
  · exact same ▸ r
  split
  · rename_i cause _
    have err : (endAccess (touch s) off.toNat false cause).latches = (touch s).latches :=
      endAccess_onlyIn (touch s) off.toNat false cause .latches (by simp)
    exact (err.trans same) ▸ r
  split
  · exact same ▸ r
  · split
    · exact rising_tabSet (same ▸ r) _ _
    · exact same ▸ r

/-- Every command keeps both tables in their canonical form. -/
theorem rising_exec {i : Instr} {s t : State} (r : Rising s.regs) (l : Rising s.latches) (e : exec i s = .next t) :
    Rising t.regs ∧ Rising t.latches := by
  by_cases f : fillsTables i = true
  · have latches (n : .latches ∉ mayWrite i) : Rising t.latches :=
      (show t.latches = s.latches from exec_onlyIn e .latches n) ▸ l
    have regs (n : .regs ∉ mayWrite i) : Rising t.regs := (show t.regs = s.regs from exec_onlyIn e .regs n) ▸ r
    cases i with
    | reg64LowRead off =>
      refine ⟨regs (by simp [mayWrite]), ?_⟩
      cases e
      exact rising_latches_busRead l off
    | mirrorWriteError a => exact ⟨mirrorWriteError_keepsRising a e r, latches (by simp [mayWrite])⟩
    | registerWrite | reg64LowWrite | reg64HighWrite | mirrorEnable | fmcStart | fltInjectEvent | fltInjectPair =>
      refine ⟨?_, latches (by simp [mayWrite])⟩
      cases e
      exact busWrite_keepsRising s _ _ r
    | _ => simp [fillsTables] at f
  · have h := shrinks_exec s (by simpa using f) t e
    exact ⟨r.sublist h.regs, l.sublist h.latches⟩

/-- Settles O57, the model's own canonical form (log 8): register writes and low-word reads set a number in its place
(`rising_tabSet`), every other command and the tick take entries out at most (`shrinks_exec`). -/
theorem tablesStayRising : Obligations.TablesStayRising := by
  unfold Obligations.TablesStayRising
  rintro s t ⟨r, l⟩ h
  obtain rfl | ⟨i, rest, e⟩ := step_cases h
  · have k : Shrinks s (tick s) := .of_pick (by simp)
    exact ⟨r.sublist k.regs, l.sublist k.latches⟩
  · exact rising_exec (s := { s with pending := rest }) r l e

/-! ### Host accesses that reach a register -/

/-- Run is no state that host activity leaves. -/
theorem touch_run {s : State} (h : s.pwr.st = .run) : touch s = s := by simp [touch, h]

/-- Only ring states and the mirror's ENABLE decide whether a register may change. -/
theorem writable_touch (s : State) (off : Nat) : writable (touch s) off = writable s off := by
  simp [writable, mirrorEnabled]

theorem busRead_reach {s : State} {off : BitVec 26} (up : busUp s = true) (al : off.toNat % 4 = 0)
    (ok : refusedCause (touch s) off.toNat = none) :
    busRead s off =
      if isHigh64 off.toNat then emit (touch s) (.readData (tabGet 0 s.latches (off.toNat - 4)))
      else emit (if isLow64 off.toNat then
          { touch s with latches := tabSet s.latches off.toNat (regLive (touch s) (off.toNat + 4)) } else touch s)
        (.readData (regLive (touch s) off.toNat)) := by
  simp [busRead, up, al, ok]

theorem busWrite_reach {s : State} {off : BitVec 26} (v : BitVec 32) (up : busUp s = true) (al : off.toNat % 4 = 0)
    (ok : refusedCause (touch s) off.toNat = none) : busWrite s off v = writeReg (touch s) off v := by
  simp [busWrite, up, al, ok]

/-- Settles O47: a low-word read sets its own latch (`busRead_reach`); for every row but that read a latch is as it was
or 0, since `shrinks_exec` leaves a part of the latches of a table that lists each offset once. -/
theorem latchedHighWords : Obligations.LatchedHighWords := by
  unfold Obligations.LatchedHighWords
  refine ⟨?lowRead, ?highRead, fun s => ⟨porReset s, rfl, fun _ => rfl, rfl⟩, ?sysrst, ?others⟩
  case lowRead =>
    intro off s up al ok low high
    refine ⟨busRead s off, rfl, ?_⟩
    rw [busRead_reach up al ok, if_neg (by simp [high]), if_pos low]
    exact ⟨rfl, tabGet_tabSet_self .., fun o n => tabGet_tabSet_ne 0 s.latches _ n⟩
  case highRead =>
    intro off s up al ok high
    refine ⟨busRead s off, rfl, ?_⟩
    rw [busRead_reach up al ok, if_pos high]
    exact ⟨rfl, touch_latches s⟩
  case sysrst =>
    intro s h
    exact ⟨sysReset s .inSysrst, by simp [exec, execSysrstAssert, h], rfl⟩
  case others =>
    intro i s t o notRead r e
    by_cases f : fillsTables i = true
    · left
      have same : t.latches = s.latches := by
        refine exec_onlyIn e .latches ?_
        cases i with
        | reg64LowRead off => exact absurd rfl (notRead off)
        | registerWrite | reg64LowWrite | reg64HighWrite | mirrorEnable | fmcStart | fltInjectEvent | fltInjectPair
        | mirrorWriteError => simp [mayWrite]
        | _ => simp [fillsTables] at f
      rw [same]
    · exact tabGet_sublist 0 (shrinks_exec s (by simpa using f) t e).latches r o

/-! ### Stored registers -/

@[simp] theorem regVal_regStore_self (s : State) (off : Nat) (v : BitVec 32) :
    regVal (regStore s off v) off = v &&& regMask off := tabGet_tabSet_self ..

theorem regVal_regStore_ne (s : State) {off o : Nat} (v : BitVec 32) (n : o ≠ off) :
    regVal (regStore s off v) o = regVal s o := tabGet_tabSet_ne _ _ _ n

theorem storeAllowed_writable {s : State} {off : Nat} (v : BitVec 32) (h : writable s off = true) :
    storeAllowed s off v = regStore s off v := if_pos h

/-- A base register is not HUB_MIRROR_CTRL, so storing it decides nothing about other registers. -/
theorem writable_regStore_low {s : State} {low off : Nat} (v : BitVec 32) (h : isPairLow low = true) :
    writable (regStore s low v) off = writable s off := by
  have n : 0x308 ≠ low := by
    rintro rfl
    exact absurd h (by decide)
  have same : mirrorEnabled (regStore s low v) = mirrorEnabled s := by
    rw [mirrorEnabled, regVal_regStore_ne s v n, mirrorEnabled]
  unfold writable
  rw [same]
  rfl

/-! ### 64-bit pairs -/

/-- The high word of a pair lies above its low word's four bytes. -/
theorem four_le_high {off : Nat} (h : isPairLow (off - 4) = true) : 4 ≤ off := by
  rcases pairLow_cases _ h with e | ⟨e, -⟩ <;> omega

/-- The host's write of the high word of a pair. -/
theorem busWrite_high {s : State} {off : BitVec 26} (v : BitVec 32) (up : busUp s = true) (al : off.toNat % 4 = 0)
    (ok : refusedCause (touch s) off.toNat = none) (low : isPairLow off.toNat = false)
    (high : isPairLow (off.toNat - 4) = true) : busWrite s off v = writeHigh (touch s) off.toNat v := by
  rw [busWrite_reach v up al ok, writeReg, if_neg (by simp [low]), if_pos high]

/-- A high word whose low word is not held is stored alone. -/
theorem writeHigh_alone {s : State} {off : Nat} (v : BitVec 32) (w : writable s off = true)
    (h : ∀ o x, s.heldLow = some (o, x) → o.toNat + 4 ≠ off) :
    writeHigh s off v = regStore { s with heldLow := none } off v := by
  have st : storeAllowed { s with heldLow := none } off v = regStore { s with heldLow := none } off v :=
    storeAllowed_writable v w
  unfold writeHigh
  simp only []
  split
  · rename_i o x e
    rw [if_neg (h o x e), st]
  · exact st

/-- A high word with its low word held: both are stored. -/
theorem writeHigh_both {s : State} {o : BitVec 26} {off : Nat} {x : BitVec 32} (v : BitVec 32)
    (h : s.heldLow = some (o, x)) (e : o.toNat + 4 = off) (low : isPairLow o.toNat = true)
    (wo : writable s o.toNat = true) (w : writable s off = true) :
    writeHigh s off v = regStore (regStore { s with heldLow := none } o.toNat x) off v := by
  have st : storeAllowed { s with heldLow := none } o.toNat x = regStore { s with heldLow := none } o.toNat x :=
    storeAllowed_writable x wo
  have w' : writable (regStore { s with heldLow := none } o.toNat x) off = true := (writable_regStore_low x low).trans w
  simp only [writeHigh, h, if_pos e, st, storeAllowed_writable v w']

/-- No plain register write holds a low word. -/
theorem writePlain_heldLow (s : State) (off : BitVec 26) (v : BitVec 32) : (writePlain s off v).heldLow = s.heldLow :=
  onlyIn_of_pick (m := [.fresh, .regs, .access, .clk, .pwr, .rails, .dies, .ports, .herds, .io, .flt, .fw, .nv])
    (by simp) .heldLow (by simp)

/-- Settles O48: `writeHigh` with its low word held, with another one held and with none. That a write to an offset of
BAR0 which no table defines discards the held low word too (in the third clause) is the model's reading, log 62. -/
theorem pairWrites : Obligations.PairWrites := by
  unfold Obligations.PairWrites
  refine ⟨?low, ?both, ?plain, ?other, ?alone⟩
  case low =>
    intro off v s up al ok low
    refine ⟨busWrite s off v, rfl, ?_⟩
    rw [busWrite_reach v up al ok, writeReg, if_pos low]
    exact ⟨rfl, touch_regs s⟩
  case both =>
    intro off x v s up al ok low high held wo w
    refine ⟨busWrite s off v, rfl, ?_⟩
    have le := four_le_high high
    have sub : (off - 4).toNat = off.toNat - 4 := BitVec.toNat_sub_of_le (by simpa [BitVec.le_def] using le)
    rw [busWrite_high v up al ok low high, writeHigh_both v ((touch_heldLow s).trans held) (by omega) (by rwa [sub])
      (by rwa [sub, writable_touch]) (by rwa [writable_touch]), sub]
    refine ⟨?_, regVal_regStore_self .., rfl, fun o n m => ?_⟩
    · rw [regVal_regStore_ne _ _ (by omega), regVal_regStore_self]
    · rw [regVal_regStore_ne _ _ n, regVal_regStore_ne _ _ m]
      exact regVal_touch s o
  case plain =>
    intro off v s up al ok low high
    refine ⟨busWrite s off v, rfl, ?_⟩
    rw [busWrite_reach v up al ok, writeReg, if_neg (by simp [low]), if_neg (by simp [high])]
    exact writePlain_heldLow _ off v
  case other =>
    intro off o x v s up al ok low high held ne w
    refine ⟨busWrite s off v, rfl, ?_⟩
    have le := four_le_high high
    rw [busWrite_high v up al ok low high, writeHigh_alone v (by rwa [writable_touch]) (by
      intro o' x' e
      rw [touch_heldLow, held] at e
      cases e
      exact ne)]
    refine ⟨regVal_regStore_self .., ?_, rfl⟩
    rw [regVal_regStore_ne _ _ (by omega)]
    exact regVal_touch s _
  case alone =>
    intro off v s up al ok low high held w
    refine ⟨busWrite s off v, rfl, ?_⟩
    rw [busWrite_high v up al ok low high, writeHigh_alone v (by rwa [writable_touch]) (by simp [held])]
    refine ⟨regVal_regStore_self .., fun o n => ?_, rfl⟩
    rw [regVal_regStore_ne _ _ n]
    exact regVal_touch s o

/-! ### Posting an event writes no output -/

theorem markLost_bus (s : State) (old new : EvBuf) : (markLost s old new).io.bus = s.io.bus := by
  unfold markLost forEach
  induction old.recs.filter fun e => !new.recs.contains e generalizing s with
  | nil => rfl
  | cons e l ih =>
    rw [List.foldl_cons, ih]
    split <;> rfl

theorem pushGlobal_bus (s : State) (e : Event) : (pushGlobal s e).io.bus = s.io.bus := by
  unfold pushGlobal
  split
  · rfl
  · exact markLost_bus ..

theorem postGlobal_bus (s : State) (g : Nat) (payload : List Fld) : (postGlobal s g payload).io.bus = s.io.bus :=
  pushGlobal_bus ..

theorem pushPort_bus (s : State) (p : PortId) (e : Event) : (pushPort s p e).io.bus = s.io.bus := by
  unfold pushPort
  simp only []
  split
  · rfl
  · split
    · exact (postGlobal_bus ..).trans (markLost_bus ..)
    · exact markLost_bus ..

theorem pushEvent_bus (s : State) (e : Event) : (pushEvent s e).io.bus = s.io.bus := by
  unfold pushEvent
  split
  · exact pushGlobal_bus s e
  · split
    · exact pushPort_bus s _ e
    · exact pushGlobal_bus s e

theorem postLimited_bus (s : State) (src kind : Nat) (payload : List Fld) (at_ : Option Nat) (n : Nat) :
    (postLimited s src kind payload at_ n).io.bus = s.io.bus := by
  unfold postLimited postLimitedNaming
  simp only []
  split
  · rfl
  · exact pushEvent_bus ..

/-! ### Access errors (R356, R357) -/

theorem accessErr_bus (s : State) (off : Nat) (write : Bool) (cause : Nat) :
    (accessErr s off write cause).io.bus = s.io.bus := by
  unfold accessErr
  simp only []
  split <;> exact postLimited_bus ..

theorem accessErr_regs (s : State) (off : Nat) (write : Bool) (cause : Nat) :
    (accessErr s off write cause).regs = s.regs :=
  onlyIn_of_pick (m := [.access, .io]) (by simp) .regs (by simp)

/-- The first error is recorded with its cause, address and direction. -/
theorem accessErr_first {s : State} (off : BitVec 26) (write : Bool) (cause : Nat) (h : s.access.err = false) :
    (accessErr s off.toNat write cause).access =
      { s.access with err := true, cause := BitVec.ofNat 3 cause, addr := off, write := write } := by
  unfold accessErr
  split <;> simp [h]

/-- A further error sets ACCESS_OVERFLOW alone. -/
theorem accessErr_again {s : State} (off : Nat) (write : Bool) (cause : Nat) (h : s.access.err = true) :
    (accessErr s off write cause).access = { s.access with overflow := true } := by
  unfold accessErr
  split <;> simp [h]

/-- The bridge ends an access: the first error is recorded, and a read returns its fixed word. -/
theorem endAccess_first {s : State} (off : BitVec 26) (write : Bool) (cause : Nat) (h : s.access.err = false) :
    (endAccess s off.toNat write cause).access =
      { s.access with err := true, cause := BitVec.ofNat 3 cause, addr := off, write := write } := by
  unfold endAccess
  split <;> exact accessErr_first off write cause h

/-! ### Plain register writes -/

theorem regLoc_ring {off : Nat} {r : RingId} {o : Nat} (h : regLoc off = .ring r o) : off = ringOff r o := by
  unfold regLoc at h
  split_ifs at h
  cases h
  simp only [ringOff]
  omega

/-- A plain write to a register that has fields and starts nothing. -/
theorem writePlain_fields {s : State} {off : BitVec 26} (v : BitVec 32) (fmc : off ≠ 0x208) (mirror : off ≠ 0x308)
    (mask : regMask off.toNat ≠ 0) (ctrl : ∀ r, off.toNat ≠ ringOff r 0x10) :
    writePlain s off v = writeFields s off.toNat v := by
  have noFields (o : BitVec 26) (z : regMask o.toNat = 0) : off ≠ o := by
    rintro rfl
    exact mask z
  rw [writePlain, if_neg (noFields 0x030 (by decide)), if_neg fmc, if_neg mirror, if_neg (noFields 0x410 (by decide)),
    if_neg (noFields 0x534 (by decide))]
  split
  · rename_i r e
    exact absurd (regLoc_ring e) (ctrl r)
  · rfl

/-- A write in range is stored; only vector moderation does more, and that in `io` alone. -/
theorem writeFields_stored {s : State} {off : Nat} {v : BitVec 32} (mask : regMask off ≠ 0) (ok : regOk off v = true)
    (w : writable s off = true) :
    OnlyIn [.io] (regStore s off v) (writeFields s off v) ∧
      ((∀ x, regLoc off ≠ .vec x) → writeFields s off v = regStore s off v) := by
  rw [writeFields, if_neg mask, if_pos ok, storeAllowed_writable v w]
  simp only []
  split
  · rename_i x e
    exact ⟨onlyIn_of_pick (by simp), fun n => absurd e (n x)⟩
  · exact ⟨onlyIn_of_pick rfl, fun _ => rfl⟩

theorem writeFields_badValue {s : State} {off : Nat} {v : BitVec 32} (mask : regMask off ≠ 0)
    (bad : regOk off v = false) : writeFields s off v = accessErr s off true 4 := by
  rw [writeFields, if_neg mask, if_neg (by simp [bad])]

theorem writePlain_fmc (s : State) (v : BitVec 32) : writePlain s 0x208 v = writeFmc s v := by
  rw [writePlain, if_neg (by decide), if_pos rfl]

/-- START with SEL and UNIT in range: the measurement runs anew. -/
theorem writeFmc_start {s : State} {v : BitVec 32} (ok : regOk 0x208 v = true) (start : v.getLsbD 15 = true) :
    writeFmc s v =
      { regStore s 0x208 v with clk := { s.clk with fmcDone := false, fmcRunning := true } } := by
  rw [writeFmc, if_neg (by simp [ok])]
  exact if_pos start

/-- The host's write, in Run, to a register that is no half of a pair. -/
theorem busWrite_plain {s : State} {off : BitVec 26} (v : BitVec 32) (up : busUp s = true) (run : s.pwr.st = .run)
    (al : off.toNat % 4 = 0) (ok : refusedCause s off.toNat = none) (low : isPairLow off.toNat = false)
    (high : isPairLow (off.toNat - 4) = false) : busWrite s off v = writePlain { s with heldLow := none } off v := by
  rw [busWrite_reach v up al (by rwa [touch_run run]), touch_run run, writeReg, if_neg (by simp [low]),
    if_neg (by simp [high])]

/-- Settles O22: plain writes through `writeFields_stored` and `writeFields_badValue`, the measurement through
`writeFmc_start`, refused accesses through `endAccess`. -/
theorem registerAccess : Obligations.RegisterAccess := by
  unfold Obligations.RegisterAccess
  refine ⟨?stored, ?bad, ?fmc, ?window, ?read, ?again, ?gate⟩
  case stored =>
    intro off v s up run al ok low high n1 n2 mask ctrl inRange w
    refine ⟨busWrite s off v, rfl, ?_⟩
    rw [busWrite_plain v up run al ok low high, writePlain_fields v n1 n2 mask ctrl]
    obtain ⟨frame, plain⟩ := writeFields_stored (s := { s with heldLow := none }) mask inRange w
    have regs := frame .regs (by simp)
    have val (o : Nat) : regVal (writeFields { s with heldLow := none } off.toNat v) o =
        regVal (regStore s off.toNat v) o := congrArg (tabGet (regReset o) · o) regs
    have stored : OnlyIn [.regs, .heldLow] s (regStore { s with heldLow := none } off.toNat v) :=
      onlyIn_of_pick (by simp)
    refine ⟨?_, fun o n => ?_, frame .heldLow (by simp), onlyIn_trans stored frame, fun n => ?_⟩
    · rw [val, regVal_regStore_self]
    · rw [val, regVal_regStore_ne s v n]
    · rw [plain n]
      rfl
  case bad =>
    intro off v s up run al ok low high n1 n2 mask ctrl bad
    refine ⟨busWrite s off v, rfl, ?_⟩
    rw [busWrite_plain v up run al ok low high, writePlain_fields v n1 n2 mask ctrl, writeFields_badValue mask bad]
    exact ⟨accessErr_regs .., fun h => accessErr_first off true 4 h⟩
  case fmc =>
    intro v s up run inRange start
    refine ⟨busWrite s 0x208 v, rfl, ?_⟩
    rw [busWrite_plain v up run (by decide) rfl (by decide) (by decide),
      writePlain_fmc, writeFmc_start inRange start]
    exact ⟨rfl, rfl, regVal_regStore_self s 0x208 v⟩
  case window =>
    intro count s running clock
    refine ⟨_, by rw [exec, execFmcWindowEnd, if_pos (by simp [running, clock])], rfl, fun stopped => ?_, ?_⟩
    · exact if_pos stopped
    · exact onlyIn_of_pick (by simp)
  case read =>
    intro off n s up run refused first
    refine ⟨endAccess s off.toNat false n, ?_, endAccess_first off false n first, ?_,
      endAccess_onlyIn s off.toNat false n⟩
    · simp [exec, execBlockAccessRefused, up, refused, touch_run run]
    · rw [endAccess, accessErr_bus]
      exact List.mem_cons_self
  case again =>
    intro off n s up run refused err
    refine ⟨endAccess s off.toNat true n, ?_, accessErr_again off.toNat true n err, endAccess_onlyIn s off.toNat true n⟩
    simp [exec, execBlockAccessRefused, up, refused, touch_run run]
  case gate =>
    intro off write s up run first
    refine ⟨endAccess s off.toNat write 1, ?_, endAccess_first off write 1 first, endAccess_onlyIn s off.toNat write 1⟩
    simp [exec, execGateAccessTimeout, up]

/-! ### The tick (log 4) -/

theorem step_empty {s : State} (h : s.pending = []) : step s = .next (tick s) := by rw [step, h]

/-- With nothing staged and no ring's buffers on their way back there is nothing to poll. -/
theorem stagePoll_idle {s : State} (stages : s.fw.stages = []) (dropping : s.fw.dropping = []) : stagePoll s = s := by
  have same : { s.fw with stages := [], dropping := [] } = s.fw := by rw [← stages, ← dropping]
  unfold stagePoll
  split
  · simp only [stages, dropping, forEach, List.foldl_nil]
    exact congrArg ({ s with fw := · }) same
  · rfl

theorem powerPoll_idle {s : State} (entry : s.pwr.pending = none) : powerPoll s = s := by simp only [powerPoll, entry]

theorem tick_idle {s : State} (entry : s.pwr.pending = none) (stages : s.fw.stages = [])
    (dropping : s.fw.dropping = []) : tick s = { s with time := timeTick s, mono := s.mono + 1 } := by
  rw [tick, powerPoll_idle (by exact entry)]
  exact stagePoll_idle stages dropping

/-- What the tick polls leaves the machine's own count alone. -/
theorem tick_mono (s : State) : (tick s).mono = s.mono + 1 :=
  onlyIn_of_pick (m := [.pwr, .rails, .dies, .store, .ports, .herds, .io, .waits, .flt, .fw, .nv])
    (s := { s with time := timeTick s, mono := s.mono + 1 }) (by simp [tick]) .mono (by simp)

/-- On the root PLL, with whole steps behind it, the counter goes on by 1 ns. -/
theorem timeStride_pll {t : TimeSt} (acc : t.acc = 0) (frac : t.frac < 1000) :
    timeStride 1000 t = { t with now := t.now + 1 } := by
  have whole : (t.frac + 1000) / 1000 = 1 := by omega
  have rest : (t.frac + 1000) % 1000 = t.frac := by omega
  simp [timeStride, acc, whole, rest]

section RootPll
variable {s : State} (clock : s.clk.refclkOk = true) (notPorst : s.pwr.st ≠ .inPorst) (notDeep : s.pwr.st ≠ .deepSleep)
  (pll : (getSwitch s .hubCore).onPll = true) (acc : s.time.acc = 0) (frac : s.time.frac < 1000)
include clock notPorst notDeep pll acc frac

theorem timeTick_noSlew (rest : s.time.slewLeft = 0) : timeTick s = { s.time with now := s.time.now + 1 } := by
  simp [timeTick, timeStep, clock, notPorst, notDeep, pll, timeStride_pll acc frac, rest]

theorem timeTick_slewUp (rest : 0 < s.time.slewLeft) (phase : s.time.slewPhase = 9999) :
    timeTick s = { s.time with now := s.time.now + 2, slewLeft := s.time.slewLeft - 1, slewPhase := 0 } := by
  simp [timeTick, timeStep, clock, notPorst, notDeep, pll, timeStride_pll acc frac, rest, phase, rest.ne',
    BitVec.add_assoc]

theorem timeTick_slewDown (rest : s.time.slewLeft < 0) (phase : s.time.slewPhase = 9999) :
    timeTick s = { s.time with slewLeft := s.time.slewLeft + 1, slewPhase := 0 } := by
  simp [timeTick, timeStep, clock, notPorst, notDeep, pll, timeStride_pll acc frac, phase, rest.ne, not_lt.mpr rest.le]

end RootPll

theorem timeTick_noClock {s : State} (h : s.clk.refclkOk = false) : timeTick s = s.time := by simp [timeTick, h]

/-- Settles O53, the model's own tick (log 4): with nothing to poll it moves device time by `timeTick` alone. -/
theorem idleTick : Obligations.IdleTick := by
  unfold Obligations.IdleTick
  refine ⟨?any, ?free, ?up, ?down, ?stands⟩
  case any =>
    intro s empty
    exact ⟨tick s, step_empty empty, tick_mono s, (congrArg Kept.pending (kept_tick s)).trans empty⟩
  case free =>
    intro s empty entry stages dropping clock porst deep pll acc frac rest
    rw [step_empty empty, tick_idle entry stages dropping, timeTick_noSlew clock porst deep pll acc frac rest]
  case up =>
    intro s empty entry stages dropping clock porst deep pll acc frac rest phase
    rw [step_empty empty, tick_idle entry stages dropping, timeTick_slewUp clock porst deep pll acc frac rest phase]
  case down =>
    intro s empty entry stages dropping clock porst deep pll acc frac rest phase
    rw [step_empty empty, tick_idle entry stages dropping, timeTick_slewDown clock porst deep pll acc frac rest phase]
  case stands =>
    intro s empty entry stages dropping clock
    rw [step_empty empty, tick_idle entry stages dropping, timeTick_noClock clock]

end Sys2Proof.Proofs
end

section
/-!
PROOFS of the family 01_architecture: the queue (O51, O59), the delivery of events (O18), staging and commits (O24).
-/

namespace Sys2Proof.Proofs

open Sys2Proof.Machine Sys2Proof.Safety

/-! ### The queue (log 1) -/

/-- Settles O51: with a command at the front, `step` is `exec` by its own definition. -/
theorem stepRunsFront : Obligations.StepRunsFront := by
  unfold Obligations.StepRunsFront
  intro i rest s front
  rw [step, front]

/-- Settles O59: the tick leaves the queue alone, and so does every command (`carry_exec`), which runs on the queue's
rest. -/
theorem queueIsFifo : Obligations.QueueIsFifo := by
  unfold Obligations.QueueIsFifo
  intro s t h
  cases front : s.pending with
  | nil =>
    rw [step_empty front] at h
    obtain rfl : tick s = t := by simpa using h
    exact (congrArg Kept.pending (kept_tick s)).trans front
  | cons i rest =>
    rw [stepRunsFront i rest s front] at h
    exact (carry_exec i _ t h).pending

/-! ### Delivery of events (R21, R32) -/

/-- A first record of an event source, without payload. -/
def firstRecord (source : Nat) : Event :=
  { source := source, conseq := false, gen := 1, time := 0, payload := [], names := none }

/-- Herd 37 after its die's link was lost and has come back while Bus Master was clear: one record of port 300 had
reached the hub before the loss (R21) and waits there still, a later one waits in the herd's buffer. Event ring 0 is
ACTIVE and empty. -/
def recordInHub : State :=
  { State.reset with
    regs := [(0x400008, 0x32)]
    io := { State.reset.io with
      busMaster := true, rings := [(0, { Ring.reset with st := .active, phase := true })]
      inHub := [(37, [firstRecord (portSrc 300 0)])]
      herdBuf := [(37, { recs := [firstRecord (portSrc 300 1)], collapsed := false })] } }

/-- Refutes O18: its second clause has a herd's delivery write the head of the herd's buffer, and says nothing of the
records that stand in the hub already (R21). In `recordInHub` the delivery writes the one that does. -/
theorem not_eventRows : ¬ Obligations.EventRows := by
  unfold Obligations.EventRows
  intro rows
  obtain ⟨-, fromHerd, -⟩ := rows
  obtain ⟨t, run, written, -⟩ := fromHerd 37 (firstRecord (portSrc 300 1)) [] 0 recordInHub (by decide) (by decide)
    (by decide) (by decide) (by decide) (by decide) (by decide)
  obtain rfl := Host.Outcome.next.inj run
  exact absurd written (by decide)

/-! ### Steps beside a running command -/

/-- What a commit makes live on a port: its parameter set, under its CFG_GEN. -/
def portSet (x : Port) : Tab (BitVec 32) × BitVec 32 := (x.live, x.cfgGen)

/-- What a commit makes live on a herd, and the commit that waits. -/
def herdSet (x : Herd) : BitVec 5 × Bool × BitVec 32 × Option Commit := (x.modeSet, x.policy, x.cfgGen, x.commit)

/-- The commands that an observation path holds: those that wait for a fade, and the stops that wait for a buffer. -/
def pathCmds (o : Obs) : List Cmd := o.waits.map obsCmd ++ o.stoppers

/-- A ring runs the command, and no wait or path holds it. -/
structure Ready (c : Cmd) (s : State) : Prop where
  runs  : Runs s c
  waits : ∀ w ∈ s.waits, waitCmd w ≠ c
  paths : ∀ h, c ∉ pathCmds (getObs s h)

/-- The committed sets of ports and herds stand in t as they stood in s. -/
structure SameSets (s t : State) : Prop where
  port : ∀ p, portSet (getPort t p) = portSet (getPort s p)
  herd : ∀ h, herdSet (getHerd t h) = herdSet (getHerd s h)

/-- What is done beside a running command: that command runs on, and no committed set changes. -/
def Steady (c : Cmd) (s t : State) : Prop := Ready c s → Ready c t ∧ SameSets s t

section
variable {c : Cmd} {s t u : State}

theorem Steady.refl : Steady c s s := fun ready => ⟨ready, fun _ => rfl, fun _ => rfl⟩

theorem Steady.trans (h : Steady c s t) (k : Steady c t u) : Steady c s u := by
  intro ready
  obtain ⟨ready, first⟩ := h ready
  obtain ⟨ready, second⟩ := k ready
  exact ⟨ready, fun p => (second.port p).trans (first.port p), fun g => (second.herd g).trans (first.herd g)⟩

/-- A definition that goes on only if a condition holds. -/
theorem Steady.ite_then {p : Prop} [Decidable p] (h : Steady c s t) (k : Steady c t u) :
    Steady c s (if p then u else t) := by
  split
  · exact h.trans k
  · exact h

/-- A definition that goes on unless a condition holds. -/
theorem Steady.ite_else {p : Prop} [Decidable p] (h : Steady c s t) (k : Steady c t u) :
    Steady c s (if p then t else u) := by
  split
  · exact h
  · exact h.trans k

theorem steady_forEach {α : Type} {f : State → α → State} (l : List α) (s : State)
    (h : ∀ x ∈ l, ∀ s, Steady c s (f s x)) : Steady c s (forEach l f s) := by
  unfold forEach
  induction l generalizing s with
  | nil => exact .refl
  | cons x l ih => exact (h x List.mem_cons_self s).trans (ih _ fun y m => h y (List.mem_cons_of_mem x m))

/-- Ports, herds and waits as they were, and each ring runs what it ran. -/
theorem Steady.of_eq (ports : t.ports = s.ports) (herds : t.herds = s.herds) (waits : t.waits = s.waits)
    (runs : ∀ r, (getRing t r).running = (getRing s r).running) : Steady c s t := by
  have port (p) : getPort t p = getPort s p := by simp only [getPort, ports]
  have herd (h) : getHerd t h = getHerd s h := by simp only [getHerd, herds]
  intro ready
  refine ⟨⟨(runs _).trans ready.runs, waits ▸ ready.waits, fun h => ?_⟩, fun p => by rw [port], fun h => by rw [herd]⟩
  simpa only [getObs, herd] using ready.paths h

/-- A definition whose frame has neither ports, herds, waits nor rings. -/
theorem Steady.of_frame {m : List Area} (frame : OnlyIn m s t) (ports : .ports ∉ m) (herds : .herds ∉ m)
    (waits : .waits ∉ m) (io : .io ∉ m) : Steady c s t := by
  have io : t.io = s.io := frame .io io
  exact .of_eq (frame .ports ports) (frame .herds herds) (frame .waits waits) fun r => by simp only [getRing, io]

/-- Outputs and interrupts (`Quiet`). -/
theorem Steady.of_quiet (frame : OnlyIn [.io] s t) (quiet : Quiet s t) : Steady c s t :=
  .of_eq (frame .ports (by simp)) (frame .herds (by simp)) (frame .waits (by simp)) quiet.run

theorem steady_setPort {p : PortId} {x : Port} (h : portSet x = portSet (getPort s p)) :
    Steady c s (setPort s p x) := by
  intro ready
  refine ⟨⟨ready.runs, ready.waits, ready.paths⟩, fun q => ?_, fun _ => rfl⟩
  by_cases e : q = p
  · subst e
    rw [getPort_setPort_self, h]
  · rw [getPort_setPort_ne _ _ e]

theorem steady_modPort {p : PortId} {f : Port → Port} (h : ∀ x, portSet (f x) = portSet x) :
    Steady c s (modPort s p f) := steady_setPort (h _)

theorem steady_setHerd {h : HerdId} {x : Herd} (same : herdSet x = herdSet (getHerd s h))
    (path : c ∉ pathCmds (getObs s h) → c ∉ pathCmds x.obs) : Steady c s (setHerd s h x) := by
  intro ready
  refine ⟨⟨ready.runs, ready.waits, fun g => ?_⟩, fun _ => rfl, fun g => ?_⟩
  · by_cases e : g = h
    · subst e
      simpa only [getObs, getHerd_setHerd_self] using path (ready.paths g)
    · simpa only [getObs, getHerd_setHerd_ne _ _ e] using ready.paths g
  · by_cases e : g = h
    · subst e
      rw [getHerd_setHerd_self, same]
    · rw [getHerd_setHerd_ne _ _ e]

/-- A herd's record with the same sets and the same path. -/
theorem steady_modHerd {h : HerdId} {f : Herd → Herd} (same : ∀ x, herdSet (f x) = herdSet x)
    (path : ∀ x, (f x).obs = x.obs) : Steady c s (modHerd s h f) :=
  steady_setHerd (same _) (by rw [path]; exact id)

/-- A path that holds no other commands than before. -/
theorem steady_setObs {h : HerdId} {o : Obs} (path : c ∉ pathCmds (getObs s h) → c ∉ pathCmds o) :
    Steady c s (setObs s h o) := steady_setHerd rfl path

theorem steady_setRing {r : RingId} {x : Ring} (h : x.running = (getRing s r).running) : Steady c s (setRing s r x) := by
  refine .of_eq rfl rfl rfl fun q => ?_
  by_cases e : q = r
  · subst e
    rw [getRing_setRing_self, h]
  · rw [getRing_setRing_ne _ _ e]

theorem steady_modRing {r : RingId} {f : Ring → Ring} (h : ∀ x, (f x).running = x.running) :
    Steady c s (modRing s r f) := steady_setRing (h _)

/-! ### Completions of other commands -/

theorem herdRest_herdSet {x y : Herd} (h : herdRest x = herdRest y) : herdSet x = herdSet y := by
  have k := congrArg herdSet h
  exact k

/-- The record of another command leaves its ring's neighbours running. -/
theorem runs_complete {d : Cmd} (other : d ≠ c) (runs : Runs s c) (op : Nat) (l : List MirrorObj) (a : BitVec 8)
    (r : BitVec 64) : Runs (complete s op d l a r) c := by
  unfold complete
  simp only []
  have deq : Runs (dequeue s d) c := ((quiet_dequeue s d).run _).trans runs
  have all : Runs (forEach l mirrorWrite (dequeue s d)) c :=
    ((quiet_forEach l mirrorWrite _ quiet_mirrorWrite).run _).trans deq
  split
  · rename_i own
    have apart : c.ring ≠ d.ring := by
      intro e
      have : (getRing (dequeue s d) c.ring).running = some d := e ▸ eq_of_beq own
      exact other (Option.some.inj (this.symm.trans deq))
    refine ((putReserved_recorded _ _ _).1 _).trans ?_
    rw [getRing_modRing_ne _ _ apart]
    exact all
  · exact all

theorem steady_complete {d : Cmd} (other : d ≠ c) (op : Nat) (l : List MirrorObj) (a : BitVec 8) (r : BitVec 64) :
    Steady c s (complete s op d l a r) := by
  intro ready
  refine ⟨⟨runs_complete other ready.runs op l a r, ?_, fun h => ?_⟩, fun p => ?_, fun h => ?_⟩
  · rw [complete_waits]
    exact ready.waits
  · rw [getObs, complete_herd_obs]
    exact ready.paths h
  · rw [getPort_complete]
  · exact herdRest_herdSet (herdRest_complete s op d l a r h)

theorem steady_completeOk {d : Cmd} (other : d ≠ c) (op : Nat) (l : List MirrorObj) (r : Nat) :
    Steady c s (completeOk s op d l r) := steady_complete other op l _ _

theorem steady_reject {d : Cmd} (other : d ≠ c) (op : Nat) (a : BitVec 8) (r : BitVec 64) :
    Steady c s (reject s op d a r) := steady_complete other op [] a r

/-! ### Events -/

theorem steady_markLost (old new : EvBuf) : Steady c s (markLost s old new) := by
  refine steady_forEach _ _ fun e _ s => ?_
  split
  · exact steady_modRing fun _ => rfl
  · exact .refl

theorem steady_pushGlobal (e : Event) : Steady c s (pushGlobal s e) := by
  unfold pushGlobal
  split
  · exact .refl
  · refine Steady.trans ?_ (steady_markLost _ _)
    exact .of_eq rfl rfl rfl fun _ => rfl

theorem steady_bumpGen (src : Nat) : Steady c s (bumpGen s src) := .of_eq rfl rfl rfl fun _ => rfl

theorem steady_postGlobal (g : Nat) (payload : List Fld) : Steady c s (postGlobal s g payload) :=
  (steady_bumpGen _).trans (steady_pushGlobal _)

theorem steady_pushPort (p : PortId) (e : Event) : Steady c s (pushPort s p e) := by
  unfold pushPort
  simp only []
  split
  · exact .refl
  · have buffered : Steady c s (setHerdBuf s (herdOf p) (bufPush (getHerdBuf s (herdOf p)) 4096 e)) :=
      .of_eq rfl rfl rfl fun _ => rfl
    split
    · exact (buffered.trans (steady_markLost _ _)).trans (steady_postGlobal _ _)
    · exact buffered.trans (steady_markLost _ _)

theorem steady_pushEvent (e : Event) : Steady c s (pushEvent s e) := by
  unfold pushEvent
  split
  · exact steady_pushGlobal e
  · split
    · exact steady_pushPort _ e
    · exact steady_pushGlobal e

theorem steady_postPort (p : PortId) (n : Nat) (payload : List Fld) : Steady c s (postPort s p n payload) :=
  (steady_bumpGen _).trans (steady_pushPort p _)

theorem steady_postNaming (p : PortId) (n : Nat) (payload : List Fld) (k : Option Taken) :
    Steady c s (postNaming s p n payload k) := (steady_bumpGen _).trans (steady_pushPort p _)

theorem steady_setInterval (key : Nat) (i : Interval) : Steady c s (setInterval s key i) :=
  .of_eq rfl rfl rfl fun _ => rfl

theorem steady_postLimitedNaming (src kind : Nat) (payload : List Fld) (at_ : Option Nat) (n : Nat) (k : Option Taken) :
    Steady c s (postLimitedNaming s src kind payload at_ n k) := by
  unfold postLimitedNaming
  simp only []
  refine (steady_bumpGen src).trans ?_
  split
  · exact steady_setInterval _ _
  · exact (steady_setInterval _ _).trans (steady_pushEvent _)

/-! ### Data buffers -/

theorem steady_putCompletion (q : RingId) (r : Completion) : Steady c s (putCompletion s q r) := by
  unfold putCompletion
  simp only []
  split
  · exact .of_quiet (onlyIn_of_pick (by simp)) (quiet_putRecord s q r).1
  · exact steady_setRing rfl

theorem steady_completeBuf (kind : BitVec 3) (k : Taken) (status : BitVec 8) (bytes : Nat) :
    Steady c s (completeBuf s kind k status bytes) := steady_putCompletion _ _

theorem steady_popBuf (r : RingId) (d : DataDesc) (rest : List DataDesc) : Steady c s (popBuf s r d rest).2 :=
  steady_setRing rfl

theorem steady_skipBad (isIn : Bool) (r : RingId) (l : List DataDesc) (s : State) :
    Steady c s (skipBad isIn r l s) := by
  induction l generalizing s with
  | nil => exact .refl
  | cons d rest ih =>
    unfold skipBad
    split
    · exact .refl
    · exact ((steady_popBuf r d rest).trans (steady_completeBuf _ _ _ _)).trans (ih _)

theorem steady_cleanHead (r : RingId) : Steady c s (cleanHead s r) := steady_skipBad _ _ _ _

theorem steady_takeBuf (ring : Option RingId) (need : Nat) : Steady c s (takeBuf s ring need).st := by
  unfold takeBuf
  split
  · exact .refl
  · rename_i r
    simp only []
    refine (steady_cleanHead r).trans ?_
    split
    · exact .refl
    · split
      · exact .refl
      · refine Steady.trans ?_ (steady_cleanHead r)
        exact Steady.trans (steady_popBuf _ _ _) (steady_setRing rfl)

theorem steady_finishIn (k : Taken) (bytes : Nat) (fs : List Fld) : Steady c s (finishIn s k bytes fs) := by
  unfold finishIn
  split
  · have written : Steady c s (emit (untake s k) (.data k.desc.addr fs)) :=
      (steady_modRing (f := fun x => { x with taken := x.taken.erase k }) fun _ => rfl).trans
        (.of_eq rfl rfl rfl fun _ => rfl)
    exact written.trans (steady_completeBuf _ _ _ _)
  · exact .refl

theorem steady_returnShort (need : Nat) (r : RingId) (l : List DataDesc) (s : State) :
    Steady c s (returnShort need r l s) := by
  induction l generalizing s with
  | nil => exact .refl
  | cons d rest ih =>
    unfold returnShort
    split
    · exact .refl
    · exact ((steady_popBuf r d rest).trans (steady_completeBuf _ _ _ _)).trans (ih _)

theorem steady_deliverKept (r : RingId) (p : PortId) : Steady c s (deliverKept s r p) := by
  unfold deliverKept
  simp only []
  split
  · exact .refl
  · have taken := (steady_returnShort (c := c) 1280 r (getRing s r).bufs s).trans (steady_takeBuf (some r) 1280)
    split
    · exact taken
    · refine Steady.trans ?_ (steady_postNaming _ _ _ _)
      refine Steady.trans ?_ (steady_modPort fun _ => rfl)
      exact taken.trans (steady_finishIn _ _ _)

theorem steady_takeIn (ring : Option RingId) (need : Nat) : Steady c s (takeIn s ring need).st := by
  unfold takeIn
  split
  · split
    · exact (steady_deliverKept _ _).trans (steady_takeBuf _ _)
    · exact steady_takeBuf _ _
  · exact steady_takeBuf _ _

/-! ### The observation path -/

theorem steady_captureReady (h : HerdId) (source : Nat) (k : Taken) : Steady c s (captureReady s h source k) :=
  steady_postLimitedNaming _ _ _ _ _ _

theorem steady_captureStopped (h : HerdId) (e : ObsEnd) (k : Option Taken) : Steady c s (captureStopped s h e k) :=
  (steady_setInterval _ _).trans (steady_postNaming _ _ _ _)

theorem steady_captureTake (h : HerdId) : Steady c s (captureTake s h) := by
  unfold captureTake
  simp only []
  split
  · split
    · exact (steady_takeIn _ 4096).trans (steady_setObs id)
    · exact .refl
  · exact .refl

theorem steady_captureWrite (h : HerdId) (b : Taken) (n : Nat) (noTime : BitVec 64) (last : Option ObsEnd) :
    Steady c s (captureWrite s h b n noTime last) := by
  refine (steady_finishIn b _ _).trans (steady_setObs fun out => ?_)
  rw [getObs, getHerd_finishIn] at out
  exact out

theorem steady_freeNat : Steady c s (freeNat s).2 := .of_eq rfl rfl rfl fun _ => rfl

theorem steady_stopDone (h : HerdId) : Steady c s (stopDone s h) := by
  intro ready
  have others : ∀ d ∈ (getObs s h).stoppers, d ≠ c := fun d m e =>
    ready.paths h (e ▸ List.mem_append_right _ m)
  have clear : Steady c s (setObs s h { getObs s h with
      final := none, stoppers := [], held := [], supp := 0, drop := 0, stepped := false, suppBuf := 0, dropBuf := 0
      stepBuf := false }) := by
    refine steady_setObs fun out => ?_
    simp only [pathCmds, List.mem_append, not_or] at out ⊢
    exact ⟨out.1, List.not_mem_nil⟩
  exact clear.trans (steady_forEach _ _ fun d m _ => steady_completeOk (others d m) _ _ _) ready

theorem steady_captureFill (n : Nat) (h : HerdId) (s : State) : Steady c s (captureFill n h s) := by
  induction n generalizing s with
  | zero => exact .refl
  | succ n ih =>
    unfold captureFill
    simp only []
    refine (steady_captureTake h).trans ?_
    split
    · split
      · exact ((steady_captureWrite _ _ _ _ _).trans (steady_captureReady _ _ _)).trans (ih _)
      · exact .refl
    · exact .refl

theorem steady_captureEnd (n : Nat) (h : HerdId) (e : ObsEnd) (s : State) : Steady c s (captureEnd n h e s) := by
  induction n generalizing s with
  | zero => exact .refl
  | succ n ih =>
    unfold captureEnd
    simp only []
    refine (steady_captureTake h).trans ?_
    split
    · split
      · exact .refl
      · split
        · exact ((steady_freeNat.trans (steady_captureWrite _ _ _ _ _)).trans (steady_captureStopped _ _ _)).trans
            (steady_stopDone h)
        · exact ((steady_captureWrite _ _ _ _ _).trans (steady_captureReady _ _ _)).trans (ih _)
    · split
      · exact .refl
      · exact (steady_captureStopped _ _ _).trans (steady_stopDone h)

theorem steady_captureDrain (h : HerdId) : Steady c s (captureDrain s h) := by
  unfold captureDrain
  simp only []
  split
  · exact steady_captureEnd _ _ _ _
  · exact steady_captureFill _ _ _

theorem steady_obsStopWith (h : HerdId) (cause : Nat) : Steady c s (obsStopWith s h cause) := by
  unfold obsStopWith
  simp only []
  split
  · refine Steady.trans ?_ (steady_captureDrain h)
    exact steady_setObs id
  · exact .refl

theorem steady_doSelect {d : Cmd} (other : d ≠ c) (h : HerdId) (source decim : Nat) :
    Steady c s (doSelect s h d source decim) := by
  unfold doSelect
  simp only []
  split
  · exact steady_reject other _ _ _
  · split
    · exact steady_reject other _ _ _
    · refine Steady.trans (steady_setObs ?_) (steady_completeOk other _ _ _)
      split <;> exact id

theorem steady_doStop {d : Cmd} (other : d ≠ c) (h : HerdId) : Steady c s (doStop s h d) := by
  unfold doStop
  simp only []
  refine (steady_obsStopWith h 0x01).trans ?_
  split
  · refine steady_setObs fun out => ?_
    simp only [pathCmds, List.mem_append, List.mem_singleton, not_or] at out ⊢
    exact ⟨out.1, out.2, other.symm⟩
  · exact steady_completeOk other _ _ _

theorem steady_dropLast (h : HerdId) : Steady c s (dropLast s h) := by
  unfold dropLast
  split
  · exact (steady_captureStopped _ _ _).trans (steady_stopDone h)
  · exact .refl

theorem steady_doStart (h : HerdId) (mode : BitVec 8) (count : BitVec 32) (ring : BitVec 16) :
    Steady c s (doStart s h mode count ring) := by
  refine (steady_dropLast h).trans (steady_setObs ?_)
  split <;> exact id

theorem steady_finishStart {d : Cmd} (other : d ≠ c) (h : HerdId) (mode : BitVec 8) (count : BitVec 32)
    (time : BitVec 64) : Steady c s (finishStart s h d mode count time) := by
  unfold finishStart
  split
  · refine Steady.trans ?_ (steady_reject other _ _ _)
    exact .of_eq rfl rfl rfl fun _ => rfl
  · refine Steady.trans ?_ (steady_completeOk other _ _ _)
    split
    · exact steady_doStart _ _ _ _
    · exact steady_setObs id

theorem steady_obsWaited {w : ObsWait} (other : obsCmd w ≠ c) (h : HerdId) : Steady c s (obsWaited h s w) := by
  cases w with
  | select d source decim => exact steady_doSelect other h _ _
  | stop d => exact steady_doStop other h
  | start d mode count time => exact steady_finishStart other h mode count time

theorem steady_runObsWaits (h : HerdId) : Steady c s (runObsWaits s h) := by
  intro ready
  have others : ∀ w ∈ (getObs s h).waits, obsCmd w ≠ c := fun w m e =>
    ready.paths h (e ▸ List.mem_append_left _ (List.mem_map_of_mem m))
  have clear : Steady c s (setObs s h { getObs s h with waits := [] }) := by
    refine steady_setObs fun out => ?_
    simp only [pathCmds, List.mem_append, not_or] at out ⊢
    exact ⟨List.not_mem_nil, out.2⟩
  exact clear.trans (steady_forEach _ _ fun w m _ => steady_obsWaited (others w m) h) ready

theorem steady_obsModeChange (h : HerdId) : Steady c s (obsModeChange s h) :=
  (steady_obsStopWith h 0x05).trans (steady_runObsWaits h)

/-! ### Levels, clocks and the trunk -/

theorem steady_setDie (d : DieId) (x : Die) : Steady c s (setDie s d x) := .of_eq rfl rfl rfl fun _ => rfl

theorem steady_setRail (r : RailId) (x : Rail) : Steady c s (setRail s r x) := .of_eq rfl rfl rfl fun _ => rfl

theorem steady_emit (b : Bus) : Steady c s (emit s b) := .of_eq rfl rfl rfl fun _ => rfl

theorem steady_railTo (r : RailId) (mv : Nat) : Steady c s (railTo s r mv) := by
  refine Steady.trans ?_ (steady_setRail r _)
  exact steady_forEach _ _ fun _ _ _ => steady_emit _

theorem steady_stepBegin (d : DieId) (n : Nat) : Steady c s (stepBegin s d n) :=
  (steady_setDie d _).trans (steady_railTo _ _)

theorem steady_retarget (d : DieId) : Steady c s (retarget s d) := by
  unfold retarget
  simp only []
  split
  · exact steady_setDie d _
  · split
    · exact steady_setDie d _
    · exact (steady_setDie d _).trans (steady_stepBegin _ _)

theorem steady_movePll (h : HerdId) : Steady c s (movePll s h) := by
  unfold movePll
  split
  · refine Steady.trans (t := modHerd s h fun x => { x with pllOld := none }) ?_ (.of_eq rfl rfl rfl fun _ => rfl)
    exact steady_modHerd (fun _ => rfl) fun _ => rfl
  · exact .refl

theorem steady_requestSwitch (d : Domain) (toPll : Bool) : Steady c s (requestSwitch s d toPll) :=
  .of_frame (m := [.clk]) (onlyIn_of_pick (by simp)) (by simp) (by simp) (by simp) (by simp)

theorem steady_setPllMode (h : HerdId) (m : LineMode) : Steady c s (setPllMode s h m) := by
  unfold setPllMode
  simp only []
  refine Steady.trans (t := modHerd s h fun x => { x with pllMode := m, pllOld := none })
    (steady_modHerd (fun _ => rfl) fun _ => rfl) ?_
  split
  · exact .refl
  · refine Steady.ite_then (Steady.trans ?_ (steady_requestSwitch (.herdDsp h) false)) (steady_movePll h)
    exact steady_modHerd (fun _ => rfl) fun _ => rfl

theorem steady_repath (h : HerdId) : Steady c s (repath s h) :=
  steady_forEach _ _ fun _ _ _ => steady_modPort fun _ => rfl

theorem steady_dissolve (h : HerdId) : Steady c s (dissolve s h) := by
  refine Steady.trans ?_ (steady_repath h)
  exact steady_modHerd (fun _ => rfl) fun _ => rfl

/-! ### Restarts -/

theorem steady_releaseMode (h : HerdId) (reaction : Bool) : Steady c s (releaseMode s h reaction) := by
  unfold releaseMode
  simp only []
  split
  · refine Steady.trans (t := setHerd s h { getHerd s h with resolved := none }) (steady_setHerd rfl id) ?_
    split
    · exact .refl
    · exact steady_retarget _
  · exact .refl

theorem steady_setSt (p : PortId) (st : PortSt) : Steady c s (setSt s p st) := by
  unfold setSt
  simp only []
  refine Steady.trans ?_ (steady_releaseMode _ _)
  refine Steady.ite_else (steady_setPort rfl) ?_
  exact steady_modHerd (fun _ => rfl) fun _ => rfl

theorem steady_newAttempt (p : PortId) : Steady c s (newAttempt s p) := by
  unfold newAttempt
  simp only []
  refine Steady.trans ?_ (steady_modPort fun _ => rfl)
  refine Steady.trans ?_ (steady_setSt p .negotiate)
  exact .of_eq rfl rfl rfl fun _ => rfl

theorem steady_clearAttempts (p : PortId) : Steady c s (clearAttempts s p) := steady_modPort fun _ => rfl

theorem steady_endCal (p : PortId) : Steady c s (endCal s p) := by
  unfold endCal calDone
  split
  · split
    · refine Steady.trans ?_ (steady_postPort _ _ _)
      exact steady_modPort fun _ => rfl
    · exact .refl
  · exact .refl

theorem steady_abortTo (p : PortId) (cause : Nat) (entered : PortSt) : Steady c s (abortTo s p cause entered) := by
  unfold abortTo postAbort
  refine Steady.trans ?_ (steady_modPort fun _ => rfl)
  refine Steady.trans ?_ (steady_postPort _ _ _)
  exact steady_modPort fun _ => rfl

theorem steady_handoverStart (h : HerdId) : Steady c s (handoverStart s h) := by
  refine steady_modHerd (fun x => ?_) fun x => ?_
  · split <;> rfl
  · split <;> rfl

theorem steady_failWaits (p : PortId) (cause : Nat) : Steady c s (failWaits s p cause) := by
  intro ready
  unfold failWaits
  simp only []
  refine Steady.trans (t := { s with waits := s.waits.filter fun w => match w with
    | .paired q _ _ _ => q != p
    | .loop q _ _ => q != p
    | _ => true }) (c := c) ?_ (steady_forEach _ _ fun w m _ => ?_) ready
  · intro ready
    exact ⟨⟨ready.runs, fun w m => ready.waits w (List.mem_filter.mp m).1, ready.paths⟩, fun _ => rfl, fun _ => rfl⟩
  · have other := ready.waits w (List.mem_filter.mp m).1
    cases w with
    | paired => exact steady_reject other _ _ _
    | loop => exact steady_reject other _ _ _
    | level => exact .refl
    | sync => exact .refl

/-! What a port counts as it leaves UP changes no set. -/

@[simp] theorem portSet_statAdd (x : Port) (off n : Nat) : portSet (statAdd x off n) = portSet x := rfl
@[simp] theorem portSet_persAdd (x : Port) (off n : Nat) : portSet (persAdd x off n) = portSet x := rfl
@[simp] theorem portSet_slewMark (s : State) (x : Port) : portSet (slewMark s x) = portSet x := rfl

@[simp] theorem portSet_quietClose (s : State) (x : Port) : portSet (quietClose s x) = portSet x := by
  unfold quietClose
  split <;> rfl

@[simp] theorem portSet_histClose (x : Port) : portSet (histClose x) = portSet x := by
  unfold histClose
  simp only []
  split <;> rfl

theorem steady_leaveUp (p : PortId) (cause : Nat) (next : PortSt) : Steady c s (leaveUp s p cause next) := by
  unfold leaveUp
  simp only []
  refine Steady.trans ?_ (steady_failWaits _ _)
  refine Steady.trans ?_ (steady_postPort _ _ _)
  refine Steady.ite_then (Steady.ite_then ?_ (steady_handoverStart _)) (steady_endCal p)
  refine Steady.trans (steady_setPort ?_) (steady_setSt p next)
  exact (portSet_histClose _).trans (by simp)

theorem steady_restartForMode (p : PortId) : Steady c s (restartForMode s p) := by
  unfold restartForMode
  simp only []
  split
  · exact ((steady_leaveUp _ _ _).trans (steady_clearAttempts _)).trans (steady_newAttempt _)
  · split
    · exact ((steady_abortTo _ _ _).trans (steady_clearAttempts _)).trans (steady_newAttempt _)
    · split
      · split
        · exact .refl
        · exact (steady_endCal _).trans (steady_newAttempt _)
      · exact .refl

theorem steady_restartForPolicy (p : PortId) : Steady c s (restartForPolicy s p) := by
  unfold restartForPolicy
  split
  · exact ((steady_leaveUp _ _ _).trans (steady_clearAttempts _)).trans (steady_newAttempt _)
  · exact .refl

theorem steady_herdRestarts (h : HerdId) (modeChanged policyChanged : Bool) :
    Steady c s (herdRestarts s h modeChanged policyChanged) := by
  unfold herdRestarts
  simp only []
  refine Steady.trans (steady_forEach _ _ fun p _ _ => ?_) (steady_modHerd (fun _ => rfl) fun _ => rfl)
  split
  · exact steady_restartForMode p
  · exact steady_restartForPolicy p

/-! ### What a commit itself writes -/

/-- Of a herd commit only the herd's own record changes a set (R337, R338). -/
theorem steady_applyHerd (h : HerdId) (modeSet : BitVec 5) (policy : Bool) :
    Steady c (setHerd s h { getHerd s h with
      modeSet := modeSet, policy := policy, commit := none, cfgGen := (getHerd s h).cfgGen + 1
      resolved := if modeSet != (getHerd s h).modeSet then singleMode modeSet else (getHerd s h).resolved })
    (applyHerd s h modeSet policy) := by
  unfold applyHerd
  simp only []
  exact Steady.ite_then (Steady.ite_then .refl (steady_setPllMode h _)) (steady_dissolve h)

/-- A record of a herd whose path holds the same commands. -/
theorem Ready.setHerd (ready : Ready c s) {h : HerdId} {x : Herd} (path : pathCmds x.obs = pathCmds (getObs s h)) :
    Ready c (setHerd s h x) := by
  refine ⟨ready.runs, ready.waits, fun g => ?_⟩
  by_cases e : g = h
  · subst e
    rw [getObs, getHerd_setHerd_self, path]
    exact ready.paths g
  · rw [getObs, getHerd_setHerd_ne _ _ e]
    exact ready.paths g

theorem Ready.of_newCmd (runs : Runs s c) (new : NewCmd s c) : Ready c s := by
  obtain ⟨waits, paths, -, -⟩ := new
  refine ⟨runs, waits, fun h => ?_⟩
  obtain ⟨fade, stop⟩ := paths h
  simp only [pathCmds, List.mem_append, List.mem_map, not_or, not_exists, not_and]
  exact ⟨fade, stop⟩

theorem applySet_other {p q : PortId} (n : q ≠ p) (s : State) (set : Tab (BitVec 32)) (staged : List Nat)
    (count : Bool) : getPort (applySet s p set staged count) q = getPort s q := by
  unfold applySet
  simp only []
  split
  · rw [getPort_modPort_ne _ _ n, getPort_modPort_ne _ _ n]
  · rw [getPort_modPort_ne _ _ n]

/-- A port's record once a set is live on it, but for its lane. -/
theorem applySet_self (s : State) (p : PortId) (set : Tab (BitVec 32)) (staged : List Nat) (count : Bool) :
    ∃ lane wander, getPort (applySet s p set staged count) p = { getPort s p with
      live := set, cfgGen := if count then (getPort s p).cfgGen + 1 else (getPort s p).cfgGen, mustCommit := false
      wander := wander, lane := lane } := by
  unfold applySet
  simp only []
  split
  · exact ⟨_, _, by rw [getPort_modPort_self, getPort_modPort_self]⟩
  · exact ⟨_, _, by rw [getPort_modPort_self]⟩

theorem applySet_onlyIn (s : State) (p : PortId) (set : Tab (BitVec 32)) (staged : List Nat) (count : Bool) :
    OnlyIn [.ports] s (applySet s p set staged count) := onlyIn_of_pick (by simp)

end

/-! ### A port operation on each of a list -/

section
variable {α : Type} {f : State → α → State} {at_ : α → PortId}
  (other : ∀ s x q, q ≠ at_ x → getPort (f s x) q = getPort s q)
include other

theorem getPort_forEach_notMem (l : List α) (s : State) {q : PortId} (out : q ∉ l.map at_) :
    getPort (forEach l f s) q = getPort s q := by
  unfold forEach
  induction l generalizing s with
  | nil => rfl
  | cons x l ih =>
    rw [List.map_cons, List.mem_cons, not_or] at out
    rw [List.foldl_cons, ih _ out.2, other s x q out.1]

/-- Each of the ports once: a port's record is what the operation makes of the one it had at the start. -/
theorem getPort_forEach_mem {P : Port → Port → Prop} {x : α}
    (each : ∀ s, P (getPort s (at_ x)) (getPort (f s x) (at_ x))) (l : List α) (once : (l.map at_).Nodup) (m : x ∈ l)
    (s : State) : P (getPort s (at_ x)) (getPort (forEach l f s) (at_ x)) := by
  induction l generalizing s with
  | nil => exact absurd m List.not_mem_nil
  | cons y l ih =>
    rw [List.map_cons, List.nodup_cons] at once
    obtain rfl | m := List.mem_cons.mp m
    · have rest := getPort_forEach_notMem other l (f s x) once.1
      rw [forEach] at rest ⊢
      rw [List.foldl_cons, rest]
      exact each s
    · have apart : at_ x ≠ at_ y := fun e => once.1 (e ▸ List.mem_map_of_mem m)
      have rest := ih once.2 m (f s y)
      rw [other s y _ apart] at rest
      exact rest

end

theorem portOf_injective (h : HerdId) : Function.Injective (portOf h) := by
  intro i j e
  have := congrArg Fin.val e
  simp only [portOf] at this
  omega

theorem portsOf_nodup (h : HerdId) : (portsOf h).Nodup := (List.nodup_finRange 8).map (portOf_injective h)

theorem portOf_mem (h : HerdId) (k : Fin 8) : portOf h k ∈ portsOf h := List.mem_map_of_mem (List.mem_finRange k)

theorem portsOf_getElem? (h : HerdId) (k : Fin 8) : (portsOf h)[k.val]? = some (portOf h k) := by simp [portsOf]

theorem portOf_mem_zipIdx (h : HerdId) (k : Fin 8) : (portOf h k, k.val) ∈ (portsOf h).zipIdx := by
  rw [List.mem_zipIdx_iff_getElem?]
  exact portsOf_getElem? h k

theorem forEach_onlyIn {α : Type} {m : List Area} {f : State → α → State} (each : ∀ s x, OnlyIn m s (f s x))
    (l : List α) (s : State) : OnlyIn m s (forEach l f s) := by
  unfold forEach
  induction l generalizing s with
  | nil => exact fun a _ => by cases a <;> rfl
  | cons x l ih =>
    intro a out
    have first := each s x a out
    have rest := ih (f s x) a out
    cases a <;> exact rest.trans first

theorem modPort_onlyIn (s : State) (p : PortId) (f : Port → Port) : OnlyIn [.ports] s (modPort s p f) :=
  onlyIn_of_pick (by simp)

theorem getHerd_of_ports {s t : State} (frame : OnlyIn [.ports] s t) (h : HerdId) : getHerd t h = getHerd s h := by
  have herds : t.herds = s.herds := frame .herds (by simp)
  simp only [getHerd, herds]

theorem runs_of_ports {c : Cmd} {s t : State} (frame : OnlyIn [.ports] s t) (runs : Runs s c) : Runs t c := by
  have io : t.io = s.io := frame .io (by simp)
  rw [Runs, getRing, io]
  exact runs

theorem Ready.of_ports {c : Cmd} {s t : State} (ready : Ready c s) (frame : OnlyIn [.ports] s t) : Ready c t := by
  have waits : t.waits = s.waits := frame .waits (by simp)
  refine ⟨runs_of_ports frame ready.runs, waits ▸ ready.waits, fun h => ?_⟩
  rw [getObs, getHerd_of_ports frame]
  exact ready.paths h

/-! ### Completions -/

/-- A command that its ring still runs at the end of its effect is answered. -/
theorem answered_after {c : Cmd} {s u : State} (regs : u.regs = s.regs) (runs : Runs u c) (op : Nat)
    (l : List MirrorObj) (r : Nat) : Answered s (completeOk u op c l r) c op stOk (BitVec.ofNat 64 r) :=
  Answered.after regs (answered_completeOk runs op l r)

theorem herdSet_completeOk (s : State) (op : Nat) (c : Cmd) (l : List MirrorObj) (r : Nat) (h : HerdId) :
    herdSet (getHerd (completeOk s op c l r) h) = herdSet (getHerd s h) :=
  herdRest_herdSet (herdRest_complete s op c l stOk _ h)

/-- A command's completion takes it out of its own herd's queue alone. -/
theorem completeOk_herdsBut {c : Cmd} {h : HerdId} (target : targetOf c.target = some (.herd h)) (s : State) (op : Nat)
    (l : List MirrorObj) (r : Nat) : HerdsBut h s (completeOk s op c l r) := by
  intro g n
  have queue : getHerd (dequeue s c) g = getHerd s g := by
    simp only [dequeue, target, Option.bind_some, targetHerd]
    split
    · exact getHerd_modHerd_ne _ _ n
    · rfl
  simpa only [getHerd, completeOk, complete_herds] using queue

/-! ### Staging (R314, R317) -/

theorem stageAll_live (l : List (BitVec 16 × BitVec 32)) (x : Port) : (l.foldl stageOne x).live = x.live := by
  induction l generalizing x with
  | nil => rfl
  | cons e l ih => rw [List.foldl_cons, ih, stageOne]

section
variable {c : Cmd} {s : State}

theorem exec_portConfig {p : PortId} {count : BitVec 8} {entries : List (BitVec 16 × BitVec 32)}
    (turn : myTurn s c = true) (gate : portGate s p = none) (nonzero : count ≠ 0) (most : count.toNat ≤ 5)
    (listed : badEntry count.toNat entries = none) :
    exec (.portConfig c p count entries) s = .next (completeOk (modPort s p fun x =>
      ((List.range count.toNat).map fun i => entries.getD i (0, 0)).foldl stageOne x) 0x0101 c [.port p] 0) := by
  have known : ¬(count = 0#8 ∨ 5 < count.toNat) := by
    rintro (zero | many)
    · exact nonzero zero
    · omega
  simp [exec, execPortConfig, turn, gate, known, listed]

theorem exec_herdMode {h : HerdId} {modeSet : BitVec 8} (turn : myTurn s c = true) (gate : herdGate s h = none)
    (nonzero : modeSet ≠ 0) (most : modeSet.toNat ≤ 0x1F) :
    exec (.herdMode c h modeSet) s = .next (completeOk
      (modHerd s h fun x => { x with shModeSet := modeSet.setWidth 5, staged := true }) 0x0201 c [.herd h] 0) := by
  have known : ¬(modeSet = 0#8 ∨ 31 < modeSet.toNat) := by
    rintro (zero | high)
    · exact nonzero zero
    · omega
  simp [exec, execHerdMode, turn, gate, known]

theorem exec_herdTiming {h : HerdId} {policy : BitVec 8} (turn : myTurn s c = true) (gate : herdGate s h = none)
    (most : policy.toNat ≤ 1) :
    exec (.herdTiming c h policy) s = .next (completeOk
      (modHerd s h fun x => { x with shPolicy := policy == 1, staged := true }) 0x0202 c [.herd h] 0) := by
  simp [exec, execHerdTiming, turn, gate, most]

/-- What staging on a herd leaves: its own record is changed, no other's, and the command is answered. -/
theorem staged_herd {h : HerdId} (target : targetOf c.target = some (.herd h)) (runs : Runs s c) (f : Herd → Herd)
    (op : Nat) :
    herdRest (getHerd (completeOk (modHerd s h f) op c [.herd h] 0) h) = herdRest (f (getHerd s h)) ∧
      HerdsBut h s (completeOk (modHerd s h f) op c [.herd h] 0) ∧
      Answered s (completeOk (modHerd s h f) op c [.herd h] 0) c op stOk 0 := by
  refine ⟨?_, fun g n => ?_, answered_after (u := modHerd s h f) rfl runs op [.herd h] 0⟩
  · exact (herdRest_complete (modHerd s h f) op c [.herd h] stOk _ h).trans (by rw [getHerd_modHerd_self])
  · rw [completeOk_herdsBut target _ op _ 0 g n, getHerd_modHerd_ne _ _ n]

/-! ### Commits of a port (R335, R337, R338) -/

/-- A port whose shadow set goes live: its lane and its wander guard aside, the record is this. -/
theorem applyShadow_self (s : State) (p : PortId) (count : Bool) :
    ∃ lane wander, getPort (applyShadow s p count) p = { getPort s p with
      live := (getPort s p).shadow, cfgGen := if count then (getPort s p).cfgGen + 1 else (getPort s p).cfgGen
      mustCommit := false, wander := wander, lane := lane, staged := [] } := by
  obtain ⟨lane, wander, e⟩ := applySet_self s p (getPort s p).shadow (getPort s p).staged count
  exact ⟨lane, wander, by rw [applyShadow, getPort_modPort_self, e]⟩

theorem applyShadow_onlyIn (s : State) (p : PortId) (count : Bool) : OnlyIn [.ports] s (applyShadow s p count) :=
  onlyIn_of_pick (by simp)

theorem applyShadow_other {p q : PortId} (n : q ≠ p) (s : State) (count : Bool) :
    getPort (applyShadow s p count) q = getPort s q := by
  rw [applyShadow, getPort_modPort_ne _ _ n, applySet_other n]

theorem exec_portCommit_port {p : PortId} (turn : myTurn s c = true) (gate : portGate s p = none)
    (ok : firstBadParam (getPort s p).shadow (getHerd s (herdOf p)).modeSet ((getPort s p).lane.mode == .l25) = none) :
    exec (.portCommit c (.port p)) s = .next (completeOk (applyShadow s p (!(getPort s p).staged.isEmpty)) 0x0102 c
      [.port p] (getPort (applyShadow s p (!(getPort s p).staged.isEmpty)) p).cfgGen.toNat) := by
  simp [exec, execPortCommit, turn, gate, commitPort, ok]

theorem answered_portCommit {p : PortId} (runs : Runs s c) (count : Bool) (r : Nat) :
    Answered s (completeOk (applyShadow s p count) 0x0102 c [.port p] r) c 0x0102 stOk (BitVec.ofNat 64 r) := by
  have frame := applyShadow_onlyIn s p count
  exact answered_after (frame .regs (by simp)) (runs_of_ports frame runs) _ _ _

/-! ### Commits of a herd (R317, R335, R337 to R339) -/

/-- What a herd commit captures (R339). -/
def captureOf (s : State) (c : Cmd) (h : HerdId) : Commit :=
  { cmd := c, modeSet := (getHerd s h).shModeSet, policy := (getHerd s h).shPolicy
    sets := (portsOf h).map fun p => (getPort s p).shadow, staged := (portsOf h).map fun p => (getPort s p).staged }

/-- The state once a herd commit has captured what was staged. -/
def captured (s : State) (c : Cmd) (h : HerdId) : State :=
  forEach (portsOf h) (fun s p => modPort s p fun y => { y with staged := [] })
    (setHerd s h { getHerd s h with commit := some (captureOf s c h), staged := false })

theorem exec_portCommit_herd {h : HerdId} (turn : myTurn s c = true) (gate : herdGate s h = none) :
    exec (.portCommit c (.herd h)) s = .next (commitHerd s c h) := by
  simp [exec, execPortCommit, turn, gate]

theorem captured_frame (s : State) (c : Cmd) (h : HerdId) :
    OnlyIn [.ports] (setHerd s h { getHerd s h with commit := some (captureOf s c h), staged := false })
      (captured s c h) := forEach_onlyIn (fun _ _ => modPort_onlyIn _ _ _) _ _

theorem getHerd_captured (s : State) (c : Cmd) (h : HerdId) :
    getHerd (captured s c h) h = { getHerd s h with commit := some (captureOf s c h), staged := false } := by
  rw [getHerd_of_ports (captured_frame s c h), getHerd_setHerd_self]

theorem getDie_captured (s : State) (c : Cmd) (h : HerdId) (d : DieId) : getDie (captured s c h) d = getDie s d := by
  have dies : (captured s c h).dies = s.dies := captured_frame s c h .dies (by simp)
  simp only [getDie, dies]

theorem portSet_captured (s : State) (c : Cmd) (h : HerdId) (k : Fin 8) :
    portSet (getPort (captured s c h) (portOf h k)) = portSet (getPort s (portOf h k)) := by
  refine (getPort_forEach_mem (at_ := id) (P := fun x y => portSet y = portSet x) (x := portOf h k) ?_ (fun s => ?_)
    (portsOf h) ?_ (portOf_mem h k) _)
  · intro s x q n
    exact getPort_modPort_ne _ _ n
  · rw [id, getPort_modPort_self, portSet, portSet]
  · rw [List.map_id]
    exact portsOf_nodup h

theorem ready_captured {h : HerdId} (ready : Ready c s) : Ready c (captured s c h) := by
  refine Ready.of_ports ?_ (captured_frame s c h)
  exact ready.setHerd rfl

/-- What a commit with something staged does is a question of the level it needs (R26). -/
theorem commitHerd_staged {h : HerdId} (ok : badHerdParam s h = none) (staged : herdStaged s h = true) :
    commitHerd s c h =
      if runLevel (getDie s (dieOfHerd h)) ≤ herdNeed (getHerd (captured s c h) h) then
        herdApply (captured s c h) h (captureOf s c h)
      else retarget (captured s c h) (dieOfHerd h) := by
  rw [← getDie_captured s c h]
  simp only [commitHerd, ok, staged, Bool.not_true, Bool.false_eq_true, if_false]
  rfl

/-- The state once a herd's set and its ports' captured sets are live. -/
def setsLive (u : State) (h : HerdId) (k : Commit) : State :=
  forEach (portsOf h).zipIdx (fun s e => applySet s e.1 (k.sets.getD e.2 []) (k.staged.getD e.2 []) true)
    (applyHerd u h k.modeSet k.policy)

/-- The state in which a herd commit is completed: the path has stopped at a changed rate, ports have restarted, the
die heads for the level it needs. -/
def restarted (u : State) (h : HerdId) (k : Commit) : State :=
  retarget (herdRestarts (if adcRate (getHerd (setsLive u h k) h).pllMode = adcRate (getHerd u h).pllMode then
    setsLive u h k else obsModeChange (setsLive u h k) h) h (k.modeSet != (getHerd u h).modeSet)
    (k.policy != (getHerd u h).policy)) (dieOfHerd h)

theorem herdApply_eq (u : State) (h : HerdId) (k : Commit) : herdApply u h k =
    completeOk (restarted u h k) 0x0102 k.cmd (herdBlocks h) (getHerd (restarted u h k) h).cfgGen.toNat := rfl

theorem steady_restarted (u : State) (h : HerdId) (k : Commit) : Steady c (setsLive u h k) (restarted u h k) := by
  refine Steady.trans (Steady.trans ?_ (steady_herdRestarts h _ _)) (steady_retarget _)
  exact Steady.ite_else .refl (steady_obsModeChange h)

theorem setsLive_frame (u : State) (h : HerdId) (k : Commit) :
    OnlyIn [.ports] (applyHerd u h k.modeSet k.policy) (setsLive u h k) :=
  forEach_onlyIn (fun _ _ => applySet_onlyIn _ _ _ _ _) _ _

/-- The herd's set is live under the next CFG_GEN, nothing waits, and the command still runs. -/
theorem setsLive_herd {u : State} {h : HerdId} {k : Commit} (ready : Ready c u) : Ready c (setsLive u h k) ∧
    herdSet (getHerd (setsLive u h k) h) = (k.modeSet, k.policy, (getHerd u h).cfgGen + 1, none) := by
  obtain ⟨ready, same⟩ := steady_applyHerd h k.modeSet k.policy (ready.setHerd rfl)
  refine ⟨ready.of_ports (setsLive_frame u h k), ?_⟩
  rw [getHerd_of_ports (setsLive_frame u h k), same.herd, getHerd_setHerd_self, herdSet]

/-- Each port's captured set is live under its next CFG_GEN. -/
theorem setsLive_port {u : State} {h : HerdId} {k : Commit} (ready : Ready c u) (i : Fin 8) :
    portSet (getPort (setsLive u h k) (portOf h i)) = (k.sets.getD i.val [], (getPort u (portOf h i)).cfgGen + 1) := by
  obtain ⟨-, same⟩ := steady_applyHerd h k.modeSet k.policy (ready.setHerd rfl)
  have before := congrArg Prod.snd (same.port (portOf h i))
  have step := getPort_forEach_mem (at_ := Prod.fst) (x := (portOf h i, i.val))
    (P := fun x y => portSet y = (k.sets.getD i.val [], x.cfgGen + 1))
    (f := fun s e => applySet s e.1 (k.sets.getD e.2 []) (k.staged.getD e.2 []) true)
    (fun s e q n => applySet_other n s _ _ _)
    (fun s => by
      obtain ⟨lane, wander, e⟩ := applySet_self s (portOf h i) (k.sets.getD i.val []) (k.staged.getD i.val []) true
      rw [e, portSet, if_pos rfl])
    (portsOf h).zipIdx (by rw [List.zipIdx_map_fst]; exact portsOf_nodup h) (portOf_mem_zipIdx h i)
    (applyHerd u h k.modeSet k.policy)
  exact step.trans (Prod.ext rfl (congrArg (· + 1) before))

theorem regs_restarted (u : State) (h : HerdId) (k : Commit) : (restarted u h k).regs = u.regs :=
  regs_of_kept (by simp [restarted, setsLive])

/-- A herd commit that is applied: the herd's set and its eight ports' captured sets are live, each under its next
CFG_GEN, and the command is answered with the herd's. -/
theorem herdApply_live {u : State} {h : HerdId} {k : Commit} (ready : Ready k.cmd u) :
    herdSet (getHerd (herdApply u h k) h) = (k.modeSet, k.policy, (getHerd u h).cfgGen + 1, none) ∧
    (∀ i : Fin 8, portSet (getPort (herdApply u h k) (portOf h i)) =
      (k.sets.getD i.val [], (getPort u (portOf h i)).cfgGen + 1)) ∧
    Answered u (herdApply u h k) k.cmd 0x0102 stOk (BitVec.ofNat 64 ((getHerd u h).cfgGen + 1).toNat) := by
  obtain ⟨live, herd⟩ := setsLive_herd (h := h) (k := k) ready
  obtain ⟨last, same⟩ := steady_restarted u h k live
  have herd : herdSet (getHerd (restarted u h k) h) = (k.modeSet, k.policy, (getHerd u h).cfgGen + 1, none) :=
    (same.herd h).trans herd
  have gen : (getHerd (restarted u h k) h).cfgGen = (getHerd u h).cfgGen + 1 := congrArg (·.2.2.1) herd
  rw [herdApply_eq, gen]
  refine ⟨(herdSet_completeOk ..).trans herd, fun i => ?_, answered_after (regs_restarted u h k) last.runs _ _ _⟩
  rw [getPort_completeOk, same.port]
  exact setsLive_port ready i

/-! A change of level writes to the AVSBus and changes no ring. -/

theorem railTo_rings (s : State) (r : RailId) (mv : Nat) : (railTo s r mv).io.rings = s.io.rings := by
  unfold railTo forEach
  simp only [setRail_io]
  induction List.range _ using List.reverseRecOn with
  | nil => rfl
  | append_singleton l i ih => rw [List.foldl_append]; exact ih

theorem retarget_rings (s : State) (d : DieId) : (retarget s d).io.rings = s.io.rings := by
  unfold retarget
  simp only []
  split
  · rfl
  · split
    · rfl
    · exact railTo_rings _ _ _

theorem retarget_onlyIn (s : State) (d : DieId) : OnlyIn [.rails, .dies, .io] s (retarget s d) :=
  onlyIn_of_pick (by simp)

/-- A waiting commit leaves the herd's record but for what it has captured, while the die heads for its level. -/
theorem getHerd_waiting (s : State) (c : Cmd) (h : HerdId) :
    getHerd (retarget (captured s c h) (dieOfHerd h)) h =
      { getHerd s h with commit := some (captureOf s c h), staged := false } := by
  have herds : (retarget (captured s c h) (dieOfHerd h)).herds = (captured s c h).herds :=
    retarget_onlyIn _ _ .herds (by simp)
  rw [← getHerd_captured, getHerd, getHerd, herds]

theorem getRing_waiting (s : State) (c : Cmd) (h : HerdId) (r : RingId) :
    getRing (retarget (captured s c h) (dieOfHerd h)) r = getRing s r := by
  have io : (captured s c h).io = s.io := captured_frame s c h .io (by simp)
  rw [getRing, retarget_rings, io, getRing]

/-- A herd's ports once R434's hold has ended. -/
def unheld (s : State) (h : HerdId) : State :=
  forEach (portsOf h) (fun s p => modPort s p fun y => { y with mustCommit := false }) s

theorem unheld_frame (s : State) (h : HerdId) : OnlyIn [.ports] s (unheld s h) :=
  forEach_onlyIn (fun _ _ => modPort_onlyIn _ _ _) _ _

theorem unheld_mustCommit (s : State) (h : HerdId) (k : Fin 8) :
    (getPort (unheld s h) (portOf h k)).mustCommit = false :=
  getPort_forEach_mem (at_ := id) (P := fun _ y => y.mustCommit = false) (x := portOf h k)
    (fun s x q n => getPort_modPort_ne _ _ n) (fun s => by rw [id, getPort_modPort_self]) (portsOf h)
    (by rw [List.map_id]; exact portsOf_nodup h) (portOf_mem h k) s

/-- A commit of a set that needs a faster level than its die runs waits (R26, R417). -/
theorem herdNeed_captured {h : HerdId} (new : (getHerd s h).shModeSet ≠ (getHerd s h).modeSet) :
    herdNeed (getHerd (captured s c h) h) ≤ setLevel (getHerd s h).shModeSet := by
  rw [getHerd_captured]
  simp only [herdNeed, captureOf, beq_eq_false_iff_ne.mpr new, Bool.false_eq_true, if_false]
  exact Nat.min_le_right _ _

end

section
variable {c : Cmd} {s : State} {h : HerdId} (turn : myTurn s c = true) (gate : herdGate s h = none)
  (ok : badHerdParam s h = none)
include turn gate ok

/-- A herd commit on a die at P0 is applied: no level is faster. -/
theorem exec_herdCommit_fast (staged : herdStaged s h = true) (level : runLevel (getDie s (dieOfHerd h)) = 0) :
    exec (.portCommit c (.herd h)) s = .next (herdApply (captured s c h) h (captureOf s c h)) := by
  have fast : runLevel (getDie s (dieOfHerd h)) ≤ herdNeed (getHerd (captured s c h) h) := level ▸ Nat.zero_le _
  rw [exec_portCommit_herd turn gate, commitHerd_staged ok staged, if_pos fast]

/-- A herd commit of a set that needs a faster level waits while the die heads for it (R26). -/
theorem exec_herdCommit_slow (new : (getHerd s h).shModeSet ≠ (getHerd s h).modeSet)
    (staged : (getHerd s h).staged = true)
    (level : setLevel (getHerd s h).shModeSet < runLevel (getDie s (dieOfHerd h))) :
    exec (.portCommit c (.herd h)) s = .next (retarget (captured s c h) (dieOfHerd h)) := by
  have any : herdStaged s h = true := by rw [herdStaged, staged, Bool.true_or]
  have slow : ¬runLevel (getDie s (dieOfHerd h)) ≤ herdNeed (getHerd (captured s c h) h) := by
    have need := herdNeed_captured (c := c) new
    omega
  rw [exec_portCommit_herd turn gate, commitHerd_staged ok any, if_neg slow]

/-- A herd commit with nothing staged ends R434's hold alone (R338). -/
theorem exec_herdCommit_nothing (staged : herdStaged s h = false) :
    exec (.portCommit c (.herd h)) s = .next (completeOk (unheld s h) 0x0102 c [] (getHerd s h).cfgGen.toNat) := by
  rw [exec_portCommit_herd turn gate]
  simp only [commitHerd, ok, staged, Bool.not_false, if_true]
  rfl

end

/-- Settles O24: `exec_…` says for each row which completed state it leads to, `completeOk` answers the command, and of
a herd commit `herdApply_live` says what has become live once path, ports and die have followed. -/
theorem stagingAndCommits : Obligations.StagingAndCommits := by
  unfold Obligations.StagingAndCommits
  refine ⟨?config, ?entry, ?mode, ?timing, ?port, ?portNothing, ?herdNow, ?herdWaits, ?herdNothing⟩
  case config =>
    intro c p count entries s runs turn gate nonzero most listed
    refine ⟨_, exec_portConfig turn gate nonzero most listed, ?_, ?_, fun q n => ?_,
      answered_after (u := modPort s p _) rfl runs _ _ 0⟩
    · rw [getPort_completeOk, getPort_modPort_self]
    · rw [getPort_completeOk, getPort_modPort_self, stageAll_live]
    · rw [getPort_completeOk, getPort_modPort_ne _ _ n]
  case entry =>
    intro c p id val s runs turn gate listed
    have known : badEntry (1 : BitVec 8).toNat [(id, val)] = none := by simpa [badEntry] using listed
    refine ⟨_, exec_portConfig turn gate (by decide) (by decide) known, ?_⟩
    rw [getPort_completeOk, getPort_modPort_self]
    refine ⟨tabGet_tabSet_self _ _ _ _, rfl, ?_, fun k n => tabGet_tabSet_ne _ _ _ n, fun q n => ?_,
      answered_after (u := modPort s p _) rfl runs _ _ 0⟩
    · show id.toNat ∈ (stageOne (getPort s p) (id, val)).staged
      simp only [stageOne]
      split
      · rename_i there
        exact List.contains_iff_mem.mp there
      · exact List.mem_append_right _ List.mem_cons_self
    · rw [getPort_completeOk, getPort_modPort_ne _ _ n]
  case mode =>
    intro c h modeSet s target runs turn gate nonzero most
    obtain ⟨self, others, answered⟩ := staged_herd target runs
      (fun x => { x with shModeSet := modeSet.setWidth 5, staged := true }) 0x0201
    exact ⟨_, exec_herdMode turn gate nonzero most, congrArg (·.shModeSet) self, congrArg (·.modeSet) self,
      congrArg (·.staged) self, others, answered⟩
  case timing =>
    intro c h policy s target runs turn gate most
    obtain ⟨self, others, answered⟩ := staged_herd target runs
      (fun x => { x with shPolicy := policy == 1, staged := true }) 0x0202
    exact ⟨_, exec_herdTiming turn gate most, congrArg (·.shPolicy) self, congrArg (·.policy) self,
      congrArg (·.staged) self, others, answered⟩
  case port =>
    intro c p s runs turn gate ok staged
    have any : (!(getPort s p).staged.isEmpty) = true := by simpa using staged
    obtain ⟨lane, wander, self⟩ := applyShadow_self s p true
    refine ⟨_, exec_portCommit_port turn gate ok, ?_⟩
    rw [any, getPort_completeOk, self]
    refine ⟨rfl, rfl, rfl, rfl, fun q n => ?_, answered_portCommit runs true _⟩
    rw [getPort_completeOk, applyShadow_other n]
  case portNothing =>
    intro c p s runs turn gate ok staged
    have empty : (!(getPort s p).staged.isEmpty) = false := by simpa using staged
    obtain ⟨lane, wander, self⟩ := applyShadow_self s p false
    refine ⟨_, exec_portCommit_port turn gate ok, ?_⟩
    rw [empty, getPort_completeOk, self]
    exact ⟨rfl, rfl, answered_portCommit runs false _⟩
  case herdNow =>
    intro c h s runs new turn gate ok staged level
    have ready := ready_captured (h := h) (Ready.of_newCmd runs new)
    obtain ⟨herd, ports, answered⟩ := herdApply_live (h := h) (k := captureOf s c h) ready
    have gen : (getHerd (captured s c h) h).cfgGen = (getHerd s h).cfgGen := by rw [getHerd_captured]
    rw [gen] at herd answered
    refine ⟨_, exec_herdCommit_fast turn gate ok staged level, congrArg (·.1) herd, congrArg (·.2.1) herd,
      congrArg (·.2.2.1) herd, congrArg (·.2.2.2) herd, fun k => ?_, fun k => ?_, Answered.after ?_ answered⟩
    · refine (congrArg (·.1) (ports k)).trans ?_
      simp [captureOf, portsOf_getElem? h k]
    · refine (congrArg (·.2) (ports k)).trans ?_
      exact congrArg (· + 1) (congrArg (·.2) (portSet_captured s c h k))
    · exact captured_frame s c h .regs (by simp)
  case herdWaits =>
    intro c h s turn gate ok new staged level
    refine ⟨_, exec_herdCommit_slow turn gate ok new staged level, ?_⟩
    rw [getHerd_waiting]
    exact ⟨rfl, rfl, rfl, rfl, getRing_waiting s c h c.ring⟩
  case herdNothing =>
    intro c h s runs turn gate ok staged
    refine ⟨_, exec_herdCommit_nothing turn gate ok staged, ?_, fun k => ?_,
      answered_after (unheld_frame s h .regs (by simp)) (runs_of_ports (unheld_frame s h) runs) _ _ _⟩
    · rw [completeOk_herd_cfgGen, getHerd_of_ports (unheld_frame s h)]
    · rw [getPort_completeOk, unheld_mustCommit]

end Sys2Proof.Proofs
end

section
/-!
PROOFS of the family 02_usrubry_line_format: herd timing (O44), aborts of a start (O38), locks and losses in training
(O40), InfoField messages (O39), line slots (O41).
-/

namespace Sys2Proof.Proofs

open Sys2Proof.Machine Sys2Proof.Safety

/-! ### Frames and lists -/

theorem onlyIn_mono {m n : List Area} {s t : State} (frame : OnlyIn m s t) (sub : m ⊆ n) : OnlyIn n s t :=
  fun a out => frame a fun c => out (sub c)

/-- What no step over a list changes, none of the list's steps in a row change. -/
theorem forEach_keeps {α β : Type} {f : State → α → State} (g : State → β) (each : ∀ s x, g (f s x) = g s)
    (l : List α) (s : State) : g (forEach l f s) = g s := by
  unfold forEach
  induction l generalizing s with
  | nil => rfl
  | cons x l ih => rw [List.foldl_cons, ih, each]

theorem getPort_of_herds {s t : State} (frame : OnlyIn [.herds] s t) (p : PortId) : getPort t p = getPort s p := by
  have ports : t.ports = s.ports := frame .ports (by simp)
  simp only [getPort, ports]

theorem setHerd_onlyIn (s : State) (h : HerdId) (x : Herd) : OnlyIn [.herds] s (setHerd s h x) :=
  onlyIn_of_pick (by simp)

/-! ### Herd timing (R54 to R56) -/

/-- A herd's record is written, and ports follow. -/
theorem setHerd_then_ports {s t : State} {h : HerdId} {y : Herd} (frame : OnlyIn [.ports] (setHerd s h y) t) :
    getHerd t h = y ∧ HerdsBut h s t ∧ OnlyIn [.ports, .herds] s t := by
  refine ⟨?_, fun g n => ?_, ?_⟩
  · rw [getHerd_of_ports frame, getHerd_setHerd_self]
  · rw [getHerd_of_ports frame, getHerd_setHerd_ne _ _ n]
  · exact onlyIn_mono (onlyIn_trans (setHerd_onlyIn s h y) frame) (by simp)

theorem tellTiming_onlyIn (s : State) (h : HerdId) : OnlyIn [.ports] s (tellTiming s h) := onlyIn_of_pick (by simp)

theorem repath_onlyIn (s : State) (h : HerdId) : OnlyIn [.ports] s (repath s h) := onlyIn_of_pick (by simp)

/-- A new path of its bundle slots leaves a port's role. -/
theorem repath_role (s : State) (h : HerdId) (p : PortId) : (getPort (repath s h) p).role = (getPort s p).role := by
  refine forEach_keeps (fun t => (getPort t p).role) (fun t q => ?_) _ s
  by_cases e : p = q
  · subst e
    simp only [repathPort, getPort_modPort_self]
  · simp only [repathPort, getPort_modPort_ne _ _ e]

section
variable {s : State} {h : HerdId}

/-- A trunk's slave, in service or in a handover already, begins one (R55, R56). -/
theorem handoverStart_slave (slave : (getHerd s h).timing = .trunkSlave ∨ (getHerd s h).timing = .handover) :
    handoverStart s h = setHerd s h { getHerd s h with timing := .handover } := by
  have timing : ((getHerd s h).timing == .trunkSlave || (getHerd s h).timing == .handover) = true := by
    simpa using slave
  simp only [handoverStart, modHerd, timing, if_true]

theorem exec_handoverDone_lead {k : Fin 8} (timing : (getHerd s h).timing = .handover) (lead : nextLead s h = some k)
    (runs : herdsRun s = true) : exec (.handoverDone h) s = .next (tellTiming (setHerd s h { getHerd s h with
      timing := .trunkSlave, lead := some k
      handovers := if (getHerd s h).lead == some k then (getHerd s h).handovers else (getHerd s h).handovers + 1 })
      h) := by
  simp [exec, execHandoverDone, timing, lead, runs]

theorem exec_handoverDone_alone (timing : (getHerd s h).timing = .handover) (lead : nextLead s h = none)
    (runs : herdsRun s = true) : exec (.handoverDone h) s =
      .next (repath (setHerd s h { getHerd s h with timing := .holdover, lead := none }) h) := by
  simp [exec, execHandoverDone, timing, lead, runs]

theorem exec_holdoverTimeout (timing : (getHerd s h).timing = .holdover) (runs : herdsRun s = true) :
    exec (.holdoverTimeout h) s = .next (formTrunk (dissolve s h) h) := by
  simp [exec, execHoldoverTimeout, timing, runs]

theorem dissolve_herds (s : State) (h : HerdId) :
    getHerd (dissolve s h) h = { getHerd s h with timing := .perPort, lead := none, trunk := none } ∧
      HerdsBut h s (dissolve s h) ∧ OnlyIn [.ports, .herds] s (dissolve s h) :=
  setHerd_then_ports (repath_onlyIn _ h)

theorem dissolve_role (s : State) (h : HerdId) (p : PortId) : (getPort (dissolve s h) p).role = (getPort s p).role :=
  repath_role _ h p

theorem formTrunk_not (forms : trunkForms s h = false) : formTrunk s h = s := by simp [formTrunk, forms]

theorem formTrunk_master (forms : trunkForms s h = true) (timing : (getHerd s h).timing = .perPort)
    (role : (getPort s (portOf h 0)).role = some .master) : formTrunk s h = tellTiming (setHerd s h { getHerd s h with
      timing := .trunkMaster, trunk := some (partnerHerd (getPort s (portOf h 0)), .master) }) h := by
  simp [formTrunk, forms, timing, role]

end

/-- Settles O44: each row writes the herd's record (`exec_…`), and only ports follow it (`setHerd_then_ports`). -/
theorem herdTimingRows : Obligations.HerdTimingRows := by
  unfold Obligations.HerdTimingRows
  refine ⟨?trigger, ?lead, ?alone, ?dissolves, ?forms⟩
  case trigger =>
    intro h s slave runs
    have answer : exec (.handoverTrigger h) s = .next (handoverStart s h) := by
      simp [exec, execHandoverTrigger, runs]
    rw [handoverStart_slave slave] at answer
    exact ⟨_, answer, getHerd_setHerd_self _ _ _, fun g n => getHerd_setHerd_ne _ _ n, setHerd_onlyIn _ _ _⟩
  case lead =>
    intro h k s timing lead runs
    obtain ⟨self, others, frame⟩ := setHerd_then_ports (tellTiming_onlyIn (setHerd s h { getHerd s h with
      timing := .trunkSlave, lead := some k
      handovers := if (getHerd s h).lead == some k then (getHerd s h).handovers else (getHerd s h).handovers + 1 }) h)
    refine ⟨_, exec_handoverDone_lead timing lead runs, congrArg (·.timing) self, congrArg (·.lead) self, ?_, others,
      frame⟩
    simpa using congrArg (·.handovers) self
  case alone =>
    intro h s timing lead runs
    obtain ⟨self, others, frame⟩ := setHerd_then_ports (repath_onlyIn
      (setHerd s h { getHerd s h with timing := .holdover, lead := none }) h)
    exact ⟨_, exec_handoverDone_alone timing lead runs, congrArg (·.timing) self, congrArg (·.lead) self,
      congrArg (·.trunk) self, others, frame⟩
  case dissolves =>
    intro h s timing runs forms
    have answer := exec_holdoverTimeout timing runs
    rw [formTrunk_not forms] at answer
    exact ⟨_, answer, dissolve_herds s h⟩
  case forms =>
    intro h s timing runs forms role
    obtain ⟨self, others, -⟩ := dissolve_herds s h
    have answer := exec_holdoverTimeout timing runs
    rw [formTrunk_master forms (congrArg (·.timing) self) ((dissolve_role s h _).trans role)] at answer
    obtain ⟨formed, beside, -⟩ := setHerd_then_ports (tellTiming_onlyIn (setHerd (dissolve s h) h
      { getHerd (dissolve s h) h with timing := .trunkMaster
                                      trunk := some (partnerHerd (getPort (dissolve s h) (portOf h 0)), .master) }) h)
    exact ⟨_, answer, congrArg (·.timing) formed, fun g n => (beside g n).trans (others g n)⟩

/-! ### Generations (R297) -/

theorem genOf_bumpGen_self (s : State) (src : Nat) : genOf (bumpGen s src) src = genOf s src + 1 := by
  simp only [genOf, bumpGen, tabGet_tabSet_self]

theorem genOf_bumpGen_ne (s : State) {src k : Nat} (n : k ≠ src) : genOf (bumpGen s src) k = genOf s k := by
  simp only [genOf, bumpGen, tabGet_tabSet_ne _ _ _ n]

theorem genOf_of_gens {s t : State} (h : t.io.gens = s.io.gens) (k : Nat) : genOf t k = genOf s k := by
  rw [genOf, genOf, h]

theorem markLost_gens (s : State) (old new : EvBuf) : (markLost s old new).io.gens = s.io.gens := by
  refine forEach_keeps (fun t => t.io.gens) (fun t e => ?_) _ s
  split <;> rfl

theorem pushGlobal_gens (s : State) (e : Event) : (pushGlobal s e).io.gens = s.io.gens := by
  unfold pushGlobal
  split
  · rfl
  · exact markLost_gens _ _ _

theorem genOf_postGlobal_ne (s : State) (g : Nat) (l : List Fld) {k : Nat} (n : k ≠ globalSrc g) :
    genOf (postGlobal s g l) k = genOf s k :=
  (genOf_of_gens (pushGlobal_gens _ _) k).trans (genOf_bumpGen_ne s n)

/-- A port's record in its herd's buffer is an occurrence of no other port source; a collapse is one of a global
source (R31). -/
theorem genOf_pushPort (s : State) (p : PortId) (e : Event) {k : Nat} (port : k < 8192) :
    genOf (pushPort s p e) k = genOf s k := by
  have apart : k ≠ globalSrc 35 := by
    unfold globalSrc
    omega
  unfold pushPort
  simp only []
  split
  · rfl
  · split
    · exact (genOf_postGlobal_ne _ _ _ apart).trans (genOf_of_gens (markLost_gens _ _ _) k)
    · exact genOf_of_gens (markLost_gens _ _ _) k

theorem posted_postPort (s : State) (p : PortId) {n : Nat} (source : n < 16) (l : List Fld) :
    Posted s (postPort s p n l) (portSrc p n) 1 := by
  have port : portSrc p n < 8192 := by
    unfold portSrc
    omega
  exact (genOf_pushPort _ p _ port).trans (genOf_bumpGen_self s _)

/-! ### What touches one port and posts nothing -/

/-- Every other port reads as before, and no event source has had an occurrence. -/
structure Silent (p : PortId) (s t : State) : Prop where
  others : PortsBut p s t
  gens   : t.io.gens = s.io.gens

section
variable {p : PortId} {s t u : State}

theorem Silent.trans (h : Silent p s t) (k : Silent p t u) : Silent p s u :=
  ⟨fun q n => (k.others q n).trans (h.others q n), k.gens.trans h.gens⟩

theorem Silent.posted (h : Silent p s t) {src n : Nat} (k : Posted t u src n) : Posted s u src n := by
  rw [Posted, k, genOf_of_gens h.gens]

theorem Silent.after (k : Silent p t u) {src n : Nat} (h : Posted s t src n) : Posted s u src n :=
  (genOf_of_gens k.gens src).trans h

theorem silent_setPort (s : State) (p : PortId) (x : Port) : Silent p s (setPort s p x) :=
  ⟨fun _ n => getPort_setPort_ne _ _ n, rfl⟩

theorem silent_modPort (s : State) (p : PortId) (f : Port → Port) : Silent p s (modPort s p f) := silent_setPort _ _ _

end

theorem portsBut_of_eq {s t : State} (p : PortId) (ports : t.ports = s.ports) : PortsBut p s t :=
  fun q _ => by simp only [getPort, ports]

theorem railTo_gens (s : State) (r : RailId) (mv : Nat) : (railTo s r mv).io.gens = s.io.gens := by
  simp only [railTo, setRail_io]
  refine forEach_keeps (fun t => t.io.gens) (fun _ _ => ?_) _ s
  rfl

theorem retarget_gens (s : State) (d : DieId) : (retarget s d).io.gens = s.io.gens := by
  unfold retarget
  simp only []
  split
  · rfl
  · split
    · rfl
    · exact railTo_gens _ _ _

theorem releaseMode_ports (s : State) (h : HerdId) (reaction : Bool) : (releaseMode s h reaction).ports = s.ports :=
  onlyIn_of_pick (m := [.rails, .dies, .herds, .io]) (by simp) .ports (by simp)

theorem getPort_releaseMode (s : State) (h : HerdId) (reaction : Bool) (q : PortId) :
    getPort (releaseMode s h reaction) q = getPort s q := by rw [getPort, releaseMode_ports, getPort]

theorem releaseMode_gens (s : State) (h : HerdId) (reaction : Bool) :
    (releaseMode s h reaction).io.gens = s.io.gens := by
  unfold releaseMode
  simp only []
  split
  · split
    · rfl
    · exact retarget_gens _ _
  · rfl

/-- A port in another state: the time of the move, its lane and what it has seen of a partner aside, its record. -/
theorem setSt_self (s : State) (p : PortId) (st : PortSt) : ∃ time lane seen, getPort (setSt s p st) p =
    { getPort s p with st := st, stTime := time, lane := lane, partnerSeen := seen } := by
  have self (x : Port) (c : Prop) [Decidable c] (f : Herd → Herd) :
      getPort (if c then setPort s p x else modHerd (setPort s p x) (herdOf p) f) p = x := by
    split <;> simp
  exact ⟨_, _, _, (getPort_releaseMode _ _ _ _).trans (self _ _ _)⟩

theorem silent_setSt (s : State) (p : PortId) (st : PortSt) : Silent p s (setSt s p st) := by
  unfold setSt
  simp only []
  split
  · exact (silent_setPort s p _).trans ⟨portsBut_of_eq p (releaseMode_ports _ _ _), releaseMode_gens _ _ _⟩
  · exact (silent_setPort s p _).trans ⟨portsBut_of_eq p (releaseMode_ports _ _ _), releaseMode_gens _ _ _⟩

theorem silent_draw (s : State) (p : PortId) : Silent p s (draw s).2 := ⟨fun q _ => getPort_draw s q, rfl⟩

theorem silent_newAttempt (s : State) (p : PortId) : Silent p s (newAttempt s p) := by
  unfold newAttempt
  exact ((silent_draw s p).trans (silent_setSt _ p .negotiate)).trans (silent_modPort _ p _)

/-- A new attempt is open, and counts on (R101, R129). -/
theorem newAttempt_self (s : State) (p : PortId) : (getPort (newAttempt s p) p).st = .negotiate ∧
    (getPort (newAttempt s p) p).neg.open_ = true ∧
    (getPort (newAttempt s p) p).lastAbort = (getPort s p).lastAbort ∧
    (getPort (newAttempt s p) p).attempts = (getPort s p).attempts := by
  obtain ⟨time, lane, seen, moved⟩ := setSt_self (draw s).2 p .negotiate
  simp [newAttempt, drawNeg, moved, lineQuiet]

/-! ### Aborts (R128 to R130) -/

section
variable (s : State) (p : PortId) (cause : Nat) (at_ : PortSt) (attempt : Nat) (entered : PortSt)

theorem postAbort_self : getPort (postAbort s p cause at_ attempt entered) p =
    { getPort s p with lastAbort := BitVec.ofNat 8 cause } := by
  rw [postAbort, getPort_postPort, getPort_modPort_self]

theorem postAbort_others : PortsBut p s (postAbort s p cause at_ attempt entered) := by
  intro q n
  rw [postAbort, getPort_postPort, getPort_modPort_ne _ _ n]

theorem posted_postAbort : Posted s (postAbort s p cause at_ attempt entered) (portSrc p 2) 1 :=
  (silent_modPort s p _).posted (posted_postPort _ p (by decide) _)

end

section
variable {s : State} {p : PortId}

theorem countAttempt_self (s : State) (p : PortId) : getPort (countAttempt s p true) p =
    { getPort s p with attempts := (getPort s p).attempts + 1, partnerPage := true } := by
  rw [countAttempt, getPort_modPort_self, Bool.or_true]

/-- An attempt that is counted leaves others while NEG_ATTEMPTS is 0 or more than the count (R130). -/
theorem exhausted_countAttempt
    (left : attPar (getPort s p) 0x01 = 0 ∨ (getPort s p).attempts + 1 < attPar (getPort s p) 0x01) :
    exhausted (getPort (countAttempt s p true) p) = false := by
  have limit : attPar (getPort (countAttempt s p true) p) 0x01 = attPar (getPort s p) 0x01 := by
    rw [countAttempt_self]
    rfl
  have count : (getPort (countAttempt s p true) p).attempts = (getPort s p).attempts + 1 := by
    rw [countAttempt_self]
  simp only [exhausted, limit, count, Bool.and_eq_false_iff, decide_eq_false_iff_not]
  omega

/-- A counted abort up to its event (R128, R129). -/
def abortCounted (s : State) (p : PortId) (cause : Nat) : State :=
  postAbort (countAttempt s p true) p cause (getPort s p).st ((getPort s p).attempts + 1) .negotiate

theorem countedFail_again (cause : Nat)
    (left : attPar (getPort s p) 0x01 = 0 ∨ (getPort s p).attempts + 1 < attPar (getPort s p) 0x01) :
    countedFail s p (some cause) true = newAttempt (abortCounted s p cause) p := by
  simp only [countedFail, exhausted_countAttempt left, Bool.false_eq_true, if_false, abortCounted]

theorem abortCounted_self (s : State) (p : PortId) (cause : Nat) : getPort (abortCounted s p cause) p =
    { getPort s p with attempts := (getPort s p).attempts + 1, partnerPage := true
                       lastAbort := BitVec.ofNat 8 cause } := by
  rw [abortCounted, postAbort_self, countAttempt_self]

/-- An abort that counts, while attempts are left: its event, and a new attempt (R128, R129). -/
theorem countedFail_restarts (cause : Nat)
    (left : attPar (getPort s p) 0x01 = 0 ∨ (getPort s p).attempts + 1 < attPar (getPort s p) 0x01) :
    (getPort (countedFail s p (some cause) true) p).st = .negotiate ∧
    (getPort (countedFail s p (some cause) true) p).lastAbort = BitVec.ofNat 8 cause ∧
    (getPort (countedFail s p (some cause) true) p).attempts = (getPort s p).attempts + 1 ∧
    (getPort (countedFail s p (some cause) true) p).neg.open_ = true ∧
    Posted s (countedFail s p (some cause) true) (portSrc p 2) 1 ∧
    PortsBut p s (countedFail s p (some cause) true) := by
  rw [countedFail_again cause left]
  have first : Silent p s (countAttempt s p true) := silent_modPort s p _
  have last : Silent p (abortCounted s p cause) (newAttempt (abortCounted s p cause) p) := silent_newAttempt _ p
  obtain ⟨st, neg, abort, attempts⟩ := newAttempt_self (abortCounted s p cause) p
  rw [abortCounted_self] at abort attempts
  refine ⟨st, abort, attempts, neg, last.after (first.posted (posted_postAbort _ p _ _ _ _)), fun q n => ?_⟩
  rw [last.others q n, abortCounted, postAbort_others _ p _ _ _ _ q n, first.others q n]

end

section
variable {s : State} {p : PortId} (runs : herdsRun s = true)
include runs

theorem exec_markerLockChange_skew {errs skews : List Nat} (st : (getPort s p).st = .t0)
    (frame : (quadList (getPort s p).lock.frame).all id = true) (found : markerFound errs = true)
    (skew : (skews.take 4).any (fun k => decide (64 < k)) = true) :
    exec (.markerLockChange p errs skews) s = .next (countedFail s p (some 0x08) true) := by
  simp only [exec, execMarkerLockChange, runs, frame, found, st, skew, beq_self_eq_true, Bool.and_self, if_true,
    Bool.not_true, Bool.false_eq_true, if_false]

theorem exec_t0DetectTimeout (st : (getPort s p).st = .t0) :
    exec (.t0DetectTimeout p) s = .next (countedFail s p (some 0x07) true) := by
  simp [exec, execT0DetectTimeout, runs, st]

theorem exec_t2ConvergenceTimeout (st : (getPort s p).st = .t2) :
    exec (.t2ConvergenceTimeout p) s = .next (countedFail s p (some 0x09) true) := by
  simp [exec, execT2ConvergenceTimeout, runs, st]

theorem exec_t3CapsTimeout (st : (getPort s p).st = .t3) :
    exec (.t3CapsTimeout p) s = .next (countedFail s p (some 0x0A) true) := by
  simp [exec, execT3CapsTimeout, runs, st]

end

/-- Settles O38: each row is an abort that counts, with its own cause (`exec_…`), and `countedFail_restarts` says what one
leaves while attempts are left. -/
theorem tahrAborts : Obligations.TahrAborts := by
  unfold Obligations.TahrAborts
  refine ⟨?skew, ?detect, ?convergence, ?caps⟩
  case skew =>
    intro p errs skews s st runs frame found skew left
    exact ⟨_, exec_markerLockChange_skew runs st frame found skew, countedFail_restarts 0x08 left⟩
  case detect =>
    intro p s st runs left
    exact ⟨_, exec_t0DetectTimeout runs st, countedFail_restarts 0x07 left⟩
  case convergence =>
    intro p s st runs left
    exact ⟨_, exec_t2ConvergenceTimeout runs st, countedFail_restarts 0x09 left⟩
  case caps =>
    intro p s st runs left
    exact ⟨_, exec_t3CapsTimeout runs st, countedFail_restarts 0x0A left⟩

/-! ### Loss of the lead (R55) -/

theorem leadLoss_onlyIn (s : State) (p : PortId) (gained : Bool) : OnlyIn [.herds] s (leadLoss s p gained) :=
  onlyIn_of_pick (by simp)

theorem getPort_leadLoss (s : State) (p : PortId) (gained : Bool) (q : PortId) :
    getPort (leadLoss s p gained) q = getPort s q := getPort_of_herds (leadLoss_onlyIn s p gained) q

/-! ### What leaves locks and port state as they are -/

/-- A step on a port leaves its locks, its state and every other port. -/
structure KeepsLock (p : PortId) (s t : State) : Prop where
  lock   : (getPort t p).lock = (getPort s p).lock
  st     : (getPort t p).st = (getPort s p).st
  others : PortsBut p s t

section
variable {p : PortId} {s t u : State}

theorem KeepsLock.refl : KeepsLock p s s := ⟨rfl, rfl, fun _ _ => rfl⟩

theorem KeepsLock.trans (h : KeepsLock p s t) (k : KeepsLock p t u) : KeepsLock p s u :=
  ⟨k.lock.trans h.lock, k.st.trans h.st, fun q n => (k.others q n).trans (h.others q n)⟩

theorem keepsLock_of_ports (ports : t.ports = s.ports) : KeepsLock p s t := by
  have same (q : PortId) : getPort t q = getPort s q := by simp only [getPort, ports]
  exact ⟨by rw [same], by rw [same], fun q _ => same q⟩

theorem keepsLock_setPort {x : Port} (lock : x.lock = (getPort s p).lock) (st : x.st = (getPort s p).st) :
    KeepsLock p s (setPort s p x) :=
  ⟨by rw [getPort_setPort_self, lock], by rw [getPort_setPort_self, st], fun _ n => getPort_setPort_ne _ _ n⟩

theorem keepsLock_leadLoss (gained : Bool) : KeepsLock p s (leadLoss s p gained) :=
  keepsLock_of_ports (leadLoss_onlyIn s p gained .ports (by simp))

end

@[simp] theorem statAdd_lock (x : Port) (off n : Nat) : (statAdd x off n).lock = x.lock := rfl
@[simp] theorem statAdd_st (x : Port) (off n : Nat) : (statAdd x off n).st = x.st := rfl

@[simp] theorem quietClose_lock (s : State) (x : Port) : (quietClose s x).lock = x.lock := by
  unfold quietClose
  split <;> rfl

@[simp] theorem quietClose_st (s : State) (x : Port) : (quietClose s x).st = x.st := by
  unfold quietClose
  split <;> rfl

theorem keepsLock_refreshNow (s : State) (p : PortId) (due : Bool) :
    KeepsLock p s (setPort s p (refreshNow s (getPort s p) due)) :=
  keepsLock_setPort (quietClose_lock _ _) (quietClose_st _ _)

theorem countLimited_ports (s : State) (src kind : Nat) : (countLimited s src kind).ports = s.ports :=
  onlyIn_of_pick (m := [.io]) (by simp) .ports (by simp)

theorem keepsLock_enterWake (s : State) (p : PortId) (cause : Nat) : KeepsLock p s (enterWake s p cause) := by
  unfold enterWake
  simp only []
  split
  · refine KeepsLock.trans ?_ (keepsLock_of_ports (postLimited_ports _ _ _ _ _ _))
    exact keepsLock_setPort (by simp) (by simp)
  · refine KeepsLock.trans ?_ (keepsLock_of_ports (countLimited_ports _ _ _))
    exact keepsLock_setPort (by simp) (by simp)

/-- What signal detect does to line LPI (R208, R213) leaves the locks. -/
theorem keepsLock_signalMove (s : State) (p : PortId) (was on : Bool) : KeepsLock p s (signalMove s p was on) := by
  unfold signalMove
  simp only []
  split
  · exact .refl
  · split
    · split
      · exact .refl
      · split
        · exact keepsLock_refreshNow s p false
        · exact keepsLock_enterWake s p 2
    · split
      · exact keepsLock_setPort rfl rfl
      · split
        · exact keepsLock_setPort rfl rfl
        · exact .refl
    · exact .refl

/-! ### Superframe, marker and timing lock (R42, R96) -/

theorem setLock_onlyIn (s : State) (p : PortId) (l : Locks) : OnlyIn [.ports] s (setLock s p l) :=
  modPort_onlyIn _ _ _

theorem getPort_setLock_self (s : State) (p : PortId) (l : Locks) :
    getPort (setLock s p l) p = { getPort s p with lock := l } := getPort_modPort_self _ _ _

theorem getPort_setLock_ne (s : State) {p q : PortId} (l : Locks) (n : q ≠ p) :
    getPort (setLock s p l) q = getPort s q := getPort_modPort_ne _ _ n

/-- New locks, and steps that leave them: the locks are the new ones. -/
theorem setLock_then {s t : State} {p : PortId} {l : Locks} (k : KeepsLock p (setLock s p l) t) :
    (getPort t p).lock = l ∧ (getPort t p).st = (getPort s p).st ∧ PortsBut p s t := by
  refine ⟨?_, ?_, fun q n => ?_⟩
  · rw [k.lock, getPort_setLock_self]
  · rw [k.st, getPort_setLock_self]
  · rw [k.others q n, getPort_setLock_ne _ _ n]

/-- Superframe lock of a pair from the frame pilots that failed in a row (R42). -/
def frameJudged (x : Port) (i : PairId) (gained : Bool) (failed : Nat) : Bool :=
  gained || (quadGet x.lock.frame i && decide (failed < 8))

/-- A port whose marker has been found, with the deskew that it fixes (R42, R43). -/
def markedPort (skews : List Nat) (x : Port) : Port :=
  let deskewed (i : PairId) : Pair := { quadGet x.pairs i with deskew := BitVec.ofNat 7 (skews.getD i.val 0) }
  { x with
    lock := { x.lock with marker := true, missed := 0 }
    line := { x.line with rxSlot := 32 * superSlots x.mode }
    pairs := ⟨deskewed 0, deskewed 1, deskewed 2, deskewed 3⟩ }

/-- Timing lock from the figures it is judged by (R96). -/
def timingJudged (x : Port) (rms peak : Nat) : Bool :=
  if 150 < rms || 500 < peak then false else if rms < 50 then true else x.lock.timing

/-- Signal detect of a pair from the energy of its newest four blocks (R127). -/
def signalJudged (x : Port) (i : PairId) : Bool :=
  if decide ((quadGet x.pairs i).far.length = 4) && (quadGet x.pairs i).far.all (farAtLeast · 12) then true
  else if decide ((quadGet x.pairs i).far.length = 4) && (quadGet x.pairs i).far.all (!farAtLeast · 6) then false
  else quadGet x.lock.signal i

section
variable {s : State} {p : PortId} (runs : herdsRun s = true)
include runs

/-- The slot count aside, a superframe lock row sets the pair's lock as judged. -/
theorem exec_superframeLockChange (i : PairId) (gained : Bool) (failed : Nat) :
    ∃ rx, exec (.superframeLockChange p i gained failed) s = .next (leadLoss (setPort s p { getPort s p with
      lock := { (getPort s p).lock with
        frame := quadSet (getPort s p).lock.frame i (frameJudged (getPort s p) i gained failed) }
      line := { (getPort s p).line with rxSlot := rx } }) p (frameJudged (getPort s p) i gained failed)) :=
  ⟨_, by simp only [exec, execSuperframeLockChange, runs, Bool.not_true, Bool.false_eq_true, if_false]; rfl⟩

theorem exec_markerLockChange_found {errs skews : List Nat}
    (frame : (quadList (getPort s p).lock.frame).all id = true) (found : markerFound errs = true)
    (st : (getPort s p).st ≠ .t0) :
    exec (.markerLockChange p errs skews) s = .next (setPort s p (markedPort skews (getPort s p))) := by
  have other : ((getPort s p).st == .t0) = false := beq_eq_false_iff_ne.mpr st
  simp only [exec, execMarkerLockChange, runs, frame, found, other, Bool.not_true, Bool.false_and,
    Bool.false_eq_true, if_false, if_true]
  rfl

theorem exec_markerLockChange_missed {errs skews : List Nat}
    (frame : (quadList (getPort s p).lock.frame).all id = true) (found : markerFound errs = false)
    (awake : lineSleeps (getPort s p) = false) :
    exec (.markerLockChange p errs skews) s = .next (setLock s p { (getPort s p).lock with
      missed := (getPort s p).lock.missed + 1
      marker := (getPort s p).lock.marker && decide ((getPort s p).lock.missed + 1 < 4) }) := by
  simp only [exec, execMarkerLockChange, runs, frame, found, awake, Bool.not_true, Bool.false_eq_true, if_false]

theorem exec_timingLockChange (rms peak : Nat) : exec (.timingLockChange p rms peak) s =
    .next (leadLoss (setLock s p { (getPort s p).lock with timing := timingJudged (getPort s p) rms peak }) p
      (timingJudged (getPort s p) rms peak)) := by
  simp only [exec, execTimingLockChange, runs, Bool.not_true, Bool.false_eq_true, if_false]
  rfl

/-- A judged timing lock is what a timing row leaves. -/
theorem timingLockChange_judged {rms peak : Nat} {on : Bool} (judged : timingJudged (getPort s p) rms peak = on) :
    ∃ t, exec (.timingLockChange p rms peak) s = .next t ∧
      (getPort t p).lock = { (getPort s p).lock with timing := on } ∧ (getPort t p).st = (getPort s p).st ∧
      PortsBut p s t := by
  subst judged
  exact ⟨_, exec_timingLockChange runs rms peak, setLock_then (keepsLock_leadLoss _)⟩

/-! ### Signal detect (R126, R127) -/

theorem exec_signalDetectChange (i : PairId) : exec (.signalDetectChange p i) s =
    .next (signalMove (leadLoss (setLock s p { (getPort s p).lock with
      signal := quadSet (getPort s p).lock.signal i (signalJudged (getPort s p) i) }) p
      (signalJudged (getPort s p) i)) p (quadGet (getPort s p).lock.signal i) (signalJudged (getPort s p) i)) := by
  simp only [exec, execSignalDetectChange, runs, Bool.not_true, Bool.false_eq_true, if_false]
  rfl

/-- A judged signal detect is what a signal row leaves. -/
theorem signalDetectChange_judged {i : PairId} {on : Bool} (judged : signalJudged (getPort s p) i = on) :
    ∃ t, exec (.signalDetectChange p i) s = .next t ∧
      (getPort t p).lock = { (getPort s p).lock with signal := quadSet (getPort s p).lock.signal i on } ∧
      (getPort t p).st = (getPort s p).st ∧ PortsBut p s t := by
  subst judged
  exact ⟨_, exec_signalDetectChange runs i,
    setLock_then ((keepsLock_leadLoss _).trans (keepsLock_signalMove _ p _ _))⟩

omit runs in
theorem signalJudged_present {i : PairId} (full : (quadGet (getPort s p).pairs i).far.length = 4)
    (strong : (quadGet (getPort s p).pairs i).far.all (farAtLeast · 12) = true) :
    signalJudged (getPort s p) i = true := by
  simp only [signalJudged, full, strong, decide_true, Bool.and_self, if_true]

omit runs in
/-- Four blocks below 6 mV are not four at 12 mV: the first of them reaches neither. -/
theorem signalJudged_absent {i : PairId} (full : (quadGet (getPort s p).pairs i).far.length = 4)
    (weak : (quadGet (getPort s p).pairs i).far.all (!farAtLeast · 6) = true) :
    signalJudged (getPort s p) i = false := by
  have below : (quadGet (getPort s p).pairs i).far.all (farAtLeast · 12) = false := by
    obtain ⟨b, rest, blocks⟩ := List.exists_cons_of_length_eq_add_one full
    rw [blocks, List.all_cons] at weak ⊢
    have first : farAtLeast b 6 = false := by simpa using (Bool.and_eq_true_iff.mp weak).1
    have first : farAtLeast b 12 = false := by
      simp only [farAtLeast, decide_eq_false_iff_not, not_le] at first ⊢
      omega
    rw [first, Bool.false_and]
  simp only [signalJudged, full, weak, below, decide_true, Bool.and_self, Bool.and_false, Bool.false_eq_true,
    if_false, if_true]

/-- Signal that stays away in training leads back to T0 (R126). -/
theorem exec_signalLossExpiry_training (lost : allSignal (getPort s p) = false)
    (training : ((getPort s p).st = .t1 ∧ ownWindow (getPort s p) = false) ∨ (getPort s p).st = .t2 ∨
      (getPort s p).st = .t3) :
    exec (.signalLossExpiry p) s = .next (enterT0 (abortTo s p 0x01 .t0) p true false) := by
  rcases training with ⟨st, window⟩ | st | st
  · simp [exec, execSignalLossExpiry, lost, runs, st, window]
  · simp [exec, execSignalLossExpiry, lost, runs, st]
  · simp [exec, execSignalLossExpiry, lost, runs, st]

end

theorem exec_signalLossExpiry_ownWindow {s : State} {p : PortId} (st : (getPort s p).st = .t1)
    (window : ownWindow (getPort s p) = true) : exec (.signalLossExpiry p) s = .next s := by
  simp [exec, execSignalLossExpiry, st, window]

theorem silent_dieTrigger (s : State) (p : PortId) (d : DieId) : Silent p s (dieTrigger s d) := by
  have frame : OnlyIn [.dies] s (dieTrigger s d) := onlyIn_of_pick (by simp)
  have io : (dieTrigger s d).io = s.io := frame .io (by simp)
  exact ⟨portsBut_of_eq p (frame .ports (by simp)), by rw [io]⟩

theorem getPort_dieTrigger (s : State) (d : DieId) (q : PortId) : getPort (dieTrigger s d) q = getPort s q := by
  have ports : (dieTrigger s d).ports = s.ports := onlyIn_of_pick (m := [.dies]) (by simp) .ports (by simp)
  rw [getPort, ports, getPort]

/-- A return to T0 that keeps the front end's calibration (R126). -/
theorem enterT0_back (s : State) (p : PortId) : (getPort (enterT0 s p true false) p).st = .t0 ∧
    (getPort (enterT0 s p true false) p).lastAbort = (getPort s p).lastAbort ∧
    (getPort (enterT0 s p true false) p).attempts = (getPort s p).attempts ∧
    (getPort (enterT0 s p true false) p).start.calibrated = true ∧ Silent p s (enterT0 s p true false) := by
  obtain ⟨time, lane, seen, moved⟩ := setSt_self s p .t0
  refine ⟨?_, ?_, ?_, ?_, ?_⟩
  · simp [enterT0, getPort_dieTrigger, moved, lineQuiet]
  · simp [enterT0, getPort_dieTrigger, moved, lineQuiet]
  · simp [enterT0, getPort_dieTrigger, moved, lineQuiet]
  · simp [enterT0]
  · simp only [enterT0, Bool.false_eq_true, if_false]
    exact ((silent_setSt s p .t0).trans (silent_dieTrigger _ p _)).trans (silent_modPort _ p _)

/-- An abort that does not count: its event, and the attempt goes on (R128). -/
theorem abortTo_self (s : State) (p : PortId) (cause : Nat) (entered : PortSt) :
    (getPort (abortTo s p cause entered) p).lastAbort = BitVec.ofNat 8 cause ∧
    (getPort (abortTo s p cause entered) p).attempts = (getPort s p).attempts ∧
    Posted s (abortTo s p cause entered) (portSrc p 2) 1 ∧ PortsBut p s (abortTo s p cause entered) := by
  refine ⟨?_, ?_, ?_, fun q n => ?_⟩
  · simp [abortTo, postAbort_self, lineQuiet]
  · simp [abortTo, postAbort_self, lineQuiet]
  · exact (silent_modPort _ p _).after (posted_postAbort s p _ _ _ _)
  · rw [abortTo, getPort_modPort_ne _ _ n, postAbort_others s p _ _ _ _ q n]

/-- Settles O40: of the locks each row says what it leaves (`setLock_then`), of a loss in training that it aborts
without counting (`abortTo_self`) and goes back to T0 (`enterT0_back`). -/
theorem lockRows : Obligations.LockRows := by
  unfold Obligations.LockRows
  refine ⟨?superframe, ?found, ?missed, ?untimed, ?timed, ?between, ?present, ?absent, ?loss, ?own⟩
  case superframe =>
    intro p i b n s runs
    obtain ⟨rx, answer⟩ := exec_superframeLockChange (p := p) runs i b n
    refine ⟨_, answer, ?_, ?_, fun q other => ?_⟩
    · rw [getPort_leadLoss, getPort_setPort_self]
      rfl
    · rw [getPort_leadLoss, getPort_setPort_self]
    · rw [getPort_leadLoss, getPort_setPort_ne _ _ other]
  case found =>
    intro p errs skews s frame found st runs
    refine ⟨_, exec_markerLockChange_found runs frame found st, ?_, ?_, ?_, fun q n => getPort_setPort_ne _ _ n,
      onlyIn_of_pick (by simp)⟩
    · rw [getPort_setPort_self, markedPort]
    · rw [getPort_setPort_self, markedPort]
    · rw [getPort_setPort_self]
      rfl
  case missed =>
    intro p errs skews s frame found awake runs
    refine ⟨_, exec_markerLockChange_missed runs frame found awake, ?_, fun q n => getPort_setLock_ne _ _ n,
      setLock_onlyIn _ _ _⟩
    rw [getPort_setLock_self]
  case untimed =>
    intro p rms peak s high runs
    refine timingLockChange_judged runs ?_
    simp [timingJudged, high]
  case timed =>
    intro p rms peak s low most runs
    refine timingLockChange_judged runs ?_
    have inside : ¬(150 < rms ∨ 500 < peak) := by omega
    simp [timingJudged, low, inside]
  case between =>
    intro p rms peak s least low most runs
    refine timingLockChange_judged (on := (getPort s p).lock.timing) runs ?_
    have inside : ¬(150 < rms ∨ 500 < peak) := by omega
    have loose : ¬rms < 50 := by omega
    simp [timingJudged, loose, inside]
  case present =>
    intro p i s full strong runs
    exact signalDetectChange_judged runs (signalJudged_present full strong)
  case absent =>
    intro p i s full weak runs
    exact signalDetectChange_judged runs (signalJudged_absent full weak)
  case loss =>
    intro p s training lost runs
    obtain ⟨abort, attempts, posted, others⟩ := abortTo_self s p 0x01 .t0
    obtain ⟨st, abort', attempts', calibrated, silent⟩ := enterT0_back (abortTo s p 0x01 .t0) p
    exact ⟨_, exec_signalLossExpiry_training runs lost training, st, abort'.trans abort, attempts'.trans attempts,
      calibrated, silent.after posted, fun q n => (silent.others q n).trans (others q n)⟩
  case own =>
    intro p s st window
    exact ⟨_, exec_signalLossExpiry_ownWindow st window, rfl⟩

/-! ### InfoField messages (R47 to R50, R200, R312) -/

/-- What an InfoField's CRC covers, bits [127:32] (R47). -/
def infoCovered (bits : BitVec 128) : BitVec 96 := (bits >>> 32).setWidth 96

/-- TYPE, SEQ and PAYLOAD of an InfoField (R47). -/
def infoType (bits : BitVec 128) : BitVec 8 := (bits >>> 120).setWidth 8
def infoSeq (bits : BitVec 128) : BitVec 8 := (bits >>> 112).setWidth 8
def infoPayload (bits : BitVec 128) : BitVec 64 := (bits >>> 32).setWidth 64

/-- The CRC of an InfoField is that of its other bits (R47). -/
def InfoIntact (bits : BitVec 128) : Prop := crc32c (beBytes 12 (infoCovered bits).toNat) = bits.setWidth 32

/-- A port that acknowledges what it has received (R48). -/
def acknowledged (s : State) (p : PortId) (bits : BitVec 128) : State :=
  if infoType bits == 0 then s else modPort s p fun x => { x with info := { x.info with ackSeq := infoSeq bits } }

@[simp] theorem lpiAllow_loop (x : Port) : (lpiAllow x).loop = x.loop := by
  unfold lpiAllow
  split
  · split
    · split <;> rfl
    · split <;> rfl
    · split <;> rfl
    · rfl
  · rfl

@[simp] theorem lpiAllow_info (x : Port) : (lpiAllow x).info = x.info := by
  unfold lpiAllow
  split
  · split
    · split <;> rfl
    · split <;> rfl
    · split <;> rfl
    · rfl
  · rfl

section
variable {s : State} {p : PortId} {bits : BitVec 128}

theorem infoReceived_damaged (damaged : ¬InfoIntact bits) : infoReceived s p bits = s := by
  have bad : (crc32c (beBytes 12 (infoCovered bits).toNat) != bits.setWidth 32) = true := bne_iff_ne.mpr damaged
  unfold infoCovered at bad
  simp only [infoReceived, bad, Bool.or_true, if_true]

/-- In service, with no message of its own under way, a port acknowledges an InfoField, and acts on it if it is new
(R48, R50). -/
theorem infoReceived_service (intact : InfoIntact bits) (st : (getPort s p).st = .up)
    (idle : (getPort s p).info.current = none) : infoReceived s p bits =
      if infoType bits != 0 && infoSeq bits != (getPort s p).info.ackSeq then
        infoArrive (acknowledged s p bits) p (infoCovered bits) (infoType bits) (infoPayload bits)
      else acknowledged s p bits := by
  have whole : (crc32c (beBytes 12 (infoCovered bits).toNat) != bits.setWidth 32) = false := by
    rw [bne_eq_false_iff_eq]
    exact intact
  unfold infoCovered at whole
  simp only [infoReceived, infoOpen, whole, idle, capsAcked, st]
  simp [acknowledged, infoType, infoSeq, infoCovered, infoPayload]

/-- A message with the SEQ that is acknowledged already changes nothing (R48). -/
theorem getPort_acknowledged_again (again : infoSeq bits = (getPort s p).info.ackSeq) :
    getPort (acknowledged s p bits) p = getPort s p := by
  unfold acknowledged
  split
  · rfl
  · rw [getPort_modPort_self, again]

theorem acknowledged_onlyIn : OnlyIn [.ports] s (acknowledged s p bits) := by
  unfold acknowledged
  exact onlyIn_of_pick (by simp)

theorem acknowledged_others : PortsBut p s (acknowledged s p bits) := by
  intro q n
  unfold acknowledged
  split
  · rfl
  · exact getPort_modPort_ne _ _ n

/-- LOOP_SET of the partner starts the loop of a port that allows it and has none (R200). -/
theorem infoArrive_loopSet {u : State} {head : BitVec 96} {pay : BitVec 64} (st : (getPort u p).st = .up)
    (on : pay.getLsbD 0 = true) (free : (getPort u p).loop = .none)
    (allowed : (getPort u p).info.myCaps.getLsbD 54 = true) :
    infoArrive u p head 0x10 pay = modPort u p fun x => lpiAllow { x with loop := .looping } := by
  simp only [infoArrive, st, on, free, allowed]
  rfl

theorem infoPayload_first : (infoPayload bits).getLsbD 0 = bits.getLsbD 32 := by
  simp [infoPayload]

theorem exec_infofieldReceived (st : (getPort s p).st = .up) (marker : (getPort s p).lock.marker = true)
    (runs : herdsRun s = true) : exec (.infofieldReceived p bits) s = .next (infoReceived s p bits) := by
  simp [exec, execInfofieldReceived, st, marker, runs]

/-- Without marker lock, or out of service, an InfoField is not used (R42, R49). -/
theorem exec_infofieldReceived_cases : exec (.infofieldReceived p bits) s = .next (infoReceived s p bits) ∨
    exec (.infofieldReceived p bits) s = .next s := by
  simp only [exec, execInfofieldReceived]
  split
  · exact .inl rfl
  · exact .inr rfl

end

/-- A command that a ring runs is answered by its rejection after steps that leave rings and registers. -/
theorem rejected_after {s u : State} {c : Cmd} (io : u.io = s.io) (regs : u.regs = s.regs) (running : Runs s c)
    (op : Nat) (status : BitVec 8) (result : BitVec 64) :
    Answered s (reject u op c status result) c op status result := by
  have still : Runs u c := by
    rw [Runs, getRing, io]
    exact running
  exact Answered.after regs (answered_reject still op status result)

/-! ### Messages that stay unacknowledged (R50) -/

/-- The message that a port has sent is sent no more. -/
def givenUp (s : State) (p : PortId) : State :=
  setPort s p { getPort s p with info := infoNext { (getPort s p).info with current := none } }

theorem givenUp_info (s : State) (p : PortId) :
    (getPort (givenUp s p) p).info = infoNext { (getPort s p).info with current := none } := by
  rw [givenUp, getPort_setPort_self]

section
variable {s : State} {p : PortId} {c : Cmd} {m : Msg} (runs : herdsRun s = true)
  (current : (getPort s p).info.current = some m)
include runs current

theorem exec_infofieldRetryExpiry_noCommand (cmd : m.cmd = none) :
    exec (.infofieldRetryExpiry p) s = .next (givenUp s p) := by
  simp [exec, execInfofieldRetryExpiry, runs, current, cmd, givenUp]

theorem exec_infofieldRetryExpiry_loop (type : m.type = 0x10) (cmd : m.cmd = some c)
    (waits : Wait.loop p c (m.payload.getLsbD 0) ∈ s.waits) :
    exec (.infofieldRetryExpiry p) s = .next (reject { givenUp s p with
      waits := s.waits.erase (.loop p c (m.payload.getLsbD 0)) } 0x0107 c stTimeout 0) := by
  have held : s.waits.contains (.loop p c (m.payload.getLsbD 0)) = true := List.contains_iff_mem.mpr waits
  simp only [exec, execInfofieldRetryExpiry, runs, current, type, cmd, setPort_waits, held, beq_self_eq_true, if_true,
    Bool.not_true, Bool.false_eq_true, if_false]
  rfl

theorem exec_infofieldRetryExpiry_paired (type : m.type = 0x20) (cmd : m.cmd = some c)
    (paired : (pairedOf s c).isSome = true) :
    exec (.infofieldRetryExpiry p) s = .next (reject (unpair (givenUp s p) c) 0x0301 c stTimeout 0) := by
  have still : (pairedOf (givenUp s p) c).isSome = true := paired
  unfold givenUp at still
  simp [exec, execInfofieldRetryExpiry, runs, current, type, cmd, givenUp, pairedFail, still]

end

/-- Settles O39: `infoReceived_service` says what an intact InfoField does in service, and of a message that stays
unacknowledged `exec_…` gives the command that is rejected once the message is given up. -/
theorem infoFieldRows : Obligations.InfoFieldRows := by
  unfold Obligations.InfoFieldRows
  refine ⟨?damaged, ?loopSet, ?again, ?loop, ?paired, ?own⟩
  case damaged =>
    intro p bits s damaged
    rcases exec_infofieldReceived_cases (s := s) (p := p) (bits := bits) with answer | answer
    · exact ⟨_, answer, infoReceived_damaged damaged⟩
    · exact ⟨_, answer, rfl⟩
  case loopSet =>
    intro p bits s intact st marker runs idle type new on free allowed
    have fresh : (infoType bits != 0 && infoSeq bits != (getPort s p).info.ackSeq) = true := by
      have seq : (infoSeq bits != (getPort s p).info.ackSeq) = true := bne_iff_ne.mpr new
      rw [infoType, type, seq]
      rfl
    have acked : getPort (acknowledged s p bits) p =
        { getPort s p with info := { (getPort s p).info with ackSeq := infoSeq bits } } := by
      have message : (infoType bits == 0) = false := by
        rw [infoType, type]
        rfl
      rw [acknowledged, message, if_neg Bool.false_ne_true, getPort_modPort_self]
    have arrived : infoReceived s p bits =
        modPort (acknowledged s p bits) p fun x => lpiAllow { x with loop := .looping } := by
      rw [infoReceived_service intact st idle, fresh, if_pos rfl, infoType, type]
      exact infoArrive_loopSet (by rw [acked, st]) (infoPayload_first.trans on) (by rw [acked, free])
        (by rw [acked, allowed])
    have answer := exec_infofieldReceived (bits := bits) st marker runs
    rw [arrived] at answer
    refine ⟨_, answer, ?_, ?_, fun q n => ?_, ?_⟩
    · rw [getPort_modPort_self, lpiAllow_loop]
    · rw [getPort_modPort_self, lpiAllow_info, acked, infoSeq]
    · rw [getPort_modPort_ne _ _ n, acknowledged_others q n]
    · exact onlyIn_mono (onlyIn_trans acknowledged_onlyIn (modPort_onlyIn _ _ _)) (by simp)
  case again =>
    intro p bits s intact st idle again
    rcases exec_infofieldReceived_cases (s := s) (p := p) (bits := bits) with answer | answer
    · have old : (infoType bits != 0 && infoSeq bits != (getPort s p).info.ackSeq) = false := by
        rw [infoSeq, again, bne_self_eq_false, Bool.and_false]
      rw [infoReceived_service intact st idle, old, if_neg Bool.false_ne_true] at answer
      exact ⟨_, answer, getPort_acknowledged_again again, acknowledged_onlyIn .waits (by simp), acknowledged_others⟩
    · exact ⟨_, answer, rfl, rfl, fun _ _ => rfl⟩
  case loop =>
    intro c p m s running current type cmd waits runs
    refine ⟨_, exec_infofieldRetryExpiry_loop runs current type cmd waits, ?_, ?_,
      rejected_after (by rfl) (by rfl) running _ _ _⟩
    · rw [reject_waits]
    · rw [getPort_reject]
      exact givenUp_info s p
  case paired =>
    intro c p m s running current type cmd paired runs
    refine ⟨_, exec_infofieldRetryExpiry_paired runs current type cmd paired, ?_, ?_,
      rejected_after (by rfl) (by rfl) running _ _ _⟩
    · rw [reject_waits]
      rfl
    · rw [getPort_reject]
      exact givenUp_info s p
  case own =>
    intro p m s current cmd runs
    exact ⟨_, exec_infofieldRetryExpiry_noCommand runs current cmd, getPort_setPort_self _ _ _,
      fun q n => getPort_setPort_ne _ _ n, onlyIn_of_pick (by simp [givenUp])⟩

/-! ### Line slots under observation (R116, R246) -/

/-- Port 300 before the last symbol of a T0 burst, while its herd's observation path settles on the transmit stream of
the port's pair A (source 48, R246). -/
def observedBurst : State :=
  setObs (modPort State.reset 300 fun x => { x with
      st := .t0, line := { LineIo.off with train := some (trainWord 1 0 false false false, 1) } }) 37
    { Obs.reset with st := .settling, source := 48, settle := 16 }

/-- Refutes O41: its eighth clause has a slot of the training signal write ports and outputs alone, and leaves out the
observation path, which takes the transmit stream it has selected in every port state (R246). In `observedBurst` the
symbol's two DAC samples enter the path's six half-band filters, in the herd's record. -/
theorem not_lineRows : ¬ Obligations.LineRows := by
  unfold Obligations.LineRows
  intro rows
  obtain ⟨-, -, -, -, -, -, -, training, -⟩ := rows
  obtain ⟨t, sent, -, -, -, frame⟩ := training 300 (trainWord 1 0 false false false) 1 observedBurst (by decide)
    (by decide) (by decide)
  have herds : t.herds = observedBurst.herds := frame .herds (by decide)
  have empty : (getObs t 37).chain.length = 0 := by
    rw [getObs, getHerd, herds]
    rfl
  obtain rfl := Host.Outcome.next.inj sent
  exact absurd empty (by decide)

end Sys2Proof.Proofs
end

section
/-!
PROOFS of the family 03_cancellation_equalisation: surveys, adaptation levels and the wander guard (O43).
-/

namespace Sys2Proof.Proofs

open Sys2Proof.Machine Sys2Proof.Safety

/-- A row that writes one port's record and nothing else. -/
theorem setPort_frame (s : State) (p : PortId) (x : Port) :
    PortsBut p s (setPort s p x) ∧ OnlyIn [.ports] s (setPort s p x) :=
  ⟨fun _ n => getPort_setPort_ne s x n, modPort_onlyIn s p fun _ => x⟩

/-! ### Surveys (R67, R68) -/

section
variable {s : State} {p : PortId} (runs : herdsRun s = true)
include runs

/-- A survey ends: the pair has new slots, those of `assignLater` unless it was the first since the port's start. -/
theorem exec_bundleSurveyDone {i : PairId} {l : List (Fin 2048 × Int)} {first : Bool}
    (survey : quadGet (getPort s p).survey i = some first) : ∃ slots,
    (first = false → slots = assignLater s p (quadGet (getPort s p).pairs i).slots (candidates s p l)) ∧
    exec (.bundleSurveyDone p i l) s = .next (setPort s p { getPort s p with
      survey := quadSet (getPort s p).survey i none
      pairs := quadSet (getPort s p).pairs i { quadGet (getPort s p).pairs i with
        slots := slots
        coef := slotCoefs (quadGet (getPort s p).pairs i).slots slots (quadGet (getPort s p).pairs i).coef } }) := by
  simp only [exec, execBundleSurveyDone, runs, survey, Bool.not_true, Bool.false_eq_true, if_false]
  cases first with
  | false => exact ⟨_, fun _ => rfl, rfl⟩
  | true => exact ⟨_, nofun, rfl⟩

theorem exec_bundleResurveyExpiry (up : (getPort s p).st = .up) (period : livePar (getPort s p) 0x12 ≠ 0) :
    exec (.bundleResurveyExpiry p) s = .next (setPort s p { getPort s p with
      survey := quadMap (fun o => some (o.getD false)) (getPort s p).survey }) := by
  simp [exec, execBundleResurveyExpiry, runs, up, period]

/-! ### Adaptation levels (R82, R84) -/

theorem exec_adaptAcqTimeout (live : adapts (getPort s p) = true) (st : (getPort s p).st ≠ .t1) :
    exec (.adaptAcqTimeout p) s = .next (setPort s p { getPort s p with
      pairs := quadMap (liftPair s p 0) (getPort s p).pairs }) := by
  simp [exec, execAdaptAcqTimeout, runs, live, st]

theorem exec_adaptFineEntry {i : PairId} (up : (getPort s p).st = .up)
    (steady : stable (getPort s p).mode (quadGet (getPort s p).pairs i).dsp = true) :
    exec (.adaptFineEntry p i) s = .next (setPort s p { getPort s p with
      pairs := quadSet (getPort s p).pairs i (liftPair s p 1 (quadGet (getPort s p).pairs i)) }) := by
  simp [exec, execAdaptFineEntry, runs, up, steady]

end

/-- The cancellers of a pair that is not frozen leave the level that parts leave, and no other. -/
theorem liftPair_canLevel {s : State} {p : PortId} {q : Pair} (free : freezeBits s p q = 0) (level : Nat) :
    (liftPair s p level q).canLevel = if q.canLevel = level then level + 1 else q.canLevel := by
  simp [liftPair, free]

/-! ### The wander guard (R87 to R92) -/

/-- With every pair in FINE a port's first snapshot is its live set (R87, R88). -/
theorem exec_wanderSnapshot_first {s : State} {p : PortId} (up : (getPort s p).st = .up)
    (first : (getPort s p).wander.snap = none)
    (fine : (quadList (getPort s p).pairs).all (fun q => adaptLevel q == 2) = true)
    (controller : controllerRuns s (herdOf p) = true) (runs : herdsRun s = true) :
    exec (.wanderSnapshot p) s = .next (setPort s p { getPort s p with
      wander := { (getPort s p).wander with snap := some (liveCoefs (getPort s p)), snapAt := s.mono } }) := by
  simp only [exec, execWanderSnapshot, runs, up, first, fine, controller, beq_self_eq_true, Bool.and_self, if_true,
    Bool.not_true, Bool.false_eq_true, if_false]

/-- A snapshot stands for SNAPSHOT_INTERVAL (R88). -/
theorem exec_wanderSnapshot_early {s : State} {p : PortId} {k : Coefs} (snap : (getPort s p).wander.snap = some k)
    (early : s.mono < (getPort s p).wander.snapAt + livePar (getPort s p) 0x16 * 1000000) :
    exec (.wanderSnapshot p) s = .next s := by
  have waits : decide ((getPort s p).wander.snapAt + livePar (getPort s p) 0x16 * 1000000 ≤ s.mono) = false :=
    decide_eq_false (not_le.mpr early)
  simp only [exec, execWanderSnapshot, snap, waits, Bool.and_false, Bool.false_and, Bool.false_eq_true, if_false,
    ite_self]

/-- A fold whose every step gives a value gives one over a list that is not empty. -/
theorem foldl_ne_none {α β : Type} {f : Option β → α → Option β} (each : ∀ m e, f m e ≠ none) {l : List α}
    (filled : l ≠ []) (m : Option β) : l.foldl f m ≠ none := by
  rw [← List.dropLast_append_getLast filled, List.foldl_append]
  exact each _ _

/-- The times of a port's last reverts, this one's among them, that count toward a suspension (R92). -/
def revertsNow (s : State) (x : Port) : List Nat :=
  (s.mono :: x.wander.recent.filter fun t => decide (s.mono < t + 10 * (livePar x 0x17 * 1000000))).take 3

/-- A port that reverts to its snapshot and keeps it (R90, R92). -/
def revertedPort (s : State) (x : Port) (k : Coefs) : Port :=
  { persAdd x 0xD8 1 with
    pairs := ⟨revertPair x.pairs.a k.pairs.a k.gains.a k.slots.a, revertPair x.pairs.b k.pairs.b k.gains.b k.slots.b,
      revertPair x.pairs.c k.pairs.c k.gains.c k.slots.c, revertPair x.pairs.d k.pairs.d k.gains.d k.slots.d⟩
    wander := { x.wander with
      snap := some k
      reverts := x.wander.reverts + 1
      recent := revertsNow s x
      suspended := decide (3 ≤ (revertsNow s x).length)
      heldUntil := s.mono + livePar x 0x17 * 1000000 } }

/-- A check that finds wander, and that nothing holds: the port reverts, its slots follow their clock relations, and
WANDER_REVERT is posted (R90). -/
theorem exec_wanderCheck {s : State} {p : PortId} {k : Coefs} (up : (getPort s p).st = .up)
    (snap : (getPort s p).wander.snap = some k)
    (enabled : livePar (getPort s p) 0x13 = 1) (active : (getPort s p).wander.suspended = false)
    (free : frozen s p = false) (tracks : (quadList (getPort s p).pairs).any (fun q => adaptLevel q == 0) = false)
    (held : (getPort s p).wander.heldUntil ≤ s.mono) (controller : controllerRuns s (herdOf p) = true)
    (wander : wandered (getPort s p) k ≠ []) (runs : herdsRun s = true) :
    ∃ payload, exec (.wanderCheck p) s =
      .next (postPort (repathPort (setPort s p (revertedPort s (getPort s p) k)) p) p 7 payload) := by
  simp only [exec, execWanderCheck, runs, snap, Bool.not_true, Bool.false_eq_true, if_false]
  split
  next found =>
    refine absurd found (foldl_ne_none (fun m e => ?_) wander none)
    split
    · exact Option.some_ne_none _
    · split <;> exact Option.some_ne_none _
  next =>
    simp only [up, enabled, active, free, tracks, held, controller, beq_self_eq_true, decide_true, Bool.not_false,
      Bool.and_self, if_true]
    exact ⟨_, rfl⟩

/-- Slots that follow their clock relations take a port's slots alone (R70). -/
theorem repathPort_self (s : State) (p : PortId) : getPort (repathPort s p) p = { getPort s p with
    pairs := quadMap (fun q => { q with slots := q.slots.map fun o => o.map (repathSlot s p) })
      (getPort s p).pairs } := by
  rw [repathPort, getPort_modPort_self]

theorem silent_revert (s : State) (p : PortId) (x : Port) : Silent p s (repathPort (setPort s p x) p) :=
  (silent_setPort s p x).trans (silent_modPort _ p _)

theorem persGet_persAdd_self (x : Port) (off n : Nat) :
    persGet (persAdd x off n) off = persGet x off + BitVec.ofNat 64 n := tabGet_tabSet_self _ _ _ _

/-- Settles O43: each row writes its port's record (`exec_…`), with `liftPair_canLevel` for a part's next level; a
revert's other steps leave what it wrote (`repathPort_self`) and post its event alone (`silent_revert`). -/
theorem adaptRows : Obligations.AdaptRows := by
  unfold Obligations.AdaptRows
  refine ⟨?survey, ?resurvey, ?acquired, ?fine, ?first, ?early, ?reverts⟩
  case survey =>
    intro p i l b s survey runs
    obtain ⟨slots, later, answer⟩ := exec_bundleSurveyDone (l := l) runs survey
    refine ⟨_, answer, ?_, fun second => ?_, setPort_frame _ _ _⟩
    · rw [getPort_setPort_self, quadGet_set_self]
    · rw [getPort_setPort_self, quadGet_set_self]
      exact later second
  case resurvey =>
    intro p s up period runs
    refine ⟨_, exec_bundleResurveyExpiry runs up period, fun i => ?_, ?_, setPort_frame _ _ _⟩
    · rw [getPort_setPort_self, quadGet_map, Option.isSome_some]
    · rw [getPort_setPort_self]
  case acquired =>
    intro p s live st runs
    refine ⟨_, exec_adaptAcqTimeout runs live st, getPort_setPort_self _ _ _, fun i free => ?_, setPort_frame _ _ _⟩
    rw [getPort_setPort_self, quadGet_map, liftPair_canLevel free]
    split <;> omega
  case fine =>
    intro p i s up steady free runs
    refine ⟨_, exec_adaptFineEntry runs up steady, ?_, fun tracks => ?_, ?_, setPort_frame _ _ _⟩
    · rw [getPort_setPort_self, quadGet_set_self]
    · rw [getPort_setPort_self, quadGet_set_self, liftPair_canLevel free, if_pos tracks]
    · rw [getPort_setPort_self, up]
  case first =>
    intro p s up first fine controller runs
    obtain ⟨others, -⟩ := setPort_frame s p { getPort s p with
      wander := { (getPort s p).wander with snap := some (liveCoefs (getPort s p)), snapAt := s.mono } }
    refine ⟨_, exec_wanderSnapshot_first up first fine controller runs, ?_, ?_, ?_, others⟩ <;>
      rw [getPort_setPort_self]
  case early =>
    intro p k s snap early
    exact ⟨s, exec_wanderSnapshot_early snap early, rfl⟩
  case reverts =>
    intro p k s up snap enabled active free tracks held controller wander runs
    obtain ⟨payload, answer⟩ := exec_wanderCheck up snap enabled active free tracks held controller wander runs
    have quiet := silent_revert s p (revertedPort s (getPort s p) k)
    refine ⟨_, answer, ?_, ?_, ?_, ?_, quiet.posted (posted_postPort _ p (by decide) payload), fun q n => ?_⟩
    · rw [getPort_postPort, repathPort_self, getPort_setPort_self, revertedPort]
    · rw [getPort_postPort, repathPort_self, getPort_setPort_self, revertedPort]
      rfl
    · rw [getPort_postPort, repathPort_self, getPort_setPort_self, revertedPort]
      rfl
    · rw [getPort_postPort, repathPort_self, getPort_setPort_self]
      exact persGet_persAdd_self _ _ _
    · rw [getPort_postPort, quiet.others q n]

end Sys2Proof.Proofs
end

section
/-!
PROOFS of the family 04_link_startup: Springbok starts (O36), Tahr (O37), the start-up commands (O25), negotiation (O35),
link-down conditions (O46).
-/

namespace Sys2Proof.Proofs

open Sys2Proof.Machine Sys2Proof.Safety

/-! ### A port that changes state -/

/-- A port's start has its herd's other ports survey (R67), and leaves its own record. -/
theorem surveyOthers_self (s : State) (p : PortId) : getPort (surveyOthers s p) p = getPort s p :=
  getPort_forEach_notMem (at_ := fun q : PortId => q) (fun _ _ _ n => getPort_modPort_ne _ _ n) _ _ (by simp)

/-- A survey at a port's start (R67) leaves its own record but for its surveys. -/
theorem surveyStart_self (s : State) (p : PortId) :
    getPort (surveyStart s p) p = { getPort s p with survey := Quad.all (some true) } := by
  rw [surveyStart, surveyOthers_self, getPort_modPort_self]

/-! ### Springbok starts (R112 to R114, R154) -/

theorem persGet_countPers_self (s : State) (p : PortId) (off : Nat) :
    persGet (getPort (countPers s p off) p) off = persGet (getPort s p) off + 1 := by
  rw [countPers, getPort_modPort_self]
  exact persGet_persAdd_self _ _ _

theorem persGet_persAdd_ne (x : Port) {off k : Nat} (n : Nat) (other : k ≠ off) :
    persGet (persAdd x off n) k = persGet x k := tabGet_tabSet_ne _ _ _ other

/-- A port that goes to T0 from a start of its own: what it leaves of the port's record (R97, R118). -/
theorem enterT0_new (s : State) (p : PortId) (keepCal : Bool) : ∃ time lane seen,
    getPort (enterT0 s p keepCal true) p = { lineQuiet (persAdd { getPort s p with
      st := .t0, stTime := time, lane := lane, partnerSeen := seen } 0xD0 1) with
        startPath := 2, trainNext := false, start := { Start.none with calibrated := keepCal } } := by
  obtain ⟨time, lane, seen, moved⟩ := setSt_self s p .t0
  refine ⟨time, lane, seen, ?_⟩
  simp only [enterT0, if_true, getPort_modPort_self, getPort_dieTrigger, countPers, moved]

theorem silent_countPers (s : State) (p : PortId) (off : Nat) : Silent p s (countPers s p off) := silent_modPort _ _ _

theorem silent_enterT0 (s : State) (p : PortId) (keepCal newStart : Bool) :
    Silent p s (enterT0 s p keepCal newStart) := by
  unfold enterT0
  refine Silent.trans ?_ (silent_modPort _ p _)
  refine Silent.trans ?_ (silent_dieTrigger _ p _)
  split
  · exact (silent_setSt s p .t0).trans (silent_countPers _ p _)
  · exact silent_setSt s p .t0

/-- A Springbok start that falls back is in T0 on a Tahr start, and counted (R114). -/
theorem springbokFallback_self (s : State) (p : PortId) : (getPort (springbokFallback s p) p).st = .t0 ∧
    (getPort (springbokFallback s p) p).startPath = 2 ∧
    persGet (getPort (springbokFallback s p) p) 0xC8 = persGet (getPort s p) 0xC8 + 1 := by
  obtain ⟨time, lane, seen, self⟩ := enterT0_new (countPers s p 0xC8) p false
  rw [springbokFallback, self]
  refine ⟨rfl, rfl, ?_⟩
  exact (persGet_persAdd_ne _ 1 (by decide)).trans (persGet_countPers_self s p 0xC8)

theorem springbokFallback_onlyIn (s : State) (p : PortId) :
    OnlyIn [.rails, .dies, .ports, .herds, .io] s (springbokFallback s p) := onlyIn_of_pick (by simp)

/-- What a slot's path does to a port leaves all of its record but the slots (R70). -/
theorem loadCoefs_self (s : State) (p : PortId) (k : Coefs) : getPort (loadCoefs s p k) p = { getPort s p with
    pairs := quadMap (fun q => { q with slots := q.slots.map fun o => o.map (repathSlot (modPort s p fun x =>
      { x with pairs := ⟨loadPair k 0 x.pairs.a, loadPair k 1 x.pairs.b, loadPair k 2 x.pairs.c,
          loadPair k 3 x.pairs.d⟩ }) p) })
      ⟨loadPair k 0 (getPort s p).pairs.a, loadPair k 1 (getPort s p).pairs.b, loadPair k 2 (getPort s p).pairs.c,
        loadPair k 3 (getPort s p).pairs.d⟩ } := by
  rw [loadCoefs, repathPort_self, getPort_modPort_self]

section
variable {s : State} {p : PortId} (runs : herdsRun s = true) (st : (getPort s p).st = .springbok)
include runs st

theorem exec_springbokStartInstant_good {e : Ctx} {read : CtxRead} (quiet : (getPort s p).line.on = false)
    (ctx : (getPort s p).start.ctx = some e) (good : readCause p e read = 0) :
    exec (.springbokStartInstant p read) s = .next
      (surveyStart (loadCoefs (modPort s p fun y => contextFrontEnd e (startTx p y)) p e.coefs) p) := by
  simp [exec, execSpringbokStartInstant, runs, st, quiet, ctx, good]

/-- A context that fails its check is dropped, if the port still holds it (R153). -/
def droppedFailing (s : State) (p : PortId) (e : Ctx) (read : CtxRead) : State :=
  match findCtx s p { partner := e.partner, sig := e.sig } with
  | some d => dropBad s p d (readCause p e read)
  | none => s

theorem exec_springbokStartInstant_bad {e : Ctx} {read : CtxRead} (quiet : (getPort s p).line.on = false)
    (ctx : (getPort s p).start.ctx = some e) (bad : readCause p e read ≠ 0) :
    exec (.springbokStartInstant p read) s = .next (springbokFallback (droppedFailing s p e read) p) := by
  simp only [exec, execSpringbokStartInstant, runs, st, quiet, ctx, bad, droppedFailing, Bool.not_true, Bool.not_false,
    Bool.false_eq_true, beq_self_eq_true, Bool.and_self, if_true, if_false] <;> rfl

theorem exec_springbokCheckPass_master (sends : (getPort s p).line.on = true)
    (first : (getPort s p).start.checkPass = false) (role : (getPort s p).role = some .master)
    (margin : marginCheck (getPort s p) = true) :
    exec (.springbokCheckPass p) s = .next (sendCaps (setPort s p { getPort s p with
      start := { (getPort s p).start with checkPass := true } }) p (springbokGen (getPort s p))) := by
  simp [exec, execSpringbokCheckPass, runs, st, sends, first, role, margin]

theorem exec_springbokCheckExpiry :
    exec (.springbokCheckExpiry p) s = .next (springbokFallback s p) := by
  simp [exec, execSpringbokCheckExpiry, runs, st]

end

theorem dropBad_entries (s : State) (p : PortId) (d : Ctx) (cause : Nat) :
    (getDir (dropBad s p d cause) p).entries = (getDir s p).entries.filter fun x => x.entry != d.entry := by
  simp [dropBad, dirDrop]

theorem getPort_droppedFailing (s : State) (p : PortId) (e : Ctx) (read : CtxRead) :
    getPort (droppedFailing s p e read) p = getPort s p := by
  unfold droppedFailing
  split
  · simp [dropBad]
  · rfl

theorem sendCaps_self (s : State) (p : PortId) (gen : BitVec 32) : ∃ info, getPort (sendCaps s p gen) p =
    { getPort s p with start := { (getPort s p).start with capsSent := true }, linkGen := gen, info := info } := by
  refine ⟨(getPort (sendCaps s p gen) p).info, ?_⟩
  simp only [sendCaps, sendInfo, getPort_modPort_self]

theorem silent_sendInfo (s : State) (p : PortId) (type : BitVec 8) (payload : BitVec 64) (c : Option Cmd) :
    Silent p s (sendInfo s p type payload c) := silent_modPort _ _ _

theorem silent_sendCaps (s : State) (p : PortId) (gen : BitVec 32) : Silent p s (sendCaps s p gen) := by
  unfold sendCaps
  exact (silent_sendInfo s p _ _ _).trans (silent_modPort _ p _)

/-- Settles O36: `exec_…` says which state each row leads to, `surveyStart_self` and `loadCoefs_self` what a good start
leaves of the context, `springbokFallback_self` what a failed one does. -/
theorem springbokRows : Obligations.SpringbokRows := by
  unfold Obligations.SpringbokRows
  refine ⟨?good, ?bad, ?passes, ?fails, ?expires⟩
  case good =>
    intro p e read s st quiet ctx good runs
    refine ⟨_, exec_springbokStartInstant_good runs st quiet ctx good, ?_⟩
    rw [surveyStart_self, loadCoefs_self, getPort_modPort_self]
    refine ⟨rfl, ?_, rfl, rfl, rfl, rfl, rfl, st⟩
    simp [contextFrontEnd, startTx]
  case bad =>
    intro p e read s st quiet ctx bad runs
    obtain ⟨st', path, count⟩ := springbokFallback_self (droppedFailing s p e read) p
    rw [getPort_droppedFailing] at count
    refine ⟨_, exec_springbokStartInstant_bad runs st quiet ctx bad, st', path, count, ?_⟩
    have dir : getDir (springbokFallback (droppedFailing s p e read) p) p = getDir (droppedFailing s p e read) p := by
      have store := springbokFallback_onlyIn (droppedFailing s p e read) p .store (by simp)
      simp only [Same] at store
      rw [getDir, store, getDir]
    rw [dir]
    cases held : findCtx s p { partner := e.partner, sig := e.sig } with
    | none => rfl
    | some d => simp [droppedFailing, held, dropBad_entries]
  case passes =>
    intro p s st sends first role margin runs
    obtain ⟨info, self⟩ := sendCaps_self (setPort s p { getPort s p with
      start := { (getPort s p).start with checkPass := true } }) p (springbokGen (getPort s p))
    refine ⟨_, exec_springbokCheckPass_master runs st sends first role margin, ?_, ?_, ?_,
      ((silent_setPort s p _).trans (silent_sendCaps _ p _)).others, onlyIn_of_pick (by simp)⟩ <;>
      rw [self, getPort_setPort_self]
  case fails =>
    intro p s margin
    exact ⟨s, by simp [exec, execSpringbokCheckPass, margin], rfl⟩
  case expires =>
    intro p s st runs
    obtain ⟨st', path, count⟩ := springbokFallback_self s p
    exact ⟨_, exec_springbokCheckExpiry runs st, st', path, count,
      ((silent_countPers s p _).trans (silent_enterT0 _ p _ _)).others⟩

/-! ### Tahr: T0 to T3 (R116 to R123) -/

/-- A burst, reply or window begins on a port (R116): its line alone changes. -/
theorem sendTrain_self (s : State) (p : PortId) (word : BitVec 32) (us : Nat) :
    getPort (sendTrain s p word us) p = startTrain p word us (getPort s p) := getPort_modPort_self _ _ _

/-- A port that leaves T0 for T1 is in the window it starts in, every part in ACQUISITION (R82, R118). -/
theorem enterT1_self (s : State) (p : PortId) (window : Nat) :
    (getPort (enterT1 s p window) p).st = .t1 ∧ (getPort (enterT1 s p window) p).start.window = window ∧
    (getPort (enterT1 s p window) p).mode = (getPort s p).mode ∧
    ∀ i, (quadGet (getPort (enterT1 s p window) p).pairs i).canLevel = 0 := by
  obtain ⟨time, lane, seen, moved⟩ := setSt_self s p .t1
  rw [enterT1, getPort_modPort_self, surveyStart_self, moved]
  refine ⟨rfl, rfl, rfl, fun i => ?_⟩
  rw [quadGet_map]

/-- Full duplex begins with the framed format and fresh InfoFields (R122). -/
theorem enterT2_self (s : State) (p : PortId) : (getPort (enterT2 s p) p).st = .t2 ∧
    (getPort (enterT2 s p) p).line.on = true ∧ (getPort (enterT2 s p) p).info = Info.fresh := by
  obtain ⟨time, lane, seen, moved⟩ := setSt_self s p .t2
  rw [enterT2, getPort_modPort_self, moved]
  exact ⟨rfl, rfl, rfl⟩

theorem silent_enterT2 (s : State) (p : PortId) : Silent p s (enterT2 s p) :=
  (silent_setSt s p .t2).trans (silent_modPort _ p _)

/-- The end of a T1 window changes no record of its windows but the figures to compare the next ones with. -/
theorem trainingEnd_start (on : Nat → Bool) (x : Port) : ∃ own eq,
    (trainingEnd on x).start = { x.start with ownRes := own, eqRes := eq } := by
  unfold trainingEnd
  split
  · exact ⟨_, _, rfl⟩
  · exact ⟨_, _, rfl⟩

theorem trainingEnd_keeps (on : Nat → Bool) (x : Port) : (trainingEnd on x).st = x.st ∧
    (trainingEnd on x).role = x.role ∧ (trainingEnd on x).mode = x.mode := by
  unfold trainingEnd
  split <;> exact ⟨rfl, rfl, rfl⟩

section
variable {s : State} {p : PortId}

section
variable (runs : herdsRun s = true)
include runs

theorem exec_t0CalibrationDone (st : (getPort s p).st = .t0) : ∃ pairs,
    exec (.t0CalibrationDone p) s = .next (setPort (freeNat s).2 p { getPort s p with
      start := { (getPort s p).start with calibrated := true }, pairs := pairs }) := by
  exact ⟨_, by simp only [exec, execT0CalibrationDone, runs, st, Bool.not_true, Bool.false_eq_true, if_false,
    beq_self_eq_true, if_true]; rfl⟩

theorem exec_t0Burst (st : (getPort s p).st = .t0) (calibrated : (getPort s p).start.calibrated = true)
    (role : (getPort s p).role = some .master) : exec (.t0Burst p) s = .next
      (if (getPort s p).start.locked then sendTrain (enterT1 s p 1) p (trainWord 2 1 false false false) 1970
       else sendTrain s p (trainWord 1 0 false false false) 1000) := by
  simp [exec, execT0Burst, runs, st, calibrated, role]

/-- A port that has locked on its partner's training signal in T0 (R118). -/
def t0Locked (x : Port) : Port :=
  { x with start := { x.start with locked := true }, pairs := quadMap (pairStart (paramGet x.live 0x10)) x.pairs }

theorem exec_t0SlaveReply (st : (getPort s p).st = .t0) (calibrated : (getPort s p).start.calibrated = true)
    (locked : trainLocked (getPort s p) = true) : exec (.t0SlaveReply p) s = .next
      (if (getPort s p).role == some .slave then
        sendTrain (setPort s p (t0Locked (getPort s p))) p (trainWord 1 0 true false false) 900
      else setPort s p (t0Locked (getPort s p))) := by
  have acts : ((getPort s p).st == .t0 && (getPort s p).start.calibrated && trainLocked (getPort s p) &&
      herdsRun s) = true := by simp [runs, st, calibrated, locked]
  simp only [exec, execT0SlaveReply, acts, if_true]
  rfl

theorem exec_trainWordAccepted_leavesT0 {a : BitVec 32} (st : (getPort s p).st = .t0)
    (role : (getPort s p).role = some .slave) (calibrated : (getPort s p).start.calibrated = true)
    (ok : trainOk a a = true) (phase : fld a 28 4 = 2) :
    exec (.trainWordAccepted p a a) s = .next (enterT1 s p (fld a 20 8)) := by
  simp [exec, execTrainWordAccepted, runs, st, role, calibrated, ok, phase]

theorem exec_trainWordAccepted_inT1 {a : BitVec 32} (st : (getPort s p).st = .t1)
    (ok : trainOk a a = true) (phase : fld a 28 4 = 2) :
    exec (.trainWordAccepted p a a) s = .next (setPort s p { getPort s p with start := { (getPort s p).start with
      tracking := a.getLsbD 18
      lastAt := if a.getLsbD 17 then fld a 20 8 else (getPort s p).start.lastAt } }) := by
  simp [exec, execTrainWordAccepted, runs, st, ok, phase]

/-- A port at the boundary after its window (R120). -/
def windowEnded (s : State) (p : PortId) : Port := trainingEnd (fun a => (aggrOf s (herdOf p) a).on) (getPort s p)

omit runs in
theorem windowEnded_start : ∃ own eq, (windowEnded s p).start = { (getPort s p).start with ownRes := own, eqRes := eq } :=
  trainingEnd_start _ _

/-- The next T1 window of a port, and whether it is the port's own (R120). -/
def windowNext (w : Nat) (history : List (Bool × Bool)) (last : Nat) (x : Port) : Port :=
  { x with start := { x.start with window := w, history := history, tracking := false, lastAt := last } }

/-- A port as its next T1 window begins. -/
def windowBegun (s : State) (p : PortId) (x : Port) : State := setPort (setPort s p (windowEnded s p)) p x

def windowMine (x : Port) (w : Nat) : Bool := if x.role == some .master then w % 2 == 1 else w % 2 == 0

/-- T1 ends two windows after LAST, or with window 30 (R121). -/
theorem exec_t1WindowStart_last (st : (getPort s p).st = .t1)
    (last : ((getPort s p).start.lastAt ≠ 0 ∧ (getPort s p).start.lastAt + 2 ≤ (getPort s p).start.window + 1) ∨
      31 ≤ (getPort s p).start.window + 1) :
    exec (.t1WindowStart p) s = .next (enterT2 (setPort s p (windowEnded s p)) p) := by
  obtain ⟨own, eq, start⟩ := windowEnded_start (s := s) (p := p)
  have acts : ((getPort s p).st == .t1 && herdsRun s) = true := by simp [runs, st]
  have ends : (decide ((windowEnded s p).start.lastAt ≠ 0) &&
      decide ((windowEnded s p).start.lastAt + 2 ≤ (windowEnded s p).start.window + 1) ||
      decide (31 ≤ (windowEnded s p).start.window + 1)) = true := by
    rw [start]
    simpa using last
  unfold windowEnded at ends ⊢
  simp only [exec, execT1WindowStart, acts, ends, if_true]

/-- Before LAST and window 31 the next window follows; in one of its own the port sends (R120). A slave never sends
LAST (R121). -/
theorem exec_t1WindowStart_next (st : (getPort s p).st = .t1) (none_ : (getPort s p).start.lastAt = 0)
    (most : (getPort s p).start.window + 1 < 31) (later : (getPort s p).start.window ≠ 1) : ∃ history at_ last,
    ((getPort s p).role = some .slave → last = false) ∧
    exec (.t1WindowStart p) s = .next
      (if windowMine (windowEnded s p) ((windowEnded s p).start.window + 1) then
        sendTrain (windowBegun s p (windowNext ((windowEnded s p).start.window + 1) history at_ (windowEnded s p))) p
          (trainWord 2 ((windowEnded s p).start.window + 1) false (outOfAcq (windowEnded s p)) last) 1970
      else windowBegun s p (windowNext ((windowEnded s p).start.window + 1) history at_ (windowEnded s p))) := by
  obtain ⟨own, eq, start⟩ := windowEnded_start (s := s) (p := p)
  obtain ⟨-, role, -⟩ := trainingEnd_keeps (fun a => (aggrOf s (herdOf p) a).on) (getPort s p)
  have acts : ((getPort s p).st == .t1 && herdsRun s) = true := by simp [runs, st]
  have goesOn : (decide ((windowEnded s p).start.lastAt ≠ 0) &&
      decide ((windowEnded s p).start.lastAt + 2 ≤ (windowEnded s p).start.window + 1) ||
      decide (31 ≤ (windowEnded s p).start.window + 1)) = false := by
    rw [start]
    simp [none_]
    omega
  have second (mine : Bool) : (mine && (windowEnded s p).start.window + 1 == 2) = false := by
    rw [start]
    simp [later]
  unfold windowBegun windowEnded
  unfold windowEnded at goesOn second
  simp only [exec, execT1WindowStart, acts, goesOn, second, if_true, if_false, Bool.false_eq_true]
  refine ⟨_, _, _, fun slave => ?_, rfl⟩
  rw [role, slave]
  rfl

end

theorem exec_t0SlaveReply_unlocked (locked : trainLocked (getPort s p) = false) :
    exec (.t0SlaveReply p) s = .next s := by
  simp [exec, execT0SlaveReply, locked]

theorem exec_trainWordAccepted_bad {a b : BitVec 32} (bad : trainOk a b = false) :
    exec (.trainWordAccepted p a b) s = .next s := by
  simp [exec, execTrainWordAccepted, bad]

theorem exec_t2CriteriaMet_master (runs : herdsRun s = true) (st : (getPort s p).st = .t2)
    (role : (getPort s p).role = some .master) (met : t2Met (getPort s p) = true) : exec (.t2CriteriaMet p) s = .next
      (sendCaps (draw (setSt s p .t3)).2 p ((draw (setSt s p .t3)).1.setWidth 32)) := by
  simp [exec, execT2CriteriaMet, runs, st, role, met]

theorem exec_t2CriteriaMet_not (met : t2Met (getPort s p) = false) : exec (.t2CriteriaMet p) s = .next s := by
  simp [exec, execT2CriteriaMet, met]

end

/-- Settles O37: `exec_…` says which state each row leads to, `enterT1_self`, `enterT2_self` and `sendTrain_self` what a
phase begins with. -/
theorem tahrPhases : Obligations.TahrPhases := by
  unfold Obligations.TahrPhases
  refine ⟨?calibrated, ?burst, ?t1, ?reply, ?locks, ?unlocked, ?leaves, ?tracks, ?bad, ?next, ?last, ?met, ?notMet⟩
  case calibrated =>
    intro p s st runs
    obtain ⟨pairs, answer⟩ := exec_t0CalibrationDone runs st
    refine ⟨_, answer, ?_, ?_, (silent_setPort _ p _).others, onlyIn_of_pick (by simp)⟩ <;> rw [getPort_setPort_self]
    exact st
  case burst =>
    intro p s st calibrated role runs locked
    have answer := exec_t0Burst runs st calibrated role
    rw [locked, if_neg Bool.false_ne_true] at answer
    refine ⟨_, answer, ?_, ?_, (silent_modPort s p _).others, modPort_onlyIn _ _ _⟩ <;> rw [sendTrain_self] <;> rfl
  case t1 =>
    intro p s st calibrated role runs locked
    have answer := exec_t0Burst runs st calibrated role
    rw [locked, if_pos rfl] at answer
    obtain ⟨st', window, mode, level⟩ := enterT1_self s p 1
    refine ⟨_, answer, ?_⟩
    rw [sendTrain_self]
    refine ⟨st', window, ?_, level 2⟩
    rw [startTrain, mode]
  case reply =>
    intro p s st calibrated runs locked role
    have answer := exec_t0SlaveReply runs st calibrated locked
    rw [role, if_pos (by decide)] at answer
    refine ⟨_, answer, ?_, ?_, ((silent_setPort s p _).trans (silent_modPort _ p _)).others, ?_⟩
    · rw [sendTrain_self, getPort_setPort_self]
      rfl
    · rw [sendTrain_self, getPort_setPort_self]
      rfl
    · exact onlyIn_of_pick (by simp)
  case locks =>
    intro p s st calibrated runs locked role
    have answer := exec_t0SlaveReply runs st calibrated locked
    rw [role, if_neg (by decide)] at answer
    refine ⟨_, answer, ?_, ?_, setPort_frame s p _⟩ <;> rw [getPort_setPort_self] <;> rfl
  case unlocked =>
    intro p s locked
    exact ⟨s, exec_t0SlaveReply_unlocked locked, rfl⟩
  case leaves =>
    intro p a s st role calibrated runs ok phase
    obtain ⟨st', window, -, level⟩ := enterT1_self s p (fld a 20 8)
    exact ⟨_, exec_trainWordAccepted_leavesT0 runs st role calibrated ok phase, st', window, level 1⟩
  case tracks =>
    intro p a s st runs ok phase
    refine ⟨_, exec_trainWordAccepted_inT1 runs st ok phase, ?_, ?_, setPort_frame s p _⟩ <;> rw [getPort_setPort_self]
    exact st
  case bad =>
    intro p a b s bad
    exact ⟨s, exec_trainWordAccepted_bad bad, rfl⟩
  case next =>
    intro p s st runs none_ most later
    obtain ⟨history, at_, last, never, answer⟩ := exec_t1WindowStart_next runs st none_ most later
    obtain ⟨own, eq, start⟩ := windowEnded_start (s := s) (p := p)
    obtain ⟨st', role, mode⟩ := trainingEnd_keeps (fun a => (aggrOf s (herdOf p) a).on) (getPort s p)
    have window : (windowEnded s p).start.window = (getPort s p).start.window := by rw [start]
    refine ⟨_, answer, ?_⟩
    rw [window]
    split
    next mine =>
      rw [sendTrain_self, windowBegun, getPort_setPort_self]
      refine ⟨st'.trans st, rfl, rfl, fun slave odd => ?_, (((silent_setPort s p _).trans (silent_setPort _ p _)).trans
        (silent_modPort _ p _)).others⟩
      rw [never slave]
      exact congrArg (fun m => some (_, symbolsIn m 1970)) mode
    next mine =>
      rw [windowBegun, getPort_setPort_self]
      refine ⟨st'.trans st, rfl, rfl, fun slave odd => absurd ?_ mine, ((silent_setPort s p _).trans
        (silent_setPort _ p _)).others⟩
      have even : ((getPort s p).start.window + 1) % 2 = 0 := by omega
      rw [windowMine, windowEnded, role, slave, even]
      rfl
  case last =>
    intro p s st runs last
    obtain ⟨st', on, info⟩ := enterT2_self (setPort s p (windowEnded s p)) p
    exact ⟨_, exec_t1WindowStart_last runs st last, st', on, info,
      ((silent_setPort s p _).trans (silent_enterT2 _ p)).others⟩
  case met =>
    intro p s st role met runs
    obtain ⟨time, lane, seen, moved⟩ := setSt_self s p .t3
    obtain ⟨info, self⟩ := sendCaps_self (draw (setSt s p .t3)).2 p ((draw (setSt s p .t3)).1.setWidth 32)
    refine ⟨_, exec_t2CriteriaMet_master runs st role met, ?_, ?_, ?_,
      (((silent_setSt s p .t3).trans (silent_draw _ p)).trans (silent_sendCaps _ p _)).others⟩
    · rw [self, getPort_draw, moved]
    · rw [self]
    · have fresh : (setSt s p .t3).fresh = s.fresh :=
        onlyIn_of_pick (m := [.rails, .dies, .ports, .herds, .io]) (by simp) .fresh (by simp)
      exact congrArg (· + 1) fresh
  case notMet =>
    intro p s met
    exact ⟨s, exec_t2CriteriaMet_not met, rfl⟩

/-! ### Attempts that fail (R128 to R131) -/

/-- What a port remembers of its attempts when a new one begins: the last abort, their number, and whether one of them
had a page of the partner's. -/
def history (x : Port) : BitVec 8 × Nat × Bool := (x.lastAbort, x.attempts, x.partnerPage)

theorem history_eq {x : Port} {abort : BitVec 8} {tries : Nat} {seen : Bool} (h : history x = (abort, tries, seen)) :
    x.lastAbort = abort ∧ x.attempts = tries ∧ x.partnerPage = seen := by
  simpa only [history, Prod.mk.injEq] using h

/-- A new attempt is open before its base pages, and forgets nothing (R101). -/
theorem newAttempt_opens (s : State) (p : PortId) : (getPort (newAttempt s p) p).st = .negotiate ∧
    (getPort (newAttempt s p) p).neg.open_ = true ∧ (getPort (newAttempt s p) p).neg.basePages = false ∧
    history (getPort (newAttempt s p) p) = history (getPort s p) := by
  obtain ⟨time, lane, seen, moved⟩ := setSt_self (draw s).2 p .negotiate
  simp [newAttempt, drawNeg, moved, lineQuiet, history, Neg.none]

section
variable (s : State) (p : PortId) (cause : Option Nat) (seen : Bool)

/-- A failed attempt, counted, up to its event where it has one (R128, R129). -/
def attemptCounted : State :=
  match cause with
  | some k => postAbort (countAttempt s p seen) p k (getPort s p).st ((getPort s p).attempts + 1)
      (if exhausted (getPort (countAttempt s p seen) p) then .hold else .negotiate)
  | none => countAttempt s p seen

theorem countedFail_eq : countedFail s p cause seen =
    if exhausted (getPort (countAttempt s p seen) p) then
      exhaust (attemptCounted s p cause seen) p (getPort s p).st ((getPort s p).attempts + 1)
    else newAttempt (attemptCounted s p cause seen) p := by
  cases cause <;> rfl

theorem getPort_countAttempt : getPort (countAttempt s p seen) p =
    { getPort s p with attempts := (getPort s p).attempts + 1, partnerPage := (getPort s p).partnerPage || seen } :=
  getPort_modPort_self _ _ _

/-- The count reaches NEG_ATTEMPTS, which 0 never is (R130). -/
theorem exhausted_iff : exhausted (getPort (countAttempt s p seen) p) = true ↔
    attPar (getPort s p) 0x01 ≠ 0 ∧ attPar (getPort s p) 0x01 ≤ (getPort s p).attempts + 1 := by
  rw [getPort_countAttempt, exhausted, Bool.and_eq_true, decide_eq_true_iff, decide_eq_true_iff]
  rfl

theorem attemptCounted_history : history (getPort (attemptCounted s p cause seen) p) =
    ((cause.map (BitVec.ofNat 8)).getD (getPort s p).lastAbort, (getPort s p).attempts + 1,
      (getPort s p).partnerPage || seen) := by
  cases cause with
  | none => rw [attemptCounted, getPort_countAttempt]; rfl
  | some k => rw [attemptCounted, postAbort_self, getPort_countAttempt]; rfl

theorem attemptCounted_others : PortsBut p s (attemptCounted s p cause seen) := by
  intro q n
  cases cause with
  | none => exact getPort_modPort_ne _ _ n
  | some k => exact (postAbort_others _ p _ _ _ _ q n).trans (getPort_modPort_ne _ _ n)

/-- TRAINING_ABORTED is posted of a failure with a cause (R128). -/
theorem posted_attemptCounted : Posted s (attemptCounted s p cause seen) (portSrc p 2) cause.toList.length := by
  cases cause with
  | none => exact (BitVec.add_zero _).symm
  | some k => exact (silent_modPort s p _).posted (posted_postAbort _ p _ _ _ _)

end

/-- A failed attempt while attempts are left: it is counted, and another one opens (R129, R130). -/
theorem countedFail_opens {s : State} {p : PortId} (cause : Option Nat) (seen : Bool)
    (left : attPar (getPort s p) 0x01 = 0 ∨ (getPort s p).attempts + 1 < attPar (getPort s p) 0x01) :
    (getPort (countedFail s p cause seen) p).st = .negotiate ∧
    (getPort (countedFail s p cause seen) p).neg.open_ = true ∧
    history (getPort (countedFail s p cause seen) p) =
      ((cause.map (BitVec.ofNat 8)).getD (getPort s p).lastAbort, (getPort s p).attempts + 1,
        (getPort s p).partnerPage || seen) ∧
    Posted s (countedFail s p cause seen) (portSrc p 2) cause.toList.length ∧
    PortsBut p s (countedFail s p cause seen) := by
  have again : exhausted (getPort (countAttempt s p seen) p) ≠ true := by
    rw [Ne, exhausted_iff]
    omega
  rw [countedFail_eq, if_neg again]
  obtain ⟨st, opens, -, kept⟩ := newAttempt_opens (attemptCounted s p cause seen) p
  have quiet := silent_newAttempt (attemptCounted s p cause seen) p
  exact ⟨st, opens, kept.trans (attemptCounted_history s p cause seen),
    quiet.after (posted_attemptCounted s p cause seen),
    fun q n => (quiet.others q n).trans (attemptCounted_others s p cause seen q n)⟩

/-! ### Pages (R98 to R105) -/

section
variable {s : State} {p : PortId}

theorem setNeg_self (s : State) (p : PortId) (n : Neg) : getPort (setNeg s p n) p = { getPort s p with neg := n } :=
  getPort_modPort_self _ _ _

theorem silent_setNeg (s : State) (p : PortId) (n : Neg) : Silent p s (setNeg s p n) := silent_modPort _ _ _

/-- A page that leaves the device is an output and nothing else (R98, R436). -/
theorem sendPage_free (free : s.pwr.padsHeld = false) (bits : BitVec 48) :
    sendPage s p bits = emit s (pageOut p bits (Config.pageBit s.mono bits)) := by
  rw [sendPage, free, if_neg Bool.false_ne_true]

/-- No page of the offer depends on which one is being sent. -/
theorem offerPage_page (p : PortId) (n : Neg) (page k : Nat) : offerPage p { n with page := page } k = offerPage p n k := by
  unfold offerPage
  split <;> rfl

/-- What sending page k of its offer leaves of an attempt that holds n. -/
structure SendsOffer (s t : State) (p : PortId) (n : Neg) (k : Nat) : Prop where
  neg    : (getPort t p).neg = { n with page := k }
  bus    : t.io.bus = pageOut p (offerPage p (getPort t p).neg k)
    (Config.pageBit s.mono (offerPage p (getPort t p).neg k)) :: s.io.bus
  others : PortsBut p s t

theorem sendOffer_eq (free : s.pwr.padsHeld = false) (k : Nat) :
    sendOffer s p k = emit (setNeg s p { (getPort s p).neg with page := k })
      (pageOut p (offerPage p (getPort s p).neg k) (Config.pageBit s.mono (offerPage p (getPort s p).neg k))) :=
  sendPage_free (s := setNeg s p { (getPort s p).neg with page := k }) free _

theorem sendOffer_sends (free : s.pwr.padsHeld = false) (k : Nat) :
    SendsOffer s (sendOffer s p k) p (getPort s p).neg k := by
  have self : (getPort (sendOffer s p k) p).neg = { (getPort s p).neg with page := k } := by
    rw [sendOffer_eq free, getPort_emit, setNeg_self]
  refine ⟨self, ?_, fun q m => ?_⟩
  · rw [self, offerPage_page, sendOffer_eq free]
    rfl
  · rw [sendOffer_eq free, getPort_emit, (silent_setNeg _ p _).others q m]

/-- The attempt holds n as the page is sent. -/
theorem sendOffer_setNeg_sends (free : s.pwr.padsHeld = false) (n : Neg) (k : Nat) :
    SendsOffer s (sendOffer (setNeg s p n) p k) p n k := by
  have sent := sendOffer_sends (s := setNeg s p n) (p := p) free k
  rw [setNeg_self] at sent
  exact ⟨sent.neg, sent.bus, fun q m => (sent.others q m).trans ((silent_setNeg s p n).others q m)⟩

/-! ### The rows of an attempt (R101, R103) -/

section
variable (opens : negOpen (getPort s p) = true) (runs : herdsRun s = true)
include opens runs

theorem exec_negBreakLinkExpiry (first : (getPort s p).neg.basePages = false) :
    exec (.negBreakLinkExpiry p) s = .next
      (sendPage (setNeg s p { (getPort s p).neg with basePages := true }) p (basePageBits (getPort s p).neg)) := by
  simp [exec, execNegBreakLinkExpiry, opens, runs, first]

theorem exec_negAttemptExpiry : exec (.negAttemptExpiry p) s = .next
    (if (getPort s p).neg.gotBase then countedFail s p (some 0x06) true else countedFail s p none false) := by
  simp [exec, execNegAttemptExpiry, opens, runs]

section
variable {page : BasePage} (pages : (getPort s p).neg.basePages = true) (selector : page.selector = 1)
include pages selector

theorem exec_basePageReceived_own (own : page.nonce = (getPort s p).neg.nonce) :
    exec (.basePageReceived p page) s = .next (countedFail s p (some 0x04) (getPort s p).neg.gotBase) := by
  simp [exec, execBasePageReceived, opens, runs, pages, selector, own]

theorem exec_basePageReceived_stale (other : page.nonce ≠ (getPort s p).neg.nonce) (ack : page.ack = true)
    (echoed : page.echoed ≠ (getPort s p).neg.nonce) :
    exec (.basePageReceived p page) s = .next (newAttempt s p) := by
  simp [exec, execBasePageReceived, opens, runs, pages, selector, other, ack, echoed]

end

end

/-- An attempt with the partner's first base page: the partner's nonce, and this end's own offer (R99, R105, R106). -/
def firstPage (s : State) (p : PortId) (page : BasePage) : Neg :=
  { (getPort s p).neg with
    gotBase := true, pNonce := page.nonce, myModes := herdOffer (getHerd s (herdOf p))
    myModeFixed := modeIsFixed (getHerd s (herdOf p)), myFecs := BitVec.ofNat 2 (attPar (getPort s p) 0x05) }

theorem exec_basePageReceived_first {page : BasePage} (opens : negOpen (getPort s p) = true)
    (runs : herdsRun s = true) (pages : (getPort s p).neg.basePages = true) (selector : page.selector = 1)
    (other : page.nonce ≠ (getPort s p).neg.nonce) (more : page.np = true)
    (answers : page.ack = false ∨ page.echoed = (getPort s p).neg.nonce) (first : (getPort s p).neg.gotBase = false) :
    exec (.basePageReceived p page) s = .next
      (sendOffer (sendPage (setNeg s p (firstPage s p page)) p (basePageBits (firstPage s p page))) p 0) := by
  have current : (page.ack && page.echoed != (getPort s p).neg.nonce) = false := by
    rcases answers with h | h <;> simp [h]
  have acts : (negOpen (getPort s p) && (getPort s p).neg.basePages && page.selector == 1 && herdsRun s) = true := by
    simp [opens, runs, pages, selector]
  simp only [exec, execBasePageReceived, acts, beq_eq_false_iff_ne.mpr other, current, more, first, if_true,
    Bool.false_eq_true, if_false, Bool.not_true]
  rfl

/-! ### Next pages (R103, R105) -/

/-- A port with an attempt in which the partner's base page has come takes next pages; with the message page of the
offer, the pages of the offer as well (R103). -/
structure TakesPages (s : State) (p : PortId) : Prop where
  opens : negOpen (getPort s p) = true
  base  : (getPort s p).neg.gotBase = true
  runs  : herdsRun s = true

section
variable {reads : List (CtxKey × CtxRead)} (takes : TakesPages s p)
include takes

theorem TakesPages.guard : (!(negOpen (getPort s p) && (getPort s p).neg.gotBase && herdsRun s)) = false := by
  simp [takes.opens, takes.base, takes.runs]

theorem exec_nextPageReceived_otherMessage {k : BitVec 11} {u : BitVec 32} (other : k ≠ 5) :
    exec (.nextPageReceived p (.message k u) reads) s = .next (sendOffer s p (getPort s p).neg.page) := by
  have unknown : (k == 5 && u.setWidth 24 == 0x5AC07E && (u >>> 24) == 1) = false := by
    rw [beq_eq_false_iff_ne.mpr other]
    rfl
  simp only [exec, execNextPageReceived, takes.guard, unknown, Bool.false_eq_true, if_false]

theorem exec_nextPageReceived_offerMessage :
    exec (.nextPageReceived p (.message 5 0x015AC07E) reads) s = .next
      (sendOffer (setNeg s p { (getPort s p).neg with gotOffer := true }) p 1) := by
  simp only [exec, execNextPageReceived, takes.guard, Bool.false_eq_true, if_false]
  rfl

section
variable {d : BitVec 11} {u : BitVec 32} (offer : (getPort s p).neg.gotOffer = true)
include offer

theorem exec_nextPageReceived_page1 : exec (.nextPageReceived p (.unformatted 1 d u) reads) s = .next
    (sendOffer (setNeg s p { (getPort s p).neg with version := d.setWidth 8, tag := u.setWidth 39 }) p 2) := by
  simp only [exec, execNextPageReceived, takes.guard, offer, Bool.false_eq_true, if_false, Bool.not_true]
  rfl

/-- An attempt with the partner's UNP2 (R103, Table 2). -/
def withPage2 (n : Neg) (d : BitVec 11) (u : BitVec 32) : Neg :=
  { n with
    tag := (n.tag &&& 0xFFFFFFFF) ||| ((d.setWidth 7).setWidth 39 <<< 32), port := u.setWidth 9
    modes := (u >>> 9).setWidth 5, modeFixed := u.getLsbD 14, fecs := (u >>> 15).setWidth 2 }

theorem exec_nextPageReceived_page2 : exec (.nextPageReceived p (.unformatted 2 d u) reads) s = .next
    (sendOffer (setNeg s p (loadRole s p (withPage2 (getPort s p).neg d u))) p 3) := by
  unfold withPage2
  simp only [exec, execNextPageReceived, takes.guard, offer, Bool.false_eq_true, if_false, Bool.not_true]
  rfl

theorem exec_nextPageReceived_page4 : exec (.nextPageReceived p (.unformatted 4 d u) reads) s = .next
    (sendOffer (setNeg s p { (getPort s p).neg with ctxValid := d.getLsbD 0, pSig := u }) p 5) := by
  simp only [exec, execNextPageReceived, takes.guard, offer, Bool.false_eq_true, if_false, Bool.not_true]
  rfl

theorem exec_nextPageReceived_page5 : exec (.nextPageReceived p (.unformatted 5 d u) reads) s = .next
    (resolveNeg (sendOffer (setNeg s p { (getPort s p).neg with pGen := u }) p 6) p) := by
  simp only [exec, execNextPageReceived, takes.guard, offer, Bool.false_eq_true, if_false, Bool.not_true]
  rfl

end

end

theorem exec_dmeReceived_hold (runs : herdsRun s = true) (st : (getPort s p).st = .hold) :
    exec (.dmeReceived p) s = .next (setPort s p { getPort s p with partnerSeen := true }) := by
  have acts : ((getPort s p).st == .hold) = true := by simp [st]
  simp only [exec, execDmeReceived, runs, acts, Bool.not_true, Bool.false_eq_true, if_false, if_true]

theorem exec_dmeReceived_t0 (runs : herdsRun s = true) (st : (getPort s p).st = .t0) :
    exec (.dmeReceived p) s = .next (countedFail s p none true) := by
  simp [exec, execDmeReceived, runs, st, dmeRestart]

end

/-! ### What writes completions and outputs raises no event (R297) -/

theorem msixSend_gens (s : State) (v : Nat) : (msixSend s v).io.gens = s.io.gens := by
  unfold msixSend
  split
  · split <;> rfl
  · rfl

theorem vecCheck_gens (s : State) (v : Nat) : (vecCheck s v).io.gens = s.io.gens := by
  unfold vecCheck
  simp only []
  split
  · rfl
  · split
    · exact msixSend_gens _ _
    · rfl

theorem ringRequest_gens (s : State) (r : RingId) : (ringRequest s r).io.gens = s.io.gens := by
  unfold ringRequest
  simp only []
  split
  · exact vecCheck_gens _ _
  · split
    · exact vecCheck_gens _ _
    · rfl

theorem putRecord_gens (s : State) (q : RingId) (r : Completion) : (putRecord s q r).io.gens = s.io.gens :=
  ringRequest_gens _ _

theorem putCompletion_gens (s : State) (q : RingId) (r : Completion) :
    (putCompletion s q r).io.gens = s.io.gens := by
  unfold putCompletion
  simp only []
  split
  · exact putRecord_gens _ _ _
  · rfl

/-! ### Steps beside the links -/

/-- A port but for its diagnostics. -/
def undiagnosed (x : Port) : Port := { x with diag := Diag.none }

/-- A step of diagnostics or rings leaves the links alone: ports but for their diagnostics, and of port events it posts
DIAG_DONE (9) alone. -/
structure Beside (s t : State) : Prop where
  port : ∀ q, undiagnosed (getPort t q) = undiagnosed (getPort s q)
  gens : ∀ q n, n < 16 → n ≠ 9 → genOf t (portSrc q n) = genOf s (portSrc q n)

theorem portSrc_lt (p : PortId) {n : Nat} (small : n < 16) : portSrc p n < 8192 := by
  unfold portSrc
  omega

theorem portSrc_ne {p q : PortId} {m n : Nat} (hm : m < 16) (hn : n < 16) (other : m ≠ n) :
    portSrc p m ≠ portSrc q n := by
  unfold portSrc
  omega

section
variable {s t u : State}

theorem Beside.refl : Beside s s := ⟨fun _ => rfl, fun _ _ _ _ => rfl⟩

theorem Beside.trans (h : Beside s t) (k : Beside t u) : Beside s u :=
  ⟨fun q => (k.port q).trans (h.port q), fun q n a b => (k.gens q n a b).trans (h.gens q n a b)⟩

/-- A definition that writes no port and posts nothing. -/
theorem Beside.of_ports (ports : t.ports = s.ports) (gens : t.io.gens = s.io.gens) : Beside s t :=
  ⟨fun q => by simp only [getPort, ports], fun _ _ _ _ => genOf_of_gens gens _⟩

theorem beside_modPort {p : PortId} {f : Port → Port} (h : ∀ x, undiagnosed (f x) = undiagnosed x) :
    Beside s (modPort s p f) := by
  refine ⟨fun q => ?_, fun _ _ _ _ => rfl⟩
  by_cases e : q = p
  · subst e
    rw [getPort_modPort_self, h]
  · rw [getPort_modPort_ne _ _ e]

theorem beside_modHerd (h : HerdId) (f : Herd → Herd) : Beside s (modHerd s h f) := .of_ports rfl rfl

/-! Rings and buffers. -/

theorem beside_setRing (r : RingId) (x : Ring) : Beside s (setRing s r x) := .of_ports rfl rfl

theorem beside_modRing (r : RingId) (f : Ring → Ring) : Beside s (modRing s r f) := beside_setRing _ _

theorem beside_emit (b : Bus) : Beside s (emit s b) := .of_ports rfl rfl

theorem beside_completeBuf (kind : BitVec 3) (k : Taken) (status : BitVec 8) (bytes : Nat) :
    Beside s (completeBuf s kind k status bytes) :=
  .of_ports (onlyIn_of_pick (m := [.io]) (by simp) .ports (by simp)) (putCompletion_gens _ _ _)

theorem beside_popBuf (r : RingId) (d : DataDesc) (rest : List DataDesc) : Beside s (popBuf s r d rest).2 :=
  beside_setRing _ _

theorem beside_skipBad (isIn : Bool) (r : RingId) (l : List DataDesc) (s : State) :
    Beside s (skipBad isIn r l s) := by
  induction l generalizing s with
  | nil => exact .refl
  | cons d rest ih =>
    unfold skipBad
    split
    · exact .refl
    · exact ((beside_popBuf r d rest).trans (beside_completeBuf _ _ _ _)).trans (ih _)

theorem beside_cleanHead (r : RingId) : Beside s (cleanHead s r) := beside_skipBad _ _ _ _

theorem beside_takeBuf (ring : Option RingId) (need : Nat) : Beside s (takeBuf s ring need).st := by
  unfold takeBuf
  split
  · exact .refl
  · rename_i r
    simp only []
    refine (beside_cleanHead r).trans ?_
    split
    · exact .refl
    · split
      · exact .refl
      · exact ((beside_popBuf _ _ _).trans (beside_modRing _ _)).trans (beside_cleanHead r)

theorem beside_finishIn (k : Taken) (bytes : Nat) (fs : List Fld) : Beside s (finishIn s k bytes fs) := by
  unfold finishIn
  split
  · exact ((beside_modRing _ _).trans (beside_emit _)).trans (beside_completeBuf _ _ _ _)
  · exact .refl

theorem beside_returnShort (need : Nat) (r : RingId) (l : List DataDesc) (s : State) :
    Beside s (returnShort need r l s) := by
  induction l generalizing s with
  | nil => exact .refl
  | cons d rest ih =>
    unfold returnShort
    split
    · exact .refl
    · exact ((beside_popBuf r d rest).trans (beside_completeBuf _ _ _ _)).trans (ih _)

/-! Events. -/

/-- DIAG_DONE (9). -/
theorem beside_bumpGen (q : PortId) : Beside s (bumpGen s (portSrc q 9)) :=
  ⟨fun _ => rfl, fun _ _ small diag => genOf_bumpGen_ne s (portSrc_ne small (by decide) diag)⟩

theorem beside_pushPort (p : PortId) (e : Event) : Beside s (pushPort s p e) := by
  have ports : (pushPort s p e).ports = s.ports := onlyIn_of_pick (m := [.io]) (by simp) .ports (by simp)
  exact ⟨fun q => by simp only [getPort, ports], fun q n small _ => genOf_pushPort s p e (portSrc_lt q small)⟩

theorem beside_postPort (p : PortId) (payload : List Fld) : Beside s (postPort s p 9 payload) :=
  (beside_bumpGen p).trans (beside_pushPort p _)

theorem beside_postNaming (p : PortId) (payload : List Fld) (k : Option Taken) :
    Beside s (postNaming s p 9 payload k) := (beside_bumpGen p).trans (beside_pushPort p _)

/-! Diagnostics (R238 to R245). -/

theorem beside_deliverKept (r : RingId) (p : PortId) : Beside s (deliverKept s r p) := by
  unfold deliverKept
  simp only []
  split
  · exact .refl
  · have taken := (beside_returnShort 1280 r (getRing s r).bufs s).trans (beside_takeBuf (some r) 1280)
    split
    · exact taken
    · refine Beside.trans ?_ (beside_postNaming _ _ _)
      exact (taken.trans (beside_finishIn _ _ _)).trans (beside_modPort fun _ => rfl)

theorem beside_takeIn (ring : Option RingId) (need : Nat) : Beside s (takeIn s ring need).st := by
  unfold takeIn
  split
  · split
    · exact (beside_deliverKept _ _).trans (beside_takeBuf _ _)
    · exact beside_takeBuf _ _
  · exact beside_takeBuf _ _

theorem beside_dropSweep (p : PortId) : Beside s (dropSweep s p) := beside_modHerd _ _

theorem beside_diagEnd (p : PortId) (chamois full : Bool) (f : Option DiagFinding) :
    Beside s (diagEnd s p chamois full f) := by
  unfold diagEnd
  simp only []
  split
  · refine Beside.trans ?_ (beside_postPort p _)
    refine Beside.trans ?_ (beside_modPort fun _ => rfl)
    refine Beside.trans ?_ (beside_finishIn _ _ _)
    exact Beside.trans (t := (freeNat s).2) (.of_ports rfl rfl) (beside_dropSweep p)
  · refine Beside.trans ?_ (beside_postPort p _)
    refine Beside.trans ?_ (beside_modPort fun _ => rfl)
    exact Beside.trans (t := (freeNat s).2) (.of_ports rfl rfl) (beside_dropSweep p)

theorem beside_endPassive (p : PortId) : Beside s (endPassive s p) := by
  unfold endPassive
  simp only []
  split
  · exact beside_diagEnd p _ _ _
  · exact .refl

theorem beside_startChamois (p : PortId) (skip profile auto : Bool) (buf : Option Taken) (endState : PortSt) :
    Beside s (startChamois s p skip profile auto buf endState) := by
  unfold startChamois
  simp only []
  refine Beside.trans ?_ (beside_modHerd _ _)
  exact beside_modPort fun _ => rfl

/-- What an automatic run leaves of its ring: its buffer taken, or one that is too short returned (R131, R273). -/
theorem beside_autoTake (ring : Option RingId) (k : Take) (before : Beside s k.st) : Beside s
    (match k.got with
      | some _ => k.st
      | none =>
        match ring with
        | none => k.st
        | some r =>
          match (getRing k.st r).bufs with
          | [] => k.st
          | d :: rest => completeBuf (popBuf k.st r d rest).2 2 (popBuf k.st r d rest).1 stBadParam 0) := by
  split
  · exact before
  · split
    · exact before
    · split
      · exact before
      · exact (before.trans (beside_popBuf _ _ _)).trans (beside_completeBuf _ _ _ _)

theorem beside_autoChamois (p : PortId) : Beside s (autoChamois s p) := by
  have first : Beside s (if attPar (getPort s p) 0x03 = 1 then endPassive s p else s) := by
    split
    · exact beside_endPassive p
    · exact .refl
  rw [autoChamois]
  generalize (if attPar (getPort s p) 0x03 = 1 then endPassive s p else s) = t at first
  simp only []
  split
  · refine Beside.trans ?_ (beside_startChamois p _ _ _ _ _)
    exact beside_autoTake _ _ (first.trans (beside_takeIn _ _))
  · exact first

end

/-! ### What a port's diagnostics leave of the other ports -/

section
variable {s t u : State} {p : PortId}

theorem portsBut_trans (h : PortsBut p s t) (k : PortsBut p t u) : PortsBut p s u :=
  fun q n => (k q n).trans (h q n)

theorem portsBut_modPort (f : Port → Port) : PortsBut p s (modPort s p f) := (silent_modPort s p f).others

theorem finishIn_ports (s : State) (k : Taken) (bytes : Nat) (fs : List Fld) :
    (finishIn s k bytes fs).ports = s.ports := onlyIn_of_pick (m := [.io]) (by simp) .ports (by simp)

theorem takeBuf_ports (s : State) (ring : Option RingId) (need : Nat) : (takeBuf s ring need).st.ports = s.ports :=
  onlyIn_of_pick (m := [.io]) (by simp) .ports (by simp)

theorem returnShort_ports (s : State) (need : Nat) (r : RingId) (l : List DataDesc) :
    (returnShort need r l s).ports = s.ports := onlyIn_of_pick (m := [.io]) (by simp) .ports (by simp)

theorem postPort_ports (s : State) (p : PortId) (n : Nat) (payload : List Fld) :
    (postPort s p n payload).ports = s.ports := onlyIn_of_pick (m := [.io]) (by simp) .ports (by simp)

theorem postNaming_ports (s : State) (p : PortId) (n : Nat) (payload : List Fld) (k : Option Taken) :
    (postNaming s p n payload k).ports = s.ports := onlyIn_of_pick (m := [.io]) (by simp) .ports (by simp)

theorem portsBut_deliverKept (r : RingId) : PortsBut p s (deliverKept s r p) := by
  unfold deliverKept
  simp only []
  split
  · exact fun _ _ => rfl
  · have taken : PortsBut p s (takeBuf (returnShort 1280 r (getRing s r).bufs s) (some r) 1280).st :=
      portsBut_of_eq p ((takeBuf_ports _ _ _).trans (returnShort_ports _ _ _ _))
    split
    · exact taken
    · refine portsBut_trans ?_ (portsBut_of_eq p (postNaming_ports _ _ _ _ _))
      refine portsBut_trans ?_ (portsBut_modPort _)
      exact portsBut_trans taken (portsBut_of_eq p (finishIn_ports _ _ _ _))

/-- The ACTIVE ring of a port's results is bound to that port (R272). -/
theorem activeRing_port {s : State} {type : Nat} {p : PortId} {r : RingId}
    (found : activeRing s type (.port p) = some r) : ringBindId s r = p.val := by
  obtain ⟨e, he, known⟩ := Option.bind_eq_some_iff.mp found
  have holds := List.find?_some he
  split at known
  · rename_i small
    simp only [small, dif_pos, Bool.and_eq_true] at holds
    obtain ⟨-, bound⟩ := holds
    simp only [boundTo, bindOf, Bool.and_eq_true, beq_iff_eq] at bound
    rw [← Option.some.inj known]
    exact bound.2
  · simp at known

theorem portsBut_takeIn_activeRing (s : State) (p : PortId) (type need : Nat) :
    PortsBut p s (takeIn s (activeRing s type (.port p)) need).st := by
  cases found : activeRing s type (.port p) with
  | none => exact portsBut_of_eq p (takeBuf_ports _ _ _)
  | some r =>
    unfold takeIn
    simp only []
    split
    · have own : (⟨ringBindId s r, by omega⟩ : PortId) = p := Fin.ext (activeRing_port found)
      refine portsBut_trans ?_ (portsBut_of_eq p (takeBuf_ports _ _ _))
      rw [own]
      exact portsBut_deliverKept r
    · exact portsBut_of_eq p (takeBuf_ports _ _ _)

theorem portsBut_diagEnd (chamois full : Bool) (f : Option DiagFinding) : PortsBut p s (diagEnd s p chamois full f) := by
  unfold diagEnd
  simp only []
  split
  · refine portsBut_trans ?_ (portsBut_of_eq p (postPort_ports _ _ _ _))
    refine portsBut_trans ?_ (portsBut_modPort _)
    exact portsBut_of_eq p (finishIn_ports _ _ _ _)
  · refine portsBut_trans ?_ (portsBut_of_eq p (postPort_ports _ _ _ _))
    exact portsBut_modPort (s := dropSweep (freeNat s).2 p) _

theorem portsBut_endPassive : PortsBut p s (endPassive s p) := by
  unfold endPassive
  simp only []
  split
  · exact portsBut_diagEnd _ _ _
  · exact fun _ _ => rfl

theorem portsBut_endChamois : PortsBut p s (endChamois s p) := by
  unfold endChamois
  split
  · exact portsBut_diagEnd _ _ _
  · exact fun _ _ => rfl

theorem portsBut_startChamois (skip profile auto : Bool) (buf : Option Taken) (endState : PortSt) :
    PortsBut p s (startChamois s p skip profile auto buf endState) := by
  unfold startChamois
  simp only []
  intro q n
  rw [getPort_modHerd, getPort_modPort_ne _ _ n]

theorem autoTake_ports (ring : Option RingId) (k : Take) :
    (match k.got with
      | some _ => k.st
      | none =>
        match ring with
        | none => k.st
        | some r =>
          match (getRing k.st r).bufs with
          | [] => k.st
          | d :: rest => completeBuf (popBuf k.st r d rest).2 2 (popBuf k.st r d rest).1 stBadParam 0).ports =
    k.st.ports := by
  split
  · rfl
  · split
    · rfl
    · split
      · rfl
      · exact onlyIn_of_pick (m := [.io]) (by simp) .ports (by simp)

theorem portsBut_autoChamois : PortsBut p s (autoChamois s p) := by
  have first : PortsBut p s (if attPar (getPort s p) 0x03 = 1 then endPassive s p else s) := by
    split
    · exact portsBut_endPassive
    · exact fun _ _ => rfl
  rw [autoChamois]
  generalize (if attPar (getPort s p) 0x03 = 1 then endPassive s p else s) = t at first
  simp only []
  split
  · refine portsBut_trans ?_ (portsBut_startChamois _ _ _ _ _)
    refine portsBut_trans ?_ (portsBut_of_eq p (autoTake_ports _ _))
    exact portsBut_trans first (portsBut_takeIn_activeRing t p 3 1280)
  · exact first

end

/-! ### HOLD (R130, R131) -/

theorem undiagnosed_st {x y : Port} (h : undiagnosed x = undiagnosed y) : x.st = y.st := by
  have same := congrArg Port.st h
  exact same

theorem undiagnosed_history {x y : Port} (h : undiagnosed x = undiagnosed y) : history x = history y := by
  have same := congrArg history h
  exact same

section
variable (s : State) (p : PortId)

/-- What a port that enters HOLD shows, and that nothing else of the links moves (R97, R131). -/
theorem enterHold_holds : (getPort (enterHold s p) p).st = .hold ∧
    history (getPort (enterHold s p) p) = history (getPort s p) ∧ PortsBut p s (enterHold s p) ∧
    ∀ n, n < 16 → n ≠ 9 → genOf (enterHold s p) (portSrc p n) = genOf s (portSrc p n) := by
  obtain ⟨time, lane, seen, moved⟩ := setSt_self s p .hold
  have quiet : Silent p s (modPort (setSt s p .hold) p fun x =>
      { lineQuiet x with neg := Neg.none, start := Start.none }) :=
    (silent_setSt s p .hold).trans (silent_modPort _ p _)
  have auto := beside_autoChamois (s := modPort (setSt s p .hold) p fun x =>
      { lineQuiet x with neg := Neg.none, start := Start.none }) p
  have self := auto.port p
  rw [getPort_modPort_self, moved] at self
  exact ⟨undiagnosed_st self, (undiagnosed_history self).trans rfl, portsBut_trans quiet.others portsBut_autoChamois,
    fun n small diag => (auto.gens p n small diag).trans (genOf_of_gens quiet.gens _)⟩

/-- An abort that leads to HOLD (R128, R130). -/
theorem enterHold_postAbort (cause : Nat) (at_ : PortSt) (attempt : Nat) (t : State)
    (ends : t = enterHold (postAbort s p cause at_ attempt .hold) p) :
    (getPort t p).st = .hold ∧ (getPort t p).lastAbort = BitVec.ofNat 8 cause ∧ Posted s t (portSrc p 2) 1 ∧
    PortsBut p s t := by
  obtain ⟨st, kept, others, gens⟩ := enterHold_holds (postAbort s p cause at_ attempt .hold) p
  rw [← ends] at st kept others gens
  rw [postAbort_self] at kept
  have posted := posted_postAbort s p cause at_ attempt .hold
  rw [Posted, ← gens 2 (by decide) (by decide)] at posted
  exact ⟨st, congrArg Prod.fst kept, posted, portsBut_trans (postAbort_others s p _ _ _ _) others⟩

/-- Exhausted attempts end in HOLD with the cause that their pages give (R130). -/
theorem exhaust_holds (at_ : PortSt) (attempt : Nat) : (getPort (exhaust s p at_ attempt) p).st = .hold ∧
    (getPort (exhaust s p at_ attempt) p).lastAbort = (if (getPort s p).partnerPage then 3 else 2) ∧
    Posted s (exhaust s p at_ attempt) (portSrc p 2) 1 ∧ PortsBut p s (exhaust s p at_ attempt) := by
  obtain ⟨st, abort, posted, others⟩ :=
    enterHold_postAbort s p (if (getPort s p).partnerPage then 0x03 else 0x02) at_ attempt _ rfl
  refine ⟨st, abort.trans ?_, posted, others⟩
  split <;> rfl

end

/-- The last allowed attempt, without a page of the partner's (R130). -/
theorem countedFail_holds {s : State} {p : PortId} (limited : attPar (getPort s p) 0x01 ≠ 0)
    (last : attPar (getPort s p) 0x01 ≤ (getPort s p).attempts + 1) :
    (getPort (countedFail s p none false) p).st = .hold ∧
    (getPort (countedFail s p none false) p).lastAbort = (if (getPort s p).partnerPage then 3 else 2) ∧
    Posted s (countedFail s p none false) (portSrc p 2) 1 ∧ PortsBut p s (countedFail s p none false) := by
  rw [countedFail_eq, if_pos ((exhausted_iff s p false).mpr ⟨limited, last⟩)]
  obtain ⟨st, abort, posted, others⟩ :=
    exhaust_holds (countAttempt s p false) p (getPort s p).st ((getPort s p).attempts + 1)
  rw [getPort_countAttempt, Bool.or_false] at abort
  exact ⟨st, abort, (silent_modPort s p _).posted posted, portsBut_trans (portsBut_modPort _) others⟩

/-! ### The mode of a herd and of its ports (R24, R106) -/

section
variable (s : State) (p : PortId) (h : HerdId)

theorem getHerd_of_frame {m : List Area} {s t : State} (frame : OnlyIn m s t) (herds : .herds ∉ m) (h : HerdId) :
    getHerd t h = getHerd s h := by
  have same : t.herds = s.herds := frame .herds herds
  simp only [getHerd, same]

theorem ports_of_frame {m : List Area} {s t : State} (frame : OnlyIn m s t) (ports : .ports ∉ m) : t.ports = s.ports :=
  frame .ports ports

theorem getHerd_pllStop (k : PllKind) : getHerd (pllStop s k) h = getHerd s h := rfl

/-- A retuned PLL leaves the mode a herd has resolved (R408). -/
theorem movePll_resolved : (getHerd (movePll s h) h).resolved = (getHerd s h).resolved := by
  unfold movePll
  split
  · rw [getHerd_pllStop, getHerd_modHerd_self]
  · rfl

theorem getHerd_retarget (d : DieId) : getHerd (retarget s d) h = getHerd s h :=
  getHerd_of_frame (m := [.rails, .dies, .io]) (onlyIn_of_pick (by simp)) (by simp) h

theorem getHerd_laneRateTo (m : LineMode) : getHerd (laneRateTo s p m) h = getHerd s h :=
  getHerd_of_frame (m := [.ports]) (onlyIn_of_pick (by simp)) (by simp) h

theorem getHerd_repath (g : HerdId) : getHerd (repath s g) h = getHerd s h :=
  getHerd_of_frame (m := [.ports]) (onlyIn_of_pick (by simp)) (by simp) h

theorem setPllMode_resolved (m : LineMode) : (getHerd (setPllMode s h m) h).resolved = (getHerd s h).resolved := by
  unfold setPllMode
  simp only []
  split
  · rw [getHerd_modHerd_self]
  · have asked (t : State) : (getHerd (requestSwitch t (.herdDsp h) false) h).resolved = (getHerd t h).resolved :=
      congrArg Herd.resolved (getHerd_of_frame (m := [.clk]) (onlyIn_of_pick (by simp)) (by simp) h)
    split
    · rw [movePll_resolved, asked, getHerd_modHerd_self, getHerd_modHerd_self]
    · rw [asked, getHerd_modHerd_self, getHerd_modHerd_self]

theorem mem_portsOf_herdOf : p ∈ portsOf (herdOf p) := by
  have own : portOf (herdOf p) ⟨p.val % 8, Nat.mod_lt _ (by decide)⟩ = p := Fin.ext (by simp [portOf, herdOf]; omega)
  have mem := portOf_mem (herdOf p) ⟨p.val % 8, Nat.mod_lt _ (by decide)⟩
  rwa [own] at mem

/-- A port that trains keeps its herd's mode (R106). -/
theorem setSt_training_herds {st : PortSt} (trains : isTraining st = true) : (setSt s p st).herds = s.herds := by
  obtain ⟨time, lane, seen, moved⟩ := setSt_self s p st
  unfold setSt at moved ⊢
  simp only [trains, Bool.or_true, if_true] at moved ⊢
  rw [getPort_releaseMode] at moved
  have held : modeHeld (setPort s p _) (herdOf p) = true :=
    List.any_eq_true.mpr ⟨p, mem_portsOf_herdOf p, by rw [moved]; simp [holdsMode, trains]⟩
  simp only [releaseMode, held, Bool.not_true, Bool.and_false, Bool.false_eq_true, if_false]
  rfl

end

/-! ### Resolution (R106 to R110) -/

/-- What of a port a resolution of its own decides. -/
def face (x : Port) : PortSt × Option Role × Neg × LineMode × BitVec 8 × BitVec 48 :=
  (x.st, x.role, x.neg, x.mode, x.fec, x.partner)

theorem face_eq {x : Port} {st : PortSt} {role : Option Role} {n : Neg} {m : LineMode} {fec : BitVec 8}
    {partner : BitVec 48} (h : face x = (st, role, n, m, fec, partner)) :
    x.st = st ∧ x.role = role ∧ x.neg = n ∧ x.mode = m ∧ x.fec = fec ∧ x.partner = partner := by
  simpa only [face, Prod.mk.injEq] using h

section
variable (s : State) (p : PortId)

theorem repath_face (h : HerdId) (q : PortId) : face (getPort (repath s h) q) = face (getPort s q) := by
  refine forEach_keeps (fun t => face (getPort t q)) (fun t k => ?_) _ s
  by_cases e : q = k
  · subst e
    rw [repathPort_self]
    rfl
  · rw [repathPort, getPort_modPort_ne _ _ e]

theorem laneRateTo_face (m : LineMode) (q : PortId) : face (getPort (laneRateTo s p m) q) = face (getPort s q) := by
  unfold laneRateTo
  by_cases e : q = p
  · subst e
    rw [getPort_modPort_self]
    split <;> rfl
  · rw [getPort_modPort_ne _ _ e]

/-- A herd whose mode is m from here on, with its PLL and its die's level (R52, R106). -/
def modeAgreed (m : LineMode) : State :=
  if (getHerd s (herdOf p)).resolved.isNone then
    retarget (setPllMode (modHerd s (herdOf p) fun y => { y with resolved := some m }) (herdOf p) m)
      (dieOfHerd (herdOf p))
  else s

theorem modeAgreed_ports (m : LineMode) : (modeAgreed s p m).ports = s.ports := by
  unfold modeAgreed
  split
  · exact ports_of_frame (m := [.rails, .dies, .io, .clk, .herds]) (onlyIn_of_pick (by simp)) (by simp)
  · rfl

theorem modeAgreed_resolved {m : LineMode}
    (mode : (getHerd s (herdOf p)).resolved = some m ∨ (getHerd s (herdOf p)).resolved = none) :
    (getHerd (modeAgreed s p m) (herdOf p)).resolved = some m := by
  unfold modeAgreed
  rcases mode with mode | mode
  · rw [mode, Option.isNone_some, if_neg Bool.false_ne_true, mode]
  · rw [mode, Option.isNone_none, if_pos rfl, getHerd_retarget, setPllMode_resolved, getHerd_modHerd_self]

variable (n : Neg) (m : LineMode) (fec : BitVec 8) (role : Role)

/-- A port with what both ends agreed on, in a herd that runs its mode, before its start is chosen (R106 to R109). -/
def agreed : State :=
  let s := modeAgreed s p m
  let k := (getHerd s (herdOf p)).negSeq + 1
  let s := modHerd s (herdOf p) fun y => { y with negSeq := k }
  let s := modPort s p fun x =>
    { x with role := some role, freqWord := if role = .master then 0 else x.freqWord, partner := partnerId n,
             mode := m, fec := fec, negEnd := s.mono, negSeq := k,
             neg := { n with open_ := false } }
  repath (laneRateTo s p m) (herdOf p)

/-- A port goes to SPRINGBOK with a context that both ends hold (R110, R111). -/
def enterSpringbok (e : Ctx) : State :=
  let s := modCtx s p e fun d => { d with lastUse := now s }
  let s := countPers (setSt s p .springbok) p 0xC0
  let s := dieTrigger s (dieOf p)
  modPort s p fun x => { lineQuiet x with startPath := 1, start := { Start.none with ctx := some e } }

theorem completeNeg_eq : completeNeg s p n m fec role =
    (match ctxMatch n with
    | some e => enterSpringbok (agreed s p n m fec role) p e
    | none => enterT0 (agreed s p n m fec role) p false true) := rfl

theorem agreed_self : face (getPort (agreed s p n m fec role) p) =
    ((getPort s p).st, some role, { n with open_ := false }, m, fec, partnerId n) := by
  simp only [agreed, repath_face, laneRateTo_face, getPort_modPort_self, getPort_modHerd]
  simp only [face, getPort, modeAgreed_ports]

theorem agreed_other {q : PortId} (other : q ≠ p) :
    face (getPort (agreed s p n m fec role) q) = face (getPort s q) := by
  simp only [agreed, repath_face, laneRateTo_face, getPort_modPort_ne _ _ other, getPort_modHerd]
  simp only [getPort, modeAgreed_ports]

theorem agreed_resolved
    (mode : (getHerd s (herdOf p)).resolved = some m ∨ (getHerd s (herdOf p)).resolved = none) :
    (getHerd (agreed s p n m fec role) (herdOf p)).resolved = some m := by
  simp only [agreed, getHerd_repath, getHerd_laneRateTo, getHerd_modPort, getHerd_modHerd_self]
  exact modeAgreed_resolved s p mode

end

section
variable {s : State} {p : PortId} {n : Neg} {m : LineMode} {fec : BitVec 8} {role : Role}

theorem dieTrigger_herds (s : State) (d : DieId) : (dieTrigger s d).herds = s.herds :=
  onlyIn_of_pick (m := [.dies]) (by simp) .herds (by simp)

theorem enterT0_herds (s : State) (p : PortId) (keepCal : Bool) : (enterT0 s p keepCal true).herds = s.herds := by
  rw [enterT0]
  simp only [if_true, modPort_herds, dieTrigger_herds, countPers]
  exact setSt_training_herds s p (st := .t0) rfl

/-- No context of both ends: the port is in T0 on a Tahr start, its herd in the common mode (R110, R118). -/
theorem completeNeg_t0 (mode : (getHerd s (herdOf p)).resolved = some m ∨ (getHerd s (herdOf p)).resolved = none)
    (fresh : ctxMatch n = none) :
    face (getPort (completeNeg s p n m fec role) p) =
      (.t0, some role, { n with open_ := false }, m, fec, partnerId n) ∧
    (getPort (completeNeg s p n m fec role) p).startPath = 2 ∧
    (getHerd (completeNeg s p n m fec role) (herdOf p)).resolved = some m ∧
    ∀ q, q ≠ p → face (getPort (completeNeg s p n m fec role) q) = face (getPort s q) := by
  have ends : completeNeg s p n m fec role = enterT0 (agreed s p n m fec role) p false true := by
    rw [completeNeg_eq, fresh]
  have kept := agreed_self s p n m fec role
  have others (q : PortId) := agreed_other s p n m fec role (q := q)
  have resolved := agreed_resolved s p n m fec role mode
  rw [ends]
  generalize agreed s p n m fec role = t at kept others resolved
  obtain ⟨time, lane, seen, self⟩ := enterT0_new t p false
  obtain ⟨-, kept⟩ := Prod.mk.inj kept
  refine ⟨?_, congrArg Port.startPath self, ?_, fun q other => ?_⟩
  · rw [self]
    exact congrArg (Prod.mk PortSt.t0) kept
  · rw [getHerd, enterT0_herds]
    exact resolved
  · rw [(silent_enterT0 _ p _ _).others q other, others q other]

theorem enterSpringbok_self (s : State) (p : PortId) (e : Ctx) : ∃ time lane seen,
    getPort (enterSpringbok s p e) p = { lineQuiet (persAdd { getPort s p with
      st := .springbok, stTime := time, lane := lane, partnerSeen := seen } 0xC0 1) with
        startPath := 1, start := { Start.none with ctx := some e } } := by
  obtain ⟨time, lane, seen, moved⟩ := setSt_self (modCtx s p e fun d => { d with lastUse := now s }) p .springbok
  refine ⟨time, lane, seen, ?_⟩
  rw [enterSpringbok]
  simp only [getPort_modPort_self, getPort_dieTrigger, countPers]
  rw [moved]
  rfl

theorem enterSpringbok_others (s : State) (p : PortId) (e : Ctx) : PortsBut p s (enterSpringbok s p e) := by
  unfold enterSpringbok
  simp only []
  refine portsBut_trans ?_ (portsBut_modPort _)
  refine portsBut_trans ?_ (silent_dieTrigger _ p _).others
  refine portsBut_trans ?_ (silent_countPers _ p _).others
  refine portsBut_trans ?_ (silent_setSt _ p _).others
  exact portsBut_of_eq p rfl

/-- A context of both ends: the port is in SPRINGBOK with it (R110, R111). -/
theorem completeNeg_springbok {e : Ctx} (common : ctxMatch n = some e) :
    face (getPort (completeNeg s p n m fec role) p) =
      (.springbok, some role, { n with open_ := false }, m, fec, partnerId n) ∧
    (getPort (completeNeg s p n m fec role) p).startPath = 1 ∧
    (getPort (completeNeg s p n m fec role) p).start.ctx = some e ∧
    ∀ q, q ≠ p → face (getPort (completeNeg s p n m fec role) q) = face (getPort s q) := by
  have ends : completeNeg s p n m fec role = enterSpringbok (agreed s p n m fec role) p e := by
    rw [completeNeg_eq, common]
  have kept := agreed_self s p n m fec role
  have others (q : PortId) := agreed_other s p n m fec role (q := q)
  rw [ends]
  generalize agreed s p n m fec role = t at kept others
  obtain ⟨time, lane, seen, self⟩ := enterSpringbok_self t p e
  obtain ⟨-, kept⟩ := Prod.mk.inj kept
  refine ⟨?_, congrArg Port.startPath self, congrArg (fun x : Port => x.start.ctx) self, fun q other => ?_⟩
  · rw [self]
    exact congrArg (Prod.mk PortSt.springbok) kept
  · rw [enterSpringbok_others t p e q other, others q other]

end

/-- The last page resolves an attempt whose modes, FEC modes and seeds agree (R106 to R108). -/
theorem resolveNeg_completes {s : State} {p : PortId} {m : LineMode} {f : BitVec 8} {r : Role}
    (free : s.pwr.padsHeld = false) (mode : commonMode (getPort s p).neg = some m)
    (fec : commonFec (attPar (getPort s p) 0x05) (getPort s p).neg.fecs m = some f)
    (role : resolveRole (getPort s p).neg = some r)
    (herd : (getHerd s (herdOf p)).resolved = some m ∨ (getHerd s (herdOf p)).resolved = none) :
    resolveNeg s p = completeNeg s p (getPort s p).neg m f r := by
  rcases herd with herd | herd <;> simp [resolveNeg, free, mode, fec, role, herd]

theorem sendOffer_self {s : State} {p : PortId} (free : s.pwr.padsHeld = false) (n : Neg) (k : Nat) :
    getPort (sendOffer (setNeg s p n) p k) p = { getPort s p with neg := { n with page := k } } := by
  rw [sendOffer_eq (s := setNeg s p n) free, getPort_emit, setNeg_self, setNeg_self]

theorem sendOffer_setNeg_onlyIn (s : State) (p : PortId) (n : Neg) (k : Nat) :
    OnlyIn [.ports, .io] s (sendOffer (setNeg s p n) p k) := onlyIn_of_pick (by simp)

/-- UNP5, the last page: what the attempt resolves to (R103, R106 to R108). -/
theorem exec_nextPageReceived_last {s : State} {p : PortId} {reads : List (CtxKey × CtxRead)} {d : BitVec 11}
    {u : BitVec 32} {n : Neg} {m : LineMode} {f : BitVec 8} {r : Role} (takes : TakesPages s p)
    (offer : (getPort s p).neg.gotOffer = true) (free : s.pwr.padsHeld = false)
    (last : n = { (getPort s p).neg with pGen := u }) (mode : commonMode n = some m)
    (fec : commonFec (attPar (getPort s p) 0x05) n.fecs m = some f) (role : resolveRole n = some r)
    (herd : (getHerd s (herdOf p)).resolved = some m ∨ (getHerd s (herdOf p)).resolved = none) :
    exec (.nextPageReceived p (.unformatted 5 d u) reads) s = .next
      (completeNeg (sendOffer (setNeg s p n) p 6) p { n with page := 6 } m f r) := by
  have self := sendOffer_self (p := p) free n 6
  have frame := sendOffer_setNeg_onlyIn s p n 6
  rw [exec_nextPageReceived_page5 takes offer, ← last,
    resolveNeg_completes (s := sendOffer (setNeg s p n) p 6) (m := m) (f := f) (r := r) ?free ?mode ?fec ?role ?herd,
    self]
  case free => exact (congrArg Pwr.padsHeld (frame .pwr (by simp))).trans free
  case mode => rw [self]; exact mode
  case fec => rw [self]; exact fec
  case role => rw [self]; exact role
  case herd => rwa [getHerd_of_frame frame (by simp)]

/-- Settles O35: `exec_…` says which state each row leads to; `SendsOffer` what a page of the offer leaves, `countedFail`'s
lemmas where a failed attempt leads, `completeNeg`'s what an agreed one leaves of its port and of the others. -/
theorem negotiationRows : Obligations.NegotiationRows := by
  unfold Obligations.NegotiationRows
  refine ⟨?starts, ?silent, ?heard, ?exhausted, ?first, ?own, ?stale, ?other, ?offer, ?page1, ?page2, ?page4, ?tahr,
    ?springbok, ?hold, ?t0⟩
  case starts =>
    intro p s opens first runs free
    rw [exec_negBreakLinkExpiry opens runs first, sendPage_free (s := setNeg s p _) free]
    refine ⟨_, rfl, ?_, rfl, (silent_setNeg s p _).others⟩
    rw [getPort_emit, setNeg_self]
  case silent =>
    intro p s opens unheard runs left
    obtain ⟨st, again, kept, posted, others⟩ := countedFail_opens none false left
    obtain ⟨-, attempts, -⟩ := history_eq kept
    rw [exec_negAttemptExpiry opens runs, unheard, if_neg Bool.false_ne_true]
    exact ⟨_, rfl, st, attempts, again, posted, others⟩
  case heard =>
    intro p s opens heard runs left
    obtain ⟨st, again, kept, posted, others⟩ := countedFail_opens (some 0x06) true left
    obtain ⟨abort, attempts, -⟩ := history_eq kept
    rw [exec_negAttemptExpiry opens runs, heard, if_pos rfl]
    exact ⟨_, rfl, st, abort, attempts, again, posted, others⟩
  case exhausted =>
    intro p s opens unheard runs limited last
    rw [exec_negAttemptExpiry opens runs, unheard, if_neg Bool.false_ne_true]
    exact ⟨_, rfl, countedFail_holds limited last⟩
  case first =>
    intro p page s opens pages selector runs free other more answers first
    rw [exec_basePageReceived_first opens runs pages selector other more answers first,
      sendPage_free (s := setNeg s p (firstPage s p page)) free]
    obtain ⟨neg, bus, others⟩ := sendOffer_sends (p := p) (s := emit (setNeg s p (firstPage s p page))
      (pageOut p (basePageBits (firstPage s p page))
        (Config.pageBit (setNeg s p (firstPage s p page)).mono (basePageBits (firstPage s p page))))) free 0
    rw [getPort_emit, setNeg_self] at neg
    refine ⟨_, rfl, neg, bus.trans ?_, portsBut_trans (silent_setNeg s p _).others others⟩
    simp only [neg]
    rfl
  case own =>
    intro p page s opens pages selector runs own left
    obtain ⟨st, again, kept, posted, others⟩ := countedFail_opens (some 0x04) (getPort s p).neg.gotBase left
    obtain ⟨abort, attempts, seen⟩ := history_eq kept
    rw [exec_basePageReceived_own opens runs pages selector own]
    exact ⟨_, rfl, st, abort, attempts, again, posted, others, seen⟩
  case stale =>
    intro p page s opens pages selector runs other ack echoed
    obtain ⟨st, again, before, kept⟩ := newAttempt_opens s p
    obtain ⟨-, attempts, -⟩ := history_eq kept
    exact ⟨_, exec_basePageReceived_stale opens runs pages selector other ack echoed, st, again, before, attempts⟩
  case other =>
    intro p reads k u s opens base runs free unknown
    rw [exec_nextPageReceived_otherMessage ⟨opens, base, runs⟩ unknown]
    have sent := sendOffer_sends (p := p) free (getPort s p).neg.page
    have bus := sent.bus
    rw [sent.neg] at bus
    exact ⟨_, rfl, sent.neg, bus, sent.others⟩
  case offer =>
    intro p reads s opens base runs free
    obtain ⟨neg, bus, others⟩ := sendOffer_setNeg_sends (p := p) free { (getPort s p).neg with gotOffer := true } 1
    exact ⟨_, exec_nextPageReceived_offerMessage ⟨opens, base, runs⟩, neg, bus, others⟩
  case page1 =>
    intro p reads d u s opens base offer runs free
    obtain ⟨neg, bus, others⟩ := sendOffer_setNeg_sends (p := p) free
      { (getPort s p).neg with version := d.setWidth 8, tag := u.setWidth 39 } 2
    exact ⟨_, exec_nextPageReceived_page1 ⟨opens, base, runs⟩ offer, neg, bus, others⟩
  case page2 =>
    intro p reads d u n s opens base offer runs free known
    subst known
    obtain ⟨neg, bus, others⟩ := sendOffer_setNeg_sends (p := p) free (loadRole s p (withPage2 (getPort s p).neg d u)) 3
    exact ⟨_, exec_nextPageReceived_page2 ⟨opens, base, runs⟩ offer, neg, bus, others⟩
  case page4 =>
    intro p reads d u s opens base offer runs free
    obtain ⟨neg, bus, others⟩ := sendOffer_setNeg_sends (p := p) free
      { (getPort s p).neg with ctxValid := d.getLsbD 0, pSig := u } 5
    exact ⟨_, exec_nextPageReceived_page4 ⟨opens, base, runs⟩ offer, neg, bus, others⟩
  case tahr =>
    intro p reads u n m f r s opens base offer runs free last mode fec role herd fresh
    have step := exec_nextPageReceived_last (reads := reads) (d := 0) ⟨opens, base, runs⟩ offer free last mode fec role
      herd
    obtain ⟨-, -, others⟩ := sendOffer_setNeg_sends (p := p) free n 6
    obtain ⟨shown, path, resolved, elsewhere⟩ := completeNeg_t0 (fec := f) (role := r)
      (s := sendOffer (setNeg s p n) p 6) (p := p) (n := { n with page := 6 })
      (by rwa [getHerd_of_frame (sendOffer_setNeg_onlyIn s p n 6) (by simp)]) fresh
    obtain ⟨st, role, -, mode, fec, partner⟩ := face_eq shown
    refine ⟨_, step, st, mode, fec, role, partner, path, resolved, fun q n => ?_⟩
    obtain ⟨st, role, neg, -⟩ := face_eq ((elsewhere q n).trans (congrArg face (others q n)))
    exact ⟨st, role, neg⟩
  case springbok =>
    intro p reads u n m f r e s opens base offer runs free last mode fec role herd common
    have step := exec_nextPageReceived_last (reads := reads) (d := 0) ⟨opens, base, runs⟩ offer free last mode fec role
      herd
    obtain ⟨-, -, others⟩ := sendOffer_setNeg_sends (p := p) free n 6
    obtain ⟨shown, path, ctx, elsewhere⟩ := completeNeg_springbok (m := m) (fec := f) (role := r)
      (s := sendOffer (setNeg s p n) p 6) (p := p) (n := { n with page := 6 }) common
    obtain ⟨st, role, -, mode, fec, -⟩ := face_eq shown
    refine ⟨_, step, st, mode, fec, role, path, ctx, fun q n => ?_⟩
    obtain ⟨st, role, neg, -⟩ := face_eq ((elsewhere q n).trans (congrArg face (others q n)))
    exact ⟨st, role, neg⟩
  case hold =>
    intro p s runs st
    refine ⟨_, exec_dmeReceived_hold runs st, ?_, ?_, (silent_setPort s p _).others, onlyIn_of_pick (by simp)⟩ <;>
      rw [getPort_setPort_self]
    exact st
  case t0 =>
    intro p s runs st left
    obtain ⟨st', again, kept, posted, others⟩ := countedFail_opens none true left
    obtain ⟨-, attempts, -⟩ := history_eq kept
    exact ⟨_, exec_dmeReceived_t0 runs st, st', attempts, posted, others⟩

/-! ### Leaving UP (R97, R132) -/

section
variable (s : State) (p : PortId)

/-- A foreground run that ends leaves its port without one (R453). -/
theorem endCal_self : getPort (endCal s p) p = { getPort s p with cal := none } := by
  unfold endCal calDone
  cases run : (getPort s p).cal with
  | none => simp [← run]
  | some r =>
    simp only [Option.isSome_some, if_true]
    rw [← getPort_modPort_self s p fun x => { x with cal := none }]
    simp only [getPort, postPort_ports]

theorem endCal_others : PortsBut p s (endCal s p) := by
  unfold endCal calDone
  split
  · split
    · exact portsBut_trans (portsBut_modPort _) (portsBut_of_eq p (postPort_ports _ _ _ _))
    · exact fun _ _ => rfl
  · exact fun _ _ => rfl

theorem failWaits_ports (cause : Nat) : (failWaits s p cause).ports = s.ports :=
  onlyIn_of_pick (m := [.herds, .io, .waits]) (by simp) .ports (by simp)

variable (cause : Nat) (next : PortSt)

/-- A port leaves UP by a record of its own, its next state, a handover where it led, the end of a run where one ran,
LINK_DOWN and the end of the commands that waited for the partner. -/
theorem leaveUp_eq : ∃ (x : Port) (led run : Bool) (pay : List Fld) (t : State),
    t = (if led then handoverStart (setSt (setPort s p x) p next) (herdOf p) else setSt (setPort s p x) p next) ∧
    leaveUp s p cause next = failWaits (postPort (if run then endCal t p else t) p 1 pay) p cause :=
  ⟨_, _, _, _, _, rfl, rfl⟩

theorem leaveUp_left : (getPort (leaveUp s p cause next) p).st = next ∧ PortsBut p s (leaveUp s p cause next) := by
  obtain ⟨x, led, run, pay, t, moves, ends⟩ := leaveUp_eq s p cause next
  have moved : (getPort t p).st = next ∧ PortsBut p s t := by
    obtain ⟨time, lane, seen, self⟩ := setSt_self (setPort s p x) p next
    have quiet := (silent_setPort s p x).trans (silent_setSt _ p next)
    rw [moves]
    split
    · exact ⟨by rw [handoverStart, getPort_modHerd, self], fun q n => quiet.others q n⟩
    · exact ⟨by rw [self], quiet.others⟩
  obtain ⟨st, others⟩ := moved
  have port (u : State) (q : PortId) : getPort (failWaits (postPort u p 1 pay) p cause) q = getPort u q := by
    simp only [getPort, failWaits_ports, postPort_ports]
  rw [ends]
  split
  · refine ⟨?_, fun q n => ?_⟩
    · rw [port, endCal_self]
      exact st
    · rw [port, endCal_others t p q n, others q n]
  · exact ⟨by rw [port, st], fun q n => by rw [port, others q n]⟩

end

/-! ### Steps that end no command -/

/-- Every ring runs in t the command that it runs in s. -/
def RunsOn (s t : State) : Prop := ∀ r, (getRing t r).running = (getRing s r).running

section
variable {s t u : State}

theorem RunsOn.refl : RunsOn s s := fun _ => rfl

theorem runsOn_trans (h : RunsOn s t) (k : RunsOn t u) : RunsOn s u := fun r => (k r).trans (h r)

theorem RunsOn.of_rings (rings : t.io.rings = s.io.rings) : RunsOn s t := fun r => by simp only [getRing, rings]

theorem RunsOn.runs (h : RunsOn s t) {c : Cmd} (runs : Runs s c) : Runs t c := (h c.ring).trans runs

theorem runsOn_setRing {r : RingId} {x : Ring} (same : x.running = (getRing s r).running) :
    RunsOn s (setRing s r x) := by
  intro q
  by_cases e : q = r
  · subst e
    rw [getRing_setRing_self, same]
  · rw [getRing_setRing_ne _ _ e]

theorem runsOn_forEach {α : Type} {f : State → α → State} (each : ∀ s x, RunsOn s (f s x)) (l : List α) (s : State) :
    RunsOn s (forEach l f s) := by
  unfold forEach
  induction l generalizing s with
  | nil => exact .refl
  | cons x l ih => exact runsOn_trans (each s x) (ih _)

theorem runsOn_markLost (old new : EvBuf) : RunsOn s (markLost s old new) := by
  refine runsOn_forEach (fun s e => ?_) _ s
  split
  · exact runsOn_setRing rfl
  · exact .refl

theorem runsOn_pushGlobal (e : Event) : RunsOn s (pushGlobal s e) := by
  unfold pushGlobal
  split
  · exact .refl
  · exact runsOn_trans (.of_rings rfl) (runsOn_markLost _ _)

theorem runsOn_postGlobal (g : Nat) (payload : List Fld) : RunsOn s (postGlobal s g payload) :=
  runsOn_trans (t := bumpGen s (globalSrc g)) (.of_rings rfl) (runsOn_pushGlobal _)

theorem runsOn_pushPort (p : PortId) (e : Event) : RunsOn s (pushPort s p e) := by
  unfold pushPort
  simp only []
  split
  · exact .refl
  · have buffered : RunsOn s (setHerdBuf s (herdOf p) (bufPush (getHerdBuf s (herdOf p)) 4096 e)) := .of_rings rfl
    split
    · exact runsOn_trans (runsOn_trans buffered (runsOn_markLost _ _)) (runsOn_postGlobal _ _)
    · exact runsOn_trans buffered (runsOn_markLost _ _)

theorem runsOn_postPort (p : PortId) (n : Nat) (payload : List Fld) : RunsOn s (postPort s p n payload) :=
  runsOn_trans (.of_rings rfl) (runsOn_pushPort p _)

theorem runsOn_putCompletion (q : RingId) (r : Completion) : RunsOn s (putCompletion s q r) := by
  unfold putCompletion
  simp only []
  split
  · exact (quiet_putRecord s q r).1.run
  · exact runsOn_setRing rfl

theorem runsOn_finishIn (k : Taken) (bytes : Nat) (fs : List Fld) : RunsOn s (finishIn s k bytes fs) := by
  unfold finishIn
  split
  · have written : RunsOn s (emit (untake s k) (.data k.desc.addr fs)) :=
      runsOn_trans (t := untake s k) (runsOn_setRing rfl) (.of_rings rfl)
    exact runsOn_trans written (runsOn_putCompletion _ _)
  · exact .refl

variable (p : PortId)

theorem runsOn_endChamois : RunsOn s (endChamois s p) := by
  unfold endChamois diagEnd
  simp only []
  split
  · split
    · refine runsOn_trans ?_ (runsOn_postPort _ _ _)
      refine runsOn_trans ?_ (.of_rings rfl)
      exact runsOn_trans (.of_rings rfl) (runsOn_finishIn _ _ _)
    · exact runsOn_trans (.of_rings rfl) (runsOn_postPort _ _ _)
  · exact .refl

theorem runsOn_endCal : RunsOn s (endCal s p) := by
  unfold endCal calDone
  split
  · split
    · exact runsOn_trans (.of_rings rfl) (runsOn_postPort _ _ _)
    · exact .refl
  · exact .refl

theorem releaseMode_rings (s : State) (h : HerdId) (reaction : Bool) :
    (releaseMode s h reaction).io.rings = s.io.rings := by
  unfold releaseMode
  simp only []
  split
  · split
    · rfl
    · exact (retarget_rings _ _).trans rfl
  · rfl

theorem setSt_rings (s : State) (p : PortId) (st : PortSt) : (setSt s p st).io.rings = s.io.rings := by
  unfold setSt
  simp only []
  rw [releaseMode_rings]
  split <;> rfl

theorem runsOn_newAttempt : RunsOn s (newAttempt s p) := .of_rings (setSt_rings (draw s).2 p .negotiate)

theorem runsOn_endRuns : RunsOn s (endRuns s p) := by
  have ended : RunsOn s (endCal (endChamois s p) p) := runsOn_trans (runsOn_endChamois p) (runsOn_endCal p)
  unfold endRuns
  simp only []
  split
  · exact runsOn_trans ended (runsOn_newAttempt p)
  · exact ended

theorem runsOn_endDigital : RunsOn s (endDigital s p) := by
  unfold endDigital
  split
  · exact .of_rings rfl
  · exact .refl

theorem steady_dropSweep {c : Cmd} : Steady c s (dropSweep s p) := steady_setHerd rfl id

theorem steady_diagEnd {c : Cmd} (chamois full : Bool) (f : Option DiagFinding) :
    Steady c s (diagEnd s p chamois full f) := by
  unfold diagEnd
  simp only []
  have dropped : Steady c s (dropSweep (freeNat s).2 p) := by
    refine Steady.trans ?_ (steady_dropSweep p)
    exact .of_eq rfl rfl rfl fun _ => rfl
  split
  · refine Steady.trans ?_ (steady_postPort _ _ _)
    refine Steady.trans ?_ (steady_modPort fun _ => rfl)
    exact dropped.trans (steady_finishIn _ _ _)
  · refine Steady.trans ?_ (steady_postPort _ _ _)
    exact dropped.trans (steady_modPort fun _ => rfl)

theorem steady_endChamois {c : Cmd} : Steady c s (endChamois s p) := by
  unfold endChamois
  split
  · exact steady_diagEnd p _ _ _
  · exact .refl

theorem steady_endDigital {c : Cmd} : Steady c s (endDigital s p) := by
  unfold endDigital
  split
  · exact steady_modPort fun _ => rfl
  · exact .refl

end

/-! ### Runs and loopbacks that a start-up command ends (R199, R237, R451) -/

section
variable (s : State) (p : PortId)

theorem ended_others : PortsBut p s (endCal (endChamois s p) p) :=
  portsBut_trans portsBut_endChamois (endCal_others _ p)

theorem endDigital_others : PortsBut p s (endDigital s p) := by
  unfold endDigital
  split
  · exact portsBut_modPort _
  · exact fun _ _ => rfl

theorem abortTo_others (cause : Nat) (entered : PortSt) : PortsBut p s (abortTo s p cause entered) :=
  (abortTo_self s p cause entered).2.2.2

/-- A port that begins afresh: an open attempt, the first of its count (R101, R129). -/
theorem freshAttempt_opens (s : State) (p : PortId) : (getPort (newAttempt (clearAttempts s p) p) p).st = .negotiate ∧
    (getPort (newAttempt (clearAttempts s p) p) p).attempts = 0 ∧
    (getPort (newAttempt (clearAttempts s p) p) p).neg.open_ = true ∧
    PortsBut p s (newAttempt (clearAttempts s p) p) := by
  obtain ⟨st, again, -, kept⟩ := newAttempt_opens (clearAttempts s p) p
  have attempts := congrArg (fun h => h.2.1) kept
  refine ⟨st, attempts.trans ?_, again, portsBut_trans (portsBut_modPort _) (silent_newAttempt _ p).others⟩
  rw [clearAttempts, getPort_modPort_self]
  rfl

/-! The commands. -/

theorem toDisabled_disabled : (getPort (toDisabled s p) p).st = .disabled ∧ PortsBut p s (toDisabled s p) := by
  have moved (t : State) : (getPort (setSt t p .disabled) p).st = .disabled := by
    obtain ⟨time, lane, seen, self⟩ := setSt_self t p .disabled
    rw [self]
  unfold toDisabled
  simp only []
  rw [getPort_modPort_self]
  refine And.imp id (fun others => portsBut_trans others (portsBut_modPort _)) ?_
  split
  · exact leaveUp_left s p 0x06 .disabled
  · split
    · exact ⟨moved _, portsBut_trans (abortTo_others s p _ _) (silent_setSt _ p _).others⟩
    · exact ⟨moved s, (silent_setSt s p _).others⟩

theorem steady_toDisabled {c : Cmd} : Steady c s (toDisabled s p) := by
  unfold toDisabled
  simp only []
  refine Steady.trans ?_ (steady_modPort fun _ => rfl)
  split
  · exact steady_leaveUp _ _ _
  · split
    · exact (steady_abortTo _ _ _).trans (steady_setSt _ _)
    · exact steady_setSt _ _

/-- A port that PORT.DISABLE meets: its runs ended, then DISABLED (R97, R451). -/
def disabledPort : State :=
  if (getPort (endCal (endChamois s p) p) p).st == .disabled then endCal (endChamois s p) p
  else toDisabled (endCal (endChamois s p) p) p

theorem disabledPort_disabled : (getPort (disabledPort s p) p).st = .disabled ∧ PortsBut p s (disabledPort s p) := by
  unfold disabledPort
  split
  · rename_i already
    exact ⟨eq_of_beq already, ended_others s p⟩
  · obtain ⟨st, others⟩ := toDisabled_disabled (endCal (endChamois s p) p) p
    exact ⟨st, portsBut_trans (ended_others s p) others⟩

theorem steady_disabledPort {c : Cmd} : Steady c s (disabledPort s p) := by
  have ended : Steady c s (endCal (endChamois s p) p) := (steady_endChamois p).trans (steady_endCal p)
  unfold disabledPort
  split
  · exact ended
  · exact ended.trans (steady_toDisabled _ p)

theorem restartPort_restarts : (getPort (restartPort s p) p).st = .negotiate ∧
    (getPort (restartPort s p) p).attempts = 0 ∧ (getPort (restartPort s p) p).neg.open_ = true ∧
    PortsBut p s (restartPort s p) := by
  have ended : PortsBut p s (endDigital (endCal (endChamois s p) p) p) :=
    portsBut_trans (ended_others s p) (endDigital_others _ p)
  unfold restartPort
  simp only []
  refine And.imp id (And.imp id (And.imp id fun others => portsBut_trans ?_ others)) (freshAttempt_opens _ p)
  split
  · exact portsBut_trans ended (leaveUp_left _ p _ _).2
  · split
    · exact portsBut_trans ended (abortTo_others _ p _ _)
    · exact ended

theorem steady_restartPort {c : Cmd} : Steady c s (restartPort s p) := by
  unfold restartPort
  simp only []
  refine Steady.trans ?_ (steady_newAttempt p)
  refine Steady.trans ?_ (steady_clearAttempts p)
  have ended : Steady c s (endDigital (endCal (endChamois s p) p) p) :=
    ((steady_endChamois p).trans (steady_endCal p)).trans (steady_endDigital p)
  split
  · exact ended.trans (steady_leaveUp _ _ _)
  · split
    · exact ended.trans (steady_abortTo _ _ _)
    · exact ended

end

theorem endRuns_others (s : State) (p : PortId) : PortsBut p s (endRuns s p) := by
  unfold endRuns
  simp only []
  split
  · exact portsBut_trans (ended_others s p) (silent_newAttempt _ p).others
  · exact ended_others s p

/-- Nothing that PORT.ENABLE ends runs: the port stays as it is. -/
theorem endRuns_idle {s : State} {p : PortId} (chamois : chamoisRuns (getPort s p) = false)
    (cal : (getPort s p).cal = none) : endRuns s p = s := by
  simp [endRuns, endChamois, endCal, chamois, cal]

theorem endDigital_idle {s : State} {p : PortId} (loop : (getPort s p).loop ≠ .digital) : endDigital s p = s := by
  simp [endDigital, loop]

/-! ### Start-up commands (R97, R109, R129, R135, R434) -/

section
variable {c : Cmd} {p : PortId} {s : State} (turn : myTurn s c = true) (gate : portGate s p = none)
include turn gate

theorem exec_portEnable_refused (must : (getPort s p).mustCommit = true) :
    exec (.portEnable c p) s = .next (reject s 0x0103 c (refusedPort s p).1 (refusedPort s p).2) := by
  simp [exec, execPortEnable, turn, gate, must]

theorem exec_portEnable_disabled (must : (getPort s p).mustCommit = false) (st : (getPort s p).st = .disabled) :
    exec (.portEnable c p) s = .next (completeOk (newAttempt (clearAttempts (endDigital (endRuns s p) p) p) p) 0x0103 c
      (portBlocks p) 0) := by
  simp [exec, execPortEnable, turn, gate, must, st]

theorem exec_portEnable_other (must : (getPort s p).mustCommit = false) (st : (getPort s p).st ≠ .disabled) :
    exec (.portEnable c p) s = .next (completeOk (endDigital (endRuns s p) p) 0x0103 c (portBlocks p) 0) := by
  simp [exec, execPortEnable, turn, gate, must, st]

theorem exec_portDisable :
    exec (.portDisable c p) s = .next (completeOk (disabledPort s p) 0x0104 c (portBlocks p) 0) := by
  simp [exec, execPortDisable, turn, gate, disabledPort]

theorem exec_portRestart_refused (st : (getPort s p).st = .disabled) :
    exec (.portRestart c p) s = .next (reject s 0x0106 c (refusedPort s p).1 (refusedPort s p).2) := by
  simp [exec, execPortRestart, turn, gate, st]

theorem exec_portRestart (st : (getPort s p).st ≠ .disabled) :
    exec (.portRestart c p) s = .next (completeOk (restartPort s p) 0x0106 c (portBlocks p) 0) := by
  simp [exec, execPortRestart, turn, gate, st]

theorem exec_portTrain_refused (st : (getPort s p).st = .up) (unforced : forced c = false) :
    exec (.portTrain c p) s = .next (reject s 0x0105 c (refusedPort s p).1 (refusedPort s p).2) := by
  simp [exec, execPortTrain, turn, gate, st, unforced]

theorem exec_portTrain (st : (getPort s p).st ≠ .disabled) (may : (getPort s p).st ≠ .up ∨ forced c = true) :
    exec (.portTrain c p) s = .next (completeOk (modPort (restartPort s p) p fun y => { y with trainNext := true })
      0x0105 c (portBlocks p) 0) := by
  have acts : ((getPort s p).st == .disabled || ((getPort s p).st == .up && !forced c)) = false := by
    rcases may with other | force <;> simp [*]
  simp only [exec, execPortTrain, turn, gate, acts, Bool.not_true, Bool.false_eq_true, if_false]

end

/-- Settles O25: `exec_port…` says which state each command leads to, `freshAttempt_opens` and `restartPort_restarts`
what a new attempt shows; what is done beside the command leaves it running (`RunsOn`, `Steady`), so that it is
answered. -/
theorem portStartRows : Obligations.PortStartRows := by
  unfold Obligations.PortStartRows
  refine ⟨?enable, ?started, ?mustCommit, ?disable, ?restart, ?refused, ?train, ?up⟩
  case enable =>
    intro c p s runs turn gate must st
    obtain ⟨st', attempts, opens, others⟩ := freshAttempt_opens (endDigital (endRuns s p) p) p
    refine ⟨_, exec_portEnable_disabled turn gate must st, ?_⟩
    simp only [completeOk, PortsBut, getPort_complete]
    refine ⟨st', attempts, opens,
      portsBut_trans (portsBut_trans (endRuns_others s p) (endDigital_others _ p)) others, ?_⟩
    have still : RunsOn s (endDigital (endRuns s p) p) := runsOn_trans (runsOn_endRuns p) (runsOn_endDigital p)
    have fresh : RunsOn s (newAttempt (clearAttempts (endDigital (endRuns s p) p) p) p) :=
      runsOn_trans (runsOn_trans still (.of_rings rfl)) (runsOn_newAttempt p)
    exact answered_after (regs_of_kept (by simp)) (fresh.runs runs) _ _ 0
  case started =>
    intro c p s runs turn gate must st loop chamois cal
    refine ⟨_, exec_portEnable_other turn gate must st, ?_⟩
    rw [endRuns_idle chamois cal, endDigital_idle loop]
    exact ⟨complete_ports _ _ _ _ _ _, answered_completeOk runs _ _ _⟩
  case mustCommit =>
    intro c p s runs turn gate must
    exact ⟨_, exec_portEnable_refused turn gate must, complete_ports _ _ _ _ _ _, answered_reject runs _ _ _⟩
  case disable =>
    intro c p s runs new turn gate
    obtain ⟨st, others⟩ := disabledPort_disabled s p
    refine ⟨_, exec_portDisable turn gate, ?_⟩
    simp only [completeOk, PortsBut, getPort_complete]
    refine ⟨st, others, answered_after ?_ (steady_disabledPort s p (.of_newCmd runs new)).1.runs _ _ 0⟩
    exact regs_of_kept (by simp [disabledPort, apply_ite kept])
  case restart =>
    intro c p s runs new turn gate st
    obtain ⟨st', attempts, opens, others⟩ := restartPort_restarts s p
    refine ⟨_, exec_portRestart turn gate st, ?_⟩
    simp only [completeOk, PortsBut, getPort_complete]
    refine ⟨st', attempts, opens, others, ?_⟩
    exact answered_after (regs_of_kept (by simp)) (steady_restartPort s p (.of_newCmd runs new)).1.runs _ _ 0
  case refused =>
    intro c p s runs turn gate st
    exact ⟨_, exec_portRestart_refused turn gate st, complete_ports _ _ _ _ _ _, answered_reject runs _ _ _⟩
  case train =>
    intro c p s runs new turn gate st may
    obtain ⟨st', attempts, -, others⟩ := restartPort_restarts s p
    refine ⟨_, exec_portTrain turn gate st may, ?_⟩
    have marked : Steady c s (modPort (restartPort s p) p fun y => { y with trainNext := true }) :=
      (steady_restartPort s p).trans (steady_modPort fun _ => rfl)
    simp only [completeOk, PortsBut, getPort_complete, getPort_modPort_self]
    refine ⟨st', attempts, trivial, portsBut_trans others (portsBut_modPort _), ?_⟩
    exact answered_after (regs_of_kept (by simp)) (marked (.of_newCmd runs new)).1.runs _ _ 0
  case up =>
    intro c p s runs turn gate st unforced
    exact ⟨_, exec_portTrain_refused turn gate st unforced, complete_ports _ _ _ _ _ _, answered_reject runs _ _ _⟩

/-! ### A kept result beside a link that goes down (R133, R238) -/

/-- Port 0 is up and has had as many uncorrectable codewords as DOWN_UNCORR allows. Its herd's path captures the port's
ADC into ring 5, which OBS.START may name though it is bound to port 1 (R261). Port 1 keeps the result of an automatic
run, for which ring 5 now offers a buffer (R238). -/
def keptBesideCapture : State :=
  { State.reset with
    regs := [(0x400148, 0x633)]
    ports := [(0, { Port.reset with
      st := .up, live := [(0x08, 64)]
      lock := { Locks.none with frame := Quad.all true, timing := true, signal := Quad.all true }
      dp := { DataPath.empty with uncorr := List.replicate 64 true } }),
      (1, { Port.reset with st := .hold, diag := { Diag.none with kept := some [] } })]
    herds := [(0, { Herd.reset with obs := { Obs.reset with st := .running, ring := 5 } })]
    io := { State.reset.io with rings := [(5, { Ring.reset with
      st := .active, bufs := [{ addr := 0, length := 4096, flags := 0, tag := 0, rsvdZero := true }] })] } }

/-- An uncorrectable codeword. -/
def lostCodeword : RxSlot := { samples := [], verdict := .uncorrectable, kind := .data, agc := [] }

/-- Refutes O46: its fourth clause has a line slot leave every port but its own as it was. A slot's samples also reach
the herd's capture (R246), which takes a buffer, and a kept result of the port that the buffer's ring is bound to is
written before (R238). In `keptBesideCapture` the codeword that ends port 0's link has port 1's result written, which
port 1 keeps no longer. -/
theorem not_relinkAfterLoss : ¬ Obligations.RelinkAfterLoss := by
  unfold Obligations.RelinkAfterLoss
  intro rows
  obtain ⟨-, -, -, degraded, -⟩ := rows
  obtain ⟨t, run, -, -, -, -, -, others⟩ := degraded 0 lostCodeword keptBesideCapture (by decide) (by decide)
    (by decide) (by decide) (by decide) (by decide) (by decide) (by decide) (by decide) (by decide)
  obtain rfl := Host.Outcome.next.inj run
  have kept := congrArg (fun x : Port => x.diag.kept.isSome) (others 1 (by decide))
  exact absurd kept (by decide)

end Sys2Proof.Proofs
end

section
/-!
PROOFS of the family 05_channel_contexts: the CTX commands (O27, O28), the events of the context store (O29).
-/

namespace Sys2Proof.Proofs

open Sys2Proof.Machine Sys2Proof.Safety

/-! ### What a ring runs, and its DMA fault (R289, R295) -/

/-- Every ring runs in t the command that it runs in s, and holds the DMA fault that it holds in s. -/
def RingsOn (s t : State) : Prop := ∀ r, (getRing t r).running = (getRing s r).running ∧
  (getRing t r).dmaBad = (getRing s r).dmaBad

section
variable {s t u : State}

theorem RingsOn.refl : RingsOn s s := fun _ => ⟨rfl, rfl⟩

theorem RingsOn.trans (h : RingsOn s t) (k : RingsOn t u) : RingsOn s u :=
  fun r => ⟨(k r).1.trans (h r).1, (k r).2.trans (h r).2⟩

theorem RingsOn.runs (h : RingsOn s t) {c : Cmd} (runs : Runs s c) : Runs t c := (h c.ring).1.trans runs

theorem RingsOn.dma (h : RingsOn s t) (r : RingId) : (getRing t r).dmaBad = (getRing s r).dmaBad := (h r).2

theorem RingsOn.of_rings (rings : t.io.rings = s.io.rings) : RingsOn s t :=
  fun r => by simp only [getRing, rings, and_self]

theorem ringsOn_setRing {r : RingId} {x : Ring} (run : x.running = (getRing s r).running)
    (dma : x.dmaBad = (getRing s r).dmaBad) : RingsOn s (setRing s r x) := by
  intro q
  by_cases e : q = r
  · subst e
    rw [getRing_setRing_self]
    exact ⟨run, dma⟩
  · rw [getRing_setRing_ne _ _ e]
    exact ⟨rfl, rfl⟩

theorem ringsOn_modRing {r : RingId} {f : Ring → Ring} (run : ∀ x, (f x).running = x.running)
    (dma : ∀ x, (f x).dmaBad = x.dmaBad) : RingsOn s (modRing s r f) := ringsOn_setRing (run _) (dma _)

theorem ringsOn_modPort (p : PortId) (f : Port → Port) : RingsOn s (modPort s p f) := .of_rings rfl

theorem ringsOn_forEach {α : Type} {f : State → α → State} (each : ∀ s x, RingsOn s (f s x)) (l : List α)
    (s : State) : RingsOn s (forEach l f s) := by
  unfold forEach
  induction l generalizing s with
  | nil => exact .refl
  | cons x l ih => exact (each s x).trans (ih _)

/-! Interrupts and records. -/

theorem msixSend_rings (s : State) (v : Nat) : (msixSend s v).io.rings = s.io.rings := by
  unfold msixSend
  split
  · split <;> rfl
  · rfl

theorem vecCheck_rings (s : State) (v : Nat) : (vecCheck s v).io.rings = s.io.rings := by
  unfold vecCheck
  simp only []
  split
  · rfl
  · split
    · exact msixSend_rings _ _
    · rfl

theorem ringsOn_ringRequest (r : RingId) : RingsOn s (ringRequest s r) := by
  unfold ringRequest
  simp only []
  split
  · refine RingsOn.trans (t := setRing s r { getRing s r with armed := false }) (ringsOn_setRing rfl rfl) ?_
    exact .of_rings (vecCheck_rings _ _)
  · split
    · exact .of_rings (vecCheck_rings _ _)
    · exact .refl

theorem ringsOn_putRecord (q : RingId) (r : Completion) : RingsOn s (putRecord s q r) := by
  refine RingsOn.trans ?_ (ringsOn_ringRequest q)
  exact ringsOn_setRing (s := emit s _) rfl rfl

theorem ringsOn_putCompletion (q : RingId) (r : Completion) : RingsOn s (putCompletion s q r) := by
  unfold putCompletion
  simp only []
  split
  · exact ringsOn_putRecord q r
  · exact ringsOn_setRing rfl rfl

theorem ringsOn_putReserved (q : RingId) (r : Completion) : RingsOn s (putReserved s q r) := by
  have freed : RingsOn s (setRing s q { getRing s q with reserved := (getRing s q).reserved - 1 }) :=
    ringsOn_setRing rfl rfl
  unfold putReserved
  simp only []
  split
  · exact freed.trans (ringsOn_putRecord q r)
  · exact freed.trans (ringsOn_setRing rfl rfl)

/-! Events. -/

theorem ringsOn_markLost (old new : EvBuf) : RingsOn s (markLost s old new) := by
  refine ringsOn_forEach (fun s e => ?_) _ s
  split
  · exact ringsOn_modRing (fun _ => rfl) fun _ => rfl
  · exact .refl

theorem ringsOn_pushGlobal (e : Event) : RingsOn s (pushGlobal s e) := by
  unfold pushGlobal
  split
  · exact .refl
  · exact RingsOn.trans (.of_rings rfl) (ringsOn_markLost _ _)

theorem ringsOn_postGlobal (g : Nat) (payload : List Fld) : RingsOn s (postGlobal s g payload) :=
  RingsOn.trans (t := bumpGen s (globalSrc g)) (.of_rings rfl) (ringsOn_pushGlobal _)

theorem ringsOn_pushPort (p : PortId) (e : Event) : RingsOn s (pushPort s p e) := by
  have buffered (b : EvBuf) : RingsOn s (setHerdBuf s (herdOf p) b) := .of_rings rfl
  unfold pushPort
  simp only []
  split
  · exact .refl
  · split
    · exact ((buffered _).trans (ringsOn_markLost _ _)).trans (ringsOn_postGlobal _ _)
    · exact (buffered _).trans (ringsOn_markLost _ _)

theorem ringsOn_postPort (p : PortId) (n : Nat) (payload : List Fld) : RingsOn s (postPort s p n payload) :=
  RingsOn.trans (t := bumpGen s (portSrc p n)) (.of_rings rfl) (ringsOn_pushPort p _)

theorem ringsOn_postNaming (p : PortId) (n : Nat) (payload : List Fld) (k : Option Taken) :
    RingsOn s (postNaming s p n payload k) :=
  RingsOn.trans (t := bumpGen s (portSrc p n)) (.of_rings rfl) (ringsOn_pushPort p _)

/-! Data buffers. -/

theorem ringsOn_popBuf (r : RingId) (d : DataDesc) (rest : List DataDesc) : RingsOn s (popBuf s r d rest).2 :=
  ringsOn_setRing rfl rfl

/-- A descriptor that leaves its ring and is returned (R294). -/
theorem ringsOn_returned (r : RingId) (d : DataDesc) (rest : List DataDesc) (kind : BitVec 3) (status : BitVec 8) :
    RingsOn s (completeBuf (popBuf s r d rest).2 kind (popBuf s r d rest).1 status 0) :=
  (ringsOn_popBuf r d rest).trans (ringsOn_putCompletion _ _)

theorem ringsOn_skipBad (isIn : Bool) (r : RingId) (l : List DataDesc) (s : State) :
    RingsOn s (skipBad isIn r l s) := by
  induction l generalizing s with
  | nil => exact .refl
  | cons d rest ih =>
    unfold skipBad
    split
    · exact .refl
    · exact (ringsOn_returned r d rest _ _).trans (ih _)

theorem ringsOn_returnShort (need : Nat) (r : RingId) (l : List DataDesc) (s : State) :
    RingsOn s (returnShort need r l s) := by
  induction l generalizing s with
  | nil => exact .refl
  | cons d rest ih =>
    unfold returnShort
    split
    · exact .refl
    · exact (ringsOn_returned r d rest _ _).trans (ih _)

theorem ringsOn_cleanHead (r : RingId) : RingsOn s (cleanHead s r) := ringsOn_skipBad _ _ _ _

theorem ringsOn_takeBuf (ring : Option RingId) (need : Nat) : RingsOn s (takeBuf s ring need).st := by
  unfold takeBuf
  split
  · exact .refl
  · rename_i r
    simp only []
    refine (ringsOn_cleanHead r).trans ?_
    split
    · exact .refl
    · split
      · exact .refl
      · refine RingsOn.trans ?_ (ringsOn_cleanHead r)
        exact (ringsOn_popBuf _ _ _).trans (ringsOn_modRing (fun _ => rfl) fun _ => rfl)

theorem ringsOn_finishIn (k : Taken) (bytes : Nat) (fs : List Fld) : RingsOn s (finishIn s k bytes fs) := by
  unfold finishIn
  split
  · refine RingsOn.trans ?_ (ringsOn_putCompletion _ _)
    have untaken : RingsOn s (untake s k) := ringsOn_modRing (fun _ => rfl) fun _ => rfl
    exact untaken.trans (.of_rings rfl)
  · exact .refl

theorem ringsOn_deliverKept (r : RingId) (p : PortId) : RingsOn s (deliverKept s r p) := by
  unfold deliverKept
  simp only []
  split
  · exact .refl
  · have taken := (ringsOn_returnShort 1280 r (getRing s r).bufs s).trans (ringsOn_takeBuf (some r) 1280)
    split
    · exact taken
    · refine RingsOn.trans ?_ (ringsOn_postNaming _ _ _ _)
      refine RingsOn.trans ?_ (ringsOn_modPort p _)
      exact taken.trans (ringsOn_finishIn _ _ _)

theorem ringsOn_takeIn (ring : Option RingId) (need : Nat) : RingsOn s (takeIn s ring need).st := by
  unfold takeIn
  split
  · split
    · exact (ringsOn_deliverKept _ _).trans (ringsOn_takeBuf _ _)
    · exact ringsOn_takeBuf _ _
  · exact ringsOn_takeBuf _ _

/-! ### Completions -/

theorem mirrorWrite_rings (s : State) (o : MirrorObj) : (mirrorWrite s o).io.rings = s.io.rings := by
  unfold mirrorWrite
  split <;> rfl

theorem mirrorWrite_gens (s : State) (o : MirrorObj) : (mirrorWrite s o).io.gens = s.io.gens := by
  unfold mirrorWrite
  split <;> rfl

theorem dequeue_rings (s : State) (c : Cmd) : (dequeue s c).io.rings = s.io.rings := by
  unfold dequeue
  split <;> split <;> rfl

theorem dequeue_gens (s : State) (c : Cmd) : (dequeue s c).io.gens = s.io.gens := by
  unfold dequeue
  split <;> split <;> rfl

/-- A completion ends its ring's command and leaves every ring's DMA fault. -/
theorem complete_dma (s : State) (op : Nat) (c : Cmd) (l : List MirrorObj) (a : BitVec 8) (res : BitVec 64)
    (r : RingId) : (getRing (complete s op c l a res) r).dmaBad = (getRing s r).dmaBad := by
  have written : (getRing (forEach l mirrorWrite (dequeue s c)) r).dmaBad = (getRing s r).dmaBad := by
    have rings := (forEach_keeps (fun t => t.io.rings) mirrorWrite_rings l _).trans (dequeue_rings s c)
    simp only [getRing, rings]
  unfold complete
  simp only []
  split
  · refine ((ringsOn_putReserved _ _).dma r).trans (Eq.trans ?_ written)
    by_cases e : r = c.ring
    · subst e
      rw [getRing_modRing_self]
    · rw [getRing_modRing_ne _ _ e]
  · exact written

theorem putReserved_gens (s : State) (q : RingId) (r : Completion) : (putReserved s q r).io.gens = s.io.gens := by
  unfold putReserved
  simp only []
  split
  · exact putRecord_gens _ _ _
  · rfl

/-- A completion is no occurrence of an event. -/
theorem complete_gens (s : State) (op : Nat) (c : Cmd) (l : List MirrorObj) (a : BitVec 8) (r : BitVec 64) :
    (complete s op c l a r).io.gens = s.io.gens := by
  have written := (forEach_keeps (fun t => t.io.gens) mirrorWrite_gens l _).trans (dequeue_gens s c)
  unfold complete
  simp only []
  split
  · exact (putReserved_gens _ _ _).trans written
  · exact written

end

/-- A command that ends with ST_OK and no result is answered. -/
theorem answered_zero_after {c : Cmd} {s u : State} {op : Nat} {l : List MirrorObj} (regs : u.regs = s.regs)
    (runs : Runs u c) : Answered s (completeOk u op c l 0) c op stOk 0 := answered_after regs runs op l 0

/-- A command refused at the end of its effect is answered. -/
theorem answered_reject_after {c : Cmd} {s u : State} {op : Nat} {a : BitVec 8} {r : BitVec 64}
    (regs : u.regs = s.regs) (runs : Runs u c) : Answered s (reject u op c a r) c op a r :=
  Answered.after regs (answered_reject runs op a r)

/-- A command that writes a result to a buffer which no DMA fault meets is answered with ST_OK (R295). -/
theorem answered_answerIn {s : State} {c : Cmd} (runs : Runs s c) (op : Nat) (g : Target) (need : Nat)
    (fs : List Fld) (r : Nat) {b : Taken} (got : (takeIn s (dataRingOf s c g 3) need).got = some b)
    (dma : (getRing s b.ring).dmaBad = false) :
    Answered s (answerIn s op c g need fs r) c op stOk (BitVec.ofNat 64 r) := by
  have taken : RingsOn s (takeIn s (dataRingOf s c g 3) need).st := ringsOn_takeIn _ _
  have written := taken.trans (ringsOn_finishIn b need fs)
  simp only [answerIn, answerWith, got, taken.dma, dma, Bool.false_eq_true, if_false]
  exact answered_after (regs_of_kept (by simp)) (written.runs runs) op [] r

/-! ### A save that ends (R142, R146) -/

/-- A port but for what the end of a save writes of it. -/
def unsaved (x : Port) : Port :=
  { x with save := none, lastSave := none, firstSaved := false, saveHeld := false, partnerHeld := false }

/-- What the end of a save leaves, beside a command that it does not complete: the command runs on, every other port is
as it was, the port itself but for its saves, no event that the hub raises has occurred but HERD_EVENTS_COLLAPSED (35),
and every ring holds its DMA fault. -/
structure Settles (p : PortId) (c : Cmd) (s t : State) : Prop where
  ready  : Ready c s → Ready c t
  others : PortsBut p s t
  own    : unsaved (getPort t p) = unsaved (getPort s p)
  gens   : ∀ g, g ≠ 35 → genOf t (globalSrc g) = genOf s (globalSrc g)
  dma    : ∀ r, (getRing t r).dmaBad = (getRing s r).dmaBad

section
variable {p : PortId} {c : Cmd} {s t u : State}

theorem Settles.refl : Settles p c s s := ⟨id, fun _ _ => rfl, rfl, fun _ _ => rfl, fun _ => rfl⟩

theorem Settles.trans (h : Settles p c s t) (k : Settles p c t u) : Settles p c s u :=
  ⟨k.ready ∘ h.ready, portsBut_trans h.others k.others, k.own.trans h.own,
    fun g n => (k.gens g n).trans (h.gens g n), fun r => (k.dma r).trans (h.dma r)⟩

/-- A definition that writes no port. -/
theorem Settles.of_ports (ports : t.ports = s.ports) (ready : Ready c s → Ready c t)
    (gens : ∀ g, g ≠ 35 → genOf t (globalSrc g) = genOf s (globalSrc g))
    (dma : ∀ r, (getRing t r).dmaBad = (getRing s r).dmaBad) : Settles p c s t :=
  ⟨ready, portsBut_of_eq p ports, by simp only [getPort, ports], gens, dma⟩

theorem settles_modPort {f : Port → Port} (h : ∀ x, unsaved (f x) = unsaved x) : Settles p c s (modPort s p f) :=
  ⟨fun ready => ready.of_ports (modPort_onlyIn s p f), portsBut_modPort f, by rw [getPort_modPort_self, h],
    fun _ _ => rfl, fun _ => rfl⟩

theorem settles_setDir (x : CtxDir) : Settles p c s (setDir s p x) :=
  .of_ports rfl (fun ready => ⟨ready.runs, ready.waits, ready.paths⟩) (fun _ _ => rfl) fun _ => rfl

theorem settles_storeSave (e : Ctx) : Settles p c s (storeSave s p e) :=
  .of_ports rfl (fun ready => ⟨ready.runs, ready.waits, ready.paths⟩) (fun _ _ => rfl) fun _ => rfl

theorem genOf_pushPort_global (s : State) (p : PortId) (e : Event) {k : Nat} (apart : k ≠ globalSrc 35) :
    genOf (pushPort s p e) k = genOf s k := by
  unfold pushPort
  simp only []
  split
  · rfl
  · split
    · exact (genOf_postGlobal_ne _ _ _ apart).trans (genOf_of_gens (markLost_gens _ _ _) k)
    · exact genOf_of_gens (markLost_gens _ _ _) k

theorem settles_postPort {n : Nat} (small : n < 16) (l : List Fld) : Settles p c s (postPort s p n l) := by
  refine .of_ports (postPort_ports _ _ _ _) (fun ready => (steady_postPort p n l ready).1) (fun g other => ?_)
    (ringsOn_postPort p n l).dma
  have apart : globalSrc g ≠ globalSrc 35 := by
    unfold globalSrc
    omega
  have port : globalSrc g ≠ portSrc p n := by
    unfold globalSrc portSrc
    omega
  exact (genOf_pushPort_global _ p _ apart).trans (genOf_bumpGen_ne s port)

theorem settles_complete {d : Cmd} (other : d ≠ c) (op : Nat) (l : List MirrorObj) (a : BitVec 8) (r : BitVec 64) :
    Settles p c s (complete s op d l a r) :=
  .of_ports (complete_ports _ _ _ _ _ _) (fun ready => (steady_complete other op l a r ready).1)
    (fun _ _ => genOf_of_gens (complete_gens s op d l a r) _) (complete_dma s op d l a r)

/-- Waits of no other commands than before. -/
theorem settles_waits {l : List Wait} (h : ∀ w ∈ l, ∃ v ∈ s.waits, waitCmd w = waitCmd v) :
    Settles p c s { s with waits := l } := by
  refine .of_ports rfl (fun ready => ⟨ready.runs, fun w m => ?_, ready.paths⟩) (fun _ _ => rfl) fun _ => rfl
  obtain ⟨v, held, same⟩ := h w m
  exact same ▸ ready.waits v held

theorem settles_unpair (d : Cmd) : Settles p c s (unpair s d) :=
  settles_waits fun w m => ⟨w, (List.mem_filter.mp m).1, rfl⟩

theorem settles_pairedStep {d : Cmd} (other : d ≠ c) (visible acked : Bool) :
    Settles p c s (pairedStep s d visible acked) := by
  unfold pairedStep
  split
  · split
    · exact (settles_unpair d).trans (settles_complete other _ _ _ _)
    · refine settles_waits fun w m => ?_
      obtain ⟨v, held, rfl⟩ := List.mem_map.mp m
      refine ⟨v, held, ?_⟩
      split
      · split <;> rfl
      · rfl
  · exact .refl

theorem settles_pairedFail {d : Cmd} (other : d ≠ c) (status : BitVec 8) :
    Settles p c s (pairedFail s d status) := by
  unfold pairedFail
  split
  · exact (settles_unpair d).trans (settles_complete other _ _ _ _)
  · exact .refl

theorem settles_saveVisible (other : ∀ v, (getPort s p).save = some v → v.cmd ≠ some c) :
    Settles p c s (saveVisible s p) := by
  unfold saveVisible
  split
  · exact .refl
  · rename_i v save
    have apart {d : Cmd} (own : v.cmd = some d) : d ≠ c := fun e => other v save (e ▸ own)
    have taken : Settles p c s (modPort s p fun x => { x with save := none }) := settles_modPort fun _ => rfl
    simp only []
    split
    · generalize shown : postPort _ p 8 _ = t
      have posted : Settles p c s t := by
        rw [← shown]
        refine Settles.trans ?_ (settles_postPort (by decide) _)
        refine Settles.trans ?_ (settles_modPort fun x => by split <;> rfl)
        split
        · exact (taken.trans (settles_setDir _)).trans (settles_storeSave _)
        · exact taken.trans (settles_setDir _)
      split
      · rename_i d own
        split
        · exact posted.trans (settles_pairedStep (apart own) _ _)
        · exact posted.trans (settles_complete (apart own) _ _ _ _)
      · exact posted
    · generalize waits : modPort _ p (fun x => holdSave x v.cause) = t
      have held : Settles p c s t := waits ▸ taken.trans (settles_modPort fun _ => rfl)
      split
      · rename_i d own
        split
        · exact held.trans (settles_pairedFail (apart own) _)
        · exact held.trans (settles_complete (apart own) _ _ _ _)
      · exact held

/-- A command that is new to its target is not the command of a save. -/
theorem settles_saveVisible_of_newCmd (new : NewCmd s c) : Settles p c s (saveVisible s p) := by
  refine settles_saveVisible fun v save own => ?_
  obtain ⟨-, -, saves, -⟩ := new
  have apart := saves p
  simp [save, own] at apart

theorem saveVisible_of_none (none : (getPort s p).save = none) : saveVisible s p = s := by
  rw [saveVisible, none]

end

/-! ### What a saved port keeps (R142, R152) -/

section
variable {p : PortId} {x y : Port} (same : unsaved x = unsaved y)
include same

theorem unsaved_st : x.st = y.st := by
  have k := congrArg (·.st) same
  exact k

theorem unsaved_pairs : x.pairs = y.pairs := by
  have k := congrArg (·.pairs) same
  exact k

end

theorem shownPort_saveVisible {p : PortId} {c : Cmd} {s : State} (settled : Settles p c s (saveVisible s p)) :
    shownPort (saveVisible s p) p = shownPort s p := by
  have flt : (saveVisible s p).flt = s.flt := onlyIn_of_pick (m := [.store, .ports, .herds, .io, .waits]) (by simp)
    .flt (by simp)
  rw [shownPort, heldByFixed, unsaved_st settled.own, flt, shownPort, heldByFixed]

theorem now_saveVisible (s : State) (p : PortId) : now (saveVisible s p) = now s := by
  have time : (saveVisible s p).time = s.time := onlyIn_of_pick (m := [.store, .ports, .herds, .io, .waits])
    (by simp) .time (by simp)
  rw [now, time, now]

/-! ### Directories (R142, R153) -/

/-- A context that a change has met is one that the change makes. -/
theorem modCtx_entry {s : State} {p : PortId} {e : Ctx} {f : Ctx → Ctx} {x : Ctx}
    (held : x ∈ (getDir (modCtx s p e f) p).entries) (own : x.entry = e.entry) : ∃ d, x = f d := by
  simp only [modCtx, getDir_setDir_self, List.mem_map] at held
  obtain ⟨d, -, rfl⟩ := held
  split at own
  · rename_i met
    exact ⟨d, if_pos met⟩
  · rename_i other
    exact absurd own (by simpa using other)

theorem dirDrop_entry (d : CtxDir) (e : Ctx) {x : Ctx} (held : x ∈ (dirDrop d e).entries) : x.entry ≠ e.entry := by
  simpa using (List.mem_filter.mp held).2

theorem posted_postGlobal (s : State) (g : Nat) (l : List Fld) : Posted s (postGlobal s g l) (globalSrc g) 1 :=
  (genOf_of_gens (pushGlobal_gens _ _) _).trans (genOf_bumpGen_self s _)

/-! ### The commands that name a context (R150, R318) -/

section
variable {s : State} {c : Cmd} {p : PortId} {k : CtxKey} {e : Ctx} (turn : myTurn s c = true)
  (gate : portGate s p = none) (named : ctxNamed (saveVisible s p) p k = .inr e)
include turn gate named

theorem exec_ctxPin (room : ((getDir (saveVisible s p) p).entries.filter (·.pinned)).length < 8) :
    exec (.ctxPin c p k) s =
      .next (completeOk (modCtx (saveVisible s p) p e fun d => { d with pinned := true }) 0x0303 c [] 0) := by
  simp [exec, execCtxPin, turn, gate, named, room]

theorem exec_ctxPin_full (full : 8 ≤ ((getDir (saveVisible s p) p).entries.filter (·.pinned)).length)
    (free : e.pinned = false) :
    exec (.ctxPin c p k) s = .next (reject (saveVisible s p) 0x0303 c stNoResource 0) := by
  simp [exec, execCtxPin, turn, gate, named, full, free]

theorem exec_ctxUnpin : exec (.ctxUnpin c p k) s =
    .next (completeOk (modCtx (saveVisible s p) p e fun d => { d with pinned := false }) 0x0304 c [] 0) := by
  simp [exec, execCtxUnpin, turn, gate, named]

theorem exec_ctxEvict (free : e.pinned = false) : exec (.ctxEvict c p k) s =
    .next (completeOk (setDir (saveVisible s p) p (dirDrop (getDir (saveVisible s p) p) e)) 0x0305 c [] 0) := by
  simp [exec, execCtxEvict, turn, gate, named, free]

theorem exec_ctxEvict_pinned (pinned : e.pinned = true) : exec (.ctxEvict c p k) s =
    .next (reject (saveVisible s p) 0x0305 c stRefused (BitVec.ofNat 64 (shownPort (saveVisible s p) p))) := by
  simp [exec, execCtxEvict, turn, gate, named, pinned, refusedPort]

theorem exec_ctxLoad_up {read : CtxRead} (up : (getPort s p).st = .up) (partner : (getPort s p).partner = k.partner)
    (sig : (getPort s p).sig = k.sig) (mode : e.mode = (getPort s p).mode) (fec : e.fec = (getPort s p).fec)
    (good : readCause p e read = 0) : exec (.ctxLoad c p k read) s =
      .next (completeOk (modCtx (loadCoefs (saveVisible s p) p e.coefs) p e fun d =>
        { d with lastUse := now (loadCoefs (saveVisible s p) p e.coefs) }) 0x0302 c (portBlocks p) 0) := by
  simp [exec, execCtxLoad, turn, gate, named, up, isTraining, partner, sig, mode, fec, checkRead, good]

theorem exec_ctxLoad_used {read : CtxRead} (down : (getPort s p).st ≠ .up)
    (idle : isTraining (getPort s p).st = false) (good : readCause p e read = 0) : exec (.ctxLoad c p k read) s =
      .next (completeOk (modCtx (saveVisible s p) p e fun d => { d with lastUse := now (saveVisible s p) })
        0x0302 c [] 0) := by
  simp [exec, execCtxLoad, turn, gate, named, down, idle, checkRead, good]

theorem exec_ctxLoad_damaged {read : CtxRead} (down : (getPort s p).st ≠ .up)
    (idle : isTraining (getPort s p).st = false) (bad : readCause p e read ≠ 0) : exec (.ctxLoad c p k read) s =
      .next (reject (dropBad (saveVisible s p) p e (readCause p e read)) 0x0302 c stContextMiss 0) := by
  simp [exec, execCtxLoad, turn, gate, named, down, idle, checkRead, bad]

end

/-- Settles O28: `exec_…` says what each command does once a save in progress is settled, and the command, which is not
that save's, is answered (`settles_saveVisible_of_newCmd`). -/
theorem ctxPinAndEvict : Obligations.CtxPinAndEvict := by
  unfold Obligations.CtxPinAndEvict
  refine ⟨?pins, ?full, ?unpins, ?evicts, ?refused⟩
  case pins =>
    intro c p k e s runs new turn gate room named
    have ready := (settles_saveVisible_of_newCmd (p := p) new).ready (.of_newCmd runs new)
    refine ⟨_, exec_ctxPin turn gate named room, fun x held own => ?_, ?_⟩
    · rw [getDir_completeOk] at held
      obtain ⟨d, rfl⟩ := modCtx_entry held own
      rfl
    · exact answered_zero_after (regs_of_kept (by simp)) ready.runs
  case full =>
    intro c p k e s runs new turn gate full free named
    have ready := (settles_saveVisible_of_newCmd (p := p) new).ready (.of_newCmd runs new)
    exact ⟨_, exec_ctxPin_full turn gate named full free, fun q => getDir_reject _ _ _ _ _ q,
      answered_reject_after (regs_of_kept (by simp)) ready.runs⟩
  case unpins =>
    intro c p k e s runs new turn gate named
    have ready := (settles_saveVisible_of_newCmd (p := p) new).ready (.of_newCmd runs new)
    refine ⟨_, exec_ctxUnpin turn gate named, fun x held own => ?_, ?_⟩
    · rw [getDir_completeOk] at held
      obtain ⟨d, rfl⟩ := modCtx_entry held own
      rfl
    · exact answered_zero_after (regs_of_kept (by simp)) ready.runs
  case evicts =>
    intro c p k e s runs new turn gate free named
    have ready := (settles_saveVisible_of_newCmd (p := p) new).ready (.of_newCmd runs new)
    refine ⟨_, exec_ctxEvict turn gate named free, fun x held => ?_, ?_⟩
    · rw [getDir_completeOk, getDir_setDir_self] at held
      exact dirDrop_entry _ e held
    · exact answered_zero_after (regs_of_kept (by simp)) ready.runs
  case refused =>
    intro c p k e s runs new turn gate pinned named
    have settled := settles_saveVisible_of_newCmd (p := p) new
    have ready := settled.ready (.of_newCmd runs new)
    refine ⟨_, exec_ctxEvict_pinned turn gate named pinned, getDir_reject _ _ _ _ _ p, ?_⟩
    rw [shownPort_saveVisible settled]
    exact answered_reject_after (regs_of_kept (by simp)) ready.runs

/-! ### CTX.SAVE and CTX.LIST (R142, R150, R151) -/

/-- A paired CTX.SAVE waits for its own save and for the partner's acknowledgement (R150). -/
def pairing (s : State) (p : PortId) (c : Cmd) : State :=
  { s with waits := s.waits ++ [.paired p c false false] }

theorem getPort_pairing (s : State) (p : PortId) (c : Cmd) (q : PortId) : getPort (pairing s p c) q = getPort s q := rfl

theorem requested_onlyIn (s : State) (p : PortId) (c : Cmd) (payload : BitVec 64) :
    OnlyIn [.ports, .waits] s (sendInfo (pairing s p c) p 0x20 payload (some c)) := onlyIn_of_pick (by simp [pairing])

theorem sendInfo_save (s : State) (p : PortId) (type : BitVec 8) (payload : BitVec 64) (cmd : Option Cmd) :
    (getPort (sendInfo s p type payload cmd) p).save = (getPort s p).save := by
  rw [sendInfo, getPort_modPort_self]

/-- The records of CTX.LIST, 32 bytes each (R151). -/
def listRecords (s : State) (ps : List PortId) : List Fld :=
  (ctxAll s ps).zipIdx.flatMap fun e => ctxRecord s e.1.1 (32 * e.2) e.1.2

section
variable {s : State} {c : Cmd} {p : PortId} (turn : myTurn s c = true)
include turn

theorem exec_ctxSave (gate : portGate s p = none) (up : (getPort s p).st = .up) (store : storeUp s (chanOf p) = true) :
    exec (.ctxSave c p 0) s = .next (beginSave s p 3 (some c) false) := by
  simp [exec, execCtxSave, turn, gate, up, store]

theorem exec_ctxSave_paired (gate : portGate s p = none) (up : (getPort s p).st = .up)
    (store : storeUp s (chanOf p) = true) : exec (.ctxSave c p 1) s =
      .next (sendInfo (pairing (beginSave s p 3 (some c) true) p c) p 0x20
        ((getPort (beginSave s p 3 (some c) true) p).linkGen.setWidth 64) (some c)) := by
  simp [exec, execCtxSave, turn, gate, up, store, pairing]

theorem exec_ctxList_port (gate : portGate s p = none) (store : storeUp s (chanOf p) = true) :
    exec (.ctxList c (.port p)) s = .next (answerIn (saveVisible s p) 0x0306 c (.port p)
      (32 * (ctxAll (saveVisible s p) [p]).length) (listRecords (saveVisible s p) [p])
      (ctxAll (saveVisible s p) [p]).length) := by
  simp [exec, execCtxList, turn, gate, store, listRecords]

theorem exec_ctxList_hub (low : storeUp s 0 = true) : exec (.ctxList c .hub) s = .next (answerIn s 0x0306 c .hub
    (32 * (ctxAll s (allPorts.filter fun p => storeUp s (chanOf p))).length)
    (listRecords s (allPorts.filter fun p => storeUp s (chanOf p)))
    (ctxAll s (allPorts.filter fun p => storeUp s (chanOf p))).length) := by
  simp [exec, execCtxList, turn, low, listRecords]

end

/-- A port that has no save in progress captures its live set, and no other record changes (R142). -/
theorem beginSave_of_none {s : State} {p : PortId} (free : (getPort s p).save = none) (cause : Nat) (cmd : Option Cmd)
    (paired : Bool) : beginSave s p cause cmd paired = modPort s p fun x => { x with
      save := some { cause := BitVec.ofNat 8 cause, ctx := captureCtx s p cause, cmd := cmd, paired := paired } } := by
  rw [beginSave, saveVisible_of_none free]

theorem ctxAll_port_length (s : State) (p : PortId) : (ctxAll s [p]).length = (getDir s p).entries.length := by
  simp [ctxAll]

/-- Settles O27: `exec_…` says what each command does once a save in progress is settled, `settles_saveVisible` what
settling it leaves, and `beginSave_of_none` what a capture writes. -/
theorem ctxSaveAndLoad : Obligations.CtxSaveAndLoad := by
  unfold Obligations.CtxSaveAndLoad
  refine ⟨?saves, ?savesPaired, ?loads, ?marksUsed, ?discards, ?listsPort, ?listsHub⟩
  case saves =>
    intro c p s turn gate up store free
    refine ⟨_, exec_ctxSave turn gate up store, ?_⟩
    rw [beginSave_of_none free, getPort_modPort_self]
    exact ⟨rfl, portsBut_modPort _, modPort_onlyIn _ _ _⟩
  case savesPaired =>
    intro c p s turn gate up store free
    refine ⟨_, exec_ctxSave_paired turn gate up store, ?_⟩
    rw [beginSave_of_none free]
    generalize (getPort _ p).linkGen.setWidth 64 = payload
    refine ⟨?_, ?_, ?_, ?_⟩
    · rw [sendInfo_save, getPort_pairing, getPort_modPort_self]
      rfl
    · simp [pairing]
    · refine portsBut_trans ?_ (silent_sendInfo _ p _ _ _).others
      exact fun q other => (getPort_pairing _ p c q).trans (portsBut_modPort _ q other)
    · exact onlyIn_mono (onlyIn_trans (modPort_onlyIn s p _) (requested_onlyIn _ p c payload)) (by simp)
  case loads =>
    intro c p k read e s runs new turn gate up partner sig mode fec named good
    have settled := settles_saveVisible_of_newCmd (p := p) new
    have ready := settled.ready (.of_newCmd runs new)
    refine ⟨_, exec_ctxLoad_up turn gate named up partner sig mode fec good, ?_⟩
    simp only [PortsBut, getPort_completeOk]
    refine ⟨rfl, ?_, fun q other => ?_, answered_zero_after (regs_of_kept (by simp)) ready.runs⟩
    · exact (congrArg Port.st (loadCoefs_self _ p _)).trans ((unsaved_st settled.own).trans up)
    · have loaded : PortsBut p (saveVisible s p) (loadCoefs (saveVisible s p) p e.coefs) :=
        portsBut_trans (portsBut_modPort _) (portsBut_modPort _)
      exact portsBut_trans settled.others loaded q other
  case marksUsed =>
    intro c p k read e s runs new turn gate down idle named good
    have settled := settles_saveVisible_of_newCmd (p := p) new
    have ready := settled.ready (.of_newCmd runs new)
    refine ⟨_, exec_ctxLoad_used turn gate named down idle good, ?_, fun x held own => ?_, ?_⟩
    · rw [getPort_completeOk]
      exact unsaved_pairs settled.own
    · rw [getDir_completeOk] at held
      obtain ⟨d, rfl⟩ := modCtx_entry held own
      exact now_saveVisible s p
    · exact answered_zero_after (regs_of_kept (by simp)) ready.runs
  case discards =>
    intro c p k read e s runs new turn gate down idle named bad
    have settled := settles_saveVisible_of_newCmd (p := p) new
    have ready := settled.ready (.of_newCmd runs new)
    refine ⟨_, exec_ctxLoad_damaged turn gate named down idle bad, fun x held => ?_, ?_, ?_⟩
    · rw [getDir_reject, dropBad_entries] at held
      simpa using (List.mem_filter.mp held).2
    · have dropped : Posted (saveVisible s p) (dropBad (saveVisible s p) p e (readCause p e read)) (globalSrc 51) 1 :=
        posted_postGlobal _ _ _
      rw [Posted, settled.gens 51 (by decide)] at dropped
      exact (genOf_of_gens (complete_gens _ _ _ _ _ _) _).trans dropped
    · have runs : Runs (dropBad (saveVisible s p) p e (readCause p e read)) c :=
        (ringsOn_postGlobal (s := setDir _ p _) 51 _).runs ready.runs
      exact answered_reject_after (regs_of_kept (by simp)) runs
  case listsPort =>
    intro c p b u s runs new turn gate store settling got dma
    subst settling
    have settled := settles_saveVisible_of_newCmd (p := p) new
    have ready := settled.ready (.of_newCmd runs new)
    refine ⟨_, exec_ctxList_port turn gate store, getDir_answerIn _ _ _ _ _ _ _ p, ?_⟩
    rw [← ctxAll_port_length]
    exact Answered.after (regs_of_kept (by simp))
      (answered_answerIn ready.runs _ _ _ _ _ got ((settled.dma _).trans dma))
  case listsHub =>
    intro c b s runs turn low _ got dma
    exact ⟨_, exec_ctxList_hub turn low, answerIn_store _ _ _ _ _ _ _, answered_answerIn runs _ _ _ _ _ got dma⟩

/-! ### Periodic saves turned off (R145) -/

/-- Port 300 is up, has made its FIRST save, and a PERIODIC one has waited for a clean moment. The moment is clean now,
but CTX_SAVE_INTERVAL has been set to 0, which turns periodic saves off. -/
def heldSaveTurnedOff : State :=
  { State.reset with
    ports := [(300, { Port.reset with
      st := .up, live := [(0x20, 0)], firstSaved := true, saveHeld := true
      pairs := quadMap (fun q => { q with canLevel := 1, eqLevel := 1 }) Port.reset.pairs })] }

/-- Refutes O29: its third clause has the 10 ms check take a PERIODIC save that waited whatever CTX_SAVE_INTERVAL is.
With the value 0, as in `heldSaveTurnedOff`, periodic saves are off (R145) and the check takes none. -/
theorem not_ctxEvents : ¬ Obligations.CtxEvents := by
  unfold Obligations.CtxEvents
  intro rows
  obtain ⟨-, -, periodicHeld, -⟩ := rows
  obtain ⟨t, run, saved, -⟩ := periodicHeld 300 heldSaveTurnedOff (by decide) (by decide) (by decide) (by decide)
    (by decide) (by decide)
  obtain rfl := Host.Outcome.next.inj run
  exact absurd (congrArg Option.isSome saved) (by decide)

end Sys2Proof.Proofs
end

section
/-!
PROOFS of the family 07_host_lanes: loopbacks and the gates of port and herd commands (O26), LANE commands (O32), blind
start and lane lock (O33), fall-back training, the checker and periodic injection (O34).
-/

namespace Sys2Proof.Proofs

open Sys2Proof.Machine Sys2Proof.Safety

/-! ### Commands that write their port alone, and commands that are refused -/

section
variable {c : Cmd} {p : PortId} {s : State}

/-- A command that has written its port's record, and is completed with ST_OK. -/
theorem completed_modPort (runs : Runs s c) (op : Nat) (l : List MirrorObj) (f : Port → Port) :
    getPort (completeOk (modPort s p f) op c l 0) p = f (getPort s p) ∧
    PortsBut p s (completeOk (modPort s p f) op c l 0) ∧
    Answered s (completeOk (modPort s p f) op c l 0) c op stOk 0 := by
  refine ⟨?_, fun q n => ?_, answered_zero_after (u := modPort s p f) rfl runs⟩
  · rw [getPort_completeOk, getPort_modPort_self]
  · rw [getPort_completeOk, getPort_modPort_ne _ _ n]

/-- A refused command leaves every port as it was. -/
theorem rejected_unwritten (runs : Runs s c) (op : Nat) (a : BitVec 8) (r : BitVec 64) :
    (reject s op c a r).ports = s.ports ∧ Answered s (reject s op c a r) c op a r :=
  ⟨complete_ports _ _ _ _ _ _, answered_reject runs op a r⟩

end

/-! ### PORT.LOOPBACK (R198 to R200) -/

/-- LOOP_SET goes to the partner with the command, which waits for its acknowledgement (R200, R312). -/
theorem askLoop_self (s : State) (c : Cmd) (p : PortId) (on : Bool) : getPort (askLoop s c p on) p =
    { getPort s p with info := infoNext { (getPort s p).info with queue := (getPort s p).info.queue ++
      [{ type := 0x10, payload := if on then 1 else 0, cmd := some c }] } } := by
  rw [askLoop, sendInfo, getPort_modPort_self]
  rfl

theorem askLoop_waits (s : State) (c : Cmd) (p : PortId) (on : Bool) :
    (askLoop s c p on).waits = s.waits ++ [.loop p c on] := rfl

theorem askLoop_others (s : State) (c : Cmd) (p : PortId) (on : Bool) : PortsBut p s (askLoop s c p on) :=
  fun _ n => getPort_modPort_ne _ _ n

section
variable {c : Cmd} {p : PortId} {s : State} (turn : myTurn s c = true) (gate : loopGate s p = none)
include turn gate

theorem exec_portLoopbackOff_digital (loop : (getPort s p).loop = .digital) : exec (.portLoopbackOff c p) s =
    .next (completeOk (modPort s p fun x => { x with loop := .none }) 0x0107 c [.port p] 0) := by
  simp [exec, execPortLoopbackOff, turn, gate, loop]

theorem exec_portLoopbackOff_looping (loop : (getPort s p).loop = .looping) : exec (.portLoopbackOff c p) s =
    .next (completeOk (modPort s p fun x => lpiAllow { x with loop := .none }) 0x0107 c [.port p] 0) := by
  simp [exec, execPortLoopbackOff, turn, gate, loop]

theorem exec_portLoopbackOff_remote (loop : (getPort s p).loop = .remote) :
    exec (.portLoopbackOff c p) s = .next (askLoop s c p false) := by
  simp [exec, execPortLoopbackOff, turn, gate, loop]

theorem exec_portLoopbackOff_none (loop : (getPort s p).loop = .none) (pending : loopPending s p = false) :
    exec (.portLoopbackOff c p) s = .next (completeOk s 0x0107 c [] 0) := by
  simp [exec, execPortLoopbackOff, turn, gate, loop, pending]

theorem exec_portLoopbackOff_pending (loop : (getPort s p).loop = .none) (pending : loopPending s p = true) :
    exec (.portLoopbackOff c p) s = .next (askLoop s c p false) := by
  simp [exec, execPortLoopbackOff, turn, gate, loop, pending]

theorem exec_portLoopbackDigital (loop : (getPort s p).loop = .none) (pending : loopPending s p = false)
    (st : (getPort s p).st = .disabled ∨ (getPort s p).st = .hold) : exec (.portLoopbackDigital c p) s =
    .next (completeOk (modPort s p fun x => { x with loop := .digital }) 0x0107 c [.port p] 0) := by
  have at_rest : ((getPort s p).st != .disabled && (getPort s p).st != .hold) = false := by
    rcases st with st | st <;> simp [st]
  simp [exec, execPortLoopbackDigital, turn, gate, loop, pending, at_rest]

/-- A port in service does not loop, whether or not a remote loopback of its own is under way. -/
theorem exec_portLoopbackDigital_up (st : (getPort s p).st = .up) : exec (.portLoopbackDigital c p) s =
    .next (reject s 0x0107 c stRefused (BitVec.ofNat 64 (shownPort s p))) := by
  simp [exec, execPortLoopbackDigital, turn, gate, st, refusedPort]

theorem exec_portLoopbackRemote {k : Caps} (loop : (getPort s p).loop = .none) (st : (getPort s p).st = .up)
    (caps : (getPort s p).caps = some k) (allows : k.loop = true) :
    exec (.portLoopbackRemote c p) s = .next (askLoop s c p true) := by
  simp [exec, execPortLoopbackRemote, turn, gate, loop, st, caps, allows]

end

/-! ### What the gates answer (R310, R459) -/

section
variable {c : Cmd} {p : PortId} {h : HerdId} {s : State}

theorem portGate_selfTest (test : (getHerd s (herdOf p)).st = .selfTest) :
    portGate s p = some (stBusyTest, BitVec.ofNat 64 (testLeft s (herdOf p))) := by
  simp [portGate, test, busyTest]

theorem portGate_safe (served : (getHerd s (herdOf p)).st ≠ .selfTest) (safe : (getPort s p).st = .safe) :
    portGate s p = some (stRefused, BitVec.ofNat 64 (shownPort s p)) := by
  simp [portGate, served, safe, refusedPort]

theorem herdGate_safe (safe : (getHerd s h).st = .safe) : herdGate s h = some (stRefused, 0xFF) := by
  simp [herdGate, herdIsSafe, safe]

theorem exec_portEnable_gated {a : BitVec 8} {r : BitVec 64} (turn : myTurn s c = true)
    (gate : portGate s p = some (a, r)) : exec (.portEnable c p) s = .next (reject s 0x0103 c a r) := by
  simp [exec, execPortEnable, turn, gate]

theorem exec_portDisable_gated {a : BitVec 8} {r : BitVec 64} (turn : myTurn s c = true)
    (gate : portGate s p = some (a, r)) : exec (.portDisable c p) s = .next (reject s 0x0104 c a r) := by
  simp [exec, execPortDisable, turn, gate]

theorem exec_herdMode_gated {m : BitVec 8} {a : BitVec 8} {r : BitVec 64} (turn : myTurn s c = true)
    (gate : herdGate s h = some (a, r)) : exec (.herdMode c h m) s = .next (reject s 0x0201 c a r) := by
  simp [exec, execHerdMode, turn, gate]

end

/-- Settles O26: `exec_portLoopback…` says what each PORT.LOOPBACK does with its port, the `…Gate_…` lemmas what a
gate answers, and a gated command is refused with that answer (`exec_…_gated`). -/
theorem loopbackRows : Obligations.LoopbackRows := by
  unfold Obligations.LoopbackRows
  refine ⟨?off, ?offRemote, ?offIdle, ?offPending, ?digital, ?digitalUp, ?remote, ?selfTest, ?safePort, ?safeHerd⟩
  case off =>
    intro c p s runs turn gate loop
    rcases loop with loop | loop
    · obtain ⟨self, others, answered⟩ :=
        completed_modPort (p := p) runs 0x0107 [.port p] fun x => { x with loop := .none }
      exact ⟨_, exec_portLoopbackOff_digital turn gate loop, congrArg (·.loop) self, others, answered⟩
    · obtain ⟨self, others, answered⟩ :=
        completed_modPort (p := p) runs 0x0107 [.port p] fun x => lpiAllow { x with loop := .none }
      exact ⟨_, exec_portLoopbackOff_looping turn gate loop, (congrArg (·.loop) self).trans (lpiAllow_loop _), others,
        answered⟩
  case offRemote =>
    intro c p s turn gate loop
    exact ⟨_, exec_portLoopbackOff_remote turn gate loop, askLoop_waits s c p false, rfl,
      (congrArg (·.loop) (askLoop_self s c p false)).trans loop, askLoop_others s c p false⟩
  case offIdle =>
    intro c p s runs turn gate loop pending
    exact ⟨_, exec_portLoopbackOff_none turn gate loop pending, complete_ports _ _ _ _ _ _,
      answered_completeOk runs _ _ _⟩
  case offPending =>
    intro c p s turn gate loop pending
    exact ⟨_, exec_portLoopbackOff_pending turn gate loop pending, askLoop_waits s c p false, rfl,
      askLoop_others s c p false⟩
  case digital =>
    intro c p s runs turn gate loop pending st
    exact ⟨_, exec_portLoopbackDigital turn gate loop pending st, completed_modPort runs _ _ _⟩
  case digitalUp =>
    intro c p s runs turn gate st _
    exact ⟨_, exec_portLoopbackDigital_up turn gate st, rejected_unwritten runs _ _ _⟩
  case remote =>
    intro c p k s turn gate loop st caps allows
    exact ⟨_, exec_portLoopbackRemote turn gate loop st caps allows, askLoop_waits s c p true, rfl,
      (congrArg (·.loop) (askLoop_self s c p true)).trans loop, congrArg (·.info) (askLoop_self s c p true),
      askLoop_others s c p true⟩
  case selfTest =>
    intro c p s runs turn test
    exact ⟨_, exec_portEnable_gated turn (portGate_selfTest test), rejected_unwritten runs _ _ _⟩
  case safePort =>
    intro c p s runs turn served safe
    exact ⟨_, exec_portDisable_gated turn (portGate_safe served safe), rejected_unwritten runs _ _ _⟩
  case safeHerd =>
    intro c h m s runs turn safe
    have shadow := congrArg Herd.shModeSet (herdRest_complete s 0x0201 c [] stRefused 0xFF h)
    exact ⟨_, exec_herdMode_gated turn (herdGate_safe safe), shadow, answered_reject runs _ _ _⟩

/-! ### What touches one port and posts nothing -/

section
variable {p : PortId} {s t : State}

theorem Silent.refl (p : PortId) (s : State) : Silent p s s := ⟨fun _ _ => rfl, rfl⟩

theorem Silent.unposted (h : Silent p s t) (src : Nat) : Posted s t src 0 := by
  rw [Posted, genOf_of_gens h.gens]
  exact (BitVec.add_zero _).symm

theorem silent_emit (s : State) (p : PortId) (b : Bus) : Silent p s (emit s b) := ⟨fun _ _ => rfl, rfl⟩

theorem silent_freeNat (s : State) (p : PortId) : Silent p s (freeNat s).2 := ⟨fun q _ => getPort_freeNat s q, rfl⟩

theorem silent_completeOk (s : State) (p : PortId) (op : Nat) (c : Cmd) (l : List MirrorObj) (r : Nat) :
    Silent p s (completeOk s op c l r) :=
  ⟨fun q _ => getPort_completeOk _ _ _ _ _ q, complete_gens _ _ _ _ _ _⟩

end

/-! ### A lane's record -/

section
variable (s : State) (p : PortId)

theorem getPort_setLane (l : Lane) : getPort (setLane s p l) p = { getPort s p with lane := l } :=
  getPort_modPort_self _ _ _

@[simp] theorem getLane_setLane (l : Lane) : getLane (setLane s p l) p = l := by rw [getLane, getPort_setLane]

@[simp] theorem getLane_emit (b : Bus) : getLane (emit s b) p = getLane s p := rfl

@[simp] theorem getLane_freeNat : getLane (freeNat s).2 p = getLane s p := by rw [getLane, getPort_freeNat, getLane]

@[simp] theorem getLane_completeOk (op : Nat) (c : Cmd) (l : List MirrorObj) (r : Nat) :
    getLane (completeOk s op c l r) p = getLane s p := by rw [getLane, getPort_completeOk, getLane]

theorem silent_setLane (l : Lane) : Silent p s (setLane s p l) := silent_modPort _ _ _

end

/-! ### HOST_LANE_FALLBACK, and the states that a lane enters (R179, R180, R188) -/

section
variable (s : State) (p : PortId) (code : Nat)

@[simp] theorem getPort_postFallback (q : PortId) : getPort (postFallback s p code) q = getPort s q :=
  getPort_postPort _ _ _ _ _

@[simp] theorem getLane_postFallback (q : PortId) : getLane (postFallback s p code) q = getLane s q := by
  rw [getLane, getPort_postFallback, getLane]

theorem posted_postFallback : Posted s (postFallback s p code) (portSrc p 11) 1 := posted_postPort _ _ (by decide) _

theorem runsOn_postFallback : RunsOn s (postFallback s p code) := runsOn_postPort _ _ _

/-- A lane's record is written, and HOST_LANE_FALLBACK posted. -/
theorem setLane_postFallback (l : Lane) : getLane (postFallback (setLane s p l) p code) p = l ∧
    Posted s (postFallback (setLane s p l) p code) (portSrc p 11) 1 ∧
    PortsBut p s (postFallback (setLane s p l) p code) := by
  refine ⟨?_, (silent_setLane s p l).posted (posted_postFallback _ p code), fun q n => ?_⟩
  · rw [getLane_postFallback, getLane_setLane]
  · rw [getPort_postFallback, (silent_setLane s p l).others q n]

/-- A lane in DETECT: a fresh receiver, no pattern, and at 25GAUI the taps of LANE_TX_PRESET (R184, R187). -/
theorem enterDetect_lane : getLane (enterDetect s p code) p = { laneBlind s p (getLane s p) with
    st := .detect, gen := 0, flips := 0, periodic := none
    taps := if (getLane s p).mode == .l25 then presetTaps (livePar (getPort s p) 0x31) else (getLane s p).taps } := by
  rw [enterDetect, getLane_postFallback, getLane, getPort_modPort_self]
  rfl

theorem enterDetect_others : PortsBut p s (enterDetect s p code) := by
  intro q n
  rw [enterDetect, getPort_postFallback, getPort_modPort_ne _ _ n]

theorem posted_enterDetect : Posted s (enterDetect s p code) (portSrc p 11) 1 :=
  (silent_modPort s p _).posted (posted_postFallback _ p code)

theorem runsOn_enterDetect : RunsOn s (enterDetect s p code) :=
  runsOn_trans (.of_rings rfl) (runsOn_postFallback _ p code)

end

/-! ### LANE.TRAIN and LANE.LOOPBACK (R180, R198, R199) -/

theorem endHostLoop_loop (x : Port) : (endHostLoop x).loop ≠ .near ∧ (endHostLoop x).loop ≠ .far := by
  cases k : x.loop <;> simp [endHostLoop, k]

section
variable {c : Cmd} {p : PortId} {s : State} (gate : portGate s p = none)
include gate

theorem hostLoop_starts (which : LoopSt) (loop : (getPort s p).loop = .none) (pending : loopPending s p = false) :
    hostLoop s c p which true = completeOk (modPort s p fun y => { y with loop := which }) 0x0A03 c [.port p] 0 := by
  simp [hostLoop, gate, loop, pending]

/-- Without the lane's condition there is no loop, whatever other loops there are. -/
theorem hostLoop_refused (which : LoopSt) : hostLoop s c p which false =
    reject s 0x0A03 c stRefused (BitVec.ofNat 64 (shownPort s p)) := by
  simp [hostLoop, gate, refusedPort]

variable (turn : myTurn s c = true)
include turn

theorem exec_laneTrain (lane : (getLane s p).st ≠ .idle) : exec (.laneTrain c p) s = .next (completeOk
    (enterDetect (setLane s p { getLane s p with retries := 0 }) p 0x02) 0x0A02 c [.port p] 0) := by
  simp [exec, execLaneTrain, turn, gate, lane]

theorem exec_laneTrain_idle (lane : (getLane s p).st = .idle) : exec (.laneTrain c p) s =
    .next (reject s 0x0A02 c stRefused (BitVec.ofNat 64 (shownPort s p))) := by
  simp [exec, execLaneTrain, turn, gate, lane, refusedPort]

theorem exec_laneLoopbackOff : exec (.laneLoopbackOff c p) s =
    .next (completeOk (modPort s p endHostLoop) 0x0A03 c [.port p] 0) := by
  simp [exec, execLaneLoopbackOff, turn, gate]

theorem exec_laneLoopbackNear (loop : (getPort s p).loop = .none) (pending : loopPending s p = false)
    (lane : (getLane s p).st ≠ .idle) : exec (.laneLoopbackNear c p) s =
      .next (completeOk (modPort s p fun y => { y with loop := .near }) 0x0A03 c [.port p] 0) := by
  have may : ((getLane s p).st != .idle) = true := bne_iff_ne.mpr lane
  simp [exec, execLaneLoopbackNear, turn, may, hostLoop_starts gate .near loop pending]

theorem exec_laneLoopbackFar (loop : (getPort s p).loop = .none) (pending : loopPending s p = false)
    (locked : (getLane s p).locked = true) : exec (.laneLoopbackFar c p) s =
      .next (completeOk (modPort s p fun y => { y with loop := .far }) 0x0A03 c [.port p] 0) := by
  simp [exec, execLaneLoopbackFar, turn, locked, hostLoop_starts gate .far loop pending]

theorem exec_laneLoopbackFar_unlocked (locked : (getLane s p).locked = false) : exec (.laneLoopbackFar c p) s =
    .next (reject s 0x0A03 c stRefused (BitVec.ofNat 64 (shownPort s p))) := by
  simp [exec, execLaneLoopbackFar, turn, locked, hostLoop_refused gate]

end

/-! ### The checker and the pattern on host-out (R194 to R196) -/

section
variable {s : State} {p : PortId}

theorem silent_checkIn (s : State) (p : PortId) (bits : List Bool) : Silent p s (checkIn s p bits) := by
  unfold checkIn
  simp only []
  split
  · exact .refl p s
  · exact (silent_freeNat s p).trans (silent_modPort _ p _)

theorem silent_nearBits (s : State) (p : PortId) (bits : List Bool) : Silent p s (nearBits s p bits) := by
  unfold nearBits
  split
  · exact silent_checkIn s p bits
  · exact .refl p s

theorem nearBits_far (far : (getPort s p).loop ≠ .near) (bits : List Bool) : nearBits s p bits = s := by
  simp [nearBits, far]

theorem checkIn_io (s : State) (p : PortId) (bits : List Bool) : (checkIn s p bits).io = s.io :=
  onlyIn_of_pick (m := [.fresh, .ports]) (by simp) .io (by simp)

theorem nearBits_io (s : State) (p : PortId) (bits : List Bool) : (nearBits s p bits).io = s.io :=
  onlyIn_of_pick (m := [.fresh, .ports]) (by simp) .io (by simp)

/-- The bits of the next stretch of a lane's pattern (R194, R196). -/
def patternBits (l : Lane) : List Bool :=
  if l.live then (patternRun l.gen 5440 l.genReg).1 else invertFirst l.flips (patternRun l.gen 5440 l.genReg).1

/-- A lane once that stretch is out: the bits that were to be inverted are, but for those of the live stream. -/
def patternSent (l : Lane) : Lane :=
  { l with genReg := (patternRun l.gen 5440 l.genReg).2, flips := if l.live then l.flips else 0 }

/-- The stretch is put on host-out, before it can reach host-in. -/
def patternOut (s : State) (p : PortId) : State :=
  emit (setLane s p (patternSent (getLane s p)))
    (.pattern p (patternLevels ((getLane s p).mode == .l25) (patternBits (getLane s p))))

theorem patternOut_bus (s : State) (p : PortId) :
    Bus.pattern p (patternLevels ((getLane s p).mode == .l25) (patternBits (getLane s p))) ∈ (patternOut s p).io.bus :=
  List.mem_cons_self

theorem emitPattern_sends (gen : (getLane s p).gen ≠ 0) (sends : laneSends (getLane s p) = true)
    (pads : s.pwr.padsHeld = false) :
    emitPattern s p = nearBits (patternOut s p) p (patternBits (getLane s p)) := by
  have goes : (decide ((getLane s p).gen = 0) || !laneSends (getLane s p) || s.pwr.padsHeld) = false := by
    rw [decide_eq_false gen, sends, pads]
    rfl
  simp only [emitPattern, goes]
  rfl

theorem emitPattern_cases (s : State) (p : PortId) :
    emitPattern s p = s ∨ emitPattern s p = nearBits (patternOut s p) p (patternBits (getLane s p)) := by
  unfold emitPattern
  simp only []
  split
  · exact .inl rfl
  · exact .inr rfl

theorem silent_patternOut (s : State) (p : PortId) : Silent p s (patternOut s p) :=
  (silent_setLane s p _).trans (silent_emit _ p _)

theorem silent_emitPattern (s : State) (p : PortId) : Silent p s (emitPattern s p) := by
  rcases emitPattern_cases s p with still | out
  · rw [still]
    exact .refl p s
  · rw [out]
    exact (silent_patternOut s p).trans (silent_nearBits _ p _)

theorem runsOn_emitPattern (s : State) (p : PortId) : RunsOn s (emitPattern s p) := by
  rcases emitPattern_cases s p with still | out
  · rw [still]
    exact .refl
  · rw [out]
    exact .of_rings (congrArg (·.rings) (nearBits_io _ p _))

/-- Without a near-end loop a stretch of the pattern moves the generator on, and nothing else of the lane. -/
theorem emitPattern_lane (far : (getPort s p).loop ≠ .near) :
    ∃ reg flips, getLane (emitPattern s p) p = { getLane s p with genReg := reg, flips := flips } := by
  rcases emitPattern_cases s p with still | out
  · exact ⟨_, _, by rw [still]⟩
  · have far' : (getPort (patternOut s p) p).loop ≠ .near := by
      rw [patternOut, getPort_emit, getPort_setLane]
      exact far
    refine ⟨(patternRun (getLane s p).gen 5440 (getLane s p).genReg).2, if (getLane s p).live then (getLane s p).flips
      else 0, ?_⟩
    rw [out, nearBits_far far', patternOut, getLane_emit, getLane_setLane, patternSent]

end

/-! ### LANE.PRBS (R195 to R197, R326) -/

section
variable (apply gen chk inject burstLen periodK live : BitVec 8)

/-- A lane once a LANE.PRBS has set the parts that APPLY names. -/
def prbsLane (l : Lane) (place : Nat) : Lane :=
  let l := if apply.getLsbD 0 then { l with gen := gen, genReg := BitVec.ofNat 31 place ||| 1 } else l
  let l := if apply.getLsbD 1 then { l with chk := chk, chkLock := false, chkr := Checker.start chk place } else l
  if apply.getLsbD 2 then
    { l with live := live == 1,
             periodic := if inject == 3 then some periodK else if inject == 4 then none else l.periodic }
  else l

/-- Its port: the checker's counters start again, and the bits that are inverted at once are counted. -/
def prbsPort (l : Lane) (x : Port) : Port :=
  let n := if apply.getLsbD 2 then injected l inject burstLen else 0
  statAdd { (if apply.getLsbD 1 && chk != 0 then chkZero x else x) with lane := { l with flips := l.flips + n } }
    0x230 n

/-- What a LANE.PRBS leaves, before a pattern that it has changed goes on. -/
def prbsState (s : State) (p : PortId) : State :=
  modPort (freeNat s).2 p (prbsPort apply chk inject burstLen
    (prbsLane apply gen chk inject periodK live (getLane s p) (freeNat s).1))

/-- Of the lane a LANE.PRBS sets nothing that APPLY does not name, and its state never. -/
theorem prbsLane_parts (l : Lane) (place : Nat) :
    (prbsLane apply gen chk inject periodK live l place).gen = (if apply.getLsbD 0 then gen else l.gen) ∧
    (prbsLane apply gen chk inject periodK live l place).chk = (if apply.getLsbD 1 then chk else l.chk) ∧
    (prbsLane apply gen chk inject periodK live l place).chkLock = (if apply.getLsbD 1 then false else l.chkLock) ∧
    (prbsLane apply gen chk inject periodK live l place).live = (if apply.getLsbD 2 then live == 1 else l.live) ∧
    (prbsLane apply gen chk inject periodK live l place).st = l.st := by
  simp only [prbsLane, apply_ite Lane.gen, apply_ite Lane.chk, apply_ite Lane.chkLock, apply_ite Lane.live,
    apply_ite Lane.st, ite_self, and_self]

theorem prbsPort_loop (l : Lane) (x : Port) : (prbsPort apply chk inject burstLen l x).loop = x.loop := by
  simp only [prbsPort, statAdd]
  split <;> rfl

theorem silent_prbsState (s : State) (p : PortId) :
    Silent p s (prbsState apply gen chk inject burstLen periodK live s p) :=
  (silent_freeNat s p).trans (silent_modPort _ p _)

/-- After a LANE.PRBS, with or without a stretch of the pattern: the lane as it has set it, but for the generator's
place and the bits still to be inverted. -/
theorem prbsState_emits {s : State} {p : PortId} (far : (getPort s p).loop ≠ .near) (out : Bool) {t : State}
    (left : t = if out then emitPattern (prbsState apply gen chk inject burstLen periodK live s p) p
      else prbsState apply gen chk inject burstLen periodK live s p) :
    Silent p s t ∧ RunsOn s t ∧ t.regs = s.regs ∧ ∃ reg flips, getLane t p =
      { prbsLane apply gen chk inject periodK live (getLane s p) (freeNat s).1 with
        genReg := reg, flips := flips } := by
  have set := silent_prbsState apply gen chk inject burstLen periodK live s p
  have same : RunsOn s (prbsState apply gen chk inject burstLen periodK live s p) := .of_rings rfl
  have lane : getPort (prbsState apply gen chk inject burstLen periodK live s p) p =
      prbsPort apply chk inject burstLen
        (prbsLane apply gen chk inject periodK live (getLane s p) (freeNat s).1) (getPort s p) := by
    rw [prbsState, getPort_modPort_self, getPort_freeNat]
  cases out with
  | false =>
    subst left
    exact ⟨set, same, rfl, _, _, congrArg Port.lane lane⟩
  | true =>
    subst left
    obtain ⟨reg, flips, sent⟩ := emitPattern_lane (p := p)
      (s := prbsState apply gen chk inject burstLen periodK live s p) (by rw [lane, prbsPort_loop]; exact far)
    refine ⟨set.trans (silent_emitPattern _ p), runsOn_trans same (runsOn_emitPattern _ p), regs_of_kept ?_, reg, flips,
      ?_⟩
    · simp [prbsState]
    · rw [if_pos rfl, sent, getLane, lane]
      rfl

variable {c : Cmd} {p : PortId} {s : State} (turn : myTurn s c = true) (gate : portGate s p = none)
  (ok : badPrbs apply gen chk inject burstLen periodK live = none) (lane : inFallback (getLane s p).st = false)
  (pam : (((apply.getLsbD 0 && gen == 6) || (apply.getLsbD 1 && chk == 6)) && (getLane s p).mode == .l25) = false)
include turn gate ok lane pam

/-- A LANE.PRBS sets the lane, and a pattern that it changes goes on at once. -/
theorem exec_lanePrbs : ∃ out : Bool, exec (.lanePrbs c p apply gen chk inject burstLen periodK live) s =
    .next (completeOk (if out then emitPattern (prbsState apply gen chk inject burstLen periodK live s p) p
      else prbsState apply gen chk inject burstLen periodK live s p) 0x0A01 c [] 0) := by
  refine ⟨apply.getLsbD 0 || (apply.getLsbD 2 &&
    !(prbsLane apply gen chk inject periodK live (getLane s p) (freeNat s).1).live), ?_⟩
  simp only [exec, execLanePrbs, turn, gate, ok, lane, pam, Bool.not_true, Bool.false_eq_true, if_false]
  rfl

end

/-- Settles O32: `exec_lane…` says which completed state each command leads to; `prbsLane_parts` what a LANE.PRBS has
set, `enterDetect_lane` what a LANE.TRAIN leaves of the lane. -/
theorem laneCommands : Obligations.LaneCommands := by
  unfold Obligations.LaneCommands
  refine ⟨?prbs, ?train, ?trainIdle, ?off, ?near, ?far, ?farUnlocked⟩
  case prbs =>
    intro c p apply gen chk inject burstLen periodK live s runs turn gate loop ok lane pam
    obtain ⟨out, answer⟩ := exec_lanePrbs apply gen chk inject burstLen periodK live turn gate ok lane pam
    obtain ⟨gen', chk', chkLock', live', st'⟩ :=
      prbsLane_parts apply gen chk inject periodK live (getLane s p) (freeNat s).1
    obtain ⟨silent, same, regs, reg, flips, set⟩ :=
      prbsState_emits apply gen chk inject burstLen periodK live loop out rfl
    refine ⟨_, answer, ?_⟩
    rw [getLane_completeOk, set]
    exact ⟨gen', chk', chkLock', live', st', (silent.trans (silent_completeOk _ p _ _ _ _)).others,
      answered_zero_after regs (same.runs runs)⟩
  case train =>
    intro c p s runs turn gate lane
    refine ⟨_, exec_laneTrain gate turn lane, ?_⟩
    have zeroed := silent_setLane s p { getLane s p with retries := 0 }
    have same : RunsOn s (enterDetect (setLane s p { getLane s p with retries := 0 }) p 0x02) :=
      runsOn_trans (.of_rings rfl) (runsOn_enterDetect _ p _)
    rw [getLane_completeOk, enterDetect_lane, getLane_setLane]
    refine ⟨rfl, rfl, rfl, rfl, ?_, ?_, answered_zero_after (regs_of_kept (by simp)) (same.runs runs)⟩
    · exact (silent_completeOk _ p _ _ _ _).after (zeroed.posted (posted_enterDetect _ p _))
    · exact portsBut_trans (portsBut_trans zeroed.others (enterDetect_others _ p _))
        (silent_completeOk _ p _ _ _ _).others
  case trainIdle =>
    intro c p s runs turn gate lane
    exact ⟨_, exec_laneTrain_idle gate turn lane, rejected_unwritten runs _ _ _⟩
  case off =>
    intro c p s runs turn gate
    obtain ⟨self, others, answered⟩ := completed_modPort (p := p) runs 0x0A03 [.port p] endHostLoop
    obtain ⟨near, far⟩ := endHostLoop_loop (getPort s p)
    exact ⟨_, exec_laneLoopbackOff gate turn, self, self ▸ near, self ▸ far, others, answered⟩
  case near =>
    intro c p s runs turn gate loop pending lane
    exact ⟨_, exec_laneLoopbackNear gate turn loop pending lane, completed_modPort runs _ _ _⟩
  case far =>
    intro c p s runs turn gate loop pending locked
    exact ⟨_, exec_laneLoopbackFar gate turn loop pending locked, completed_modPort runs _ _ _⟩
  case farUnlocked =>
    intro c p s runs turn gate _ locked
    exact ⟨_, exec_laneLoopbackFar_unlocked gate turn locked, rejected_unwritten runs _ _ _⟩

/-! ### Limited port events (R544) -/

theorem genOf_pushEvent (s : State) (e : Event) {k : Nat} (port : k < 8192) : genOf (pushEvent s e) k = genOf s k := by
  unfold pushEvent
  split
  · exact genOf_of_gens (pushGlobal_gens s e) k
  · split
    · exact genOf_pushPort s _ e port
    · exact genOf_of_gens (pushGlobal_gens s e) k

/-- An occurrence of a limited event advances its GENERATION, whether it is put out at once or held. -/
theorem posted_postLimited (s : State) {src : Nat} (port : src < 8192) (kind : Nat) (payload : List Fld)
    (at_ : Option Nat) (n : Nat) : Posted s (postLimited s src kind payload at_ n) src 1 := by
  unfold postLimited postLimitedNaming
  simp only []
  split
  · exact genOf_bumpGen_self s src
  · exact (genOf_pushEvent _ _ port).trans (genOf_bumpGen_self s src)

/-! ### Lanes that become ACTIVE or READY, and receivers that adapt (R180 to R182, R186) -/

section
variable (s : State) (p : PortId)

theorem enterActive_lane : getLane (enterActive s p) p = { getLane s p with
    st := .active, retries := 0, fromLoss := false, partReady := false, eye := Quad.all 0xFFFF } := by
  unfold enterActive
  simp only []
  split
  · rw [getLane_postFallback, getLane_setLane]
  · rw [getLane_setLane]

theorem enterActive_others : PortsBut p s (enterActive s p) := by
  intro q n
  unfold enterActive
  simp only []
  split
  · rw [getPort_postFallback, (silent_setLane s p _).others q n]
  · exact (silent_setLane s p _).others q n

/-- A lane that becomes ACTIVE out of fall-back says so (R188). -/
theorem posted_enterActive :
    Posted s (enterActive s p) (portSrc p 11) (if inFallback (getLane s p).st then 1 else 0) := by
  unfold enterActive
  simp only []
  split
  · exact (silent_setLane s p _).posted (posted_postFallback _ p _)
  · exact (silent_setLane s p _).unposted _

theorem enterReady_lane : getLane (enterReady s p) p = { getLane s p with
    st := .ready, preTx := (getLane s p).preReq.getD (livePar (getPort s p) 0x33 == 1)
    preRx := livePar (getPort s p) 0x34 == 1 } := by
  rw [enterReady, getLane_emit, getLane_setLane]
  rfl

theorem silent_enterReady : Silent p s (enterReady s p) := (silent_setLane s p _).trans (silent_emit _ p _)

theorem silent_laneAdapt (l : Lane) : Silent p s (laneAdapt s p l) := by
  unfold laneAdapt
  split
  · exact silent_setLane s p l
  · exact (silent_freeNat s p).trans (silent_setLane _ p _)

theorem laneAdapt_onlyIn (l : Lane) : OnlyIn [.ports, .fresh] s (laneAdapt s p l) := onlyIn_of_pick (by simp)

/-- A receiver that adapts finds a CTLE gain of at most 20 dB (R182), and leaves the lane's state, lock and taps. -/
theorem laneAdapt_lane {l : Lane} (adapts : l.st ≠ .hold) :
    (getLane (laneAdapt s p l) p).ctle.toNat ≤ 40 ∧ (getLane (laneAdapt s p l) p).st = l.st ∧
    (getLane (laneAdapt s p l) p).locked = l.locked ∧ (getLane (laneAdapt s p l) p).taps = l.taps := by
  have free : (l.st == .hold) = false := beq_eq_false_iff_ne.mpr adapts
  simp only [laneAdapt, free, Bool.false_eq_true, if_false, getLane_setLane, and_self, and_true]
  rw [BitVec.toNat_ofNat]
  omega

end

/-! ### Lane lock (R179 to R182, R191) -/

/-- Too large a phase error, too few levels, or too low an SNR. -/
theorem laneLockMet_not {l : Lane} {more : Int} {rms levels : Nat} {snr : Int}
    (bad : 50 ≤ rms ∨ levels < laneLevels l ∨ snr < (l.lockSnr : Int) + more) :
    laneLockMet l more rms levels snr = false := by
  simp only [laneLockMet, Bool.and_eq_false_iff, decide_eq_false_iff_not]
  omega

section
variable {s : State} {p : PortId} (runs : herdsRun s = true)

section
include runs

theorem exec_blindTimeout_auto (st : (getLane s p).st = .blind) (auto : (getLane s p).auto = true) :
    exec (.blindTimeout p) s = .next (enterDetect s p (if (getLane s p).fromLoss then 0x03 else 0x01)) := by
  simp [exec, execBlindTimeout, runs, st, auto]

theorem exec_blindTimeout_again (st : (getLane s p).st = .blind) (auto : (getLane s p).auto = false) :
    exec (.blindTimeout p) s =
      .next (setLane s p { laneBlind s p (getLane s p) with fromLoss := (getLane s p).fromLoss }) := by
  simp [exec, execBlindTimeout, runs, st, auto]

theorem exec_laneLockAcquired {rms levels : Nat} {snr : Int} (st : (getLane s p).st = .blind)
    (met : laneLockMet (getLane s p) 0 rms levels snr = true) : exec (.laneLockAcquired p rms levels snr) s =
      .next (laneAdapt s p { getLane s p with locked := true }) := by
  simp [exec, execLaneLockAcquired, runs, st, met]

theorem exec_laneLockHoldExpiry_blind (st : (getLane s p).st = .blind) (locked : (getLane s p).locked = true) :
    exec (.laneLockHoldExpiry p) s = .next (enterActive s p) := by
  simp [exec, execLaneLockHoldExpiry, runs, st, locked]

theorem exec_laneLockHoldExpiry_lock (st : (getLane s p).st = .lock) (locked : (getLane s p).locked = true)
    (pam : (getLane s p).mode ≠ .l25) : exec (.laneLockHoldExpiry p) s = .next (enterReady s p) := by
  simp [exec, execLaneLockHoldExpiry, runs, st, locked, pam]

theorem exec_laneLockHoldExpiry_train25 (st : (getLane s p).st = .train) (locked : (getLane s p).locked = true)
    (nrz : (getLane s p).mode = .l25) :
    exec (.laneLockHoldExpiry p) s = .next (setLane s p { getLane s p with st := .lock }) := by
  simp [exec, execLaneLockHoldExpiry, runs, st, locked, nrz]

theorem exec_laneLockHoldExpiry_lock25 (st : (getLane s p).st = .lock) (locked : (getLane s p).locked = true)
    (nrz : (getLane s p).mode = .l25) :
    exec (.laneLockHoldExpiry p) s = .next (setLane s p { getLane s p with st := .ready }) := by
  simp [exec, execLaneLockHoldExpiry, runs, st, locked, nrz]

end

/-- Unmet criteria change nothing, whether or not herds run. -/
theorem exec_laneLockAcquired_unmet {rms levels : Nat} {snr : Int}
    (unmet : laneLockMet (getLane s p) 0 rms levels snr = false) :
    exec (.laneLockAcquired p rms levels snr) s = .next s := by
  simp [exec, execLaneLockAcquired, unmet]

/-- An ACTIVE lane once its lost lock has been counted, before the event (R191). -/
def lockLost (s : State) (p : PortId) : State :=
  setLane (countPers s p 0xA8) p (laneRelock (countPers s p 0xA8) p (getLane s p))

theorem exec_laneLockLost_active {rms errs : Nat} {snr : Int} (runs : herdsRun s = true)
    (st : (getLane s p).st = .active) (lost : 150 < rms ∨ snr ≤ ((getLane s p).lockSnr : Int) - 30) :
    ∃ payload, exec (.laneLockLost p rms snr errs) s =
      .next (postLimited (lockLost s p) (portSrc p 10) 0 payload (some 4) 1) := by
  refine ⟨[(0, 1, if decide (150 < rms) then 1 else 2), (1, 1, laneCode .blind)], ?_⟩
  have judged : (decide (150 < rms) || decide (snr ≤ ((getLane s p).lockSnr : Int) - 30)) = true := by simpa using lost
  simp only [exec, execLaneLockLost, runs, st, judged]
  rfl

theorem exec_laneLockLost_kept {rms errs : Nat} {snr : Int} (st : (getLane s p).st = .active) (phase : rms ≤ 150)
    (level : ((getLane s p).lockSnr : Int) - 30 < snr) : exec (.laneLockLost p rms snr errs) s = .next s := by
  simp [exec, execLaneLockLost, st, phase, level]

theorem exec_laneLockLost_lock {rms errs : Nat} {snr : Int} (runs : herdsRun s = true)
    (st : (getLane s p).st = .lock)
    (lost : 150 < rms ∨ snr ≤ ((getLane s p).lockSnr : Int) + 10 - 30 ∨ 10 < errs) :
    exec (.laneLockLost p rms snr errs) s = .next (setLane s p { getLane s p with st := .train, locked := false }) := by
  have judged : (decide (150 < rms) || decide (snr ≤ ((getLane s p).lockSnr : Int) + 10 - 30) || decide (10 < errs)) =
      true := by simpa [or_assoc] using lost
  simp only [exec, execLaneLockLost, runs, st, judged]
  rfl

theorem silent_lockLost (s : State) (p : PortId) : Silent p s (lockLost s p) :=
  (silent_countPers s p 0xA8).trans (silent_setLane _ p _)

theorem getPort_lockLost (s : State) (p : PortId) : getPort (lockLost s p) p =
    { persAdd (getPort s p) 0xA8 1 with lane := laneRelock (countPers s p 0xA8) p (getLane s p) } := by
  rw [lockLost, getPort_setLane, countPers, getPort_modPort_self]

end

/-- Settles O33: `exec_…` says which state each row leads to; the `…_lane` lemmas what a lane holds in the state it
enters, `Silent` that nothing else of the ports has moved and nothing is posted. -/
theorem blindStart : Obligations.BlindStart := by
  unfold Obligations.BlindStart
  refine ⟨?auto, ?again, ?acquired, ?unmet, ?active, ?ready, ?lock25, ?ready25, ?lost, ?kept, ?retrained⟩
  case auto =>
    intro p s st auto runs
    refine ⟨_, exec_blindTimeout_auto runs st auto, ?_, posted_enterDetect s p _, enterDetect_others s p _⟩
    rw [enterDetect_lane]
  case again =>
    intro p s st auto runs
    have silent := silent_setLane s p { laneBlind s p (getLane s p) with fromLoss := (getLane s p).fromLoss }
    refine ⟨_, exec_blindTimeout_again runs st auto, ?_⟩
    rw [getLane_setLane]
    exact ⟨rfl, rfl, rfl, silent.unposted _, silent.others⟩
  case acquired =>
    intro p rms levels snr s st met runs
    have adapts : (getLane s p).st ≠ .hold := by
      rw [st]
      decide
    obtain ⟨most, st', locked, -⟩ := laneAdapt_lane s p (l := { getLane s p with locked := true }) adapts
    exact ⟨_, exec_laneLockAcquired runs st met, locked, st'.trans st, most, (silent_laneAdapt s p _).others,
      laneAdapt_onlyIn s p _⟩
  case unmet =>
    intro p rms levels snr s bad
    refine ⟨_, exec_laneLockAcquired_unmet (laneLockMet_not ?_), rfl⟩
    rwa [add_zero]
  case active =>
    intro p s st locked runs
    have posted := posted_enterActive s p
    rw [st] at posted
    refine ⟨_, exec_laneLockHoldExpiry_blind runs st locked, ?_⟩
    rw [enterActive_lane]
    exact ⟨rfl, rfl, posted, enterActive_others s p⟩
  case ready =>
    intro p s st locked pam runs
    refine ⟨_, exec_laneLockHoldExpiry_lock runs st locked pam, ?_⟩
    rw [enterReady_lane]
    exact ⟨rfl, rfl, List.mem_cons_self, (silent_enterReady s p).others⟩
  case lock25 =>
    intro p s st locked nrz runs
    exact ⟨_, exec_laneLockHoldExpiry_train25 runs st locked nrz, getLane_setLane _ _ _, (silent_setLane s p _).others,
      modPort_onlyIn _ _ _⟩
  case ready25 =>
    intro p s st locked nrz runs
    exact ⟨_, exec_laneLockHoldExpiry_lock25 runs st locked nrz, getLane_setLane _ _ _, (silent_setLane s p _).others,
      modPort_onlyIn _ _ _⟩
  case lost =>
    intro p rms errs snr s st lost runs
    have source : portSrc p 10 < 8192 := by
      unfold portSrc
      omega
    obtain ⟨payload, answer⟩ := exec_laneLockLost_active (errs := errs) runs st lost
    refine ⟨_, answer, ?_⟩
    simp only [getLane, PortsBut, getPort_postLimited, getPort_lockLost]
    exact ⟨rfl, rfl, rfl, rfl, rfl, rfl, rfl, persGet_persAdd_self _ _ _,
      (silent_lockLost s p).posted (posted_postLimited _ source _ _ _ _), (silent_lockLost s p).others⟩
  case kept =>
    intro p rms errs snr s st phase level
    exact ⟨_, exec_laneLockLost_kept st phase level, rfl⟩
  case retrained =>
    intro p rms errs snr s st lost runs
    have silent := silent_setLane s p { getLane s p with st := .train, locked := false }
    refine ⟨_, exec_laneLockLost_lock runs st lost, ?_⟩
    rw [getLane_setLane]
    exact ⟨rfl, rfl, silent.unposted _, silent.others⟩

/-! ### DETECT and training frames (R183 to R186) -/

/-- Steps of a training that change of a lane its own requests alone, and put out what they put out. -/
structure Seeks (p : PortId) (s t : State) : Prop where
  silent : Silent p s t
  lane   : ∃ k, getLane t p = { getLane s p with seek := k }
  bus    : s.io.bus ⊆ t.io.bus

section
variable {p : PortId} {s t u : State}

theorem Seeks.refl : Seeks p s s := ⟨.refl p s, ⟨_, rfl⟩, List.Subset.refl _⟩

theorem Seeks.trans (h : Seeks p s t) (k : Seeks p t u) : Seeks p s u := by
  obtain ⟨first, lane⟩ := h.lane
  obtain ⟨last, lane'⟩ := k.lane
  exact ⟨h.silent.trans k.silent, ⟨last, by rw [lane', lane]⟩, List.Subset.trans h.bus k.bus⟩

/-- A request of the device's own. -/
theorem seeks_request (s : State) (p : PortId) (k : Option Seek) (b : Bus) :
    Seeks p s (emit (setLane s p { getLane s p with seek := k }) b) :=
  ⟨(silent_setLane s p _).trans (silent_emit _ p _), ⟨k, by rw [getLane_emit, getLane_setLane]⟩,
    List.subset_cons_self _ _⟩

theorem seeks_seekAsk (s : State) (p : PortId) (k : Seek) (i : Fin 4) (fresh : Bool) :
    Seeks p s (seekAsk s p k i fresh) := by
  unfold seekAsk
  simp only []
  refine Seeks.trans ?_ (seeks_request _ p _ _)
  split
  · exact ⟨silent_freeNat s p, ⟨_, getLane_freeNat s p⟩, List.Subset.refl _⟩
  · exact .refl

theorem seeks_seekNext (s : State) (p : PortId) (k : Seek) (i : Fin 4) : Seeks p s (seekNext s p k i) := by
  unfold seekNext
  split
  · exact seeks_seekAsk s p k _ true
  · split
    · exact ⟨silent_setLane s p _, ⟨_, getLane_setLane _ _ _⟩, List.Subset.refl _⟩
    · exact seeks_seekAsk s p _ 1 true

theorem seeks_seekStep (s : State) (p : PortId) (f : TrainFrame) : Seeks p s (seekStep s p f) := by
  unfold seekStep
  simp only []
  split
  · exact .refl
  · rename_i k _
    split
    · exact .refl
    · have acked : Seeks p s (if !k.acked && f.status != TapStatus.notUpdated then
          emit (setLane s p { getLane s p with seek := some { k with acked := true } }) (.lane p "request hold" 0)
          else s) := by
        split
        · exact seeks_request s p _ _
        · exact .refl
      refine acked.trans ?_
      generalize (if !k.acked && f.status != TapStatus.notUpdated then
        emit (setLane s p { getLane s p with seek := some { k with acked := true } }) (.lane p "request hold" 0)
        else s) = u
      split
      · split
        · exact seeks_seekAsk u p _ 1 true
        · exact .refl
      · split
        · exact .refl
        · split
          · exact seeks_seekNext u p _ _
          · split
            · exact seeks_seekAsk u p _ _ false
            · split
              · exact seeks_seekAsk u p _ _ false
              · exact seeks_seekNext u p _ _
      · exact .refl

/-- A request that the partner acknowledges, and that nothing has judged yet, gives way to hold (R183). -/
theorem seekStep_acked {f : TrainFrame} {k : Seek} (seek : (getLane s p).seek = some k) (open_ : k.done = false)
    (new : k.acked = false) (status : f.status ≠ .notUpdated) (snr : f.snr = none) : seekStep s p f =
      emit (setLane s p { getLane s p with seek := some { k with acked := true } }) (.lane p "request hold" 0) := by
  simp [seekStep, seek, open_, new, status, snr]

/-- The answer to a request changes taps or the precoding asked for, never the lane's state. -/
theorem tapAnswer_st (l : Lane) (r : TapReq) : (tapAnswer l r).2.st = l.st := by
  cases r with
  | inc i => simp only [tapAnswer]; split <;> rfl
  | dec i => simp only [tapAnswer]; split <;> rfl
  | hold => rfl
  | preset n => rfl
  | minus3 => rfl
  | pam2 => rfl
  | precode on => rfl

end

/-- A training frame in TRAIN once it is answered, before the device's own requests (R183, R184). -/
def frameAnswered (s : State) (p : PortId) (f : TrainFrame) : State :=
  emit (setLane s p { (tapAnswer (getLane s p) f.req).2 with partReady := f.ready })
    (.lane p (tapAnswer (getLane s p) f.req).1 0)

theorem frameAnswered_lane (s : State) (p : PortId) (f : TrainFrame) : getLane (frameAnswered s p f) p =
    { (tapAnswer (getLane s p) f.req).2 with partReady := f.ready } := getLane_setLane _ _ _

theorem silent_frameAnswered (s : State) (p : PortId) (f : TrainFrame) : Silent p s (frameAnswered s p f) :=
  (silent_setLane s p _).trans (silent_emit _ p _)

section
variable {s : State} {p : PortId} {f : TrainFrame} (runs : herdsRun s = true)
include runs

theorem exec_detectProbe_none (st : (getLane s p).st = .detect) :
    exec (.detectProbe p false) s = .next (emit s (.lane p "probe" 0)) := by
  have st' : (getPort s p).lane.st = .detect := st
  simp [exec, execDetectProbe, runs, st']

theorem exec_trainingFrameReceived_train (ok : f.checksOk = true) (pam : (getLane s p).mode ≠ .l25)
    (st : (getLane s p).st = .train) :
    exec (.trainingFrameReceived p f) s = .next (seekStep (frameAnswered s p f) p f) := by
  simp [exec, execTrainingFrameReceived, runs, ok, pam, st, frameAnswered]

theorem exec_trainingFrameReceived_precode {on : Bool} (ok : f.checksOk = true) (pam : (getLane s p).mode ≠ .l25)
    (st : (getLane s p).st = .ready) (req : f.req = .precode on) : exec (.trainingFrameReceived p f) s = .next
      (emit (setLane s p { getLane s p with partReady := f.ready, preReq := some on, preTx := on })
        (.lane p (lateAnswer f.req) 0)) := by
  simp [exec, execTrainingFrameReceived, runs, ok, pam, st, req]

theorem exec_trainLockMet {rms levels errs : Nat} {snr : Int} (st : (getLane s p).st = .train)
    (pam : (getLane s p).mode ≠ .l25) (met : laneLockMet (getLane s p) 10 rms levels snr = true) (few : errs ≤ 10) :
    exec (.trainLockMet p rms levels snr errs) s =
      .next (laneAdapt s p { getLane s p with st := .lock, locked := true }) := by
  simp [exec, execTrainLockMet, runs, st, pam, met, few]

theorem exec_laneReadyDone (st : (getLane s p).st = .ready)
    (both : (getLane s p).partReady = true ∨ (getLane s p).mode = .l25) :
    exec (.laneReadyDone p) s = .next (enterActive s p) := by
  rcases both with both | both <;> simp [exec, execLaneReadyDone, runs, st, both]

end

section
variable {s : State} {p : PortId}

/-- A frame that fails its checks changes nothing, whether or not herds run (R183). -/
theorem exec_trainingFrameReceived_damaged {f : TrainFrame} (damaged : f.checksOk = false) :
    exec (.trainingFrameReceived p f) s = .next s := by
  simp [exec, execTrainingFrameReceived, damaged]

/-- Too many errors, or an SNR too low, leave the lane as it is (R185). -/
theorem exec_trainLockMet_unmet {rms levels errs : Nat} {snr : Int}
    (bad : 10 < errs ∨ snr < ((getLane s p).lockSnr : Int) + 10) :
    exec (.trainLockMet p rms levels snr errs) s = .next s := by
  rcases bad with many | low
  · simp [exec, execTrainLockMet, many]
  · simp [exec, execTrainLockMet, laneLockMet_not (.inr (.inr low))]

end

/-- A lane that has found its partner in DETECT (R183): a receiver that adapts from its start, and in PAM-4 requests of
its own. -/
def trainEntered (s : State) (p : PortId) : State :=
  setLane (emit s (.lane p "probe" 0)) p { laneFresh s p (getLane s p) with
    st := .train, locked := false, limit := (getLane s p).limit
    seek := if (getLane s p).mode == .l25 then none else some Seek.start }

/-- A PAM-4 lane asks for LANE_PARTNER_PRESET, and with LANE_PRECODE_RX for the partner's precoding (R185, R186). -/
def presetAsked (s : State) (p : PortId) : State :=
  if livePar (getPort s p) 0x34 = 1 then
    emit (emit (trainEntered s p) (.lane p "request preset" (BitVec.ofNat 32 (livePar (getPort s p) 0x32))))
      (.lane p "request precoding" 1)
  else emit (trainEntered s p) (.lane p "request preset" (BitVec.ofNat 32 (livePar (getPort s p) 0x32)))

theorem trainEntered_lane (s : State) (p : PortId) : (getLane (trainEntered s p) p).st = .train ∧
    (getLane (trainEntered s p) p).ctle = 0 ∧ (getLane (trainEntered s p) p).locked = false := by
  simp only [trainEntered, getLane_setLane, laneFresh, and_self]

theorem silent_trainEntered (s : State) (p : PortId) : Silent p s (trainEntered s p) :=
  (silent_emit s p _).trans (silent_setLane _ p _)

theorem getPort_presetAsked (s : State) (p q : PortId) :
    getPort (presetAsked s p) q = getPort (trainEntered s p) q := by
  unfold presetAsked
  split <;> rfl

theorem presetAsked_bus (s : State) (p : PortId) : Bus.lane p "probe" 0 ∈ (presetAsked s p).io.bus ∧
    Bus.lane p "request preset" (BitVec.ofNat 32 (livePar (getPort s p) 0x32)) ∈ (presetAsked s p).io.bus := by
  unfold presetAsked
  split <;> simp [emit, trainEntered, setLane]

section
variable {s : State} {p : PortId} (runs : herdsRun s = true) (st : (getLane s p).st = .detect)
include runs st

theorem exec_detectProbe_found25 (nrz : (getLane s p).mode = .l25) :
    exec (.detectProbe p true) s = .next (trainEntered s p) := by
  have st' : (getPort s p).lane.st = .detect := st
  have nrz' : (getPort s p).lane.mode = .l25 := nrz
  simp only [exec, execDetectProbe, runs, st', nrz', trainEntered, nrz]
  rfl

theorem exec_detectProbe_foundPam (pam : (getLane s p).mode ≠ .l25) :
    exec (.detectProbe p true) s = .next (presetAsked s p) := by
  have st' : (getPort s p).lane.st = .detect := st
  have pam' : ((getPort s p).lane.mode == .l25) = false := beq_eq_false_iff_ne.mpr pam
  have pam'' : ((getLane s p).mode == .l25) = false := pam'
  simp only [exec, execDetectProbe, runs, st', pam', presetAsked, trainEntered, pam'']
  rfl

end

/-! ### 500 ms without ACTIVE (R180) -/

section
variable {s : State} {p : PortId} (runs : herdsRun s = true) (lane : inFallback (getLane s p).st = true)
include runs lane

theorem exec_fallbackLimitExpiry_again
    (left : (getLane s p).limit = 0 ∨ ((getLane s p).retries + 1).toNat < (getLane s p).limit) :
    exec (.fallbackLimitExpiry p) s = .next (postFallback
      (setLane s p { laneBlind s p (getLane s p) with retries := (getLane s p).retries + 1 }) p 0x81) := by
  unfold getLane at lane left ⊢
  have may : ¬((getPort s p).lane.limit ≠ 0 && decide ((getPort s p).lane.limit ≤
      ((getPort s p).lane.retries + 1).toNat)) = true := by
    simp only [Bool.and_eq_true, decide_eq_true_eq]
    omega
  simp only [exec, execFallbackLimitExpiry, runs, lane, if_neg may]
  rfl

theorem exec_fallbackLimitExpiry_held (limited : (getLane s p).limit ≠ 0)
    (used : (getLane s p).limit ≤ ((getLane s p).retries + 1).toNat) :
    exec (.fallbackLimitExpiry p) s = .next (postFallback (setLane s p { getLane s p with
      st := .hold, retries := (getLane s p).retries + 1, locked := false }) p 0x82) := by
  unfold getLane at lane limited used ⊢
  have must : ((getPort s p).lane.limit ≠ 0 && decide ((getPort s p).lane.limit ≤
      ((getPort s p).lane.retries + 1).toNat)) = true := by
    simp only [Bool.and_eq_true, decide_eq_true_eq]
    exact ⟨limited, used⟩
  simp only [exec, execFallbackLimitExpiry, runs, lane, if_pos must]
  rfl

end

/-! ### The checker's counters (R195, R231) -/

theorem statGet_statAdd_self (x : Port) (off n : Nat) :
    statGet (statAdd x off n) off = statGet x off + BitVec.ofNat 64 n := tabGet_tabSet_self _ _ _ _

theorem statGet_statAdd_ne (x : Port) {off k : Nat} (n : Nat) (other : k ≠ off) :
    statGet (statAdd x off n) k = statGet x k := tabGet_tabSet_ne _ _ _ other

/-- A lane's record holds no counter of its port. -/
theorem statGet_lane (x : Port) (l : Lane) (off : Nat) : statGet { x with lane := l } off = statGet x off := rfl

/-- What a lane's checker makes of received bits: itself, its lock, what it has counted. -/
def checked (s : State) (p : PortId) (bits : List Bool) : Checker × Bool × Tally :=
  checkRun (getLane s p).chk (freeNat s).1 bits (getLane s p).chkr (getLane s p).chkLock

section
variable {s : State} {p : PortId}

theorem checkIn_off (off : (getLane s p).chk = 0) (bits : List Bool) : checkIn s p bits = s := by
  simp only [checkIn, if_pos off]

/-- Its port's record: four counters go on, and only the checker changes in the lane. -/
theorem checkIn_self (on : (getLane s p).chk ≠ 0) (bits : List Bool) : getPort (checkIn s p bits) p =
    statAdd (statAdd (statAdd (statAdd
      { getPort s p with lane :=
        { getLane s p with chkr := (checked s p bits).1, chkLock := (checked s p bits).2.1 } }
      0x210 (checked s p bits).2.2.bits) 0x218 (checked s p bits).2.2.errs)
      0x220 (if (getLane s p).mode == .l25 then 0 else (checked s p bits).2.2.syms))
      0x228 (checked s p bits).2.2.seeds := by
  simp only [checkIn, if_neg on, getPort_modPort_self, getPort_freeNat, checked]

theorem checkIn_stats (on : (getLane s p).chk ≠ 0) (bits : List Bool) :
    statGet (getPort (checkIn s p bits) p) 0x210 =
      statGet (getPort s p) 0x210 + BitVec.ofNat 64 (checked s p bits).2.2.bits ∧
    statGet (getPort (checkIn s p bits) p) 0x218 =
      statGet (getPort s p) 0x218 + BitVec.ofNat 64 (checked s p bits).2.2.errs ∧
    statGet (getPort (checkIn s p bits) p) 0x228 =
      statGet (getPort s p) 0x228 + BitVec.ofNat 64 (checked s p bits).2.2.seeds ∧
    statGet (getPort (checkIn s p bits) p) 0x230 = statGet (getPort s p) 0x230 := by
  simp (disch := decide) only [checkIn_self on, statGet_statAdd_self, statGet_statAdd_ne, statGet_lane, and_self]

/-- What reaches the checker leaves the bits still to be inverted, and the count of those that were. -/
theorem nearBits_injection (s : State) (p : PortId) (bits : List Bool) :
    (getLane (nearBits s p bits) p).flips = (getLane s p).flips ∧
    statGet (getPort (nearBits s p bits) p) 0x230 = statGet (getPort s p) 0x230 := by
  unfold nearBits
  split
  · by_cases on : (getLane s p).chk = 0
    · rw [checkIn_off on]
      exact ⟨rfl, rfl⟩
    · obtain ⟨-, -, -, injected⟩ := checkIn_stats on bits
      refine ⟨?_, injected⟩
      rw [getLane, checkIn_self on]
      rfl
  · exact ⟨rfl, rfl⟩

theorem exec_checkerLock (runs : herdsRun s = true) (far : (getPort s p).loop ≠ .near) (bits : List Bool) :
    exec (.checkerLock p bits) s = .next (checkIn s p bits) := by
  simp [exec, execCheckerLock, runs, far]

/-! ### Periodic injection (R196) -/

/-- A PERIODIC instant: one more bit is to be inverted, and is counted. -/
def flipped (s : State) (p : PortId) : State :=
  modPort s p fun x => statAdd { x with lane := { x.lane with flips := x.lane.flips + 1 } } 0x230 1

theorem getPort_flipped (s : State) (p : PortId) : getPort (flipped s p) p =
    statAdd { getPort s p with lane := { getLane s p with flips := (getLane s p).flips + 1 } } 0x230 1 :=
  getPort_modPort_self _ _ _

theorem getLane_flipped (s : State) (p : PortId) :
    getLane (flipped s p) p = { getLane s p with flips := (getLane s p).flips + 1 } :=
  congrArg Port.lane (getPort_flipped s p)

theorem statGet_flipped (s : State) (p : PortId) :
    statGet (getPort (flipped s p) p) 0x230 = statGet (getPort s p) 0x230 + 1 := by
  rw [getPort_flipped, statGet_statAdd_self]
  rfl

theorem silent_flipped (s : State) (p : PortId) : Silent p s (flipped s p) := silent_modPort s p _

section
variable (runs : herdsRun s = true) (periodic : (getLane s p).periodic.isSome = true)
  (sends : laneSends (getLane s p) = true)
include runs periodic sends

theorem exec_periodicInjection_live (live : (getLane s p).live = true) :
    exec (.periodicInjection p) s = .next (flipped s p) := by
  simp only [exec, execPeriodicInjection, runs, periodic, sends, live]
  rfl

theorem exec_periodicInjection_pattern (live : (getLane s p).live = false) (gen : (getLane s p).gen ≠ 0) :
    exec (.periodicInjection p) s = .next (emitPattern (flipped s p) p) := by
  have on : ((getLane s p).gen != 0) = true := bne_iff_ne.mpr gen
  simp only [exec, execPeriodicInjection, runs, periodic, sends, live, on]
  rfl

end

end

/-- Settles O34: `exec_…` says which state each row leads to; what a training frame sets off beyond its answer is
`Seeks`, what the checker counts `checkIn_self`, and what a PERIODIC instant puts out `emitPattern_sends`. -/
theorem fallBackTraining : Obligations.FallBackTraining := by
  unfold Obligations.FallBackTraining
  refine ⟨?found, ?none, ?answered, ?acked, ?precode, ?damaged, ?lock, ?unmet, ?active, ?again, ?held, ?checker, ?live,
    ?pattern⟩
  case found =>
    intro p s st runs
    obtain ⟨st', ctle, locked⟩ := trainEntered_lane s p
    by_cases nrz : (getLane s p).mode = .l25
    · exact ⟨_, exec_detectProbe_found25 runs st nrz, st', ctle, locked, List.mem_cons_self, fun pam => absurd nrz pam,
        (silent_trainEntered s p).others⟩
    · obtain ⟨probe, asked⟩ := presetAsked_bus s p
      refine ⟨_, exec_detectProbe_foundPam runs st nrz, ?_⟩
      simp only [getLane, PortsBut, getPort_presetAsked]
      exact ⟨st', ctle, locked, probe, fun _ => asked, (silent_trainEntered s p).others⟩
  case none =>
    intro p s st runs
    exact ⟨_, exec_detectProbe_none runs st, st, rfl, onlyIn_of_pick (by simp)⟩
  case answered =>
    intro p f s st ok pam runs
    obtain ⟨silent, ⟨k, lane⟩, bus⟩ := seeks_seekStep (frameAnswered s p f) p f
    refine ⟨_, exec_trainingFrameReceived_train runs ok pam st, ?_⟩
    rw [lane, frameAnswered_lane]
    exact ⟨rfl, rfl, rfl, (tapAnswer_st _ _).trans st, bus List.mem_cons_self,
      ((silent_frameAnswered s p f).trans silent).others⟩
  case acked =>
    intro p f k s st ok pam seek open_ new status hold snr runs
    have lane : getLane (frameAnswered s p f) p = { getLane s p with partReady := f.ready } := by
      rw [frameAnswered_lane, hold]
      rfl
    have sought : (getLane (frameAnswered s p f) p).seek = some k := by
      rw [lane]
      exact seek
    refine ⟨_, exec_trainingFrameReceived_train runs ok pam st, ?_⟩
    rw [seekStep_acked sought open_ new status snr, getLane_emit, getLane_setLane, lane]
    exact ⟨rfl, List.mem_cons_self,
      ((silent_frameAnswered s p f).trans ((silent_setLane _ p _).trans (silent_emit _ p _))).others⟩
  case precode =>
    intro p f on s st ok pam req runs
    exact ⟨_, exec_trainingFrameReceived_precode runs ok pam st req, getLane_setLane _ _ _, rfl,
      (silent_setLane s p _).others, onlyIn_of_pick (by simp)⟩
  case damaged =>
    intro p f s damaged
    exact ⟨s, exec_trainingFrameReceived_damaged damaged, rfl⟩
  case lock =>
    intro p rms levels errs snr s st pam met few runs
    obtain ⟨-, st', locked, taps⟩ :=
      laneAdapt_lane s p (l := { getLane s p with st := .lock, locked := true }) (by simp)
    exact ⟨_, exec_trainLockMet runs st pam met few, st', locked, taps, (silent_laneAdapt s p _).others,
      onlyIn_mono (laneAdapt_onlyIn s p _) (by simp)⟩
  case unmet =>
    intro p rms levels errs snr s bad
    exact ⟨s, exec_trainLockMet_unmet bad, rfl⟩
  case active =>
    intro p s st both runs
    have posted := posted_enterActive s p
    rw [st] at posted
    refine ⟨_, exec_laneReadyDone runs st both, ?_⟩
    rw [enterActive_lane]
    exact ⟨rfl, rfl, posted, enterActive_others s p⟩
  case again =>
    intro p s lane left runs
    obtain ⟨self, posted, others⟩ := setLane_postFallback s p 0x81
      { laneBlind s p (getLane s p) with retries := (getLane s p).retries + 1 }
    exact ⟨_, exec_fallbackLimitExpiry_again runs lane left, congrArg (·.st) self, congrArg (·.retries) self, posted,
      others⟩
  case held =>
    intro p s lane limited used runs
    obtain ⟨self, posted, others⟩ := setLane_postFallback s p 0x82
      { getLane s p with st := .hold, retries := (getLane s p).retries + 1, locked := false }
    exact ⟨_, exec_fallbackLimitExpiry_held runs lane limited used, congrArg (·.st) self, congrArg (·.retries) self,
      posted, others⟩
  case checker =>
    intro p bits s runs far on
    obtain ⟨bits', errs, seeds, -⟩ := checkIn_stats on bits
    have lane := congrArg Port.lane (checkIn_self on bits)
    exact ⟨_, exec_checkerLock runs far bits, congrArg Lane.chkLock lane, congrArg Lane.chkr lane, bits', errs, seeds,
      (silent_checkIn s p bits).others⟩
  case live =>
    intro p s periodic sends live runs
    exact ⟨_, exec_periodicInjection_live runs periodic sends live, statGet_flipped s p, getLane_flipped s p,
      (silent_flipped s p).others⟩
  case pattern =>
    intro p s periodic sends live gen pads runs
    have lane := getLane_flipped s p
    have out := emitPattern_sends (s := flipped s p) (p := p) (by rw [lane]; exact gen) (by rw [lane]; exact sends) pads
    have answer := exec_periodicInjection_pattern runs periodic sends live gen
    obtain ⟨flips, count⟩ := nearBits_injection (patternOut (flipped s p) p) p (patternBits (getLane (flipped s p) p))
    refine ⟨_, answer, ?_, ?_, ?_, ((silent_flipped s p).trans (silent_emitPattern _ p)).others⟩
    · rw [out, count, patternOut, getPort_emit, getPort_setLane, statGet_lane]
      exact statGet_flipped s p
    · have put := patternOut_bus (flipped s p) p
      simp only [lane, patternBits, live, Bool.false_eq_true, if_false] at put
      rw [out, nearBits_io]
      exact put
    · rw [out, flips, patternOut, getLane_emit, getLane_setLane, patternSent, lane]
      simp only [live, Bool.false_eq_true, if_false]

end Sys2Proof.Proofs
end

section
/-!
PROOFS of the family 08_low_power_idle: LPI.CONFIG, the idle timer, refreshes and the end of a wake (O42).
-/

namespace Sys2Proof.Proofs

open Sys2Proof.Machine Sys2Proof.Safety

/-! ### Limited events end no command (R544) -/

section
variable {s : State}

theorem runsOn_pushEvent (e : Event) : RunsOn s (pushEvent s e) := by
  unfold pushEvent
  split
  · exact runsOn_pushGlobal e
  · split
    · exact runsOn_pushPort _ e
    · exact runsOn_pushGlobal e

theorem runsOn_setInterval (key : Nat) (i : Interval) : RunsOn s (setInterval s key i) := .of_rings rfl

theorem runsOn_postLimited (src kind : Nat) (payload : List Fld) (at_ : Option Nat) (n : Nat) :
    RunsOn s (postLimited s src kind payload at_ n) := by
  unfold postLimited postLimitedNaming
  simp only []
  refine runsOn_trans (t := bumpGen s src) (.of_rings rfl) ?_
  split
  · exact runsOn_setInterval _ _
  · exact runsOn_trans (runsOn_setInterval _ _) (runsOn_pushEvent _)

end

/-! ### To WAKE (R212, R213) -/

/-- A port that enters WAKE: its quiet period is counted, as is the wake, and 8 ALERT slots are to be sent. -/
def wakened (s : State) (x : Port) (cause : Nat) : Port :=
  { statAdd (quietClose s x) 0x90 1 with
    lpi := { x.lpi with st := .wake, due := false, passed := false, wakeFrom := s.mono }
    line := { x.line with alertLeft := 8, wakeGo := x.lpi.st == .refresh && cause != 2,
                          wakeRx := x.lpi.st == .refresh && cause == 2 } }

theorem wakened_lpiCfg (s : State) (x : Port) (cause : Nat) : (wakened s x cause).lpiCfg = x.lpiCfg := by
  unfold wakened quietClose
  split <;> rfl

theorem statGet_wakened (s : State) (x : Port) (cause : Nat) :
    statGet (wakened s x cause) 0x90 = statGet x 0x90 + 1 := by
  have counted : statGet (quietClose s x) 0x90 = statGet x 0x90 := by
    unfold quietClose
    split
    · exact statGet_statAdd_ne _ _ (by decide)
    · rfl
  calc statGet (wakened s x cause) 0x90
      = statGet (statAdd (quietClose s x) 0x90 1) 0x90 := rfl
    _ = statGet x 0x90 + 1 := by rw [statGet_statAdd_self, counted]; rfl

section
variable (s : State) (p : PortId) (cause : Nat)

/-- LPI_EXIT, posted or counted, follows what the port's record becomes (R221). -/
theorem enterWake_cases :
    (∃ l, enterWake s p cause =
      postLimited (setPort s p (wakened s (getPort s p) cause)) (portSrc p 6) 0 l (some 4) 1) ∨
    enterWake s p cause = countLimited (setPort s p (wakened s (getPort s p) cause)) (portSrc p 6) 0 := by
  unfold enterWake
  simp only []
  split
  · exact .inl ⟨_, rfl⟩
  · exact .inr rfl

theorem enterWake_self : getPort (enterWake s p cause) p = wakened s (getPort s p) cause := by
  obtain ⟨l, posted⟩ | counted := enterWake_cases s p cause
  · rw [posted, getPort_postLimited, getPort_setPort_self]
  · simp only [counted, getPort, countLimited_ports]
    exact getPort_setPort_self s p _

theorem runsOn_enterWake : RunsOn s (enterWake s p cause) := by
  obtain ⟨l, posted⟩ | counted := enterWake_cases s p cause
  · rw [posted]
    exact runsOn_trans (.of_rings rfl) (runsOn_postLimited _ _ _ _ _)
  · rw [counted]
    exact .of_rings rfl

theorem wakeTrigger_quiet (quiet : (getPort s p).lpi.st = .quiet) : wakeTrigger s p cause = enterWake s p cause := by
  simp only [wakeTrigger, quiet]

end

/-! ### LPI.CONFIG (R220) -/

/-- LPI.CONFIG's values taken, at once and before any wake they cause. -/
def lpiConfigured (s : State) (p : PortId) (cfg : LpiCfg) : State := modPort s p fun x => { x with lpiCfg := cfg }

theorem getPort_lpiConfigured (s : State) (p : PortId) (cfg : LpiCfg) :
    getPort (lpiConfigured s p cfg) p = { getPort s p with lpiCfg := cfg } := getPort_modPort_self _ _ _

section
variable {c : Cmd} {p : PortId} {s : State} {autoIdle events : BitVec 8} {timer : BitVec 32}
  (turn : myTurn s c = true) (gate : portGate s p = none) (idle : autoIdle.toNat ≤ 1) (posts : events.toNat ≤ 1)
  (least : 5 ≤ timer.toNat) (most : timer.toNat ≤ 10000)
include turn gate idle posts least most

theorem exec_lpiConfig {enable : BitVec 8} (on : enable.toNat ≤ 1) {cfg : LpiCfg}
    (values : cfg = { enable := enable == 1, autoIdle := autoIdle == 1, events := events == 1, timer := timer }) :
    exec (.lpiConfig c p enable autoIdle events timer) s = .next (completeOk
      (if cfg.enable then lpiConfigured s p cfg else wakeTrigger (lpiConfigured s p cfg) p 3)
      0x0901 c [.port p] 0) := by
  have timed : (decide (timer.toNat < 5) || decide (10000 < timer.toNat)) = false := by
    simp only [Bool.or_eq_false_iff, decide_eq_false_iff_not]
    omega
  subst values
  simp only [exec, execLpiConfig, turn, gate, Nat.not_lt.mpr on, Nat.not_lt.mpr idle, Nat.not_lt.mpr posts, timed,
    Bool.not_true, Bool.false_eq_true, if_false, lpiConfigured]

/-- An LPI_ENABLE of 0 wakes a sleeping line (R212). -/
theorem exec_lpiConfig_wakes (quiet : (getPort s p).lpi.st = .quiet) {cfg : LpiCfg}
    (values : cfg = { enable := false, autoIdle := autoIdle == 1, events := events == 1, timer := timer }) :
    exec (.lpiConfig c p 0 autoIdle events timer) s =
      .next (completeOk (enterWake (lpiConfigured s p cfg) p 3) 0x0901 c [.port p] 0) := by
  have off : cfg.enable ≠ true := by simp [values]
  rw [exec_lpiConfig turn gate idle posts least most (by decide) values, if_neg off, wakeTrigger_quiet]
  rw [getPort_lpiConfigured, quiet]

end

/-- The wake that LPI.CONFIG causes is its port's alone, and leaves the command to be completed. -/
theorem completed_lpiConfig_wakes {c : Cmd} {s : State} (runs : Runs s c) (p : PortId) (cfg : LpiCfg) :
    getPort (completeOk (enterWake (lpiConfigured s p cfg) p 3) 0x0901 c [.port p] 0) p =
      wakened (lpiConfigured s p cfg) { getPort s p with lpiCfg := cfg } 3 ∧
    PortsBut p s (completeOk (enterWake (lpiConfigured s p cfg) p 3) 0x0901 c [.port p] 0) ∧
    Answered s (completeOk (enterWake (lpiConfigured s p cfg) p 3) 0x0901 c [.port p] 0) c 0x0901 stOk 0 := by
  refine ⟨?_, fun q n => ?_, answered_after (regs_of_kept (kept_enterWake (lpiConfigured s p cfg) p 3)) ?_ _ _ _⟩
  · rw [getPort_completeOk, enterWake_self, getPort_lpiConfigured]
  · rw [getPort_completeOk, (keepsLock_enterWake _ p 3).others q n, lpiConfigured, getPort_modPort_ne _ _ n]
  · exact (runsOn_enterWake (lpiConfigured s p cfg) p 3).runs runs

/-! ### The idle timer (R204) -/

/-- The autonomous entry trigger. -/
theorem lpiTry_autonomous {x : Port} (up : x.st = .up) (active : x.lpi.st = .active) (on : x.lpiCfg.enable = true)
    (auto : x.lpiCfg.autoIdle = true) (segmented : x.fec = 1) (expired : x.dp.idleTimer = true) (empty : x.dp.wake = [])
    (idle : x.dp.lpiRun < 4) : (lpiTry x).lpi.st = .request ∧ (lpiTry x).lpi.trigger = 1 := by
  simp [lpiTry, up, active, on, auto, segmented, expired, empty, Nat.not_le.mpr idle]

section
variable {p : PortId} {s : State}

theorem exec_autoIdleTimerExpiry (locked : (getPort s p).dp.cwLock = true) (runs : herdsRun s = true) :
    exec (.autoIdleTimerExpiry p) s = .next (setPort s p
      (lpiTry { getPort s p with dp := { (getPort s p).dp with idleTimer := true } })) := by
  simp only [exec, execAutoIdleTimerExpiry, locked, runs, Bool.and_self, if_true]

/-! ### Refresh instants (R208) -/

theorem exec_lpiRefreshInstant_begins (up : (getPort s p).st = .up) (quiet : (getPort s p).lpi.st = .quiet)
    (runs : herdsRun s = true) (begins : (getPort s p).role ≠ some .slave ∨ anySignal (getPort s p) = true) :
    exec (.lpiRefreshInstant p) s =
      .next (setPort s p (refreshNow s (getPort s p) (!anySignal (getPort s p)))) := by
  have own : ((getPort s p).role == some .slave && !anySignal (getPort s p)) = false := by
    rcases begins with role | signal
    · simp [role]
    · simp [signal]
  simp [exec, execLpiRefreshInstant, up, quiet, runs, own]

/-- A slave waits for the master's signal, which is now due (log 27). -/
theorem exec_lpiRefreshInstant_waits (up : (getPort s p).st = .up) (quiet : (getPort s p).lpi.st = .quiet)
    (runs : herdsRun s = true) (role : (getPort s p).role = some .slave) (silent : anySignal (getPort s p) = false) :
    exec (.lpiRefreshInstant p) s =
      .next (setPort s p { getPort s p with lpi := { (getPort s p).lpi with due := true } }) := by
  simp [exec, execLpiRefreshInstant, up, quiet, runs, role, silent]

end

/-! ### The calibration step of a refresh (R222, R443) -/

/-- The state in which the end of a refresh is judged: the refresh has given its calibration step. -/
def refreshStepped (s : State) (p : PortId) : State :=
  if (getPort s p).lpi.extended || !calRuns s p then s else calGap s p

/-- What the refresh check reads of a pair (R209). -/
def pairJudged (q : Pair) : PairDsp × Nat := (q.dsp, adaptLevel q)

theorem pairJudged_trimMove (k n : Nat) (q : Pair) : pairJudged (trimMove k n q) = pairJudged q := by
  unfold trimMove
  split <;> rfl

/-- A calibration step on the pairs changes nothing that the refresh check reads of them. -/
theorem calGap_self (s : State) (p : PortId) : ∃ pairs rot,
    (quadList pairs).map pairJudged = (quadList (getPort s p).pairs).map pairJudged ∧
    getPort (calGap s p) p = { getPort s p with pairs := pairs, calRot := rot, calMarks := 0 } := by
  have each (busy : Bool) (t : BitVec 64) (k n : Nat) (q : Pair) :
      pairJudged (if calPaused q || busy then q else trimMove k n (calStep t q)) = pairJudged q := by
    split
    · rfl
    · exact pairJudged_trimMove k n _
  refine ⟨_, _, ?_, by rw [calGap, getPort_modPort_self, taskStep, getPort_setPort_self]⟩
  simp only [quadZip, quadList, List.map_cons, List.map_nil, each]

/-- With its calibration step, a refresh that ends rewrites its own port alone. -/
theorem refreshStepped_others (s : State) (p : PortId) (x : Port) :
    PortsBut p s (setPort (refreshStepped s p) p x) := by
  intro q n
  rw [getPort_setPort_ne _ _ n]
  unfold refreshStepped
  split
  · rfl
  · rw [calGap, getPort_modPort_ne _ _ n, taskStep, getPort_setPort_ne _ _ n, getPort_freeNat]

theorem refreshStepped_mono (s : State) (p : PortId) : (refreshStepped s p).mono = s.mono := by
  have frame : OnlyIn [.fresh, .ports] s (refreshStepped s p) := by
    unfold refreshStepped
    split
    · exact onlyIn_of_pick rfl
    · exact onlyIn_of_pick (by simp)
  exact frame .mono (by simp)

/-- The refresh check reads the levels and the SNR of the pairs, and the SNR before the first QUIET (R209). -/
theorem refreshPasses_congr {x y : Port} (pairs : (quadList x.pairs).map pairJudged = (quadList y.pairs).map pairJudged)
    (before : x.lpi.preSnr = y.lpi.preSnr) (locks : Bool) : refreshPasses x locks = refreshPasses y locks := by
  have levels (z : Port) : (quadList z.pairs).all (fun q => decide (1 ≤ adaptLevel q)) =
      ((quadList z.pairs).map pairJudged).all fun e => decide (1 ≤ e.2) := by
    rw [List.all_map]
    rfl
  have snr (z : Port) : snr8k z =
      ((quadList z.pairs).map pairJudged).map fun e => (windowSnr e.1 128).getD (-1024) := by
    rw [List.map_map]
    rfl
  simp only [refreshPasses, levels, snr, pairs, before]

theorem refreshStepped_self (s : State) (p : PortId) : ∃ pairs rot marks,
    getPort (refreshStepped s p) p = { getPort s p with pairs := pairs, calRot := rot, calMarks := marks } ∧
    ∀ locks, refreshPasses (getPort (refreshStepped s p) p) locks = refreshPasses (getPort s p) locks := by
  unfold refreshStepped
  split
  · exact ⟨_, _, _, rfl, fun _ => rfl⟩
  · obtain ⟨pairs, rot, judged, self⟩ := calGap_self s p
    refine ⟨pairs, rot, 0, self, refreshPasses_congr ?_ ?_⟩
    · rw [self, judged]
    · rw [self]

/-! ### The end of a refresh (R208, R209) -/

/-- A port whose refresh check has failed: the refresh is extended and counted, and the pairs adapt in TRACKING. -/
def refreshExtended (x : Port) : Port :=
  let y := statAdd { x with lpi := { x.lpi with extended := true, passed := false } } 0xA0 1
  { y with pairs := quadMap trackPair y.pairs }

theorem statGet_refreshExtended (x : Port) : statGet (refreshExtended x) 0xA0 = statGet x 0xA0 + 1 :=
  statGet_statAdd_self { x with lpi := { x.lpi with extended := true, passed := false } } 0xA0 1

/-- After a check that passed: the port is quiet, or it is a slave whose refresh ends with the master's. -/
def refreshPassed (s : State) (p : PortId) : State :=
  let x := getPort s p
  if x.role == some .slave && anySignal x then setPort s p { x with lpi := { x.lpi with passed := true } }
  else setPort s p (quietNow s x)

theorem refreshPassed_quiet {s : State} {p : PortId}
    (done : (getPort s p).role ≠ some .slave ∨ anySignal (getPort s p) = false) :
    refreshPassed s p = setPort s p (quietNow s (getPort s p)) := by
  rcases done with role | silent
  · simp [refreshPassed, role]
  · simp [refreshPassed, silent]

/-- A slave notes that its check has passed while the master still sends (log 27). -/
theorem refreshPassed_waits {s : State} {p : PortId} (role : (getPort s p).role = some .slave)
    (signal : anySignal (getPort s p) = true) :
    refreshPassed s p = setPort s p { getPort s p with lpi := { (getPort s p).lpi with passed := true } } := by
  simp [refreshPassed, role, signal]

section
variable {p : PortId} {s : State} (up : (getPort s p).st = .up) (refresh : (getPort s p).lpi.st = .refresh)
  (runs : herdsRun s = true) (controller : (getHerd s (herdOf p)).st ≠ .fwRestart)
include up refresh runs controller

theorem exec_lpiRefreshEnd_passes (passes : refreshPasses (getPort s p) true = true)
    (ends : (getPort s p).lpi.extended = false ∨ atSuperframe (getPort s p) = true) :
    exec (.lpiRefreshEnd p true) s = .next (refreshPassed (refreshStepped s p) p) := by
  obtain ⟨pairs, rot, marks, self, judged⟩ := refreshStepped_self s p
  have skip : ((getHerd s (herdOf p)).st == .fwRestart) = false := beq_eq_false_iff_ne.mpr controller
  have passed := (judged true).trans passes
  have ended : ((getPort (refreshStepped s p) p).lpi.extended && !atSuperframe (getPort (refreshStepped s p) p)) =
      false := by
    rw [self]
    rcases ends with first | boundary
    · exact Bool.and_eq_false_imp.mpr fun extended => absurd (first.symm.trans extended) (by decide)
    · exact Bool.and_eq_false_imp.mpr fun _ => congrArg Bool.not boundary
  unfold refreshStepped at *
  simp only [exec, execLpiRefreshEnd, up, refresh, runs, skip, passed, ended, beq_self_eq_true, Bool.and_self,
    Bool.false_or, Bool.false_eq_true, if_true, if_false]
  rfl

/-- A first check that fails. -/
theorem exec_lpiRefreshEnd_fails (first : (getPort s p).lpi.extended = false) : exec (.lpiRefreshEnd p false) s =
    .next (setPort (refreshStepped s p) p (refreshExtended (getPort (refreshStepped s p) p))) := by
  obtain ⟨pairs, rot, marks, self, -⟩ := refreshStepped_self s p
  have skip : ((getHerd s (herdOf p)).st == .fwRestart) = false := beq_eq_false_iff_ne.mpr controller
  have first' : (getPort (refreshStepped s p) p).lpi.extended = false := by rw [self, first]
  have fails : refreshPasses (getPort (refreshStepped s p) p) false = false := rfl
  unfold refreshStepped at *
  simp only [exec, execLpiRefreshEnd, up, refresh, runs, skip, fails, first', beq_self_eq_true, Bool.and_self,
    Bool.false_or, Bool.false_and, Bool.false_eq_true, if_true, if_false]
  rfl

end

/-! ### The end of a wake (R213) -/

theorem lpiAllow_allowed {x : Port} (allowed : lpiBlocked x = false) (active : x.lpi.st = .active) :
    lpiAllow x = x := by
  simp [lpiAllow, allowed, active]

/-- Where LPI is allowed, a port is back in ACTIVE, and in the port state it was in. -/
theorem lpiActive_allowed {x : Port} (allowed : lpiBlocked x = false) :
    (lpiActive x).lpi.st = .active ∧ (lpiActive x).st = x.st := by
  rw [lpiActive, lpiAllow_allowed]
  · exact ⟨rfl, rfl⟩
  · exact allowed
  · rfl

theorem exec_lpiFirstCodewordInstant {p : PortId} {s : State} (up : (getPort s p).st = .up)
    (wake : (getPort s p).lpi.st = .wake) (go : (getPort s p).line.wakeGo = false)
    (partner : (getPort s p).line.wakeRx = false) (locks : locksHeld (getPort s p) = true) (runs : herdsRun s = true) :
    exec (.lpiFirstCodewordInstant p) s = .next (setPort s p (lpiActive (getPort s p))) := by
  simp [exec, execLpiFirstCodewordInstant, wakeInstant, up, wake, go, partner, locks, runs]

/-- Settles O42: `exec_…` says which state each row leads to, `enterWake_self` what a port in WAKE holds,
`refreshStepped_self` that the calibration step before a refresh check leaves what it judges. That a committed
LPI_ENABLE of 0 wakes the line is R212; that an instant or a passed check is noted until the master's signal begins or
ends is the model's reading (log 27). -/
theorem lpiRows : Obligations.LpiRows := by
  unfold Obligations.LpiRows
  refine ⟨?on, ?off, ?timer, ?begins, ?waits, ?quiet, ?passed, ?extended, ?wake⟩
  case on =>
    intro c p autoIdle events timer s runs turn gate idle posts least most
    exact ⟨_, exec_lpiConfig turn gate idle posts least most (by decide) rfl,
      completed_modPort runs _ _ fun x => { x with lpiCfg := _ }⟩
  case off =>
    intro c p autoIdle events timer s runs turn gate idle posts least most quiet
    have answer := exec_lpiConfig_wakes turn gate idle posts least most quiet rfl
    obtain ⟨self, others, answered⟩ := completed_lpiConfig_wakes runs p _
    refine ⟨_, answer, ?_, ?_, ?_, ?_, others, answered⟩
    all_goals rw [self]
    · rw [wakened_lpiCfg]
    · rfl
    · rfl
    · rw [statGet_wakened]
      rfl
  case timer =>
    intro p s locked runs up active on auto segmented empty idle
    obtain ⟨request, trigger⟩ := lpiTry_autonomous
      (x := { getPort s p with dp := { (getPort s p).dp with idleTimer := true } })
      up active on auto segmented rfl empty idle
    refine ⟨_, exec_autoIdleTimerExpiry locked runs, ?_, ?_, setPort_frame s p _⟩
    · rw [getPort_setPort_self, request]
    · rw [getPort_setPort_self, trigger]
  case begins =>
    intro p s up quiet runs begins
    refine ⟨_, exec_lpiRefreshInstant_begins up quiet runs begins, getPort_setPort_self _ _ _, ?_, ?_,
      setPort_frame s p _⟩
    all_goals rw [getPort_setPort_self]; rfl
  case waits =>
    intro p s up quiet runs role silent
    exact ⟨_, exec_lpiRefreshInstant_waits up quiet runs role silent, getPort_setPort_self _ _ _,
      setPort_frame s p _⟩
  case quiet =>
    intro p s up refresh runs controller ends passes master
    obtain ⟨pairs, rot, marks, self, -⟩ := refreshStepped_self s p
    have answer := exec_lpiRefreshEnd_passes up refresh runs controller passes ends
    rw [refreshPassed_quiet (by rw [self]; exact master)] at answer
    refine ⟨_, answer, ?_, ?_, refreshStepped_others s p _, exec_onlyIn answer⟩
    · rw [getPort_setPort_self]
      rfl
    · rw [getPort_setPort_self]
      exact refreshStepped_mono s p
  case passed =>
    intro p s up refresh runs controller ends passes role signal
    obtain ⟨pairs, rot, marks, self, -⟩ := refreshStepped_self s p
    have answer := exec_lpiRefreshEnd_passes up refresh runs controller passes ends
    rw [refreshPassed_waits (by rw [self]; exact role) (by rw [self]; exact signal)] at answer
    refine ⟨_, answer, ?_, refreshStepped_others s p _, exec_onlyIn answer⟩
    rw [getPort_setPort_self, self]
  case extended =>
    intro p s up refresh runs first controller
    obtain ⟨pairs, rot, marks, self, -⟩ := refreshStepped_self s p
    have answer := exec_lpiRefreshEnd_fails up refresh runs controller first
    have counted := statGet_refreshExtended (getPort (refreshStepped s p) p)
    refine ⟨_, answer, ?_, ?_, ?_, ?_, ?_, refreshStepped_others s p _, exec_onlyIn answer⟩
    all_goals rw [getPort_setPort_self]
    · rw [self]
      exact refresh
    · rfl
    · rw [counted, self]
      rfl
    · rfl
    · rfl
  case wake =>
    intro p s up wake go partner locks allowed runs
    obtain ⟨active, st⟩ := lpiActive_allowed allowed
    refine ⟨_, exec_lpiFirstCodewordInstant up wake go partner locks runs, ?_, ?_, (silent_setPort s p _).others⟩
    · rw [getPort_setPort_self, active]
    · rw [getPort_setPort_self, st, up]

end Sys2Proof.Proofs
end

section
/-!
PROOFS of the family 09_monitoring_diagnostics: cable diagnostics (O30), statistics, snapshots and monitoring (O31).
-/

namespace Sys2Proof.Proofs

open Sys2Proof.Machine Sys2Proof.Safety

/-! ### A kept result beside a diagnostic (R238, R288) -/

/-- DIAG.PASSIVE for port 0, sent on ring 4, with its result for ring 5. -/
def passiveOnRing5 : Cmd :=
  { ring := 4, index := 0, tag := 0, opcode := 0x0401, target := 0, flags := 0, dataRing := 5, params := [] }

/-- A buffer of 4,096 bytes at an address. -/
def page (addr : BitVec 64) : DataDesc := { addr := addr, length := 4096, flags := 0, tag := 0, rsvdZero := true }

/-- Ring 4 runs `passiveOnRing5` for port 0, which is up. DATA_RING names ring 5, an ACTIVE data-in ring with two
buffers, which is bound to port 1: check 4 asks for no binding to the target (R288). Port 1 keeps the result of an
automatic run (R238). -/
def keptBesidePassive : State :=
  { State.reset with
    regs := [(0x400148, 0x633)]
    ports := [(0, { Port.reset with st := .up }),
      (1, { Port.reset with st := .hold, diag := { Diag.none with kept := some [] } })]
    io := { State.reset.io with rings := [(4, { Ring.reset with st := .active, running := some passiveOnRing5 }),
      (5, { Ring.reset with st := .active, bufs := [page 0, page 4096] })] } }

/-- Refutes O30: its first clause has DIAG.PASSIVE leave every port but its own as it was. DATA_RING may name a data-in
ring that is bound to another port, and a kept result of that port is written before a buffer is taken (R238). In
`keptBesidePassive` the passive run on port 0 has port 1's result written, which port 1 keeps no longer. -/
theorem not_diagRows : ¬ Obligations.DiagRows := by
  unfold Obligations.DiagRows
  intro rows
  obtain ⟨passive, -⟩ := rows
  obtain ⟨t, run, -, -, -, others, -⟩ := passive passiveOnRing5 0 0 { ring := 5, index := 1, desc := page 4096 }
    keptBesidePassive (by decide) (by decide) (by decide) (by decide) (by decide) (by decide) (by decide)
  obtain rfl := Host.Outcome.next.inj run
  have kept := congrArg (fun x : Port => x.diag.kept.isSome) (others 1 (by decide))
  exact absurd kept (by decide)

/-! ### What rings and buffers leave of outputs and snapshots (R348, R350) -/

/-- The snapshots that wait, EPOCH and LAST_EPOCH. -/
def snapRest (s : State) : List Snap × BitVec 32 × BitVec 32 := (s.io.snaps, s.io.epoch, s.io.lastEpoch)

/-- Nothing that was put out is lost, and no snapshot is taken up or captured. -/
structure PutsOut (s t : State) : Prop where
  bus   : s.io.bus ⊆ t.io.bus
  snaps : snapRest t = snapRest s

section
variable {s t u : State}

theorem PutsOut.refl : PutsOut s s := ⟨List.Subset.refl _, rfl⟩

theorem PutsOut.trans (h : PutsOut s t) (k : PutsOut t u) : PutsOut s u :=
  ⟨List.Subset.trans h.bus k.bus, k.snaps.trans h.snaps⟩

/-- A definition that puts nothing out. -/
theorem PutsOut.of_bus (bus : t.io.bus = s.io.bus) (snaps : snapRest t = snapRest s) : PutsOut s t :=
  ⟨bus ▸ List.Subset.refl _, snaps⟩

theorem putsOut_setRing (r : RingId) (x : Ring) : PutsOut s (setRing s r x) := .of_bus rfl rfl

theorem putsOut_modPort (p : PortId) (f : Port → Port) : PutsOut s (modPort s p f) := .of_bus rfl rfl

theorem putsOut_emit (b : Bus) : PutsOut s (emit s b) := ⟨List.subset_cons_self _ _, rfl⟩

theorem putsOut_forEach {α : Type} {f : State → α → State} (each : ∀ s x, PutsOut s (f s x)) (l : List α)
    (s : State) : PutsOut s (forEach l f s) := by
  unfold forEach
  induction l generalizing s with
  | nil => exact .refl
  | cons x l ih => exact (each s x).trans (ih _)

/-! Interrupts and records. -/

theorem snapRest_msixSend (s : State) (v : Nat) : snapRest (msixSend s v) = snapRest s := by
  unfold msixSend
  split
  · split <;> rfl
  · rfl

theorem snapRest_vecCheck (s : State) (v : Nat) : snapRest (vecCheck s v) = snapRest s := by
  unfold vecCheck
  simp only []
  split
  · rfl
  · split
    · exact snapRest_msixSend _ _
    · rfl

theorem snapRest_ringRequest (s : State) (r : RingId) : snapRest (ringRequest s r) = snapRest s := by
  unfold ringRequest
  simp only []
  split
  · exact snapRest_vecCheck _ _
  · split
    · exact snapRest_vecCheck _ _
    · rfl

theorem putsOut_putRecord (q : RingId) (r : Completion) : PutsOut s (putRecord s q r) :=
  ⟨(quiet_putRecord s q r).1.bus, snapRest_ringRequest _ _⟩

theorem putsOut_putCompletion (q : RingId) (r : Completion) : PutsOut s (putCompletion s q r) := by
  unfold putCompletion
  simp only []
  split
  · exact putsOut_putRecord q r
  · exact putsOut_setRing _ _

theorem putsOut_putReserved (q : RingId) (r : Completion) : PutsOut s (putReserved s q r) := by
  unfold putReserved
  simp only []
  refine PutsOut.trans (putsOut_setRing q { getRing s q with reserved := (getRing s q).reserved - 1 }) ?_
  split
  · exact putsOut_putRecord q r
  · exact putsOut_setRing _ _

theorem putsOut_mirrorWrite (s : State) (o : MirrorObj) : PutsOut s (mirrorWrite s o) := by
  refine ⟨(quiet_mirrorWrite s o).bus, ?_⟩
  unfold mirrorWrite
  split <;> rfl

theorem putsOut_dequeue (c : Cmd) : PutsOut s (dequeue s c) := by
  refine ⟨(quiet_dequeue s c).bus, ?_⟩
  unfold dequeue
  split <;> split <;> rfl

theorem putsOut_complete (op : Nat) (c : Cmd) (l : List MirrorObj) (a : BitVec 8) (r : BitVec 64) :
    PutsOut s (complete s op c l a r) := by
  have written := (putsOut_dequeue (s := s) c).trans (putsOut_forEach putsOut_mirrorWrite l _)
  unfold complete
  simp only []
  split
  · exact (written.trans (putsOut_setRing _ _)).trans (putsOut_putReserved _ _)
  · exact written

/-! Events. -/

theorem snapRest_markLost (s : State) (old new : EvBuf) : snapRest (markLost s old new) = snapRest s := by
  refine forEach_keeps snapRest (fun t e => ?_) _ s
  split <;> rfl

theorem snapRest_pushGlobal (s : State) (e : Event) : snapRest (pushGlobal s e) = snapRest s := by
  unfold pushGlobal
  split
  · rfl
  · exact snapRest_markLost _ _ _

theorem snapRest_pushPort (s : State) (p : PortId) (e : Event) : snapRest (pushPort s p e) = snapRest s := by
  unfold pushPort
  simp only []
  split
  · rfl
  · split
    · exact (snapRest_pushGlobal _ _).trans (snapRest_markLost _ _ _)
    · exact snapRest_markLost _ _ _

theorem putsOut_postNaming (p : PortId) (n : Nat) (payload : List Fld) (k : Option Taken) :
    PutsOut s (postNaming s p n payload k) := .of_bus (pushPort_bus _ p _) (snapRest_pushPort _ p _)

/-! Data buffers. -/

theorem putsOut_completeBuf (kind : BitVec 3) (k : Taken) (status : BitVec 8) (bytes : Nat) :
    PutsOut s (completeBuf s kind k status bytes) := putsOut_putCompletion _ _

theorem putsOut_popBuf (r : RingId) (d : DataDesc) (rest : List DataDesc) : PutsOut s (popBuf s r d rest).2 :=
  putsOut_setRing _ _

theorem putsOut_skipBad (isIn : Bool) (r : RingId) (l : List DataDesc) (s : State) :
    PutsOut s (skipBad isIn r l s) := by
  induction l generalizing s with
  | nil => exact .refl
  | cons d rest ih =>
    unfold skipBad
    split
    · exact .refl
    · exact ((putsOut_popBuf r d rest).trans (putsOut_completeBuf _ _ _ _)).trans (ih _)

theorem putsOut_returnShort (need : Nat) (r : RingId) (l : List DataDesc) (s : State) :
    PutsOut s (returnShort need r l s) := by
  induction l generalizing s with
  | nil => exact .refl
  | cons d rest ih =>
    unfold returnShort
    split
    · exact .refl
    · exact ((putsOut_popBuf r d rest).trans (putsOut_completeBuf _ _ _ _)).trans (ih _)

theorem putsOut_cleanHead (r : RingId) : PutsOut s (cleanHead s r) := putsOut_skipBad _ _ _ _

theorem putsOut_takeBuf (ring : Option RingId) (need : Nat) : PutsOut s (takeBuf s ring need).st := by
  unfold takeBuf
  split
  · exact .refl
  · rename_i r
    simp only []
    refine (putsOut_cleanHead r).trans ?_
    split
    · exact .refl
    · split
      · exact .refl
      · exact ((putsOut_popBuf _ _ _).trans (putsOut_setRing _ _)).trans (putsOut_cleanHead r)

theorem putsOut_finishIn (k : Taken) (bytes : Nat) (fs : List Fld) : PutsOut s (finishIn s k bytes fs) := by
  unfold finishIn
  split
  · have untaken : PutsOut s (untake s k) := putsOut_setRing _ _
    exact (untaken.trans (putsOut_emit _)).trans (putsOut_completeBuf _ _ _ _)
  · exact .refl

theorem putsOut_deliverKept (r : RingId) (p : PortId) : PutsOut s (deliverKept s r p) := by
  unfold deliverKept
  simp only []
  split
  · exact .refl
  · have taken := (putsOut_returnShort 1280 r (getRing s r).bufs s).trans (putsOut_takeBuf (some r) 1280)
    split
    · exact taken
    · refine PutsOut.trans ?_ (putsOut_postNaming _ _ _ _)
      exact (taken.trans (putsOut_finishIn _ _ _)).trans (putsOut_modPort p _)

theorem putsOut_takeIn (ring : Option RingId) (need : Nat) : PutsOut s (takeIn s ring need).st := by
  unfold takeIn
  split
  · split
    · exact (putsOut_deliverKept _ _).trans (putsOut_takeBuf _ _)
    · exact putsOut_takeBuf _ _
  · exact putsOut_takeBuf _ _

/-! ### A buffer that is taken gets its result (R295) -/

theorem setRing_taken {q : RingId} {x : Ring} (same : x.taken = (getRing s q).taken) (r : RingId) :
    (getRing (setRing s q x) r).taken = (getRing s r).taken := by
  by_cases e : r = q
  · subst e
    rw [getRing_setRing_self, same]
  · rw [getRing_setRing_ne _ _ e]

theorem ringRequest_taken (s : State) (q r : RingId) : (getRing (ringRequest s q) r).taken = (getRing s r).taken := by
  unfold ringRequest
  simp only []
  split
  · rw [getRing, vecCheck_rings]
    exact setRing_taken (x := { getRing s q with armed := false }) rfl r
  · split
    · rw [getRing, vecCheck_rings, getRing]
    · rfl

theorem completeBuf_taken (s : State) (kind : BitVec 3) (k : Taken) (status : BitVec 8) (bytes : Nat) (r : RingId) :
    (getRing (completeBuf s kind k status bytes) r).taken = (getRing s r).taken := by
  unfold completeBuf putCompletion putRecord
  simp only []
  split
  · refine (ringRequest_taken _ _ _).trans ?_
    exact setRing_taken (s := emit s _) (x := advDev _ _ (getRing s _)) rfl r
  · exact setRing_taken (x := { getRing s (ringCq s k.ring) with
      backlog := (getRing s (ringCq s k.ring)).backlog ++ [bufRecord s kind k status bytes] }) rfl r

theorem popBuf_taken (s : State) (q : RingId) (d : DataDesc) (rest : List DataDesc) (r : RingId) :
    (getRing (popBuf s q d rest).2 r).taken = (getRing s r).taken :=
  setRing_taken (x := { getRing s q with bufs := rest, dev := _ }) rfl r

theorem skipBad_taken (isIn : Bool) (q : RingId) (l : List DataDesc) (s : State) (r : RingId) :
    (getRing (skipBad isIn q l s) r).taken = (getRing s r).taken := by
  induction l generalizing s with
  | nil => rfl
  | cons d rest ih =>
    unfold skipBad
    split
    · rfl
    · exact (ih _).trans ((completeBuf_taken _ _ _ _ _ r).trans (popBuf_taken _ _ _ _ r))

theorem takeBuf_taken {s : State} {ring : Option RingId} {need : Nat} {b : Taken}
    (got : (takeBuf s ring need).got = some b) : b ∈ (getRing (takeBuf s ring need).st b.ring).taken := by
  unfold takeBuf at got ⊢
  split at got
  · cases got
  · rename_i r
    simp only [] at got ⊢
    split at got
    · cases got
    · split at got
      · cases got
      · rename_i d rest bufs enough
        obtain rfl := Option.some.inj got
        simp only [if_neg enough, cleanHead, skipBad_taken]
        simp [popBuf]

theorem takeIn_taken {s : State} {ring : Option RingId} {need : Nat} {b : Taken}
    (got : (takeIn s ring need).got = some b) : b ∈ (getRing (takeIn s ring need).st b.ring).taken := by
  unfold takeIn at got ⊢
  split
  · split
    · rename_i bound
      simp only [dif_pos bound] at got
      exact takeBuf_taken got
    · rename_i bound
      simp only [dif_neg bound] at got
      exact takeBuf_taken got
  · exact takeBuf_taken got

theorem finishIn_data {k : Taken} (taken : k ∈ (getRing s k.ring).taken) (bytes : Nat) (fs : List Fld) :
    Bus.data k.desc.addr fs ∈ (finishIn s k bytes fs).io.bus := by
  unfold finishIn
  rw [if_pos (List.contains_iff_mem.mpr taken)]
  exact (putsOut_completeBuf _ _ _ _).bus List.mem_cons_self

/-- A command whose buffer no DMA fault meets puts its result there. -/
theorem answerIn_data {c : Cmd} {g : Target} {need : Nat} {b : Taken} (op : Nat) (fs : List Fld) (r : Nat)
    (got : (takeIn s (dataRingOf s c g 3) need).got = some b) (dma : (getRing s b.ring).dmaBad = false) :
    Bus.data b.desc.addr fs ∈ (answerIn s op c g need fs r).io.bus := by
  simp only [answerIn, answerWith, got, (ringsOn_takeIn _ _).dma, dma, Bool.false_eq_true, if_false]
  exact (putsOut_complete _ _ _ _ _).bus (finishIn_data (takeIn_taken got) _ _)

theorem beside_complete (op : Nat) (c : Cmd) (l : List MirrorObj) (a : BitVec 8) (r : BitVec 64) :
    Beside s (complete s op c l a r) := .of_ports (complete_ports _ _ _ _ _ _) (complete_gens _ _ _ _ _ _)

theorem beside_answerIn {c : Cmd} {g : Target} {need : Nat} {b : Taken} (op : Nat) (fs : List Fld) (r : Nat)
    (got : (takeIn s (dataRingOf s c g 3) need).got = some b) (dma : (getRing s b.ring).dmaBad = false) :
    Beside s (answerIn s op c g need fs r) := by
  simp only [answerIn, answerWith, got, (ringsOn_takeIn _ _).dma, dma, Bool.false_eq_true, if_false]
  exact ((beside_takeIn _ _).trans (beside_finishIn _ _ _)).trans (beside_complete _ _ _ _ _)

end

theorem undiagnosed_stats {x y : Port} (same : undiagnosed x = undiagnosed y) : x.stats = y.stats := by
  have k := congrArg (·.stats) same
  exact k

/-! ### STAT commands (R323, R348, R350) -/

section
variable {s : State} {c : Cmd}

theorem exec_statRead {g : Target} (turn : myTurn s c = true) (up : diesUp s (targetPorts g) = true) :
    exec (.statRead c g) s = .next (answerIn s 0x0801 c g (640 * (targetPorts g).length)
      (statBlocks s 0 (targetPorts g) s.time.now) (targetPorts g).length) := by
  simp [exec, execStatRead, turn, up, now]

/-- An accepted snapshot takes the next EPOCH and waits for its capture 20 µs from now. -/
def snapAccepted (s : State) (c : Cmd) (ps : List PortId) (b : Taken) : State :=
  { s with io := { s.io with
      epoch := s.io.epoch + 1
      snaps := s.io.snaps ++ [{ cmd := c, ports := ps, buf := b, time := s.time.now + 20000 }] } }

theorem exec_statSnapshot {count : BitVec 8} {ranges : List (BitVec 16 × BitVec 16)} {b : Taken}
    (few : count.toNat ≤ 10) (good : badRange (ranges.take count.toNat) = none)
    (up : diesUp s (snapPorts count.toNat ranges) = true)
    (got : (takeIn s (dataRingOf s c .hub 3) (64 + 640 * (snapPorts count.toNat ranges).length)).got = some b) :
    exec (.statSnapshot c count ranges) s = .next (snapAccepted
      (takeIn s (dataRingOf s c .hub 3) (64 + 640 * (snapPorts count.toNat ranges).length)).st c
      (snapPorts count.toNat ranges) b) := by
  simp [exec, execStatSnapshot, Nat.not_lt.mpr few, good, up, got, snapAccepted, now]

/-- The oldest snapshot is taken up. -/
def snapsLeft (s : State) (l : List Snap) : State := { s with io := { s.io with snaps := l } }

theorem exec_statSnapshotCapture {n : Snap} {l : List Snap} (clock : s.clk.refclkOk = true)
    (oldest : s.io.snaps = n :: l) (due : n.time.toNat ≤ s.time.now.toNat) (up : diesUp s n.ports = true) :
    exec .statSnapshotCapture s = .next (snapWrite (snapsLeft s l) n (s.io.epoch.toNat - l.length)) := by
  have up' : diesUp (snapsLeft s l) n.ports = true := up
  simp only [snapsLeft] at up'
  simp [exec, execStatSnapshotCapture, clock, oldest, now, Nat.not_lt.mpr due, up', snapsLeft]

/-- LAST_EPOCH is the number of the snapshot that has been written. -/
def lastEpochTo (s : State) (e : Nat) : State :=
  { s with io := { s.io with lastEpoch := BitVec.ofNat 32 e } }

/-- A snapshot goes to its buffer, its number is LAST_EPOCH, and its command is completed. -/
theorem snapWrite_eq (s : State) (n : Snap) (e : Nat) : ∃ fs, snapWrite s n e = completeOk
    (lastEpochTo (finishIn { s with fresh := s.fresh + n.ports.length } n.buf (64 + 640 * n.ports.length) fs) e)
    0x0802 n.cmd [.hub] e := ⟨_, rfl⟩

theorem snapRest_lastEpochTo {s : State} {l : List Snap} {n m : BitVec 32} (h : snapRest s = (l, n, m)) (e : Nat) :
    snapRest (lastEpochTo s e) = (l, n, BitVec.ofNat 32 e) := by
  obtain ⟨snaps, epoch, -⟩ := by simpa only [snapRest, Prod.mk.injEq] using h
  simp only [snapRest, lastEpochTo, snaps, epoch]

theorem snapRest_snapWrite (s : State) (n : Snap) (e : Nat) :
    snapRest (snapWrite s n e) = (s.io.snaps, s.io.epoch, BitVec.ofNat 32 e) := by
  obtain ⟨fs, written⟩ := snapWrite_eq s n e
  rw [written]
  refine (putsOut_complete _ _ _ _ _).snaps.trans (snapRest_lastEpochTo (m := s.io.lastEpoch) ?_ e)
  exact (putsOut_finishIn _ _ fs).snaps

theorem answered_snapWrite {n : Snap} (runs : Runs s n.cmd) (e : Nat) :
    Answered s (snapWrite s n e) n.cmd 0x0802 stOk (BitVec.ofNat 64 e) := by
  obtain ⟨fs, written⟩ := snapWrite_eq s n e
  rw [written]
  have drawn : RingsOn s { s with fresh := s.fresh + n.ports.length } := .of_rings rfl
  have numbered := (drawn.trans (ringsOn_finishIn n.buf (64 + 640 * n.ports.length) fs)).trans
    (.of_rings (t := lastEpochTo _ e) rfl)
  exact answered_after (regs_of_kept (by simp [lastEpochTo])) (numbered.runs runs) _ _ e

end

/-! ### Margins (R227) -/

section
variable {s : State} {p : PortId}

/-- The port margin that is compared with MARGIN_LOW_THRESHOLD. -/
def marginNow (s : State) (p : PortId) : BitVec 16 := lowestMargin (quadMap (·.margin) (getPort s p).pairs)

/-- What one comparison leaves of a port's counts. -/
def marginCounts (s : State) (p : PortId) : MarginLow :=
  mlowNext (getPort s p).mlow (marginNow s p).toInt (livePar (getPort s p) 0x40)

variable (up : (getPort s p).st = .up) (awake : (getPort s p).lpi.st ≠ .quiet)
  (on : livePar (getPort s p) 0x40 ≠ 0) (runs : herdsRun s = true)
include up awake on runs

theorem exec_marginCompare_posts (armed : (marginCounts s p).armed = true) (fourth : 4 ≤ (marginCounts s p).below) :
    exec (.marginCompare p) s = .next (postLimited
      (setPort s p { getPort s p with mlow := { marginCounts s p with armed := false, crossings := 0 } })
      (portSrc p 3) 0 [(0, 1, lowMask (getPort s p) (livePar (getPort s p) 0x40)),
        (2, 2, (marginNow s p).toNat)] (some 4) (marginCounts s p).crossings) := by
  have posts : ((marginCounts s p).armed && Nat.ble 4 (marginCounts s p).below) = true := by simp [armed, fourth]
  simp only [exec, execMarginCompare]
  rw [if_pos (by simp [up, awake, on, runs])]
  exact congrArg _ (if_pos posts)

theorem exec_marginCompare_counts (few : (marginCounts s p).below < 4) :
    exec (.marginCompare p) s = .next (setPort s p { getPort s p with mlow := marginCounts s p }) := by
  have waits : ¬ ((marginCounts s p).armed && Nat.ble 4 (marginCounts s p).below) = true := by simp [few]
  simp only [exec, execMarginCompare]
  rw [if_pos (by simp [up, awake, on, runs])]
  exact congrArg _ (if_neg waits)

end

theorem exec_histogramPeriodEnd {s : State} {p : PortId} (runs : herdsRun s = true) (up : (getPort s p).st = .up) :
    exec (.histogramPeriodEnd p) s = .next (modPort s p histClose) := by
  simp [exec, execHistogramPeriodEnd, runs, up]

theorem histClose_period (x : Port) : (histClose x).period = (0, 0, 0) := by
  unfold histClose
  simp only []
  split <;> rfl

/-! ### Eyes (R233) -/

section
variable {s : State} {p : PortId} (active : (getPort s p).lane.st = .active) (runs : herdsRun s = true)
include active runs

theorem exec_eyeMeasure_pam (pam : (getPort s p).lane.mode ≠ .l25) (u m l w : BitVec 16) :
    exec (.eyeMeasure p u m l w) s =
      .next (setPort s p { getPort s p with lane := { (getPort s p).lane with eye := ⟨u, m, l, w⟩ } }) := by
  simp [exec, execEyeMeasure, active, runs, pam]

theorem exec_eyeMeasure_nrz (nrz : (getPort s p).lane.mode = .l25) (u m l w : BitVec 16) :
    exec (.eyeMeasure p u m l w) s =
      .next (setPort s p { getPort s p with lane := { (getPort s p).lane with eye := ⟨0, m, 0, w⟩ } }) := by
  simp [exec, execEyeMeasure, active, runs, nrz]

end

/-- Settles O31: `exec_…` says which state each row leads to; `answerIn_data` that STAT.READ's blocks reach the buffer
it took, `PutsOut` that taking and writing buffers leaves the snapshots, and `posted_postLimited` that a limited event
counts as an occurrence. -/
theorem statRows : Obligations.StatRows := by
  unfold Obligations.StatRows
  refine ⟨?read, ?snapshot, ?capture, ?persist, ?low, ?high, ?histogram, ?eyePam, ?eyeNrz⟩
  case read =>
    intro c g b s runs turn up got dma
    refine ⟨_, exec_statRead turn up, answerIn_data _ _ _ got dma, fun p => ?_,
      answered_answerIn runs _ _ _ _ _ got dma⟩
    exact undiagnosed_stats ((beside_answerIn _ _ _ got dma).port p)
  case snapshot =>
    intro c count ranges b s few good up got
    have taken := putsOut_takeIn (s := s) (dataRingOf s c .hub 3) (64 + 640 * (snapPorts count.toNat ranges).length)
    obtain ⟨snaps, epoch, last⟩ := by simpa only [snapRest, Prod.mk.injEq] using taken.snaps
    refine ⟨_, exec_statSnapshot few good up got, ?_, ?_, last, ((ringsOn_takeIn _ _) c.ring).1⟩
    · simp only [snapAccepted, snaps, takeIn_time]
    · simp only [snapAccepted, epoch]
  case capture =>
    intro n l s oldest due up runs clock
    refine ⟨_, exec_statSnapshotCapture clock oldest due up, ?_⟩
    generalize s.io.epoch.toNat - l.length = e
    obtain ⟨snaps, epoch, last⟩ := by
      simpa only [snapRest, Prod.mk.injEq] using snapRest_snapWrite (snapsLeft s l) n e
    exact ⟨snaps, last, epoch, Answered.after rfl (answered_snapWrite (s := snapsLeft s l) runs e)⟩
  case persist =>
    intro s clock
    exact ⟨persistAll s, by simp [exec, execCounterPersist, clock], rfl, onlyIn_of_pick (by simp [persistAll])⟩
  case low =>
    intro p s up awake on runs armed third low
    have counts : (marginCounts s p).armed = true ∧ (marginCounts s p).below = (getPort s p).mlow.below + 1 := by
      simp [marginCounts, mlowNext, armed, marginNow, low]
    obtain ⟨armed', below⟩ := counts
    refine ⟨_, exec_marginCompare_posts up awake on runs armed' (by omega), ?_⟩
    simp only [PortsBut, getPort_postLimited, getPort_setPort_self]
    exact ⟨trivial, trivial, (silent_setPort s p _).posted (posted_postLimited _ (portSrc_lt p (by decide)) _ _ _ _),
      (silent_setPort s p _).others⟩
  case high =>
    intro p s up awake on runs high
    have counts : (marginCounts s p).below = 0 ∧ (marginCounts s p).wasBelow = false := by
      simp [marginCounts, mlowNext, marginNow, Int.not_lt.mpr high]
    obtain ⟨below, wasBelow⟩ := counts
    refine ⟨_, exec_marginCompare_counts up awake on runs (by omega), ?_⟩
    rw [getPort_setPort_self]
    exact ⟨below, wasBelow, (silent_setPort s p _).unposted _, (silent_setPort s p _).others⟩
  case histogram =>
    intro p s runs up
    refine ⟨_, exec_histogramPeriodEnd runs up, ?_⟩
    rw [getPort_modPort_self]
    exact ⟨rfl, histClose_period _, portsBut_modPort _, modPort_onlyIn _ _ _⟩
  case eyePam =>
    intro p u m l w s active pam runs
    refine ⟨_, exec_eyeMeasure_pam active runs pam u m l w, ?_⟩
    rw [getPort_setPort_self]
    exact ⟨rfl, (silent_setPort s p _).others, onlyIn_of_pick (by simp)⟩
  case eyeNrz =>
    intro p u m l w s active nrz runs
    refine ⟨_, exec_eyeMeasure_nrz active runs nrz u m l w, ?_⟩
    rw [getPort_setPort_self]
    exact ⟨rfl, (silent_setPort s p _).others, onlyIn_of_pick (by simp)⟩

end Sys2Proof.Proofs
end

section
/-!
PROOFS of the family 10_observation_filter: filter settings (O19), captures (O20), events of the observation path (O21).
-/

namespace Sys2Proof.Proofs

open Sys2Proof.Machine Sys2Proof.Safety

/-! ### A herd's path -/

section
variable {s t u : State} {h : HerdId}

@[simp] theorem getObs_setObs (s : State) (h : HerdId) (o : Obs) : getObs (setObs s h o) h = o := by
  simp [getObs, setObs]

@[simp] theorem getObs_completeOk (s : State) (op : Nat) (c : Cmd) (l : List MirrorObj) (r : Nat) (g : HerdId) :
    getObs (completeOk s op c l r) g = getObs s g := completeOk_herd_obs s op c l r g

theorem herdsBut_trans (a : HerdsBut h s t) (b : HerdsBut h t u) : HerdsBut h s u :=
  fun g n => (b g n).trans (a g n)

theorem herdsBut_of_herds (same : t.herds = s.herds) : HerdsBut h s t := fun g _ => by simp only [getHerd, same]

theorem herdsBut_setObs (s : State) (h : HerdId) (o : Obs) : HerdsBut h s (setObs s h o) :=
  fun _ n => getHerd_modHerd_ne _ _ n

theorem getObs_of_herds (same : t.herds = s.herds) (h : HerdId) : getObs t h = getObs s h := by
  simp only [getObs, getHerd, same]

/-- A command that has written its herd's path, and is completed with ST_OK. -/
theorem completed_setObs {c : Cmd} (runs : Runs s c) (op : Nat) (l : List MirrorObj) (o : Obs) (r : Nat) :
    getObs (completeOk (setObs s h o) op c l r) h = o ∧
    Answered s (completeOk (setObs s h o) op c l r) c op stOk (BitVec.ofNat 64 r) :=
  ⟨by simp, answered_after (u := setObs s h o) rfl runs op l r⟩

theorem completed_herdsBut {c : Cmd} (target : targetOf c.target = some (.herd h)) (a : HerdsBut h s t) (op : Nat)
    (l : List MirrorObj) (r : Nat) : HerdsBut h s (completeOk t op c l r) :=
  herdsBut_trans a (completeOk_herdsBut target t op l r)

end

/-! ### OBS.SELECT and OBS.LOAD_BANK (R247, R252, R253, R256) -/

/-- A path with another source and decimation: a change of either is a step of a running path. -/
def selected (o : Obs) (source decim : Nat) : Obs :=
  if (o.source != source || o.decim != decim) && obsRuns o then obsStep { o with source := source, decim := decim }
  else { o with source := source, decim := decim }

theorem selected_source (o : Obs) (source decim : Nat) : (selected o source decim).source = source := by
  unfold selected
  split <;> rfl

theorem selected_decim (o : Obs) (source decim : Nat) : (selected o source decim).decim = decim := by
  unfold selected
  split <;> rfl

/-- A path with new coefficients in bank 0 or 1. -/
def withBank (o : Obs) (second : Bool) (b : Bank) : Obs :=
  if second then { o with bank1 := b } else { o with bank0 := b }

theorem withBank_sel (o : Obs) (second : Bool) (b : Bank) : (withBank o second b).sel = o.sel := by
  cases second <;> rfl

theorem withBank_st (o : Obs) (second : Bool) (b : Bank) : (withBank o second b).st = o.st := by
  cases second <;> rfl

/-- The bank that BANK names is the one with the new coefficients. -/
theorem withBank_loaded (o : Obs) (bank : BitVec 8) (b : Bank) :
    (if bank = 1 then (withBank o (decide (bank.toNat = 1)) b).bank1
      else (withBank o (decide (bank.toNat = 1)) b).bank0) = b := by
  by_cases second : bank.toNat = 1
  · have named : bank = 1 := BitVec.eq_of_toNat_eq second
    simp [named, withBank]
  · have named : bank ≠ 1 := fun e => second (congrArg BitVec.toNat e)
    simp only [named, second, withBank, decide_false, Bool.false_eq_true, if_false]

/-- A command that takes a data-out buffer runs on (R295). -/
theorem runsOn_takeOut (s : State) (ring : Option RingId) : RunsOn s (takeOut s ring).st := by
  have cleaned (u : State) (r : RingId) : RunsOn u (cleanHead u r) := fun q => (ringsOn_cleanHead r q).1
  unfold takeOut
  split
  · exact .refl
  · rename_i r
    simp only []
    refine runsOn_trans (cleaned s r) ?_
    split
    · exact .refl
    · rename_i d rest _
      have taken : RunsOn (cleanHead s r) (modRing (popBuf (cleanHead s r) r d rest).2 r fun x =>
          { x with dmaBad := false }) :=
        runsOn_trans (fun q => (ringsOn_popBuf r d rest q).1) (runsOn_setRing rfl)
      split
      · exact runsOn_trans (runsOn_trans taken (runsOn_putCompletion _ _)) (cleaned _ r)
      · exact runsOn_trans (runsOn_trans taken (runsOn_putCompletion _ _)) (cleaned _ r)

section
variable {c : Cmd} {h : HerdId} {s : State} (turn : myTurn s c = true)
include turn

theorem exec_obsSelect {source decim : BitVec 8} (gate : obsGate s h = none) (known : source.toNat ≤ 63)
    (low : 2 ≤ decim.toNat) (high : decim.toNat ≤ 8) (served : (getPort s (sourcePort h source.toNat)).st ≠ .safe)
    (fits : (selBank (getObs s h)).taps ≤ maxTaps decim.toNat) (still : (getObs s h).st ≠ .fading) :
    exec (.obsSelect c h source decim) s = .next (completeOk
      (setObs s h (selected (getObs s h) source.toNat decim.toNat)) 0x0501 c [.herd h] 0) := by
  simp [exec, execObsSelect, turn, gate, Nat.not_lt.mpr known, Nat.not_lt.mpr low, Nat.not_lt.mpr high, served,
    Nat.not_lt.mpr fits, still, doSelect, selected]

/-- The bank that OBS.LOAD_BANK reads from its buffer. -/
def bankOf (taps : BitVec 16) (data : List Byte) : Bank :=
  { taps := taps.toNat, coeffs := ((leWords data).take taps.toNat).map (·.setWidth 18) }

theorem exec_obsLoadBank {bank : BitVec 8} {taps : BitVec 16} {data : List Byte} {b : Taken}
    (gate : herdGate s h = none) (known : bank.toNat ≤ 1) (any : taps ≠ 0) (few : taps.toNat ≤ 384)
    (still : (getObs s h).st ≠ .fading) (idle : (getObs s h).sel ≠ decide (bank.toNat = 1))
    (got : (takeOut s (dataRingOf s c (.herd h) 4)).got = some b)
    (good : badWord taps.toNat (b.desc.length.toNat / 4) (leWords data) = none) :
    exec (.obsLoadBank c h bank taps data) s = .next (completeOk (setObs (takeOut s (dataRingOf s c (.herd h) 4)).st h
      (withBank (getObs s h) (decide (bank.toNat = 1)) (bankOf taps data))) 0x0502 c [.herd h] 0) := by
  have same : getObs (takeOut s (dataRingOf s c (.herd h) 4)).st h = getObs s h := getObs_of_herds (by simp) h
  have any' : taps ≠ 0#16 := any
  simp [exec, execObsLoadBank, turn, gate, Nat.not_lt.mpr known, any', Nat.not_lt.mpr few, still, idle, got, good,
    same, withBank, bankOf]

end

/-! ### OBS.SWAP (R257 to R259) -/

/-- A path with the other bank selected. -/
def swapped (o : Obs) : Obs := { o with sel := !o.sel }

/-- The settling of a swap counts with the bank that it selects (R259). -/
theorem obsStep_swapped_settle (o : Obs) :
    (obsStep (swapped o)).settle = (otherBank o).taps + groupDelay o.decim := by
  cases sel : o.sel <;> simp [obsStep, selBank, otherBank, swapped, sel]

/-- OBS.SWAP's check of FADE_LEN passes. -/
theorem fadeLen_accepted {fadeLen : BitVec 16} (len : fadeLen = 0 ∨ (16 ≤ fadeLen.toNat ∧ fadeLen.toNat ≤ 1024)) :
    (decide (fadeLen.toNat ≠ 0) && (decide (fadeLen.toNat < 16) || decide (1024 < fadeLen.toNat))) = false := by
  rcases len with rfl | len
  · rfl
  · simp [Nat.not_lt.mpr len.1, Nat.not_lt.mpr len.2]

section
variable {c : Cmd} {h : HerdId} {s : State} {fadeLen : BitVec 16} (turn : myTurn s c = true)
  (gate : obsGate s h = none) (len : fadeLen = 0 ∨ (16 ≤ fadeLen.toNat ∧ fadeLen.toNat ≤ 1024))
include turn gate len

theorem exec_obsSwap_busy (st : (getObs s h).st = .fading) : exec (.obsSwap c h fadeLen) s =
    .next (reject s 0x0503 c stFadeBusy (BitVec.ofNat 64 (fadeLeft (getHerd s h)))) := by
  have fades : ((getObs s h).st == .fading) = true := by simp [st]
  simp only [exec, execObsSwap, turn, gate, fadeLen_accepted len, fades, Bool.not_true, Bool.false_eq_true, if_false,
    if_true]

/-- The swap of a path that is stopped selects the other bank and does no more. -/
theorem exec_obsSwap_stopped (st : (getObs s h).st = .stopped) : exec (.obsSwap c h fadeLen) s =
    .next (completeOk (setObs s h (swapped (getObs s h))) 0x0503 c [.herd h] (256 * bit (!(getObs s h).sel))) := by
  have fades : ((getObs s h).st == .fading) = false := by simp [st]
  have runs : ((getObs s h).st == .running) = false := by simp [st]
  have filters : obsRuns (getObs s h) = false := by simp [obsRuns, st]
  simp only [exec, execObsSwap, turn, gate, fadeLen_accepted len, fades, runs, filters, Bool.not_true, Bool.false_and,
    Bool.false_eq_true, if_false]
  rfl

section
variable (fits : (otherBank (getObs s h)).taps ≤ maxTaps (getObs s h).decim)
include fits

/-- The swap of a path in RUNNING, with a length: the fade begins. -/
theorem exec_obsSwap_fade (st : (getObs s h).st = .running) (long : fadeLen.toNat ≠ 0) :
    exec (.obsSwap c h fadeLen) s = .next (completeOk
      (setObs s h { swapped (getObs s h) with st := .fading, fadeLen := fadeLen.toNat, fadeGone := 0 }) 0x0503 c
      [.herd h] (256 * bit (!(getObs s h).sel))) := by
  have fades : ((getObs s h).st == .fading) = false := by simp [st]
  have begins : ((getObs s h).st == .running && decide (fadeLen.toNat ≠ 0)) = true := by simp [st, long]
  simp only [exec, execObsSwap, turn, gate, fadeLen_accepted len, fades, begins, decide_eq_false (Nat.not_lt.mpr fits),
    Bool.not_true, Bool.and_false, Bool.false_eq_true, if_false, if_true]
  rfl

/-- The swap of a path that filters and does not fade: a new settling. -/
theorem exec_obsSwap_settle (st : (getObs s h).st = .running ∧ fadeLen = 0 ∨ (getObs s h).st = .settling) :
    exec (.obsSwap c h fadeLen) s = .next (completeOk (setObs s h (obsStep (swapped (getObs s h)))) 0x0503 c [.herd h]
      (256 * bit (!(getObs s h).sel) + bit (decide (fadeLen.toNat ≠ 0)))) := by
  have fades : ((getObs s h).st == .fading) = false := by rcases st with ⟨st, -⟩ | st <;> simp [st]
  have jumps : ((getObs s h).st == .running && decide (fadeLen.toNat ≠ 0)) = false := by
    rcases st with ⟨-, rfl⟩ | st
    · simp
    · simp [st]
  have filters : obsRuns (getObs s h) = true := by rcases st with ⟨st, -⟩ | st <;> simp [obsRuns, st]
  simp only [exec, execObsSwap, turn, gate, fadeLen_accepted len, fades, jumps, filters,
    decide_eq_false (Nat.not_lt.mpr fits), Bool.not_true, Bool.and_false, Bool.false_eq_true, if_false, if_true]
  rfl

end

end

/-- Settles O19: `exec_obs…` says which path each row leaves, and `completed_setObs` that its command is answered.
APPLIED_IMMEDIATE is 1 in SETTLING alone, as the model reads it (log 32). -/
theorem obsFilterCommands : Obligations.ObsFilterCommands := by
  unfold Obligations.ObsFilterCommands
  refine ⟨?select, ?load, ?fade, ?jump, ?settling, ?stopped, ?busy⟩
  case select =>
    intro c h source decim s target runs turn gate known low high served fits still
    obtain ⟨path, answered⟩ :=
      completed_setObs runs 0x0501 [.herd h] (selected (getObs s h) source.toNat decim.toNat) 0
    exact ⟨_, exec_obsSelect turn gate known low high served fits still, by rw [path, selected_source],
      by rw [path, selected_decim], completed_herdsBut target (herdsBut_setObs s h _) _ _ _, answered⟩
  case load =>
    intro c h bank taps data b s target runs turn gate known any few still idle got good
    obtain ⟨path, answered⟩ := completed_setObs (h := h) ((runsOn_takeOut s _).runs runs) 0x0502 [.herd h]
      (withBank (getObs s h) (decide (bank.toNat = 1)) (bankOf taps data)) 0
    refine ⟨_, exec_obsLoadBank turn gate known any few still idle got good, ?_⟩
    rw [path]
    exact ⟨withBank_loaded _ _ _, withBank_sel _ _ _, withBank_st _ _ _, completed_herdsBut target
      (herdsBut_trans (herdsBut_of_herds (takeOut_herds s _)) (herdsBut_setObs _ h _)) _ _ _,
      Answered.after (takeOut_regs s _) answered⟩
  case fade =>
    intro c h fadeLen s target runs turn gate low high st fits
    obtain ⟨path, answered⟩ := completed_setObs runs 0x0503 [.herd h]
      { swapped (getObs s h) with st := .fading, fadeLen := fadeLen.toNat, fadeGone := 0 }
      (256 * bit (!(getObs s h).sel))
    refine ⟨_, exec_obsSwap_fade turn gate (.inr ⟨low, high⟩) fits st (by omega), ?_⟩
    rw [path]
    exact ⟨rfl, rfl, rfl, completed_herdsBut target (herdsBut_setObs s h _) _ _ _, answered⟩
  case jump =>
    intro c h s runs turn gate st fits
    obtain ⟨path, answered⟩ := completed_setObs runs 0x0503 [.herd h] (obsStep (swapped (getObs s h)))
      (256 * bit (!(getObs s h).sel) + bit (decide ((0 : BitVec 16).toNat ≠ 0)))
    refine ⟨_, exec_obsSwap_settle turn gate (.inl rfl) fits (.inl ⟨st, rfl⟩), ?_⟩
    rw [path]
    exact ⟨rfl, obsStep_swapped_settle _, rfl, answered⟩
  case settling =>
    intro c h fadeLen s runs turn gate low high st fits
    obtain ⟨path, answered⟩ := completed_setObs runs 0x0503 [.herd h] (obsStep (swapped (getObs s h)))
      (256 * bit (!(getObs s h).sel) + bit true)
    have long : decide (fadeLen.toNat ≠ 0) = true := decide_eq_true (by omega)
    refine ⟨_, exec_obsSwap_settle turn gate (.inr ⟨low, high⟩) fits (.inr st), ?_⟩
    rw [long, path]
    exact ⟨rfl, rfl, answered⟩
  case stopped =>
    intro c h fadeLen s runs turn gate len st
    exact ⟨_, exec_obsSwap_stopped turn gate len st, completed_setObs runs _ _ _ _⟩
  case busy =>
    intro c h fadeLen s runs turn gate len st
    exact ⟨_, exec_obsSwap_busy turn gate len st, complete_herd_obs _ _ _ _ _ _ h, answered_reject runs _ _ _⟩

/-! ### What a step of a capture leaves (R262 to R264) -/

/-- A step of a herd's capture: every other herd reads as before, every ring runs what it ran, and nothing that was put
out is lost. -/
structure OnPath (h : HerdId) (s t : State) : Prop where
  others : HerdsBut h s t
  runs   : RunsOn s t
  bus    : s.io.bus ⊆ t.io.bus

section
variable {h : HerdId} {s t u : State}

theorem OnPath.refl : OnPath h s s := ⟨fun _ _ => rfl, .refl, List.Subset.refl _⟩

theorem OnPath.trans (a : OnPath h s t) (b : OnPath h t u) : OnPath h s u :=
  ⟨herdsBut_trans a.others b.others, runsOn_trans a.runs b.runs, List.Subset.trans a.bus b.bus⟩

/-- What is done to rings and buffers. -/
theorem OnPath.of_rings (herds : t.herds = s.herds) (rings : RingsOn s t) (outs : PutsOut s t) : OnPath h s t :=
  ⟨herdsBut_of_herds herds, fun r => (rings r).1, outs.bus⟩

/-- An event is posted: it is put out later. -/
theorem OnPath.of_event (herds : t.herds = s.herds) (runs : RunsOn s t) (bus : t.io.bus = s.io.bus) : OnPath h s t :=
  ⟨herdsBut_of_herds herds, runs, bus ▸ List.Subset.refl _⟩

theorem onPath_setObs (s : State) (h : HerdId) (o : Obs) : OnPath h s (setObs s h o) :=
  ⟨herdsBut_setObs s h o, .of_rings rfl, List.Subset.refl _⟩

theorem beside_setObs (s : State) (h : HerdId) (o : Obs) : Beside s (setObs s h o) := .of_ports rfl rfl

theorem onPath_freeNat (s : State) (h : HerdId) : OnPath h s (freeNat s).2 :=
  ⟨fun _ _ => rfl, .of_rings rfl, List.Subset.refl _⟩

/-- What a capture can do to take a buffer: nothing, or what `takeIn` does on its ring. -/
theorem captureTake_cases (s : State) (h : HerdId) : captureTake s h = s ∨
    ∃ r, (getObs s h).buf = none ∧ captureTake s h = setObs (takeIn s (some r) 4096).st h
      { getObs s h with buf := (takeIn s (some r) 4096).got } := by
  unfold captureTake
  simp only []
  split
  · rename_i r empty _
    split
    · exact .inr ⟨r, empty, by rw [getObs_of_herds (takeIn_herds s _ _)]⟩
    · exact .inl rfl
  · exact .inl rfl

/-- A capture that takes a buffer changes nothing else of its path. -/
theorem captureTake_obs (s : State) (h : HerdId) :
    ∃ b, getObs (captureTake s h) h = { getObs s h with buf := b } := by
  rcases captureTake_cases s h with idle | ⟨r, -, taken⟩
  · exact ⟨_, by rw [idle]⟩
  · exact ⟨_, by rw [taken, getObs_setObs]⟩

theorem onPath_captureTake (s : State) (h : HerdId) : OnPath h s (captureTake s h) := by
  rcases captureTake_cases s h with idle | ⟨r, -, taken⟩
  · rw [idle]
    exact .refl
  · rw [taken]
    exact (OnPath.of_rings (takeIn_herds s _ _) (ringsOn_takeIn _ _) (putsOut_takeIn _ _)).trans (onPath_setObs _ h _)

theorem beside_captureTake (s : State) (h : HerdId) : Beside s (captureTake s h) := by
  rcases captureTake_cases s h with idle | ⟨r, -, taken⟩
  · rw [idle]
    exact .refl
  · rw [taken]
    exact (beside_takeIn _ _).trans (beside_setObs _ h _)

/-- What a path holds once its first n samples are in a buffer. -/
def written (o : Obs) (n : Nat) : Obs :=
  { o with held := o.held.drop n, buf := none, seq := o.seq + 1, suppBuf := ((o.held.take n).tail.map (·.supp)).sum,
           dropBuf := ((o.held.take n).tail.map (·.drop)).sum, stepBuf := (o.held.take n).tail.any (·.stepped) }

section
variable (s : State) (h : HerdId) (b : Taken) (n : Nat) (noTime : BitVec 64) (last : Option ObsEnd)

theorem captureWrite_eq : captureWrite s h b n noTime last =
    setObs (finishIn s b (64 + 2 * ((getObs s h).held.take n).length)
      (captureHeader s h ((getObs s h).held.take n) noTime last ++ sampleFields ((getObs s h).held.take n))) h
      (written (getObs s h) n) := rfl

theorem captureWrite_obs : getObs (captureWrite s h b n noTime last) h = written (getObs s h) n := by
  rw [captureWrite_eq, getObs_setObs]

theorem onPath_captureWrite : OnPath h s (captureWrite s h b n noTime last) := by
  rw [captureWrite_eq]
  exact (OnPath.of_rings (finishIn_herds s _ _ _) (ringsOn_finishIn _ _ _) (putsOut_finishIn _ _ _)).trans
    (onPath_setObs _ h _)

theorem beside_captureWrite : Beside s (captureWrite s h b n noTime last) := by
  rw [captureWrite_eq]
  exact (beside_finishIn _ _ _).trans (beside_setObs _ h _)

end

section
variable (s : State) (h : HerdId) (source : Nat) (e : ObsEnd) (b : Taken) (k : Option Taken)

theorem captureReady_herds : (captureReady s h source b).herds = s.herds :=
  onlyIn_of_pick (m := [.io]) (by simp) .herds (by simp)

theorem captureStopped_herds : (captureStopped s h e k).herds = s.herds :=
  onlyIn_of_pick (m := [.io]) (by simp) .herds (by simp)

/-- A stop is posted against the port of its source, after the interval of that port's CAPTURE_READY has ended. -/
theorem captureStopped_posts : ∃ key payload, captureStopped s h e k =
    postNaming (setInterval s key { open_ := true, held := none, count := 0 }) (sourcePort h e.source) 13 payload k :=
  ⟨_, _, rfl⟩

/-- A full buffer is posted at once, or held for the end of the interval that runs (R264, R544). -/
theorem captureReady_posts : ∃ key i, captureReady s h source b =
      setInterval (bumpGen s (portSrc (sourcePort h source) 13)) key i ∨
    ∃ e, captureReady s h source b =
      pushEvent (setInterval (bumpGen s (portSrc (sourcePort h source) 13)) key i) e := by
  unfold captureReady postLimitedNaming
  simp only []
  split
  · exact ⟨_, _, .inl rfl⟩
  · exact ⟨_, _, .inr ⟨_, rfl⟩⟩

theorem onPath_captureReady (g : HerdId) : OnPath g s (captureReady s h source b) := by
  refine .of_event (captureReady_herds s h source b) ?_ ?_
  · obtain ⟨key, i, posts | ⟨e, posts⟩⟩ := captureReady_posts s h source b
    · exact posts ▸ .of_rings rfl
    · exact posts ▸ runsOn_trans (t := setInterval (bumpGen s _) key i) (.of_rings rfl) (runsOn_pushEvent e)
  · obtain ⟨key, i, posts | ⟨e, posts⟩⟩ := captureReady_posts s h source b
    · rw [posts]
      rfl
    · rw [posts]
      exact pushEvent_bus _ e

theorem onPath_captureStopped (g : HerdId) : OnPath g s (captureStopped s h e k) := by
  obtain ⟨key, payload, posts⟩ := captureStopped_posts s h e k
  refine .of_event (captureStopped_herds s h e k) ?_ ?_
  · rw [posts]
    exact runsOn_trans (runsOn_setInterval key _) fun r => (ringsOn_postNaming _ _ _ _ r).1
  · rw [posts]
    exact pushPort_bus (bumpGen (setInterval s key _) _) _ _

/-- A full buffer is one occurrence of its source port's CAPTURE_READY. -/
theorem posted_captureReady : Posted s (captureReady s h source b) (portSrc (sourcePort h source) 13) 1 := by
  obtain ⟨key, i, posts | ⟨e, posts⟩⟩ := captureReady_posts s h source b
  · rw [posts]
    exact genOf_bumpGen_self s _
  · rw [posts]
    exact (genOf_pushEvent _ e (portSrc_lt _ (by decide))).trans (genOf_bumpGen_self s _)

/-- So is a stop. -/
theorem posted_captureStopped : Posted s (captureStopped s h e k) (portSrc (sourcePort h e.source) 13) 1 := by
  obtain ⟨key, payload, posts⟩ := captureStopped_posts s h e k
  rw [posts]
  exact (genOf_pushPort (bumpGen _ _) _ _ (portSrc_lt _ (by decide))).trans (genOf_bumpGen_self (setInterval s key _) _)

end

/-- CAPTURE_READY is posted by none but the capture's own events. -/
theorem Beside.posted (a : Beside s t) {p : PortId} {n : Nat} (b : Posted t u (portSrc p 13) n) :
    Posted s u (portSrc p 13) n := by rw [Posted, b, a.gens p 13 (by decide) (by decide)]

theorem Beside.after (a : Beside t u) {p : PortId} {n : Nat} (b : Posted s t (portSrc p 13) n) :
    Posted s u (portSrc p 13) n := (a.gens p 13 (by decide) (by decide)).trans b

/-- A path with nothing left to write. -/
def emptied (o : Obs) : Obs :=
  { o with final := none, stoppers := [], held := [], supp := 0, drop := 0, stepped := false, suppBuf := 0, dropBuf := 0
           stepBuf := false }

theorem stopDone_alone (alone : (getObs s h).stoppers = []) : stopDone s h = setObs s h (emptied (getObs s h)) := by
  simp only [stopDone, alone, forEach, List.foldl_nil, emptied]

end

/-! ### OBS.START (R254, R256, R261, R321) -/

/-- A stopped path that begins to settle for a capture. -/
def started (o : Obs) (mode : BitVec 8) (count : BitVec 32) (ring : BitVec 16) : Obs :=
  obsStep { o with mode := mode, count := count.toNat, ring := ring, seq := 0, droppedRun := 0, sent := 0 }

section
variable {h : HerdId} {s : State} (st : (getObs s h).st = .stopped)
include st

theorem doStart_stopped (done : (getObs s h).final = none) (mode : BitVec 8) (count : BitVec 32) (ring : BitVec 16) :
    doStart s h mode count ring = setObs s h (started (getObs s h) mode count ring) := by
  have idle : obsRuns (getObs s h) = false := by simp [obsRuns, st]
  simp only [doStart, dropLast, done, idle, Bool.false_eq_true, if_false, started]

variable {c : Cmd} {mode : BitVec 8} {r : RingId} (fits : (selBank (getObs s h)).taps ≤ maxTaps (getObs s h).decim)
  (slow : mode = 1 → adcRate (pllRuns (getHerd s h)) ≤ 200000 * 2 ^ (getObs s h).decim)
  (ring : dataRingOf s c (.herd h) 3 = some r)
include fits slow ring

theorem startCheck_ring : startCheck s h c mode = .inr r := by
  have idle : obsRuns (getObs s h) = false := by simp [obsRuns, st]
  have streams : (decide (mode = 1) &&
      decide (200000 * 2 ^ (getObs s h).decim < adcRate (pllRuns (getHerd s h)))) = false := by
    by_cases one : mode = 1
    · rw [decide_eq_false (Nat.not_lt.mpr (slow one)), Bool.and_false]
    · rw [decide_eq_false one, Bool.false_and]
  simp only [startCheck, Nat.not_lt.mpr fits, streams, ring, idle, Bool.false_and, Bool.false_eq_true, if_false]

end

section
variable {c : Cmd} {h : HerdId} {s : State} {mode : BitVec 8} {count : BitVec 32} {startTime : BitVec 64}
  (turn : myTurn s c = true) (gate : obsGate s h = none) (st : (getObs s h).st = .stopped)
include turn gate st

/-- A start whose operands pass comes to the path's own checks. -/
theorem exec_obsStart (known : mode.toNat ≤ 1) (block : mode = 0 → count ≠ 0 ∧ count.toNat ≤ 131072)
    (future : startTime ≠ 0 → s.time.now.toNat ≤ startTime.toNat) :
    exec (.obsStart c h mode count startTime) s = .next (finishStart s h c mode count startTime) := by
  have counts : (decide (mode = 0) && (decide (count = 0) || decide (131072 < count.toNat))) = false := by
    by_cases zero : mode = 0
    · obtain ⟨any, few⟩ := block zero
      rw [decide_eq_false any, decide_eq_false (Nat.not_lt.mpr few), Bool.false_or, Bool.and_false]
    · rw [decide_eq_false zero, Bool.false_and]
  have later : (decide (startTime ≠ 0) && decide (startTime.toNat < (now s).toNat)) = false := by
    by_cases given : startTime = 0
    · simp [given]
    · have late : ¬ startTime.toNat < (now s).toNat := Nat.not_lt.mpr (future given)
      rw [decide_eq_false late, Bool.and_false]
  have fades : ((getObs s h).st == .fading) = false := by simp [st]
  simp only [exec, execObsStart, turn, gate, Nat.not_lt.mpr known, counts, later, fades, Bool.not_true,
    Bool.false_eq_true, if_false]

variable {r : RingId} (fits : (selBank (getObs s h)).taps ≤ maxTaps (getObs s h).decim)
  (slow : mode = 1 → adcRate (pllRuns (getHerd s h)) ≤ 200000 * 2 ^ (getObs s h).decim)
  (ring : dataRingOf s c (.herd h) 3 = some r)
include fits slow ring

theorem exec_obsStart_now (known : mode.toNat ≤ 1) (block : mode = 0 → count ≠ 0 ∧ count.toNat ≤ 131072)
    (done : (getObs s h).final = none) : exec (.obsStart c h mode count 0) s = .next (completeOk
      (setObs s h (started (getObs s h) mode count (BitVec.ofNat 16 r.val))) 0x0504 c [.herd h] 0) := by
  have due : (0 : BitVec 64).toNat ≤ (now s).toNat := Nat.zero_le _
  rw [exec_obsStart turn gate st known block (fun given => absurd rfl given)]
  simp only [finishStart, startCheck_ring st fits slow ring, due, if_true, doStart_stopped st done]

theorem exec_obsStart_later (known : mode.toNat ≤ 1) (block : mode = 0 → count ≠ 0 ∧ count.toNat ≤ 131072)
    (future : s.time.now.toNat < startTime.toNat) : exec (.obsStart c h mode count startTime) s = .next (completeOk
      (setObs s h { getObs s h with
        sched := putSched startTime mode count (BitVec.ofNat 16 r.val) (getObs s h).sched }) 0x0504 c [.herd h] 0) := by
  have waits : ¬ startTime.toNat ≤ (now s).toNat := Nat.not_le.mpr future
  rw [exec_obsStart turn gate st known block (fun _ => Nat.le_of_lt future)]
  simp only [finishStart, startCheck_ring st fits slow ring, waits, if_false]

end

/-! ### OBS.STOP (R260, R263, R265) -/

section
variable {c : Cmd} {h : HerdId} {s : State} (turn : myTurn s c = true) (gate : herdGate s h = none)
include turn gate

theorem exec_obsStop (free : sweepsHold s h = false) (st : (getObs s h).st ≠ .fading) :
    exec (.obsStop c h) s = .next (doStop s h c) := by
  have fades : ((getObs s h).st == .fading) = false := by simp [st]
  simp only [exec, execObsStop, turn, gate, free, fades, Bool.not_true, Bool.false_eq_true, if_false]

theorem exec_obsStop_waits (free : sweepsHold s h = false) (st : (getObs s h).st = .fading) :
    exec (.obsStop c h) s = .next (setObs s h { getObs s h with waits := (getObs s h).waits ++ [.stop c] }) := by
  have fades : ((getObs s h).st == .fading) = true := by simp [st]
  simp only [exec, execObsStop, turn, gate, free, fades, Bool.not_true, Bool.false_eq_true, if_false, if_true]

/-- A path that is stopped, with nothing left to write, answers at once, as does one that Chamois holds. -/
theorem exec_obsStop_stopped (st : (getObs s h).st = .stopped) (done : (getObs s h).final = none) :
    ∃ l, exec (.obsStop c h) s = .next (completeOk s 0x0505 c l 0) := by
  by_cases free : sweepsHold s h = true
  · exact ⟨[], by simp only [exec, execObsStop, turn, gate, free, Bool.not_true, Bool.false_eq_true, if_false, if_true]⟩
  · have idle : obsHeld (getHerd s h) = false := by
      have stopped : (getHerd s h).obs.st = .stopped := st
      simp [obsHeld, stopped]
    rw [exec_obsStop turn gate (by simpa using free) (by simp [st])]
    simp only [doStop, obsStopWith, idle, done, Option.isSome_none, Bool.false_eq_true, if_false]
    exact ⟨_, rfl⟩

end

/-- The settings with which a herd's path stops, and the cause. -/
def endOf (x : Herd) (cause : Nat) : ObsEnd :=
  { cause := cause, source := x.obs.source, decim := x.obs.decim, mode := pllRuns x }

/-- A path that stops, before what it holds is written. -/
def stopping (s : State) (h : HerdId) (cause : Nat) : State :=
  setObs s h { getObs s h with st := .stopped, final := some (endOf (getHerd s h) cause) }

section
variable (s : State) (h : HerdId) (cause : Nat)

theorem stopping_obs : getObs (stopping s h cause) h =
    { getObs s h with st := .stopped, final := some (endOf (getHerd s h) cause) } := getObs_setObs s h _

theorem onPath_stopping : OnPath h s (stopping s h cause) := onPath_setObs s h _

theorem beside_stopping : Beside s (stopping s h cause) := beside_setObs s h _

end

section
variable {h : HerdId} {s : State}

/-- The path stops as it writes what it holds. -/
theorem obsStopWith_held (held : obsHeld (getHerd s h) = true) (cause : Nat) :
    ∃ n, obsStopWith s h cause = captureEnd (n + 1) h (endOf (getHerd s h) cause) (stopping s h cause) := by
  refine ⟨(getObs s h).held.length / 2016 + 1, ?_⟩
  have e : obsStopWith s h cause = captureDrain (stopping s h cause) h := by
    rw [obsStopWith, if_pos held]
    rfl
  rw [e, captureDrain, stopping, getObs_setObs]
  rfl

end

/-! ### The last buffer of a capture (R263, R295) -/

section
variable {h : HerdId} {s : State}

theorem hubListens_of_frame {m : List Area} {s t : State} (frame : OnlyIn m s t) (clk : .clk ∉ m) (pwr : .pwr ∉ m)
    (dies : .dies ∉ m) (fw : .fw ∉ m) (sec : .sec ∉ m) (h : HerdId) : hubListens t h = hubListens s h := by
  have clk : t.clk = s.clk := frame .clk clk
  have pwr : t.pwr = s.pwr := frame .pwr pwr
  have dies : t.dies = s.dies := frame .dies dies
  have fw : t.fw = s.fw := frame .fw fw
  have sec : t.sec = s.sec := frame .sec sec
  simp only [hubListens, hubRuns, getDie, clk, pwr, dies, fw, sec]

theorem hubListens_captureTake (s : State) (h : HerdId) : hubListens (captureTake s h) h = hubListens s h :=
  hubListens_of_frame (m := [.ports, .herds, .io]) (onlyIn_of_pick (by simp)) (by simp) (by simp) (by simp) (by simp)
    (by simp) h

/-- No buffer is taken while the hub does not listen, or once the ring can offer none. -/
theorem captureTake_idle (idle : (hubListens s h && captureLives s (getObs s h)) = false) : captureTake s h = s := by
  unfold captureTake
  simp only []
  split
  · rw [if_neg (by simp [idle])]
  · rfl

/-- The last buffer of a stop is written and posted. -/
def lastWritten (s : State) (h : HerdId) (e : ObsEnd) (b : Taken) (time : BitVec 64) : State :=
  captureStopped (captureWrite (freeNat s).2 h b (getObs s h).held.length time (some e)) h e (some b)

section
variable {e : ObsEnd} (n : Nat)

/-- A stop that can write nothing yet waits. -/
theorem captureEnd_waits (deaf : hubListens s h = false) (lives : captureLives s (getObs s h) = true) :
    captureEnd (n + 1) h e s = s := by
  unfold captureEnd
  simp only [captureTake_idle (s := s) (h := h) (by simp [deaf]), deaf, lives, Bool.not_false, if_true]
  split <;> rfl

/-- A stop without a buffer, and with no ring to offer one, is complete. -/
theorem captureEnd_dry (dry : captureLives s (getObs s h) = false) (empty : (getObs s h).buf = none) :
    captureEnd (n + 1) h e s = stopDone (captureStopped s h e none) h := by
  unfold captureEnd
  simp only [captureTake_idle (s := s) (h := h) (by simp [dry]), dry, empty, Bool.false_eq_true, if_false]

/-- A stop whose buffer takes every sample writes them and is complete. -/
theorem captureEnd_writes {b : Taken} (buf : (getObs (captureTake s h) h).buf = some b)
    (listens : hubListens s h = true) (fits : (getObs (captureTake s h) h).held.length ≤ sampleRoom b) :
    ∃ time, captureEnd (n + 1) h e s = stopDone (lastWritten (captureTake s h) h e b time) h := by
  refine ⟨BitVec.ofNat 64 (freeNat (captureTake s h)).1, ?_⟩
  rw [captureEnd]
  simp only [buf, hubListens_captureTake, listens, fits, Bool.not_true, Bool.false_eq_true, if_false, if_true]
  rfl

end

/-- A data-in buffer's descriptor would pass on a data-out ring too. -/
theorem descOk_either {d : DataDesc} (good : descOk true d = true) (isIn : Bool) : descOk isIn d = true := by
  cases isIn with
  | true => exact good
  | false =>
    simp only [descOk, if_true, Bool.and_eq_true, decide_eq_true_eq, beq_iff_eq] at good
    obtain ⟨size, flags, aligned⟩ := good
    have words : d.addr.toNat % 4 = 0 := by omega
    simp [descOk, size, flags, words]

theorem cleanHead_good {r : RingId} (good : (getRing s r).bufs.all (descOk true) = true) : cleanHead s r = s := by
  unfold cleanHead
  cases bufs : (getRing s r).bufs with
  | nil => rfl
  | cons d rest =>
    rw [bufs, List.all_cons, Bool.and_eq_true] at good
    rw [skipBad, if_pos (descOk_either good.1 _)]

/-- A command's ring with good descriptors gives its first buffer, where that is long enough. -/
theorem takeBuf_first {r : RingId} {d : DataDesc} {rest : List DataDesc} {need : Nat}
    (bufs : (getRing s r).bufs = d :: rest) (good : (d :: rest).all (descOk true) = true)
    (long : need ≤ d.length.toNat) :
    (takeBuf s (some r) need).got = some { ring := r, index := (getRing s r).dev, desc := d } ∧
    (getRing (takeBuf s (some r) need).st r).bufs = rest := by
  have clean : cleanHead s r = s := cleanHead_good (bufs ▸ good)
  rw [List.all_cons, Bool.and_eq_true] at good
  simp only [takeBuf, clean, bufs, if_neg (Nat.not_lt.mpr long)]
  refine ⟨rfl, ?_⟩
  rw [cleanHead_good (by simpa [popBuf] using good.2)]
  simp [popBuf]

end

/-! ### Descriptors that stay on their rings -/

/-- Every ring offers in t the buffers that it offers in s. -/
def BufsOn (s t : State) : Prop := ∀ r, (getRing t r).bufs = (getRing s r).bufs

section
variable {s t u : State}

theorem BufsOn.trans (a : BufsOn s t) (b : BufsOn t u) : BufsOn s u := fun r => (b r).trans (a r)

theorem BufsOn.of_rings (rings : t.io.rings = s.io.rings) : BufsOn s t := fun r => by simp only [getRing, rings]

theorem bufsOn_setRing {q : RingId} {x : Ring} (same : x.bufs = (getRing s q).bufs) : BufsOn s (setRing s q x) := by
  intro r
  by_cases e : r = q
  · subst e
    rw [getRing_setRing_self, same]
  · rw [getRing_setRing_ne _ _ e]

theorem bufsOn_modRing {q : RingId} {f : Ring → Ring} (same : ∀ x, (f x).bufs = x.bufs) : BufsOn s (modRing s q f) :=
  bufsOn_setRing (same _)

theorem bufsOn_ringRequest (q : RingId) : BufsOn s (ringRequest s q) := by
  unfold ringRequest
  simp only []
  split
  · refine BufsOn.trans (t := setRing s q { getRing s q with armed := false }) (bufsOn_setRing rfl) ?_
    exact .of_rings (vecCheck_rings _ _)
  · split
    · exact .of_rings (vecCheck_rings _ _)
    · exact .of_rings rfl

theorem bufsOn_putRecord (q : RingId) (r : Completion) : BufsOn s (putRecord s q r) := by
  refine BufsOn.trans ?_ (bufsOn_ringRequest q)
  exact bufsOn_setRing (s := emit s _) rfl

theorem bufsOn_putCompletion (q : RingId) (r : Completion) : BufsOn s (putCompletion s q r) := by
  unfold putCompletion
  simp only []
  split
  · exact bufsOn_putRecord q r
  · exact bufsOn_setRing rfl

theorem bufsOn_finishIn (k : Taken) (bytes : Nat) (fs : List Fld) : BufsOn s (finishIn s k bytes fs) := by
  unfold finishIn
  split
  · refine BufsOn.trans ?_ (bufsOn_putCompletion _ _)
    have untaken : BufsOn s (untake s k) := bufsOn_modRing fun _ => rfl
    exact untaken.trans (.of_rings rfl)
  · exact .of_rings rfl

theorem bufsOn_markLost (old new : EvBuf) : BufsOn s (markLost s old new) := by
  intro r
  refine forEach_keeps (fun t => (getRing t r).bufs) (fun t e => ?_) _ s
  split
  · have marked (q : RingId) : BufsOn t (modRing t q fun x => { x with overrun := true }) := bufsOn_modRing fun _ => rfl
    exact marked _ r
  · rfl

theorem bufsOn_pushGlobal (e : Event) : BufsOn s (pushGlobal s e) := by
  unfold pushGlobal
  split
  · exact .of_rings rfl
  · exact BufsOn.trans (.of_rings rfl) (bufsOn_markLost _ _)

theorem bufsOn_pushPort (p : PortId) (e : Event) : BufsOn s (pushPort s p e) := by
  have buffered (b : EvBuf) : BufsOn s (setHerdBuf s (herdOf p) b) := .of_rings rfl
  have posted (u : State) (g : Nat) (l : List Fld) : BufsOn u (postGlobal u g l) :=
    BufsOn.trans (t := bumpGen u (globalSrc g)) (.of_rings rfl) (bufsOn_pushGlobal _)
  unfold pushPort
  simp only []
  split
  · exact .of_rings rfl
  · split
    · exact ((buffered _).trans (bufsOn_markLost _ _)).trans (posted _ _ _)
    · exact (buffered _).trans (bufsOn_markLost _ _)

theorem bufsOn_putReserved (q : RingId) (r : Completion) : BufsOn s (putReserved s q r) := by
  have freed : BufsOn s (setRing s q { getRing s q with reserved := (getRing s q).reserved - 1 }) := bufsOn_setRing rfl
  unfold putReserved
  simp only []
  split
  · exact freed.trans (bufsOn_putRecord q r)
  · exact freed.trans (bufsOn_setRing rfl)

theorem bufsOn_complete (op : Nat) (c : Cmd) (l : List MirrorObj) (a : BitVec 8) (r : BitVec 64) :
    BufsOn s (complete s op c l a r) := by
  have mirrored : BufsOn s (forEach l mirrorWrite (dequeue s c)) :=
    .of_rings ((forEach_keeps (fun t => t.io.rings) mirrorWrite_rings l _).trans (dequeue_rings s c))
  unfold complete
  simp only []
  split
  · refine BufsOn.trans ?_ (bufsOn_putReserved _ _)
    exact mirrored.trans (bufsOn_modRing fun _ => rfl)
  · exact mirrored

theorem bufsOn_captureWrite (h : HerdId) (b : Taken) (n : Nat) (noTime : BitVec 64) (last : Option ObsEnd) :
    BufsOn s (captureWrite s h b n noTime last) := by
  rw [captureWrite_eq]
  exact (bufsOn_finishIn _ _ _).trans (.of_rings rfl)

theorem bufsOn_captureStopped (h : HerdId) (e : ObsEnd) (k : Option Taken) : BufsOn s (captureStopped s h e k) := by
  obtain ⟨key, payload, posts⟩ := captureStopped_posts s h e k
  rw [posts]
  exact BufsOn.trans (t := bumpGen (setInterval s key _) _) (.of_rings rfl) (bufsOn_pushPort _ _)

end

section
variable (s : State) (h : HerdId) (e : ObsEnd) (b : Taken) (time : BitVec 64)

theorem lastWritten_obs : getObs (lastWritten s h e b time) h = written (getObs s h) (getObs s h).held.length := by
  rw [lastWritten, getObs_of_herds (captureStopped_herds _ _ _ _), captureWrite_obs]
  rfl

theorem lastWritten_onPath : OnPath h s (lastWritten s h e b time) :=
  ((onPath_freeNat s h).trans (onPath_captureWrite _ _ _ _ _ _)).trans (onPath_captureStopped _ _ _ _ _)

theorem lastWritten_bufs : BufsOn s (lastWritten s h e b time) :=
  (BufsOn.trans (t := (freeNat s).2) (.of_rings rfl) (bufsOn_captureWrite _ _ _ _ _)).trans
    (bufsOn_captureStopped _ _ _)

theorem lastWritten_posted : Posted s (lastWritten s h e b time) (portSrc (sourcePort h e.source) 13) 1 := by
  have beside : Beside s (captureWrite (freeNat s).2 h b (getObs s h).held.length time (some e)) :=
    Beside.trans (t := (freeNat s).2) (.of_ports rfl rfl) (beside_captureWrite _ _ _ _ _ _)
  exact beside.posted (posted_captureStopped _ _ _ _)

end

/-! ### OBS.STOP of a running path (R263, R320) -/

section
variable {c : Cmd} {h : HerdId} {s : State}

/-- In SETTLING and in RUNNING the path takes samples, and does not fade. -/
theorem obsHeld_of_st (st : (getObs s h).st = .settling ∨ (getObs s h).st = .running) :
    obsHeld (getHerd s h) = true ∧ (getObs s h).st ≠ .fading := by
  have held : (getHerd s h).obs.st = .settling ∨ (getHerd s h).obs.st = .running := st
  rcases held with run | run <;> simp [obsHeld, getObs, run]

/-- OBS.STOP is answered as soon as nothing is left to write. -/
theorem doStop_done (done : (getObs (obsStopWith s h 0x01) h).final = none) :
    doStop s h c = completeOk (obsStopWith s h 0x01) 0x0505 c [.herd h] 0 := by
  simp only [doStop, done, Option.isSome_none, Bool.false_eq_true, if_false]

/-- Until then it waits. -/
theorem doStop_waits {e : ObsEnd} (left : (getObs (obsStopWith s h 0x01) h).final = some e) :
    doStop s h c = setObs (obsStopWith s h 0x01) h { getObs (obsStopWith s h 0x01) h with
      stoppers := (getObs (obsStopWith s h 0x01) h).stoppers ++ [c] } := by
  simp only [doStop, left, Option.isSome_some, if_true]

/-- A capture takes the first buffer of its ring, where that is one of 4 KiB and no kept result comes before it. -/
theorem captureTake_first {r : RingId} {d : DataDesc} {rest : List DataDesc} (empty : (getObs s h).buf = none)
    (ring : captureRing (getObs s h) = some r) (listens : hubListens s h = true) (active : (getRing s r).st = .active)
    (unbound : ringBindKind s r ≠ 2) (bufs : (getRing s r).bufs = d :: rest)
    (good : (d :: rest).all (descOk true) = true) (long : 4096 ≤ d.length.toNat) :
    (getObs (captureTake s h) h).buf = some { ring := r, index := (getRing s r).dev, desc := d } ∧
    (getRing (captureTake s h) r).bufs = rest := by
  have lives : captureLives s (getObs s h) = true := by simp [captureLives, ring, active]
  have takes : takeIn s (some r) 4096 = takeBuf s (some r) 4096 := by simp [takeIn, unbound]
  obtain ⟨got, left⟩ := takeBuf_first bufs good long
  have taken : captureTake s h = setObs (takeBuf s (some r) 4096).st h { getObs (takeBuf s (some r) 4096).st h with
      buf := (takeBuf s (some r) 4096).got } := by
    simp only [captureTake, empty, ring, listens, lives, takes, Bool.and_self, if_true]
  rw [taken, getObs_setObs]
  exact ⟨got, left⟩

/-- A stop whose last samples fit into the first buffer of the ring: they are written there, and nothing is left. -/
theorem obsStopWith_writes {r : RingId} {d : DataDesc} {rest : List DataDesc} (held : obsHeld (getHerd s h) = true)
    (alone : (getObs s h).stoppers = []) (empty : (getObs s h).buf = none)
    (ring : captureRing (getObs s h) = some r) (listens : hubListens s h = true) (active : (getRing s r).st = .active)
    (unbound : ringBindKind s r ≠ 2) (few : (getObs s h).held.length ≤ (d.length.toNat - 64) / 2)
    (bufs : (getRing s r).bufs = d :: rest) (good : (d :: rest).all (descOk true) = true)
    (long : 4096 ≤ d.length.toNat) (cause : Nat) :
    (∃ o, getObs (obsStopWith s h cause) h = emptied o ∧ o.st = .stopped ∧ o.seq = (getObs s h).seq + 1) ∧
    (getRing (obsStopWith s h cause) r).bufs = rest ∧
    Posted s (obsStopWith s h cause) (portSrc (sourcePort h (getObs s h).source) 13) 1 ∧
    RunsOn s (obsStopWith s h cause) := by
  have stopped := stopping_obs s h cause
  obtain ⟨buf, left⟩ := captureTake_first (s := stopping s h cause) (by rw [stopped]; exact empty)
    (by rw [stopped]; exact ring) listens active unbound bufs good long
  obtain ⟨k, taken⟩ := captureTake_obs (stopping s h cause) h
  obtain ⟨n, stops⟩ := obsStopWith_held held cause
  obtain ⟨time, ends⟩ := captureEnd_writes (e := endOf (getHerd s h) cause) n buf listens
    (by rw [taken, stopped]; exact few)
  rw [stops, ends, stopDone_alone (by rw [lastWritten_obs, taken, stopped]; exact alone), getObs_setObs,
    lastWritten_obs]
  have path := (onPath_stopping s h cause).trans (onPath_captureTake _ h)
  have beside := (beside_stopping s h cause).trans (beside_captureTake _ h)
  refine ⟨⟨_, rfl, by rw [taken, stopped]; rfl, by rw [taken, stopped]; rfl⟩,
    (lastWritten_bufs _ _ _ _ _ r).trans left, ?_, ?_⟩
  · exact (beside_setObs _ h _).after (beside.posted (lastWritten_posted _ _ _ _ _))
  · exact ((path.trans (lastWritten_onPath _ _ _ _ _)).trans (onPath_setObs _ h _)).runs

/-- A stop whose ring can offer no buffer: what is held is dropped, and nothing is left. -/
theorem obsStopWith_dry (held : obsHeld (getHerd s h) = true) (alone : (getObs s h).stoppers = [])
    (dry : captureLives s (getObs s h) = false) (empty : (getObs s h).buf = none) (cause : Nat) :
    (∃ o, getObs (obsStopWith s h cause) h = emptied o ∧ o.st = .stopped) ∧
    Posted s (obsStopWith s h cause) (portSrc (sourcePort h (getObs s h).source) 13) 1 ∧
    RunsOn s (obsStopWith s h cause) := by
  have stopped := stopping_obs s h cause
  have same : getObs (captureStopped (stopping s h cause) h (endOf (getHerd s h) cause) none) h =
      getObs (stopping s h cause) h := getObs_of_herds (captureStopped_herds _ _ _ _) h
  obtain ⟨n, stops⟩ := obsStopWith_held held cause
  rw [stops, captureEnd_dry n (by rw [stopped]; exact dry) (by rw [stopped]; exact empty),
    stopDone_alone (by rw [same, stopped]; exact alone), getObs_setObs, same, stopped]
  refine ⟨⟨_, rfl, rfl⟩, ?_, ?_⟩
  · exact (beside_setObs _ h _).after ((beside_stopping s h cause).posted (posted_captureStopped _ _ _ _))
  · exact (((onPath_stopping s h cause).trans (onPath_captureStopped _ _ _ _ h)).trans (onPath_setObs _ h _)).runs

/-- A stop that can write nothing yet leaves its path stopped, with what it holds. -/
theorem obsStopWith_waits (held : obsHeld (getHerd s h) = true) (deaf : hubListens s h = false)
    (lives : captureLives s (getObs s h) = true) (cause : Nat) : obsStopWith s h cause = stopping s h cause := by
  obtain ⟨n, stops⟩ := obsStopWith_held held cause
  rw [stops, captureEnd_waits (s := stopping s h cause) n deaf (by rw [stopping_obs]; exact lives)]

/-- OBS.STOP on a path that stops with nothing left is answered. -/
theorem doStop_emptied {c : Cmd} {o : Obs} (runs : Runs s c) (path : getObs (obsStopWith s h 0x01) h = emptied o)
    (on : RunsOn s (obsStopWith s h 0x01)) : getObs (doStop s h c) h = emptied o ∧
    Beside (obsStopWith s h 0x01) (doStop s h c) ∧ BufsOn (obsStopWith s h 0x01) (doStop s h c) ∧
    Answered s (doStop s h c) c 0x0505 stOk 0 := by
  rw [doStop_done (by rw [path]; rfl), getObs_completeOk]
  exact ⟨path, beside_complete _ _ _ _ _, bufsOn_complete _ _ _ _ _,
    answered_zero_after (regs_of_kept (kept_obsStopWith s h _)) (on.runs runs)⟩

end

/-- Settles O20: `exec_obsStart…` and `exec_obsStop…` say what each row leads to; `obsStopWith_…` what a stop writes,
posts and leaves. That OBS.STOP on a stopped path leaves its schedule, and that a last buffer waits for the hub, is the
model's reading (log 32). -/
theorem obsCaptureCommands : Obligations.ObsCaptureCommands := by
  unfold Obligations.ObsCaptureCommands
  refine ⟨?now, ?later, ?buffer, ?dry, ?waits, ?stopped, ?fading⟩
  case now =>
    intro c h count r s target runs turn gate any few fits ring st done
    obtain ⟨path, answered⟩ := completed_setObs runs 0x0504 [.herd h]
      (started (getObs s h) 0 count (BitVec.ofNat 16 r.val)) 0
    refine ⟨_, exec_obsStart_now turn gate st fits (fun one => absurd one (by decide)) ring (by decide)
      (fun _ => ⟨any, few⟩) done, ?_⟩
    rw [path]
    exact ⟨rfl, rfl, rfl, rfl, completed_herdsBut target (herdsBut_setObs s h _) _ _ _, answered⟩
  case later =>
    intro c h count startTime r s target runs turn gate _ future fits slow ring st
    obtain ⟨path, answered⟩ := completed_setObs runs 0x0504 [.herd h]
      { getObs s h with sched := putSched startTime 1 count (BitVec.ofNat 16 r.val) (getObs s h).sched } 0
    refine ⟨_, exec_obsStart_later turn gate st fits (fun _ => slow) ring (by decide)
      (fun zero => absurd zero (by decide)) future, ?_⟩
    rw [path]
    exact ⟨st, rfl, completed_herdsBut target (herdsBut_setObs s h _) _ _ _, answered⟩
  case buffer =>
    intro c h r d rest s runs turn gate free st alone ring listens active unbound empty few bufs good long
    obtain ⟨held, still⟩ := obsHeld_of_st st
    obtain ⟨⟨o, path, stopped, seq⟩, left, posted, on⟩ :=
      obsStopWith_writes held alone empty ring listens active unbound few bufs good long 0x01
    obtain ⟨done, beside, kept, answered⟩ := doStop_emptied runs path on
    refine ⟨_, exec_obsStop turn gate free still, ?_⟩
    rw [done]
    exact ⟨stopped, seq, (kept r).trans left, beside.after posted, answered⟩
  case dry =>
    intro c h s runs turn gate free st alone dry empty
    obtain ⟨held, still⟩ := obsHeld_of_st st
    obtain ⟨⟨o, path, stopped⟩, posted, on⟩ := obsStopWith_dry held alone dry empty 0x01
    obtain ⟨done, beside, -, answered⟩ := doStop_emptied runs path on
    refine ⟨_, exec_obsStop turn gate free still, ?_⟩
    rw [done]
    exact ⟨stopped, beside.after posted, answered⟩
  case waits =>
    intro c h s turn gate free st lives deaf
    obtain ⟨held, still⟩ := obsHeld_of_st (.inr st)
    have stops := obsStopWith_waits held deaf lives 0x01
    have path := stopping_obs s h 0x01
    refine ⟨_, exec_obsStop turn gate free still, ?_⟩
    rw [doStop_waits (e := endOf (getHerd s h) 0x01) (by rw [stops, path]), stops, path, getObs_setObs]
    exact ⟨rfl, rfl, rfl, rfl, herdsBut_trans (onPath_stopping s h 0x01).others (herdsBut_setObs _ h _)⟩
  case stopped =>
    intro c h s runs turn gate st done
    obtain ⟨l, answers⟩ := exec_obsStop_stopped turn gate st done
    exact ⟨_, answers, getObs_completeOk _ _ _ _ _ h, answered_completeOk runs _ _ _⟩
  case fading =>
    intro c h s turn gate free st
    exact ⟨_, exec_obsStop_waits turn gate free st, getObs_setObs _ _ _, onlyIn_of_pick (by simp)⟩

/-! ### Starts that are due (R261, R321) -/

section
variable {h : HerdId} {s : State}

/-- A herd's gate does not hang on its path. -/
theorem herdGate_setObs {o : Obs} (gate : herdGate s h = none) : herdGate (setObs s h o) h = none := by
  have st : (getHerd (setObs s h o) h).st = (getHerd s h).st := by simp [setObs]
  have safe : herdIsSafe (setObs s h o) h = herdIsSafe s h := by
    simp only [herdIsSafe, st]
    rfl
  unfold herdGate at gate ⊢
  rw [st, safe]
  split at gate
  · cases gate
  · rename_i serves
    rw [if_neg serves]
    split at gate
    · cases gate
    · rename_i free
      rw [if_neg free]

/-- A path that Chamois leaves alone stays open to its commands. -/
theorem obsGate_setObs {o : Obs} (same : o.sweeps = (getObs s h).sweeps) (gate : obsGate s h = none) :
    obsGate (setObs s h o) h = none := by
  have sweeps : sweepsHold (setObs s h o) h = sweepsHold s h := by simp only [sweepsHold, getObs_setObs, same]
  unfold obsGate at gate ⊢
  split at gate
  · cases gate
  · rename_i serves
    simp only [herdGate_setObs serves, sweeps]
    split at gate
    · cases gate
    · rename_i free
      rw [if_neg free]

/-- A path without a schedule. -/
def unscheduled (o : Obs) : Obs := { o with sched := [] }

/-- Without a start in the schedule none is due. -/
theorem obsDue_none (still : (getObs s h).st ≠ .fading) (empty : (getObs s h).sched = []) :
    obsDue s h = setObs s h (unscheduled (getObs s h)) := by
  have fades : ((getObs s h).st == .fading) = false := by simp [still]
  simp only [obsDue, fades, empty, List.filter_nil, forEach, List.foldl_nil, Bool.false_eq_true, if_false,
    unscheduled]

/-- The only start of the schedule, once its time has been reached, begins to settle. -/
theorem obsDue_start {time : BitVec 64} {mode : BitVec 8} {count : BitVec 32} {ring : BitVec 16}
    (one : (getObs s h).sched = [(time, mode, count, ring)]) (due : time.toNat ≤ s.time.now.toNat)
    (st : (getObs s h).st = .stopped) (gate : obsGate s h = none)
    (fits : (selBank (getObs s h)).taps ≤ maxTaps (getObs s h).decim) (done : (getObs s h).final = none) :
    obsDue s h = setObs (setObs s h (unscheduled (getObs s h))) h
      (started (unscheduled (getObs s h)) mode count ring) := by
  have fades : ((getObs s h).st == .fading) = false := by simp [st]
  have reached : time.toNat ≤ (now s).toNat := due
  have open_ : obsGate (setObs s h (unscheduled (getObs s h))) h = none := obsGate_setObs rfl gate
  have fits' : ¬ maxTaps (unscheduled (getObs s h)).decim < (selBank (unscheduled (getObs s h))).taps :=
    Nat.not_lt.mpr fits
  have starts := doStart_stopped (s := setObs s h (unscheduled (getObs s h))) (h := h)
    (by rw [getObs_setObs]; exact st) (by rw [getObs_setObs]; exact done) mode count ring
  rw [getObs_setObs] at starts
  simp only [unscheduled] at open_ fits' starts ⊢
  simp only [obsDue, fades, one, reached, List.filter_cons, List.filter_nil, decide_true, Bool.not_true,
    Bool.false_eq_true, if_false, if_true, forEach, List.foldl_cons, List.foldl_nil, getObs_setObs, open_,
    Option.isSome_none, fits', decide_false, Bool.or_false, starts]

end

/-! ### Samples of the source (R246 to R248) -/

theorem herdOf_sourcePort (h : HerdId) (source : Nat) : herdOf (sourcePort h source) = h := by
  apply Fin.ext
  simp only [herdOf, sourcePort, portOf]
  omega

section
variable {h : HerdId} {s : State}

/-- Without a sample the path does no more than look for a buffer. -/
theorem obsGap_nothing (s : State) (h : HerdId) : obsGap s h [] = s ∨ obsGap s h [] = captureTake s h := by
  unfold obsGap
  simp only []
  split
  · split
    · exact .inl rfl
    · unfold obsTx
      simp only [herdOf_sourcePort, quadGet_all, List.getD_nil, List.length_nil, List.replicate_zero, List.map_nil,
        obsFeed]
      split
      · exact .inr rfl
      · exact .inl rfl
  · unfold obsRx
    simp only [herdOf_sourcePort, List.getD_nil, List.map_nil, obsFeed]
    split
    · exact .inr rfl
    · exact .inl rfl

theorem obsHeld_congr {s t : State} (same : (getObs t h).st = (getObs s h).st) :
    obsHeld (getHerd t h) = obsHeld (getHerd s h) := by
  have st : (getHerd t h).obs.st = (getHerd s h).obs.st := same
  simp only [obsHeld, st]

/-- One ADC code of the source's pair enters the chain. -/
theorem obsGap_code (held : obsHeld (getHerd s h) = true) (line : (getObs s h).source < 32) {v : BitVec 8}
    {adc : List (List (BitVec 8))} (code : adc.getD ((getObs s h).source % 4) [] = [v]) :
    obsGap s h adc = captureTake (obsFeed h [v.toInt] s) h := by
  have takes : obsTakes s (sourcePort h (getObs s h).source) false = true := by
    have line' : (getHerd s h).obs.source < 32 := line
    simp [obsTakes, herdOf_sourcePort, held, getObs, line']
  have pair : sourcePair s (sourcePort h (getObs s h).source) = (getObs s h).source % 4 := by
    rw [sourcePair, herdOf_sourcePort]
  simp only [obsGap, if_neg (Nat.not_le.mpr line), obsRx, takes, if_true, pair, code, herdOf_sourcePort, List.map_cons,
    List.map_nil]

/-- What a code does to a path: the chain and, at its output, the filter; at the end of a fade the waiting commands
act. -/
theorem obsFeed_code (held : obsHeld (getHerd s h) = true) (v : Int) : ∃ time, obsFeed h [v] s =
    if (getObs s h).st == .fading && (obsTake (getObs s h) (pllRuns (getHerd s h)) time v).st == .running then
      runObsWaits (setObs s h (obsTake (getObs s h) (pllRuns (getHerd s h)) time v)) h
    else setObs s h (obsTake (getObs s h) (pllRuns (getHerd s h)) time v) := by
  simp only [obsFeed, held, if_true]
  exact ⟨_, rfl⟩

theorem runObsWaits_none (idle : (getObs s h).waits = []) :
    runObsWaits s h = setObs s h { getObs s h with waits := [] } := by
  simp only [runObsWaits, idle, forEach, List.foldl_nil]

end

/-- A path whose chain has taken a code. -/
def shifted (o : Obs) (code : Int) : Obs := { o with chain := (chainPush (chainOf o) (256 * code)).1 }

/-- A code that completes an output of the chain brings it to the filter. -/
theorem obsTake_output {o : Obs} {code : Int} (out : (chainPush (chainOf o) (256 * code)).2.isSome = true)
    (mode : LineMode) (time : BitVec 64) : ∃ y, obsTake o mode time code = obsSample (shifted o code) mode time y := by
  obtain ⟨y, out⟩ := Option.isSome_iff_exists.mp out
  exact ⟨y, by simp only [obsTake, out, shifted]⟩

/-- The last output of a settling is suppressed, and the path runs (R256). -/
theorem obsSample_settled {o : Obs} (st : o.st = .settling) (last : o.settle = 1) (mode : LineMode) (time : BitVec 64)
    (y : Int) : (obsSample o mode time y).st = .running ∧
      (obsSample o mode time y).suppressed = o.suppressed + 1 := by
  simp [obsSample, st, last]

/-- What a path mixes, and what it still has to do. -/
def pathPlan (o : Obs) : (Nat × Nat × Bool) × List ObsWait × List (BitVec 64 × BitVec 8 × BitVec 32 × BitVec 16) :=
  ((o.fadeLen, o.fadeGone, o.sel), o.waits, o.sched)

/-- A delivery writes to the capture buffer and its counts alone. -/
theorem pathPlan_obsDeliver (o : Obs) (mode : LineMode) (time : BitVec 64) :
    pathPlan (obsDeliver o mode time) = pathPlan o := by
  unfold obsDeliver
  simp only []
  split
  · rfl
  · split <;> rfl

/-- The last output of a fade ends it (R258). -/
theorem obsSample_faded {o : Obs} (st : o.st = .fading) (last : o.fadeLen = o.fadeGone + 1) (mode : LineMode)
    (time : BitVec 64) (y : Int) : (obsSample o mode time y).st = .running ∧ (obsSample o mode time y).sel = o.sel ∧
      (obsSample o mode time y).waits = o.waits ∧ (obsSample o mode time y).sched = o.sched := by
  have delivered := pathPlan_obsDeliver { o with line := (y :: o.line).take 384 } mode time
  simp only [obsSample, st] at delivered ⊢
  generalize obsDeliver _ mode time = p at delivered ⊢
  simp only [pathPlan, Prod.mk.injEq] at delivered
  obtain ⟨⟨len, gone, sel⟩, waits, sched⟩ := delivered
  exact ⟨if_pos (by omega), sel, waits, sched⟩

section
variable {h : HerdId} {s : State} (line : (getObs s h).source < 32) {v : BitVec 8} {adc : List (List (BitVec 8))}
  (code : adc.getD ((getObs s h).source % 4) [] = [v])
  (out : (chainPush (chainOf (getObs s h)) (256 * v.toInt)).2.isSome = true)
include line code out

/-- The code that completes the last output of a settling. -/
theorem obsGap_settled (st : (getObs s h).st = .settling) (last : (getObs s h).settle = 1) :
    (getObs (obsGap s h adc) h).st = .running ∧
    (getObs (obsGap s h adc) h).suppressed = (getObs s h).suppressed + 1 ∧ HerdsBut h s (obsGap s h adc) := by
  have fades : ((getObs s h).st == .fading) = false := by simp [st]
  obtain ⟨held, -⟩ := obsHeld_of_st (.inl st)
  obtain ⟨time, fed⟩ := obsFeed_code held v.toInt
  obtain ⟨y, output⟩ := obsTake_output out (pllRuns (getHerd s h)) time
  rw [fades, Bool.false_and, if_neg Bool.false_ne_true, output] at fed
  obtain ⟨k, taken⟩ := captureTake_obs (obsFeed h [v.toInt] s) h
  obtain ⟨run, counted⟩ := obsSample_settled (o := shifted (getObs s h) v.toInt) st last (pllRuns (getHerd s h)) time y
  rw [obsGap_code held line code, taken, fed, getObs_setObs]
  exact ⟨run, counted, ((onPath_setObs s h _).trans (onPath_captureTake _ h)).others⟩

/-- The code that completes the last output of a fade for which no command waits. -/
theorem obsGap_faded (st : (getObs s h).st = .fading) (last : (getObs s h).fadeLen = (getObs s h).fadeGone + 1)
    (idle : (getObs s h).waits = []) : (getObs (obsGap s h adc) h).st = .running ∧
    (getObs (obsGap s h adc) h).sel = (getObs s h).sel ∧
    (getObs (obsGap s h adc) h).sched = (getObs s h).sched ∧ HerdsBut h s (obsGap s h adc) := by
  have held : obsHeld (getHerd s h) = true := by
    have fades : (getHerd s h).obs.st = .fading := st
    simp [obsHeld, fades]
  obtain ⟨time, fed⟩ := obsFeed_code held v.toInt
  obtain ⟨y, output⟩ := obsTake_output out (pllRuns (getHerd s h)) time
  obtain ⟨run, sel, waits, sched⟩ :=
    obsSample_faded (o := shifted (getObs s h) v.toInt) st last (pllRuns (getHerd s h)) time y
  have ends : ((getObs s h).st == .fading && (obsTake (getObs s h) (pllRuns (getHerd s h)) time v.toInt).st == .running)
      = true := by simp [st, output, run]
  rw [if_pos ends, runObsWaits_none (by rw [getObs_setObs, output, waits]; exact idle), getObs_setObs, output] at fed
  obtain ⟨k, taken⟩ := captureTake_obs (obsFeed h [v.toInt] s) h
  rw [obsGap_code held line code, taken, fed, getObs_setObs]
  exact ⟨run, sel, sched,
    (((onPath_setObs s h _).trans (onPath_setObs _ h _)).trans (onPath_captureTake _ h)).others⟩

end

/-! ### Full buffers (R262, R264) -/

section
variable {h : HerdId} {s : State}

/-- A buffer that is taken is as long as it was asked to be. -/
theorem takeBuf_long {ring : Option RingId} {need : Nat} {b : Taken} (got : (takeBuf s ring need).got = some b) :
    need ≤ b.desc.length.toNat := by
  unfold takeBuf at got
  split at got
  · cases got
  · simp only [] at got
    split at got
    · cases got
    · split at got
      · cases got
      · rename_i long
        obtain rfl := Option.some.inj got
        exact Nat.not_lt.mp long

theorem takeIn_long {ring : Option RingId} {need : Nat} {b : Taken} (got : (takeIn s ring need).got = some b) :
    need ≤ b.desc.length.toNat := by
  unfold takeIn at got
  split at got
  · split at got
    · exact takeBuf_long got
    · exact takeBuf_long got
  · exact takeBuf_long got

/-- A buffer that has been taken stays the capture's. -/
theorem captureTake_full {b : Taken} (full : (getObs s h).buf = some b) : captureTake s h = s := by
  rcases captureTake_cases s h with idle | ⟨r, empty, -⟩
  · exact idle
  · rw [full] at empty
    cases empty

/-- The buffer taken holds its samples, CAPTURE_READY is posted. -/
def fullWritten (s : State) (h : HerdId) (b : Taken) : State :=
  captureReady (captureWrite s h b (sampleRoom b) 0 none) h
    (((getObs s h).held.head?.map (·.source)).getD (getObs s h).source) b

/-- The samples of a STREAM that fill the buffer taken are written to it and posted. -/
theorem captureFill_full {b : Taken} (full : (getObs s h).buf = some b) (listens : hubListens s h = true)
    (room : sampleRoom b ≤ (getObs s h).held.length) (stream : (getObs s h).mode ≠ 0) (n : Nat) :
    captureFill (n + 1) h s = captureFill n h (fullWritten s h b) := by
  have streams : ((getObs s h).mode == 0) = false := by simpa using stream
  rw [captureFill]
  simp only [captureTake_full full, full, listens, room, streams, decide_true, Bool.and_self, Bool.false_and,
    Bool.not_false, if_true]
  rfl

/-- Without a sample no buffer is full: the capture takes one at most. -/
theorem captureFill_empty (nothing : (getObs s h).held = []) (empty : (getObs s h).buf = none) (n : Nat) :
    captureFill n h s = s ∨ captureFill n h s = captureTake s h := by
  cases n with
  | zero => exact .inl rfl
  | succ n =>
    refine .inr ?_
    have room (b : Taken) (got : (getObs (captureTake s h) h).buf = some b) : 0 < sampleRoom b := by
      rcases captureTake_cases s h with idle | ⟨r, -, taken⟩
      · rw [idle, empty] at got
        cases got
      · rw [taken, getObs_setObs] at got
        have long := takeIn_long got
        unfold sampleRoom
        omega
    have held : (getObs (captureTake s h) h).held = [] := by
      obtain ⟨k, taken⟩ := captureTake_obs s h
      rw [taken, nothing]
    rw [captureFill]
    simp only [held, List.length_nil]
    split
    · rename_i b got
      rw [decide_eq_false (Nat.not_le.mpr (room b got)), Bool.and_false, Bool.false_and, if_neg Bool.false_ne_true]
    · rfl

theorem fullWritten_obs (s : State) (h : HerdId) (b : Taken) :
    getObs (fullWritten s h b) h = written (getObs s h) (sampleRoom b) := by
  rw [fullWritten, getObs_of_herds (captureReady_herds _ _ _ _), captureWrite_obs]

theorem onPath_fullWritten (s : State) (h : HerdId) (b : Taken) : OnPath h s (fullWritten s h b) :=
  (onPath_captureWrite _ _ _ _ _ _).trans (onPath_captureReady _ _ _ _ _)

theorem posted_fullWritten (s : State) (h : HerdId) (b : Taken) : Posted s (fullWritten s h b)
    (portSrc (sourcePort h (((getObs s h).held.head?.map (·.source)).getD (getObs s h).source)) 13) 1 :=
  (beside_captureWrite s h b (sampleRoom b) 0 none).posted (posted_captureReady _ _ _ _)

theorem fullWritten_data {b : Taken} (mine : (getRing s b.ring).taken.contains b = true) :
    Bus.data b.desc.addr (captureHeader s h ((getObs s h).held.take (sampleRoom b)) 0 none ++
      sampleFields ((getObs s h).held.take (sampleRoom b))) ∈ (fullWritten s h b).io.bus :=
  (onPath_captureReady _ h _ b h).bus (finishIn_data (List.contains_iff_mem.mp mine) _ _)

/-- The samples of a STREAM that just fill the buffer taken are written to it and posted, and the capture may take the
next buffer. -/
theorem captureDrain_full {b : Taken} (done : (getObs s h).final = none) (full : (getObs s h).buf = some b)
    (listens : hubListens s h = true) (filled : (getObs s h).held.length = sampleRoom b)
    (stream : (getObs s h).mode ≠ 0) :
    (∃ k, getObs (captureDrain s h) h = { written (getObs s h) (sampleRoom b) with buf := k }) ∧
    OnPath h (fullWritten s h b) (captureDrain s h) ∧ Beside (fullWritten s h b) (captureDrain s h) := by
  have drains : captureDrain s h = captureFill ((getObs s h).held.length / 2016 + 2) h s := by
    simp only [captureDrain, done, captureSteps]
  have nothing : (getObs (fullWritten s h b) h).held = [] := by
    rw [fullWritten_obs]
    exact List.drop_eq_nil_of_le (Nat.le_of_eq filled)
  rw [drains, captureFill_full full listens (Nat.le_of_eq filled.symm) stream]
  rcases captureFill_empty nothing (by rw [fullWritten_obs]; rfl) _ with idle | takes
  · rw [idle, fullWritten_obs]
    exact ⟨⟨none, rfl⟩, .refl, .refl⟩
  · rw [takes, ← fullWritten_obs]
    exact ⟨captureTake_obs _ h, onPath_captureTake _ h, beside_captureTake _ h⟩

end

/-! ### What a stop writes (R263) -/

/-- A path's state, the commands that wait for its fade, and the stops that wait for a buffer. -/
def pathRest (o : Obs) : ObsSt × List ObsWait × List Cmd := (o.st, o.waits, o.stoppers)

/-- A step of a herd's capture that leaves the path's state and what waits on it. -/
structure Writes (h : HerdId) (s t : State) : Prop where
  path : OnPath h s t
  rest : pathRest (getObs t h) = pathRest (getObs s h)

section
variable {h : HerdId} {s t u : State}

theorem Writes.refl : Writes h s s := ⟨.refl, rfl⟩

theorem Writes.trans (a : Writes h s t) (b : Writes h t u) : Writes h s u :=
  ⟨a.path.trans b.path, b.rest.trans a.rest⟩

theorem Writes.of_herds (path : OnPath h s t) (herds : t.herds = s.herds) : Writes h s t :=
  ⟨path, by rw [getObs_of_herds herds]⟩

theorem writes_captureTake (s : State) (h : HerdId) : Writes h s (captureTake s h) := by
  obtain ⟨k, taken⟩ := captureTake_obs s h
  exact ⟨onPath_captureTake s h, by rw [taken]; rfl⟩

theorem writes_captureWrite (s : State) (h : HerdId) (b : Taken) (n : Nat) (noTime : BitVec 64)
    (last : Option ObsEnd) : Writes h s (captureWrite s h b n noTime last) :=
  ⟨onPath_captureWrite s h b n noTime last, by rw [captureWrite_obs]; rfl⟩

theorem writes_stopDone (alone : (getObs s h).stoppers = []) : Writes h s (stopDone s h) := by
  rw [stopDone_alone alone]
  exact ⟨onPath_setObs s h _, by simp only [getObs_setObs, pathRest, emptied, alone]⟩

/-- What a stop writes, for itself and for no OBS.STOP that waited, leaves the path stopped as it was. -/
theorem writes_captureEnd (n : Nat) (e : ObsEnd) (alone : (getObs s h).stoppers = []) :
    Writes h s (captureEnd n h e s) := by
  have stops {s u : State} (alone : (getObs s h).stoppers = []) (w : Writes h s u) : (getObs u h).stoppers = [] :=
    (congrArg (·.2.2) w.rest).trans alone
  induction n generalizing s with
  | zero => exact .refl
  | succ n ih =>
    have take := writes_captureTake s h
    rw [captureEnd]
    simp only []
    split
    · rename_i b _
      split
      · exact take
      · split
        · have last (time : BitVec 64) : Writes h s (lastWritten (captureTake s h) h e b time) :=
            take.trans ⟨lastWritten_onPath _ _ _ _ _, by rw [lastWritten_obs]; rfl⟩
          exact (last _).trans (writes_stopDone (stops alone (last _)))
        · have full (source : Nat) :=
            (take.trans (writes_captureWrite _ h b (sampleRoom b) 0 none)).trans
              (.of_herds (onPath_captureReady _ h source b h) (captureReady_herds _ h source b))
          exact (full _).trans (ih (stops alone (full _)))
    · split
      · exact take
      · have posted := take.trans (.of_herds (onPath_captureStopped _ h e none h) (captureStopped_herds _ h e none))
        exact posted.trans (writes_stopDone (stops alone posted))

/-- A stop: the path is STOPPED, whatever is left to write. -/
theorem obsStopWith_stops (held : obsHeld (getHerd s h) = true) (alone : (getObs s h).stoppers = []) (cause : Nat) :
    HerdsBut h s (obsStopWith s h cause) ∧ (getObs (obsStopWith s h cause) h).st = .stopped ∧
    (getObs (obsStopWith s h cause) h).waits = (getObs s h).waits := by
  obtain ⟨n, stops⟩ := obsStopWith_held held cause
  have writes := writes_captureEnd (s := stopping s h cause) (n + 1) (endOf (getHerd s h) cause)
    (by rw [stopping_obs]; exact alone)
  have rest := writes.rest
  rw [← stops] at writes rest
  rw [stopping_obs] at rest
  exact ⟨((onPath_stopping s h cause).trans writes.path).others, congrArg (·.1) rest, congrArg (·.2.1) rest⟩

end

/-! ### The events -/

section
variable {h : HerdId} {s : State}

theorem exec_obsScheduledStart (runs : herdsRun s = true) : exec (.obsScheduledStart h) s = .next (obsDue s h) := by
  simp only [exec, execObsScheduledStart, runs, if_true]

theorem exec_obsSettlingDone {adc : List (List (BitVec 8))} (runs : herdsRun s = true) :
    exec (.obsSettlingDone h adc) s = .next (obsGap s h adc) := by
  simp only [exec, execObsSettlingDone, runs, if_true]

theorem exec_obsFadeDone {adc : List (List (BitVec 8))} (runs : herdsRun s = true) :
    exec (.obsFadeDone h adc) s = .next (obsDue (obsGap s h adc) h) := by
  simp only [exec, execObsFadeDone, runs, if_true]

theorem exec_obsBufferComplete {adc : List (List (BitVec 8))} (clock : s.clk.refclkOk = true) :
    exec (.obsBufferComplete h adc) s = .next (captureDrain (obsGap s h adc) h) := by
  simp only [exec, execObsBufferComplete, clock, Bool.not_true, Bool.false_eq_true, if_false]

/-- A BLOCK capture with its COUNT of samples stops, and the commands that waited for a fade act. -/
theorem exec_obsCountDone {adc : List (List (BitVec 8))} (runs : herdsRun s = true)
    (held : obsHeld (getHerd (obsGap s h adc) h) = true) (block : (getObs (obsGap s h adc) h).mode = 0)
    (all : (getObs (obsGap s h adc) h).count ≤ (getObs (obsGap s h adc) h).sent) :
    exec (.obsCountDone h adc) s = .next (runObsWaits (obsStopWith (obsGap s h adc) h 0x02) h) := by
  have ends : (obsHeld (getHerd (obsGap s h adc) h) && (getObs (obsGap s h adc) h).mode == 0 &&
      decide ((getObs (obsGap s h adc) h).count ≤ (getObs (obsGap s h adc) h).sent)) = true := by
    simp only [held, block, all, beq_self_eq_true, decide_true, Bool.and_self]
  simp only [exec, execObsCountDone, runs, Bool.not_true, Bool.false_eq_true, if_false, ends, if_true]

end

/-- Settles O21: `obsDue_start` says what a due start leaves, `obsSample_…` what the last output of a settling or of a
fade does, `captureFill_full` that a full buffer is written and posted with the header
of log 35, and `obsStopWith_stops` that a stop stops. -/
theorem obsEvents : Obligations.ObsEvents := by
  unfold Obligations.ObsEvents
  refine ⟨?start, ?settled, ?faded, ?full, ?count⟩
  case start =>
    intro h time mode count ring s one due st gate fits done runs
    refine ⟨_, exec_obsScheduledStart runs, ?_⟩
    rw [obsDue_start one due st gate fits done, getObs_setObs]
    exact ⟨rfl, rfl, rfl, herdsBut_trans (herdsBut_setObs s h _) (herdsBut_setObs _ h _), onlyIn_of_pick (by simp)⟩
  case settled =>
    intro h v adc s runs st last line code out
    exact ⟨_, exec_obsSettlingDone runs, obsGap_settled line code out st last⟩
  case faded =>
    intro h v adc s runs st last line code out idle unplanned
    obtain ⟨run, sel, sched, others⟩ := obsGap_faded line code out st last idle
    refine ⟨_, exec_obsFadeDone runs, ?_⟩
    rw [obsDue_none (by simp [run]) (sched.trans unplanned), getObs_setObs]
    exact ⟨run, sel, herdsBut_trans others (herdsBut_setObs _ h _)⟩
  case full =>
    intro h b s st done stream full _ filled room listens mine clock
    have gap : obsGap s h [] = s := by
      rcases obsGap_nothing s h with gap | gap
      · exact gap
      · exact gap.trans (captureTake_full full)
    have all : (getObs s h).held.take (sampleRoom b) = (getObs s h).held := List.take_of_length_le (Nat.le_of_eq filled)
    have first : ((getObs s h).held.head?.map (·.source)).getD (getObs s h).source =
        ((getObs s h).held.head?.map (·.source)).getD 0 := by
      cases held : (getObs s h).held with
      | nil => simp [held] at filled; omega
      | cons x l => rfl
    have nothing : (getObs s h).held.drop (sampleRoom b) = [] := List.drop_eq_nil_of_le (Nat.le_of_eq filled)
    have data := fullWritten_data (h := h) mine
    have posted := posted_fullWritten s h b
    rw [all] at data
    rw [first] at posted
    obtain ⟨⟨k, path⟩, drain, beside⟩ := captureDrain_full done full listens filled (by rw [stream]; decide)
    refine ⟨_, exec_obsBufferComplete clock, ?_⟩
    rw [gap, path]
    exact ⟨rfl, st, nothing, drain.bus data, beside.after posted, ((onPath_fullWritten s h b).trans drain).others⟩
  case count =>
    intro h s held block all idle alone runs
    obtain ⟨⟨k, same⟩, others⟩ : (∃ k, getObs (obsGap s h []) h = { getObs s h with buf := k }) ∧
        HerdsBut h s (obsGap s h []) := by
      rcases obsGap_nothing s h with gap | gap
      · rw [gap]
        exact ⟨⟨_, rfl⟩, fun _ _ => rfl⟩
      · rw [gap]
        exact ⟨captureTake_obs s h, (onPath_captureTake s h).others⟩
    have held' : obsHeld (getHerd (obsGap s h []) h) = true := (obsHeld_congr (by rw [same])).trans held
    obtain ⟨beside, stopped, waits⟩ := obsStopWith_stops held' (by rw [same]; exact alone) 0x02
    refine ⟨_, exec_obsCountDone runs held' (by rw [same]; exact block) (by rw [same]; exact all), ?_⟩
    rw [runObsWaits_none (by rw [waits, same]; exact idle), getObs_setObs]
    exact ⟨stopped, herdsBut_trans (herdsBut_trans others beside) (herdsBut_setObs _ h _)⟩

end Sys2Proof.Proofs
end

section
/-!
PROOFS of the family 11_rings_doorbells: the frame of every row (O60), accesses of other sizes (O49), doorbells and ring
dispatches (O15), the states of rings (O16), vectors and the function (O17).
-/

namespace Sys2Proof.Proofs

open Sys2Proof.Machine Sys2Proof.Safety

/-! ### The frame of every row -/

/-- Settles O60: `exec_onlyIn`, which goes through the commands one by one (`pickO_exec`), each by the lemma on what its
effect leaves. The table `mayWrite` is the model's own reading of what each row's rules let it write. -/
theorem everyRowFrame : Obligations.EveryRowFrame := by
  unfold Obligations.EveryRowFrame
  intro i s t e
  exact exec_onlyIn e

/-! ### Accesses of another size or alignment (R268) -/

section
variable {s : State} {off : BitVec 26} (up : busUp s = true)
include up

theorem exec_bar0BadAccess (write : Bool) :
    exec (.bar0BadAccess off write) s = .next (emit (touch s) (.unsupported write)) := by
  simp [exec, execBar0BadAccess, up]

theorem busWrite_misaligned (odd : off.toNat % 4 ≠ 0) (v : BitVec 32) :
    busWrite s off v = emit (touch s) (.unsupported true) := by
  simp [busWrite, up, odd]

theorem busRead_misaligned (odd : off.toNat % 4 ≠ 0) : busRead s off = emit (touch s) (.unsupported false) := by
  simp [busRead, up, odd]

end

/-- An access that is answered as unsupported puts out that answer and brings host activity, and nothing else. -/
theorem unsupported_onlyIn (s : State) (write : Bool) :
    OnlyIn [.io, .pwr] s (emit (touch s) (.unsupported write)) := onlyIn_of_pick (by simp)

/-- Settles O49: an access of another size is answered as unsupported (`exec_bar0BadAccess`), and so is one of a
register row at an offset that is not aligned (`busWrite_misaligned`, `busRead_misaligned`). -/
theorem accessSizes : Obligations.AccessSizes := by
  unfold Obligations.AccessSizes
  refine ⟨?badRead, ?badWrite, ?word, ?lowWrite, ?highWrite, ?lowRead⟩
  case badRead =>
    intro off s up
    exact ⟨_, exec_bar0BadAccess up false, rfl, touch_regs s, touch_latches s, unsupported_onlyIn s false⟩
  case badWrite =>
    intro off s up
    exact ⟨_, exec_bar0BadAccess up true, rfl, touch_regs s, touch_heldLow s, unsupported_onlyIn s true⟩
  case word =>
    intro off v s up odd
    exact ⟨_, congrArg Host.Outcome.next (busWrite_misaligned up odd v), rfl, unsupported_onlyIn s true⟩
  case lowWrite =>
    intro off v s up odd
    exact ⟨_, congrArg Host.Outcome.next (busWrite_misaligned up odd v), rfl, unsupported_onlyIn s true⟩
  case highWrite =>
    intro off v s up odd
    exact ⟨_, congrArg Host.Outcome.next (busWrite_misaligned up odd v), rfl, unsupported_onlyIn s true⟩
  case lowRead =>
    intro off s up odd
    exact ⟨_, congrArg Host.Outcome.next (busRead_misaligned up odd), rfl, unsupported_onlyIn s false⟩

/-! ### What records, interrupts and events leave of a ring (R291, R299, R303) -/

/-- A ring's state and work, without what moves as records are written to it: the device's side of it, its arming, the
records that wait, and OVERRUN. -/
def ringWork (x : Ring) : Ring :=
  { x with armed := false, phase := false, dev := 0, overrun := false, backlog := [], reserved := 0 }

/-- Every ring's state and work reads in t as in s. -/
def WorkOn (s t : State) : Prop := ∀ r, ringWork (getRing t r) = ringWork (getRing s r)

section
variable {s t u : State}

theorem WorkOn.refl : WorkOn s s := fun _ => rfl

theorem WorkOn.trans (h : WorkOn s t) (k : WorkOn t u) : WorkOn s u := fun r => (k r).trans (h r)

theorem WorkOn.of_rings (rings : t.io.rings = s.io.rings) : WorkOn s t := fun r => by simp only [getRing, rings]

section
variable (h : WorkOn s t) (r : RingId)
include h

theorem WorkOn.st : (getRing t r).st = (getRing s r).st := (congrArg Ring.st (h r) :)
theorem WorkOn.host : (getRing t r).host = (getRing s r).host := (congrArg Ring.host (h r) :)
theorem WorkOn.errCause : (getRing t r).errCause = (getRing s r).errCause := (congrArg Ring.errCause (h r) :)
theorem WorkOn.cmds : (getRing t r).cmds = (getRing s r).cmds := (congrArg Ring.cmds (h r) :)
theorem WorkOn.bufs : (getRing t r).bufs = (getRing s r).bufs := (congrArg Ring.bufs (h r) :)
theorem WorkOn.running : (getRing t r).running = (getRing s r).running := (congrArg Ring.running (h r) :)
theorem WorkOn.taken : (getRing t r).taken = (getRing s r).taken := (congrArg Ring.taken (h r) :)

end

theorem workOn_setRing {q : RingId} {x : Ring} (same : ringWork x = ringWork (getRing s q)) :
    WorkOn s (setRing s q x) := by
  intro r
  by_cases e : r = q
  · subst e
    rw [getRing_setRing_self, same]
  · rw [getRing_setRing_ne _ _ e]

theorem workOn_ringRequest (r : RingId) : WorkOn s (ringRequest s r) := by
  unfold ringRequest
  simp only []
  split
  · refine WorkOn.trans (t := setRing s r { getRing s r with armed := false }) (workOn_setRing rfl) ?_
    exact .of_rings (vecCheck_rings _ _)
  · split
    · exact .of_rings (vecCheck_rings _ _)
    · exact .refl

theorem workOn_putRecord (q : RingId) (r : Completion) : WorkOn s (putRecord s q r) := by
  refine WorkOn.trans ?_ (workOn_ringRequest q)
  exact workOn_setRing (s := emit s _) rfl

theorem workOn_putCompletion (q : RingId) (r : Completion) : WorkOn s (putCompletion s q r) := by
  unfold putCompletion
  simp only []
  split
  · exact workOn_putRecord q r
  · exact workOn_setRing rfl

theorem workOn_completeBuf (kind : BitVec 3) (k : Taken) (status : BitVec 8) (bytes : Nat) :
    WorkOn s (completeBuf s kind k status bytes) := workOn_putCompletion _ _

theorem workOn_putReserved (q : RingId) (r : Completion) : WorkOn s (putReserved s q r) := by
  have freed : WorkOn s (setRing s q { getRing s q with reserved := (getRing s q).reserved - 1 }) := workOn_setRing rfl
  unfold putReserved
  simp only []
  split
  · exact freed.trans (workOn_putRecord q r)
  · exact freed.trans (workOn_setRing rfl)

theorem workOn_flushList (l : List Completion) (s : State) (q : RingId) : WorkOn s (flushList l s q).1 := by
  induction l generalizing s with
  | nil => exact .refl
  | cons r l ih =>
    unfold flushList
    split
    · exact (workOn_putRecord q r).trans (ih _)
    · exact .refl

theorem workOn_flushBacklog (q : RingId) : WorkOn s (flushBacklog s q) := by
  unfold flushBacklog
  simp only []
  split
  · exact .refl
  · exact (workOn_flushList _ _ q).trans (workOn_setRing rfl)

theorem flushBacklog_nil {q : RingId} (nothing : (getRing s q).backlog = []) : flushBacklog s q = s := by
  simp [flushBacklog, nothing]

/-- A posted event may mark a ring's OVERRUN, and changes nothing else of it (R299). -/
theorem getRing_markLost (s : State) (old new : EvBuf) (r : RingId) :
    ∃ b, getRing (markLost s old new) r = { getRing s r with overrun := b } := by
  have marked : { getRing (markLost s old new) r with overrun := false } = { getRing s r with overrun := false } := by
    refine forEach_keeps (fun t => { getRing t r with overrun := false }) (fun t e => ?_) _ s
    split
    · rename_i q _
      by_cases same : r = q
      · subst same
        rw [getRing_modRing_self]
      · rw [getRing_modRing_ne _ _ same]
    · rfl
  refine ⟨(getRing (markLost s old new) r).overrun, ?_⟩
  exact congrArg (fun x : Ring => { x with overrun := (getRing (markLost s old new) r).overrun }) marked

theorem getRing_pushGlobal (s : State) (e : Event) (r : RingId) :
    ∃ b, getRing (pushGlobal s e) r = { getRing s r with overrun := b } := by
  unfold pushGlobal
  simp only []
  split
  · exact ⟨_, rfl⟩
  · exact getRing_markLost _ _ _ r

theorem workOn_pushGlobal (e : Event) : WorkOn s (pushGlobal s e) := by
  intro r
  obtain ⟨b, same⟩ := getRing_pushGlobal s e r
  rw [same]
  rfl

theorem workOn_postGlobal (g : Nat) (l : List Fld) : WorkOn s (postGlobal s g l) :=
  WorkOn.trans (t := bumpGen s (globalSrc g)) (.of_rings rfl) (workOn_pushGlobal _)

end

/-! ### Commands that complete at their ring's head, and rings that fail (R277, R288, R543) -/

/-- A command ring once its head has left it. -/
def headGone (s : State) (r : RingId) (rest : List CmdDesc) : State :=
  setRing s r { getRing s r with
    cmds := rest, dev := nextIndex s r (getRing s r).dev, fetched := false, entry := false }

section
variable {s : State} {r : RingId}

theorem workOn_completeHead (d : CmdDesc) (rest : List CmdDesc) (status : BitVec 8) (result : BitVec 64) :
    WorkOn (headGone s r rest) (completeHead s r d rest status result) := by
  unfold completeHead
  simp only []
  split
  · exact workOn_putReserved _ _
  · exact workOn_putCompletion _ _

theorem completeHead_gens (d : CmdDesc) (rest : List CmdDesc) (status : BitVec 8) (result : BitVec 64) :
    (completeHead s r d rest status result).io.gens = s.io.gens := by
  unfold completeHead
  simp only []
  split
  · exact putReserved_gens _ _ _
  · exact putCompletion_gens _ _ _

/-- A head whose entry is reserved completes with its record (R288, R291). -/
theorem completeHead_answers {d : CmdDesc} {rest : List CmdDesc} {c : Cmd} (entry : (getRing s r).entry = true)
    (idle : (getRing s r).running = none) (head : c = headCmd r (getRing s r).dev d) (status : BitVec 8)
    (result : BitVec 64) :
    (getRing (completeHead s r d rest status result) r).cmds = rest ∧
      Answered s (completeHead s r d rest status result) c d.opcode.toNat status result := by
  subst head
  have work := workOn_completeHead (s := s) (r := r) d rest status result
  refine ⟨by rw [work.cmds, headGone, getRing_setRing_self], ?_, ?_⟩
  · exact (work.running r).trans (by rw [headGone, getRing_setRing_self, idle])
  · obtain ⟨-, recorded⟩ := putReserved_recorded (headGone s r rest) (ringCq s r)
      (cmdRecord (headGone s r rest) d.opcode.toNat (headCmd r (getRing s r).dev d) status result)
    have written : completeHead s r d rest status result = putReserved (headGone s r rest) (ringCq s r)
        (cmdRecord (headGone s r rest) d.opcode.toNat (headCmd r (getRing s r).dev d) status result) := by
      unfold completeHead
      exact if_pos entry
    exact ⟨_, written ▸ recorded, rfl, rfl, rfl, rfl, rfl, rfl, rfl⟩

theorem workOn_ringFault (cause : Nat) : WorkOn s (ringFault s r cause) := by
  unfold ringFault
  simp only []
  split
  · exact (workOn_postGlobal _ _).trans (.of_rings (msixSend_rings _ _))
  · exact workOn_postGlobal _ _

theorem posted_ringFault (cause : Nat) : Posted s (ringFault s r cause) (globalSrc 112) 1 := by
  unfold ringFault
  simp only []
  split
  · exact (genOf_of_gens (msixSend_gens _ _) _).trans (posted_postGlobal _ _ _)
  · exact posted_postGlobal _ _ _

/-- A ring in ERROR before its head is returned: nothing is left to take (R276). -/
def ringHalted (s : State) (r : RingId) (cause : Nat) : State :=
  setRing s r { getRing s r with st := .error, errCause := BitVec.ofNat 8 cause, bufs := [] }

/-- A ring that fails returns a head that was fetched, drops the rest, and posts RING_FAULT. -/
theorem ringError_halts (s : State) (r : RingId) (cause : Nat) :
    ∃ u, ringError s r cause =
        ringFault (modRing u r fun y => { y with cmds := [], fetched := false, entry := false }) r cause ∧
      u.io.gens = s.io.gens ∧ (getRing u r).st = .error ∧ (getRing u r).errCause = BitVec.ofNat 8 cause := by
  unfold ringError
  simp only []
  split
  · rename_i d rest _ _
    have work := workOn_completeHead (s := ringHalted s r cause) (r := r) d rest stSuperseded 0
    refine ⟨_, rfl, completeHead_gens _ _ _ _, (work.st r).trans ?_, (work.errCause r).trans ?_⟩
    · rw [headGone, getRing_setRing_self, ringHalted, getRing_setRing_self]
    · rw [headGone, getRing_setRing_self, ringHalted, getRing_setRing_self]
  · refine ⟨_, rfl, rfl, ?_, ?_⟩
    · rw [getRing_setRing_self]
    · rw [getRing_setRing_self]

/-- A ring that fails stands in ERROR with its cause and no commands, and RING_FAULT is posted once (R276, R277). -/
theorem ringError_self (s : State) (r : RingId) (cause : Nat) :
    (getRing (ringError s r cause) r).st = .error ∧
      (getRing (ringError s r cause) r).errCause = BitVec.ofNat 8 cause ∧
      (getRing (ringError s r cause) r).cmds = [] ∧ Posted s (ringError s r cause) (globalSrc 112) 1 := by
  obtain ⟨u, ends, gens, st, err⟩ := ringError_halts s r cause
  rw [ends, (workOn_ringFault cause).st, (workOn_ringFault cause).errCause, (workOn_ringFault cause).cmds,
    getRing_modRing_self]
  refine ⟨st, err, rfl, ?_⟩
  exact (posted_ringFault cause).trans (congrArg (· + 1#32) (genOf_of_gens gens _))

end

/-! ### The state that a write of the host acts on (R13, R421) -/

/-- After host activity, with no low word held. -/
def hostWrote (s : State) : State := { touch s with heldLow := none }

section
variable (s : State)

@[simp] theorem getRing_hostWrote (r : RingId) : getRing (hostWrote s) r = getRing s r := getRing_touch s r

@[simp] theorem regVal_hostWrote (off : Nat) : regVal (hostWrote s) off = regVal s off := regVal_touch s off

@[simp] theorem ringType_hostWrote (r : RingId) : ringType (hostWrote s) r = ringType s r := by simp [ringType]

@[simp] theorem ringSize_hostWrote (r : RingId) : ringSize (hostWrote s) r = ringSize s r := by
  simp [ringSize, ringLog2]

@[simp] theorem ringCq_hostWrote (r : RingId) : ringCq (hostWrote s) r = ringCq s r := by simp [ringCq]

@[simp] theorem isInRing_hostWrote (r : RingId) : isInRing (hostWrote s) r = isInRing s r := by simp [isInRing]

@[simp] theorem unconsumed_hostWrote (r : RingId) : unconsumed (hostWrote s) r = unconsumed s r := by
  simp [unconsumed]

theorem touch_rings : (touch s).io.rings = s.io.rings := by
  unfold touch
  split
  · exact mirrorWrite_rings _ _
  · rfl

theorem touch_gens : (touch s).io.gens = s.io.gens := by
  unfold touch
  split
  · exact mirrorWrite_gens _ _
  · rfl

@[simp] theorem hostWrote_rings : (hostWrote s).io.rings = s.io.rings := touch_rings s

@[simp] theorem hostWrote_gens : (hostWrote s).io.gens = s.io.gens := touch_gens s

@[simp] theorem hostWrote_mgmtDown : (hostWrote s).fw.mgmtDown = s.fw.mgmtDown :=
  congrArg Fw.mgmtDown (touch_onlyIn s .fw (by simp))

theorem hostWrote_run {s : State} (run : s.pwr.st = .run) : hostWrote s = { s with heldLow := none } := by
  rw [hostWrote, touch_run run]

theorem hostWrote_onlyIn {s : State} (run : s.pwr.st = .run) : OnlyIn [.heldLow] s (hostWrote s) := by
  rw [hostWrote_run run]
  exact onlyIn_of_pick (by simp)

theorem hostWrote_awake {s : State} (run : s.pwr.st = .run) : (hostWrote s).pwr.st = .run := by
  rw [hostWrote_run run]
  exact run

/-- What is posted after host activity is posted since before it. -/
theorem posted_hostWrote {s t : State} {src n : Nat} (k : Posted (hostWrote s) t src n) : Posted s t src n := by
  rw [Posted, k, genOf_of_gens (hostWrote_gens s)]

end

/-! ### The doorbells that a write covers (R282, R285) -/

theorem leBytes_length (n v : Nat) : (leBytes n v).length = n := by
  induction n generalizing v with
  | zero => rfl
  | succ n ih => simp [leBytes, ih]

theorem leNat_leBytes (n v : Nat) : leNat (leBytes n v) = v % 256 ^ n := by
  induction n generalizing v with
  | zero => simp [leBytes, leNat, Nat.mod_one]
  | succ n ih =>
    have low : (BitVec.ofNat 8 v).toNat = v % 256 := BitVec.toNat_ofNat v 8
    rw [leBytes, leNat, ih, low, Nat.pow_succ', Nat.mod_mul]

theorem word_leBytes (w : BitVec 32) : BitVec.ofNat 32 (leNat (leBytes 4 w.toNat)) = w := by
  have fits : w.toNat % 256 ^ 4 = w.toNat := Nat.mod_eq_of_lt w.isLt
  rw [leNat_leBytes, fits, BitVec.ofNat_toNat, BitVec.setWidth_eq]

theorem doorbell_addr (r : RingId) : (BitVec.ofNat 18 (16 * r.val)).toNat = 16 * r.val := by
  rw [BitVec.toNat_ofNat]
  exact Nat.mod_eq_of_lt (by omega)

/-- One doorbell of a write of some bytes from its own address on, at a place from there. -/
def bellAt (r : RingId) (bytes : List Byte) (i : Nat) : Option (RingId × BitVec 32) :=
  if h : r.val + i < 16384 then
    if 16 * i + 4 ≤ bytes.length then
      some (⟨r.val + i, h⟩, BitVec.ofNat 32 (leNat ((bytes.drop (16 * i)).take 4)))
    else none
  else none

theorem bellsOf_doorbell (r : RingId) (bytes : List Byte) :
    bellsOf (BitVec.ofNat 18 (16 * r.val)) bytes =
      (List.range (bytes.length / 16 + 2)).filterMap (bellAt r bytes) := by
  unfold bellsOf
  rw [doorbell_addr]
  congr 1
  funext i
  have place : 16 * r.val / 16 + i = r.val + i := by omega
  have covers : (16 * r.val ≤ 16 * (r.val + i) ∧ 16 * (r.val + i) + 4 ≤ 16 * r.val + bytes.length) ↔
      16 * i + 4 ≤ bytes.length := by omega
  have skip : 16 * (r.val + i) - 16 * r.val = 16 * i := by omega
  simp only [place, covers, skip, bellAt]

theorem bellsOf_word (r : RingId) (w : BitVec 32) :
    bellsOf (BitVec.ofNat 18 (16 * r.val)) (leBytes 4 w.toNat) = [(r, w)] := by
  have whole : (leBytes 4 w.toNat).take 4 = leBytes 4 w.toNat := List.take_of_length_le (by simp [leBytes_length])
  simp [bellsOf_doorbell, bellAt, leBytes_length, List.range_succ, whole, word_leBytes]

theorem bellsOf_pair {r q : RingId} (next : q.val = r.val + 1) (v w : BitVec 32) :
    bellsOf (BitVec.ofNat 18 (16 * r.val)) (leBytes 4 v.toNat ++ List.replicate 12 0 ++ leBytes 4 w.toNat) =
      [(r, v), (q, w)] := by
  have before : (leBytes 4 v.toNat ++ List.replicate 12 0 ++ leBytes 4 w.toNat).take 4 = leBytes 4 v.toNat := by
    rw [List.append_assoc, List.take_append_of_le_length (by simp [leBytes_length])]
    exact List.take_of_length_le (by simp [leBytes_length])
  have after : ((leBytes 4 v.toNat ++ List.replicate 12 0 ++ leBytes 4 w.toNat).drop 16).take 4 =
      leBytes 4 w.toNat := by
    rw [List.drop_left' (by simp [leBytes_length])]
    exact List.take_of_length_le (by simp [leBytes_length])
  have low : r.val + 1 < 16384 := next ▸ q.isLt
  have there : (⟨r.val + 1, low⟩ : RingId) = q := Fin.ext next.symm
  have size : (leBytes 4 v.toNat ++ List.replicate 12 0 ++ leBytes 4 w.toNat).length = 20 := by simp [leBytes_length]
  generalize leBytes 4 v.toNat ++ List.replicate 12 0 ++ leBytes 4 w.toNat = bytes at before after size ⊢
  simp [bellsOf_doorbell, bellAt, size, List.range_succ, before, after, word_leBytes, low, there]

/-- A write of less than a word covers no doorbell. -/
theorem bellsOf_short (addr : BitVec 18) {bytes : List Byte} (short : bytes.length < 4) : bellsOf addr bytes = [] := by
  unfold bellsOf
  refine List.filterMap_eq_nil_iff.mpr fun i _ => ?_
  have none : ¬ (addr.toNat ≤ 16 * (addr.toNat / 16 + i) ∧
      16 * (addr.toNat / 16 + i) + 4 ≤ addr.toNat + bytes.length) := by omega
  simp only [none, if_false, dite_eq_ite, ite_self]

/-! ### What a doorbell does with its ring (R282, R283, R425) -/

section
variable {s : State} {r : RingId}

/-- A ring whose descriptors keep Table 16 returns none of them (R294). -/
theorem cleanHead_kept (good : (getRing s r).bufs.all (descOk (isInRing s r)) = true) : cleanHead s r = s := by
  unfold cleanHead
  cases bufs : (getRing s r).bufs with
  | nil => rfl
  | cons d rest =>
    rw [bufs, List.all_cons, Bool.and_eq_true] at good
    rw [skipBad, if_pos good.1]

/-- The entries from the host's index up to a doorbell's (R282). -/
def advance (s : State) (r : RingId) (idx : Nat) : Nat :=
  (idx + ringSize s r - (getRing s r).host.toNat) % ringSize s r

/-- A command ring whose doorbell has handed over the descriptors up to its index. -/
def cmdsPosted (s : State) (r : RingId) (idx : Nat) (descs : List (List Byte)) : State :=
  setRing s r { getRing s r with
    host := BitVec.ofNat 16 idx
    cmds := (getRing s r).cmds ++ (entries (advance s r idx) descs).map cmdDescOf }

/-- A data ring's buffers once a doorbell has handed over the descriptors up to its index. -/
def bufsUpTo (s : State) (r : RingId) (idx : Nat) (descs : List (List Byte)) : List DataDesc :=
  (getRing s r).bufs ++ (entries (advance s r idx) descs).map dataDescOf

/-- A data ring whose doorbell has handed over the descriptors up to its index: they are fetched at once (R270). -/
def bufsPosted (s : State) (r : RingId) (idx : Nat) (descs : List (List Byte)) : State :=
  setRing (fetchFrom s r (getRing s r).host.toNat (advance s r idx)) r { getRing s r with
    host := BitVec.ofNat 16 idx, bufs := bufsUpTo s r idx descs }

theorem cmdsPosted_onlyIn (s : State) (r : RingId) (idx : Nat) (descs : List (List Byte)) :
    OnlyIn [.io] s (cmdsPosted s r idx descs) := onlyIn_of_pick (by simp [cmdsPosted])

theorem bufsPosted_onlyIn (s : State) (r : RingId) (idx : Nat) (descs : List (List Byte)) :
    OnlyIn [.io] s (bufsPosted s r idx descs) := onlyIn_of_pick (by simp [bufsPosted])

section
variable {idx : Nat} {descs : List (List Byte)} (known : idx < ringSize s r)
  (room : ((getRing s r).host.toNat + ringSize s r - (getRing s r).dev.toNat) % ringSize s r + advance s r idx <
    ringSize s r)
include known room

theorem doorbellPost_cmds (type : ringType s r = 0) : doorbellPost s r idx descs = cmdsPosted s r idx descs := by
  unfold advance at room
  simp only [doorbellPost, Nat.not_le.mpr known, Nat.not_le.mpr room, type, if_false, if_true]
  rfl

theorem doorbellPost_bufs (type : ringType s r ≠ 0)
    (good : (bufsUpTo s r idx descs).all (descOk (isInRing s r)) = true) :
    doorbellPost s r idx descs = bufsPosted s r idx descs := by
  have regs : (bufsPosted s r idx descs).regs = s.regs := bufsPosted_onlyIn s r idx descs .regs (by simp)
  have same : isInRing (bufsPosted s r idx descs) r = isInRing s r := by simp [isInRing, ringType, regVal, regs]
  have kept : cleanHead (bufsPosted s r idx descs) r = bufsPosted s r idx descs :=
    cleanHead_kept (by rw [same, bufsPosted, getRing_setRing_self]; exact good)
  unfold advance at room
  simp only [doorbellPost, Nat.not_le.mpr known, Nat.not_le.mpr room, type, if_false]
  exact kept

end

theorem doorbellPost_bad {idx : Nat} (past : ringSize s r ≤ idx) (descs : List (List Byte)) :
    doorbellPost s r idx descs = ringError s r 4 := by
  simp only [doorbellPost, past, if_true]

/-- Entries that a doorbell returns: the ring's state stays, and its index is the one written. -/
theorem doorbellReturn_self {idx : Nat} (known : idx < ringSize s r)
    (held : (idx + ringSize s r - (getRing s r).host.toNat) % ringSize s r ≤ unconsumed s r) (arm : Bool) :
    (getRing (doorbellReturn s r idx arm) r).host = BitVec.ofNat 16 idx ∧
      (getRing (doorbellReturn s r idx arm) r).st = (getRing s r).st := by
  simp only [doorbellReturn, Nat.not_le.mpr known, Nat.not_lt.mpr held, if_false]
  generalize armed : setRing s r { getRing s r with
    host := BitVec.ofNat 16 idx, armed := (getRing s r).armed || arm } = u
  have work : WorkOn u (ringRequest (flushBacklog (ringRequest u r) r) r) :=
    ((workOn_ringRequest r).trans (workOn_flushBacklog r)).trans (workOn_ringRequest r)
  rw [work.host, work.st, ← armed, getRing_setRing_self]
  exact ⟨rfl, rfl⟩

/-- The wake that a doorbell of a herd's or a port's command ring is (R425). -/
def bellWakes (s : State) (r : RingId) : State :=
  if localRing s r && (getRing s r).st == .active then wakeSource s 4 else s

theorem doorbellAct_host (active : (getRing s r).st = .active)
    (type : ringType s r = 0 ∨ ringType s r = 3 ∨ ringType s r = 4) (word : BitVec 32) (descs : List (List Byte)) :
    doorbellAct s r word descs = bellWakes (doorbellPost s r (fld word 0 16) descs) r := by
  simp [doorbellAct, active, type, or_assoc, bellWakes]

theorem doorbellAct_device (active : (getRing s r).st = .active) (type : ringType s r = 1 ∨ ringType s r = 2)
    (word : BitVec 32) (descs : List (List Byte)) :
    doorbellAct s r word descs = bellWakes (doorbellReturn s r (fld word 0 16) (word.getLsbD 16)) r := by
  rcases type with type | type <;> simp [doorbellAct, active, type, bellWakes]

theorem bellWakes_run (run : s.pwr.st = .run) : bellWakes s r = s := by
  simp [bellWakes, wakeSource, run]

/-- In Run a doorbell wakes nothing: the ring is left as its descriptors are handed over. -/
theorem doorbellAct_posts {word : BitVec 32} {descs : List (List Byte)} {t : State} (run : s.pwr.st = .run)
    (active : (getRing s r).st = .active) (type : ringType s r = 0 ∨ ringType s r = 3 ∨ ringType s r = 4)
    (posts : doorbellPost s r (fld word 0 16) descs = t) (frame : OnlyIn [.io] s t) :
    doorbellAct s r word descs = t := by
  have awake : t.pwr.st = .run := (congrArg Pwr.st (frame .pwr (by simp))).trans run
  rw [doorbellAct_host active type, posts, bellWakes_run awake]

theorem bellWakes_stopped (st : (getRing s r).st ≠ .active) : bellWakes s r = s := by
  simp [bellWakes, st]

theorem bellWakes_type (type : ringType s r ≠ 0) : bellWakes s r = s := by
  simp [bellWakes, localRing, type]

end

/-! ### Doorbell writes (R282, R285, R286) -/

section
variable {s : State} (up : busUp s = true)
include up

theorem exec_doorbellWrite (addr : BitVec 18) (bytes : List Byte) (work : List Handed) :
    exec (.doorbellWrite addr bytes work) s =
      .next (forEach (bellsOf addr bytes) (doorbellOne work) (hostWrote s)) := by
  simp [exec, execDoorbellWrite, up, hostWrote]

section
variable (r : RingId) (word : BitVec 32) (descs : List (List Byte))

theorem exec_doorbellWrite_word (manages : s.fw.mgmtDown = false) :
    exec (.doorbellWrite (BitVec.ofNat 18 (16 * r.val)) (leBytes 4 word.toNat) [⟨r, descs⟩]) s =
      .next (doorbellAct (hostWrote s) r word descs) := by
  rw [exec_doorbellWrite up, bellsOf_word]
  simp [forEach, doorbellOne, manages, handedTo]

theorem exec_doorbellWrite_down (down : s.fw.mgmtDown = true) :
    exec (.doorbellWrite (BitVec.ofNat 18 (16 * r.val)) (leBytes 4 word.toNat) [⟨r, descs⟩]) s =
      .next (doorbellLatch (hostWrote s) r word descs) := by
  rw [exec_doorbellWrite up, bellsOf_word]
  simp [forEach, doorbellOne, down, handedTo]

end

end

/-! ### The command at a ring's head (R287 to R291) -/

section
variable {s : State} {r : RingId}

theorem getRing_reserveEntry (s : State) (r : RingId) :
    ∃ b, getRing (reserveEntry s r) r = { getRing s r with entry := b } := by
  unfold reserveEntry
  simp only []
  split
  · exact ⟨_, rfl⟩
  · split
    · exact ⟨true, getRing_setRing_self _ _ _⟩
    · exact ⟨_, rfl⟩

/-- A head that stands ready is fetched; whether its entry is reserved depends on its completion ring. -/
theorem getRing_headReady (s : State) (r : RingId) :
    ∃ b, getRing (headReady s r) r = { getRing s r with fetched := true, entry := b } := by
  unfold headReady
  simp only []
  obtain ⟨b, same⟩ := getRing_reserveEntry (setRing (if (getRing s r).fetched then s else
    fetchFrom s r (getRing s r).dev.toNat 1) r { getRing s r with fetched := true }) r
  refine ⟨b, same.trans ?_⟩
  rw [getRing_setRing_self]

theorem headReady_onlyIn (s : State) (r : RingId) : OnlyIn [.io] s (headReady s r) := onlyIn_of_pick (by simp)

section
variable (writes : canWrite s = true) (active : (getRing s r).st = .active) (type : ringType s r = 0)
  (idle : (getRing s r).running = none) {d : CmdDesc} {rest : List CmdDesc} (head : (getRing s r).cmds = d :: rest)
  (served : (localRing s r && (blocksOff s || enteringLow s)) = false)
  (entry : (getRing (headReady s r) r).entry = true)
include writes active type idle head served entry

theorem exec_ringDispatch_refused {e : BitVec 8 × BitVec 64}
    (bad : engineCheck (headReady s r) r (headCmd r (getRing s r).dev d) d = some e) :
    exec (.ringDispatch r) s = .next (completeHead (headReady s r) r d rest e.1 e.2) := by
  simp [exec, execRingDispatch, writes, active, type, idle, dispatchStep, head, served, entry, bad]

theorem exec_ringDispatch_taken {g : Target}
    (good : engineCheck (headReady s r) r (headCmd r (getRing s r).dev d) d = none)
    (target : targetOf d.target = some g) (free : targetHolds (headReady s r) g = false)
    (turn : rotaTurn (headReady s r) r g = true) (mode : modeBad (headReady s r) d g = none) :
    exec (.ringDispatch r) s = .next (dispatchHead (headReady s r) r d rest g) := by
  simp [exec, execRingDispatch, writes, active, type, idle, dispatchStep, head, served, entry, good, target, free,
    turn, mode]

end

theorem exec_ringDispatch_busy (busy : (getRing s r).running ≠ none) : exec (.ringDispatch r) s = .next s := by
  simp [exec, execRingDispatch, busy]

/-- A dispatched command runs on its ring, which has moved on, and waits in its target's queue (R289, R290). -/
theorem dispatchHead_self (s : State) (r : RingId) (d : CmdDesc) (rest : List CmdDesc) (g : Target) :
    getRing (dispatchHead s r d rest g) r = { getRing s r with
      cmds := rest, dev := nextIndex s r (getRing s r).dev, fetched := false, entry := false
      running := some (headCmd r (getRing s r).dev d) } ∧
    (∀ h, targetHerd g = some h →
      headCmd r (getRing s r).dev d ∈ (getHerd (dispatchHead s r d rest g) h).queue) ∧
    (targetHerd g = none → headCmd r (getRing s r).dev d ∈ (dispatchHead s r d rest g).io.hubQueue) := by
  unfold dispatchHead
  simp only []
  cases herd : targetHerd g with
  | some h => simp [getRing, setRing]
  | none => simp [getRing, setRing]

end

/-- Settles O15: `exec_doorbellWrite…` and `exec_ringDispatch…` say which state each row leads to. Of that state
`doorbellPost_…`, `doorbellReturn_self` and `ringError_self` say what a doorbell leaves of its ring,
`dispatchHead_self` and `completeHead_answers` what the engine does with a head. What a latched doorbell keeps is the
model's reading (log 19), and so is that a doorbell write lets a held low word go (near log 62). -/
theorem doorbellRows : Obligations.DoorbellRows := by
  unfold Obligations.DoorbellRows
  refine ⟨?posted, ?buffers, ?past, ?returned, ?latched, ?pair, ?short, ?taken, ?refused, ?bad, ?busy⟩
  case posted =>
    intro r word descs s up manages run active type known room
    refine ⟨_, exec_doorbellWrite_word up r word descs manages, ?_⟩
    have frame := cmdsPosted_onlyIn (hostWrote s) r (fld word 0 16) descs
    have posts := doorbellPost_cmds (s := hostWrote s) (r := r) (descs := descs) (by simpa using known)
      (by simpa [advance] using room) (by simpa using type)
    rw [doorbellAct_posts (hostWrote_awake run) (by simpa using active) (by simp [type]) posts frame, cmdsPosted,
      getRing_setRing_self]
    exact ⟨rfl, by simp [advance], onlyIn_trans (hostWrote_onlyIn run) frame⟩
  case buffers =>
    intro r word descs s up manages run active type good known room
    refine ⟨_, exec_doorbellWrite_word up r word descs manages, ?_⟩
    have data : ringType s r ≠ 0 := by omega
    have frame := bufsPosted_onlyIn (hostWrote s) r (fld word 0 16) descs
    have posts := doorbellPost_bufs (s := hostWrote s) (r := r) (descs := descs) (by simpa using known)
      (by simpa [advance] using room) (by simpa using data) (by simpa [bufsUpTo, advance] using good)
    rw [doorbellAct_posts (hostWrote_awake run) (by simpa using active) (by simp [type]) posts frame, bufsPosted,
      getRing_setRing_self]
    exact ⟨rfl, by simp [bufsUpTo, advance], onlyIn_trans (hostWrote_onlyIn run) frame⟩
  case past =>
    intro r word descs s up manages active type past
    refine ⟨_, exec_doorbellWrite_word up r word descs manages, ?_⟩
    obtain ⟨st, err, -, posted⟩ := ringError_self (hostWrote s) r 4
    rw [doorbellAct_host (by simpa using active) (by simpa using type), doorbellPost_bad (by simpa using past),
      bellWakes_stopped (by rw [st]; decide)]
    exact ⟨st, err, posted_hostWrote posted⟩
  case returned =>
    intro r word descs s up manages active type known held
    refine ⟨_, exec_doorbellWrite_word up r word descs manages, ?_⟩
    obtain ⟨host, st⟩ := doorbellReturn_self (s := hostWrote s) (r := r) (idx := fld word 0 16) (by simpa using known)
      (by simpa using held) (word.getLsbD 16)
    have frame : OnlyIn [.io] (hostWrote s) (doorbellReturn (hostWrote s) r (fld word 0 16) (word.getLsbD 16)) :=
      onlyIn_of_pick (by simp)
    have regs := (frame .regs (by simp)).trans (touch_regs s)
    have device : ringType (doorbellReturn (hostWrote s) r (fld word 0 16) (word.getLsbD 16)) r ≠ 0 := by
      simp only [ringType, regVal, regs] at type ⊢
      omega
    rw [doorbellAct_device (by simpa using active) (by simpa using type), bellWakes_type device]
    exact ⟨host, st.trans (by simpa using active)⟩
  case latched =>
    intro r word descs s up down run
    refine ⟨_, exec_doorbellWrite_down up r word descs down, ?_⟩
    rw [hostWrote_run run]
    exact ⟨tabGet_tabSet_self .., rfl, onlyIn_of_pick (by simp)⟩
  case pair =>
    intro r q v w work s up next
    refine ⟨_, exec_doorbellWrite up _ _ work, ?_⟩
    rw [bellsOf_pair next]
    rfl
  case short =>
    intro addr bytes work s up short
    refine ⟨_, exec_doorbellWrite up addr bytes work, ?_⟩
    rw [bellsOf_short addr short]
    rfl
  case taken =>
    intro r d rest g s writes active type idle head served entry good target free turn mode
    refine ⟨_, exec_ringDispatch_taken writes active type idle head served entry good target free turn mode, ?_⟩
    obtain ⟨b, ready⟩ := getRing_headReady s r
    have regs : (headReady s r).regs = s.regs := headReady_onlyIn s r .regs (by simp)
    have next (i : BitVec 16) : nextIndex (headReady s r) r i = nextIndex s r i := by
      simp [nextIndex, ringSize, ringLog2, regVal, regs]
    obtain ⟨ring, herd, hub⟩ := dispatchHead_self (headReady s r) r d rest g
    rw [ready] at ring herd hub
    rw [ring, next]
    exact ⟨rfl, rfl, rfl, herd, hub, onlyIn_of_pick (by simp)⟩
  case refused =>
    intro r d rest e s writes active type idle head served entry bad
    refine ⟨_, exec_ringDispatch_refused writes active type idle head served entry bad, ?_⟩
    obtain ⟨b, ready⟩ := getRing_headReady s r
    have regs : (headReady s r).regs = s.regs := headReady_onlyIn s r .regs (by simp)
    obtain ⟨cmds, answered⟩ := completeHead_answers (rest := rest) entry (by rw [ready]; exact idle)
      (c := headCmd r (getRing s r).dev d) (d := d) (by rw [ready]) e.1 e.2
    exact ⟨cmds, Answered.after regs answered⟩
  case bad =>
    intro off write s up
    have rings : (emit (touch s) (.unsupported write)).io.rings = s.io.rings := touch_rings s
    exact ⟨_, exec_bar0BadAccess up write, rfl, rings, unsupported_onlyIn s write⟩
  case busy =>
    intro r s busy
    exact ⟨s, exec_ringDispatch_busy busy, rfl⟩

/-! ### Rings that are enabled and disabled (R275 to R281) -/

/-- A ring whose indices start anew (R275). -/
def ringStarted (s : State) (r : RingId) : State :=
  setRing s r { keepRing (getRing s r) with st := .active, armed := true, phase := true }

/-- An ACTIVE ring whose drain begins (R279 to R281). -/
def ringDraining (s : State) (r : RingId) : State := setRing s r { getRing s r with st := .draining }

section
variable {s : State} {r : RingId}

theorem exec_ringEnable (up : busUp s = true) : exec (.ringEnable r) s = .next (enableRing (hostWrote s) r) := by
  simp [exec, execRingEnable, up, hostWrote]

theorem exec_ringDisable (up : busUp s = true) : exec (.ringDisable r) s = .next (disableRing (hostWrote s) r) := by
  simp [exec, execRingDisable, up, hostWrote]

@[simp] theorem enableCause_hostWrote (s : State) (r : RingId) : enableCause (hostWrote s) r = enableCause s r := by
  have type : ringType (hostWrote s) = ringType s := funext (ringType_hostWrote s)
  have kind : ringBindKind (hostWrote s) = ringBindKind s := funext fun q => by simp [ringBindKind]
  have id : ringBindId (hostWrote s) = ringBindId s := funext fun q => by simp [ringBindId]
  unfold enableCause
  rw [type, kind, id, ringCq_hostWrote, getRing_hostWrote, hostWrote_rings]

/-- An owed REFCLK_LOST may mark a ring's OVERRUN, and changes nothing else of it (R299). -/
theorem getRing_payOwed (s : State) (r : RingId) : ∃ b, getRing (payOwed s) r = { getRing s r with overrun := b } := by
  unfold payOwed postRefclk
  split
  · split
    · split
      · exact getRing_pushGlobal _ _ r
      · exact ⟨_, rfl⟩
    · exact ⟨_, rfl⟩
  · exact ⟨_, rfl⟩

section
variable (off : (getRing s r).st = .disabled)
include off

theorem enableRing_starts (good : enableCause s r = none) :
    enableRing s r = payOwed (flushBacklog (ringStarted s r) r) := by
  simp only [enableRing, off, good, beq_self_eq_true, if_true]
  rfl

theorem enableRing_fails {n : Nat} (bad : enableCause s r = some n) :
    (getRing (enableRing s r) r).st = .disabled ∧ (getRing (enableRing s r) r).errCause = BitVec.ofNat 8 n ∧
      Posted s (enableRing s r) (globalSrc 112) 1 := by
  have fails : enableRing s r = ringFault (setRing s r { getRing s r with errCause := BitVec.ofNat 8 n }) r n := by
    simp only [enableRing, off, bad, beq_self_eq_true, if_true]
  rw [fails, (workOn_ringFault n).st, (workOn_ringFault n).errCause, getRing_setRing_self]
  exact ⟨off, rfl, posted_ringFault (s := setRing s r { getRing s r with errCause := BitVec.ofNat 8 n }) n⟩

end

/-- Commands that are returned leave their ring one by one; its state and the command that runs stay (R279). -/
theorem supersedeAll_self (r : RingId) (l : List CmdDesc) (s : State) (posted : (getRing s r).cmds = l) :
    (getRing (supersedeAll r l s) r).cmds = [] ∧ (getRing (supersedeAll r l s) r).st = (getRing s r).st ∧
      (getRing (supersedeAll r l s) r).running = (getRing s r).running := by
  induction l generalizing s with
  | nil => exact ⟨posted, rfl, rfl⟩
  | cons d rest ih =>
    have work := workOn_completeHead (s := s) (r := r) d rest stSuperseded 0
    have cmds := (work.cmds r).trans (congrArg Ring.cmds (getRing_setRing_self s r _))
    obtain ⟨none, st, running⟩ := ih _ cmds
    refine ⟨none, st.trans ((work.st r).trans ?_), running.trans ((work.running r).trans ?_)⟩
    · rw [headGone, getRing_setRing_self]
    · rw [headGone, getRing_setRing_self]

/-- Buffers that are returned leave their ring one by one; its state and what is taken of it stay (R280). -/
theorem returnAll_self (kind : BitVec 3) (r : RingId) (l : List DataDesc) (s : State)
    (posted : (getRing s r).bufs = l) :
    (getRing (returnAll kind r l s) r).bufs = [] ∧ (getRing (returnAll kind r l s) r).st = (getRing s r).st ∧
      (getRing (returnAll kind r l s) r).taken = (getRing s r).taken := by
  induction l generalizing s with
  | nil => exact ⟨posted, rfl, rfl⟩
  | cons d rest ih =>
    have work := workOn_completeBuf (s := (popBuf s r d rest).2) kind (popBuf s r d rest).1 stSuperseded 0
    have bufs := (work.bufs r).trans (congrArg Ring.bufs (getRing_setRing_self s r _))
    obtain ⟨none, st, taken⟩ := ih _ bufs
    refine ⟨none, st.trans ((work.st r).trans ?_), taken.trans ((work.taken r).trans ?_)⟩
    · rw [popBuf, getRing_setRing_self]
    · rw [popBuf, getRing_setRing_self]

@[simp] theorem getRing_ringDraining (s : State) (r : RingId) :
    getRing (ringDraining s r) r = { getRing s r with st := .draining } := getRing_setRing_self _ _ _

section
variable (active : (getRing s r).st = .active)
include active

/-- A command ring returns what was not dispatched, and what runs goes on (R279). -/
theorem disableRing_cmds (type : ringType s r = 0) :
    (getRing (disableRing s r) r).st = .draining ∧ (getRing (disableRing s r) r).cmds = [] ∧
      (getRing (disableRing s r) r).running = (getRing s r).running := by
  have drains : disableRing s r = supersedeAll r (getRing s r).cmds (ringDraining s r) := by
    simp only [disableRing, active, type]
    rfl
  obtain ⟨cmds, st, running⟩ := supersedeAll_self r (getRing s r).cmds (ringDraining s r) (by simp)
  rw [drains]
  exact ⟨by simpa using st, cmds, by simpa using running⟩

theorem disableRing_cq (type : ringType s r = 1) : disableRing s r = ringDraining s r := by
  simp only [disableRing, active, type]
  rfl

theorem disableRing_events (type : ringType s r = 2) : disableRing s r = setRing s r (ringOffNow (getRing s r)) := by
  simp only [disableRing, active, type]

/-- A data ring returns what nothing has taken (R280). -/
theorem disableRing_bufs (type : ringType s r = 3 ∨ ringType s r = 4) :
    (getRing (disableRing s r) r).st = .draining ∧ (getRing (disableRing s r) r).bufs = [] ∧
      (getRing (disableRing s r) r).taken = (getRing s r).taken := by
  have drains : ∃ kind, disableRing s r = returnAll kind r (getRing s r).bufs (ringDraining s r) := by
    rcases type with type | type
    · exact ⟨2, by simp only [disableRing, active, type]; rfl⟩
    · exact ⟨3, by simp only [disableRing, active, type]; rfl⟩
  obtain ⟨kind, drains⟩ := drains
  obtain ⟨bufs, st, taken⟩ := returnAll_self kind r (getRing s r).bufs (ringDraining s r) (by simp)
  rw [drains]
  exact ⟨by simpa using st, bufs, by simpa using taken⟩

end

theorem disableRing_error (error : (getRing s r).st = .error) :
    disableRing s r = setRing s r (ringOffNow (getRing s r)) := by
  simp only [disableRing, error]

end

/-! ### What a fault's record and its reaction leave of rings (R381 to R387) -/

/-- A ring's state, the cause of its failure, and the commands that wait on it. -/
def standing (x : Ring) : RingSt × BitVec 8 × List CmdDesc := (x.st, x.errCause, x.cmds)

/-- Every ring stands in t as in s, and RING_FAULT has not been posted. -/
structure RingsStand (s t : State) : Prop where
  rings : ∀ r, standing (getRing t r) = standing (getRing s r)
  gens  : genOf t (globalSrc 112) = genOf s (globalSrc 112)

section
variable {s t u : State}

theorem RingsStand.refl : RingsStand s s := ⟨fun _ => rfl, rfl⟩

theorem RingsStand.trans (h : RingsStand s t) (k : RingsStand t u) : RingsStand s u :=
  ⟨fun r => (k.rings r).trans (h.rings r), k.gens.trans h.gens⟩

/-- A step that leaves rings, vectors, buffers and outputs alone. -/
theorem RingsStand.of_io (io : t.io = s.io) : RingsStand s t :=
  ⟨fun r => by simp only [getRing, io], by simp only [genOf, io]⟩

/-- Records that are written, or events of another source. -/
theorem RingsStand.of_work (work : WorkOn s t) (gens : genOf t (globalSrc 112) = genOf s (globalSrc 112)) :
    RingsStand s t := ⟨fun r => (congrArg standing (work r) :), gens⟩

theorem ringsStand_setRing {q : RingId} {x : Ring} (same : standing x = standing (getRing s q)) :
    RingsStand s (setRing s q x) := by
  refine ⟨fun r => ?_, rfl⟩
  by_cases e : r = q
  · subst e
    rw [getRing_setRing_self, same]
  · rw [getRing_setRing_ne _ _ e]

theorem ringsStand_forEach {α : Type} {f : State → α → State} (each : ∀ s x, RingsStand s (f s x)) (l : List α)
    (s : State) : RingsStand s (forEach l f s) :=
  ⟨fun r => forEach_keeps (fun t => standing (getRing t r)) (fun t x => (each t x).rings r) l s,
    forEach_keeps (fun t => genOf t (globalSrc 112)) (fun t x => (each t x).gens) l s⟩

theorem ringsStand_completeBuf (kind : BitVec 3) (k : Taken) (status : BitVec 8) (bytes : Nat) :
    RingsStand s (completeBuf s kind k status bytes) :=
  .of_work (workOn_completeBuf _ _ _ _) (genOf_of_gens (putCompletion_gens _ _ _) _)

theorem ringsStand_popBuf (r : RingId) (d : DataDesc) (rest : List DataDesc) : RingsStand s (popBuf s r d rest).2 :=
  ringsStand_setRing rfl

theorem ringsStand_finishIn (k : Taken) (bytes : Nat) (fs : List Fld) : RingsStand s (finishIn s k bytes fs) := by
  unfold finishIn
  split
  · have untaken : RingsStand s (untake s k) := ringsStand_setRing rfl
    have put : RingsStand (untake s k) (emit (untake s k) (.data k.desc.addr fs)) := ⟨fun _ => rfl, rfl⟩
    exact (untaken.trans put).trans (ringsStand_completeBuf _ _ _ _)
  · exact .refl

theorem ringsStand_postGlobal {g : Nat} (other : globalSrc 112 ≠ globalSrc g) (l : List Fld) :
    RingsStand s (postGlobal s g l) := .of_work (workOn_postGlobal g l) (genOf_postGlobal_ne s g l other)

theorem ringsStand_postRecord (r : FltRec) : RingsStand s (postRecord s r) := by
  have counted : RingsStand s (bumpGen s (globalSrc 32)) := ⟨fun _ => rfl, genOf_bumpGen_ne s (by decide)⟩
  exact counted.trans (.of_work (workOn_pushGlobal _) (genOf_of_gens (pushGlobal_gens _ _) _))

theorem ringsStand_complete (op : Nat) (c : Cmd) (l : List MirrorObj) (a : BitVec 8) (r : BitVec 64) :
    RingsStand s (complete s op c l a r) := by
  refine ⟨fun q => ?_, genOf_of_gens (complete_gens _ _ _ _ _ _) _⟩
  have written : standing (getRing (forEach l mirrorWrite (dequeue s c)) q) = standing (getRing s q) := by
    have rings := (forEach_keeps (fun t => t.io.rings) mirrorWrite_rings l _).trans (dequeue_rings s c)
    simp only [getRing, rings]
  unfold complete
  simp only []
  split
  · have ended : standing (getRing (modRing (forEach l mirrorWrite (dequeue s c)) c.ring fun x =>
        { x with running := none }) q) = standing (getRing (forEach l mirrorWrite (dequeue s c)) q) :=
      (ringsStand_setRing (by rfl)).rings q
    exact ((congrArg standing (workOn_putReserved _ _ q) :)).trans (ended.trans written)
  · exact written

/-! The end of a self-test, and the reaction (R28, R385, R462). -/

theorem ringsStand_bistDeliver (r : RingId) (fs : List Fld) (l : List DataDesc) (s : State) :
    RingsStand s (bistDeliver r fs l s).1 := by
  induction l generalizing s with
  | nil => exact .refl
  | cons d rest ih =>
    unfold bistDeliver
    simp only []
    split
    · refine RingsStand.trans ?_ (ringsStand_finishIn _ _ _)
      exact (ringsStand_popBuf r d rest).trans (ringsStand_setRing rfl)
    · exact ((ringsStand_popBuf r d rest).trans (ringsStand_completeBuf _ _ _ _)).trans (ih _)

theorem ringsStand_bistTryDeliver (h : HerdId) : RingsStand s (bistTryDeliver s h) := by
  unfold bistTryDeliver
  split
  · simp only []
    split
    · exact (ringsStand_bistDeliver _ _ _ _).trans (.of_io rfl)
    · exact ringsStand_bistDeliver _ _ _ _
  · exact .refl

theorem ringsStand_bistReport (h : HerdId) (k : BistRun) (result : Nat) : RingsStand s (bistReport s h k result) := by
  unfold bistReport
  refine RingsStand.trans ?_ (ringsStand_postGlobal (by decide) _)
  refine RingsStand.trans ?_ (ringsStand_bistTryDeliver h)
  exact .of_io rfl

theorem ringsStand_bistAbort (h : HerdId) : RingsStand s (bistAbort s h) := by
  unfold bistAbort
  split
  · split
    · rename_i k _ _
      refine (ringsStand_bistReport h k 4).trans ?_
      refine RingsStand.trans ?_ (ringsStand_forEach (fun _ _ => ?_) _ _)
      · exact .of_io rfl
      · exact .of_io rfl
    · exact .refl
  · exact .refl

theorem ringsStand_dropCommit (h : HerdId) : RingsStand s (dropCommit s h) := by
  unfold dropCommit
  split
  · refine RingsStand.trans ?_ (ringsStand_complete _ _ _ _ _)
    refine RingsStand.trans ?_ (ringsStand_forEach (fun _ _ => ?_) _ _)
    · exact .of_io rfl
    · exact .of_io rfl
  · exact .refl

theorem ringsStand_abandonHerd (s : State) (h : HerdId) : RingsStand s (abandonHerd s h) := by
  have ended := (ringsStand_bistAbort (s := s) h).trans (ringsStand_dropCommit h)
  unfold abandonHerd
  simp only []
  split
  · exact ended.trans (.of_io rfl)
  · exact ended

theorem openShadow_io (s : State) (w : Shadow) : (openShadow s w).io = s.io := by
  unfold openShadow
  split <;> rfl

theorem ringsStand_react (r : FltRec) : RingsStand s (react s r).2 := by
  unfold react
  simp only []
  split
  · exact .refl
  · split
    · exact .refl
    · split
      · refine RingsStand.trans ?_ (ringsStand_forEach ringsStand_abandonHerd _ _)
        exact .of_io (openShadow_io _ _)
      · split
        · exact .of_io rfl
        · exact .of_io (openShadow_io _ _)

theorem ringsStand_raiseOne (before : List FltRec) (shadows : List Shadow) (s : State) (r : Raise) :
    RingsStand s (raiseOne before shadows s r) := by
  unfold raiseOne
  simp only []
  refine RingsStand.trans (t := (react _ (mkRecord s before shadows r)).2) ?_ (.of_io rfl)
  refine RingsStand.trans ?_ (ringsStand_react _)
  exact .of_io rfl

theorem ringsStand_firstSet (l : List FltRec) : RingsStand s (firstSet s l) := by
  unfold firstSet firstClear
  split
  · exact .refl
  · split
    · exact .refl
    · simp only []
      split <;> exact .of_io rfl

/-- A fault that is raised leaves the rings as they stand: its reaction abandons herds' operations, which end commands
and return buffers (R385). -/
theorem ringsStand_raiseFault (src detail : Nat) : RingsStand s (raiseFault s src detail) := by
  unfold raiseFault collect
  split
  · exact .refl
  · simp only []
    refine RingsStand.trans ?_ (ringsStand_forEach (fun _ r => ringsStand_postRecord r) _ _)
    exact (ringsStand_forEach (ringsStand_raiseOne _ _) _ _).trans (ringsStand_firstSet _)

end

/-! ### Drains and DMA faults (R277, R279 to R281, R295) -/

section
variable {s : State} {r : RingId} (clock : s.clk.refclkOk = true)
include clock

theorem exec_ringDrainDone (draining : (getRing s r).st = .draining) (done : drained s r = true) :
    exec (.ringDrainDone r) s = .next (setRing s r (ringOffNow (getRing s r))) := by
  simp [exec, execRingDrainDone, clock, draining, done]

theorem exec_ringDmaFault (active : (getRing s r).st = .active) :
    exec (.ringDmaFault r) s = .next (raiseFault (ringError s r 0x06) 0xA51 r.val) := by
  simp [exec, execRingDmaFault, clock, active]

/-- A taken buffer is dropped, and a diagnostic or an observation path that held it holds it no longer: rings and what
was put out read as after the drop. -/
theorem exec_dataBufferDmaFault {k : Taken} {l : List Taken} (taken : (getRing s r).taken = k :: l)
    (plain : s.io.snaps.find? (fun n => n.buf == k) = none) :
    ∃ t, exec (.dataBufferDmaFault r) s = .next t ∧ t.io = (dropIn s k stTimeout).io ∧
      t.fw = (dropIn s k stTimeout).fw := by
  simp only [exec, execDataBufferDmaFault, clock, taken, plain, Bool.not_true, Bool.false_eq_true, if_false]
  exact ⟨_, rfl, rfl, rfl⟩

end

theorem recorded_putCompletion (s : State) (q : RingId) (r : Completion) : Recorded (putCompletion s q r) q r := by
  unfold putCompletion
  simp only []
  split
  · exact .inr (quiet_putRecord s q r).2
  · exact .inl (by simp)

/-- A buffer that is dropped leaves its ring's taken ones, with its record (R295). -/
theorem dropIn_first {s : State} {k : Taken} {l : List Taken} (taken : (getRing s k.ring).taken = k :: l)
    (status : BitVec 8) :
    (getRing (dropIn s k status) k.ring).taken = l ∧
      Recorded (dropIn s k status) (ringCq s k.ring) (bufRecord s 2 k status 0) := by
  have held : (getRing s k.ring).taken.contains k = true := by rw [taken]; simp
  simp only [dropIn, held, if_true]
  refine ⟨?_, recorded_putCompletion (untake s k) (ringCq s k.ring) (bufRecord s 2 k status 0)⟩
  rw [completeBuf_taken, untake, getRing_modRing_self, taken, List.erase_cons_head]

/-- Settles O16: `exec_ring…` says which state each row leads to; `enableRing_…` and `disableRing_…` what a write of
RING_CTRL does by the ring's state and type, `supersedeAll_self` and `returnAll_self` what a drain returns, and
`ringsStand_raiseFault` that a fault's own reaction leaves the failed ring as it stands. -/
theorem ringStateRows : Obligations.RingStateRows := by
  unfold Obligations.RingStateRows
  refine ⟨?enabled, ?refused, ?cmds, ?cq, ?bufs, ?off, ?drained, ?dma, ?buffer⟩
  case enabled =>
    intro r s up off good
    refine ⟨_, exec_ringEnable up, ?_⟩
    rw [enableRing_starts (by simpa using off) (by simpa using good)]
    obtain ⟨b, owed⟩ := getRing_payOwed (flushBacklog (ringStarted (hostWrote s) r) r) r
    have work : WorkOn (ringStarted (hostWrote s) r) (flushBacklog (ringStarted (hostWrote s) r) r) :=
      workOn_flushBacklog r
    rw [owed]
    refine ⟨(work.st r).trans ?_, (work.host r).trans ?_, fun nothing => ?_⟩
    · rw [ringStarted, getRing_setRing_self]
    · rw [ringStarted, getRing_setRing_self]
      rfl
    · rw [flushBacklog_nil (by rw [ringStarted, getRing_setRing_self]; simpa [keepRing] using nothing), ringStarted,
        getRing_setRing_self]
      exact ⟨rfl, rfl, rfl⟩
  case refused =>
    intro r n s up off bad
    refine ⟨_, exec_ringEnable up, ?_⟩
    obtain ⟨st, err, posted⟩ := enableRing_fails (s := hostWrote s) (r := r) (by simpa using off) (by simpa using bad)
    exact ⟨st, err, posted_hostWrote posted⟩
  case cmds =>
    intro r s up active type
    obtain ⟨st, cmds, running⟩ := disableRing_cmds (s := hostWrote s) (r := r) (by simpa using active)
      (by simpa using type)
    exact ⟨_, exec_ringDisable up, st, cmds, by simpa using running⟩
  case cq =>
    intro r s up active type
    refine ⟨_, exec_ringDisable up, ?_⟩
    rw [disableRing_cq (by simpa using active) (by simpa using type), getRing_ringDraining]
    exact ⟨rfl, by simp⟩
  case bufs =>
    intro r s up active type
    obtain ⟨st, bufs, taken⟩ := disableRing_bufs (s := hostWrote s) (r := r) (by simpa using active)
      (by simpa using type)
    exact ⟨_, exec_ringDisable up, st, bufs, by simpa using taken⟩
  case off =>
    intro r s up stops
    refine ⟨_, exec_ringDisable up, ?_⟩
    have ends : disableRing (hostWrote s) r = setRing (hostWrote s) r (ringOffNow (getRing (hostWrote s) r)) := by
      rcases stops with error | ⟨active, type⟩
      · exact disableRing_error (by simpa using error)
      · exact disableRing_events (by simpa using active) (by simpa using type)
    rw [ends, getRing_setRing_self]
    exact ⟨rfl, rfl, rfl⟩
  case drained =>
    intro r s draining done clock
    refine ⟨_, exec_ringDrainDone clock draining done, ?_⟩
    rw [getRing_setRing_self]
    exact ⟨rfl, rfl, onlyIn_of_pick (by simp)⟩
  case dma =>
    intro r s active clock
    refine ⟨_, exec_ringDmaFault clock active, ?_⟩
    obtain ⟨st, err, cmds, posted⟩ := ringError_self s r 0x06
    have stands := ringsStand_raiseFault (s := ringError s r 0x06) 0xA51 r.val
    have ring := stands.rings r
    simp only [standing, Prod.mk.injEq] at ring
    obtain ⟨stSame, errSame, cmdsSame⟩ := ring
    refine ⟨?_, ?_, ?_, ?_⟩
    · exact stSame.trans st
    · exact errSame.trans err
    · exact cmdsSame.trans cmds
    · exact stands.gens.trans posted
  case buffer =>
    intro r k l s taken mine plain clock
    subst mine
    obtain ⟨t, run, io, fw⟩ := exec_dataBufferDmaFault clock taken plain
    obtain ⟨left, recorded⟩ := dropIn_first taken stTimeout
    have frame : OnlyIn [.io] s (dropIn s k stTimeout) := onlyIn_of_pick (by simp)
    refine ⟨t, run, ?_, ?_, fw.trans (frame .fw (by simp))⟩
    · rw [getRing, io]
      exact left
    · rw [Recorded, getRing, io]
      exact recorded

/-! ### Vectors (R302, R304) -/

section
variable {s : State}

@[simp] theorem getVec_setVec_self (s : State) (v : Nat) (x : Vec) : getVec (setVec s v x) v = x :=
  tabGet_tabSet_self _ _ _ _

theorem msixSend_sends {v : Nat} (enabled : s.io.msixEnable = true) (unmasked : (getVec s v).masked = false)
    (shown : s.io.fnMask = false) (writes : canWrite s = true) :
    msixSend s v = emit s (.msix v (getVec s v).addr (getVec s v).data) := by
  simp [msixSend, enabled, unmasked, shown, writes]

theorem msixSend_masked {v : Nat} (enabled : s.io.msixEnable = true) (masked : (getVec s v).masked = true) :
    msixSend s v = setVec s v { getVec s v with pending := true } := by
  simp [msixSend, enabled, masked]

/-- A vector whose requests go out: none is left, and HOLDOFF has ended. -/
def vecServed (s : State) (v : Nat) : State := setVec s v { getVec s v with rings := [], holdoff := false }

theorem exec_vectorHoldoffExpiry {v : Fin 2048} (clock : s.clk.refclkOk = true)
    (held : (getVec s v.val).holdoff = true) (asked : (getVec s v.val).rings ≠ []) :
    exec (.vectorHoldoffExpiry v) s = .next (msixSend (vecServed s v.val) v.val) := by
  simp [exec, execVectorHoldoffExpiry, clock, held, asked, vecServed]

theorem exec_vectorMask (up : busUp s = true) (v : Fin 2048) (b : Bool) :
    exec (.msixMaskChange (.vectorMask v b)) s =
      .next (sendPending (setVec (touch s) v.val { getVec (touch s) v.val with masked := b }) v.val) := by
  simp [exec, execMsixMaskChange, up]

theorem sendPending_sends {v : Nat} (pending : (getVec s v).pending = true) (enabled : s.io.msixEnable = true)
    (unmasked : (getVec s v).masked = false) (shown : s.io.fnMask = false) (writes : canWrite s = true) :
    sendPending s v =
      emit (setVec s v { getVec s v with pending := false }) (.msix v (getVec s v).addr (getVec s v).data) := by
  simp [sendPending, pending, enabled, unmasked, shown, writes]

theorem sendPending_masked {v : Nat} (masked : (getVec s v).masked = true) : sendPending s v = s := by
  simp [sendPending, masked]

/-- The settings of the function that the messages of its vectors leave: MSI-X Enable, Function Mask and Bus Master
Enable. -/
def functionBits (s : State) : Bool × Bool × Bool := (s.io.msixEnable, s.io.fnMask, s.io.busMaster)

theorem bits_mirrorWrite (s : State) (o : MirrorObj) : functionBits (mirrorWrite s o) = functionBits s := by
  unfold mirrorWrite
  split <;> rfl

theorem bits_touch (s : State) : functionBits (touch s) = functionBits s := by
  unfold touch
  split
  · exact bits_mirrorWrite _ _
  · rfl

theorem bits_msixSend (s : State) (v : Nat) : functionBits (msixSend s v) = functionBits s := by
  unfold msixSend
  split
  · split <;> rfl
  · rfl

theorem bits_vecCheck (s : State) (v : Nat) : functionBits (vecCheck s v) = functionBits s := by
  unfold vecCheck
  simp only []
  split
  · rfl
  · split
    · exact bits_msixSend _ _
    · rfl

theorem bits_ringRequest (s : State) (r : RingId) : functionBits (ringRequest s r) = functionBits s := by
  unfold ringRequest
  simp only []
  split
  · exact bits_vecCheck _ _
  · split
    · exact bits_vecCheck _ _
    · rfl

theorem bits_flushList (l : List Completion) (s : State) (q : RingId) :
    functionBits (flushList l s q).1 = functionBits s := by
  induction l generalizing s with
  | nil => rfl
  | cons r l ih =>
    unfold flushList
    split
    · exact (ih _).trans (bits_ringRequest _ q)
    · rfl

theorem bits_flushBacklog (s : State) (q : RingId) : functionBits (flushBacklog s q) = functionBits s := by
  unfold flushBacklog
  simp only []
  split
  · rfl
  · exact bits_flushList _ s q

theorem bits_flushAll (s : State) : functionBits (flushAll s) = functionBits s := by
  refine forEach_keeps functionBits (fun t e => ?_) s.io.rings s
  split
  · exact bits_flushBacklog _ _
  · rfl

theorem bits_sendAllPending (s : State) : functionBits (sendAllPending s) = functionBits s := by
  refine forEach_keeps functionBits (fun t v => ?_) _ s
  unfold sendPending
  simp only []
  split <;> rfl

/-- What the device writes once records may be written again: every mirror block, what waits, and what is pending
(R346). -/
def resumed (s : State) : State := sendAllPending (flushAll (mirrorAll s))

theorem bits_resumed (s : State) : functionBits (resumed s) = functionBits s :=
  ((bits_sendAllPending _).trans (bits_flushAll _)).trans (forEach_keeps functionBits bits_mirrorWrite allBlocks s)

theorem resumed_busMaster (s : State) : (resumed s).io.busMaster = s.io.busMaster := by
  have bits := bits_resumed s
  simp only [functionBits, Prod.mk.injEq] at bits
  obtain ⟨-, -, master⟩ := bits
  exact master

theorem resumed_onlyIn (s : State) : OnlyIn [.io] s (resumed s) := onlyIn_of_pick (by simp [resumed])

/-- The function with Bus Master Enable as the host writes it. -/
def withMaster (s : State) (b : Bool) : State := { s with io := { s.io with busMaster := b } }

theorem withMaster_onlyIn (s : State) (b : Bool) : OnlyIn [.io] s (withMaster s b) :=
  onlyIn_of_pick (by simp [withMaster])

end

/-! ### The function (R269, R346, R515) -/

/-- A table that lists no entry of a number holds the default for it. -/
theorem tabGet_absent {α : Type} (d : α) {t : Tab α} {k : Nat} (none : ∀ e ∈ t, e.1 ≠ k) : tabGet d t k = d := by
  induction t with
  | nil => rfl
  | cons e t ih =>
    obtain ⟨j, v⟩ := e
    have other : k ≠ j := fun same => none (j, v) List.mem_cons_self same.symm
    rw [tabGet, if_neg other, ih fun e m => none e (List.mem_cons_of_mem _ m), ite_self]

/-- After a function reset every ring is DISABLED and its registers read their reset values; ports, herds and the
generations of events stay (R269). -/
theorem funcReset_self (s : State) :
    (∀ r, getRing (funcReset s) r = Ring.reset) ∧
      (∀ off, isRingReg off = true → regVal (funcReset s) off = regReset off) ∧
      (funcReset s).ports = s.ports ∧ (funcReset s).herds = s.herds ∧ (funcReset s).io.gens = s.io.gens := by
  refine ⟨fun _ => rfl, fun off ring => ?_, rfl, rfl, rfl⟩
  refine tabGet_absent _ fun e held same => ?_
  have kept := (List.mem_filter.mp held).2
  rw [same, ring] at kept
  exact absurd kept (by decide)

section
variable {s : State} (up : busUp s = true)
include up

theorem exec_functionLevelReset : exec .functionLevelReset s = .next (funcReset (touch s)) := by
  simp [exec, execFunctionLevelReset, up]

theorem exec_pcieHotReset : exec .pcieHotReset s = .next (funcReset s) := by
  simp [exec, execPcieHotReset, up]

theorem exec_functionMask (b : Bool) : exec (.msixMaskChange (.functionMask b)) s =
    .next (sendAllPending { touch s with io := { (touch s).io with fnMask := b } }) := by
  simp [exec, execMsixMaskChange, up]

theorem exec_msixEnable (b : Bool) : exec (.msixMaskChange (.enable b)) s =
    .next (sendAllPending { touch s with io := { (touch s).io with msixEnable := b } }) := by
  simp [exec, execMsixMaskChange, up]

theorem exec_busMasterEnableChange (b : Bool) : exec (.busMasterEnableChange b) s =
    .next (if b && !(touch s).io.busMaster then resumed (withMaster (touch s) true) else withMaster (touch s) b) := by
  simp [exec, execBusMasterEnableChange, up, resumed, withMaster]

end

/-- Settles O17: `exec_…` says which state each row leads to; of that state `msixSend_…` and `sendPending_…` say which
message is put out, `bits_…` that messages and records leave the function's settings, and `funcReset_self` what a
function reset leaves. -/
theorem functionRows : Obligations.FunctionRows := by
  unfold Obligations.FunctionRows
  refine ⟨?sent, ?kept, ?unmasked, ?masked, ?fnMask, ?enable, ?levelReset, ?hotReset, ?busMaster⟩
  case sent =>
    intro v s held asked enabled unmasked shown writes clock
    refine ⟨_, exec_vectorHoldoffExpiry clock held asked, ?_⟩
    rw [msixSend_sends (s := vecServed s v.val) enabled (by simpa [vecServed] using unmasked) shown writes]
    simp only [vecServed, getVec_emit, getVec_setVec_self]
    exact ⟨rfl, trivial, trivial, onlyIn_of_pick (by simp)⟩
  case kept =>
    intro v s held asked enabled masked clock
    refine ⟨_, exec_vectorHoldoffExpiry clock held asked, ?_⟩
    rw [msixSend_masked (s := vecServed s v.val) enabled (by simpa [vecServed] using masked)]
    simp only [vecServed, getVec_setVec_self]
    exact ⟨rfl, trivial, trivial, onlyIn_of_pick (by simp)⟩
  case unmasked =>
    intro v s up run pending enabled shown writes
    refine ⟨_, exec_vectorMask up v false, ?_⟩
    rw [touch_run run, sendPending_sends (s := setVec s v.val { getVec s v.val with masked := false })
      (by simpa using pending) enabled (by simp) shown writes]
    simp only [getVec_emit, getVec_setVec_self]
    exact ⟨rfl, trivial, trivial, onlyIn_of_pick (by simp)⟩
  case masked =>
    intro v s up run
    refine ⟨_, exec_vectorMask up v true, ?_⟩
    rw [touch_run run, sendPending_masked (by simp), getVec_setVec_self]
    exact ⟨rfl, rfl, onlyIn_of_pick (by simp)⟩
  case fnMask =>
    intro b s up
    have bits := bits_sendAllPending { touch s with io := { (touch s).io with fnMask := b } }
    exact ⟨_, exec_functionMask up b, congrArg (·.2.1) bits,
      (congrArg (·.1) bits).trans (congrArg (·.1) (bits_touch s))⟩
  case enable =>
    intro b s up
    have bits := bits_sendAllPending { touch s with io := { (touch s).io with msixEnable := b } }
    exact ⟨_, exec_msixEnable up b, congrArg (·.1) bits,
      (congrArg (·.2.1) bits).trans (congrArg (·.2.1) (bits_touch s))⟩
  case levelReset =>
    intro s up
    obtain ⟨rings, regs, ports, herds, gens⟩ := funcReset_self (touch s)
    have frame := touch_onlyIn s
    exact ⟨_, exec_functionLevelReset up, rings, regs, ports.trans (frame .ports (by simp)),
      herds.trans (frame .herds (by simp)), gens.trans (touch_gens s)⟩
  case hotReset =>
    intro s up
    exact ⟨_, exec_pcieHotReset up, funcReset_self s⟩
  case busMaster =>
    intro b s up
    refine ⟨_, exec_busMasterEnableChange up b, ?_⟩
    split
    · rename_i rises
      obtain ⟨on, -⟩ := Bool.and_eq_true_iff.mp rises
      have frame := onlyIn_trans (onlyIn_trans (touch_onlyIn s) (withMaster_onlyIn (touch s) true))
        (resumed_onlyIn (withMaster (touch s) true))
      have master := resumed_busMaster (withMaster (touch s) true)
      exact ⟨master.trans on.symm, frame .ports (by simp), frame .regs (by simp)⟩
    · have frame := onlyIn_trans (touch_onlyIn s) (withMaster_onlyIn (touch s) b)
      exact ⟨rfl, frame .ports (by simp), frame .regs (by simp)⟩

end Sys2Proof.Proofs
end

section
/-!
PROOFS of the family 12_commands, 13_coherent_state, 15_events_faults, 16_clocks, 17_power, 19_firmware_update,
20_security and 21: the OTP store (O58), reset (O54), every row (O52), rejected commits (O50), and the refuted O2, O5, O10, O14.
-/

namespace Sys2Proof.Proofs

open Sys2Proof.Machine Sys2Proof.Safety

/-! ### The OTP store, the reset state, every row -/

/-- Settles O58: the tick leaves the OTP store and the floors alone, and every command carries their soundness and
their order (`carry_exec`). -/
theorem otpOnlyMovesForward : Obligations.OtpOnlyMovesForward := by
  unfold Obligations.OtpOnlyMovesForward
  intro s t sound h
  obtain rfl | ⟨i, rest, e⟩ := step_cases h
  · exact (Carry.of_kept (kept_tick s)).otp sound
  · exact (carry_exec i { s with pending := rest } t e).otp sound

/-- Settles O54: the tables of ports, herds, dies and rings are empty after reset, so each reads its default. -/
theorem resetStandsAtRun : Obligations.ResetStandsAtRun := by
  unfold Obligations.ResetStandsAtRun
  refine ⟨rfl, rfl, fun p => ?port, fun h => ?herd, fun d => ?die, fun r => ?ring⟩
  case port => exact ⟨rfl, rfl, rfl, rfl⟩
  case herd => exact ⟨rfl, rfl, rfl, rfl, rfl, rfl, rfl, rfl, rfl, rfl, rfl⟩
  case die => rfl
  case ring => rfl

/-- Settles O52: the frame of every command (`pickO_exec`) is one of a next state, and an outcome without a next state
has none. -/
theorem everyRowCompletes : Obligations.EveryRowCompletes := by
  unfold Obligations.EveryRowCompletes
  intro i s
  have framed := pickO_exec i s
  cases answer : exec i s with
  | next t => exact ⟨t, rfl⟩
  | fault r => simp [answer, pickO] at framed
  | refused r => simp [answer, pickO] at framed

/-! ### Rejected commits (R336) -/

section
variable {s : State} {c : Cmd}

theorem paramIds_small {id : Nat} (known : id ∈ paramIds) : id < 0x10000 := by
  have small : ∀ id ∈ paramIds, id < 0x10000 := by decide
  exact small id known

theorem firstBadParam_small {set : Tab (BitVec 32)} {modes : BitVec 5} {lane25 : Bool} {id : Nat}
    (bad : firstBadParam set modes lane25 = some id) : id < 0x10000 :=
  paramIds_small (List.mem_of_find?_eq_some bad)

theorem badHerdParam_small {h : HerdId} {p : PortId} {id : Nat} (bad : badHerdParam s h = some (p, id)) :
    id < 0x10000 := by
  obtain ⟨q, -, found⟩ := List.exists_of_findSome?_eq_some bad
  obtain ⟨i, first, same⟩ := Option.map_eq_some_iff.mp found
  obtain ⟨-, rfl⟩ := Prod.mk.inj same
  exact firstBadParam_small first

/-- RESULT of a rejected port commit: the parameter in bits [31:16], nothing above them. -/
theorem resParam_fields {id : Nat} (small : id < 0x10000) :
    (resParam id >>> 16).setWidth 16 = BitVec.ofNat 16 id ∧ resParam id >>> 32 = 0 := by
  constructor
  · apply BitVec.eq_of_toNat_eq
    simp [resParam, BitVec.toNat_ushiftRight, Nat.shiftRight_eq_div_pow]
    omega
  · apply BitVec.eq_of_toNat_eq
    simp [resParam, BitVec.toNat_ushiftRight, Nat.shiftRight_eq_div_pow]
    omega

/-- RESULT of a rejected herd commit: the parameter in bits [31:16], the port above them, bit 48 set. -/
theorem resParamPort_fields {id : Nat} (small : id < 0x10000) (p : PortId) :
    (resParamPort id p >>> 16).setWidth 16 = BitVec.ofNat 16 id ∧
      (resParamPort id p >>> 32).setWidth 9 = BitVec.ofNat 9 p.val ∧ (resParamPort id p).getLsbD 48 = true := by
  have port := p.isLt
  refine ⟨?_, ?_, ?_⟩
  · apply BitVec.eq_of_toNat_eq
    simp [resParamPort, BitVec.toNat_ushiftRight, Nat.shiftRight_eq_div_pow]
    omega
  · apply BitVec.eq_of_toNat_eq
    simp [resParamPort, BitVec.toNat_ushiftRight, Nat.shiftRight_eq_div_pow]
    omega
  · rw [resParamPort, BitVec.getLsbD_ofNat, Nat.testBit_eq_decide_div_mod_eq]
    simp only [Nat.reducePow, Nat.reduceLT, decide_true, Bool.true_and, decide_eq_true_eq]
    omega

/-- What a commit makes live on a herd stays as it is with a rejection. -/
theorem reject_keepsHerd (op : Nat) (status : BitVec 8) (result : BitVec 64) (k : HerdId) :
    (getHerd (reject s op c status result) k).modeSet = (getHerd s k).modeSet ∧
      (getHerd (reject s op c status result) k).policy = (getHerd s k).policy ∧
      (getHerd (reject s op c status result) k).cfgGen = (getHerd s k).cfgGen := by
  have same : herdSet (getHerd (reject s op c status result) k) = herdSet (getHerd s k) :=
    herdRest_herdSet (herdRest_complete s op c [] status result k)
  simp only [herdSet, Prod.mk.injEq] at same
  obtain ⟨modes, policy, gen, -⟩ := same
  exact ⟨modes, policy, gen⟩

theorem exec_portCommit_rejected {p : PortId} {id : Nat} (turn : myTurn s c = true) (gate : portGate s p = none)
    (bad : firstBadParam (getPort s p).shadow (getHerd s (herdOf p)).modeSet ((getPort s p).lane.mode == .l25) =
      some id) :
    exec (.portCommit c (.port p)) s = .next (reject s 0x0102 c stBadParam (resParam id)) := by
  simp [exec, execPortCommit, turn, gate, commitPort, bad]

theorem exec_herdCommit_rejected {h : HerdId} {p : PortId} {id : Nat} (turn : myTurn s c = true)
    (gate : herdGate s h = none) (bad : badHerdParam s h = some (p, id)) :
    exec (.portCommit c (.herd h)) s = .next (reject s 0x0102 c stBadParam (resParamPort id p)) := by
  simp [exec, execPortCommit, turn, gate, commitHerd, bad]

end

/-- Settles O50: both commits are a plain rejection (`exec_…_rejected`), which leaves ports and live herd values
(`reject_keepsHerd`); `resParam_fields` and `resParamPort_fields` read their RESULT. -/
theorem rejectedCommits : Obligations.RejectedCommits := by
  unfold Obligations.RejectedCommits
  refine ⟨?port, ?herd⟩
  case port =>
    intro c p id s runs turn gate bad
    exact ⟨_, exec_portCommit_rejected turn gate bad, by simp, reject_keepsHerd _ _ _,
      answered_reject runs _ _ _, resParam_fields (firstBadParam_small bad)⟩
  case herd =>
    intro c h p id s runs turn gate bad
    exact ⟨_, exec_herdCommit_rejected turn gate bad, by simp, reject_keepsHerd _ _ _,
      answered_reject runs _ _ _, resParamPort_fields (badHerdParam_small bad) p⟩

/-! ### A kept result before a command's (R238) -/

/-- FW.STATUS, sent on ring 4, with its record for ring 5. -/
def statusOnRing5 : Cmd :=
  { ring := 4, index := 0, tag := 0, opcode := 0x0D04, target := 0, flags := 0, dataRing := 5, params := [] }

/-- Ring 4 runs a command of the hub whose DATA_RING names ring 5: an ACTIVE data-in ring, bound to port 1, with one
buffer (check 4 of R288 asks for no binding to the target). Port 1 keeps the result of an automatic run (R238). -/
def keptBesideHubCommand (c : Cmd) : State :=
  { State.reset with
    regs := [(0x400148, 0x633)]
    ports := [(1, { Port.reset with st := .hold, diag := { Diag.none with kept := some [] } })]
    io := { State.reset.io with rings := [(4, { Ring.reset with st := .active, running := some c }),
      (5, { Ring.reset with st := .active, bufs := [page 0] })] } }

/-- Refutes O2: its sixth clause has FW.STATUS answer ST_OK with the record in the first buffer of its data-in ring.
In `keptBesideHubCommand` that buffer takes port 1's kept result before any command's (R238), none is left, and the
command completes with ST_NO_RESOURCE. -/
theorem not_fwCommands : ¬ Obligations.FwCommands := by
  unfold Obligations.FwCommands
  intro rows
  obtain ⟨-, -, -, -, -, status⟩ := rows
  obtain ⟨t, run, written, -⟩ := status statusOnRing5 (keptBesideHubCommand statusOnRing5) 5 (page 0) []
    (by decide) (by decide) (by decide) (by decide) (by decide) (by decide)
  obtain rfl := Host.Outcome.next.inj run
  exact absurd written (by decide)

/-- SEC.ATTEST, sent on ring 4, with its report for ring 5. -/
def attestOnRing5 : Cmd :=
  { ring := 4, index := 0, tag := 0, opcode := 0x0E01, target := 0, flags := 0, dataRing := 5, params := [] }

/-- Refutes O5: its first clause has SEC.ATTEST write and count a report with a buffer of 4,096 bytes at the head of
its data-in ring. In `keptBesideHubCommand` that buffer takes port 1's kept result before any command's (R238), none
is left, and no report is counted. -/
theorem not_secRows : ¬ Obligations.SecRows := by
  unfold Obligations.SecRows
  intro rows
  obtain ⟨attest, -⟩ := rows
  obtain ⟨t, run, counted, -⟩ := attest attestOnRing5 0 (keptBesideHubCommand attestOnRing5) 5 (page 0) []
    (by decide) (by decide) (by decide) (by decide) (by decide) (by decide)
  obtain rfl := Host.Outcome.next.inj run
  exact absurd (congrArg Sec.reports counted) (by decide)

/-! ### A retuned PLL moves with its domain (R408) -/

/-- Herd 0's PLL leaves the family of 100 Gb/s modes for L100X (R408): its domain switches to the bypass. -/
def retuning : State :=
  { State.reset with
    clk := { State.reset.clk with switches := [(0x10, { onPll := true, running := some false, waiting := none })] }
    herds := [(0, { Herd.reset with pllMode := .l100x, pllOld := some .l100 })] }

/-- Refutes O10: its fifth clause has a switch's completion write the clocks alone. In `retuning` the domain's arrival
on the bypass lets the herd's PLL move (R408), which the herd's record tells. -/
theorem not_clockRows : ¬ Obligations.ClockRows := by
  unfold Obligations.ClockRows
  intro rows
  obtain ⟨-, -, -, -, switch, -⟩ := rows
  obtain ⟨t, run, -, -, -, -, frame⟩ := switch (.herdDsp 0) false retuning (by decide) (by decide) (by decide)
    (by decide)
  obtain rfl := Host.Outcome.next.inj run
  have herds : _ = _ := frame .herds (by decide)
  exact absurd herds (by decide)

/-! ### The cause below equal levels (R381) -/

/-- Source 0x0A11 holds its cause, and its pair has come to show equal levels since (R378). -/
def raisedBelowEqual : State :=
  { State.reset with flt := { State.reset.flt with raised := [(0xA11, true)], network := [(0xA11, true)] } }

/-- Refutes O14: its eighth clause has the end of a cause leave a source clear of both causes. In `raisedBelowEqual`
the pair returns from equal levels to the last valid state that the collector held, which is raised (R378, R381). -/
theorem not_faultRows : ¬ Obligations.FaultRows := by
  unfold Obligations.FaultRows
  intro rows
  obtain ⟨-, -, -, -, -, -, -, ended, -⟩ := rows
  obtain ⟨t, run, clear, -⟩ := ended 0xA11 raisedBelowEqual (by decide)
  obtain rfl := Host.Outcome.next.inj run
  exact absurd clear (by decide)

end Sys2Proof.Proofs
end

section
/-!
PROOFS of the family 12_commands, 13_coherent_state, 15_events_faults, 16_clocks, 17_power, 19_firmware_update,
20_security and 21: acknowledged faults (O45).
-/

namespace Sys2Proof.Proofs

open Sys2Proof.Machine Sys2Proof.Safety

/-! ### Acknowledged records stay in the log (R328, R393, R394, R396) -/

/-- The record as an acknowledgement leaves it. -/
def ackRec (r : FltRec) : FltRec := { r with acked := true }

section
variable (s : State)

theorem releaseOne_flt (last : BitVec 32) (x : SafeState) :
    (releaseOne last s x).flt = { s.flt with safe := s.flt.safe.erase x } :=
  onlyIn_of_pick (m := [.fresh, .rails, .dies, .ports, .herds, .io, .fw])
    (s := { s with flt := { s.flt with safe := s.flt.safe.erase x } }) (by simp [releaseOne]) .flt (by simp)

@[simp] theorem releaseSafe_volatile (last : BitVec 32) :
    (releaseSafe s last).flt.volatile = s.flt.volatile := by
  unfold releaseSafe
  split
  · rfl
  · exact forEach_keeps (fun t => t.flt.volatile) (fun t x => by rw [releaseOne_flt]) _ s

/-- A reset's own parts on the hub and the line dies leave the collector to `keepFlt` (R516). -/
theorem sysReset_flt (st : DevSt) : (sysReset s st).flt = keepFlt s.flt := by
  have same : (lineRestart (fwRevert s)).flt = s.flt :=
    onlyIn_of_pick (m := [.ports, .fw, .nv, .clk]) (by simp) .flt (by simp)
  unfold sysReset
  generalize lineRestart (fwRevert s) = u at same ⊢
  exact congrArg keepFlt same

@[simp] theorem fixedRestart_volatile : (fixedRestart s).flt.volatile = s.flt.volatile := by
  unfold fixedRestart
  split
  · rw [sysReset_flt]
    rfl
  · rfl

@[simp] theorem firstClear_volatile : (firstClear s).flt.volatile = s.flt.volatile := by
  unfold firstClear
  split
  · split <;> rfl
  · rfl

/-- Acknowledging any number leaves an acknowledged record as it is. -/
theorem acked_mem_modRecord {r : FltRec} (n : BitVec 32) (there : ackRec r ∈ s.flt.volatile) :
    ackRec r ∈ (modRecord s n ackRec).flt.volatile :=
  List.mem_map.mpr ⟨ackRec r, there, by simp [ackRec]⟩

/-- A record whose number is in the list stands acknowledged in the log. -/
theorem acked_mem_ackRecords {r : FltRec} {l : List (BitVec 32)} (there : r ∈ s.flt.volatile)
    (listed : r.record ∈ l) : ackRec r ∈ (ackRecords s l).flt.volatile := by
  have kept : ∀ (l : List (BitVec 32)) (t : State), ackRec r ∈ t.flt.volatile →
      ackRec r ∈ (forEach l (fun t n => modRecord t n ackRec) t).flt.volatile := by
    intro l
    induction l with
    | nil => exact fun _ h => h
    | cons n l ih => exact fun t h => ih _ (acked_mem_modRecord t n h)
  have goal : ∀ (l : List (BitVec 32)) (t : State), r ∈ t.flt.volatile → r.record ∈ l →
      ackRec r ∈ (forEach l (fun t n => modRecord t n ackRec) t).flt.volatile := by
    intro l
    induction l with
    | nil => exact fun _ _ h => absurd h List.not_mem_nil
    | cons n l ih =>
      intro t there listed
      by_cases same : r.record = n
      · exact kept l _ (List.mem_map.mpr ⟨r, there, by simp [same]⟩)
      · exact ih _ (List.mem_map.mpr ⟨r, there, by simp [same]⟩)
          ((List.mem_cons.mp listed).resolve_left same)
  show ackRec r ∈ (firstClear _).flt.volatile
  rw [firstClear_volatile]
  exact goal l s there listed

end

/-- FLT.ACK's effect once its records are chosen: they are acknowledged, safe states that waited for them end, and a
fixed reaction's restart may follow. -/
def ackFinish (s : State) (c : Cmd) (l : List (BitVec 32)) : State :=
  let t := ackRecords s l
  let last := l.foldl (fun m n => if m.toNat < n.toNat then n else m) 0
  let blocks := (endingSafe t).flatMap fun x => (scopePorts x.scope).flatMap portBlocks
  fixedRestart (completeOk (releaseSafe t last) 0x0C02 c (.hub :: blocks) l.length)

@[simp] theorem ackFinish_volatile (s : State) (c : Cmd) (l : List (BitVec 32)) :
    (ackFinish s c l).flt.volatile = (ackRecords s l).flt.volatile := by
  have completed : ∀ (t : State) (changed : List MirrorObj) (n : Nat),
      (completeOk t 0x0C02 c changed n).flt = t.flt :=
    fun t changed n => onlyIn_of_pick (m := [.herds, .io]) (by simp) .flt (by simp)
  simp only [ackFinish, fixedRestart_volatile, completed, releaseSafe_volatile]

theorem exec_fltAck_all (c : Cmd) (record : BitVec 32) (s : State) :
    exec (.fltAck c record 1) s = .next (ackFinish s c
      (((s.flt.volatile.filter unacked).filter fun r => !causeHolds s r).map (·.record))) := rfl

theorem exec_fltAck_held {c : Cmd} {record : BitVec 32} {q : FltRec} {s : State}
    (found : (s.flt.volatile.filter unacked).find? (fun r => r.record == record) = some q)
    (holds : causeHolds s q = true) :
    exec (.fltAck c record 0) s = .next (reject s 0x0C02 c stRefused 0xFF) := by
  simp [exec, execFltAck, found, holds]

/-- Settles O45: ALL chooses every record whose cause has ended, and each chosen one stands acknowledged
(`acked_mem_ackRecords`) through the ends of safe states and a restart; a record whose cause holds is a plain
rejection. -/
theorem acknowledgedFaults : Obligations.AcknowledgedFaults := by
  unfold Obligations.AcknowledgedFaults
  refine ⟨?all, ?held⟩
  case all =>
    intro c record s
    refine ⟨_, exec_fltAck_all c record s, fun r there fresh ended => ?_⟩
    rw [ackFinish_volatile]
    refine acked_mem_ackRecords s there (List.mem_map.mpr ⟨r, ?_, rfl⟩)
    exact List.mem_filter.mpr ⟨List.mem_filter.mpr ⟨there, fresh⟩, by simp [ended]⟩
  case held =>
    rintro c record q _ s runs rfl found holds
    exact ⟨_, exec_fltAck_held found holds, by simp, answered_reject runs _ _ _⟩

end Sys2Proof.Proofs
end

section
/-!
PROOFS of the family 12_commands, 13_coherent_state, 15_events_faults, 16_clocks, 17_power, 19_firmware_update,
20_security and 21: what a raised fault leaves and what its cycle records.
-/

namespace Sys2Proof.Proofs

open Sys2Proof.Machine Sys2Proof.Safety

/-! ### What a reaction leaves when it abandons herds' operations (R28, R385) -/

/-- The firmware's state but the herds whose restart waits (R484). -/
def fwRest (s : State) : Fw := { s.fw with deferred := [] }

/-- The collector's log, its next number, its memory of causes and a fixed reaction's hold. -/
def faultLog (s : State) : List FltRec × BitVec 32 × Tab Bool × Tab Bool × Bool :=
  (s.flt.volatile, s.flt.next, s.flt.raised, s.flt.network, s.flt.fixedHold)

/-- What a reaction leaves: the log and the causes, the firmware but for herds that wait, and the mirror's error flag;
of events it posts BIST_DONE at most. -/
structure Abandons (s t : State) : Prop where
  log    : faultLog t = faultLog s
  fw     : fwRest t = fwRest s
  gens   : ∀ k, k ≠ globalSrc 72 → genOf t k = genOf s k
  dmaErr : t.io.dmaErr = s.io.dmaErr

section
variable {s t u : State}

theorem Abandons.refl : Abandons s s := ⟨rfl, rfl, fun _ _ => rfl, rfl⟩

theorem Abandons.trans (h : Abandons s t) (k : Abandons t u) : Abandons s u :=
  ⟨k.log.trans h.log, k.fw.trans h.fw, fun g n => (k.gens g n).trans (h.gens g n), k.dmaErr.trans h.dmaErr⟩

/-- A step within host memory's rings and the herds and ports, of no event. -/
theorem Abandons.of_frame (frame : OnlyIn [.ports, .herds, .io, .nv] s t) (gens : t.io.gens = s.io.gens)
    (dmaErr : t.io.dmaErr = s.io.dmaErr) : Abandons s t := by
  have flt : t.flt = s.flt := frame .flt (by simp)
  have fw : t.fw = s.fw := frame .fw (by simp)
  exact ⟨by rw [faultLog, faultLog, flt], by rw [fwRest, fwRest, fw], fun k _ => genOf_of_gens gens k, dmaErr⟩

/-- A step of the collector alone that leaves its log. -/
theorem Abandons.of_log (frame : OnlyIn [.flt] s t) (log : faultLog t = faultLog s) : Abandons s t := by
  have io : t.io = s.io := frame .io (by simp)
  have fw : t.fw = s.fw := frame .fw (by simp)
  exact ⟨log, by rw [fwRest, fwRest, fw], fun k _ => by rw [genOf, genOf, io], by rw [io]⟩

theorem abandons_forEach {α : Type} {f : State → α → State} (each : ∀ s x, Abandons s (f s x)) (l : List α)
    (s : State) : Abandons s (forEach l f s) := by
  unfold forEach
  induction l generalizing s with
  | nil => exact .refl
  | cons x l ih => exact (each s x).trans (ih _)

/-! The mirror's error flag through records, completions and events. -/

theorem msixSend_dmaErr (s : State) (v : Nat) : (msixSend s v).io.dmaErr = s.io.dmaErr := by
  unfold msixSend
  split
  · split <;> rfl
  · rfl

theorem vecCheck_dmaErr (s : State) (v : Nat) : (vecCheck s v).io.dmaErr = s.io.dmaErr := by
  unfold vecCheck
  simp only []
  split
  · rfl
  · split
    · exact msixSend_dmaErr _ _
    · rfl

theorem ringRequest_dmaErr (s : State) (r : RingId) : (ringRequest s r).io.dmaErr = s.io.dmaErr := by
  unfold ringRequest
  simp only []
  split
  · exact vecCheck_dmaErr _ _
  · split
    · exact vecCheck_dmaErr _ _
    · rfl

theorem putRecord_dmaErr (s : State) (q : RingId) (r : Completion) : (putRecord s q r).io.dmaErr = s.io.dmaErr :=
  ringRequest_dmaErr _ _

theorem putCompletion_dmaErr (s : State) (q : RingId) (r : Completion) :
    (putCompletion s q r).io.dmaErr = s.io.dmaErr := by
  unfold putCompletion
  simp only []
  split
  · exact putRecord_dmaErr _ _ _
  · rfl

theorem putReserved_dmaErr (s : State) (q : RingId) (r : Completion) :
    (putReserved s q r).io.dmaErr = s.io.dmaErr := by
  unfold putReserved
  simp only []
  split
  · exact putRecord_dmaErr _ _ _
  · rfl

theorem mirrorWrite_dmaErr (s : State) (o : MirrorObj) : (mirrorWrite s o).io.dmaErr = s.io.dmaErr := by
  unfold mirrorWrite
  split <;> rfl

theorem dequeue_dmaErr (s : State) (c : Cmd) : (dequeue s c).io.dmaErr = s.io.dmaErr := by
  unfold dequeue
  split <;> split <;> rfl

theorem complete_dmaErr (s : State) (op : Nat) (c : Cmd) (l : List MirrorObj) (a : BitVec 8) (r : BitVec 64) :
    (complete s op c l a r).io.dmaErr = s.io.dmaErr := by
  have written := (forEach_keeps (fun t => t.io.dmaErr) mirrorWrite_dmaErr l _).trans (dequeue_dmaErr s c)
  unfold complete
  simp only []
  split
  · exact (putReserved_dmaErr _ _ _).trans written
  · exact written

theorem pushGlobal_dmaErr (s : State) (e : Event) : (pushGlobal s e).io.dmaErr = s.io.dmaErr := by
  unfold pushGlobal markLost
  split
  · rfl
  · exact forEach_keeps (fun t => t.io.dmaErr) (fun t x => by split <;> rfl) _ _

theorem postGlobal_dmaErr (s : State) (g : Nat) (l : List Fld) : (postGlobal s g l).io.dmaErr = s.io.dmaErr :=
  pushGlobal_dmaErr _ _

/-! The end of a self-test and of a waiting commit. -/

theorem abandons_completeBuf (kind : BitVec 3) (k : Taken) (status : BitVec 8) (bytes : Nat) :
    Abandons s (completeBuf s kind k status bytes) :=
  .of_frame (onlyIn_of_pick (by simp)) (putCompletion_gens _ _ _) (putCompletion_dmaErr _ _ _)

theorem abandons_modRing (r : RingId) (f : Ring → Ring) : Abandons s (modRing s r f) :=
  .of_frame (onlyIn_of_pick (by simp)) rfl rfl

theorem abandons_modHerd (h : HerdId) (f : Herd → Herd) : Abandons s (modHerd s h f) :=
  .of_frame (onlyIn_of_pick (by simp)) rfl rfl

theorem abandons_modPort (p : PortId) (f : Port → Port) : Abandons s (modPort s p f) :=
  .of_frame (onlyIn_of_pick (by simp)) rfl rfl

theorem abandons_finishIn (k : Taken) (bytes : Nat) (fs : List Fld) : Abandons s (finishIn s k bytes fs) := by
  unfold finishIn
  split
  · have put : Abandons s (emit (untake s k) (.data k.desc.addr fs)) :=
      .of_frame (onlyIn_of_pick (by simp [untake])) rfl rfl
    exact put.trans (abandons_completeBuf _ _ _ _)
  · exact .refl

theorem abandons_bistDeliver (r : RingId) (fs : List Fld) (l : List DataDesc) (s : State) :
    Abandons s (bistDeliver r fs l s).1 := by
  induction l generalizing s with
  | nil => exact .refl
  | cons d rest ih =>
    have popped : Abandons s (popBuf s r d rest).2 := .of_frame (onlyIn_of_pick (by simp)) rfl rfl
    unfold bistDeliver
    simp only []
    split
    · exact (popped.trans (abandons_modRing _ _)).trans (abandons_finishIn _ _ _)
    · exact (popped.trans (abandons_completeBuf _ _ _ _)).trans (ih _)

theorem abandons_bistTryDeliver (h : HerdId) : Abandons s (bistTryDeliver s h) := by
  unfold bistTryDeliver
  split
  · simp only []
    split
    · exact (abandons_bistDeliver _ _ _ _).trans (abandons_modHerd _ _)
    · exact abandons_bistDeliver _ _ _ _
  · exact .refl

theorem abandons_bistReport (h : HerdId) (k : BistRun) (result : Nat) : Abandons s (bistReport s h k result) := by
  unfold bistReport
  refine Abandons.trans ?_ ⟨by simp [faultLog], by simp [fwRest], fun g n => genOf_postGlobal_ne _ 72 _ n,
    postGlobal_dmaErr _ _ _⟩
  refine Abandons.trans ?_ (abandons_bistTryDeliver h)
  exact .of_frame (onlyIn_of_pick (by simp)) rfl rfl

theorem abandons_bistAbort (h : HerdId) : Abandons s (bistAbort s h) := by
  unfold bistAbort
  split
  · split
    · rename_i k _ _
      refine (abandons_bistReport h k 4).trans ?_
      exact (abandons_modHerd _ _).trans (abandons_forEach (fun _ _ => abandons_modPort _ _) _ _)
    · exact .refl
  · exact .refl

theorem abandons_dropCommit (h : HerdId) : Abandons s (dropCommit s h) := by
  unfold dropCommit
  split
  · refine Abandons.trans ?_ (.of_frame (onlyIn_of_pick (by simp)) (complete_gens _ _ _ _ _ _)
      (complete_dmaErr _ _ _ _ _ _))
    exact (abandons_modHerd _ _).trans (abandons_forEach (fun _ _ => abandons_modPort _ _) _ _)
  · exact .refl

theorem abandons_abandonHerd (s : State) (h : HerdId) : Abandons s (abandonHerd s h) := by
  have ended := (abandons_bistAbort (s := s) h).trans (abandons_dropCommit h)
  unfold abandonHerd
  simp only []
  split
  · exact ended.trans ⟨rfl, rfl, fun _ _ => rfl, rfl⟩
  · exact ended

/-! ### The records of a collector cycle (R381 to R389) -/

theorem abandons_openShadow (s : State) (w : Shadow) : Abandons s (openShadow s w) :=
  .of_log (onlyIn_of_pick (by simp)) (by unfold openShadow; split <;> rfl)

theorem abandons_react (s : State) (r : FltRec) : Abandons s (react s r).2 := by
  unfold react
  simp only []
  split
  · exact .refl
  split
  · exact .refl
  split
  · refine Abandons.trans ?_ (abandons_forEach abandons_abandonHerd _ _)
    have started : Abandons s
        { s with flt := { s.flt with running := some (shadowOf s r.scope r.record), runCode := r.reaction } } :=
      ⟨rfl, rfl, fun _ _ => rfl, rfl⟩
    exact (started.trans (abandons_openShadow _ _)).trans ⟨rfl, rfl, fun _ _ => rfl, rfl⟩
  · split
    · exact ⟨rfl, rfl, fun _ _ => rfl, rfl⟩
    · have waits : Abandons s
          { s with flt := { s.flt with
              deferred := s.flt.deferred ++ [(shadowOf s r.scope r.record, r.reaction)] } } :=
        ⟨rfl, rfl, fun _ _ => rfl, rfl⟩
      exact (waits.trans (abandons_openShadow _ _)).trans ⟨rfl, rfl, fun _ _ => rfl, rfl⟩

/-- What a record says of its fault, whatever reaction it calls for. -/
def named (r : FltRec) : BitVec 32 × BitVec 16 × BitVec 8 × Bool × Bool :=
  (r.record, r.source, r.cls, r.network, r.injected)

theorem named_react (s : State) (r : FltRec) : named (react s r).1 = named r := by
  unfold react
  simp only []
  split
  · rfl
  split
  · rfl
  split
  · rfl
  · split <;> rfl

/-- The causes that a raise leaves held (R381): an injected fault has none. -/
def raisedBy (r : Raise) (t : Tab Bool) : Tab Bool :=
  if (fltDef r.source).holds && !r.network && !r.injected then tabSet t r.source true else t

def networkBy (r : Raise) (t : Tab Bool) : Tab Bool :=
  if r.network && !r.injected then tabSet t r.source true else t

/-- The collector as a fault reaches it: its cause is held and its time kept, unless it is a consequence (R381). -/
def struck (s : State) (r : Raise) (conseq : Bool) : State :=
  { s with flt := { s.flt with
      raised := raisedBy r s.flt.raised, network := networkBy r s.flt.network
      times := if conseq then s.flt.times
        else tabSet s.flt.times r.source ((BitVec.ofNat 64 s.mono :: tabGet [] s.flt.times r.source).take 65535) } }

theorem raiseOne_eq (before : List FltRec) (shadows : List Shadow) (s : State) (r : Raise) :
    raiseOne before shadows s r =
      logRecord List.cons
        (nextRecord (react (struck s r (mkRecord s before shadows r).conseq) (mkRecord s before shadows r)).2)
        (react (struck s r (mkRecord s before shadows r).conseq) (mkRecord s before shadows r)).1 := rfl

/-- The log after one fault: its record at the head, the next number, the causes. -/
def loggedBy (r : Raise) (s : State) (q : FltRec) : List FltRec × BitVec 32 × Tab Bool × Tab Bool × Bool :=
  ((q :: s.flt.volatile).take 4096, s.flt.next + 1, raisedBy r s.flt.raised, networkBy r s.flt.network,
    s.flt.fixedHold)

/-- What the record of one fault says. -/
def namedBy (r : Raise) (s : State) : BitVec 32 × BitVec 16 × BitVec 8 × Bool × Bool :=
  (s.flt.next, BitVec.ofNat 16 r.source, BitVec.ofNat 8 (if r.network then 4 else (fltDef r.source).cls), r.network,
    r.injected)

theorem raiseOne_logs (before : List FltRec) (shadows : List Shadow) (s : State) (r : Raise) :
    ∃ q, named q = namedBy r s ∧ faultLog (raiseOne before shadows s r) = loggedBy r s q := by
  rw [raiseOne_eq]
  generalize told : mkRecord s before shadows r = x
  have log := (abandons_react (struck s r x.conseq) x).log
  refine ⟨(react (struck s r x.conseq) x).1, (named_react _ _).trans (by rw [← told]; rfl), ?_⟩
  generalize (react (struck s r x.conseq) x).2 = w at log ⊢
  simp only [faultLog, Prod.mk.injEq] at log
  obtain ⟨volatile, next, raised, network, hold⟩ := log
  simp only [faultLog, logRecord, nextRecord, volatile, next, raised, network, hold]
  rfl

/-- What a cycle leaves, whatever it raises: the firmware but herds that wait, a fixed reaction's hold, and the
mirror's error flag; of events it posts FAULT_RECORD and BIST_DONE at most. -/
structure Raises (s t : State) : Prop where
  fixedHold : t.flt.fixedHold = s.flt.fixedHold
  fw        : fwRest t = fwRest s
  gens      : ∀ k, k ≠ globalSrc 72 → k ≠ globalSrc 32 → genOf t k = genOf s k
  dmaErr    : t.io.dmaErr = s.io.dmaErr

theorem Raises.refl : Raises s s := ⟨rfl, rfl, fun _ _ _ => rfl, rfl⟩

theorem Raises.trans (h : Raises s t) (k : Raises t u) : Raises s u :=
  ⟨k.fixedHold.trans h.fixedHold, k.fw.trans h.fw, fun g m n => (k.gens g m n).trans (h.gens g m n),
    k.dmaErr.trans h.dmaErr⟩

theorem raises_forEach {α : Type} {f : State → α → State} (each : ∀ s x, Raises s (f s x)) (l : List α)
    (s : State) : Raises s (forEach l f s) := by
  unfold forEach
  induction l generalizing s with
  | nil => exact .refl
  | cons x l ih => exact (each s x).trans (ih _)

theorem raises_raiseOne (before : List FltRec) (shadows : List Shadow) (s : State) (r : Raise) :
    Raises s (raiseOne before shadows s r) := by
  have left := abandons_react (struck s r (mkRecord s before shadows r).conseq) (mkRecord s before shadows r)
  rw [raiseOne_eq]
  exact ⟨(congrArg (·.2.2.2.2) left.log :), left.fw, fun k n _ => left.gens k n, left.dmaErr⟩

/-- The first fault's mark (R384): every record keeps what it says of its fault. -/
theorem firstSet_logs (s : State) (l : List FltRec) : ∃ f : FltRec → FltRec, (∀ q, named (f q) = named q) ∧
    faultLog (firstSet s l) = (s.flt.volatile.map f, s.flt.next, s.flt.raised, s.flt.network, s.flt.fixedHold) := by
  have same : faultLog s = (s.flt.volatile.map id, s.flt.next, s.flt.raised, s.flt.network, s.flt.fixedHold) := by
    rw [List.map_id]
    rfl
  unfold firstSet
  split
  · exact ⟨id, fun _ => rfl, same⟩
  split
  · exact ⟨id, fun _ => rfl, same⟩
  · rename_i r _
    refine ⟨fun q => if q.record == r.record then { q with first := true } else q, fun q => ?_, ?_⟩
    · simp only []
      split <;> rfl
    · unfold firstClear
      simp only []
      split <;> rfl

theorem firstSet_onlyIn (s : State) (l : List FltRec) : OnlyIn [.flt] s (firstSet s l) := onlyIn_of_pick (by simp)

theorem raises_firstSet (s : State) (l : List FltRec) : Raises s (firstSet s l) := by
  obtain ⟨f, -, log⟩ := firstSet_logs s l
  have io : (firstSet s l).io = s.io := firstSet_onlyIn s l .io (by simp)
  have fw : (firstSet s l).fw = s.fw := firstSet_onlyIn s l .fw (by simp)
  exact ⟨(congrArg (·.2.2.2.2) log :), by rw [fwRest, fwRest, fw], fun k _ _ => by rw [genOf, genOf, io], by rw [io]⟩

theorem postRecord_flt (s : State) (r : FltRec) : (postRecord s r).flt = s.flt :=
  onlyIn_of_pick (m := [.io]) (by simp) .flt (by simp)

theorem posted_postRecord (s : State) (r : FltRec) : Posted s (postRecord s r) (globalSrc 32) 1 :=
  (genOf_of_gens (pushGlobal_gens _ _) _).trans (genOf_bumpGen_self s (globalSrc 32))

theorem raises_postRecord (s : State) (r : FltRec) : Raises s (postRecord s r) := by
  have fw : (postRecord s r).fw = s.fw := onlyIn_of_pick (m := [.io]) (by simp) .fw (by simp)
  refine ⟨by rw [postRecord_flt], by rw [fwRest, fwRest, fw], fun k _ n => ?_, pushGlobal_dmaErr _ _⟩
  exact (genOf_of_gens (pushGlobal_gens _ _) _).trans (genOf_bumpGen_ne s n)

/-- A collector cycle, whatever it raises. -/
theorem raises_collect (s : State) (l : List Raise) : Raises s (collect s l) := by
  unfold collect
  split
  · exact .refl
  · simp only []
    refine Raises.trans ?_ (raises_forEach raises_postRecord _ _)
    exact (raises_forEach (raises_raiseOne _ _) _ _).trans (raises_firstSet _ _)

theorem raises_raiseFault (s : State) (src detail : Nat) : Raises s (raiseFault s src detail) := raises_collect _ _

/-- The cycle of one fault that counts. -/
theorem collect_one {r : Raise} (clock : s.clk.refclkOk = true) (counts : raises s r = true) :
    (collect s [r]).flt.next = s.flt.next + 1 ∧ (collect s [r]).flt.raised = raisedBy r s.flt.raised ∧
      (collect s [r]).flt.network = networkBy r s.flt.network ∧
      (∃ q ∈ (collect s [r]).flt.volatile, named q = namedBy r s) ∧ Posted s (collect s [r]) (globalSrc 32) 1 := by
  obtain ⟨q, told, log⟩ := raiseOne_logs s.flt.volatile s.flt.shadows s r
  have gens : genOf (raiseOne s.flt.volatile s.flt.shadows s r) (globalSrc 32) = genOf s (globalSrc 32) :=
    (abandons_react (struck s r (mkRecord s s.flt.volatile s.flt.shadows r).conseq)
      (mkRecord s s.flt.volatile s.flt.shadows r)).gens _ (by decide)
  generalize one : raiseOne s.flt.volatile s.flt.shadows s r = t at log gens
  have cycle : collect s [r] = forEach (newest (firstSet t (newest t 1)) 1) postRecord (firstSet t (newest t 1)) := by
    simp [collect, clock, counts, insertRaise, forEach, one]
  obtain ⟨f, keeps, marked⟩ := firstSet_logs t (newest t 1)
  have io : (firstSet t (newest t 1)).io = t.io := firstSet_onlyIn t _ .io (by simp)
  generalize firstSet t (newest t 1) = u at cycle marked io
  simp only [faultLog, loggedBy, Prod.mk.injEq] at log marked
  obtain ⟨volatile, next, raised, network, -⟩ := log
  obtain ⟨volatile', next', raised', network', -⟩ := marked
  have head : u.flt.volatile = f q :: (s.flt.volatile.take 4095).map f := by
    rw [volatile', volatile]
    rfl
  have single : newest u 1 = [f q] := by simp [newest, head]
  have posts : collect s [r] = postRecord u (f q) := by rw [cycle, single]; rfl
  rw [posts, postRecord_flt]
  refine ⟨next'.trans next, raised'.trans raised, network'.trans network, ⟨f q, ?_, (keeps q).trans told⟩, ?_⟩
  · rw [head]
    exact List.mem_cons_self
  · have quiet : genOf u (globalSrc 32) = genOf s (globalSrc 32) := by
      rw [genOf, io]
      exact gens
    exact (posted_postRecord u (f q)).trans (by rw [quiet])

end
end Sys2Proof.Proofs
end

section
/-!
PROOFS of the family 12_commands, 13_coherent_state, 15_events_faults, 16_clocks, 17_power, 19_firmware_update,
20_security and 21: resets and the boot (O6).
-/

namespace Sys2Proof.Proofs

open Sys2Proof.Machine Sys2Proof.Safety

/-! ### What a reset leaves (R231, R516) -/

/-- What holds of the default and of every value of a table holds of what it reads. -/
theorem tabGet_all {α : Type} {P : α → Prop} {d : α} {l : Tab α} (default : P d) (all : ∀ e ∈ l, P e.2) (k : Nat) :
    P (tabGet d l k) := by
  induction l with
  | nil => exact default
  | cons e l ih =>
    rw [tabGet]
    split
    · exact default
    · split
      · exact all e List.mem_cons_self
      · exact ih fun x hx => all x (List.mem_cons_of_mem _ hx)

/-- Every port is disabled where the table lists only disabled ones. -/
theorem disabled_of_table {t : State} (all : ∀ e ∈ t.ports, e.2.st = .disabled) (p : PortId) :
    (getPort t p).st = .disabled :=
  tabGet_all (P := fun x : Port => x.st = .disabled) rfl all _

section
variable (s : State)

/-- What a reset does first: the firmware set, the line dies' PLLs and domains, and persistent settings. -/
theorem resetFirst_onlyIn : OnlyIn [.ports, .fw, .nv, .clk] s (lineRestart (fwRevert s)) := onlyIn_of_pick (by simp)

theorem sysReset_time (st : DevSt) : (sysReset s st).time = { s.time with slewLeft := 0, slewPhase := 0 } := by
  have same : (lineRestart (fwRevert s)).time = s.time := resetFirst_onlyIn s .time (by simp)
  unfold sysReset
  generalize lineRestart (fwRevert s) = u at same ⊢
  exact congrArg (fun t : TimeSt => { t with slewLeft := 0, slewPhase := 0 }) same

theorem sysReset_sec (st : DevSt) : (sysReset s st).sec =
    { s.sec with unlocked := false, scope := 0, ready := false, otp := none, jtag := none } := by
  have same : (lineRestart (fwRevert s)).sec = s.sec := resetFirst_onlyIn s .sec (by simp)
  unfold sysReset
  generalize lineRestart (fwRevert s) = u at same ⊢
  exact congrArg (fun x : Sec => { x with unlocked := false, scope := 0, ready := false, otp := none, jtag := none })
    same

theorem sysReset_straps (st : DevSt) : (sysReset s st).straps = s.straps := by
  have same : (lineRestart (fwRevert s)).straps = s.straps := resetFirst_onlyIn s .straps (by simp)
  unfold sysReset
  generalize lineRestart (fwRevert s) = u at same ⊢
  exact same

theorem sysReset_disabled (st : DevSt) (p : PortId) : (getPort (sysReset s st) p).st = .disabled := by
  refine disabled_of_table (fun e he => ?_) p
  obtain ⟨x, -, rfl⟩ := List.mem_map.mp he
  rfl

end

theorem porReset_disabled (s : State) (p : PortId) : (getPort (porReset s) p).st = .disabled := by
  refine disabled_of_table (fun e he => ?_) p
  obtain ⟨x, -, rfl⟩ := List.mem_map.mp he
  rfl

/-! ### The boot's steps (R490, R517) -/

section
variable {s : State} {sys : Bool}

theorem exec_bootStepDone_plain {n : Nat} (o : BootOutcome) (st : s.pwr.st = .boot n sys)
    (clock : s.clk.refclkOk = true) (plain : n = 2 ∨ n = 8 ∨ n = 10) :
    ∃ u, exec (.bootStepDone o) s = .next (bootNext u n sys) := by
  show ∃ u, execBootStepDone o s = .next (bootNext u n sys)
  unfold execBootStepDone
  rw [st]
  simp only [clock, Bool.not_true, Bool.false_eq_true, if_false]
  rcases plain with rfl | rfl | rfl
  · exact ⟨pllJudged (pllJudged s .monitor) .root, rfl⟩
  · exact ⟨bootLinks s, rfl⟩
  · exact ⟨bootHerds s, rfl⟩

theorem exec_bootStepDone_last (o : BootOutcome) (st : s.pwr.st = .boot 11 sys) (clock : s.clk.refclkOk = true) :
    exec (.bootStepDone o) s = .next (bootDone s) := by
  show execBootStepDone o s = _
  unfold execBootStepDone
  rw [st]
  simp only [clock, Bool.not_true, Bool.false_eq_true, if_false]

/-- Run is reached: the end of a wake and latched fixed records leave the device's state and the firmware's. -/
theorem bootDone_runs (s : State) : (bootDone s).pwr.st = .run ∧ (bootDone s).fw.bootFails = 0 := by
  have ends : OnlyIn [.ports, .herds, .io, .waits, .flt] (bootRun s) (flushFixed (wakeEnds (bootRun s))) :=
    onlyIn_of_pick (by simp)
  have pwr : (flushFixed (wakeEnds (bootRun s))).pwr = (bootRun s).pwr := ends .pwr (by simp)
  have fw : (flushFixed (wakeEnds (bootRun s))).fw = (bootRun s).fw := ends .fw (by simp)
  have st : (bootRun s).pwr.st = .run := rfl
  have fails : (bootRun s).fw.bootFails = 0 := rfl
  unfold bootDone
  simp only []
  split
  · rw [openWindow, pwr, fw]
    exact ⟨st, fails⟩
  · rw [pwr, fw]
    exact ⟨st, fails⟩

theorem exec_bootFailTimeout {n : Nat} (st : s.pwr.st = .boot n sys) (low : 6 ≤ n) (high : n ≤ 10)
    (clock : s.clk.refclkOk = true) : exec .bootFailTimeout s = .next (bootFail s) := by
  simp [exec, execBootFailTimeout, st, clock, low, high]

/-- A boot failure short of the third counts and restarts (R490): its record leaves the count as it was. -/
theorem bootFail_restarts (few : s.fw.bootFails.toNat < 2) :
    (bootFail s).pwr.st = .boot 3 true ∧ (bootFail s).fw.bootFails.toNat = s.fw.bootFails.toNat + 1 := by
  have count : (raiseFault s 0xA63 0).fw.bootFails = s.fw.bootFails :=
    (congrArg Fw.bootFails (raises_raiseFault s 0xA63 0).fw :)
  unfold bootFail
  generalize raiseFault s 0xA63 0 = u at count ⊢
  simp only [count]
  rw [if_neg (by omega)]
  refine ⟨rfl, ?_⟩
  show (BitVec.ofNat 4 (s.fw.bootFails.toNat + 1)).toNat = _
  rw [BitVec.toNat_ofNat]
  omega

end

/-- Settles O6: each reset's parts stand in its definition but for what `lineRestart` and `fwRevert` do first, which is
beside them; the boot's steps go on by `bootNext`, the last by `bootDone_runs`, a failure by `bootFail_restarts`. -/
theorem bootRows : Obligations.BootRows := by
  unfold Obligations.BootRows
  refine ⟨?porst, ?release, ?sysrst, ?sysRelease, ?plain, ?last, ?fails, ?post⟩
  case porst =>
    intro s
    refine ⟨porReset s, rfl, rfl, rfl, rfl, rfl, rfl, rfl, rfl, ?_, rfl, porReset_disabled s⟩
    exact (congrArg Sec.lifecycle (sysReset_sec s .inPorst) :)
  case release =>
    intro b ce te s st
    refine ⟨{ s with straps := { bootSrc := b, chainEnd := ce, testEn := te }, time := State.reset.time
                     pwr := { s.pwr with st := .boot 2 false } }, by simp [exec, execPorstRelease, st], rfl, rfl, rfl, ?_⟩
    exact onlyIn_of_pick (by simp)
  case sysrst =>
    intro s heard
    have flt := sysReset_flt s .inSysrst
    have sec := sysReset_sec s .inSysrst
    refine ⟨sysReset s .inSysrst, by simp [exec, execSysrstAssert, heard], rfl, ?_, sysReset_straps s _, rfl, ?_, ?_,
      ?_, by rw [sec], by rw [sec], rfl, sysReset_disabled s _⟩
    · rw [sysReset_time]
    · rw [flt, keepFlt]
    · rw [flt, keepFlt]
    · rw [flt, keepFlt]
  case sysRelease =>
    intro s st
    exact ⟨_, by simp only [exec, execSysrstRelease, st, beq_self_eq_true, if_true], rfl⟩
  case plain =>
    intro o n sys s st clock plain
    obtain ⟨u, run⟩ := exec_bootStepDone_plain o st clock plain
    exact ⟨_, run, rfl⟩
  case last =>
    intro o sys s st clock
    exact ⟨_, exec_bootStepDone_last o st clock, bootDone_runs s⟩
  case fails =>
    intro n sys s st low high few clock
    exact ⟨_, exec_bootFailTimeout st low high clock, bootFail_restarts few⟩
  case post =>
    intro s st
    exact ⟨_, by simp [exec, execSidebandStatusRead, st], rfl⟩

end Sys2Proof.Proofs
end

section
/-!
PROOFS of the family 12_commands, 13_coherent_state, 15_events_faults, 16_clocks, 17_power, 19_firmware_update,
20_security and 21: what a herd's waiting commit leaves (R339), firmware events (O3).
-/

namespace Sys2Proof.Proofs

open Sys2Proof.Machine Sys2Proof.Safety

/-! ### What restarts and commits leave of herds and dies -/

/-- A herd's controller: its state and the image that it runs. -/
def herdRun (x : Herd) : HerdSt × BitVec 32 × BitVec 256 := (x.st, x.image, x.imageDig)

/-- The level a die runs at, and its floor. -/
def dieRun (x : Die) : Nat × Option Nat := (x.level, x.floor)

/-- Every herd controller runs on as it did, and every die at its level and floor. -/
structure RunsAlike (s t : State) : Prop where
  herd : ∀ h, herdRun (getHerd t h) = herdRun (getHerd s h)
  die  : ∀ d, dieRun (getDie t d) = dieRun (getDie s d)

/-- Every part of the state but herds and dies. -/
def besideRuns : List Area :=
  [.pending, .time, .mono, .fresh, .regs, .latches, .heldLow, .access, .straps, .clk, .pwr, .rails, .hubTemp, .ddr,
    .store, .ports, .io, .waits, .flt, .fw, .sec, .nv]

@[simp] theorem mem_besideRuns (a : Area) : a ∈ besideRuns ↔ a ≠ .herds ∧ a ≠ .dies := by
  cases a <;> simp [besideRuns]

section
variable {s t u : State}

theorem RunsAlike.refl : RunsAlike s s := ⟨fun _ => rfl, fun _ => rfl⟩

theorem RunsAlike.trans (h : RunsAlike s t) (k : RunsAlike t u) : RunsAlike s u :=
  ⟨fun g => (k.herd g).trans (h.herd g), fun d => (k.die d).trans (h.die d)⟩

/-- A definition whose frame has neither herds nor dies. -/
theorem RunsAlike.of_pick (k : pick besideRuns t = pick besideRuns s) : RunsAlike s t := by
  have herds : t.herds = s.herds := onlyIn_of_pick k .herds (by simp)
  have dies : t.dies = s.dies := onlyIn_of_pick k .dies (by simp)
  exact ⟨fun h => by simp only [getHerd, herds], fun d => by simp only [getDie, dies]⟩

theorem runsAlike_forEach {α : Type} {f : State → α → State} (each : ∀ s x, RunsAlike s (f s x)) (l : List α)
    (s : State) : RunsAlike s (forEach l f s) := by
  unfold forEach
  induction l generalizing s with
  | nil => exact .refl
  | cons x l ih => exact (each s x).trans (ih _)

theorem runsAlike_setHerd {h : HerdId} {x : Herd} (same : herdRun x = herdRun (getHerd s h)) :
    RunsAlike s (setHerd s h x) := by
  refine ⟨fun g => ?_, fun _ => rfl⟩
  by_cases e : g = h
  · subst e
    rw [getHerd_setHerd_self, same]
  · rw [getHerd_setHerd_ne _ _ e]

theorem runsAlike_modHerd {h : HerdId} {f : Herd → Herd} (same : ∀ x, herdRun (f x) = herdRun x) :
    RunsAlike s (modHerd s h f) := runsAlike_setHerd (same _)

theorem runsAlike_modPort (s : State) (p : PortId) (f : Port → Port) : RunsAlike s (modPort s p f) :=
  .of_pick (by simp)

theorem runsAlike_postPort (s : State) (p : PortId) (n : Nat) (l : List Fld) : RunsAlike s (postPort s p n l) :=
  .of_pick (by simp)

theorem runsAlike_setObs (s : State) (h : HerdId) (o : Obs) : RunsAlike s (setObs s h o) := runsAlike_setHerd rfl

theorem runsAlike_setDie {d : DieId} {x : Die} (same : dieRun x = dieRun (getDie s d)) :
    RunsAlike s (setDie s d x) := by
  refine ⟨fun _ => rfl, fun e => ?_⟩
  by_cases n : e = d
  · subst n
    rw [getDie_setDie_self, same]
  · rw [getDie_setDie_ne _ _ n]

theorem runsAlike_complete (op : Nat) (c : Cmd) (l : List MirrorObj) (a : BitVec 8) (r : BitVec 64) :
    RunsAlike s (complete s op c l a r) := by
  have dies : (complete s op c l a r).dies = s.dies := onlyIn_of_pick (m := [.herds, .io]) (by simp) .dies (by simp)
  exact ⟨fun h => (congrArg herdRun (herdRest_complete s op c l a r h) :), fun d => by simp only [getDie, dies]⟩

theorem runsAlike_completeOk (op : Nat) (c : Cmd) (l : List MirrorObj) (r : Nat) :
    RunsAlike s (completeOk s op c l r) := runsAlike_complete _ _ _ _ _

theorem runsAlike_reject (op : Nat) (c : Cmd) (a : BitVec 8) (r : BitVec 64) : RunsAlike s (reject s op c a r) :=
  runsAlike_complete _ _ _ _ _

/-! Levels: a step begins, a level is headed for; none is reached. -/

theorem runsAlike_railTo (s : State) (r : RailId) (mv : Nat) : RunsAlike s (railTo s r mv) := .of_pick (by simp)

theorem runsAlike_stepBegin (s : State) (d : DieId) (n : Nat) : RunsAlike s (stepBegin s d n) := by
  have begun : RunsAlike s (setDie s d { getDie s d with step := some n }) := runsAlike_setDie rfl
  exact begun.trans (runsAlike_railTo _ _ _)

theorem runsAlike_retarget (s : State) (d : DieId) : RunsAlike s (retarget s d) := by
  unfold retarget
  simp only []
  split
  · exact runsAlike_setDie rfl
  · split
    · exact runsAlike_setDie rfl
    · refine RunsAlike.trans (runsAlike_setDie ?_) (runsAlike_stepBegin _ _ _)
      rfl

theorem runsAlike_levelWaits (s : State) (d : DieId) : RunsAlike s (levelWaits s d) := by
  unfold levelWaits
  simp only []
  split
  · refine RunsAlike.trans ?_ (runsAlike_forEach (fun _ _ => runsAlike_completeOk _ _ _ _) _ _)
    exact .of_pick (by simp)
  · exact .refl

/-! The observation path. -/

theorem runsAlike_captureReady (s : State) (h : HerdId) (source : Nat) (k : Taken) :
    RunsAlike s (captureReady s h source k) := .of_pick (by simp)

theorem runsAlike_captureStopped (s : State) (h : HerdId) (e : ObsEnd) (k : Option Taken) :
    RunsAlike s (captureStopped s h e k) := .of_pick (by simp)

theorem runsAlike_freeNat (s : State) : RunsAlike s (freeNat s).2 := .of_pick (by simp)

theorem runsAlike_captureTake (s : State) (h : HerdId) : RunsAlike s (captureTake s h) := by
  unfold captureTake
  simp only []
  split
  · split
    · exact RunsAlike.trans (.of_pick (by simp)) (runsAlike_setObs _ _ _)
    · exact .refl
  · exact .refl

theorem runsAlike_captureWrite (s : State) (h : HerdId) (b : Taken) (n : Nat) (noTime : BitVec 64)
    (last : Option ObsEnd) : RunsAlike s (captureWrite s h b n noTime last) :=
  RunsAlike.trans (.of_pick (by simp)) (runsAlike_setObs _ _ _)

theorem runsAlike_stopDone (s : State) (h : HerdId) : RunsAlike s (stopDone s h) :=
  (runsAlike_setObs _ _ _).trans (runsAlike_forEach (fun _ _ => runsAlike_completeOk _ _ _ _) _ _)

theorem runsAlike_captureFill (n : Nat) (h : HerdId) (s : State) : RunsAlike s (captureFill n h s) := by
  induction n generalizing s with
  | zero => exact .refl
  | succ n ih =>
    unfold captureFill
    simp only []
    refine (runsAlike_captureTake s h).trans ?_
    split
    · split
      · exact ((runsAlike_captureWrite _ _ _ _ _ _).trans (runsAlike_captureReady _ _ _ _)).trans (ih _)
      · exact .refl
    · exact .refl

theorem runsAlike_captureEnd (n : Nat) (h : HerdId) (e : ObsEnd) (s : State) :
    RunsAlike s (captureEnd n h e s) := by
  induction n generalizing s with
  | zero => exact .refl
  | succ n ih =>
    unfold captureEnd
    simp only []
    refine (runsAlike_captureTake s h).trans ?_
    split
    · split
      · exact .refl
      · split
        · refine RunsAlike.trans ?_ (runsAlike_stopDone _ h)
          refine RunsAlike.trans ?_ (runsAlike_captureStopped _ _ _ _)
          exact (runsAlike_freeNat _).trans (runsAlike_captureWrite _ _ _ _ _ _)
        · exact ((runsAlike_captureWrite _ _ _ _ _ _).trans (runsAlike_captureReady _ _ _ _)).trans (ih _)
    · split
      · exact .refl
      · exact RunsAlike.trans (.of_pick (by simp)) (runsAlike_stopDone _ h)

theorem runsAlike_captureDrain (s : State) (h : HerdId) : RunsAlike s (captureDrain s h) := by
  unfold captureDrain
  simp only []
  split
  · exact runsAlike_captureEnd _ _ _ _
  · exact runsAlike_captureFill _ _ _

theorem runsAlike_obsStopWith (s : State) (h : HerdId) (cause : Nat) : RunsAlike s (obsStopWith s h cause) := by
  unfold obsStopWith
  simp only []
  split
  · exact (runsAlike_setObs _ _ _).trans (runsAlike_captureDrain _ h)
  · exact .refl

theorem runsAlike_doSelect (s : State) (h : HerdId) (c : Cmd) (source decim : Nat) :
    RunsAlike s (doSelect s h c source decim) := by
  unfold doSelect
  simp only []
  split
  · exact runsAlike_reject _ _ _ _
  · split
    · exact runsAlike_reject _ _ _ _
    · exact (runsAlike_setObs _ _ _).trans (runsAlike_completeOk _ _ _ _)

theorem runsAlike_doStop (s : State) (h : HerdId) (c : Cmd) : RunsAlike s (doStop s h c) := by
  unfold doStop
  simp only []
  refine (runsAlike_obsStopWith s h 0x01).trans ?_
  split
  · exact runsAlike_setObs _ _ _
  · exact runsAlike_completeOk _ _ _ _

theorem runsAlike_doStart (s : State) (h : HerdId) (mode : BitVec 8) (count : BitVec 32) (ring : BitVec 16) :
    RunsAlike s (doStart s h mode count ring) := by
  refine RunsAlike.trans ?_ (runsAlike_setObs _ _ _)
  unfold dropLast
  split
  · exact RunsAlike.trans (.of_pick (by simp)) (runsAlike_stopDone _ h)
  · exact .refl

theorem runsAlike_finishStart (s : State) (h : HerdId) (c : Cmd) (mode : BitVec 8) (count : BitVec 32)
    (time : BitVec 64) : RunsAlike s (finishStart s h c mode count time) := by
  unfold finishStart
  split
  · exact RunsAlike.trans (.of_pick (by simp)) (runsAlike_reject _ _ _ _)
  · refine RunsAlike.trans ?_ (runsAlike_completeOk _ _ _ _)
    split
    · exact runsAlike_doStart _ _ _ _ _
    · exact runsAlike_setObs _ _ _

theorem runsAlike_obsWaited (h : HerdId) (s : State) (w : ObsWait) : RunsAlike s (obsWaited h s w) := by
  cases w with
  | select c source decim => exact runsAlike_doSelect _ _ _ _ _
  | stop c => exact runsAlike_doStop _ _ _
  | start c mode count time => exact runsAlike_finishStart _ _ _ _ _ _

theorem runsAlike_obsModeChange (s : State) (h : HerdId) : RunsAlike s (obsModeChange s h) := by
  refine (runsAlike_obsStopWith s h 0x05).trans ?_
  exact (runsAlike_setObs _ _ _).trans (runsAlike_forEach (runsAlike_obsWaited h) _ _)

/-! Restarts. -/

theorem runsAlike_releaseMode (s : State) (h : HerdId) (reaction : Bool) :
    RunsAlike s (releaseMode s h reaction) := by
  unfold releaseMode
  simp only []
  split
  · refine RunsAlike.trans (t := setHerd s h { getHerd s h with resolved := none }) (runsAlike_setHerd rfl) ?_
    split
    · exact .refl
    · exact runsAlike_retarget _ _
  · exact .refl

theorem runsAlike_setSt (s : State) (p : PortId) (st : PortSt) : RunsAlike s (setSt s p st) := by
  unfold setSt
  simp only []
  refine RunsAlike.trans ?_ (runsAlike_releaseMode _ _ _)
  split
  · exact .of_pick (by simp)
  · exact RunsAlike.trans (.of_pick (by simp)) (runsAlike_modHerd fun _ => rfl)

theorem runsAlike_newAttempt (s : State) (p : PortId) : RunsAlike s (newAttempt s p) := by
  unfold newAttempt
  simp only []
  have drawn : RunsAlike s (drawNeg s).2 := .of_pick (by simp)
  exact (drawn.trans (runsAlike_setSt _ p .negotiate)).trans (runsAlike_modPort _ _ _)

theorem runsAlike_failWaits (s : State) (p : PortId) (cause : Nat) : RunsAlike s (failWaits s p cause) := by
  refine RunsAlike.trans ?_ (runsAlike_forEach (fun s w => ?_) _ _)
  · exact .of_pick (by simp)
  · cases w with
    | paired => exact runsAlike_reject _ _ _ _
    | loop => exact runsAlike_reject _ _ _ _
    | level => exact .refl
    | sync => exact .refl

theorem runsAlike_handoverStart (s : State) (h : HerdId) : RunsAlike s (handoverStart s h) :=
  runsAlike_modHerd fun x => by split <;> rfl

theorem runsAlike_endCal (s : State) (p : PortId) : RunsAlike s (endCal s p) := .of_pick (by simp)

theorem runsAlike_leaveUp (s : State) (p : PortId) (cause : Nat) (next : PortSt) :
    RunsAlike s (leaveUp s p cause next) := by
  unfold leaveUp
  simp only []
  refine RunsAlike.trans (RunsAlike.trans ?_ (runsAlike_postPort _ _ _ _)) (runsAlike_failWaits _ _ _)
  have left : ∀ x : Port, RunsAlike s (setSt (setPort s p x) p next) :=
    fun x => RunsAlike.trans (.of_pick (by simp)) (runsAlike_setSt _ _ _)
  split
  · split
    · exact ((left _).trans (runsAlike_handoverStart _ _)).trans (runsAlike_endCal _ _)
    · exact (left _).trans (runsAlike_endCal _ _)
  · split
    · exact (left _).trans (runsAlike_handoverStart _ _)
    · exact left _

theorem runsAlike_restartForMode (s : State) (p : PortId) : RunsAlike s (restartForMode s p) := by
  unfold restartForMode
  simp only []
  split
  · exact ((runsAlike_leaveUp _ _ _ _).trans (runsAlike_modPort _ _ _)).trans (runsAlike_newAttempt _ _)
  · split
    · exact RunsAlike.trans (.of_pick (by simp)) (runsAlike_newAttempt _ _)
    · split
      · split
        · exact .refl
        · exact RunsAlike.trans (.of_pick (by simp)) (runsAlike_newAttempt _ _)
      · exact .refl

theorem runsAlike_restartForPolicy (s : State) (p : PortId) : RunsAlike s (restartForPolicy s p) := by
  unfold restartForPolicy
  split
  · exact ((runsAlike_leaveUp _ _ _ _).trans (runsAlike_modPort _ _ _)).trans (runsAlike_newAttempt _ _)
  · exact .refl

theorem runsAlike_herdRestarts (s : State) (h : HerdId) (modeChanged policyChanged : Bool) :
    RunsAlike s (herdRestarts s h modeChanged policyChanged) := by
  unfold herdRestarts
  simp only []
  refine RunsAlike.trans (runsAlike_forEach (fun s p => ?_) _ _) (runsAlike_modHerd fun _ => rfl)
  split
  · exact runsAlike_restartForMode s p
  · exact runsAlike_restartForPolicy s p

/-! A waiting commit, and the release of ports that a herd's restart held. -/

theorem runsAlike_movePll (s : State) (h : HerdId) : RunsAlike s (movePll s h) := by
  have cleared : RunsAlike s (modHerd s h fun x => { x with pllOld := none }) := runsAlike_modHerd fun _ => rfl
  unfold movePll
  split
  · exact cleared.trans (.of_pick (by simp))
  · exact .refl

theorem runsAlike_requestSwitch (s : State) (d : Domain) (toPll : Bool) :
    RunsAlike s (requestSwitch s d toPll) := .of_pick (by simp)

theorem runsAlike_repath (s : State) (h : HerdId) : RunsAlike s (repath s h) := .of_pick (by simp)

theorem runsAlike_setPllMode (s : State) (h : HerdId) (m : LineMode) : RunsAlike s (setPllMode s h m) := by
  unfold setPllMode
  simp only []
  have moved : RunsAlike s (modHerd s h fun x => { x with pllMode := m, pllOld := none }) :=
    runsAlike_modHerd fun _ => rfl
  split
  · exact moved
  · have kept : RunsAlike s (modHerd (modHerd s h fun x => { x with pllMode := m, pllOld := none }) h
        fun x => { x with pllOld := some (pllRuns (getHerd s h)) }) := moved.trans (runsAlike_modHerd fun _ => rfl)
    split
    · exact (kept.trans (runsAlike_requestSwitch _ _ _)).trans (runsAlike_movePll _ h)
    · exact kept.trans (runsAlike_requestSwitch _ _ _)

theorem runsAlike_dissolve (s : State) (h : HerdId) : RunsAlike s (dissolve s h) := by
  have apart : RunsAlike s (modHerd s h fun x => { x with timing := .perPort, lead := none, trunk := none }) :=
    runsAlike_modHerd fun _ => rfl
  exact apart.trans (runsAlike_repath _ _)

theorem runsAlike_applyHerd (s : State) (h : HerdId) (modeSet : BitVec 5) (policy : Bool) :
    RunsAlike s (applyHerd s h modeSet policy) := by
  have live : RunsAlike s (setHerd s h { getHerd s h with
      modeSet := modeSet, policy := policy, commit := none, cfgGen := (getHerd s h).cfgGen + 1
      resolved := if modeSet != (getHerd s h).modeSet then singleMode modeSet else (getHerd s h).resolved }) :=
    runsAlike_setHerd rfl
  unfold applyHerd
  simp only []
  generalize setHerd s h _ = u at live ⊢
  have moved : RunsAlike s (if modeSet != (getHerd s h).modeSet then
      setPllMode u h ((firstMode modeSet).getD .l100) else u) := by
    split
    · exact live.trans (runsAlike_setPllMode _ _ _)
    · exact live
  split
  · exact moved.trans (runsAlike_dissolve _ _)
  · exact moved

theorem runsAlike_herdApply (s : State) (h : HerdId) (k : Commit) : RunsAlike s (herdApply s h k) := by
  have live : RunsAlike s (setsLive s h k) :=
    (runsAlike_applyHerd _ _ _ _).trans (runsAlike_forEach (fun _ _ => .of_pick (by simp)) _ _)
  rw [herdApply_eq]
  refine RunsAlike.trans ?_ (runsAlike_completeOk _ _ _ _)
  unfold restarted
  refine RunsAlike.trans (RunsAlike.trans ?_ (runsAlike_herdRestarts _ _ _ _)) (runsAlike_retarget _ _)
  split
  · exact live
  · exact live.trans (runsAlike_obsModeChange _ _)

theorem runsAlike_applyWaiting (s : State) (h : HerdId) : RunsAlike s (applyWaiting s h) := by
  unfold applyWaiting
  split
  · split
    · exact runsAlike_herdApply _ _ _
    · exact .refl
  · exact .refl

theorem runsAlike_releaseHeld (s : State) (p : PortId) : RunsAlike s (releaseHeld s p) := by
  unfold releaseHeld releasePort
  split
  · simp only []
    split
    · exact runsAlike_setSt _ _ _
    · exact runsAlike_setSt _ _ _
    · exact RunsAlike.trans (.of_pick (by simp)) (runsAlike_newAttempt _ _)
  · exact .refl

end
end Sys2Proof.Proofs
end

section
/-!
PROOFS of the family 12_commands, 13_coherent_state, 15_events_faults, 16_clocks, 17_power, 19_firmware_update,
20_security and 21: firmware events (O3).
-/

namespace Sys2Proof.Proofs

open Sys2Proof.Machine Sys2Proof.Safety

/-! ### The session and the staged set (R473, R474) -/

section
variable {s : State}

theorem closeSession_fw (s : State) : (closeSession s).fw = { s.fw with session := none } := by
  unfold closeSession
  split
  · rename_i x _
    exact onlyIn_of_pick (m := [.io]) (s := { s with fw := { s.fw with session := none } }) (by simp) .fw (by simp)
  · rename_i none
    rw [← none]

theorem restFw_fields (f : Fw) : ∃ q, restFw f = { f with seq := q } := by
  unfold restFw
  split
  · exact ⟨_, rfl⟩
  · exact ⟨f.seq, rfl⟩

theorem ibexMark_fw (s : State) (h : ImageHeader) : ∃ b, (ibexMark s h).fw = { s.fw with ibexStaged := b } := by
  unfold ibexMark
  split
  · exact ⟨true, rfl⟩
  · exact ⟨s.fw.ibexStaged, rfl⟩

theorem triGet_triSet {α : Type} (t : Tri α) (k : Fin 3) (x : α) : triGet (triSet t k x) k = x := by
  match k with
  | 0 => rfl
  | 1 => rfl
  | 2 => rfl

/-- The image is staged and its session closes; what comes after posts events and completes a command. -/
theorem programDone_stages {x : Session} {k : Fin 3} (session : s.fw.session = some x) (programs : x.program = true)
    (kind : kindOf (hdrKind x.header) = some k) :
    (programDone s true).fw.session = none ∧
      triGet (programDone s true).fw.staged k = some (imgOf x.header (x.source == 2)) ∧
      (programDone s true).fw.running = s.fw.running := by
  have flashed : (flashSlot s k x.header.digest).fw = s.fw := onlyIn_of_pick (m := [.io]) (by simp) .fw (by simp)
  obtain ⟨q, rest⟩ := restFw_fields { s.fw with staged := triSet s.fw.staged k (some (imgOf x.header (x.source == 2))) }
  have staged : (stageKind (flashSlot s k x.header.digest) k (imgOf x.header (x.source == 2))).fw =
      { s.fw with staged := triSet s.fw.staged k (some (imgOf x.header (x.source == 2))), seq := q } := by
    rw [stageKind, flashed, rest]
  obtain ⟨b, marked⟩ := ibexMark_fw
    (closeSession (stageKind (flashSlot s k x.header.digest) k (imgOf x.header (x.source == 2)))) x.header
  rw [closeSession_fw, staged] at marked
  simp only [programDone, session, programs, kind, Bool.not_true, Bool.false_eq_true, if_false]
  generalize ibexMark _ x.header = u at marked ⊢
  have ends : ∀ l, (sessionOk (postGlobal u 80 l) x).fw = u.fw :=
    fun l => onlyIn_of_pick (m := [.herds, .io]) (by simp) .fw (by simp)
  rw [ends, marked]
  exact ⟨rfl, triGet_triSet _ _ _, rfl⟩

theorem exec_fwProgramDone (ok : Bool) (clock : s.clk.refclkOk = true) :
    exec (.fwProgramDone ok) s = .next (programDone s ok) := by
  simp [exec, execFwProgramDone, clock]

/-- The oldest FW.STAGE gives up its wait: no session of its own is open. -/
theorem exec_fwStageBufferTimeout {r : Stage} {l : List Stage} (stages : s.fw.stages = r :: l)
    (session : s.fw.session = none) (clock : s.clk.refclkOk = true) :
    exec .fwStageBufferTimeout s = .next (reject (stageStop s r [] true) 0x0D01 r.cmd stTimeout 0) := by
  simp [exec, execFwStageBufferTimeout, clock, stages, stageStop, session]

/-! ### The sequence (R482 to R488) -/

/-- A sequence in its hub phase waits for no herd. -/
theorem seqCheck_hubPhase (hub : s.fw.hubPhase = true) : seqCheck s = s := by simp [seqCheck, hub]

theorem yieldSession_closed (none : s.fw.session = none) : yieldSession s = s := by simp [yieldSession, none]

/-- A sequence that begins with a hub phase. -/
theorem seqStart_hub (s : State) (back : Bool) (tgt : Tri Img) (safe : Bool) :
    seqStart s back tgt safe true = { s with fw := { s.fw with
      seq := if back then .falling else .running, fallback := false, target := tgt
      previous := triMap some s.fw.running, prevValid := false, startT := now s, hubPhase := true, herdsNew := 0
      deferred := [], deadline := 0, expired := false, safeSlot := safe
      prevPers := if back then s.fw.prevPers else none, setReset := back && s.fw.setReset } } :=
  seqCheck_hubPhase rfl

/-- A due activation of a changed hub image begins with the hub phase. -/
theorem exec_fwActivationStart (seq : s.fw.seq = .scheduled) (serves : inService s = true)
    (plain : s.fw.fallback = false) (session : s.fw.session = none) (due : s.fw.startT.toNat ≤ s.time.now.toNat)
    (edge : waitsEdge s = false) (hub : changed (stagedSet s.fw).hub s.fw.running.hub = true)
    (fits : setCompatible s.fw.running (stagedSet s.fw) = true) (clock : s.clk.refclkOk = true) :
    exec .fwActivationStart s = .next (seqStart s false (stagedSet s.fw) s.fw.slot true) := by
  have awake : (s.pwr.st == .ibex) = false := by
    unfold inService at serves
    split at serves
    · simp [*]
    · simp [*]
    · cases serves
  have past : ¬(now s).toNat < s.fw.startT.toNat := not_lt.mpr due
  have any : anyChanged (stagedSet s.fw) s.fw.running = true := by simp [anyChanged, hub]
  simp [exec, execFwActivationStart, clock, past, edge, scheduledStart, seq, awake, serves, plain, activationStart,
    yieldSession_closed session, any, fits, hub]

/-- The hub's commands that still run end as its management goes down (R483). -/
theorem rejectAll_onlyIn (s : State) (l : List Cmd) :
    OnlyIn [.herds, .io] s (forEach l (fun u c => reject u c.opcode.toNat c stSuperseded 0) s) :=
  onlyIn_of_pick (by simp)

/-- Management goes down: what was staged from buffers stops. -/
theorem exec_hubPhaseManagementDown (seq : s.fw.seq = .running) (hub : s.fw.hubPhase = true)
    (mgmt : s.fw.mgmtDown = false) (clock : s.clk.refclkOk = true) :
    ∃ t, exec .hubPhaseManagementDown s = .next t ∧ t.fw.mgmtDown = true ∧ t.fw.stages = [] ∧ t.ports = s.ports ∧
      t.store = s.store := by
  have dropped : OnlyIn [.io] s (forEach s.io.snaps snapDrop s) := onlyIn_of_pick (by simp)
  have ports : (forEach s.io.snaps snapDrop s).ports = s.ports := dropped .ports (by simp)
  have store : (forEach s.io.snaps snapDrop s).store = s.store := dropped .store (by simp)
  simp only [exec, execHubPhaseManagementDown, clock, seq, hub, mgmt, Bool.not_true, Bool.not_false, beq_self_eq_true,
    Bool.true_or, Bool.and_self, Bool.false_eq_true, if_false, if_true]
  refine ⟨_, rfl, rfl, ?_, ?_, ?_⟩
  · exact (congrArg Fw.stages (rejectAll_onlyIn _ s.io.hubQueue .fw (by simp)) :)
  · exact (rejectAll_onlyIn _ s.io.hubQueue .ports (by simp)).trans ports
  · exact (rejectAll_onlyIn _ s.io.hubQueue .store (by simp)).trans store

/-- A hub image that runs keeps running as herds complete the sequence (R483, R487). -/
theorem seqCheck_hubDone (seq : s.fw.seq = .running) (hub : s.fw.running.hub = s.fw.target.hub)
    (slot : s.fw.slot = !s.fw.safeSlot) : (seqCheck s).fw.mgmtDown = s.fw.mgmtDown ∧
      (seqCheck s).fw.running.hub = s.fw.target.hub ∧ (seqCheck s).fw.slot = !s.fw.safeSlot := by
  unfold seqCheck
  split
  · simp only [seqEnd, seq]
    exact ⟨rfl, rfl, rfl⟩
  · exact ⟨rfl, hub, slot⟩

theorem settingsReset_fw (s : State) (old : BitVec 16) :
    (settingsReset s old).fw = { s.fw with setReset := true } := postGlobal_fw _ _ _

theorem settingsOver_fw (s : State) (ok : Bool) :
    ∃ a b c, (settingsOver s ok).fw = { s.fw with prevPers := a, format := b, setReset := c } := by
  unfold settingsOver
  simp only []
  split
  · exact ⟨_, _, _, rfl⟩
  · rw [settingsReset_fw]
    exact ⟨_, _, _, rfl⟩

/-- The firmware once the new hub image runs: in the slot that a reset would not boot (R483, R489). -/
def hubUp (f : Fw) : Fw :=
  { f with running := { f.running with hub := f.target.hub }, hubPhase := false, mgmtDown := false
           slot := !f.safeSlot }

/-- What follows the new image's settings, up to the check of the herds, leaves the firmware. -/
theorem resumed_fw (u : State) (i : Img) :
    (postActivated (resumeHost (flushFixed u)) 1 0xFF i).fw = u.fw :=
  onlyIn_of_pick (m := [.pwr, .ports, .herds, .io, .waits, .flt]) (by simp) .fw (by simp)

theorem hubPhaseDone_eq (seq : s.fw.seq = .running) : ∃ u a b c, hubPhaseDone s true = seqCheck u ∧
    u.fw = hubUp { s.fw with prevPers := a, format := b, setReset := c } := by
  obtain ⟨a, b, c, new⟩ := settingsOver_fw s true
  have ahead : (s.fw.seq == .falling) = false := by rw [seq]; rfl
  unfold hubPhaseDone
  simp only [ahead, Bool.false_eq_true, if_false]
  generalize settingsOver s true = u at new ⊢
  refine ⟨_, a, b, c, rfl, ?_⟩
  rw [resumed_fw, new]
  rfl

/-- The hub phase ends: management is up on the new hub image, in the other slot. -/
theorem hubPhaseDone_comes (seq : s.fw.seq = .running) : (hubPhaseDone s true).fw.mgmtDown = false ∧
    (hubPhaseDone s true).fw.running.hub = s.fw.target.hub ∧ (hubPhaseDone s true).fw.slot = !s.fw.safeSlot := by
  obtain ⟨u, a, b, c, checked, fw⟩ := hubPhaseDone_eq seq
  obtain ⟨mgmt, hub, slot⟩ := seqCheck_hubDone (s := u) (by rw [fw]; exact seq) (by rw [fw]; rfl) (by rw [fw]; rfl)
  rw [fw] at mgmt hub slot
  rw [checked]
  exact ⟨mgmt, hub, slot⟩

/-! ### Herds (R28, R29, R483, R484) -/

section
variable {h : HerdId} (seq : s.fw.seq = .running) (hub : s.fw.hubPhase = false) (due : herdDone s h = false)
  (comes : slotComes s h = true) (fits : compatible s.fw.target.herd s.fw.running.hub = true)
  (runs : herdsRun s = true)
include seq hub due comes fits runs

theorem exec_fwHerdSlot_restarts (normal : (getHerd s h).st = .normal) (quiet : herdReacts s h = false) :
    exec (.fwHerdSlot h) s = .next (mirrorWrite
      (modHerd { s with fw := { s.fw with deferred := s.fw.deferred.erase h } } h fun y => { y with st := .fwRestart })
      (.herd h)) := by
  simp [exec, execFwHerdSlot, runs, seq, hub, due, comes, fits, normal, quiet]

theorem exec_fwHerdSlot_defers (busy : (getHerd s h).st ≠ .normal) (restarts : (getHerd s h).st ≠ .fwRestart)
    (new : h ∉ s.fw.deferred) :
    exec (.fwHerdSlot h) s = .next { s with fw := { s.fw with deferred := s.fw.deferred ++ [h] } } := by
  simp [exec, execFwHerdSlot, runs, seq, hub, due, comes, fits, busy, restarts, new]

end

/-- A herd's record once its controller runs an image. -/
def onImage (i : Img) (y : Herd) : Herd := { y with st := .normal, image := i.version, imageDig := i.digest }

/-- A herd that has restarted runs the new image; its waiting commit and its ports follow without a change of it. -/
theorem exec_fwHerdRestartDone {h : HerdId} (st : (getHerd s h).st = .fwRestart) (runs : herdsRun s = true) :
    ∃ t, exec (.fwHerdRestartDone h) s = .next t ∧
      herdRun (getHerd t h) = (.normal, s.fw.target.herd.version, s.fw.target.herd.digest) := by
  have ends : ∀ (u : State) (l : List MirrorObj) (n : Nat),
      RunsAlike u (seqCheck (postActivated (forEach l mirrorWrite u) 2 n s.fw.target.herd)) :=
    fun u l n => .of_pick (by simp)
  simp only [exec, execFwHerdRestartDone, runs, st, Bool.not_true, Bool.false_eq_true, if_false, beq_self_eq_true,
    if_true]
  refine ⟨_, rfl, ?_⟩
  rw [(ends _ _ _).herd, (runsAlike_applyWaiting _ h).herd, (runsAlike_forEach runsAlike_releaseHeld _ _).herd]
  show herdRun (getHerd (modHerd s h (onImage s.fw.target.herd)) h) = _
  rw [getHerd_modHerd_self]
  rfl

/-! ### Failures and the window (R485, R487) -/

/-- A restart that does not come back turns the sequence round: management that is down comes back first. -/
theorem exec_activationRestartTimeout (seq : s.fw.seq = .running) (mgmt : s.fw.mgmtDown = true)
    (clock : s.clk.refclkOk = true) : ∃ u safe, exec .activationRestartTimeout s =
      .next (seqStart u true (safeSet s.fw) safe true) := by
  have down : (postReturn (raiseFault s 0xA62 0) 2).fw.mgmtDown = true := by
    have kept : (raiseFault s 0xA62 0).fw.mgmtDown = s.fw.mgmtDown :=
      (congrArg Fw.mgmtDown (raises_raiseFault s 0xA62 0).fw :)
    simp [postReturn, kept, mgmt]
  refine ⟨postReturn (raiseFault s 0xA62 0) 2, (postReturn (raiseFault s 0xA62 0) 2).fw.safeSlot, ?_⟩
  simp [exec, execActivationRestartTimeout, clock, seq, mgmt, seqFail, down]

/-- A window that ends unconfirmed falls back, and says why. -/
theorem exec_fwConfirmExpiry (opened : windowOpen s.fw = true) (due : s.fw.deadline.toNat ≤ s.time.now.toNat)
    (serves : inService s = true) (session : s.fw.session = none)
    (hub : changed (previousSet s.fw).hub s.fw.running.hub = true) (clock : s.clk.refclkOk = true) :
    exec .fwConfirmExpiry s =
      .next (seqStart (postReturn s 1) true (previousSet s.fw) (!s.fw.slot) true) := by
  have past : s.fw.deadline.toNat ≤ (now s).toNat := due
  simp [exec, execFwConfirmExpiry, clock, opened, past, windowEnd, serves, fallbackStart, yieldSession_closed session,
    hub]

end

/-- Settles O3: `exec_…` says for each event the state that it leads to; `programDone_stages`, `seqStart_hub`,
`hubPhaseDone_comes` and `exec_fwHerdRestartDone` say what stands in it of the firmware and the herd. -/
theorem fwEvents : Obligations.FwEvents := by
  unfold Obligations.FwEvents
  refine ⟨?staged, ?timeout, ?begins, ?down, ?comes, ?restarts, ?defers, ?restarted, ?turns, ?expires⟩
  case staged =>
    intro s x k session programs kind clock
    exact ⟨_, exec_fwProgramDone true clock, programDone_stages session programs kind⟩
  case timeout =>
    intro s r l stages runs session clock
    refine ⟨_, exec_fwStageBufferTimeout stages session clock, ?_, ?_, ?_⟩
    · rw [reject_fw, ← stages]
      rfl
    · rw [reject_fw]
      rfl
    · exact answered_reject_after (s := s) (u := stageStop s r [] true) rfl runs
  case begins =>
    intro s seq serves plain session due edge hub fits clock
    refine ⟨_, exec_fwActivationStart seq serves plain session due edge hub fits clock, ?_⟩
    rw [seqStart_hub]
    exact ⟨rfl, rfl, rfl, rfl, rfl, rfl, onlyIn_of_pick (by simp)⟩
  case down =>
    intro s seq hub mgmt clock
    exact exec_hubPhaseManagementDown seq hub mgmt clock
  case comes =>
    intro s seq hub mgmt clock
    exact ⟨hubPhaseDone s true, by simp [exec, execFwHubPhaseDone, clock, seq, hub, mgmt], hubPhaseDone_comes seq⟩
  case restarts =>
    intro h s seq hub due comes normal quiet fits runs
    have written : OnlyIn [.io] _ _ := onlyIn_of_pick (m := [.io]) (pick_mirrorWrite [.io] (modHerd
      { s with fw := { s.fw with deferred := s.fw.deferred.erase h } } h fun y => { y with st := .fwRestart })
      (.herd h) (by simp))
    refine ⟨_, exec_fwHerdSlot_restarts seq hub due comes fits runs normal quiet, ?_, fun g n => ?_, ?_, ?_⟩
    · rw [getHerd_mirrorWrite, getHerd_modHerd_self]
    · rw [getHerd_mirrorWrite, getHerd_modHerd_ne _ _ n]
      rfl
    · exact written .ports (by simp)
    · exact written .fw (by simp)
  case defers =>
    intro h s seq hub due comes busy restarts new fits runs
    exact ⟨_, exec_fwHerdSlot_defers seq hub due comes fits runs busy restarts new, rfl⟩
  case restarted =>
    intro h s st runs
    obtain ⟨t, run, herd⟩ := exec_fwHerdRestartDone st runs
    simp only [herdRun, Prod.mk.injEq] at herd
    exact ⟨t, run, herd⟩
  case turns =>
    intro s seq mgmt clock
    obtain ⟨u, safe, run⟩ := exec_activationRestartTimeout seq mgmt clock
    refine ⟨_, run, ?_⟩
    rw [seqStart_hub]
    exact ⟨rfl, rfl, rfl⟩
  case expires =>
    intro s opened due serves session hub clock
    refine ⟨_, exec_fwConfirmExpiry opened due serves session hub clock, ?_⟩
    rw [seqStart_hub]
    exact ⟨rfl, rfl, rfl, posted_postGlobal s 82 _⟩

end Sys2Proof.Proofs
end

section
/-!
PROOFS of the family 12_commands, 13_coherent_state, 15_events_faults, 16_clocks, 17_power, 19_firmware_update,
20_security and 21: the Wesal chain and Ibex frames (O4).
-/

namespace Sys2Proof.Proofs

open Sys2Proof.Machine Sys2Proof.Safety

/-! ### The chain's receivers and what goes out (R475, R477) -/

section
variable {s : State}

theorem chainLock_changes {valid : Bool} {run : Nat} (long : (if valid then 64 else 16) ≤ run) :
    chainLock (!valid) valid run = valid := by
  cases valid with
  | true => simpa [chainLock] using long
  | false =>
    have short : ¬run < 16 := by simpa using long
    simp [chainLock, short]

theorem chainLock_keeps {valid : Bool} {run : Nat} (short : run < (if valid then 64 else 16)) :
    chainLock (!valid) valid run = !valid := by
  cases valid with
  | true => simpa [chainLock] using short
  | false =>
    have few : run < 16 := by simpa using short
    simp [chainLock, few]

/-- The firmware with a receiver's lock. -/
def locked (f : Fw) (down valid : Bool) : Fw := if down then { f with outLock := valid } else { f with inLock := valid }

theorem exec_chainReceiverLock_changes {down valid : Bool} {run : Nat} (alive : chainAlive s = true)
    (was : (if down then s.fw.outLock else s.fw.inLock) = !valid) (long : (if valid then 64 else 16) ≤ run) :
    exec (.chainReceiverLock down valid run) s = .next (postGlobal { s with fw := locked s.fw down valid } 104
      [(0, 1, bit valid), (1, 1, bit down)]) := by
  have apart : ((!valid) == valid) = false := by cases valid <;> rfl
  simp only [exec, execChainReceiverLock, was, chainLock_changes long, alive, apart, Bool.not_true, Bool.or_false,
    Bool.false_eq_true, if_false]
  rfl

theorem exec_chainReceiverLock_keeps {down valid : Bool} {run : Nat}
    (was : (if down then s.fw.outLock else s.fw.inLock) = !valid) (short : run < (if valid then 64 else 16)) :
    exec (.chainReceiverLock down valid run) s = .next s := by
  simp only [exec, execChainReceiverLock, was, chainLock_keeps short, beq_self_eq_true, Bool.or_true, if_true]

/-- What goes out on CHN_OUT is an output, of a unit that forwards. -/
theorem chainSend_eq (s : State) (what : String) (word : Nat) : ∃ bus, chainSend s what word =
    { s with io := { s.io with bus := bus } } ∧
      (chainForwards s = true → Bus.chain what (BitVec.ofNat 256 word) ∈ bus) := by
  unfold chainSend
  split
  · exact ⟨_, rfl, fun _ => List.mem_cons_self⟩
  · rename_i stays
    exact ⟨s.io.bus, rfl, fun forwards => absurd forwards stays⟩

theorem chainRelay_eq (s : State) (k : ChainCheck) (what : String) (word : Nat) : ∃ bus,
    chainRelay s k what word = { s with io := { s.io with bus := bus } } := by
  unfold chainRelay
  split
  · obtain ⟨bus, sent, -⟩ := chainSend_eq s what (bit k.crcOk + 2 * k.seq.toNat + 2 ^ 17 * word)
    exact ⟨bus, sent⟩
  · exact ⟨s.io.bus, rfl⟩

/-! ### A header's frame and its checks (R467, R477, R478) -/

theorem frameBad_idle {source : BitVec 8} (idle : receiving s source = false) : frameBad s source = s := by
  simp [frameBad, idle]

theorem exec_chainHeader {k : ChainCheck} {hdr : ImageHeader} (alive : chainAlive s = true)
    (idle : receiving s 2 = false) (crc : k.crcOk = true) (first : k.seq = 0) : exec (.chainHeader k hdr) s =
      .next { s with fw := { s.fw with chainFwd := false, chainHdr := some (k, hdr) } } := by
  have kept : frameBad s 2 = s := frameBad_idle idle
  simp only [exec, execChainHeader, alive, kept, crc, first, Bool.not_true, Bool.false_eq_true, if_false,
    beq_self_eq_true, Bool.and_self, if_true]

/-- A session that a header of the chain opens. -/
def chainSession (h : ImageHeader) : Session :=
  { source := 2, header := h, got := 0, seq := 0, cmd := none, program := false, same := false }

/-- A header whose checks pass opens a session where nothing of its kind is staged. -/
theorem openSession_chain {h : ImageHeader} (closed : stagingClosed s.fw = false)
    (new : (kindOf (hdrKind h)).bind (triGet s.fw.staged) = none) : (openSession s 2 h none).1 =
      postGlobal { s with fw := { s.fw with session := some (chainSession h) } } 105
        [(0, 1, 1), (8, 8, digest8 h.digest)] := by
  simp [openSession, headerStage, closed, new, postSession, chainSession]

/-- The state once a held header has passed its key checks, with what has gone out. -/
def headerSent (s : State) (bus : List Bus) : State :=
  { s with fw := { s.fw with chainHdr := none, chainFwd := chainForwards s }, io := { s.io with bus := bus } }

/-- The held header has gone out and its session is open. -/
theorem exec_chainHeaderChecked {k : ChainCheck} {h : ImageHeader} (held : s.fw.chainHdr = some (k, h))
    (alive : chainAlive s = true) (key : headerKey s h = none) (unit : headerUnit s h = none)
    (may : mayStage s = true) (closed : stagingClosed s.fw = false)
    (new : (kindOf (hdrKind h)).bind (triGet s.fw.staged) = none) : ∃ t, exec .chainHeaderChecked s = .next t ∧
      t.fw = { s.fw with chainHdr := none, chainFwd := chainForwards s, session := some (chainSession h) } ∧
      (chainForwards s = true → Bus.chain "HEADER" (BitVec.ofNat 256 h.digest.toNat) ∈ t.io.bus) := by
  obtain ⟨bus, sent, goes⟩ := chainSend_eq { s with fw := { s.fw with chainHdr := none, chainFwd := chainForwards s } }
    "HEADER" h.digest.toNat
  have alive' : chainAlive { s with fw := { s.fw with chainHdr := none } } = true := alive
  have key' : headerKey { s with fw := { s.fw with chainHdr := none } } h = none := key
  have unit' : headerUnit (headerSent s bus) h = none := unit
  have may' : mayStage (headerSent s bus) = true := may
  have opens := openSession_chain (s := headerSent s bus) closed new
  refine ⟨(openSession (headerSent s bus) 2 h none).1, ?_, ?_, ?_⟩
  · show execChainHeaderChecked s = _
    unfold execChainHeaderChecked
    rw [held]
    simp only [alive', key', Bool.not_true, Bool.false_eq_true, if_false]
    have same : chainForwards { s with fw := { s.fw with chainHdr := none } } = chainForwards s := rfl
    rw [same, sent]
    show Host.Outcome.next (if !mayStage (headerSent s bus) then _ else _) = _
    rw [may']
    simp only [Bool.not_true, Bool.false_eq_true, if_false]
    show Host.Outcome.next (match headerUnit (headerSent s bus) h with | some code => _ | none => _) = _
    rw [unit']
    rfl
  · rw [opens, postGlobal_fw]
    rfl
  · intro forwards
    rw [opens, postGlobal_bus]
    exact goes forwards

/-! ### A session's body and its end (R473, R476) -/

section
variable {x : Session} {k : ChainCheck} (session : s.fw.session = some x) (open_ : x.program = false)
  (follow : follows x k = true)
include session open_ follow

theorem recvBody_takes {source : BitVec 8} {off : BitVec 32} {n : Nat} (mine : x.source = source)
    (next : off.toNat = x.got) (some_ : 0 < n) (most : n ≤ 4092) (fits : x.got + n ≤ hdrBodySize x.header) :
    recvBody s source k off n =
      { s with fw := { s.fw with session := some { x with got := x.got + n, seq := k.seq } } } := by
  have receives : receiving s source = true := by simp [receiving, session, mine, open_]
  simp [recvBody, receives, session, follow, next, some_, most, fits]

theorem recvEnd_programs {source : BitVec 8} {sent : BitVec 32} (mine : x.source = source)
    (last : sent.toNat = x.got) (whole : x.got = hdrBodySize x.header) (new : x.same = false) :
    recvEnd s source k sent true = { s with fw := { s.fw with
      session := some { x with seq := k.seq, program := true }, prevValid := false, previous := ⟨none, none, none⟩ } } := by
  have receives : receiving s source = true := by simp [receiving, session, mine, open_]
  simp [recvEnd, receives, session, follow, last, bodyDone, whole, new]

end

theorem exec_chainBody (k : ChainCheck) (off : BitVec 32) (n : Nat) (alive : chainAlive s = true) :
    exec (.chainBody k off n) s =
      .next (recvBody (chainRelay s k "BODY" (off.toNat + 2 ^ 32 * n)) 2 k off n) := by
  simp only [exec, execChainBody, alive, if_true]

theorem exec_chainEnd (k : ChainCheck) (sent : BitVec 32) (ok : Bool) (alive : chainAlive s = true) :
    exec (.chainEnd k sent ok) s = .next (recvEnd { chainRelay s k "END" sent.toNat with
      fw := { (chainRelay s k "END" sent.toNat).fw with chainFwd := false } } 2 k sent ok) := by
  simp only [exec, execChainEnd, alive, if_true]

/-! ### Frames that act (R480, R481, R487) -/

/-- A schedule of a set that fits, with nothing lost at its read-back. -/
theorem frameSchedule_schedules {a : BitVec 64} (awake : s.pwr.st ≠ .ibex) (running : s.fw.seq ≠ .running)
    (falling : s.fw.seq ≠ .falling) (closed : windowOpen s.fw = false) (plain : s.fw.fallback = false)
    (ahead : s.time.now.toNat ≤ a.toNat) (any : anyChanged (stagedSet s.fw) s.fw.running = true)
    (fits : setCompatible s.fw.running (stagedSet s.fw) = true) : frameSchedule s a [] =
      { s with fw := { s.fw with seq := .scheduled, startT := a, fallback := false, chainIgn := false } } := by
  have late : ¬a.toNat < (now s).toNat := not_lt.mpr ahead
  simp [frameSchedule, schedule, late, running, falling, closed, plain, awake, any, fits, chainAct]

theorem exec_chainActivate {k : ChainCheck} {a : BitVec 64} (alive : chainAlive s = true) (crc : k.crcOk = true)
    (stages : stageEn s = true) (awake : s.pwr.st ≠ .ibex) (chain : stagedChain s.fw = true)
    (mgmt : s.fw.mgmtDown = false) : ∃ bus, exec (.chainActivate k a []) s =
      .next (frameSchedule { s with io := { s.io with bus := bus } } a []) := by
  obtain ⟨bus, sent, -⟩ := chainSend_eq s "ACTIVATE" (bit k.crcOk + 2 * k.seq.toNat + 2 ^ 17 * a.toNat)
  have stages' : stageEn { s with io := { s.io with bus := bus } } = true := stages
  refine ⟨bus, ?_⟩
  show execChainActivate k a [] s = _
  unfold execChainActivate
  simp only [alive, Bool.not_true, Bool.false_eq_true, if_false]
  rw [sent]
  simp [crc, stages', awake, chain, mgmt]

theorem exec_chainConfirm {k : ChainCheck} (alive : chainAlive s = true) (crc : k.crcOk = true)
    (stages : stageEn s = true) (pending : pendingChain s.fw = true) (can : canConfirm s = true) : ∃ bus,
      exec (.chainConfirm k) s = .next (chainAct (confirm { s with io := { s.io with bus := bus } }) false) := by
  obtain ⟨bus, sent, -⟩ := chainSend_eq s "CONFIRM" (bit k.crcOk + 2 * k.seq.toNat)
  have stages' : stageEn { s with io := { s.io with bus := bus } } = true := stages
  have can' : canConfirm { s with io := { s.io with bus := bus } } = true := can
  refine ⟨bus, ?_⟩
  show execChainConfirm k s = _
  unfold execChainConfirm
  simp only [alive, Bool.not_true, Bool.false_eq_true, if_false]
  rw [sent]
  simp only [crc, stages', pending, can', Bool.and_self, if_true]

/-! ### Ibex and a session's end (R478, R491, R492) -/

theorem exec_enterIbex {tag : BitVec 32} (serves : inService s = true) (own : tag = Config.deviceTag.setWidth 32) :
    exec (.enterIbex tag) s = .next { sysReset s (.boot 3 true) with
      fw := { (sysReset s (.boot 3 true)).fw with toIbex := true } } := by
  simp only [exec, execEnterIbex, serves, own, beq_self_eq_true, Bool.and_self, if_true]

/-- A session without a command that is refused is closed, and its code stands. -/
theorem sessionRefuse_closes {x : Session} {code : BitVec 8} (session : s.fw.session = some x)
    (framed : x.cmd = none) (plain : code ≠ 0x80) :
    (sessionRefuse s code).fw.session = none ∧ (sessionRefuse s code).fw.lastRef = code := by
  have noted : ∀ u : State, noteRefusal u code = { u with fw := { u.fw with lastRef := code } } :=
    fun u => by simp only [noteRefusal, plain, if_false]
  simp only [sessionRefuse, session, framed, noted, closeSession_fw]
  exact ⟨trivial, trivial⟩

theorem exec_chainSessionTimeout {x : Session} (session : s.fw.session = some x) (mine : x.source = 2)
    (open_ : x.program = false) (framed : x.cmd = none) (clock : s.clk.refclkOk = true) :
    exec .chainSessionTimeout s = .next (sessionRefuse s 0x0B) := by
  have receives : receiving s 2 = true := by simp [receiving, session, mine, open_]
  obtain ⟨closed, -⟩ := sessionRefuse_closes (code := 0x0B) session framed (by decide)
  have idle : receiving (sessionRefuse s 0x0B) 3 = false := by rw [receiving, closed]; rfl
  have first : frameBad s 2 = sessionRefuse s 0x0B := by rw [frameBad, receives, if_pos rfl]
  have second : frameBad (sessionRefuse s 0x0B) 3 = sessionRefuse s 0x0B := frameBad_idle idle
  simp only [exec, execChainSessionTimeout, clock, first, second, Bool.not_true, Bool.false_eq_true, if_false]

theorem exec_ibexI3cFrame_body (k : ChainCheck) (off : BitVec 32) (n : Nat) (ibex : s.pwr.st = .ibex)
    (listens : ibexListens s 2 = true) (i3c : (regVal s 0x700).getLsbD 9 = false) (clock : s.clk.refclkOk = true) :
    exec (.ibexI3cFrame (.body k off n)) s = .next (recvBody s 3 k off n) := by
  simp only [exec, execIbexI3cFrame, clock, ibex, listens, i3c, Bool.not_true, Bool.not_false, Bool.false_eq_true,
    if_false, beq_self_eq_true, Bool.and_self, if_true]

end

/-- Settles O4: `exec_…` says what each frame leads to; what the chain forwards is an output beside it
(`chainSend_eq`, `chainRelay_eq`). -/
theorem chainRows : Obligations.ChainRows := by
  unfold Obligations.ChainRows
  refine ⟨?locks, ?keeps, ?header, ?checked, ?body, ?last, ?activate, ?confirm, ?enter, ?timeout, ?ibex⟩
  case locks =>
    intro down valid run s alive was long
    refine ⟨_, exec_chainReceiverLock_changes alive was long, ?_, ?_, posted_postGlobal _ 104 _⟩
    · rw [postGlobal_fw]
      cases down <;> rfl
    · rw [postGlobal_fw]
      cases down <;> rfl
  case keeps =>
    intro down valid run s was short
    exact ⟨s, exec_chainReceiverLock_keeps was short, rfl⟩
  case header =>
    intro k hdr s alive idle crc first
    exact ⟨_, exec_chainHeader alive idle crc first, rfl, rfl, onlyIn_of_pick (by simp)⟩
  case checked =>
    intro s k h held alive key unit may closed new
    obtain ⟨t, run, fw, goes⟩ := exec_chainHeaderChecked held alive key unit may closed new
    exact ⟨t, run, by rw [fw], by rw [fw], by rw [fw, chainSession], goes⟩
  case body =>
    intro k off n s x alive session mine open_ follow next some_ most fits
    obtain ⟨bus, relayed⟩ := chainRelay_eq s k "BODY" (off.toNat + 2 ^ 32 * n)
    refine ⟨_, exec_chainBody k off n alive, ?_⟩
    rw [relayed, recvBody_takes (s := { s with io := { s.io with bus := bus } }) session open_ follow mine next some_
      most fits]
    exact ⟨rfl, rfl⟩
  case last =>
    intro k sent s x alive session mine open_ follow last whole new
    obtain ⟨bus, relayed⟩ := chainRelay_eq s k "END" sent.toNat
    refine ⟨_, exec_chainEnd k sent true alive, ?_⟩
    rw [relayed, recvEnd_programs (s := { s with io := { s.io with bus := bus }, fw := { s.fw with chainFwd := false } })
      session open_ follow mine last whole new]
    exact ⟨rfl, rfl, rfl⟩
  case activate =>
    intro k a s alive crc stages awake chain mgmt running falling closed plain ahead any fits
    obtain ⟨bus, run⟩ := exec_chainActivate (a := a) alive crc stages awake chain mgmt
    refine ⟨_, run, ?_⟩
    rw [frameSchedule_schedules (s := { s with io := { s.io with bus := bus } }) awake running falling closed plain
      ahead any fits]
    exact ⟨rfl, rfl, rfl⟩
  case confirm =>
    intro k s alive crc stages pending can
    obtain ⟨bus, run⟩ := exec_chainConfirm alive crc stages pending can
    exact ⟨_, run, rfl, rfl⟩
  case enter =>
    intro tag s serves own
    refine ⟨_, exec_enterIbex serves own, rfl, rfl, ?_⟩
    show (sysReset s (.boot 3 true)).time.now = s.time.now
    rw [sysReset_time]
  case timeout =>
    intro s x session mine open_ framed clock
    exact ⟨_, exec_chainSessionTimeout session mine open_ framed clock,
      sessionRefuse_closes session framed (by decide)⟩
  case ibex =>
    intro k off n s x ibex listens i3c session mine open_ follow next some_ most fits clock
    refine ⟨_, exec_ibexI3cFrame_body k off n ibex listens i3c clock, ?_⟩
    rw [recvBody_takes session open_ follow mine next some_ most fits]
    exact ⟨rfl, onlyIn_of_pick (by simp)⟩

end Sys2Proof.Proofs
end

section
/-!
PROOFS of the family 12_commands, 13_coherent_state, 15_events_faults, 16_clocks, 17_power, 19_firmware_update,
20_security and 21: power commands (O7).
-/

namespace Sys2Proof.Proofs

open Sys2Proof.Machine Sys2Proof.Safety

/-! ### Entries (R423 to R427) -/

section
variable {s : State} {c : Cmd}

/-- What defers a Sleep entry reads no ring and no command queue: a completion changes none of it. -/
theorem sleepReady_completeOk (op : Nat) (l : List MirrorObj) (r : Nat) :
    sleepReady (completeOk s op c l r) = sleepReady s := by
  have frame : OnlyIn [.herds, .io] s (completeOk s op c l r) := onlyIn_of_pick (by simp)
  have herd : ∀ h, herdRest (getHerd (completeOk s op c l r) h) = herdRest (getHerd s h) :=
    herdRest_complete s op c l stOk _
  have st : ∀ h, (getHerd (completeOk s op c l r) h).st = (getHerd s h).st := fun h => (congrArg Herd.st (herd h) :)
  have obs : ∀ h, (getHerd (completeOk s op c l r) h).obs = (getHerd s h).obs := fun h => (congrArg Herd.obs (herd h) :)
  have ports : (completeOk s op c l r).ports = s.ports := frame .ports (by simp)
  have fw : (completeOk s op c l r).fw = s.fw := frame .fw (by simp)
  have dies : (completeOk s op c l r).dies = s.dies := frame .dies (by simp)
  simp only [sleepReady, fwRuns, getDie, st, obs, ports, fw, dies]

/-- From a lit device the ports leave service as an entry begins, and nothing of the power state follows. -/
theorem entryBegin_pwr (s : State) (t : Fin 5) :
    (entryBegin s t).pwr = { s.pwr with st := .entering t, pending := none, latched := none } := by
  unfold entryBegin
  simp only []
  split
  · rfl
  · exact onlyIn_of_pick (m := [.rails, .dies, .store, .ports, .herds, .io, .waits])
      (s := { s with pwr := { s.pwr with st := .entering t, pending := none, latched := none } }) (by simp) .pwr
      (by simp)

theorem entryBegin_dark (t : Fin 5) (dark : s.pwr.dark = true) :
    entryBegin s t = { s with pwr := { s.pwr with st := .entering t, pending := none, latched := none } } := by
  simp only [entryBegin, dark, if_true]

/-- A Sleep entry that nothing defers begins at once. -/
theorem sleepCalled_enters (serves : inService s = true) (ready : sleepReady s = true)
    (clock : s.clk.refclkOk = true) : sleepCalled s = entryBegin { s with pwr := { s.pwr with pending := some 2 } } 2 := by
  have serves' : inService { s with pwr := { s.pwr with pending := some 2 } } = true := serves
  have ready' : sleepReady { s with pwr := { s.pwr with pending := some 2 } } = true := ready
  simp only [sleepCalled, powerPoll, serves', ready', clock, Bool.and_self, if_true]

/-- One that something defers waits (R423). -/
theorem sleepCalled_waits (defers : sleepReady s = false) :
    sleepCalled s = { s with pwr := { s.pwr with pending := some 2 } } := by
  have defers' : sleepReady { s with pwr := { s.pwr with pending := some 2 } } = false := defers
  simp only [sleepCalled, powerPoll, defers', Bool.and_false, Bool.false_and, Bool.false_eq_true, if_false]

/-- The hub's power state and clock through a completion. -/
theorem completeOk_frame (s : State) (op : Nat) (c : Cmd) (l : List MirrorObj) (r : Nat) :
    OnlyIn [.herds, .io] s (completeOk s op c l r) := onlyIn_of_pick (by simp)

theorem completeOk_pwr (s : State) (op : Nat) (c : Cmd) (l : List MirrorObj) (r : Nat) :
    (completeOk s op c l r).pwr = s.pwr := completeOk_frame s op c l r .pwr (by simp)

theorem inService_completeOk (op : Nat) (l : List MirrorObj) (r : Nat) :
    inService (completeOk s op c l r) = inService s := by simp only [inService, completeOk_pwr]

section
variable (untested : refuseTest s = none) (quiet : fwRuns s = false)
include untested quiet

theorem exec_pwrStateSleep (idle : allHerds.all (fun h => !pathBusy (getHerd s h)) = true)
    (serves : inService s = true) :
    exec (.pwrStateSleep c) s = .next (sleepCalled (completeOk s 0x0B01 c [] 0)) := by
  have free : allHerds.any (fun h => pathBusy (getHerd s h)) = false := by
    rw [List.any_eq_false]
    intro h there
    simpa using List.all_eq_true.mp idle h there
  simp only [exec, execPwrStateSleep, untested, quiet, free, inService_completeOk, serves, Bool.or_self,
    Bool.false_eq_true, if_false, if_true]

theorem exec_pwrStateDeepSleep (sleep : s.pwr.st = .sleep) :
    exec (.pwrStateDeepSleep c) s = .next (entryBegin (completeOk s 0x0B01 c [] 0) 3) := by
  simp only [exec, execPwrStateDeepSleep, untested, quiet, sleep, beq_self_eq_true, Bool.not_false, Bool.and_self,
    if_true]

theorem exec_pwrStateOff (from_ : inService s = true ∨ s.pwr.st = .sleep) :
    exec (.pwrStateOff c) s = .next (entryBegin (completeOk s 0x0B01 c [] 0) 4) := by
  have may : (inService s || s.pwr.st == .sleep) = true := by
    rcases from_ with serves | sleep
    · rw [serves, Bool.true_or]
    · rw [sleep, beq_self_eq_true, Bool.or_true]
  simp only [exec, execPwrStateOff, untested, quiet, inService_completeOk, completeOk_pwr, may, Bool.false_eq_true,
    if_false, if_true]

end

/-- An entry from a dark device after a command: the power state alone follows the completion. -/
theorem entryBegin_completed (t : Fin 5) (dark : s.pwr.dark = true) (runs : Runs s c) :
    (entryBegin (completeOk s 0x0B01 c [] 0) t).pwr.st = .entering t ∧
      (entryBegin (completeOk s 0x0B01 c [] 0) t).ports = s.ports ∧
      Answered s (entryBegin (completeOk s 0x0B01 c [] 0) t) c 0x0B01 stOk 0 := by
  have dark' : (completeOk s 0x0B01 c [] 0).pwr.dark = true := by rw [completeOk_pwr, dark]
  rw [entryBegin_dark t dark']
  exact ⟨rfl, completeOk_frame s _ c [] 0 .ports (by simp), answered_completeOk runs 0x0B01 [] 0⟩

/-! ### Floors (R327, R417) -/

/-- A die's floor, with the command that waits for the level. -/
def floored (s : State) (c : Cmd) (d : DieId) (floor : Option Nat) : State :=
  { setDie s d { getDie s d with floor := floor } with waits := s.waits ++ [.level d c] }

theorem exec_pwrLevel (d : DieId) {floor : BitVec 8} (known : floor.toNat ≤ 3 ∨ floor = 0xFF) :
    exec (.pwrLevel c (BitVec.ofNat 8 d.val) floor) s = .next (levelWaits (retarget (floored s c d
      (if floor = 0xFF then none else some floor.toNat)) d) d) := by
  have die : (BitVec.ofNat 8 d.val).toNat = d.val := by
    rw [BitVec.toNat_ofNat]
    omega
  have legal : (decide (3 < floor.toNat) && decide (floor ≠ 0xFF)) = false := by
    rcases known with low | none
    · have : ¬3 < floor.toNat := by omega
      simp [this]
    · simp [none]
  simp only [exec, execPwrLevel, die, d.isLt, dite_true, legal, Bool.false_eq_true, if_false]
  rfl

/-- The level that the die heads for, and the commands that wait for it, leave its floor. -/
theorem floor_pwrLevel (s : State) (c : Cmd) (d : DieId) (floor : Option Nat) :
    (getDie (levelWaits (retarget (floored s c d floor) d) d) d).floor = floor := by
  have kept := ((runsAlike_retarget (floored s c d floor) d).trans (runsAlike_levelWaits _ d)).die d
  refine (congrArg (·.2) kept :).trans ?_
  show (getDie (setDie s d { getDie s d with floor := floor }) d).floor = floor
  rw [getDie_setDie_self]

end

/-- Settles O7: `exec_…` says for each command what follows its completion; an entry writes the power state
(`entryBegin_pwr`), and from a dark device nothing else (`entryBegin_dark`). -/
theorem powerCommands : Obligations.PowerCommands := by
  unfold Obligations.PowerCommands
  refine ⟨?sleeps, ?waits, ?deep, ?offDark, ?off, ?floor, ?lifted⟩
  case sleeps =>
    intro c s untested quiet idle serves ready clock
    have clock' : (completeOk s 0x0B01 c [] 0).clk.refclkOk = true := by
      have clk : (completeOk s 0x0B01 c [] 0).clk = s.clk := completeOk_frame s _ c [] 0 .clk (by simp)
      rw [clk, clock]
    refine ⟨_, exec_pwrStateSleep untested quiet idle serves, ?_⟩
    rw [sleepCalled_enters (by rw [inService_completeOk, serves]) (by rw [sleepReady_completeOk, ready]) clock', entryBegin_pwr]
    exact ⟨rfl, rfl⟩
  case waits =>
    intro c s runs untested quiet idle serves defers
    refine ⟨_, exec_pwrStateSleep untested quiet idle serves, ?_⟩
    rw [sleepCalled_waits (by rw [sleepReady_completeOk, defers])]
    exact ⟨(congrArg Pwr.st (completeOk_pwr s 0x0B01 c [] 0) :), rfl, answered_completeOk runs 0x0B01 [] 0⟩
  case deep =>
    intro c s runs untested quiet sleep dark
    exact ⟨_, exec_pwrStateDeepSleep untested quiet sleep, entryBegin_completed 3 dark runs⟩
  case offDark =>
    intro c s runs untested quiet sleep dark
    exact ⟨_, exec_pwrStateOff untested quiet (.inr sleep), entryBegin_completed 4 dark runs⟩
  case off =>
    intro c s untested quiet serves
    exact ⟨_, exec_pwrStateOff untested quiet (.inl serves), by rw [entryBegin_pwr]⟩
  case floor =>
    intro c d n s
    have value : (BitVec.ofNat 8 n.val).toNat = n.val := by
      rw [BitVec.toNat_ofNat]
      omega
    have number : BitVec.ofNat 8 n.val ≠ 0xFF := by
      intro same
      have := congrArg BitVec.toNat same
      rw [value] at this
      have := n.isLt
      simp at *
      omega
    refine ⟨_, exec_pwrLevel d (.inl (by omega)), ?_⟩
    rw [if_neg number, value, floor_pwrLevel]
  case lifted =>
    intro c d s
    exact ⟨_, exec_pwrLevel d (.inr rfl), by rw [if_pos rfl, floor_pwrLevel]⟩

end Sys2Proof.Proofs
end

section
/-!
PROOFS of the family 12_commands, 13_coherent_state, 15_events_faults, 16_clocks, 17_power, 19_firmware_update,
20_security and 21: entries, wakes and restores (O9).
-/

namespace Sys2Proof.Proofs

open Sys2Proof.Machine Sys2Proof.Safety

/-! ### Schedules that are due while the device serves (R332, R437, R487) -/

section
variable {s : State}

/-- Outside Ibex a due schedule restarts no device: time and the power state stay. -/
theorem scheduledStart_inService (serves : inService s = true) :
    OnlyIn [.ports, .herds, .io, .flt, .fw, .nv] s (scheduledStart s) := by
  have awake : (s.pwr.st == .ibex) = false := by
    unfold inService at serves
    split at serves
    · simp [*]
    · simp [*]
    · cases serves
  unfold scheduledStart
  simp only [awake, serves, Bool.not_true, Bool.false_eq_true, if_false]
  split
  · exact onlyIn_of_pick rfl
  · split
    · exact onlyIn_of_pick (by simp)
    · exact onlyIn_of_pick (by simp)

theorem runDue_inService (serves : inService s = true) :
    OnlyIn [.ports, .herds, .io, .flt, .fw, .nv] s (runDue s) := by
  have first : OnlyIn [.ports, .herds, .io, .flt, .fw, .nv] s
      (if s.fw.seq == .scheduled && decide (s.fw.startT.toNat ≤ (now s).toNat) then scheduledStart s else s) := by
    split
    · exact scheduledStart_inService serves
    · exact onlyIn_of_pick rfl
  refine onlyIn_mono (onlyIn_trans first (n := [.ports, .herds, .io, .flt, .fw, .nv]) ?_) (by simp)
  exact onlyIn_of_pick (by simp [runDue])

/-! ### A die's way to a level (R417, Table 4a step 6) -/

theorem dieTo_level (s : State) (d : DieId) (n : Nat) : (getDie (dieTo s d n) d).level = n := by
  have posts : ∀ u : State, (postLevel u d n).dies = u.dies := fun u => onlyIn_of_pick (m := [.io]) (by simp) .dies (by simp)
  unfold dieTo
  simp only []
  split
  · rw [getDie_setRail, getDie_setDie_self]
  · rw [getDie, posts, ← getDie, getDie_setRail, getDie_setDie_self]

theorem dieTo_others (s : State) {d e : DieId} (apart : e ≠ d) (n : Nat) : getDie (dieTo s d n) e = getDie s e := by
  have ramps : ∀ l : List Nat, (forEach l (fun t k => railTo t (dspRail d) (levelMv k)) s).dies = s.dies :=
    fun l => onlyIn_of_pick (m := [.rails, .io]) (by simp) .dies (by simp)
  have posts : ∀ u : State, (postLevel u d n).dies = u.dies := fun u => onlyIn_of_pick (m := [.io]) (by simp) .dies (by simp)
  unfold dieTo
  simp only []
  split
  · rw [getDie_setRail, getDie_setDie_ne _ _ apart, getDie, ramps, getDie]
  · rw [getDie, posts, ← getDie, getDie_setRail, getDie_setDie_ne _ _ apart, getDie, ramps, getDie]

/-- Every die of a list is at the level that it is brought to. -/
theorem dieTo_each (n : Nat) (l : List DieId) (s : State) {d : DieId} (there : d ∈ l ∨ (getDie s d).level = n) :
    (getDie (forEach l (fun t e => dieTo t e n) s) d).level = n := by
  unfold forEach
  induction l generalizing s with
  | nil => simpa using there
  | cons e l ih =>
    refine ih _ ?_
    by_cases same : d = e
    · subst same
      exact .inr (dieTo_level s d n)
    · rw [dieTo_others s same]
      exact there.imp_left fun m => (List.mem_cons.mp m).resolve_left same

theorem selfRefresh_each (l : List ChanId) (s : State) {c : ChanId} (there : c ∈ l ∨ (getDdr s c).selfRefresh = true) :
    (getDdr (forEach l (fun t e => setDdr t e { getDdr t e with selfRefresh := true }) s) c).selfRefresh = true := by
  unfold forEach
  induction l generalizing s with
  | nil => simpa using there
  | cons e l ih =>
    refine ih _ ?_
    by_cases same : c = e
    · subst same
      rw [getDdr_setDdr_self]
      exact .inr rfl
    · rw [getDdr_setDdr_ne _ _ same]
      exact there.imp_left fun m => (List.mem_cons.mp m).resolve_left same

/-- Steps 6 to 8 of Table 4a: the dies lowered, memory in self-refresh, PLLs and the hub core switched off. -/
def sleepLowered (s : State) : State :=
  forEach (List.finRange 8) (fun t d => dieTo t d 3) (forEach dspDomains (fun t d => switchNow t d false) s)

def sleepRefreshed (s : State) : State :=
  forEach (List.finRange 2) (fun t c => setDdr t c { getDdr t c with selfRefresh := true }) (sleepLowered s)

def sleepSwitched (s : State) : State :=
  railTo (pllsOff (switchNow (sleepRefreshed s) .hubCore false) sleepPlls) 0 650

theorem sleepReached_eq (s : State) : sleepReached s = { sleepSwitched s with pwr := { (sleepSwitched s).pwr with
    st := .sleep, dark := true, deepCnt := regVal (sleepSwitched s) 0x408 != 0 } } := rfl

/-- Sleep is reached: dies lowered, memory in self-refresh, the device dark (R424). -/
theorem sleepReached_stands (s : State) : (sleepReached s).pwr =
      { s.pwr with st := .sleep, dark := true, deepCnt := regVal s 0x408 != 0 } ∧
      (∀ d, (getDie (sleepReached s) d).level = 3) ∧ ∀ c, (getDdr (sleepReached s) c).selfRefresh = true := by
  have beside : OnlyIn [.clk, .herds, .rails, .dies, .io, .ddr] s (sleepSwitched s) :=
    onlyIn_of_pick (by simp [sleepSwitched, sleepRefreshed, sleepLowered])
  have dies : (sleepSwitched s).dies = (sleepLowered s).dies :=
    onlyIn_of_pick (m := [.clk, .herds, .rails, .io, .ddr]) (by simp [sleepSwitched, sleepRefreshed]) .dies (by simp)
  have ddr : (sleepSwitched s).ddr = (sleepRefreshed s).ddr :=
    onlyIn_of_pick (m := [.clk, .herds, .rails, .io]) (by simp [sleepSwitched]) .ddr (by simp)
  have pwr : (sleepSwitched s).pwr = s.pwr := beside .pwr (by simp)
  have regs : (sleepSwitched s).regs = s.regs := beside .regs (by simp)
  rw [sleepReached_eq]
  refine ⟨by simp only [regVal, pwr, regs], fun d => ?_, fun c => ?_⟩
  · have low : (getDie (sleepLowered s) d).level = 3 := dieTo_each 3 _ _ (.inl (List.mem_finRange d))
    simpa only [getDie, dies] using low
  · have kept : (getDdr (sleepRefreshed s) c).selfRefresh = true := selfRefresh_each _ _ (.inl (List.mem_finRange c))
    simpa only [getDdr, ddr] using kept

/-! ### Entries complete (R424, R426, R427) -/

theorem replayWake_none (t : Fin 5) (unlatched : s.pwr.latched = none) : replayWake s t = s := by
  simp only [replayWake, unlatched]

theorem entrySettle_onlyIn (s : State) : OnlyIn [.ports, .herds, .io, .nv] s (entrySettle s) := onlyIn_of_pick (by simp)

theorem exec_powerEntryDone_sleep (st : s.pwr.st = .entering 2) (lit : s.pwr.dark = false)
    (unlatched : s.pwr.latched = none) (alone : s.pwr.pending = none) (clock : s.clk.refclkOk = true) :
    exec .powerEntryDone s = .next (sleepReached (entrySettle s)) := by
  have pwr : (entrySettle s).pwr = s.pwr := entrySettle_onlyIn s .pwr (by simp)
  obtain ⟨slept, -⟩ := sleepReached_stands (entrySettle s)
  have clear : (sleepReached (entrySettle s)).pwr.latched = none := by rw [slept, pwr, unlatched]
  have pending : (sleepReached (entrySettle s)).pwr.pending = none := by rw [slept, pwr, alone]
  simp [exec, execPowerEntryDone, clock, st, lit, pending, replayWake_none 2 clear]

theorem exec_powerEntryDone_deep (st : s.pwr.st = .entering 3) (dark : s.pwr.dark = true)
    (unlatched : s.pwr.latched = none) (clock : s.clk.refclkOk = true) : exec .powerEntryDone s =
      .next { s with pwr := { s.pwr with st := .deepSleep, dark := true }
                     sec := { s.sec with unlocked := false, scope := 0 } } := by
  simp [exec, execPowerEntryDone, clock, st, dark, replayWake, unlatched]

/-- Off is reached from a lit device or a dark one: only what the ports, herds and events had to settle precedes. -/
theorem exec_powerEntryDone_off (st : s.pwr.st = .entering 4) (unlatched : s.pwr.latched = none)
    (clock : s.clk.refclkOk = true) : ∃ u : State, exec .powerEntryDone s = .next (cancelSchedules
      { u with pwr := { u.pwr with st := .off, dark := true }, sec := { u.sec with unlocked := false, scope := 0 } }) := by
  have pwr : (if s.pwr.dark then s else entrySettle s).pwr = s.pwr := by
    split
    · rfl
    · exact entrySettle_onlyIn s .pwr (by simp)
  refine ⟨if s.pwr.dark then s else entrySettle s, ?_⟩
  have four : ¬((4 : Fin 5) = 2) := by decide
  have other : ¬((4 : Fin 5) = 3) := by decide
  simp only [exec, execPowerEntryDone, clock, st, Bool.not_true, Bool.false_eq_true, if_false, four, other]
  rw [replayWake_none]
  show (if s.pwr.dark then s else entrySettle s).pwr.latched = none
  rw [pwr, unlatched]

/-! ### Wakes and restores (R428, R429, R431 to R435) -/

theorem exec_sidebandAddressMatch_deep {addr : BitVec 7} (st : s.pwr.st = .deepSleep) (own : addr = s.pwr.sideAddr)
    (matches_ : (regVal s 0x700).getLsbD 8 = true) : exec (.sidebandAddressMatch addr) s = .next (wakeBegin
      { s with pwr := { s.pwr with sideAddr := BitVec.ofNat 7 (fld (regVal s 0x700) 0 7) } }
      (if (regVal s 0x700).getLsbD 9 then 3 else 2) false 3) := by
  have allowed : wakeAllowed (if (regVal s 0x700).getLsbD 9 then 3 else 2) 3 = true := by
    split <;> rfl
  simp only [exec, execSidebandAddressMatch, own, beq_self_eq_true, if_true, matches_, touch, st, wakeSource, allowed]
  rfl

/-- Sleep is left: what is due runs on a device that serves. -/
theorem exec_wakeRestoreDone_sleep (m : BitVec 4) (reads : List (PortId × CtxKey × CtxRead))
    (st : s.pwr.st = .restoring 2) (clock : s.clk.refclkOk = true) :
    exec (.wakeRestoreDone m reads) s = .next (runDue (sleepRestore (checkReads reads s))) := by
  simp [exec, execWakeRestoreDone, clock, st]

/-- The power state once the device is lit again (Table 6). -/
def sleepUp (s : State) : State :=
  { s with pwr := { s.pwr with st := .run, dark := false, deepCnt := false, deaf := s.mono + deafNs } }

/-- The restore from Sleep: the device is lit, then its ports resume. -/
theorem sleepRestore_eq (s : State) : ∃ u, sleepRestore s = postWake (mirrorAll (forEach (List.finRange 8) dieTrigger
    (forEach allPorts portResume (sleepUp u)))) := by
  unfold sleepRestore
  exact ⟨_, Eq.refl _⟩

theorem sleepRestore_runs (s : State) : (sleepRestore s).pwr.st = .run ∧ (sleepRestore s).pwr.dark = false := by
  obtain ⟨u, lit⟩ := sleepRestore_eq s
  have ends : (sleepRestore s).pwr = (sleepUp u).pwr :=
    lit ▸ onlyIn_of_pick (m := [.fresh, .rails, .dies, .ports, .herds, .io]) (by simp) .pwr (by simp)
  rw [ends]
  exact ⟨rfl, rfl⟩

/-! Restores that boot (R433 to R435). -/

/-- The memory channels train, and none fails. -/
theorem bootDdr_onlyIn (s : State) : OnlyIn [.clk, .ddr, .ports, .io, .flt, .fw] s (bootDdr s none) := by
  have ran : ∀ u : State, OnlyIn [.clk, .ddr, .ports, .io, .flt] u (forEach (List.finRange 2)
      (fun t c => if (none : Option ChanId) == some c then ddrFail t c 1 else ddrTrain t c) u) :=
    fun u => forEach_onlyIn (fun t c => onlyIn_of_pick (by simp)) _ _
  unfold bootDdr
  simp only []
  split
  · exact onlyIn_mono (onlyIn_trans (onlyIn_of_pick (m := [.io, .fw]) (by simp)) (ran _)) (by simp)
  · exact onlyIn_mono (ran _) (by simp)

/-- A boot that nothing fails reaches Run: of the power state it writes that alone, and neither time nor contexts. -/
theorem bootThrough_runs (s : State) : (bootThrough s).pwr.st = .run ∧
    (bootThrough s).pwr.padsHeld = s.pwr.padsHeld ∧ (bootThrough s).pwr.retFail = s.pwr.retFail ∧
    (bootThrough s).time = s.time ∧ (bootThrough s).store = s.store := by
  have steps : OnlyIn [.fresh, .clk, .rails, .dies, .ddr, .ports, .herds, .io, .flt, .fw, .sec] s
      (clocksUp (bootCal (bootHerds (bootLinks (bootDdr (bootIdentity (bootHub s)) none))))) := by
    have hub : OnlyIn [.fresh, .clk, .rails, .ports, .io, .flt, .fw, .sec] s (bootIdentity (bootHub s)) :=
      onlyIn_of_pick (by simp)
    have herds : ∀ u, OnlyIn [.fresh, .clk, .dies, .ports, .herds, .io, .flt] u
        (clocksUp (bootCal (bootHerds (bootLinks u)))) := fun u => onlyIn_of_pick (by simp)
    exact onlyIn_mono (onlyIn_trans (onlyIn_trans hub (bootDdr_onlyIn _)) (herds _)) (by simp)
  unfold bootThrough bootRun
  generalize clocksUp (bootCal (bootHerds (bootLinks (bootDdr (bootIdentity (bootHub s)) none)))) = u at steps ⊢
  have pwr : u.pwr = s.pwr := steps .pwr (by simp)
  exact ⟨rfl, (congrArg Pwr.padsHeld pwr :), (congrArg Pwr.retFail pwr :), steps .time (by simp), steps .store (by simp)⟩

theorem exec_wakeRestoreDone_deep (m : BitVec 4) (reads : List (PortId × CtxKey × CtxRead))
    (st : s.pwr.st = .restoring 3) (clock : s.clk.refclkOk = true) :
    exec (.wakeRestoreDone m reads) s = .next (runDue (deepRestore s m)) := by
  simp [exec, execWakeRestoreDone, clock, st]

theorem exec_wakeRestoreDone_off (m : BitVec 4) (reads : List (PortId × CtxKey × CtxRead))
    (st : s.pwr.st = .restoring 4) (clock : s.clk.refclkOk = true) :
    exec (.wakeRestoreDone m reads) s = .next (offRestore s) := by
  simp [exec, execWakeRestoreDone, clock, st]

/-- Deep Sleep is left with held pads and the banks that failed; no context has outlived the reset. -/
theorem deepRestore_runs (s : State) (m : BitVec 4) : (deepRestore s m).pwr.st = .run ∧
    (deepRestore s m).pwr.padsHeld = true ∧ (deepRestore s m).pwr.retFail = m ∧ (deepRestore s m).store = [] := by
  obtain ⟨st, pads, fail, -, store⟩ := bootThrough_runs (deepState s (sysReset s (.restoring 3)) m)
  have ends : OnlyIn [.rails, .dies, .ports, .herds, .io, .flt, .fw, .nv]
      (bootThrough (deepState s (sysReset s (.restoring 3)) m)) (deepRestore s m) :=
    onlyIn_of_pick (by simp [deepRestore])
  have pwr := ends .pwr (by simp)
  have kept := ends .store (by simp)
  rw [pwr, kept]
  exact ⟨st, pads, fail, store⟩

/-- What is due as a restore reaches Run leaves the power state and the contexts. -/
theorem runDue_pwr (runs : s.pwr.st = .run) : (runDue s).pwr = s.pwr ∧ (runDue s).store = s.store := by
  have serves : inService s = true := by simp [inService, runs]
  exact ⟨runDue_inService serves .pwr (by simp), runDue_inService serves .store (by simp)⟩

/-- Off is left as a release of PORST_N is, with held pads. -/
theorem offRestore_runs (s : State) : (offRestore s).pwr.st = .run ∧ (offRestore s).pwr.padsHeld = true ∧
    (offRestore s).time = State.reset.time := by
  have begins : OnlyIn [.fresh, .io, .nv] (offState s (porReset s)) (postPasses (offState s (porReset s))) :=
    onlyIn_of_pick (by simp)
  have pwr : (postPasses (offState s (porReset s))).pwr = (offState s (porReset s)).pwr := begins .pwr (by simp)
  have time : (postPasses (offState s (porReset s))).time = (offState s (porReset s)).time := begins .time (by simp)
  obtain ⟨st, pads, -, booted, -⟩ := bootThrough_runs (postPasses (offState s (porReset s)))
  have ends : OnlyIn [.ports, .herds, .io, .waits, .flt] (bootThrough (postPasses (offState s (porReset s))))
      (offRestore s) := onlyIn_of_pick (by simp [offRestore])
  have pwr' := ends .pwr (by simp)
  have time' := ends .time (by simp)
  rw [pwr', time', st, pads, booted, pwr, time]
  exact ⟨rfl, rfl, rfl⟩

end

/-- Settles O9: entries complete in `sleepReached` or in the power state alone; a wake source writes the power state;
each restore's own lemma (`…_runs`) says what stands at Run, and what is due then leaves it (`runDue_inService`). -/
theorem powerEntries : Obligations.PowerEntries := by
  unfold Obligations.PowerEntries
  refine ⟨?sleep, ?deep, ?off, ?wakes, ?latches, ?sideband, ?fromSleep, ?fromDeep, ?fromOff⟩
  case sleep =>
    intro s st lit unlatched alone clock
    obtain ⟨pwr, level, refresh⟩ := sleepReached_stands (entrySettle s)
    exact ⟨_, exec_powerEntryDone_sleep st lit unlatched alone clock, by rw [pwr], by rw [pwr], level, refresh⟩
  case deep =>
    intro s st dark unlatched clock
    exact ⟨_, exec_powerEntryDone_deep st dark unlatched clock, rfl, rfl, rfl⟩
  case off =>
    intro s st unlatched clock
    obtain ⟨u, run⟩ := exec_powerEntryDone_off st unlatched clock
    exact ⟨_, run, rfl, rfl⟩
  case wakes =>
    intro s st clock
    exact ⟨wakeBegin s 1 false 4, by simp [exec, execWakeNAssert, clock, wakeSource, st, wakeAllowed], rfl, rfl, rfl,
      rfl, onlyIn_of_pick (by simp)⟩
  case latches =>
    intro s st unlatched clock
    exact ⟨{ s with pwr := { s.pwr with latched := some 1 } },
      by simp [exec, execWakeNAssert, clock, wakeSource, st, unlatched], rfl, onlyIn_of_pick (by simp)⟩
  case sideband =>
    intro addr s st own matches_
    exact ⟨_, exec_sidebandAddressMatch_deep st own matches_, rfl, rfl, rfl, rfl⟩
  case fromSleep =>
    intro m reads s st clock
    obtain ⟨runs, lit⟩ := sleepRestore_runs (checkReads reads s)
    obtain ⟨pwr, -⟩ := runDue_pwr runs
    exact ⟨_, exec_wakeRestoreDone_sleep m reads st clock, by rw [pwr, runs], by rw [pwr, lit]⟩
  case fromDeep =>
    intro m reads s st clock
    obtain ⟨runs, pads, fail, store⟩ := deepRestore_runs s m
    obtain ⟨pwr, kept⟩ := runDue_pwr runs
    exact ⟨_, exec_wakeRestoreDone_deep m reads st clock, by rw [pwr, runs], by rw [pwr, pads], by rw [pwr, fail],
      by rw [kept, store]⟩
  case fromOff =>
    intro m reads s st clock
    exact ⟨_, exec_wakeRestoreDone_off m reads st clock, offRestore_runs s⟩

end Sys2Proof.Proofs
end

section
/-!
PROOFS of the family 12_commands, 13_coherent_state, 15_events_faults, 16_clocks, 17_power, 19_firmware_update,
20_security and 21: sequencer steps, timers and host activity (O8).
-/

namespace Sys2Proof.Proofs

open Sys2Proof.Machine Sys2Proof.Safety

/-! ### The end of a sequencer step (R418, R419) -/

section
variable {s : State}

/-- A die at the level that its step has reached, after the commits that waited for it. -/
def stepReached (s : State) (d : DieId) (n : Nat) : State :=
  forEach (herdsOf d) applyWaiting (setDie s d { getDie s d with level := n, step := none })

theorem stepReached_level (s : State) (d : DieId) (n : Nat) : (getDie (stepReached s d n) d).level = n := by
  have kept := (runsAlike_forEach runsAlike_applyWaiting (herdsOf d)
    (setDie s d { getDie s d with level := n, step := none })).die d
  rw [getDie_setDie_self] at kept
  exact (congrArg (·.1) kept :)

theorem runsAlike_postLevel (s : State) (d : DieId) (n : Nat) : RunsAlike s (postLevel s d n) := .of_pick (by simp)

/-- What follows heads for the next level, or ends the change: the level reached stays. -/
theorem exec_sequencerStepEnd {d : DieId} {n : Nat} (step : (getDie s d).step = some n)
    (clock : s.clk.refclkOk = true) : ∃ t, exec (.sequencerStepEnd d) s = .next t ∧ RunsAlike (stepReached s d n) t := by
  have stepped : ((getDie s d).step.filter fun _ => s.clk.refclkOk) = some n := by simp [step, clock]
  show ∃ t, execSequencerStepEnd d s = .next t ∧ _
  unfold execSequencerStepEnd
  simp only [stepped]
  refine ⟨_, rfl, ?_⟩
  unfold stepReached
  generalize forEach (herdsOf d) applyWaiting (setDie s d _) = u
  split
  · refine runsAlike_setDie ?_
    rfl
  · split
    · refine RunsAlike.trans (runsAlike_setDie ?_) (runsAlike_stepBegin _ _ _)
      rfl
    · refine RunsAlike.trans ?_ (runsAlike_levelWaits _ _)
      have ended : RunsAlike u (setDie u d
          { getDie u d with target := dieNeed u d, start := (getDie u d).level }) := runsAlike_setDie rfl
      split
      · exact ended
      · exact ended.trans (runsAlike_postLevel _ _ _)

/-! ### Timers and host activity (R420, R421, R436) -/

theorem exec_idleTimerExpiry (run : s.pwr.st = .run) (armed : regVal s 0x400 ≠ 0) (clock : s.clk.refclkOk = true) :
    exec .idleTimerExpiry s = .next (mirrorWrite { s with pwr := { s.pwr with st := .idle } } .hub) := by
  have live : (regVal s 0x400 != 0) = true := bne_iff_ne.mpr armed
  simp only [exec, execIdleTimerExpiry, run, live, clock, beq_self_eq_true, Bool.and_self, if_true]

theorem touch_idle (idle : s.pwr.st = .idle) :
    touch s = mirrorWrite { s with pwr := { s.pwr with st := .run, hubDeaf := s.mono + deafNs } } .hub := by
  simp only [touch, idle, beq_self_eq_true, if_true]

/-- Of the power state host activity leaves the pads. -/
theorem touch_padsHeld (s : State) : (touch s).pwr.padsHeld = s.pwr.padsHeld := by
  unfold touch
  split
  · rw [mirrorWrite_pwr]
  · rfl

theorem exec_hostActivity (a : HostAccess) (up : busUp s = true) (idle : s.pwr.st = .idle) :
    exec (.hostActivity a) s = .next (hostAccess (touch s) a) := by
  simp [exec, execHostActivity, up, idle]

theorem hostAccess_pwr (s : State) (a : HostAccess) : (hostAccess s a).pwr = s.pwr :=
  onlyIn_of_pick (m := [.io]) (by simp) .pwr (by simp)

theorem exec_sleepTimerExpiry (serves : inService s = true) (armed : regVal s 0x404 ≠ 0)
    (clock : s.clk.refclkOk = true) : exec .sleepTimerExpiry s = .next (sleepCalled s) := by
  have live : (regVal s 0x404 != 0) = true := bne_iff_ne.mpr armed
  simp only [exec, execSleepTimerExpiry, serves, live, clock, Bool.and_self, if_true]

theorem exec_deepTimerExpiry (sleep : s.pwr.st = .sleep) (counts : s.pwr.deepCnt = true)
    (clock : s.clk.refclkOk = true) : exec .deepTimerExpiry s = .next (entryBegin s 3) := by
  simp [exec, execDeepTimerExpiry, sleep, counts, clock]

theorem releasePads_frees (held : s.pwr.padsHeld = true) : (releasePads s).pwr = { s.pwr with padsHeld := false } := by
  have released : (forEach allPorts portRelease { s with pwr := { s.pwr with padsHeld := false } }).pwr =
      { s.pwr with padsHeld := false } :=
    onlyIn_of_pick (m := [.fresh, .rails, .dies, .ports, .herds, .io])
      (s := { s with pwr := { s.pwr with padsHeld := false } }) (by simp) .pwr (by simp)
  rw [releasePads, if_pos held, released]

end

/-- Settles O8: a step's level stands in `stepReached` and stays; each timer writes the power state, by itself or as
the entry that it begins. -/
theorem levelAndTimerEvents : Obligations.LevelAndTimerEvents := by
  unfold Obligations.LevelAndTimerEvents
  refine ⟨?step, ?idle, ?activity, ?sleep, ?deep, ?pads⟩
  case step =>
    intro d n s step clock
    obtain ⟨t, run, alike⟩ := exec_sequencerStepEnd step clock
    exact ⟨t, run, (congrArg (·.1) (alike.die d) :).trans (stepReached_level s d n)⟩
  case idle =>
    intro s run armed clock
    exact ⟨_, exec_idleTimerExpiry run armed clock, mirrorWrite_pwr _ _, onlyIn_of_pick (by simp)⟩
  case activity =>
    intro a s up idle
    refine ⟨_, exec_hostActivity a up idle, ?_, onlyIn_of_pick (by simp)⟩
    rw [hostAccess_pwr, touch_idle idle, mirrorWrite_pwr]
  case sleep =>
    intro s clock serves armed ready
    refine ⟨_, exec_sleepTimerExpiry serves armed clock, ?_⟩
    rw [sleepCalled_enters serves ready clock, entryBegin_pwr]
  case deep =>
    intro s clock sleep counts dark
    refine ⟨_, exec_deepTimerExpiry sleep counts clock, ?_⟩
    rw [entryBegin_dark 3 dark]
    exact ⟨rfl, onlyIn_of_pick (by simp)⟩
  case pads =>
    intro s up held
    have touched : ({ touch s with heldLow := none } : State).pwr.padsHeld = true := (touch_padsHeld s).trans held
    exact ⟨releasePads { touch s with heldLow := none }, by simp only [exec, execPadRelease, up, if_true],
      by rw [releasePads_frees touched]⟩

end Sys2Proof.Proofs
end

section
/-!
PROOFS of the family 12_commands, 13_coherent_state, 15_events_faults, 16_clocks, 17_power, 19_firmware_update,
20_security and 21: device time (O1).
-/

namespace Sys2Proof.Proofs

open Sys2Proof.Machine Sys2Proof.Safety

/-! ### Device time through schedules and completions (R331, R332, R361) -/

section
variable {s : State}

/-- A move of device time ends a slew; what it carries past its time leaves the clock. -/
theorem moveTime_time (s : State) (v : BitVec 64) :
    (moveTime s v).time = { s.time with now := v, slewLeft := 0, slewPhase := 0 } := by
  unfold moveTime
  simp only []
  split
  · rename_i serves
    exact runDue_inService serves .time (by simp)
  · rfl

theorem complete_time (op : Nat) (c : Cmd) (a : BitVec 8) (r : BitVec 64) :
    (complete s op c [] a r).time = s.time := onlyIn_of_pick (m := [.herds, .io]) (by simp) .time (by simp)

/-- A slew begins (R331). -/
def slewing (s : State) (step : BitVec 32) : State :=
  { s with time := { s.time with slewLeft := step.toInt, slewPhase := 0 } }

/-- What an accepted edge has recorded of itself. -/
def syncSeen (s : State) : BitVec 32 × BitVec 64 × Option Nat := (s.time.syncCount, s.time.syncLast, s.time.syncMono)

theorem syncSeen_of_time {t : State} (same : t.time = s.time) : syncSeen t = syncSeen s := by
  rw [syncSeen, same, syncSeen]

theorem syncSeen_ibexLeave (s : State) : syncSeen (ibexLeave s) = syncSeen s := by
  have time : (ibexLeave s).time = (sysReset s (.boot 3 true)).time :=
    onlyIn_of_pick (m := [.fw]) (by simp [ibexLeave]) .time (by simp)
  rw [syncSeen, time, sysReset_time]
  rfl

/-- A scheduled sequence that begins moves no device time; out of Ibex its restart ends a slew alone. -/
theorem syncSeen_scheduledStart (s : State) : syncSeen (scheduledStart s) = syncSeen s := by
  by_cases serves : inService s = true
  · exact syncSeen_of_time (scheduledStart_inService serves .time (by simp))
  · unfold scheduledStart
    split
    · rfl
    · split
      · exact syncSeen_ibexLeave s
      · simp only [serves, Bool.not_false, if_true]

theorem syncApply_time (s : State) (e : Cmd × BitVec 64) :
    (syncApply s e).time = { s.time with now := e.2, slewLeft := 0, slewPhase := 0 } := by
  rw [syncApply, moveTime_time, complete_time]

theorem syncSeen_syncApply (s : State) (e : Cmd × BitVec 64) : syncSeen (syncApply s e) = syncSeen s := by
  rw [syncSeen, syncApply_time]
  rfl

/-- The state with an accepted edge recorded. -/
def edgeSeen (s : State) : State :=
  { s with time := { s.time with syncCount := s.time.syncCount + 1, syncLast := now s, syncMono := some s.mono } }

/-- The TIME.SET commands that wait for an edge take effect at it. -/
def edgeApplied (s : State) : State :=
  forEach (s.waits.filterMap syncOf) syncApply { s with waits := s.waits.filter fun w => (syncOf w).isNone }

theorem syncSeen_edgeApplied (s : State) : syncSeen (edgeApplied s) = syncSeen s :=
  forEach_keeps syncSeen syncSeen_syncApply _ _

theorem exec_syncInEdge {rising : Bool} (runs : hubRuns s = true) (on : syncEn s = true)
    (edge : rising ≠ (regVal s 0x108).getLsbD 1) : exec (.syncInEdge rising) s =
      .next (edgeApplied (if edgeStarts s then scheduledStart (edgeSeen s) else edgeSeen s)) := by
  have other : (rising == (regVal s 0x108).getLsbD 1) = false := beq_eq_false_iff_ne.mpr edge
  simp only [exec, execSyncInEdge, runs, on, other, Bool.not_true, Bool.or_self, Bool.false_eq_true, if_false]
  rfl

/-- The free value keeps a herd's copy within 4 ns (R32). -/
theorem exec_herdTimeCorrection {h : HerdId} (up : (getDie s (dieOfHerd h)).d2dUp = true)
    (runs : herdsRun s = true) : exec (.herdTimeCorrection h) s = .next (modHerd (freeNat s).2 h
      fun x => { x with timeSkew := ((freeNat s).1 % 9 : Nat) - (4 : Int) }) := by
  simp only [exec, execHerdTimeCorrection, up, runs, Bool.and_self, if_true]

end

/-- Settles O1: `moveTime_time` and `syncApply_time` say what a move makes of device time, `syncSeen_…` that nothing
else of an edge's effect touches what it recorded. -/
theorem timeRows : Obligations.TimeRows := by
  unfold Obligations.TimeRows
  refine ⟨?set, ?waits, ?jump, ?slew, ?done, ?left, ?late, ?edge, ?herd⟩
  case set =>
    intro c v s
    refine ⟨moveTime (complete s 0x0F01 c [] stOk (now s)) v, rfl, ?_⟩
    rw [moveTime_time]
    exact ⟨rfl, rfl⟩
  case waits =>
    intro c v s
    exact ⟨_, rfl, rfl⟩
  case jump =>
    intro c step s
    refine ⟨moveTime (complete s 0x0F02 c [] stOk (slewRest s)) (now s + BitVec.ofInt 64 step.toInt), rfl, ?_⟩
    rw [moveTime_time]
    exact ⟨rfl, rfl⟩
  case slew =>
    intro c step s runs
    refine ⟨complete (slewing s step) 0x0F02 c [] stOk (slewRest s), rfl, ?_, ?_, ?_⟩
    · rw [complete_time]
      rfl
    · rw [complete_time]
      rfl
    · exact Answered.after (u := slewing s step) rfl (answered_complete (s := slewing s step) runs 0x0F02 [] stOk _)
  case done =>
    intro s none
    exact ⟨_, by simp only [exec, execTimeSlewDone, none, if_true], rfl⟩
  case left =>
    intro s some_
    exact ⟨s, by simp only [exec, execTimeSlewDone, some_, if_false], rfl⟩
  case late =>
    intro c v s oldest runs clock
    refine ⟨reject { s with waits := s.waits.erase (.sync c v) } 0x0F01 c stTimeout 0, ?_, ?_, ?_, ?_⟩
    · simp only [exec, execTimeSetSyncTimeout, clock, oldest, Bool.not_true, Bool.false_eq_true, if_false]
    · rw [reject_waits]
    · rw [reject_time]
    · exact answered_reject_after (s := s) (u := { s with waits := s.waits.erase (.sync c v) }) rfl runs
  case edge =>
    intro rising s runs on edge
    have seen : syncSeen (edgeApplied (if edgeStarts s then scheduledStart (edgeSeen s) else edgeSeen s)) =
        syncSeen (edgeSeen s) := by
      rw [syncSeen_edgeApplied]
      split
      · exact syncSeen_scheduledStart _
      · rfl
    refine ⟨_, exec_syncInEdge runs on edge, congrArg (·.1) seen, congrArg (·.2.1) seen, congrArg (·.2.2) seen,
      fun c v idle waiting => ?_⟩
    have stays : edgeStarts s = false := by simp [edgeStarts, idle]
    rw [stays, if_neg Bool.false_ne_true]
    have applied : edgeApplied (edgeSeen s) = syncApply
        { edgeSeen s with waits := s.waits.filter fun w => (syncOf w).isNone } (c, v) := by
      show forEach (s.waits.filterMap syncOf) syncApply _ = _
      rw [waiting]
      rfl
    rw [applied, syncApply_time]
  case herd =>
    intro h s up runs
    refine ⟨_, exec_herdTimeCorrection up runs, ?_, ?_, onlyIn_of_pick (by simp)⟩
    · rw [getHerd_modHerd_self]
      show (((freeNat s).1 % 9 : Nat) : Int) - 4 ≤ 4
      omega
    · rw [getHerd_modHerd_self]
      show -4 ≤ (((freeNat s).1 % 9 : Nat) : Int) - 4
      omega

end Sys2Proof.Proofs
end

section
/-!
PROOFS of the family 12_commands, 13_coherent_state, 15_events_faults, 16_clocks, 17_power, 19_firmware_update,
20_security and 21: supplies, temperatures and fixed reactions (O11).
-/

namespace Sys2Proof.Proofs

open Sys2Proof.Machine Sys2Proof.Safety

/-! ### Causes that end (R381) -/

section
variable {s : State}

theorem clearCause_flt (s : State) (src : Nat) : ∃ m, (clearCause s src).flt = { s.flt with raised := m } := by
  unfold clearCause
  split
  · exact ⟨_, rfl⟩
  · exact ⟨s.flt.raised, rfl⟩

theorem clearCause_ends (s : State) (src : Nat) : tabGet false (clearCause s src).flt.raised src = false := by
  unfold clearCause
  split
  · exact tabGet_tabSet_self _ _ _ _
  · rename_i clear
    simpa using clear

/-- The end of one cause begins none. -/
theorem clearCause_keeps {src k : Nat} (clear : tabGet false s.flt.raised k = false) :
    tabGet false (clearCause s src).flt.raised k = false := by
  by_cases same : k = src
  · rw [same]
    exact clearCause_ends s src
  · unfold clearCause
    split
    · exact (tabGet_tabSet_ne _ _ _ same).trans clear
    · exact clear

theorem clearCause_onlyIn (s : State) (src : Nat) : OnlyIn [.flt] s (clearCause s src) := onlyIn_of_pick (by simp)

theorem clearCauses_flt (l : List Nat) (s : State) : ∃ m, (forEach l clearCause s).flt = { s.flt with raised := m } := by
  unfold forEach
  induction l generalizing s with
  | nil => exact ⟨s.flt.raised, rfl⟩
  | cons src l ih =>
    obtain ⟨m, first⟩ := clearCause_flt s src
    obtain ⟨n, rest⟩ := ih (clearCause s src)
    exact ⟨n, by rw [List.foldl_cons, rest, first]⟩

theorem clearCauses_end (l : List Nat) (s : State) {k : Nat} (there : k ∈ l ∨ tabGet false s.flt.raised k = false) :
    tabGet false (forEach l clearCause s).flt.raised k = false := by
  unfold forEach
  induction l generalizing s with
  | nil => simpa using there
  | cons src l ih =>
    refine ih _ ?_
    by_cases same : k = src
    · rw [same]
      exact .inr (clearCause_ends s src)
    · exact there.imp (fun m => (List.mem_cons.mp m).resolve_left same) clearCause_keeps

/-! ### A fixed reaction's hold (R395, R396, R545) -/

/-- A fixed reaction's hold, the causes, and the reaction that runs. -/
def holding (s : State) : Bool × Tab Bool × Option Shadow := (s.flt.fixedHold, s.flt.raised, s.flt.running)

theorem holding_of_flt {t : State} (same : t.flt = s.flt) : holding t = holding s := by rw [holding, same, holding]

theorem holding_firstSet (s : State) (l : List FltRec) : holding (firstSet s l) = holding s := by
  unfold firstSet firstClear
  split
  · rfl
  · split
    · rfl
    · simp only []
      split <;> rfl

/-- Records of a fixed reaction that are written late change neither its hold nor a cause. -/
theorem holding_writeFixed (s : State) (e : FixedCause × BitVec 64 × BitVec 32 × BitVec 32) :
    holding (writeFixed s e) = holding s := by
  have posts : ∀ (l : List FltRec) (u : State), holding (forEach l postRecord u) = holding u :=
    fun l u => forEach_keeps holding (fun t r => holding_of_flt (postRecord_flt t r)) l u
  have lost : ∀ (u : State) (t : BitVec 64) (n : BitVec 32), holding (postRefclk u t n) = holding u := by
    intro u t n
    unfold postRefclk
    split
    · exact holding_of_flt (postGlobal_flt _ _ _)
    · rfl
  unfold writeFixed
  simp only []
  refine (holding_of_flt (postGlobal_flt _ _ _)).trans ?_
  split
  · rw [lost, posts, holding_firstSet]
    rfl
  · rw [posts, holding_firstSet]
    rfl

theorem holding_flushFixed (s : State) : holding (flushFixed s) = holding s := by
  unfold flushFixed
  split
  · simp only []
    have mirrored : ∀ u : State, (mirrorAll u).flt = u.flt := fun u =>
      onlyIn_of_pick (m := [.io]) (by simp) .flt (by simp)
    have refused : ∀ (l : List Cmd) (u : State), (forEach l refuseHeld u).flt = u.flt :=
      fun l u => onlyIn_of_pick (m := [.herds, .io]) (by simp) .flt (by simp)
    rw [holding_of_flt (mirrored _), holding_of_flt (refused _ _)]
    exact forEach_keeps holding holding_writeFixed s.flt.latch s
  · rfl

theorem fixedStart_holds (s : State) (c : FixedCause) (detail : Nat) :
    holding (fixedStart s c detail) = (true, tabSet s.flt.raised (fixedSource c) true, none) := by
  have opened : ∀ (u : State) (w : Shadow), holding (openShadow u w) = holding u := by
    intro u w
    unfold openShadow
    split <;> rfl
  unfold fixedStart
  simp only []
  rw [holding_flushFixed]
  exact opened _ _

/-! ### Supplies (R414, R416) -/

section
variable {r : RailId} {mv : BitVec 16} (clock : s.clk.refclkOk = true) (watched : railsWatched s = true)
include clock watched

/-- A rail that leaves its window is noted, reported and faulted. -/
theorem exec_supplyWindowExit (inside : (getRail s r).out = false) (leaves : inWindow s r mv = false) :
    ∃ low, exec (.supplyWindowExit r mv) s = .next (railFault
      (supplyEvent (setRail s r { getRail s r with out := true, low := low }) r true mv) r mv.toNat) := by
  refine ⟨decide (10 * (mv.toNat : Int) < (railWindow s r).1), ?_⟩
  simp only [exec, execSupplyWindowExit, inside, watched, leaves, clock, Bool.not_true, Bool.or_self,
    Bool.false_eq_true, if_false]

theorem exec_supplyWindowReentry (outside : (getRail s r).out = true) (back : inWindow s r mv = true) :
    exec (.supplyWindowReentry r mv) s = .next (clearCause
      (supplyEvent (setRail s r { getRail s r with out := false, low := false }) r false mv)
      (fixedSource (.supply r))) := by
  simp only [exec, execSupplyWindowReentry, outside, watched, back, clock, Bool.not_true, Bool.or_self,
    Bool.false_eq_true, if_false]

omit clock in
/-- The comparators are heard wherever the rails are watched (R379). -/
theorem supply_counts (ended : tabGet false s.flt.raised 0xA00 = false)
    (apart : tabGet false s.flt.network 0xA00 = false) (d : BitVec 32) :
    raises s { source := 0xA00, detail := d, injected := false, network := false } = true := by
  have unit : fltUnit 0xA00 = some .hub := by decide
  have heard : hubIgnored s 0xA00 = false := by
    have core : coreSource 0xA00 = false := by decide
    have sleep : sleepSource 0xA00 = false := by decide
    unfold railsWatched at watched
    unfold hubIgnored
    split
    · rename_i off
      simp [off] at watched
    · rename_i porst
      simp [porst] at watched
    · rfl
    · exact sleep
    · rw [sleep, Bool.and_false]
    · split
      · exact sleep
      · exact Bool.and_false _
    · exact core
    · rw [sleep, core, Bool.and_false, Bool.and_false, Bool.or_false]
  have loose : (fltDef 0xA00).fixed = false := by decide
  simp [raises, unit, fltIgnored, heard, loose, ended, apart]

theorem exec_avsStatusAlert : exec (.avsStatusAlert 0 true) s =
    .next (raiseFault (freeNat s).2 0xA00 ((freeNat s).1 % 65536)) := by
  have avs : avsRail 0 = true := by decide
  have loose : fixedRail 0 = false := by decide
  simp only [exec, execAvsStatusAlert, avs, watched, clock, Bool.and_self, if_true, railFault, loose,
    Bool.false_eq_true, if_false]
  rfl

end

theorem raiseFault_rails (s : State) (src detail : Nat) : (raiseFault s src detail).rails = s.rails :=
  onlyIn_of_pick (m := [.ports, .herds, .io, .flt, .fw, .nv]) (by simp) .rails (by simp)

theorem fixedStart_rails (s : State) (c : FixedCause) (detail : Nat) : (fixedStart s c detail).rails = s.rails :=
  onlyIn_of_pick (m := [.ports, .herds, .io, .waits, .flt]) (by simp) .rails (by simp)

theorem getRail_supplyEvent (s : State) (r q : RailId) (left : Bool) (mv : BitVec 16) :
    getRail (supplyEvent s r left mv) q = getRail s q := by
  have rails : (supplyEvent s r left mv).rails = s.rails := onlyIn_of_pick (m := [.io]) (by simp) .rails (by simp)
  simp only [getRail, rails]

theorem supplyEvent_flt (s : State) (r : RailId) (left : Bool) (mv : BitVec 16) :
    (supplyEvent s r left mv).flt = s.flt := postGlobal_flt _ _ _

/-! ### The end of a fixed reaction, and temperatures (R375, R396, R448) -/

/-- The causes whose end a fixed reaction waits for. -/
def fixedCauses : List Nat := 0xA10 :: 0xA21 :: 0xA02 :: (List.range 8).map fun d => 0x900 + 8 * d

/-- The collector once a fixed reaction's causes have ended. -/
def causesEnded (s : State) : State :=
  { forEach fixedCauses clearCause s with flt := { (forEach fixedCauses clearCause s).flt with ended := true } }

theorem exec_fixedCauseEnded (clock : s.clk.refclkOk = true) (hold : s.flt.fixedHold = true) :
    exec .fixedCauseEnded s = .next (fixedRestart (causesEnded s)) := by
  simp only [exec, execFixedCauseEnded, clock, hold, Bool.and_self, if_true, causesEnded, fixedCauses]

theorem causesEnded_flt (s : State) : ∃ m, (causesEnded s).flt = { s.flt with raised := m, ended := true } := by
  obtain ⟨m, cleared⟩ := clearCauses_flt fixedCauses s
  exact ⟨m, by rw [causesEnded, cleared]⟩

theorem causesEnded_ends (s : State) {k : Nat} (there : k ∈ fixedCauses) :
    tabGet false (causesEnded s).flt.raised k = false := by
  have ends := clearCauses_end fixedCauses s (.inl there)
  simpa only [causesEnded] using ends

theorem causesEnded_onlyIn (s : State) : OnlyIn [.flt] s (causesEnded s) :=
  onlyIn_of_pick (by simp [causesEnded])

theorem fixedRestart_waits (latched : s.flt.latch ≠ []) : fixedRestart s = s := by
  have held : s.flt.latch.isEmpty = false := by simpa using latched
  simp [fixedRestart, held]

theorem fixedRestart_restarts (hold : s.flt.fixedHold = true) (ended : s.flt.ended = true) (flushed : s.flt.latch = [])
    (acked : (s.flt.fixedRecs.all fun n => !(s.flt.volatile.any fun r => r.record == n && unacked r)) = true) :
    fixedRestart s = sysReset s (.boot 3 true) := by
  simp only [fixedRestart, hold, ended, flushed, acked, List.isEmpty_nil, Bool.and_self, if_true]

theorem exec_portTemperatureRead (p : PortId) (x : BitVec 16) (runs : herdsRun s = true) :
    ∃ t hot, exec (.portTemperatureRead p x) s = .next t ∧
      t.ports = (setPort s p { getPort s p with temp := x, hot := hot }).ports := by
  simp only [exec, execPortTemperatureRead, runs, Bool.not_true, Bool.false_eq_true, if_false]
  split
  · exact ⟨_, true, rfl, postLimited_ports ..⟩
  · split
    · exact ⟨_, false, rfl, postLimited_ports ..⟩
    · exact ⟨_, (getPort s p).hot, rfl, rfl⟩

end

/-- Settles O11: a supply's event is posted beside its fault (`raises_raiseFault`, `fixedStart_holds`); the end of a
fixed reaction's causes (`causesEnded`) is followed by its restart once its records allow. -/
theorem supplyRows : Obligations.SupplyRows := by
  unfold Obligations.SupplyRows
  refine ⟨?leaves, ?fixed, ?back, ?alert, ?junction, ?ends, ?restarts, ?port, ?die, ?hub⟩
  case leaves =>
    intro r mv s clock inside watched leaves loose
    obtain ⟨low, run⟩ := exec_supplyWindowExit clock watched inside leaves
    rw [railFault, loose, if_neg Bool.false_ne_true] at run
    have raised := raises_raiseFault
      (supplyEvent (setRail s r { getRail s r with out := true, low := low }) r true mv) (fixedSource (.supply r))
      mv.toNat
    refine ⟨_, run, ?_, ?_, ?_⟩
    · rw [getRail, raiseFault_rails, ← getRail, getRail_supplyEvent, getRail_setRail_self]
    · exact (raised.gens _ (by decide) (by decide)).trans (posted_postGlobal (setRail s r _) 18 _)
    · rw [raised.fixedHold, supplyEvent_flt]
      rfl
  case fixed =>
    intro r mv s clock inside watched leaves fixed _ fresh
    obtain ⟨low, run⟩ := exec_supplyWindowExit clock watched inside leaves
    rw [railFault, fixed, if_pos rfl, supplyEvent_flt, setRail_flt, fresh, if_neg Bool.false_ne_true] at run
    have holds := fixedStart_holds (supplyEvent (setRail s r { getRail s r with out := true, low := low }) r true mv)
      (.supply r) mv.toNat
    refine ⟨_, run, ?_, (congrArg (·.1) holds :)⟩
    rw [getRail, fixedStart_rails, ← getRail, getRail_supplyEvent, getRail_setRail_self]
  case back =>
    intro r mv s clock outside watched back
    refine ⟨_, exec_supplyWindowReentry clock watched outside back, ?_, clearCause_ends _ _, ?_⟩
    · have rails := clearCause_onlyIn (supplyEvent (setRail s r { getRail s r with out := false, low := false }) r false
        mv) (fixedSource (.supply r)) .rails (by simp)
      rw [getRail, rails, ← getRail, getRail_supplyEvent, getRail_setRail_self]
    · have io := clearCause_onlyIn (supplyEvent (setRail s r { getRail s r with out := false, low := false }) r false
        mv) (fixedSource (.supply r)) .io (by simp)
      exact (genOf_of_gens (congrArg Io.gens io) _).trans (posted_postGlobal (setRail s r _) 18 _)
  case alert =>
    intro s clock watched ended apart
    obtain ⟨next, raised, -⟩ := collect_one (s := (freeNat s).2) clock
      (supply_counts (s := (freeNat s).2) watched ended apart (BitVec.ofNat 32 ((freeNat s).1 % 65536)))
    refine ⟨_, exec_avsStatusAlert clock watched, next, ?_⟩
    have held : raisedBy ⟨0xA00, BitVec.ofNat 32 ((freeNat s).1 % 65536), false, false⟩ s.flt.raised =
        tabSet s.flt.raised 0xA00 true := by
      have holds : (fltDef 0xA00).holds = true := by decide
      simp [raisedBy, holds]
    exact (congrArg (fun m => tabGet false m 0xA00) (raised.trans held)).trans (tabGet_tabSet_self _ _ _ _)
  case junction =>
    intro s fresh
    have holds := fixedStart_holds (freeNat s).2 .junction (freeNat s).1
    refine ⟨fixedStart (freeNat s).2 .junction (freeNat s).1, ?_, (congrArg (·.1) holds :), ?_,
      (congrArg (·.2.2) holds :)⟩
    · have fresh' : tabGet false s.flt.raised (fixedSource .junction) = false := fresh
      simp only [exec, execFixedReaction, fresh', Bool.false_eq_true, if_false]
    · exact (congrArg (fun x => tabGet false x.2.1 0xA21) holds).trans (tabGet_tabSet_self _ _ _ _)
  case ends =>
    intro s clock hold latched
    obtain ⟨m, flt⟩ := causesEnded_flt s
    have stays : fixedRestart (causesEnded s) = causesEnded s := fixedRestart_waits (by rw [flt]; exact latched)
    refine ⟨_, exec_fixedCauseEnded clock hold, ?_⟩
    rw [stays]
    refine ⟨rfl, by rw [flt, hold], ?_, causesEnded_onlyIn s⟩
    exact causesEnded_ends s (by decide)
  case restarts =>
    intro s clock hold flushed acked
    obtain ⟨m, flt⟩ := causesEnded_flt s
    have restarts : fixedRestart (causesEnded s) = sysReset (causesEnded s) (.boot 3 true) :=
      fixedRestart_restarts (by rw [flt]; exact hold) (by rw [flt]) (by rw [flt]; exact flushed)
        (by rw [flt]; exact acked)
    refine ⟨_, exec_fixedCauseEnded clock hold, ?_⟩
    rw [restarts]
    generalize causesEnded s = u at flt ⊢
    rw [sysReset_flt, flt]
    exact ⟨rfl, rfl, rfl⟩
  case port =>
    intro p x s runs
    obtain ⟨t, hot, run, ports⟩ := exec_portTemperatureRead p x runs
    refine ⟨t, run, ?_, fun q n => ?_⟩
    · rw [getPort, ports, ← getPort, getPort_setPort_self]
    · rw [getPort, ports, ← getPort, getPort_setPort_ne _ _ n]
  case die =>
    intro d x s clock powered
    refine ⟨setDie s d { getDie s d with temp := x }, ?_, getDie_setDie_self _ _ _, onlyIn_of_pick (by simp)⟩
    simp [exec, execDieTemperatureRead, clock, powered]
  case hub =>
    intro x s clock powered
    exact ⟨_, by simp [exec, execDieTemperatureRead, clock, powered], rfl⟩

end Sys2Proof.Proofs
end

section
/-!
PROOFS of the family 12_commands, 13_coherent_state, 15_events_faults, 16_clocks, 17_power, 19_firmware_update,
20_security and 21: calibration (O12).
-/

namespace Sys2Proof.Proofs

open Sys2Proof.Machine Sys2Proof.Safety

/-! ### Calibration runs (R443, R451, R452) -/

section
variable {s : State} {p : PortId}

theorem quadGet_zip {α β γ : Type} (f : α → β → γ) (q : Quad α) (r : Quad β) (i : PairId) :
    quadGet (quadZip f q r) i = f (quadGet q i) (quadGet r i) := by
  unfold quadGet
  split <;> rfl

theorem quadGet_quadIx (i : PairId) : quadGet quadIx i = i.val := by
  unfold quadGet
  split <;> rfl

/-! #### The begin of a run -/

/-- The tasks that a CAL.RUN orders: TASKS 0 is all five. -/
def ordered (tasks : BitVec 8) : BitVec 8 := if tasks = 0 then 0x1F else tasks

theorem portsBut_waitNegotiate (s : State) (p : PortId) : PortsBut p s (waitNegotiate s p) :=
  portsBut_trans (silent_setSt s p .negotiate).others (portsBut_modPort _)

theorem portsBut_clearAttempts (s : State) (p : PortId) : PortsBut p s (clearAttempts s p) := portsBut_modPort _

/-- A run that begins has the ordered tasks, and is its port's alone. -/
theorem calBegin_runs (tasks : BitVec 8) (s : State) (p : PortId) :
    (getPort (calBegin tasks s p) p).cal.map (·.tasks) = some tasks ∧ PortsBut p s (calBegin tasks s p) := by
  unfold calBegin
  simp only []
  refine ⟨by rw [getPort_modPort_self]; rfl, portsBut_trans ?_ (portsBut_modPort _)⟩
  split
  · exact portsBut_trans (portsBut_trans (leaveUp_left s p 0x06 .negotiate).2 (portsBut_waitNegotiate _ p))
      (portsBut_clearAttempts _ p)
  · split
    · exact portsBut_waitNegotiate s p
    · exact fun _ _ => rfl

/-- A port in DISABLED or HOLD calibrates where it is (R451). -/
theorem calBegin_still (tasks : BitVec 8) (still : (getPort s p).st = .disabled ∨ (getPort s p).st = .hold) :
    ∃ r : CalRun, r.tasks = tasks ∧ calBegin tasks s p = modPort s p fun y => { y with cal := some r } := by
  have up : ((getPort s p).st == .up) = false := by obtain h | h := still <;> rw [h] <;> rfl
  have negotiate : ((getPort s p).st == .negotiate) = false := by obtain h | h := still <;> rw [h] <;> rfl
  unfold calBegin
  simp only [up, negotiate, Bool.false_and, Bool.false_eq_true, if_false]
  exact ⟨_, rfl, rfl⟩

section
variable {c : Cmd} {tasks : BitVec 8} (turn : myTurn s c = true) (known : tasks.toNat ≤ 0x1F)
include turn known

theorem exec_calRun_port (gate : calGate s (.port p) = none) (may : calRefuses s p (forced c) = none) :
    exec (.calRun c (.port p) tasks) s =
      .next (completeOk (calBegin (ordered tasks) s p) 0x0601 c (portBlocks p) 0) := by
  simp only [exec, execCalRun, turn, gate, known, may, Bool.not_true, Bool.false_eq_true, if_false, Nat.not_lt.mpr,
    List.findSome?_cons, List.findSome?_nil, List.flatMap_cons, List.flatMap_nil, List.append_nil, ordered]
  rfl

/-- A herd's run begins on each of its ports, and may start its die's full run (R449). -/
theorem exec_calRun_herd {h : HerdId} (gate : calGate s (.herd h) = none)
    (may : (portsOf h).findSome? (fun p => calRefuses s p (forced c)) = none) :
    ∃ t, exec (.calRun c (.herd h) tasks) s = .next t ∧
      t.ports = (forEach (portsOf h) (calBegin (ordered tasks)) s).ports := by
  simp only [exec, execCalRun, turn, gate, known, may, Bool.not_true, Bool.false_eq_true, if_false, Nat.not_lt.mpr]
  rw [← ordered]
  generalize forEach (portsOf h) (calBegin (ordered tasks)) s = u
  refine ⟨_, rfl, ?_⟩
  rw [completeOk, complete_ports]
  split
  · rfl
  · rfl

end

/-! #### Steps and units -/

theorem getPort_taskStep (s : State) (p : PortId) (task : Nat) : ∃ n,
    getPort (taskStep s p task) p = { getPort s p with pairs := quadZip (fun i q =>
      if calPaused q || ((getPort s p).cal.bind calTask).map (·.val) == some task then q
      else trimMove task (n / 3 ^ i) (calStep s.time.now q)) quadIx (getPort s p).pairs } :=
  ⟨(freeNat s).1, getPort_setPort_self _ _ _⟩

/-- A trim moves by one of three. -/
theorem trimMove_mod (k n : Nat) (q : Pair) : trimMove k n q = trimMove k (n % 3) q := by
  simp only [trimMove, Nat.mod_mod]

theorem exec_calMarkerCountExpiry (runs : calRuns s p = true)
    (full : calPeriods (getPort s p).mode ≤ (getPort s p).calMarks) :
    exec (.calMarkerCountExpiry p) s = .next (calGap s p) := by
  simp only [exec, execCalMarkerCountExpiry, runs, full, decide_true, Bool.and_self, if_true]

theorem exec_dieFullRunEnd (d : DieId) {trig : BitVec 8} (run : (getDie s d).calRun = some trig)
    (clock : s.clk.refclkOk = true) (powered : linePowered s = true) : ∃ l, exec (.dieFullRunEnd d) s =
      .next (postGlobal (setDie s d { getDie s d with
        calRun := none, calTemp := (getDie s d).temp, calCount := (getDie s d).calCount + 1, calTime := s.time.now })
        74 l) := by
  simp only [exec, execDieFullRunEnd, clock, powered, Bool.and_self, Bool.not_true, Bool.false_eq_true, if_false,
    dieRunEnd, run]
  exact ⟨_, rfl⟩

/-- A task that is not the last of its run has calibrated the four pairs. -/
theorem exec_calUnitDone_task {r : CalRun} {k j : Fin 5} (run : (getPort s p).cal = some r) (line : r.inLpi = false)
    (task : calTask r = some k) (next : calTask { r with done := r.done ||| BitVec.ofNat 8 (2 ^ k.val) } = some j)
    (herds : herdsRun s = true) : ∃ (n : Nat) (r' : CalRun), r'.done = r.done ||| BitVec.ofNat 8 (2 ^ k.val) ∧
      exec (.calUnitDone p) s = .next (setPort (freeNat s).2 p { getPort s p with
        pairs := quadZip (fun i q => trimSet k.val (n / 2 ^ (32 * i)) (calStep s.time.now q)) quadIx (getPort s p).pairs
        cal := some r' }) := by
  have more : calTask { unitCounted (getPort s p) r with done := r.done ||| BitVec.ofNat 8 (2 ^ k.val) } = some j :=
    next
  refine ⟨(freeNat s).1, { unitCounted (getPort s p) r with
    done := r.done ||| BitVec.ofNat 8 (2 ^ k.val), unitsLeft := calUnits j }, rfl, ?_⟩
  have done : (unitCounted (getPort s p) r).done = r.done := rfl
  simp only [exec, execCalUnitDone, herds, run, task, line, done, more, Bool.false_and, Bool.not_true,
    Bool.false_eq_true, if_false, Option.isNone_some, Option.elim_some]
  rfl

end

/-- Settles O12: a run begins on its port alone (`calBegin_runs`), so the ports of a herd each begin theirs
(`getPort_forEach_mem`); steps and units write the pairs entry by entry (`quadGet_zip`). -/
theorem calRows : Obligations.CalRows := by
  unfold Obligations.CalRows
  refine ⟨?port, ?herd, ?step, ?die, ?task, ?unit⟩
  case port =>
    intro c p tasks s runs turn gate known may still
    obtain ⟨r, has, begins⟩ := calBegin_still (ordered tasks) still
    refine ⟨_, exec_calRun_port turn known gate may, ?_⟩
    rw [begins]
    obtain ⟨port, others, answered⟩ := completed_modPort (p := p) runs 0x0601 (portBlocks p)
      fun y => { y with cal := some r }
    rw [port]
    exact ⟨congrArg some has, rfl, others, answered⟩
  case herd =>
    intro c h tasks s turn gate known may
    obtain ⟨t, run, ports⟩ := exec_calRun_herd turn known gate may
    refine ⟨t, run, fun p m => ?_⟩
    rw [getPort, ports, ← getPort]
    exact getPort_forEach_mem (at_ := id) (P := fun _ y => y.cal.map (·.tasks) = some (ordered tasks))
      (fun s q => (calBegin_runs (ordered tasks) s q).2) (fun s => (calBegin_runs (ordered tasks) s p).1) (portsOf h)
      (by rw [List.map_id]; exact portsOf_nodup h) m s
  case step =>
    intro p s runs full
    obtain ⟨n, stepped⟩ := getPort_taskStep s p ((getPort s p).calRot % 4 + 1)
    have port : getPort (calGap s p) p = _ := (getPort_modPort_self _ p _).trans (by rw [stepped])
    refine ⟨_, exec_calMarkerCountExpiry runs full, by rw [port], by rw [port], ?_, onlyIn_of_pick (by simp),
      fun i paused => ?_, fun still i open_ => ⟨n / 3 ^ i.val % 3, Nat.mod_lt _ (by decide), ?_⟩⟩
    · exact portsBut_trans (portsBut_trans (silent_freeNat s p).others (silent_setPort _ p _).others)
        (portsBut_modPort _)
    · rw [port, quadGet_zip, paused, Bool.true_or, if_pos rfl]
    · rw [port, quadGet_zip, open_, still, quadGet_quadIx]
      exact trimMove_mod _ _ _
  case die =>
    intro d trig s run clock powered
    obtain ⟨l, ends⟩ := exec_dieFullRunEnd d run clock powered
    refine ⟨_, ends, ?_, posted_postGlobal (setDie s d _) 74 l, onlyIn_of_pick (by simp)⟩
    rw [getDie_postGlobal, getDie_setDie_self]
  case task =>
    intro p r k j s run line task next herds
    obtain ⟨n, r', done, ends⟩ := exec_calUnitDone_task run line task next herds
    refine ⟨_, ends, ?_, fun i => ⟨n / 2 ^ (32 * i.val), ?_⟩, fun q other => ?_⟩
    · rw [getPort_setPort_self]
      exact congrArg some done
    · rw [getPort_setPort_self, quadGet_zip, quadGet_quadIx]
    · rw [getPort_setPort_ne _ _ other, getPort_freeNat]
  case unit =>
    intro p r s run lpi quiet more task fits herds
    obtain ⟨k, task⟩ := Option.isSome_iff_exists.mp task
    refine ⟨setPort s p { getPort s p with
      cal := some { unitCounted (getPort s p) r with unitsLeft := r.unitsLeft - 1 } }, ?_, ?_, onlyIn_of_pick (by simp)⟩
    · simp only [exec, execCalUnitDone, herds, run, task, lpi, quiet, fits, more]
      rfl
    · rw [getPort_setPort_self]

end Sys2Proof.Proofs
end

section
/-!
PROOFS of the family 12_commands, 13_coherent_state, 15_events_faults, 16_clocks, 17_power, 19_firmware_update,
20_security and 21: the in-field self-test (O13).
-/

namespace Sys2Proof.Proofs

open Sys2Proof.Machine Sys2Proof.Safety

/-! ### A capture that stops leaves every port's state (R263) -/

/-- Every port is in the state that it was in. -/
def StatesStay (s t : State) : Prop := ∀ q, (getPort t q).st = (getPort s q).st

section
variable {s t u : State}

theorem StatesStay.refl : StatesStay s s := fun _ => rfl

theorem StatesStay.trans (a : StatesStay s t) (b : StatesStay t u) : StatesStay s u := fun q => (b q).trans (a q)

theorem StatesStay.of_ports (ports : t.ports = s.ports) : StatesStay s t := fun q => by rw [getPort, ports, ← getPort]

theorem StatesStay.of_beside (beside : Beside s t) : StatesStay s t := fun q => (congrArg Port.st (beside.port q) :)

theorem statesStay_forEach {α : Type} {f : State → α → State} (each : ∀ s x, StatesStay s (f s x)) (l : List α)
    (s : State) : StatesStay s (forEach l f s) := by
  unfold forEach
  induction l generalizing s with
  | nil => exact .refl
  | cons x l ih => exact (each s x).trans (ih _)

theorem statesStay_captureReady (h : HerdId) (source : Nat) (k : Taken) :
    StatesStay s (captureReady s h source k) :=
  .of_ports (onlyIn_of_pick (m := [.io]) (by simp) .ports (by simp))

theorem statesStay_captureStopped (h : HerdId) (e : ObsEnd) (k : Option Taken) :
    StatesStay s (captureStopped s h e k) :=
  .of_ports (onlyIn_of_pick (m := [.io]) (by simp) .ports (by simp))

theorem statesStay_stopDone (h : HerdId) : StatesStay s (stopDone s h) :=
  .of_ports (onlyIn_of_pick (m := [.herds, .io]) (by simp) .ports (by simp))

theorem statesStay_captureFill (n : Nat) (h : HerdId) (s : State) : StatesStay s (captureFill n h s) := by
  induction n generalizing s with
  | zero => exact .refl
  | succ n ih =>
    unfold captureFill
    simp only []
    refine (StatesStay.of_beside (beside_captureTake s h)).trans ?_
    split
    · split
      · exact ((StatesStay.of_beside (beside_captureWrite ..)).trans (statesStay_captureReady _ _ _)).trans (ih _)
      · exact .refl
    · exact .refl

theorem statesStay_captureEnd (n : Nat) (h : HerdId) (e : ObsEnd) (s : State) :
    StatesStay s (captureEnd n h e s) := by
  induction n generalizing s with
  | zero => exact .refl
  | succ n ih =>
    unfold captureEnd
    simp only []
    refine (StatesStay.of_beside (beside_captureTake s h)).trans ?_
    split
    · split
      · exact .refl
      · split
        · refine StatesStay.trans ?_ (statesStay_stopDone h)
          refine StatesStay.trans ?_ (statesStay_captureStopped _ _ _)
          exact StatesStay.trans (.of_ports (freeNat_ports _)) (.of_beside (beside_captureWrite ..))
        · exact ((StatesStay.of_beside (beside_captureWrite ..)).trans (statesStay_captureReady _ _ _)).trans (ih _)
    · split
      · exact .refl
      · exact (statesStay_captureStopped _ _ _).trans (statesStay_stopDone h)

theorem statesStay_captureDrain (s : State) (h : HerdId) : StatesStay s (captureDrain s h) := by
  unfold captureDrain
  simp only []
  split
  · exact statesStay_captureEnd _ _ _ _
  · exact statesStay_captureFill _ _ _

theorem statesStay_obsStopWith (s : State) (h : HerdId) (cause : Nat) : StatesStay s (obsStopWith s h cause) := by
  unfold obsStopWith
  simp only []
  split
  · exact StatesStay.trans (.of_ports rfl) (statesStay_captureDrain _ h)
  · exact .refl

theorem statesStay_obsSelfTest (s : State) (h : HerdId) : StatesStay s (obsSelfTest s h) := by
  unfold obsSelfTest obsCut
  simp only []
  have dropped : StatesStay (obsStopWith s h 0x04) (dropObsWaits (obsStopWith s h 0x04) h) :=
    .of_ports (onlyIn_of_pick (m := [.herds, .io]) (by simp) .ports (by simp))
  exact ((statesStay_obsStopWith s h 0x04).trans dropped).trans (.of_ports rfl)

/-- A self-test leaves its herd's path stopped, with its first bank at reset (R251). -/
theorem obsSelfTest_path (s : State) (h : HerdId) :
    (getObs (obsSelfTest s h) h).st = .stopped ∧ (getObs (obsSelfTest s h) h).bank0 = Bank.reset := by
  unfold obsSelfTest
  simp only [getObs_setObs, and_self]

end

/-! ### The begin of a self-test (R458 step 1) -/

section
variable {s : State}

/-- A port enters TEST, whatever it did. -/
theorem enterTest_tests (s : State) (p : PortId) :
    (getPort (enterTest s p) p).st = .test ∧ PortsBut p s (enterTest s p) := by
  have moved (t : State) : (getPort (setSt t p .test) p).st = .test := by
    obtain ⟨time, lane, seen, self⟩ := setSt_self t p .test
    rw [self]
  unfold enterTest
  simp only []
  rw [getPort_modPort_self]
  refine And.imp id (fun others => portsBut_trans others (portsBut_modPort _)) ?_
  have ended := ended_others s p
  split
  · have left := leaveUp_left (endCal (endChamois s p) p) p 0x09 .test
    exact ⟨left.1, portsBut_trans ended left.2⟩
  · split
    · exact ⟨moved _, portsBut_trans ended (portsBut_trans (abortTo_others _ p _ _) (silent_setSt _ p _).others)⟩
    · exact ⟨moved _, portsBut_trans ended (silent_setSt _ p _).others⟩

/-- A herd and its ports as a test begins: the path stopped, then the run opened on the herd. -/
def testOpened (s : State) (h : HerdId) (k : BistRun) (r : HerdRec) : State :=
  storeHerdRec (modHerd (obsSelfTest (forEach (portsOf h) enterTest s) h) h
    fun y => { y with st := .selfTest, test := some k }) h r

theorem testOpened_ports (s : State) (h : HerdId) (k : BistRun) (r : HerdRec) {p : PortId} (m : p ∈ portsOf h) :
    (getPort (testOpened s h k r) p).st = .test := by
  have entered : (getPort (forEach (portsOf h) enterTest s) p).st = .test :=
    getPort_forEach_mem (at_ := id) (P := fun _ y => y.st = .test) (fun s q => (enterTest_tests s q).2)
      (fun s => (enterTest_tests s p).1) (portsOf h) (by rw [List.map_id]; exact portsOf_nodup h) m s
  have stored : (testOpened s h k r).ports = (obsSelfTest (forEach (portsOf h) enterTest s) h).ports :=
    onlyIn_of_pick (m := [.herds, .io]) (by simp [testOpened]) .ports (by simp)
  rw [getPort, stored, ← getPort, statesStay_obsSelfTest _ h p, entered]

theorem storeHerdRec_runs (s : State) (h : HerdId) (r : HerdRec) :
    (getHerd (storeHerdRec s h r) h).st = (getHerd s h).st ∧
    (getHerd (storeHerdRec s h r) h).obs = (getHerd s h).obs := by
  unfold storeHerdRec
  split
  · constructor <;> rw [getHerd_emit, getHerd_modHerd_self]
  · exact ⟨rfl, rfl⟩

theorem testOpened_herd (s : State) (h : HerdId) (k : BistRun) (r : HerdRec) :
    (getHerd (testOpened s h k r) h).st = .selfTest ∧ (getHerd (testOpened s h k r) h).obs.st = .stopped ∧
    (getHerd (testOpened s h k r) h).obs.bank0 = Bank.reset := by
  obtain ⟨st, obs⟩ := storeHerdRec_runs (modHerd (obsSelfTest (forEach (portsOf h) enterTest s) h) h
    fun y => { y with st := .selfTest, test := some k }) h r
  rw [testOpened, st, obs, getHerd_modHerd_self]
  have path := obsSelfTest_path (forEach (portsOf h) enterTest s) h
  generalize obsSelfTest (forEach (portsOf h) enterTest s) h = u at path ⊢
  exact ⟨rfl, path⟩

/-- What each of a list of ports copies of itself leaves the herds alone. -/
theorem getHerd_copies (f : PortId → State → Port → Port) (l : List PortId) (s : State) (h : HerdId) :
    getHerd (forEach l (fun t p => modPort t p (f p t)) s) h = getHerd s h :=
  forEach_keeps (f := fun t p => modPort t p (f p t)) (fun t => getHerd t h) (fun _ _ => rfl) l s

/-- An accepted BIST.RUN: its test is opened, the statistics of its ports are copied, and it is answered. -/
theorem exec_bistRun {c : Cmd} {h : HerdId} (turn : testTurn s c = true) (gate : herdGate s h = none)
    (alone : testedHerd s = none) (idle : (portsOf h).all (fun p => (getPort s p).st == .disabled) = true)
    (settled : commitRuns s h = false) :
    ∃ (u : State) (k : BistRun) (r : HerdRec) (f : PortId → State → Port → Port),
      (∀ p t y, (f p t y).st = y.st) ∧ exec (.bistRun c h) s = .next (completeOk
        (forEach (portsOf h) (fun t p => modPort t p (f p t)) (testOpened u h k r)) 0x0701 c (herdBlocks h) 0) := by
  have down : ((portsOf h).any fun p => (getPort s p).st == .up) = false :=
    List.any_eq_false.mpr fun p m => by rw [eq_of_beq (List.all_eq_true.mp idle p m)]; decide
  have free : ((portsOf h).any fun p => holdsMode (getPort s p)) = false :=
    List.any_eq_false.mpr fun p m => by
      rw [holdsMode, eq_of_beq (List.all_eq_true.mp idle p m)]
      decide
  simp only [exec, execBistRun, turn, gate, alone, settled, down, free, Bool.not_true, Bool.false_and,
    Bool.false_eq_true, if_false]
  exact ⟨_, _, _, fun p t y => { y with frozenCopy := some (liveBlock t p (now t)) }, fun _ _ _ => rfl, rfl⟩

end

/-! ### Its steps (R456, R458) -/

section
variable {s : State} {h : HerdId} {b : BistRun} (o : BistOutcome) (reads : List (PortId × CtxKey × CtxRead))
  (tested : (getHerd s h).st = .selfTest) (run : (getHerd s h).test = some b) (runs : herdsRun s = true)
include tested run runs

theorem exec_bistStepDone_logic (step : b.step = 3) : exec (.bistStepDone h o reads) s =
    .next (modHerd s h fun x => { x with test := some { b with step := 4, logicFail := o.logicFail } }) := by
  have under : ((getHerd s h).st != .selfTest) = false := by rw [tested]; rfl
  simp only [exec, execBistStepDone, runs, under, run, step, Bool.not_true, Bool.false_eq_true, if_false]

/-- What memory BIST found enters the table and the run; the coefficient memory is overwritten (R155, R456). -/
theorem exec_bistStepDone_memory (step : b.step = 4) : exec (.bistStepDone h o reads) s =
    .next (modHerd (overwriteCoefs (bistMemory s { b with step := 5, dieTemp := (getDie s (dieOfHerd h)).temp }
      (o.memFails.filter fun m => m.unit.toNat == h.val)).1 h) h fun x => { x with
        test := some (bistMemory s { b with step := 5, dieTemp := (getDie s (dieOfHerd h)).temp }
          (o.memFails.filter fun m => m.unit.toNat == h.val)).2 }) := by
  have under : ((getHerd s h).st != .selfTest) = false := by rw [tested]; rfl
  simp only [exec, execBistStepDone, runs, under, run, step, Bool.not_true, Bool.false_eq_true, if_false]

theorem exec_bistStepDone_last (step : b.step = 7) : exec (.bistStepDone h o reads) s =
    .next (bistFinish (checkReads (reads.filter fun r => herdOf r.1 == h) s) h b) := by
  have under : ((getHerd s h).st != .selfTest) = false := by rw [tested]; rfl
  simp only [exec, execBistStepDone, runs, under, run, step, Bool.not_true, Bool.false_eq_true, if_false]

end

/-- A new failure that fits its spares takes an entry of a table with room, and is repaired. -/
theorem repairAll_new {tab : List Repair} {m : MemFail} (fits : m.fits = true) (room : tab.length < 4096)
    (new : Repair.mk m.unit m.mem m.addr m.bit ∉ tab) :
    repairAll tab [m] = (tab ++ [Repair.mk m.unit m.mem m.addr m.bit], [(m.mem, m.addr, m.bit, 1)]) := by
  simp [repairAll, fits, new, Nat.not_le.mpr room]

/-- A repaired failure is found in the run, in the table and in a MEM_REPAIR. -/
theorem bistMemory_new (s : State) (k : BistRun) {m : MemFail} (fits : m.fits = true)
    (room : s.nv.repairs.length < 4096) (new : Repair.mk m.unit m.mem m.addr m.bit ∉ s.nv.repairs) : ∃ l,
    bistMemory s k [m] =
      (postGlobal { s with nv := { s.nv with repairs := s.nv.repairs ++ [Repair.mk m.unit m.mem m.addr m.bit] } } 73 l,
        { k with memFails := k.memFails ++ [(m.mem, m.addr, m.bit, 1)], repairs := k.repairs + 1 }) := by
  refine ⟨[(0, 2, (s.nv.repairs ++ [Repair.mk m.unit m.mem m.addr m.bit]).length)], ?_⟩
  simp [bistMemory, insertFail, repairAll_new fits room new]

/-! ### The end of a self-test (R155, R460, R461) -/

section
variable {s t u : State}

theorem bistDeliver_gens (r : RingId) (fs : List Fld) (l : List DataDesc) (s : State) :
    (bistDeliver r fs l s).1.io.gens = s.io.gens := by
  have finished (u : State) (k : Taken) (n : Nat) (fs : List Fld) : (finishIn u k n fs).io.gens = u.io.gens := by
    unfold finishIn
    split
    · exact putCompletion_gens _ _ _
    · rfl
  induction l generalizing s with
  | nil => rfl
  | cons d rest ih =>
    unfold bistDeliver
    simp only []
    split
    · exact finished _ _ _ _
    · exact (ih _).trans (putCompletion_gens _ _ _)

theorem bistTryDeliver_gens (s : State) (h : HerdId) : (bistTryDeliver s h).io.gens = s.io.gens := by
  unfold bistTryDeliver
  split
  · simp only []
    split
    · exact bistDeliver_gens _ _ _ s
    · exact bistDeliver_gens _ _ _ s
  · rfl

theorem posted_bistReport (s : State) (h : HerdId) (k : BistRun) (result : Nat) :
    Posted s (bistReport s h k result) (globalSrc 72) 1 := by
  unfold bistReport
  refine (posted_postGlobal _ 72 _).trans (congrArg (· + BitVec.ofNat 32 1) (genOf_of_gens ?_ _))
  exact bistTryDeliver_gens _ _

theorem checkReads_gens (l : List (PortId × CtxKey × CtxRead)) (s : State) :
    genOf (checkReads l s) (globalSrc 72) = genOf s (globalSrc 72) := by
  unfold checkReads
  refine forEach_keeps (fun t => genOf t (globalSrc 72)) (fun t r => ?_) l s
  split
  · unfold checkRead
    split
    · rfl
    · exact (genOf_postGlobal_ne _ 51 _ (by decide)).trans rfl
  · rfl

/-- A herd's state and its test. -/
def testOf (x : Herd) : HerdSt × Option BistRun := (x.st, x.test)

theorem testOf_setSt (s : State) (p : PortId) (st : PortSt) (h : HerdId) :
    testOf (getHerd (setSt s p st) h) = testOf (getHerd s h) := by
  have released (u : State) (g : HerdId) (b : Bool) :
      testOf (getHerd (releaseMode u g b) h) = testOf (getHerd u h) := by
    unfold releaseMode
    simp only []
    split
    · have cleared : testOf (getHerd (setHerd u g { getHerd u g with resolved := none }) h) = testOf (getHerd u h) := by
        by_cases e : h = g
        · rw [e, getHerd_setHerd_self]
          rfl
        · rw [getHerd_setHerd_ne _ _ e]
      split
      · exact cleared
      · rw [getHerd_retarget, cleared]
    · rfl
  unfold setSt
  simp only []
  rw [released]
  split
  · rfl
  · by_cases e : h = herdOf p
    · rw [e, getHerd_modHerd_self]
      rfl
    · rw [getHerd_modHerd_ne _ _ e]
      rfl

/-- A port that a test has held goes back, or into safe state where that holds it (R393). -/
def givenBack (good : Bool) (s : State) (p : PortId) : State :=
  if good && !safeCovers s p then releasePort s p else setSt s p .safe

theorem testOf_givenBack (good : Bool) (s : State) (p : PortId) (h : HerdId) :
    testOf (getHerd (givenBack good s p) h) = testOf (getHerd s h) := by
  unfold givenBack releasePort
  simp only []
  split
  · split
    · exact testOf_setSt s p _ h
    · exact testOf_setSt s p _ h
    · exact testOf_setSt (draw (clearAttempts s p)).2 p .negotiate h
  · exact testOf_setSt s p _ h

theorem silent_givenBack (good : Bool) (s : State) (p : PortId) : Silent p s (givenBack good s p) := by
  unfold givenBack releasePort
  simp only []
  split
  · split
    · exact silent_setSt s p _
    · exact silent_setSt s p _
    · exact (silent_modPort s p _).trans (silent_newAttempt _ p)
  · exact silent_setSt s p _

/-- The copy of a port's statistics that a test has kept is gone (R155). -/
def unfrozen (s : State) (p : PortId) : State := modPort s p fun y => { y with frozenCopy := none }

theorem bistFinish_eq (s : State) (h : HerdId) (k : BistRun) : bistFinish s h k =
    forEach (portsOf h) (givenBack (bistResult k (freeNat s).1 ≤ 1))
      (forEach (portsOf h) unfrozen
        (modHerd (bistReport (freeNat s).2 h k (bistResult k (freeNat s).1)) h fun x =>
          { x with test := none, st := if bistResult k (freeNat s).1 ≤ 1 then .normal else .failed })) := rfl

theorem bistFinish_herd (s : State) (h : HerdId) (k : BistRun) : testOf (getHerd (bistFinish s h k) h) =
    (if bistResult k (freeNat s).1 ≤ 1 then .normal else .failed, none) := by
  rw [bistFinish_eq, forEach_keeps (fun u => testOf (getHerd u h)) (fun u p => testOf_givenBack _ u p h),
    forEach_keeps (fun u => testOf (getHerd u h)) (f := unfrozen) (fun u p => rfl), getHerd_modHerd_self]
  rfl

theorem posted_bistFinish (s : State) (h : HerdId) (k : BistRun) :
    Posted s (bistFinish s h k) (globalSrc 72) 1 := by
  have gens : (bistFinish s h k).io.gens =
      (bistReport (freeNat s).2 h k (bistResult k (freeNat s).1)).io.gens := by
    rw [bistFinish_eq, forEach_keeps (fun u => u.io.gens) (fun u p => (silent_givenBack _ u p).gens),
      forEach_keeps (fun u => u.io.gens) (f := unfrozen) (fun u p => rfl), modHerd_io]
  exact (genOf_of_gens gens _).trans (posted_bistReport (freeNat s).2 h k _)

/-- After a failed test the herd's ports are in safe state. -/
theorem bistFinish_safe {h : HerdId} {k : BistRun} (failed : 1 < bistResult k (freeNat s).1) {p : PortId}
    (m : p ∈ portsOf h) : (getPort (bistFinish s h k) p).st = .safe := by
  have given (u : State) : (getPort (givenBack (bistResult k (freeNat s).1 ≤ 1) u p) p).st = .safe := by
    obtain ⟨time, lane, seen, self⟩ := setSt_self u p .safe
    rw [decide_eq_false (Nat.not_le.mpr failed), givenBack, Bool.false_and, if_neg Bool.false_ne_true, self]
  rw [bistFinish_eq]
  exact getPort_forEach_mem (at_ := id) (P := fun _ y => y.st = .safe) (fun u q => (silent_givenBack _ u q).others)
    given (portsOf h) (by rw [List.map_id]; exact portsOf_nodup h) m _

theorem bistResult_passed {k : BistRun} (logic : k.logicFail = 0) (memory : k.memFails.any unrepaired = false)
    (free : Nat) : bistResult k free ≤ 1 := by
  simp only [bistResult, logic, memory, ne_eq, not_true_eq_false, decide_false, Bool.false_and, Bool.false_eq_true,
    if_false]
  split <;> decide

theorem bistResult_failed {k : BistRun} (logic : k.logicFail ≠ 0) (free : Nat) : 1 < bistResult k free := by
  simp only [bistResult, logic, ne_eq, not_false_eq_true, decide_true, Bool.true_and, if_true]
  split
  · omega
  · decide

/-- A waiting record goes to the first buffer that takes it (R461). -/
theorem bistDeliver_first {r : RingId} {d : DataDesc} (fs : List Fld) (rest : List DataDesc) (s : State)
    (good : descOk true d = true) (long : 320 ≤ d.length.toNat) :
    (bistDeliver r fs (d :: rest) s).2 = true ∧ Bus.data d.addr fs ∈ (bistDeliver r fs (d :: rest) s).1.io.bus := by
  unfold bistDeliver
  simp only [good, long, decide_true, Bool.and_self, if_true, true_and]
  refine finishIn_data (k := (popBuf s r d rest).1) ?_ 320 fs
  have held : (getRing (modRing (popBuf s r d rest).2 r fun x => { x with taken := x.taken ++ [(popBuf s r d rest).1] })
      r).taken = (getRing (popBuf s r d rest).2 r).taken ++ [(popBuf s r d rest).1] := by
    rw [modRing, getRing_setRing_self]
  refine held ▸ ?_
  exact List.mem_append_right _ List.mem_cons_self

end

/-- Settles O13: a test opens on its herd and ports (`testOpened_herd`, `testOpened_ports`), its steps are those of
`exec_bistStepDone_*`, and what it ends with turns on RESULT (`bistResult_passed`, `bistResult_failed`). -/
theorem bistRows : Obligations.BistRows := by
  unfold Obligations.BistRows
  refine ⟨?opens, ?logic, ?memory, ?passed, ?failed, ?record⟩
  case opens =>
    intro c h s turn gate alone idle settled
    obtain ⟨u, k, r, f, stays, run⟩ := exec_bistRun turn gate alone idle settled
    obtain ⟨st, path, bank⟩ := testOpened_herd u h k r
    refine ⟨_, run, ?_, fun p m => ?_, ?_⟩
    · refine ((congrArg (·.1) ((runsAlike_completeOk 0x0701 c (herdBlocks h) 0).herd h) :)).trans ?_
      rw [getHerd_copies, herdRun, st]
    · rw [getPort_completeOk]
      refine (statesStay_forEach (fun t q => ?_) _ _ p).trans (testOpened_ports u h k r m)
      intro p'
      by_cases e : p' = q
      · rw [e, getPort_modPort_self, stays]
      · rw [getPort_modPort_ne _ _ e]
    · rw [show (getHerd _ h).obs = _ from getObs_completeOk _ 0x0701 c (herdBlocks h) 0 h, getObs, getHerd_copies]
      exact ⟨path, bank⟩
  case logic =>
    intro h o reads b s tested run step runs
    refine ⟨_, exec_bistStepDone_logic o reads tested run runs step, by rw [getHerd_modHerd_self],
      fun g n => getHerd_modHerd_ne _ _ n, onlyIn_of_pick (by simp)⟩
  case memory =>
    intro h o reads b s tested run step first found room new runs
    have own : o.memFails.filter (fun m => m.unit.toNat == h.val) = [⟨BitVec.ofNat 16 h.val, 7, 12, 3, true⟩] := by
      have fits : h.val % 65536 = h.val := Nat.mod_eq_of_lt (by omega)
      rw [found]
      simp [fits]
    obtain ⟨l, memory⟩ := bistMemory_new s { b with step := 5, dieTemp := (getDie s (dieOfHerd h)).temp }
      (m := ⟨BitVec.ofNat 16 h.val, 7, 12, 3, true⟩) rfl room new
    refine ⟨_, exec_bistStepDone_memory o reads tested run runs step, ?_⟩
    rw [own, memory, getHerd_modHerd_self]
    have frame (u : State) (f : Herd → Herd) : OnlyIn [.fresh, .ports, .herds] u (modHerd (overwriteCoefs u h) h f) :=
      onlyIn_of_pick (by simp)
    refine ⟨by rw [first]; rfl, ?_, ?_⟩
    · rw [frame _ _ .nv (by simp), postGlobal_nv]
    · exact (genOf_of_gens (congrArg Io.gens (frame _ _ .io (by simp))) _).trans
        (posted_postGlobal { s with nv := _ } 73 l)
  case passed =>
    intro h o reads b s tested run step logic memory runs
    have herd := bistFinish_herd (checkReads (reads.filter fun r => herdOf r.1 == h) s) h b
    rw [if_pos (bistResult_passed logic memory _)] at herd
    refine ⟨_, exec_bistStepDone_last o reads tested run runs step, (congrArg (·.1) herd :), (congrArg (·.2) herd :), ?_⟩
    exact (posted_bistFinish _ h b).trans (congrArg (· + BitVec.ofNat 32 1) (checkReads_gens _ s))
  case failed =>
    intro h o reads b s tested run step logic runs
    have herd := bistFinish_herd (checkReads (reads.filter fun r => herdOf r.1 == h) s) h b
    rw [if_neg (Nat.not_le.mpr (bistResult_failed logic _))] at herd
    refine ⟨_, exec_bistStepDone_last o reads tested run runs step, (congrArg (·.1) herd :),
      fun p m => bistFinish_safe (bistResult_failed logic _) m, ?_⟩
    exact (posted_bistFinish _ h b).trans (congrArg (· + BitVec.ofNat 32 1) (checkReads_gens _ s))
  case record =>
    intro h s fs r d rest waits ring bufs good long clock
    obtain ⟨taken, data⟩ := bistDeliver_first (r := r) fs rest s good long
    refine ⟨modHerd (bistDeliver r fs (d :: rest) s).1 h fun x => { x with waitRec := none }, ?_, ?_, data⟩
    · simp only [exec, execBistRecordDelivery, clock, bistTryDeliver, waits, ring, bufs, taken, Bool.not_true,
        Bool.false_eq_true, if_false, if_true]
    · rw [getHerd_modHerd_self]

end Sys2Proof.Proofs
end

section
/-!
PROOFS of the family 12_commands, 13_coherent_state, 15_events_faults, 16_clocks, 17_power, 19_firmware_update,
20_security and 21: the status mirror, LED frames and injected faults (O23).
-/

namespace Sys2Proof.Proofs

open Sys2Proof.Machine Sys2Proof.Safety

/-! ### The blocks of the mirror (R342, R343, R346) -/

section
variable {s : State}

theorem blockNo_injective : Function.Injective blockNo := by
  intro o q e
  cases o <;> cases q <;>
    simp only [blockNo, MirrorObj.herd.injEq, MirrorObj.port.injEq, reduceCtorEq, Fin.ext_iff] at e ⊢ <;>
    omega

theorem mem_allPorts (p : PortId) : p ∈ allPorts :=
  List.mem_flatMap.mpr ⟨herdOf p, List.mem_finRange _, mem_portsOf_herdOf p⟩

theorem mem_allBlocks (o : MirrorObj) : o ∈ allBlocks := by
  cases o with
  | hub => simp [allBlocks]
  | gens => simp [allBlocks]
  | herd h => simp [allBlocks, allHerds]
  | port p => simp [allBlocks, mem_allPorts]

theorem herdOf_of_mem {h : HerdId} {p : PortId} (m : p ∈ portsOf h) : herdOf p = h := by
  obtain ⟨k, -, rfl⟩ := List.mem_map.mp m
  refine Fin.ext ?_
  simp only [herdOf, portOf]
  omega

theorem allPorts_nodup : allPorts.Nodup := by
  refine List.nodup_flatMap.mpr ⟨fun h _ => portsOf_nodup h, (List.nodup_finRange 64).imp fun {h g} other p m n => ?_⟩
  exact other ((herdOf_of_mem m).symm.trans (herdOf_of_mem n))

theorem allBlocks_nodup : allBlocks.Nodup := by
  have herds : (allHerds.map MirrorObj.herd).Nodup :=
    (List.nodup_finRange 64).map fun _ _ e => MirrorObj.herd.inj e
  have ports : (allPorts.map MirrorObj.port).Nodup := allPorts_nodup.map fun _ _ e => MirrorObj.port.inj e
  simp [allBlocks, List.nodup_append, herds, ports]

/-- A block's SEQ (R343). -/
def seqOf (s : State) (o : MirrorObj) : BitVec 32 := tabGet 0 s.io.seqs (blockNo o)

theorem seqOf_mirrorWrite_self (on : mirrorOn s = true) (o : MirrorObj) :
    seqOf (mirrorWrite s o) o = seqOf s o + 2 := by
  rw [mirrorWrite, if_pos on]
  exact tabGet_tabSet_self _ _ _ _

theorem seqOf_mirrorWrite_ne {o q : MirrorObj} (other : q ≠ o) : seqOf (mirrorWrite s o) q = seqOf s q := by
  unfold mirrorWrite
  split
  · exact tabGet_tabSet_ne _ _ _ fun e => other (blockNo_injective e)
  · rfl

theorem mirrorOn_mirrorWrite (s : State) (o : MirrorObj) : mirrorOn (mirrorWrite s o) = mirrorOn s := by
  unfold mirrorWrite
  split <;> rfl

/-- Writes of blocks, each once, advance the SEQ of each by two. -/
theorem seqOf_forEach (l : List MirrorObj) {s : State} (on : mirrorOn s = true) (once : l.Nodup) (o : MirrorObj) :
    seqOf (forEach l mirrorWrite s) o = if o ∈ l then seqOf s o + 2 else seqOf s o := by
  unfold forEach
  induction l generalizing s with
  | nil => simp
  | cons q l ih =>
    obtain ⟨out, once⟩ := List.nodup_cons.mp once
    rw [List.foldl_cons, ih ((mirrorOn_mirrorWrite s q).trans on) once]
    by_cases same : o = q
    · subst same
      rw [if_neg out, if_pos List.mem_cons_self, seqOf_mirrorWrite_self on]
    · simp only [seqOf_mirrorWrite_ne same, List.mem_cons, same, false_or]

theorem seqOf_mirrorAll (on : mirrorOn s = true) (o : MirrorObj) : seqOf (mirrorAll s) o = seqOf s o + 2 := by
  rw [mirrorAll, seqOf_forEach allBlocks on allBlocks_nodup, if_pos (mem_allBlocks o)]

theorem mirrorEnabled_of_regs {t : State} (regs : t.regs = s.regs) : mirrorEnabled t = mirrorEnabled s := by
  rw [mirrorEnabled, regVal, regs, ← regVal, ← mirrorEnabled]

theorem writePlain_mirror (s : State) (v : BitVec 32) : writePlain s 0x308 v = writeMirror s v := by
  rw [writePlain, if_neg (by decide), if_neg (by decide), if_pos rfl]

/-- A mirror that is being enabled, before its first writes. -/
def enabling (s : State) (v : BitVec 32) : State :=
  regStore { s with heldLow := none, io := { s.io with dmaErr := s.io.dmaErr && !v.getLsbD 1 } } 0x308 v

theorem seqOf_enabling (s : State) (v : BitVec 32) (o : MirrorObj) : seqOf (enabling s v) o = seqOf s o := rfl

theorem enabling_on {v : BitVec 32} (run : s.pwr.st = .run) (can : canWrite s = true) (set : v.getLsbD 0 = true) :
    mirrorEnabled (enabling s v) = true ∧ mirrorOn (enabling s v) = true := by
  have enabled : mirrorEnabled (enabling s v) = true := by
    have mask : (regMask 0x308).getLsbD 0 = true := by decide
    rw [mirrorEnabled, enabling, regVal_regStore_self, BitVec.getLsbD_and, set, mask]
    rfl
  have hub : canWrite (enabling s v) = true := can
  have power : (enabling s v).pwr.st = .run := run
  refine ⟨enabled, ?_⟩
  rw [mirrorOn, enabled, hub, power]
  rfl

theorem exec_mirrorEnable {v : BitVec 32} (up : busUp s = true) (run : s.pwr.st = .run)
    (off : mirrorEnabled s = false) (set : v.getLsbD 0 = true) :
    exec (.mirrorEnable v) s = .next (mirrorAll (enabling s v)) := by
  have was : mirrorEnabled { s with heldLow := none } = false := off
  simp only [exec, execMirrorEnable]
  rw [busWrite_plain v up run (by decide) rfl (by decide) (by decide), writePlain_mirror]
  simp only [writeMirror, was, set, Bool.not_false, Bool.and_self, if_true]
  rfl

/-- A mirror whose write has failed, before it is told (R341). -/
def mirrorFailed (s : State) : State :=
  regStore { (freeNat s).2 with io := { s.io with dmaErr := true } } 0x308 0

theorem mirrorFailed_enabled (s : State) : mirrorEnabled (mirrorFailed s) = false := by
  rw [mirrorEnabled, mirrorFailed, regVal_regStore_self]
  decide

theorem mirrorFailed_io (s : State) : (mirrorFailed s).io = { s.io with dmaErr := true } := rfl

theorem exec_mirrorWriteError (a : BitVec 64) (on : mirrorEnabled s = true) (clock : s.clk.refclkOk = true) :
    ∃ l, exec (.mirrorWriteError a) s =
      .next (raiseFault (postGlobal (mirrorFailed s) 116 l) 0xA51 (freeNat s).1) := by
  simp only [exec, execMirrorWriteError, clock, on, Bool.not_true, Bool.false_eq_true, if_false, if_true]
  exact ⟨_, rfl⟩

/-! ### LED frames (R368) -/

theorem tabGet_map {α β : Type} (f : α → β) (d : α) (t : Tab α) (k : Nat) :
    tabGet (f d) (t.map fun e => (e.1, f e.2)) k = f (tabGet d t k) := by
  induction t with
  | nil => rfl
  | cons e t ih =>
    simp only [List.map_cons, tabGet]
    split
    · rfl
    · split
      · rfl
      · exact ih

/-- A port after a frame: what it carried has been shown. -/
def unlit (x : Port) : Port := { x with active := false }

def shown (s : State) : State := { s with ports := s.ports.map fun e => (e.1, unlit e.2) }

theorem getPort_shown (s : State) (p : PortId) : getPort (shown s) p = unlit (getPort s p) :=
  tabGet_map unlit Port.reset s.ports p.val

/-! ### Injected faults (R365, R398) -/

/-- A write of FLT_INJECT names its source in the low half of its word. -/
theorem injectWord {a : Nat} (small : a < 2 ^ 16) (source : BitVec 16) :
    (BitVec.ofNat 32 (2 ^ 16 * a) ||| source.setWidth 32).toNat = 2 ^ 16 * a + source.toNat := by
  have high : (BitVec.ofNat 32 (2 ^ 16 * a)).toNat = 2 ^ 16 * a := by
    rw [BitVec.toNat_ofNat]
    omega
  have low : (source.setWidth 32).toNat = source.toNat := by
    rw [BitVec.toNat_setWidth]
    omega
  rw [BitVec.toNat_or, high, low, ← Nat.two_pow_add_eq_or_of_lt source.isLt]

/-- FLT_INJECT: GO with MODE 1 for a pair, 0 for an event. -/
def injectVal (network : Bool) (source : BitVec 16) : BitVec 32 :=
  (if network then 0x80010000 else 0x80000000) ||| source.setWidth 32

theorem injectVal_fields (network : Bool) (source : BitVec 16) :
    fld (injectVal network source) 0 16 = source.toNat ∧ fld (injectVal network source) 16 2 = bit network ∧
    (injectVal network source).getLsbD 31 = true ∧ (injectVal network source).getLsbD 16 = network := by
  have small := source.isLt
  cases network with
  | false =>
    have word : (injectVal false source).toNat = 2 ^ 16 * 0x8000 + source.toNat :=
      injectWord (a := 0x8000) (by decide) source
    simp only [fld, BitVec.getLsbD, word, Nat.shiftRight_eq_div_pow, Nat.testBit_eq_decide_div_mod_eq, bit,
      Bool.false_eq_true, if_false, decide_eq_true_eq, decide_eq_false_iff_not]
    omega
  | true =>
    have word : (injectVal true source).toNat = 2 ^ 16 * 0x8001 + source.toNat :=
      injectWord (a := 0x8001) (by decide) source
    simp only [fld, BitVec.getLsbD, word, Nat.shiftRight_eq_div_pow, Nat.testBit_eq_decide_div_mod_eq, bit,
      if_true, decide_eq_true_eq]
    omega

section
variable {source : BitVec 16} {network : Bool} (up : busUp s = true) (run : s.pwr.st = .run)
  (factory : factoryOn s = true) (loose : (fltDef source.toNat).fixed = false)
  (counts : raises s ⟨source.toNat, 0, true, network⟩ = true)
include up run factory loose

/-- In factory test mode a source that starts no fixed reaction is raised by itself, as injected. -/
theorem busWrite_inject : busWrite s 0x534 (injectVal network source) =
    collect { s with heldLow := none } [⟨source.toNat, 0, true, network⟩] := by
  obtain ⟨src, mode, go, net⟩ := injectVal_fields network source
  have allowed : factoryOn { s with heldLow := none } = true := factory
  have known : ¬1 < bit network := by cases network <;> decide
  rw [busWrite_plain _ up run (by decide) rfl (by decide) (by decide), writePlain, if_neg (by decide),
    if_neg (by decide), if_neg (by decide), if_neg (by decide), if_pos rfl]
  simp only [writeInject, inject, allowed, src, mode, go, net, known, loose, decide_false, Bool.not_true, Bool.or_self,
    Bool.false_eq_true, if_false, if_true]

include counts

/-- The record of an injected fault, which holds no cause (R381). -/
theorem injected_recorded (t : State) (injects : t = busWrite s 0x534 (injectVal network source)) :
    t.flt.next = s.flt.next + 1 ∧ t.flt.raised = s.flt.raised ∧ t.flt.network = s.flt.network ∧
    (∃ r ∈ t.flt.volatile, r.record = s.flt.next ∧ r.source = source ∧
      r.cls = BitVec.ofNat 8 (if network then 4 else (fltDef source.toNat).cls) ∧ r.injected = true) ∧
    Posted s t (globalSrc 32) 1 := by
  have clock : s.clk.refclkOk = true := by
    unfold busUp at up
    simp only [Bool.and_eq_true] at up
    exact up.1.1
  have counts' : raises { s with heldLow := none } ⟨source.toNat, 0, true, network⟩ = true := counts
  obtain ⟨next, raised, net, ⟨r, m, name⟩, posted⟩ := collect_one (s := { s with heldLow := none }) clock counts'
  rw [injects, busWrite_inject up run factory loose]
  simp only [named, namedBy, Prod.mk.injEq, BitVec.ofNat_toNat, BitVec.setWidth_eq] at name
  obtain ⟨record, src, cls, -, inj⟩ := name
  refine ⟨next, ?_, ?_, ⟨r, m, record, src, cls, inj⟩, posted⟩
  · rw [raised, raisedBy, Bool.not_true, Bool.and_false, if_neg Bool.false_ne_true]
  · rw [net, networkBy, Bool.not_true, Bool.and_false, if_neg Bool.false_ne_true]

end

end

/-- A raise that counts meets no cause of its kind (R381). -/
theorem clear_of_raises {s : State} {r : Raise} (counts : raises s r = true) :
    if r.network then tabGet false s.flt.network r.source = false else tabGet false s.flt.raised r.source = false := by
  unfold raises at counts
  split at counts
  · contradiction
  · obtain ⟨-, free⟩ := Bool.and_eq_true_iff.mp counts
    split at free
    · rename_i pair
      rw [if_pos pair]
      simpa using free
    · rename_i event
      rw [if_neg event]
      simp only [Bool.and_eq_true, Bool.not_eq_true'] at free
      exact free.1.2

/-- Settles O23: the mirror's blocks have numbers of their own (`allBlocks_nodup`), so enabling writes each once
(`seqOf_mirrorAll`); an injected fault is one cycle of the collector (`collect_one`). -/
theorem mirrorRows : Obligations.MirrorRows := by
  unfold Obligations.MirrorRows
  refine ⟨?enable, ?block, ?error, ?led, ?event, ?pair⟩
  case enable =>
    intro v s up run can off set
    obtain ⟨enabled, on⟩ := enabling_on run can set
    have advanced (o : MirrorObj) : seqOf (mirrorAll (enabling s v)) o = seqOf s o + 2 := by
      rw [seqOf_mirrorAll on, seqOf_enabling]
    refine ⟨_, exec_mirrorEnable up run off set, ?_, advanced⟩
    have regs : (mirrorAll (enabling s v)).regs = (enabling s v).regs :=
      onlyIn_of_pick (m := [.io]) (by simp) .regs (by simp)
    exact (mirrorEnabled_of_regs regs).trans enabled
  case block =>
    intro o s on
    refine ⟨mirrorPut s o, ?_, rfl, tabGet_tabSet_self _ _ _ _, onlyIn_of_pick (by simp)⟩
    simp only [exec, execMirrorMeasuredUpdate, mirrorWrite, on, if_true]
  case error =>
    intro a s on clock
    obtain ⟨l, run⟩ := exec_mirrorWriteError a on clock
    have raised := raises_raiseFault (postGlobal (mirrorFailed s) 116 l) 0xA51 (freeNat s).1
    have posted : Posted s (postGlobal (mirrorFailed s) 116 l) (globalSrc 116) 1 := by
      rw [Posted, posted_postGlobal, genOf, mirrorFailed_io, genOf]
    have told : (postGlobal (mirrorFailed s) 116 l).io.dmaErr = true := by rw [postGlobal_dmaErr, mirrorFailed_io]
    have regs : (raiseFault (postGlobal (mirrorFailed s) 116 l) 0xA51 (freeNat s).1).regs = (mirrorFailed s).regs :=
      onlyIn_of_pick (m := [.ports, .herds, .io, .flt, .fw, .nv]) (by simp) .regs (by simp)
    exact ⟨_, run, raised.dmaErr.trans told, (mirrorEnabled_of_regs regs).trans (mirrorFailed_enabled s),
      (raised.gens _ (by decide) (by decide)).trans posted⟩
  case led =>
    intro s enabled pads runs
    refine ⟨emit (shown s) (.led (allPorts.flatMap fun p =>
      [shownPort s p == 8, ledBit s p (fld (regVal s 0x704) 16 2)])), ?_, rfl, fun p => ?_, ?_⟩
    · simp only [exec, execLedFrame, enabled, pads, runs, Bool.not_false, Bool.and_self, if_true, shown, unlit]
    · rw [getPort_emit, getPort_shown, unlit]
    · exact onlyIn_of_pick (by simp [shown])
  case event =>
    intro source s up run factory loose counts
    obtain ⟨next, raised, -, ⟨r, m, record, src, -, inj⟩, posted⟩ :=
      injected_recorded up run factory loose counts _ rfl
    have clear : tabGet false s.flt.raised source.toNat = false := clear_of_raises counts
    exact ⟨_, rfl, next, ⟨r, m, record, src, inj⟩, (congrArg (tabGet false · source.toNat) raised).trans clear, posted⟩
  case pair =>
    intro source s up run factory loose counts
    obtain ⟨next, -, net, ⟨r, m, record, src, cls, inj⟩, posted⟩ :=
      injected_recorded up run factory loose counts _ rfl
    have clear : tabGet false s.flt.network source.toNat = false := clear_of_raises counts
    exact ⟨_, rfl, next, ⟨r, m, record, src, inj, cls⟩, (congrArg (tabGet false · source.toNat) net).trans clear, posted⟩

end Sys2Proof.Proofs
end
